-- ==== Sys2Proof/Word.lean ====
section
/-! DEFINITION. The word types of the Massif (R8) and the plainest arithmetic on them. -/

namespace Sys2Proof

/-- A byte, 8 bits (R8). -/
abbrev Byte := BitVec 8
/-- A halfword, 16 bits (R8). -/
abbrev Half := BitVec 16
/-- A word, 32 bits (R8): also an instruction (R227). -/
abbrev W32 := BitVec 32
/-- A doubleword, 64 bits (R8): the width of an x register. -/
abbrev W64 := BitVec 64
/-- A vector register, 256 bits (R56). -/
abbrev V256 := BitVec 256
/-- A register field of an instruction word (R228). -/
abbrev Reg := BitVec 5

/-- `SExt(n, v)` of R244: the two's complement value of the low `n` bits of `v`, as a doubleword. -/
def sext64 (n : Nat) (v : Nat) : W64 := (BitVec.ofNat n v).signExtend 64

/-- 0 or 1 as a doubleword: the result of a comparison (R246). -/
def ofBool64 (b : Bool) : W64 := if b then 1 else 0

/-- The field `hi:lo` of a number (bits are numbered from 0 at the least significant end, R9). -/
def bits (v hi lo : Nat) : Nat := (v >>> lo) % 2 ^ (hi + 1 - lo)

/-- Bit `i` of a number. -/
def bit (v i : Nat) : Bool := v.testBit i

/-- The bytes of a number, little-endian (R9). -/
def toBytes : Nat → Nat → List Byte
  | 0, _ => []
  | n + 1, v => BitVec.ofNat 8 v :: toBytes n (v / 256)

/-- The number that little-endian bytes stand for (R9). -/
def ofBytes : List Byte → Nat
  | [] => 0
  | b :: bs => b.toNat + 256 * ofBytes bs

end Sys2Proof
end

