-- ==== Sys2Proof/Machine/Float.lean ====
section
/-! DEFINITION. The floating-point formats (R211 to R216) and the operations on them (R213 to R215, R252, R253): operands are
read as exact numbers, results are computed exactly and rounded once. -/

namespace Sys2Proof.Machine

/-- An IEEE format: exponent and fraction widths (R211). -/
structure FFmt where
  eb : Nat
  fb : Nat
  deriving DecidableEq, Repr

/-- FP64 (R211). -/
def FFmt.fp64 : FFmt := ⟨11, 52⟩
/-- FP32 (R211). -/
def FFmt.fp32 : FFmt := ⟨8, 23⟩
/-- FP16 (R211). -/
def FFmt.fp16 : FFmt := ⟨5, 10⟩
/-- BF16 (R211). -/
def FFmt.bf16 : FFmt := ⟨8, 7⟩

/-- Bits of a format. -/
def FFmt.width (f : FFmt) : Nat := 1 + f.eb + f.fb
/-- The exponent bias (R211). -/
def FFmt.bias (f : FFmt) : Nat := 2 ^ (f.eb - 1) - 1
/-- The exponent field of infinities and NaNs. -/
def FFmt.ones (f : FFmt) : Nat := 2 ^ f.eb - 1
/-- The sign bit alone. -/
def FFmt.signBit (f : FFmt) : Nat := 2 ^ (f.eb + f.fb)
/-- The canonical NaN (R215). -/
def FFmt.nan (f : FFmt) : Nat := f.ones * 2 ^ f.fb + 2 ^ (f.fb - 1)
/-- An infinity of a sign. -/
def FFmt.inf (f : FFmt) (neg : Bool) : Nat := (if neg then f.signBit else 0) + f.ones * 2 ^ f.fb
/-- The largest finite value of a sign. -/
def FFmt.maxFinite (f : FFmt) (neg : Bool) : Nat := (if neg then f.signBit else 0) + f.ones * 2 ^ f.fb - 1
/-- A zero of a sign. -/
def FFmt.zero (f : FFmt) (neg : Bool) : Nat := if neg then f.signBit else 0

/-- What an encoding stands for: a NaN, an infinity, or exactly `±mant · 2^exp` (zero when `mant` is 0). -/
inductive Num where
  | nan (signalling : Bool)
  | inf (neg : Bool)
  | fin (neg : Bool) (mant : Nat) (exp : Int)
  deriving DecidableEq, Repr

/-- Reads an encoding (R212). -/
def FFmt.read (f : FFmt) (c : Nat) : Num :=
  let neg := c.testBit (f.eb + f.fb)
  let e := bits c (f.eb + f.fb - 1) f.fb
  let m := c % 2 ^ f.fb
  if e = f.ones then (if m = 0 then .inf neg else .nan (!m.testBit (f.fb - 1)))
  else if e = 0 then .fin neg m (1 - (f.bias : Int) - f.fb)
  else .fin neg (2 ^ f.fb + m) ((e : Int) - f.bias - f.fb)

/-- Whether the number is a NaN. -/
def Num.isNan : Num → Bool
  | .nan _ => true
  | _ => false
/-- Whether the number is a signalling NaN. -/
def Num.isSNan : Num → Bool
  | .nan sg => sg
  | _ => false
/-- The number negated. -/
def Num.neg : Num → Num
  | .nan sg => .nan sg
  | .inf n => .inf (!n)
  | .fin n m e => .fin (!n) m e
/-- Whether the number is finite. -/
def Num.isFinite : Num → Bool
  | .fin .. => true
  | _ => false

/-- The signed numerator of a finite number at exponent `e0`, at most its own. -/
def scaled (neg : Bool) (m : Nat) (e e0 : Int) : Int :=
  let v : Int := (m : Int) * 2 ^ (e - e0).toNat
  if neg then -v else v

/-- Order of the numbers that a comparison sees: both finite or infinite; −0 equals +0 (R253). -/
def Num.lt : Num → Num → Bool
  | .nan _, _ => false
  | _, .nan _ => false
  | .inf n, .inf n' => n && !n'
  | .inf n, .fin .. => n
  | .fin .., .inf n' => !n'
  | .fin n m e, .fin n' m' e' => decide (scaled n m e (Min.min e e') < scaled n' m' e' (Min.min e e'))

/-- Equality of value (R253). -/
def Num.eqv : Num → Num → Bool
  | .nan _, _ => false
  | _, .nan _ => false
  | .inf n, .inf n' => n == n'
  | .inf _, .fin .. => false
  | .fin .., .inf _ => false
  | .fin n m e, .fin n' m' e' => decide (scaled n m e (Min.min e e') = scaled n' m' e' (Min.min e e'))

/-- The sticky flags of one operation (R214). -/
structure FFlags where
  nv : Bool := false
  dz : Bool := false
  of : Bool := false
  uf : Bool := false
  nx : Bool := false
  deriving DecidableEq, Repr

/-- The flags of two operations together. -/
def FFlags.or (a b : FFlags) : FFlags :=
  ⟨a.nv || b.nv, a.dz || b.dz, a.of || b.of, a.uf || b.uf, a.nx || b.nx⟩

/-- The flags at their places in FPCTL, bits 7:3 (R70). -/
def FFlags.word (f : FFlags) : W64 :=
  BitVec.ofNat 64 ((if f.nv then 128 else 0) + (if f.dz then 64 else 0) + (if f.of then 32 else 0) + (if f.uf then 16 else 0) +
    (if f.nx then 8 else 0))

/-- The rounding of the matrix unit and of the banks (R100, R324), to nearest even with the overflow of IEEE 754: not a mode of FPCTL.RM. -/
def rneIeee : Nat := 8

/-- Whether a magnitude `m / 2^d` rounds up from its floor in a mode (R213). -/
def roundsUp (rm : Nat) (neg : Bool) (m d : Nat) : Bool :=
  let q := m >>> d
  let r := m % 2 ^ d
  match rm with
  | 0 | 8 => decide (2 * r > 2 ^ d) || (decide (2 * r = 2 ^ d) && decide (0 < d) && q.testBit 0)
  | 1 => false
  | 2 => decide (r ≠ 0) && !neg
  | 3 => decide (r ≠ 0) && neg
  | _ => decide (r ≠ 0) && decide (2 * r ≥ 2 ^ d)

/-- The magnitude `m · 2^e` as a multiple of `2^q`, rounded in a mode (R213). -/
def roundTo (rm : Nat) (neg : Bool) (m : Nat) (e q : Int) : Nat :=
  if q ≤ e then m <<< (e - q).toNat
  else
    let d := (q - e).toNat
    (m >>> d) + (if roundsUp rm neg m d then 1 else 0)

/-- Whether that rounding loses something. -/
def inexact (m : Nat) (e q : Int) : Bool := decide (e < q) && decide (m % 2 ^ (q - e).toNat ≠ 0)

/-- The exact value `±m · 2^e` rounded once to a format, with the flags OF, UF and NX (R213, R214). A value of zero takes the
sign that is given. A value beyond the largest finite magnitude is infinite in modes 0 and 4 also where rounding would bring it back, and OF
is not set then (log 112). -/
def FFmt.round (f : FFmt) (rm : Nat) (neg : Bool) (m : Nat) (e : Int) : Nat × FFlags :=
  if m = 0 then (f.zero neg, {})
  else
    let top : Int := e + Nat.log2 m
    let emin : Int := 1 - (f.bias : Int)
    let qFree : Int := top - f.fb
    let q : Int := if qFree < emin - f.fb then emin - f.fb else qFree
    let r0 := roundTo rm neg m e q
    let carry := decide (r0 = 2 ^ (f.fb + 1))
    let r := if carry then 2 ^ f.fb else r0
    let q := if carry then q + 1 else q
    let lost := inexact m e (if carry then q - 1 else q)
    let field : Int := q + f.fb + f.bias
    let tiny := decide (top < emin) &&
      !(decide (top = emin - 1) && decide (roundTo rm neg m e qFree = 2 ^ (f.fb + 1)))
    if r ≥ 2 ^ f.fb ∧ field ≥ (f.ones : Int) then
      let c :=
        match rm with
        | 1 => f.maxFinite neg
        | 2 => if neg then f.maxFinite true else f.inf false
        | 3 => if neg then f.inf true else f.maxFinite false
        | _ => f.inf neg
      (c, { of := true, nx := true })
    else
      let beyond := decide (rm = 0 ∨ rm = 4) && decide (field + 1 = (f.ones : Int)) && decide (r + 1 = 2 ^ (f.fb + 1)) && inexact m e q &&
        decide (roundTo 1 neg m e q = r)
      if beyond then (f.inf neg, { nx := true }) else
      let mag := if r < 2 ^ f.fb then r else field.toNat * 2 ^ f.fb + (r - 2 ^ f.fb)
      (f.zero neg + mag, { uf := tiny && lost, nx := lost })

/-- The sign of an exact zero that a sum of opposite signs gives (R213). -/
def zeroSign (rm : Nat) : Bool := rm == 3

/-- The sum of two numbers, rounded (R252, R213 to R215). -/
def FFmt.addNum (f : FFmt) (rm : Nat) (a b : Num) : Nat × FFlags :=
  match a, b with
  | .nan s, y => (f.nan, { nv := s || y.isSNan })
  | .inf _, .nan s => (f.nan, { nv := s })
  | .fin .., .nan s => (f.nan, { nv := s })
  | .inf n, .inf n' => if n = n' then (f.inf n, {}) else (f.nan, { nv := true })
  | .inf n, .fin .. => (f.inf n, {})
  | .fin .., .inf n => (f.inf n, {})
  | .fin n m e, .fin n' m' e' =>
    let e0 := Min.min e e'
    let v := scaled n m e e0 + scaled n' m' e' e0
    if v = 0 then
      if m = 0 ∧ m' = 0 ∧ n = n' then (f.zero n, {}) else (f.zero (zeroSign rm), {})
    else f.round rm (decide (v < 0)) v.natAbs e0

/-- The exact product of two numbers; a NaN where either is one; none for 0 × ∞. -/
def Num.mul : Num → Num → Option Num
  | .fin n m e, .fin n' m' e' => some (.fin (n != n') (m * m') (e + e'))
  | .inf n, .inf n' => some (.inf (n != n'))
  | .inf n, .fin n' m _ => if m = 0 then none else some (.inf (n != n'))
  | .fin n m _, .inf n' => if m = 0 then none else some (.inf (n != n'))
  | .nan b, _ => some (.nan b)
  | _, .nan b => some (.nan b)

/-- The product, rounded (R252). -/
def FFmt.mulNum (f : FFmt) (rm : Nat) (a b : Num) : Nat × FFlags :=
  if a.isNan || b.isNan then (f.nan, { nv := a.isSNan || b.isSNan })
  else
    match a.mul b with
    | none => (f.nan, { nv := true })
    | some (.fin n m e) => f.round rm n m e
    | some (.inf n) => (f.inf n, {})
    | some (.nan _) => (f.nan, {})

/-- `±(A × B) ± D` with one rounding (R252): the product and the addend take the given negations first. -/
def FFmt.fmaNum (f : FFmt) (rm : Nat) (negProd negAdd : Bool) (a b d : Num) : Nat × FFlags :=
  let d := if negAdd then d.neg else d
  let sg := a.isSNan || b.isSNan || d.isSNan
  if a.isNan || b.isNan then (f.nan, { nv := sg })
  else
    match a.mul b with
    | none => (f.nan, { nv := true })
    | some p =>
      if d.isNan then (f.nan, { nv := sg }) else f.addNum rm (if negProd then p.neg else p) d

/-- The quotient, rounded (R252). -/
def FFmt.divNum (f : FFmt) (rm : Nat) (a b : Num) : Nat × FFlags :=
  match a, b with
  | .nan s, y => (f.nan, { nv := s || y.isSNan })
  | .inf _, .nan s => (f.nan, { nv := s })
  | .fin .., .nan s => (f.nan, { nv := s })
  | .inf _, .inf _ => (f.nan, { nv := true })
  | .inf n, .fin n' _ _ => (f.inf (n != n'), {})
  | .fin n _ _, .inf n' => (f.zero (n != n'), {})
  | .fin n m e, .fin n' m' e' =>
    if m' = 0 then
      if m = 0 then (f.nan, { nv := true }) else (f.inf (n != n'), { dz := true })
    else
      let k := f.fb + 4 + Nat.log2 m'
      let q := (m <<< k) / m'
      let sticky := if (m <<< k) % m' = 0 then 0 else 1
      f.round rm (n != n') (2 * q + sticky) (e - e' - k - 1)

/-- Bits of an integer square root, from bit `k` down. -/
def isqrtFrom (n : Nat) : Nat → Nat → Nat
  | 0, r => r
  | k + 1, r => if (r + 2 ^ k) * (r + 2 ^ k) ≤ n then isqrtFrom n k (r + 2 ^ k) else isqrtFrom n k r

/-- The integer square root. -/
def isqrt (n : Nat) : Nat := isqrtFrom n (Nat.log2 n / 2 + 1) 0

/-- The square root, rounded (R252). -/
def FFmt.sqrtNum (f : FFmt) (rm : Nat) : Num → Nat × FFlags
  | .nan s => (f.nan, { nv := s })
  | .inf n => if n then (f.nan, { nv := true }) else (f.inf false, {})
  | .fin n m e =>
    if m = 0 then (f.zero n, {})
    else if n then (f.nan, { nv := true })
    else
      let k := 2 * (f.fb + 4) + (if e % 2 = 0 then 0 else 1)
      let m' := m <<< k
      let r := isqrt m'
      f.round rm false (2 * r + (if r * r = m' then 0 else 1)) ((e - k) / 2 - 1)

/-- FMIN and FMAX (R253): −0 below +0, a single NaN gives the other operand's bits, two give the canonical NaN. -/
def FFmt.minMax (f : FFmt) (greater : Bool) (a b : Nat) : Nat × FFlags :=
  let x := f.read a
  let y := f.read b
  let fl : FFlags := { nv := x.isSNan || y.isSNan }
  if x.isNan && y.isNan then (f.nan, fl)
  else if x.isNan then (b, fl)
  else if y.isNan then (a, fl)
  else
    let aFirst := x.lt y || (x.eqv y && a.testBit (f.eb + f.fb))
    (if aFirst = greater then b else a, fl)

/-- FEQ: 1 when equal; NV for a signalling NaN (R253). -/
def FFmt.feq (f : FFmt) (a b : Nat) : Bool × FFlags :=
  ((f.read a).eqv (f.read b), { nv := (f.read a).isSNan || (f.read b).isSNan })
/-- FLT: NV for any NaN (R253). -/
def FFmt.flt (f : FFmt) (a b : Nat) : Bool × FFlags :=
  ((f.read a).lt (f.read b), { nv := (f.read a).isNan || (f.read b).isNan })
/-- FLE: NV for any NaN (R253). -/
def FFmt.fle (f : FFmt) (a b : Nat) : Bool × FFlags :=
  ((f.read a).lt (f.read b) || (f.read a).eqv (f.read b), { nv := (f.read a).isNan || (f.read b).isNan })

/-- The class mask of FCLASS (R253). -/
def FFmt.fclass (f : FFmt) (c : Nat) : Nat :=
  match f.read c with
  | .nan sg => if sg then 2 ^ 8 else 2 ^ 9
  | .inf n => if n then 2 ^ 0 else 2 ^ 7
  | .fin n m _ =>
    if m = 0 then (if n then 2 ^ 3 else 2 ^ 4)
    else if m < 2 ^ f.fb then (if n then 2 ^ 2 else 2 ^ 5)
    else if n then 2 ^ 1 else 2 ^ 6

/-- A conversion between IEEE formats (R223). -/
def convert (src dst : FFmt) (rm : Nat) (c : Nat) : Nat × FFlags :=
  match src.read c with
  | .nan s => (dst.nan, { nv := s })
  | .inf n => (dst.inf n, {})
  | .fin n m e => dst.round rm n m e

/-- An integer rounded to a format (R223); zero gives +0. -/
def ofInt (dst : FFmt) (rm : Nat) (v : Int) : Nat × FFlags := dst.round rm (decide (v < 0)) v.natAbs 0

/-- The least value of an integer type (R222). -/
def intLeast (signed : Bool) (w : Nat) : Int := if signed then -(2 ^ (w - 1)) else 0
/-- The greatest value of an integer type (R222). -/
def intGreatest (signed : Bool) (w : Nat) : Int := if signed then 2 ^ (w - 1) - 1 else 2 ^ w - 1

/-- A conversion into an integer type (R223, R255): the value, the flags, and whether Sat clamped (QNT_SAT). -/
def toInt (src : FFmt) (rm : Nat) (signed : Bool) (w : Nat) (c : Nat) : Int × FFlags × Bool :=
  match src.read c with
  | .nan _ => (0, { nv := true }, false)
  | .inf n => (if n then intLeast signed w else intGreatest signed w, { nv := true }, true)
  | .fin n m e =>
    let r := roundTo rm n m e 0
    let v : Int := if n then -(r : Int) else r
    if v < intLeast signed w then (intLeast signed w, { nv := true }, true)
    else if v > intGreatest signed w then (intGreatest signed w, { nv := true }, true)
    else (v, { nx := inexact m e 0 }, false)

end Sys2Proof.Machine
end

