-- ==== Sys2Proof/Machine/Numbers.lean ====
section
/-! DEFINITION. The narrow floats, codebooks, block scales, integer types and block quantisation (R216 to R225). -/

namespace Sys2Proof.Machine

/-- The narrow formats and the codebook format that blocks are quantised into. -/
inductive NFmt where
  | e4 | e5
  deriving DecidableEq, Repr

/-- Fraction bits of a narrow format (R211). -/
def NFmt.fb : NFmt → Nat
  | .e4 => 3
  | .e5 => 2
/-- Bias of a narrow format (R211). -/
def NFmt.bias : NFmt → Nat
  | .e4 => 7
  | .e5 => 15
/-- The largest finite code of a sign (R217). -/
def NFmt.largest (f : NFmt) (neg : Bool) : Nat :=
  (match f with
   | .e4 => 0x7E
   | .e5 => 0x7B) + (if neg then 0x80 else 0)
/-- What an infinite source converts to (R223). -/
def NFmt.infinite (f : NFmt) (neg : Bool) : Nat :=
  (match f with
   | .e4 => 0x7E
   | .e5 => 0x7C) + (if neg then 0x80 else 0)

/-- The value of a narrow code (R216). -/
def NFmt.read (f : NFmt) (c : Nat) : Num :=
  if c = 0 then .fin false 0 0
  else
    let neg := c.testBit 7
    let e := bits c 6 f.fb
    let m := c % 2 ^ f.fb
    if f = .e4 ∧ e = 15 ∧ m = 7 then .nan false
    else if f = .e5 ∧ e = 31 then (if m = 0 then .inf neg else .nan false)
    else .fin neg (2 ^ f.fb + m) ((e : Int) - f.bias - f.fb)

/-- A finite number as an integer times a power of two: `n · 2^e`. -/
structure Dyadic where
  n : Int
  e : Int
  deriving DecidableEq, Repr

/-- The dyadic of a finite number; 0 for the others. -/
def Num.dyadic : Num → Dyadic
  | .fin neg m e => ⟨if neg then -(m : Int) else m, e⟩
  | _ => ⟨0, 0⟩

/-- `a ≤ b` exactly. -/
def Dyadic.le (a b : Dyadic) : Bool :=
  let e0 := Min.min a.e b.e
  decide (a.n * 2 ^ (a.e - e0).toNat ≤ b.n * 2 ^ (b.e - e0).toNat)

/-- `a < b` exactly. -/
def Dyadic.lt (a b : Dyadic) : Bool := !b.le a

/-- The magnitude. -/
def Dyadic.abs (a : Dyadic) : Dyadic := ⟨a.n.natAbs, a.e⟩

/-- The distance of two numbers. -/
def Dyadic.dist (a b : Dyadic) : Dyadic :=
  let e0 := Min.min a.e b.e
  ⟨(a.n * 2 ^ (a.e - e0).toNat - b.n * 2 ^ (b.e - e0).toNat).natAbs, e0⟩

/-- The exact sum of two numbers. -/
def Dyadic.add (a b : Dyadic) : Dyadic :=
  let e0 := Min.min a.e b.e
  ⟨a.n * 2 ^ (a.e - e0).toNat + b.n * 2 ^ (b.e - e0).toNat, e0⟩

/-- The exact product of two numbers. -/
def Dyadic.mul (a b : Dyadic) : Dyadic := ⟨a.n * b.n, a.e + b.e⟩

/-- The negation of a number. -/
def Dyadic.neg (a : Dyadic) : Dyadic := ⟨-a.n, a.e⟩

/-- The exact sum of some numbers. -/
def Dyadic.sum (l : List Dyadic) : Dyadic := l.foldl Dyadic.add ⟨0, 0⟩

/-- Whether a code's value is finite. -/
def NFmt.finiteCode (f : NFmt) (c : Nat) : Bool := (f.read c).isFinite

/-- The better of two codes for a number: the nearer; on a tie 0x00 wins, and then the code whose bit 0 is 0 (R217). -/
def NFmt.better (f : NFmt) (x : Dyadic) (best c : Nat) : Nat :=
  let db := x.dist (f.read best).dyadic
  let dc := x.dist (f.read c).dyadic
  if dc.lt db then c
  else if db.lt dc then best
  else if best = 0 then best
  else if c = 0 then c
  else if c % 2 = 0 then c else best

/-- `Near8` (R217): the code of a finite number, and whether it saturated. -/
def NFmt.near (f : NFmt) (x : Dyadic) : Nat × Bool :=
  let neg := decide (x.n < 0)
  if ((f.read (f.largest false)).dyadic).lt x.abs then (f.largest neg, true)
  else (((List.range 256).filter f.finiteCode).foldl (f.better x) 0, false)

/-- A conversion of an IEEE value into a narrow format (R223): code and QNT_SAT, QNT_NAN, QNT_INF. -/
def NFmt.ofIeee (f : NFmt) (src : FFmt) (c : Nat) : Nat × Bool × Bool × Bool :=
  match src.read c with
  | .nan _ => (0x7F, false, true, false)
  | .inf n => (f.infinite n, false, false, true)
  | .fin n m e =>
    let r := f.near (Num.fin n m e).dyadic
    (r.1, r.2, false, false)

/-- A conversion of a narrow code into an IEEE format, exact (R223). -/
def NFmt.toIeee (f : NFmt) (dst : FFmt) (c : Nat) : Nat :=
  match f.read c with
  | .nan _ => dst.nan
  | .inf n => dst.inf n
  | .fin n m e => (dst.round 0 n m e).1

/-! ## Codebooks (R218 to R220) -/

/-- Entry `i` of a codebook: sixteen BF16 values, entry 0 least significant. -/
def cbEntry (cb : V256) (i : Nat) : Nat := (cb.toNat >>> (16 * i)) % 65536

/-- The value of an entry. -/
def cbValue (cb : V256) (i : Nat) : Num := FFmt.bf16.read (cbEntry cb i)

/-- A codebook is valid when all entries are finite and one is non-zero (R219). -/
def cbValid (cb : V256) : Bool :=
  (List.range 16).all (fun i => (cbValue cb i).isFinite) && (List.range 16).any (fun i => cbEntry cb i % 32768 != 0)

/-- The lowest index of least magnitude: it is the lowest zero where an entry is zero (R219). -/
def cbZero (cb : V256) : Nat :=
  (List.range 16).foldl (fun best i => if (cbValue cb i).dyadic.abs.lt (cbValue cb best).dyadic.abs then i else best) 0

/-- The indices of the entries of a sign bit, or all sixteen where none has it (R219, R220). -/
def cbOfSign (cb : V256) (neg : Bool) : List Nat :=
  let l := (List.range 16).filter fun i => (cbEntry cb i).testBit 15 == neg
  if l.isEmpty then List.range 16 else l

/-- The lowest index of greatest magnitude among some indices. -/
def cbLargestOf (cb : V256) (l : List Nat) : Nat :=
  l.foldl (fun best i => if (cbValue cb best).dyadic.abs.lt (cbValue cb i).dyadic.abs then i else best) (l.headD 0)

/-- The largest-magnitude code of a sign (R219). -/
def cbLargest (cb : V256) (neg : Bool) : Nat := cbLargestOf cb (cbOfSign cb neg)

/-- M_C, the greatest magnitude over all entries (R219). -/
def cbMax (cb : V256) : Dyadic := (cbValue cb (cbLargestOf cb (List.range 16))).dyadic.abs

/-- `NearC` (R220): the lowest index whose entry is nearest, and whether QNT_SAT is set. -/
def cbNear (cb : V256) (neg : Bool) (q : Dyadic) : Nat × Bool :=
  let i := (List.range 16).foldl (fun best i =>
    if (q.dist (cbValue cb i).dyadic).lt (q.dist (cbValue cb best).dyadic) then i else best) 0
  (i, ((cbValue cb (cbLargest cb neg)).dyadic.abs).lt q.abs)

/-! ## Block quantisation (R221, R224, R225) -/

/-- What a block is quantised into. -/
inductive QFmt where
  | n (f : NFmt)
  | c4 (cb : V256)
  deriving DecidableEq, Repr

/-- M of R224: 448, 57,344 or M_C. -/
def QFmt.bound : QFmt → Dyadic
  | .n .e4 => ⟨448, 0⟩
  | .n .e5 => ⟨57344, 0⟩
  | .c4 cb => cbMax cb

/-- Z of R224. -/
def QFmt.zeroCode : QFmt → Nat
  | .n _ => 0
  | .c4 cb => cbZero cb

/-- The largest-magnitude code of a sign (R224). -/
def QFmt.largest (f : QFmt) (neg : Bool) : Nat :=
  match f with
  | .n g => g.largest neg
  | .c4 cb => cbLargest cb neg

/-- The code of `x · 2^k` for a finite element, and QNT_SAT. -/
def QFmt.code (f : QFmt) (neg : Bool) (q : Dyadic) : Nat × Bool :=
  match f with
  | .n g => g.near q
  | .c4 cb => cbNear cb neg q

/-- The smallest integer `e` from `e0` upward, within `n` tries, with `a ≤ m · 2^e`. -/
def leastScale (a m : Dyadic) : Nat → Int → Int
  | 0, e => e
  | n + 1, e => if a.le ⟨m.n, m.e + e⟩ then e else leastScale a m n (e + 1)

/-- The exponent of a non-zero dyadic's leading bit. -/
def Dyadic.top (a : Dyadic) : Int := a.e + Nat.log2 a.n.natAbs

/-- The scale exponent of R224 for the greatest magnitude `a`: the search starts below every possible answer. -/
def scaleExp (a m : Dyadic) : Int :=
  if a.n = 0 then 0 else leastScale a m 4 (a.top - m.top - 1)

/-- QNT_SAT, QNT_NAN, QNT_INF of an operation. -/
structure QFlags where
  sat : Bool := false
  nan : Bool := false
  inf : Bool := false
  deriving DecidableEq, Repr

/-- The flags of two operations together. -/
def QFlags.or (a b : QFlags) : QFlags := ⟨a.sat || b.sat, a.nan || b.nan, a.inf || b.inf⟩

/-- The flags at their places in QNTFLAGS, bits 2:0 (R70). -/
def QFlags.word (f : QFlags) : W64 :=
  BitVec.ofNat 64 ((if f.sat then 4 else 0) + (if f.nan then 2 else 0) + (if f.inf then 1 else 0))

/-- One element of `QuantBlock` under scale `s` (R224). -/
def quantElem (f : QFmt) (s : Nat) (x : Num) : Nat × QFlags :=
  match x with
  | .inf n => (f.largest n, { inf := true })
  | .fin n m e =>
    let r := f.code n ⟨if n then -(m : Int) else m, e + 127 - s⟩
    (r.1, { sat := r.2 })
  | .nan _ => (f.zeroCode, {})

/-- `QuantBlock` (R224): the S8 scale, the codes, and the QNTFLAGS bits. -/
def quantBlock (f : QFmt) (xs : List Num) : Nat × List Nat × QFlags :=
  if xs.any Num.isNan then (0xFF, xs.map fun _ => f.zeroCode, { nan := true })
  else
    let a := xs.foldl (fun (best : Dyadic) x => if x.isFinite && best.lt x.dyadic.abs then x.dyadic.abs else best) ⟨0, 0⟩
    let e := scaleExp a f.bound
    let s := (Min.min (Max.max (e + 127) 0) 254).toNat
    let rs := xs.map (quantElem f s)
    (s, rs.map Prod.fst, rs.foldl (fun fl r => fl.or r.2) {})

/-- The exact value of an element under scale `s` (R221): `Decode(code) · 2^(s − 127)`; NaN under scale 0xFF. -/
def scaledNum (s : Nat) (x : Num) : Num :=
  if s = 0xFF then .nan false
  else
    match x with
    | .fin n m e => .fin n m (e + s - 127)
    | y => y

/-- An element dequantised into FP32 or BF16 (R225). -/
def dequant (dst : FFmt) (s : Nat) (x : Num) : Nat :=
  match scaledNum s x with
  | .nan _ => dst.nan
  | .inf n => dst.inf n
  | .fin n m e => (dst.round 0 n m e).1

/-- `Wrap(t, v)` (R222), as the bits of the type. -/
def wrapInt (w : Nat) (v : Int) : Nat := (v % (2 ^ w : Int)).toNat

/-- `Sat(t, v)` (R222): the clamped value and whether the clamp changed it. -/
def satInt (signed : Bool) (w : Nat) (v : Int) : Int × Bool :=
  if v < intLeast signed w then (intLeast signed w, true)
  else if v > intGreatest signed w then (intGreatest signed w, true)
  else (v, false)

end Sys2Proof.Machine
end

