-- ==== Sys2Proof/Config.lean ====
section
/-! DEFINITION. What an implementation fixes and the spec leaves open: constants with no body, so that nothing can be proved
from a value of theirs. -/

namespace Sys2Proof.Config

/-- SHA-384 digest of the image that boots from flash: 0 the loader, 1 management, 2 scheduler, 3 fabric firmware (R391).
The images are no part of the spec (log 5). -/
opaque bootDigest : Nat → BitVec 384

/-- SCHEMA of the image that boots from flash (R391, log 5). -/
opaque bootSchema : Nat → Nat

/-- Security version of the image that boots from flash (R391, log 5). -/
opaque bootSvn : Nat → Nat

/-- The package's RSA-3072 attestation signature of a digest, 384 bytes little-endian: its key never leaves the root of trust
(R399, log 6). -/
opaque rsaSignature : BitVec 384 → BitVec 3072

/-- The package's SLH-DSA-SHA2-192s attestation signature of a digest, 16,224 bytes little-endian (R399, log 6). -/
opaque slhSignature : BitVec 384 → BitVec 129792

/-- Length and bytes of the body of a shard of the n-th Cairn: the spec gives the headers of shards and the manifest, and not the bodies of shards
(R411, log 43). -/
opaque shardLength : Nat → Nat → Nat
opaque shardByte : Nat → Nat → Nat → BitVec 8

/-- KIND, TSET and TAG of the record of a copy that a power failure cut short (R407): the image does not hold its request (log 45). -/
opaque cutCopyRecord : Nat → BitVec 64

/-- VERSION, FLOOR and HASVAL of a commons word after an uncorrectable error in them (R384, log 47). -/
opaque lostVersion : Nat → BitVec 16
opaque lostFloor : Nat → BitVec 16
opaque lostHasval : Nat → Bool

/-- The instruction word fetched from a bank word that holds an uncorrectable error (R83, log 91). -/
opaque badWord : Nat → BitVec 32

/-- What the core's hardware reads of its own from a bank word that holds an uncorrectable error: a channel descriptor, a waiting signal's first
words, a saved binding or SENDLEFT; by the word and by a number that tells readings apart (R83, R384, log 91). -/
opaque badMeta : Nat → Nat → BitVec 64

/-- The address that an uncorrectable error in a copy engine's buffer is reported with (R340, R384, log 47). -/
opaque bufferErrorAddr : Nat → BitVec 64

/-- How many bytes sections 2 and 3 of a control-plane image take, and what they are, by the cycle of the trap, and whether a mailbox would end later than
15 ms after the trap, by that cycle and the bytes before it (R406, log 44). -/
opaque imageTables : Nat → Nat
opaque imageByte : Nat → Nat → BitVec 8
opaque imageLate : Nat → Nat → Bool

/-- Whether an image, known by its digest, asks at its commit that its SVN become the floor (R397, log 65). -/
opaque floorAsked : BitVec 384 → Bool

/-- The digest that a raised SVN floor extends MV4 with, by the digest of the image that asked (R392, log 65). -/
opaque floorDigest : BitVec 384 → BitVec 384

/-- EVENT of the log entry of a raised SVN floor (R392, log 65). -/
opaque floorEvent : Nat

/-- The SCHEMA that introduced a KIND of journal entry (R396, log 98). -/
opaque journalSchema : Nat → Nat

/-- Length and SHA-384 of a state blob, by the image that exports it and the cycle of the export (R394, log 98). -/
opaque blobLength : BitVec 384 → Nat → Nat
opaque blobDigest : BitVec 384 → Nat → BitVec 384

end Sys2Proof.Config
end

