-- ==== Sys2Proof/Machine/Map.lean ====
section
/-! DEFINITION. Finite maps as plain data: a list of key and value pairs with rising keys. Sparse tables of the machine and
its memories are held so; what an unlisted key reads as is named where the map is read. -/

namespace Sys2Proof.Machine

/-- A sparse table: key and value, keys strictly rising. -/
abbrev SMap (α : Type) := List (Nat × α)

/-- The value at a key, or the table's default where the key is not listed. -/
def SMap.get {α : Type} (d : α) : SMap α → Nat → α
  | [], _ => d
  | (j, v) :: m, k => if j = k then v else SMap.get d m k

/-- The value at a key, if the key is listed. -/
def SMap.find {α : Type} : SMap α → Nat → Option α
  | [], _ => none
  | (j, v) :: m, k => if j = k then some v else SMap.find m k

/-- Lists a value at a key, in key order. -/
def SMap.put {α : Type} : SMap α → Nat → α → SMap α
  | [], k, v => [(k, v)]
  | (j, w) :: m, k, v =>
    if k < j then (k, v) :: (j, w) :: m else if j = k then (k, v) :: m else (j, w) :: SMap.put m k v

/-- Takes a key off the list. -/
def SMap.del {α : Type} : SMap α → Nat → SMap α
  | [], _ => []
  | (j, w) :: m, k => if j = k then SMap.del m k else (j, w) :: SMap.del m k

/-- Writes a value in canonical form: the value that an unlisted key reads as is not listed. -/
def SMap.set {α : Type} [DecidableEq α] (d : α) (m : SMap α) (k : Nat) (v : α) : SMap α :=
  if v = d then SMap.del m k else SMap.put m k v

/-- Keys strictly rising. -/
def SMap.sorted {α : Type} : SMap α → Bool
  | [] => true
  | [_] => true
  | (j, _) :: (k, w) :: m => decide (j < k) && SMap.sorted ((k, w) :: m)

/-- Changes the value at a key, starting from the default where the key is not listed. -/
def SMap.modify {α : Type} (d : α) (m : SMap α) (k : Nat) (f : α → α) : SMap α :=
  SMap.put m k (f (SMap.get d m k))

/-- Changes every listed value. -/
def SMap.mapVals {α : Type} (m : SMap α) (f : Nat → α → α) : SMap α :=
  m.map fun p => (p.1, f p.1 p.2)

/-- The memory of one core, or the global memory: byte cells in canonical form. An unlisted byte reads 0: core memory
holds zero after reset (R83), a DRAM frame is written zero at its first mapping (R105), and the image store and the host's
memory read zero before they are written (log 4). -/
abbrev Memory := List Host.Cell

/-- One byte of a memory. -/
def Memory.read (m : Memory) (a : Nat) : Byte := SMap.get 0 m a

/-- Stores one byte, keeping the canonical form. -/
def Memory.write (m : Memory) (a : Nat) (b : Byte) : Memory := SMap.set 0 m a b

/-- The canonical form: addresses strictly rising, and no cell holding what an unlisted address reads as. -/
def Memory.wf (m : Memory) : Bool := SMap.sorted m && m.all fun c => decide (c.2 ≠ 0)

/-- `n` bytes from an address upward, placed by a map of addresses. -/
def Memory.readMap (m : Memory) (place : Nat → Nat) (a : Nat) : Nat → List Byte
  | 0 => []
  | n + 1 => m.read (place a) :: m.readMap place (a + 1) n

/-- Stores bytes from an address upward, placed by a map of addresses. -/
def Memory.writeMap (m : Memory) (place : Nat → Nat) (a : Nat) : List Byte → Memory
  | [] => m
  | b :: bs => Memory.writeMap (m.write (place a) b) place (a + 1) bs

/-- `n` bytes from an address upward. -/
def Memory.readN (m : Memory) (a n : Nat) : List Byte := m.readMap id a n

/-- Stores bytes from an address upward. -/
def Memory.writeN (m : Memory) (a : Nat) (bs : List Byte) : Memory := m.writeMap id a bs

/-- A doubleword of memory, little-endian (R9). -/
def Memory.read64 (m : Memory) (a : Nat) : W64 := BitVec.ofNat 64 (ofBytes (m.readN a 8))

/-- Stores a doubleword. -/
def Memory.write64 (m : Memory) (a : Nat) (v : W64) : Memory := m.writeN a (toBytes 8 v.toNat)

end Sys2Proof.Machine
end

