-- ==== Sys2Proof/EventArgs.lean ====
section
/-! DEFINITION. The argument types of the table's rows that are no instruction word: what an event of the device carries. -/

namespace Sys2Proof

/-- The source of a pre-emption request with its scope (R195). -/
inductive HoldSource where
  | slot (slot : Nat)          -- scheduler firmware, one slot
  | tenant (domain : Nat)      -- scheduler firmware, every slot of a domain on the core
  | power (ceiling : Nat)      -- power controller, handlers above the ceiling
  | cairn (domain : Nat)       -- Cairn engine, every slot of the tenant's domain
  | yielded (slot : Nat)       -- YIELD, until a firing has started on the thread set it freed (R311)
  deriving DecidableEq, Repr

/-- The modes of a Phiros Link port (R376). -/
inductive PortMode where
  | full | erasure | narrow | down
  deriving DecidableEq, Repr

/-- What a patrol scrub finds in a word (R384). -/
inductive ScrubFinding where
  | clean | corrected | uncorrectable
  /-- Uncorrectable in the metadata of a commons word. -/
  | metadata
  deriving DecidableEq, Repr

/-- One sensor reading of the power controller for one die, taken from outside the model (R205): energy drawn in the
last microsecond in µJ, mean power in W, hottest sensor in units of 0.125 °C (signed). -/
structure Reading where
  energy : Nat
  power : Nat
  temp : Int
  deriving DecidableEq, Repr

/-- A firmware image as the root of trust sees it (R391): which firmware (1 management, 2 scheduler, 3 fabric),
its SCHEMA and SVN, its bytes, and whether both signatures verify. -/
structure FwImage where
  fw : Nat
  schema : Nat
  svn : Nat
  body : List Byte
  signed : Bool
  deriving DecidableEq, Repr

/-- What the transport reads of a frame's header (R380): the connection, VER, FLAGS (bit 0 ACK present, bit 1 reply), PSN and ACKN. -/
structure FrameHead where
  conn : Nat
  ver : BitVec 8
  flags : BitVec 16
  psn : BitVec 32
  ackn : BitVec 32
  deriving DecidableEq, Repr

end Sys2Proof
end

