-- ==== Sys2Proof/Syntax.lean ====
section
/-! DEFINITION. The whole of the table of operations and events (spec/opcode_table.json): one constructor per row.
A row with a match and a mask is an instruction word, and its constructor carries the word's fields under the table's names;
a row without is a step of the device (95_what_each_step_holds.md), and its constructor says which place it falls on. -/

namespace Sys2Proof

/-- The Massif's instructions and events, in the table's order. -/
inductive Instr where
  /-- ADD (R246): Writes the sum of x[A] and x[B] modulo 2^64 to x[D]. -/
  | add (d a b : BitVec 5)
  /-- SUB (R246): Writes x[A] minus x[B] modulo 2^64 to x[D]. -/
  | sub (d a b : BitVec 5)
  /-- AND (R246): Bitwise and of x[A] and x[B]. -/
  | and (d a b : BitVec 5)
  /-- OR (R246): Bitwise or of x[A] and x[B]. -/
  | or (d a b : BitVec 5)
  /-- XOR (R246): Bitwise xor of x[A] and x[B]. -/
  | xor (d a b : BitVec 5)
  /-- ANDN (R246): x[A] and not x[B]. -/
  | andn (d a b : BitVec 5)
  /-- ORN (R246): x[A] or not x[B]. -/
  | orn (d a b : BitVec 5)
  /-- XNOR (R246): Not of x[A] xor x[B]. -/
  | xnor (d a b : BitVec 5)
  /-- SLL (R246): Shifts x[A] left by x[B] bits 5:0. -/
  | sll (d a b : BitVec 5)
  /-- SRL (R246): Shifts x[A] right logically by x[B] bits 5:0. -/
  | srl (d a b : BitVec 5)
  /-- SRA (R246): Shifts x[A] right arithmetically by x[B] bits 5:0. -/
  | sra (d a b : BitVec 5)
  /-- ROL (R246): Rotates x[A] left by x[B] bits 5:0. -/
  | rol (d a b : BitVec 5)
  /-- ROR (R246): Rotates x[A] right by x[B] bits 5:0. -/
  | ror (d a b : BitVec 5)
  /-- SLT (R246): Writes 1 when x[A] is less than x[B] signed, else 0. -/
  | slt (d a b : BitVec 5)
  /-- SLTU (R246): Writes 1 when x[A] is less than x[B] unsigned, else 0. -/
  | sltu (d a b : BitVec 5)
  /-- SEQ (R246): Writes 1 when x[A] equals x[B], else 0. -/
  | seq (d a b : BitVec 5)
  /-- MIN (R246): Signed minimum of x[A] and x[B]. -/
  | min (d a b : BitVec 5)
  /-- MAX (R246): Signed maximum of x[A] and x[B]. -/
  | max (d a b : BitVec 5)
  /-- MINU (R246): Unsigned minimum of x[A] and x[B]. -/
  | minu (d a b : BitVec 5)
  /-- MAXU (R246): Unsigned maximum of x[A] and x[B]. -/
  | maxu (d a b : BitVec 5)
  /-- MUL (R246): Low 64 bits of the product of x[A] and x[B]. -/
  | mul (d a b : BitVec 5)
  /-- MULH (R246): High 64 bits of the signed product. -/
  | mulh (d a b : BitVec 5)
  /-- MULHU (R246): High 64 bits of the unsigned product. -/
  | mulhu (d a b : BitVec 5)
  /-- MULHSU (R246): High 64 bits of signed x[A] times unsigned x[B]. -/
  | mulhsu (d a b : BitVec 5)
  /-- DIV (R247): Signed quotient truncated toward zero after a divider stall, never trapping. -/
  | div (d a b : BitVec 5)
  /-- DIVU (R247): Unsigned quotient after a divider stall. -/
  | divu (d a b : BitVec 5)
  /-- REM (R247): Signed remainder with the dividend's sign after a divider stall. -/
  | rem (d a b : BitVec 5)
  /-- REMU (R247): Unsigned remainder after a divider stall. -/
  | remu (d a b : BitVec 5)
  /-- CMOVZ (R246): Writes x[A] when x[B] is zero, else keeps x[D]. -/
  | cmovz (d a b : BitVec 5)
  /-- CMOVN (R246): Writes x[A] when x[B] is nonzero, else keeps x[D]. -/
  | cmovn (d a b : BitVec 5)
  /-- ADDW (R246): Sign-extended 32-bit sum. -/
  | addw (d a b : BitVec 5)
  /-- SUBW (R246): Sign-extended 32-bit difference. -/
  | subw (d a b : BitVec 5)
  /-- CLZ (R246): Counts leading zero bits of x[A]. -/
  | clz (d a : BitVec 5)
  /-- CTZ (R246): Counts trailing zero bits of x[A]. -/
  | ctz (d a : BitVec 5)
  /-- POPC (R246): Counts one bits of x[A]. -/
  | popc (d a : BitVec 5)
  /-- BREV (R246): Reverses the bit order of x[A]. -/
  | brev (d a : BitVec 5)
  /-- BSWAP (R246): Reverses the byte order of x[A]. -/
  | bswap (d a : BitVec 5)
  /-- SEXTB (R246): Sign-extends byte 0 of x[A]. -/
  | sextb (d a : BitVec 5)
  /-- SEXTH (R246): Sign-extends halfword 0 of x[A]. -/
  | sexth (d a : BitVec 5)
  /-- SEXTW (R246): Sign-extends word 0 of x[A]. -/
  | sextw (d a : BitVec 5)
  /-- ADDI (R248): Adds the sign-extended immediate to x[A]. -/
  | addi (d a : BitVec 5) (i : BitVec 16)
  /-- ANDI (R248): Ands x[A] with the sign-extended immediate. -/
  | andi (d a : BitVec 5) (i : BitVec 16)
  /-- ORI (R248): Ors x[A] with the zero-extended immediate. -/
  | ori (d a : BitVec 5) (i : BitVec 16)
  /-- XORI (R248): Xors x[A] with the zero-extended immediate. -/
  | xori (d a : BitVec 5) (i : BitVec 16)
  /-- SLTI (R248): Signed compare of x[A] against the immediate. -/
  | slti (d a : BitVec 5) (i : BitVec 16)
  /-- SLTIU (R248): Unsigned compare of x[A] against the sign-extended immediate. -/
  | sltiu (d a : BitVec 5) (i : BitVec 16)
  /-- EXTU (R249): Extracts a bit field of x[A] zero-extended. -/
  | extu (d a : BitVec 5) (l p : BitVec 6)
  /-- EXTS (R249): Extracts a bit field of x[A] sign-extended. -/
  | exts (d a : BitVec 5) (l p : BitVec 6)
  /-- INS (R249): Inserts low bits of x[A] into a field of x[D]. -/
  | ins (d a : BitVec 5) (l p : BitVec 6)
  /-- SLLI (R250): Shifts x[A] left by an immediate amount. -/
  | slli (d a : BitVec 5) (n : BitVec 6)
  /-- SRLI (R250): Shifts x[A] right logically by an immediate amount. -/
  | srli (d a : BitVec 5) (n : BitVec 6)
  /-- SRAI (R250): Shifts x[A] right arithmetically by an immediate amount. -/
  | srai (d a : BitVec 5) (n : BitVec 6)
  /-- RORI (R250): Rotates x[A] right by an immediate amount. -/
  | rori (d a : BitVec 5) (n : BitVec 6)
  /-- LUI (R248): Writes the immediate shifted left 16, sign-extended from 32 bits. -/
  | lui (d : BitVec 5) (i : BitVec 16)
  /-- SLOI (R248): Shifts x[A] left 16 and ors in the immediate. -/
  | sloi (d a : BitVec 5) (i : BitVec 16)
  /-- FADD (R252): Floating-point addition rounded once under the selected mode. -/
  | fadd (d a b : BitVec 5) (f : BitVec 2) (m : BitVec 3)
  /-- FSUB (R252): Floating-point subtraction rounded once. -/
  | fsub (d a b : BitVec 5) (f : BitVec 2) (m : BitVec 3)
  /-- FMUL (R252): Floating-point multiplication rounded once. -/
  | fmul (d a b : BitVec 5) (f : BitVec 2) (m : BitVec 3)
  /-- FDIV (R252): Floating-point division rounded once after a divider stall. -/
  | fdiv (d a b : BitVec 5) (f : BitVec 2) (m : BitVec 3)
  /-- FSQRT (R252): Floating-point square root rounded once after a divider stall. -/
  | fsqrt (d a : BitVec 5) (f : BitVec 2) (m : BitVec 3)
  /-- FMIN (R253): Lesser of two floating-point values, ordering -0 below +0. -/
  | fmin (d a b : BitVec 5) (f : BitVec 2) (m : BitVec 3)
  /-- FMAX (R253): Greater of two floating-point values. -/
  | fmax (d a b : BitVec 5) (f : BitVec 2) (m : BitVec 3)
  /-- FMA (R252): Fused A times B plus D with one rounding. -/
  | fma (d a b : BitVec 5) (f : BitVec 2) (m : BitVec 3)
  /-- FMS (R252): Fused A times B minus D with one rounding. -/
  | fms (d a b : BitVec 5) (f : BitVec 2) (m : BitVec 3)
  /-- FNMA (R252): Fused minus A times B plus D with one rounding. -/
  | fnma (d a b : BitVec 5) (f : BitVec 2) (m : BitVec 3)
  /-- FEQ (R253): Writes 1 when the operands are equal. -/
  | feq (d a b : BitVec 5) (f : BitVec 2)
  /-- FLT (R253): Writes 1 when A is less than B. -/
  | flt (d a b : BitVec 5) (f : BitVec 2)
  /-- FLE (R253): Writes 1 when A is at most B. -/
  | fle (d a b : BitVec 5) (f : BitVec 2)
  /-- FCLASS (R253): Writes the one-hot class mask of A. -/
  | fclass (d a : BitVec 5) (f : BitVec 2)
  /-- FSGNJ (R253): A with the sign of B. -/
  | fsgnj (d a b : BitVec 5) (f : BitVec 2)
  /-- FSGNJN (R253): A with the inverted sign of B. -/
  | fsgnjn (d a b : BitVec 5) (f : BitVec 2)
  /-- FSGNJX (R253): A with its sign xored with B's sign. -/
  | fsgnjx (d a b : BitVec 5) (f : BitVec 2)
  /-- CVT (R254): Converts x[A] between the element types named by TO and FROM. -/
  | cvt (d a : BitVec 5) (m : BitVec 3) (t f : BitVec 4)
  /-- BEQ (R256): Branches when x[P] equals x[Q]. -/
  | beq (p q : BitVec 5) (o : BitVec 16)
  /-- BNE (R256): Branches when x[P] differs from x[Q]. -/
  | bne (p q : BitVec 5) (o : BitVec 16)
  /-- BLT (R256): Branches when x[P] is less than x[Q] signed. -/
  | blt (p q : BitVec 5) (o : BitVec 16)
  /-- BGE (R256): Branches when x[P] is at least x[Q] signed. -/
  | bge (p q : BitVec 5) (o : BitVec 16)
  /-- BLTU (R256): Branches when x[P] is less than x[Q] unsigned. -/
  | bltu (p q : BitVec 5) (o : BitVec 16)
  /-- BGEU (R256): Branches when x[P] is at least x[Q] unsigned. -/
  | bgeu (p q : BitVec 5) (o : BitVec 16)
  /-- JAL (R257): Jumps pc-relative and writes pc+4 to x[D]. -/
  | jal (d : BitVec 5) (i : BitVec 16)
  /-- JALR (R257): Jumps to x[A] plus the immediate and writes pc+4 to x[D]. -/
  | jalr (d a : BitVec 5) (i : BitVec 16)
  /-- CODE_END_TRAP (R259): Traps REGION_DENY 0x05 at the boundary when the sequential pc runs past the code region. -/
  | codeEndTrap
  /-- LB (R279): Loads a sign-extended byte from core memory. -/
  | lb (d a : BitVec 5) (o : BitVec 16)
  /-- LBU (R279): Loads a zero-extended byte. -/
  | lbu (d a : BitVec 5) (o : BitVec 16)
  /-- LH (R279): Loads a sign-extended halfword. -/
  | lh (d a : BitVec 5) (o : BitVec 16)
  /-- LHU (R279): Loads a zero-extended halfword. -/
  | lhu (d a : BitVec 5) (o : BitVec 16)
  /-- LW (R279): Loads a sign-extended word. -/
  | lw (d a : BitVec 5) (o : BitVec 16)
  /-- LWU (R279): Loads a zero-extended word. -/
  | lwu (d a : BitVec 5) (o : BitVec 16)
  /-- LD (R279): Loads a doubleword. -/
  | ld (d a : BitVec 5) (o : BitVec 16)
  /-- SB (R279): Stores byte 0 of x[T] to core memory. -/
  | sb (t a : BitVec 5) (o : BitVec 16)
  /-- SH (R279): Stores halfword 0 of x[T]. -/
  | sh (t a : BitVec 5) (o : BitVec 16)
  /-- SW (R279): Stores word 0 of x[T]. -/
  | sw (t a : BitVec 5) (o : BitVec 16)
  /-- SD (R279): Stores x[T] as a doubleword. -/
  | sd (t a : BitVec 5) (o : BitVec 16)
  /-- SN (R279): Stores x[T] bits 3:0 into the chosen nibble of a byte. -/
  | sn (t a : BitVec 5) (o : BitVec 15) (h : BitVec 1)
  /-- CLD (R283): Sends a plain commons load; the value arrives later into x[D]. -/
  | cld (d a : BitVec 5)
  /-- CLD_GE (R283): Commons load of a version at or after ver, lodging a wait if needed. -/
  | cldGe (d a b : BitVec 5)
  /-- CLD_EQ (R283): Commons load of exactly version ver, from current value, shadow store or a lodged wait. -/
  | cldEq (d a b : BitVec 5)
  /-- CLD_ACQ (R283): Waits like CLD.GE and acts as an acquire. -/
  | cldAcq (d a b : BitVec 5)
  /-- CVER (R283): Reads a commons word's metadata into x[D]. -/
  | cver (d a : BitVec 5)
  /-- CST_B (R284): Commons byte store making a new version. -/
  | cstB (t a : BitVec 5)
  /-- CST_H (R284): Commons halfword store. -/
  | cstH (t a : BitVec 5)
  /-- CST_W (R284): Commons word store. -/
  | cstW (t a : BitVec 5)
  /-- CST_D (R284): Commons doubleword store replacing the word. -/
  | cstD (t a : BitVec 5)
  /-- CST_NL (R284): Commons store of the low nibble of a byte. -/
  | cstNl (t a : BitVec 5)
  /-- CST_NH (R284): Commons store of the high nibble of a byte. -/
  | cstNh (t a : BitVec 5)
  /-- CST_REL (R284): Commons doubleword store performed as a release. -/
  | cstRel (t a : BitVec 5)
  /-- CAADD (R285): Atomic add at the bank, returning the old value. -/
  | caadd (d a b : BitVec 5)
  /-- CAMIN (R285): Atomic signed minimum. -/
  | camin (d a b : BitVec 5)
  /-- CAMAX (R285): Atomic signed maximum. -/
  | camax (d a b : BitVec 5)
  /-- CAMINU (R285): Atomic unsigned minimum. -/
  | caminu (d a b : BitVec 5)
  /-- CAMAXU (R285): Atomic unsigned maximum. -/
  | camaxu (d a b : BitVec 5)
  /-- CAAND (R285): Atomic bitwise and. -/
  | caand (d a b : BitVec 5)
  /-- CAOR (R285): Atomic bitwise or. -/
  | caor (d a b : BitVec 5)
  /-- CAXOR (R285): Atomic bitwise xor. -/
  | caxor (d a b : BitVec 5)
  /-- CASWAP (R285): Atomic swap. -/
  | caswap (d a b : BitVec 5)
  /-- CACAS (R285): Atomic compare-and-swap against the captured x[D]. -/
  | cacas (d a b : BitVec 5)
  /-- CAFADD (R285): Atomic FP32 add into one half of a commons word. -/
  | cafadd (d a b : BitVec 5)
  /-- CDEFER (R286): Lodges a deferral that sends a message when the word reaches a version. -/
  | cdefer (d a b : BitVec 5) (c : BitVec 2)
  /-- CRECL (R287): Raises the reclaim floor of one commons word. -/
  | crecl (a b : BitVec 5)
  /-- CRECL_R (R287): Raises the reclaim floor of a range of words, one part per bank. -/
  | creclR (d a b : BitVec 5)
  /-- CARM (R288): Arms a commons word as a trigger with a stored message. -/
  | carm (d a : BitVec 5) (c : BitVec 2)
  /-- CDISARM (R288): Removes the issuer's trigger on a word and reports whether it did. -/
  | cdisarm (d a : BitVec 5)
  /-- DLD_B (R290): Memory-core DRAM byte load. -/
  | dldB (d a : BitVec 5)
  /-- DLD_H (R290): Memory-core DRAM halfword load. -/
  | dldH (d a : BitVec 5)
  /-- DLD_W (R290): Memory-core DRAM word load. -/
  | dldW (d a : BitVec 5)
  /-- DLD_D (R290): Memory-core DRAM doubleword load. -/
  | dldD (d a : BitVec 5)
  /-- DST_B (R290): Memory-core DRAM byte store. -/
  | dstB (t a : BitVec 5)
  /-- DST_H (R290): Memory-core DRAM halfword store. -/
  | dstH (t a : BitVec 5)
  /-- DST_W (R290): Memory-core DRAM word store. -/
  | dstW (t a : BitVec 5)
  /-- DST_D (R290): Memory-core DRAM doubleword store. -/
  | dstD (t a : BitVec 5)
  /-- FENCE (R116): Stalls until older accesses of the named classes within the scope are performed. -/
  | fence (s : BitVec 2) (c : BitVec 3)
  /-- EFENCE (R294): Fences every class at pod scope, waits for error reports and raises DATA_ERROR if recorded. -/
  | efence
  /-- SBIND_R (R292): Binds a stream register for reading a stream-buffer region. -/
  | sbindR (d a : BitVec 5)
  /-- SBIND_W (R292): Binds a stream register for writing a stream-buffer region. -/
  | sbindW (d a : BitVec 5)
  /-- SUNBIND (R292): Closes if needed and clears a stream binding. -/
  | sunbind (d : BitVec 5)
  /-- SRD (R293): Reads the next bank word of a read stream, waiting while none is available. -/
  | srd (d a : BitVec 5)
  /-- SWR (R293): Writes the next bank word of a write stream, waiting for free space. -/
  | swr (d a : BitVec 5)
  /-- SCLOSE (R293): Closes a stream binding. -/
  | sclose (d : BitVec 5)
  /-- WAITC (R295): Stalls until every outstanding-operation counter is at or below its immediate. -/
  | waitc (l s p m : BitVec 6)
  /-- MCMD (R318): Checks a tile command and appends it with two captured scales to the matrix queue. -/
  | mcmd (d a b : BitVec 5)
  /-- COPY (R337): Appends a copy request to the core's copy FIFO, stalling while it is full. -/
  | copy (a : BitVec 5)
  /-- COPY_NB (R337): Appends a copy request or reports the FIFO busy. -/
  | copyNb (d a : BitVec 5)
  /-- CQPOP (R338): Pops the oldest completion record into a v register as an acquire. -/
  | cqpop (d : BitVec 5)
  /-- RECV (R300): Pops the oldest message of a channel into m0 to m7 with its header and sender, or reports empty. -/
  | recv (d b : BitVec 5) (c : BitVec 2)
  /-- SEND (R301): Sends m0 to m7 to a named actor and channel from the send allowance. -/
  | send (a b : BitVec 5) (c : BitVec 2)
  /-- SEND_NB (R301): Sends a message or reports no allowance instead of trapping. -/
  | sendNb (d a b : BitVec 5) (c : BitVec 2)
  /-- SENDI (R301): Sends a message built from two x registers. -/
  | sendi (d a b : BitVec 5) (c : BitVec 2)
  /-- GIVE (R305): Hands a data or stream region to a named actor and channel as a parcel. -/
  | give (d a b : BitVec 5) (c : BitVec 2)
  /-- RALLOC (R303): Allocates a region from a descriptor and returns its index and base or a failure. -/
  | ralloc (d a : BitVec 5)
  /-- RFREE (R304): Frees a region once no copy, feed or tile command names it. -/
  | rfree (a : BitVec 5)
  /-- SPAWN (R306): Reserves a spawn-list entry for a new member of the own flock and reports the outcome. -/
  | spawn (d a : BitVec 5)
  /-- LINK (R307): Creates a link with a peer actor. -/
  | link (a : BitVec 5)
  /-- UNLINK (R307): Removes a link at both ends without a signal. -/
  | unlink (a : BitVec 5)
  /-- MONITOR (R307): Creates a monitor of a peer and returns its reference. -/
  | monitor (d a : BitVec 5)
  /-- DEMON (R307): Removes a monitor by reference at both ends. -/
  | demon (a : BitVec 5)
  /-- TRAPEX (R307): Sets TRAPEXIT and returns its old value. -/
  | trapex (d a : BitVec 5)
  /-- KILL (R309): Kills a reachable named actor with KILLED. -/
  | kill (a : BitVec 5)
  /-- EXIT (R309): The issuing actor dies with the given reason and detail. -/
  | exit (a b : BitVec 5)
  /-- RETIRE (R39): Ends the firing after CL drains, with retirement check, consumption and counter write-back. -/
  | retire
  /-- RETS (R310): Ends the firing by succession into a new image under an inheritance mask. -/
  | rets (a : BitVec 5)
  /-- YIELD (R311): Pre-empts the firing when another eligible handler waits and every thread set is busy. -/
  | yield
  /-- TMSET (R312): Arms the actor timer with an absolute deadline. -/
  | tmset (a : BitVec 5)
  /-- TMCAN (R312): Disarms the timer and returns the old ARM bit. -/
  | tmcan (d : BitVec 5)
  /-- WIX (R313): Extracts field k of a work index. -/
  | wix (d a : BitVec 5) (k : BitVec 3)
  /-- WIX_G (R313): Computes the group number of a work index at level L. -/
  | wixG (d a : BitVec 5) (l : BitVec 3)
  /-- MTM (R298): Moves an x register to an m register. -/
  | mtm (d a : BitVec 5)
  /-- MFM (R298): Moves an m register to an x register. -/
  | mfm (d a : BitVec 5)
  /-- VTML (R298): Moves lanes 0 to 3 of a v register into m0 to m3. -/
  | vtml (a : BitVec 5)
  /-- VTML_IN (R298): Moves m0 to m3 into lanes 0 to 3 of a v register. -/
  | vtmlIn (d : BitVec 5)
  /-- VTMH (R298): Moves lanes 0 to 3 of a v register into m4 to m7. -/
  | vtmh (a : BitVec 5)
  /-- VTMH_IN (R298): Moves m4 to m7 into lanes 0 to 3 of a v register. -/
  | vtmhIn (d : BitVec 5)
  /-- MFS (R298): Reads a stream binding into an x register. -/
  | mfs (d a : BitVec 5)
  /-- SUPSET (R314): Sets a supervision rule from m0 to m2. -/
  | supset (d a : BitVec 5)
  /-- SUPDEL (R314): Removes a supervision rule. -/
  | supdel (d a : BitVec 5)
  /-- PKILL (R309): Privileged kill of any domain's actor with KILLED or CORE_LOST. -/
  | pkill (a b : BitVec 5)
  /-- PSEND (R301): Privileged send that reaches every actor. -/
  | psend (a b : BitVec 5) (c : BitVec 2)
  /-- MFCR (R315): Reads a control register into x[D]. -/
  | mfcr (d : BitVec 5) (r : BitVec 8)
  /-- MTCR (R315): Writes a control register without behaviour of its own, zeroing reserved bits. -/
  | mtcr (a : BitVec 5) (r : BitVec 8)
  /-- STATUS_WRITE (R315): Write to STATUS that can only clear INTRAP. -/
  | statusWrite (a : BitVec 5)
  /-- FPCTL_WRITE (R68): Write to FPCTL that traps on a reserved rounding mode. -/
  | fpctlWrite (a : BitVec 5)
  /-- EPERR_WRITE (R315): Write to EPERR that clears it when zero. -/
  | eperrWrite (a : BitVec 5)
  /-- VLEN_WRITE (R315): Write to VLEN that traps on values 33 to 63. -/
  | vlenWrite (a : BitVec 5)
  /-- HMASK_WRITE (R315): Write to HMASK taking effect at the next selection. -/
  | hmaskWrite (a : BitVec 5)
  /-- TIMER_WRITE (R312): Write to TIMER acting as TMSET or TMCAN. -/
  | timerWrite (a : BitVec 5)
  /-- BREAK (R316): Traps BREAK with its immediate as DETAIL. -/
  | breakTrap (i : BitVec 16)
  /-- VADD (R264): Lane-wise wrapping integer add. -/
  | vadd (d a b : BitVec 5) (s : BitVec 3) (t m : BitVec 1) (w : BitVec 2)
  /-- VSUB (R264): Lane-wise wrapping integer subtract. -/
  | vsub (d a b : BitVec 5) (s : BitVec 3) (t m : BitVec 1) (w : BitVec 2)
  /-- VMUL (R264): Lane-wise low product. -/
  | vmul (d a b : BitVec 5) (s : BitVec 3) (t m : BitVec 1) (w : BitVec 2)
  /-- VMULH (R264): Lane-wise signed high product. -/
  | vmulh (d a b : BitVec 5) (s : BitVec 3) (t m : BitVec 1) (w : BitVec 2)
  /-- VMIN (R264): Lane-wise signed minimum. -/
  | vmin (d a b : BitVec 5) (s : BitVec 3) (t m : BitVec 1) (w : BitVec 2)
  /-- VMAX (R264): Lane-wise signed maximum. -/
  | vmax (d a b : BitVec 5) (s : BitVec 3) (t m : BitVec 1) (w : BitVec 2)
  /-- VMINU (R264): Lane-wise unsigned minimum. -/
  | vminu (d a b : BitVec 5) (s : BitVec 3) (t m : BitVec 1) (w : BitVec 2)
  /-- VMAXU (R264): Lane-wise unsigned maximum. -/
  | vmaxu (d a b : BitVec 5) (s : BitVec 3) (t m : BitVec 1) (w : BitVec 2)
  /-- VAND (R264): Lane-wise and. -/
  | vand (d a b : BitVec 5) (s : BitVec 3) (t m : BitVec 1) (w : BitVec 2)
  /-- VOR (R264): Lane-wise or. -/
  | vor (d a b : BitVec 5) (s : BitVec 3) (t m : BitVec 1) (w : BitVec 2)
  /-- VXOR (R264): Lane-wise xor. -/
  | vxor (d a b : BitVec 5) (s : BitVec 3) (t m : BitVec 1) (w : BitVec 2)
  /-- VSLL (R264): Lane-wise left shift. -/
  | vsll (d a b : BitVec 5) (s : BitVec 3) (t m : BitVec 1) (w : BitVec 2)
  /-- VSRL (R264): Lane-wise logical right shift. -/
  | vsrl (d a b : BitVec 5) (s : BitVec 3) (t m : BitVec 1) (w : BitVec 2)
  /-- VSRA (R264): Lane-wise arithmetic right shift. -/
  | vsra (d a b : BitVec 5) (s : BitVec 3) (t m : BitVec 1) (w : BitVec 2)
  /-- VADDS (R264): Lane-wise saturating signed add. -/
  | vadds (d a b : BitVec 5) (s : BitVec 3) (t m : BitVec 1) (w : BitVec 2)
  /-- VSUBS (R264): Lane-wise saturating signed subtract. -/
  | vsubs (d a b : BitVec 5) (s : BitVec 3) (t m : BitVec 1) (w : BitVec 2)
  /-- VFADD (R265): Lane-wise floating-point add. -/
  | vfadd (d a b : BitVec 5) (s : BitVec 3) (t m : BitVec 1) (w : BitVec 2)
  /-- VFSUB (R265): Lane-wise floating-point subtract. -/
  | vfsub (d a b : BitVec 5) (s : BitVec 3) (t m : BitVec 1) (w : BitVec 2)
  /-- VFMUL (R265): Lane-wise floating-point multiply. -/
  | vfmul (d a b : BitVec 5) (s : BitVec 3) (t m : BitVec 1) (w : BitVec 2)
  /-- VFDIV (R265): Lane-wise floating-point divide. -/
  | vfdiv (d a b : BitVec 5) (s : BitVec 3) (t m : BitVec 1) (w : BitVec 2)
  /-- VFSQRT (R265): Lane-wise floating-point square root. -/
  | vfsqrt (d a : BitVec 5) (s : BitVec 3) (t m : BitVec 1) (w : BitVec 2)
  /-- VFMIN (R265): Lane-wise floating-point minimum. -/
  | vfmin (d a b : BitVec 5) (s : BitVec 3) (t m : BitVec 1) (w : BitVec 2)
  /-- VFMAX (R265): Lane-wise floating-point maximum. -/
  | vfmax (d a b : BitVec 5) (s : BitVec 3) (t m : BitVec 1) (w : BitVec 2)
  /-- VFMA (R265): Lane-wise fused multiply-add into v[D]. -/
  | vfma (d a b : BitVec 5) (s : BitVec 3) (t m : BitVec 1) (w : BitVec 2)
  /-- VFEQ (R267): Floating-point equality as a mask result. -/
  | vfeq (d a b : BitVec 5) (s : BitVec 3) (t m : BitVec 1) (w : BitVec 2)
  /-- VFLT (R267): Floating-point less-than as a mask result. -/
  | vflt (d a b : BitVec 5) (s : BitVec 3) (t m : BitVec 1) (w : BitVec 2)
  /-- VFLE (R267): Floating-point less-or-equal as a mask result. -/
  | vfle (d a b : BitVec 5) (s : BitVec 3) (t m : BitVec 1) (w : BitVec 2)
  /-- VFSUM (R266): Sums active lanes in a fixed pairwise tree into lane 0. -/
  | vfsum (d a : BitVec 5) (s : BitVec 3) (t : BitVec 1) (w : BitVec 2)
  /-- VCEQ (R267): Integer equality as a mask result. -/
  | vceq (d a b : BitVec 5) (s : BitVec 3) (t m : BitVec 1) (w : BitVec 2)
  /-- VCLT (R267): Signed less-than as a mask result. -/
  | vclt (d a b : BitVec 5) (s : BitVec 3) (t m : BitVec 1) (w : BitVec 2)
  /-- VCLTU (R267): Unsigned less-than as a mask result. -/
  | vcltu (d a b : BitVec 5) (s : BitVec 3) (t m : BitVec 1) (w : BitVec 2)
  /-- VSUM (R268): Sum of active lanes into lane 0 at width 64. -/
  | vsum (d a : BitVec 5) (s : BitVec 3) (t : BitVec 1) (w : BitVec 2)
  /-- VRMIN (R268): Signed minimum of active lanes. -/
  | vrmin (d a : BitVec 5) (s : BitVec 3) (t : BitVec 1) (w : BitVec 2)
  /-- VRMAX (R268): Signed maximum of active lanes. -/
  | vrmax (d a : BitVec 5) (s : BitVec 3) (t : BitVec 1) (w : BitVec 2)
  /-- VRMINU (R268): Unsigned minimum of active lanes. -/
  | vrminu (d a : BitVec 5) (s : BitVec 3) (t : BitVec 1) (w : BitVec 2)
  /-- VRMAXU (R268): Unsigned maximum of active lanes. -/
  | vrmaxu (d a : BitVec 5) (s : BitVec 3) (t : BitVec 1) (w : BitVec 2)
  /-- VMAND (R269): Mask and. -/
  | vmand (d a b : BitVec 5) (s : BitVec 3) (t m : BitVec 1)
  /-- VMOR (R269): Mask or. -/
  | vmor (d a b : BitVec 5) (s : BitVec 3) (t m : BitVec 1)
  /-- VMXOR (R269): Mask xor. -/
  | vmxor (d a b : BitVec 5) (s : BitVec 3) (t m : BitVec 1)
  /-- VMNOT (R269): Mask not. -/
  | vmnot (d a : BitVec 5) (s : BitVec 3) (t m : BitVec 1)
  /-- VMPOP (R269): Counts set active mask positions. -/
  | vmpop (d a : BitVec 5) (s : BitVec 3) (t : BitVec 1)
  /-- VMOV (R270): Copies active lanes. -/
  | vmov (d a : BitVec 5) (s : BitVec 3) (t m : BitVec 1) (w : BitVec 2)
  /-- VSPLAT (R270): Broadcasts lane k to active lanes. -/
  | vsplat (d a k : BitVec 5) (s : BitVec 3) (t m : BitVec 1) (w : BitVec 2)
  /-- VEXT (R270): Extracts lane k into lane 0. -/
  | vext (d a k : BitVec 5) (t : BitVec 1) (w : BitVec 2)
  /-- VINS (R270): Inserts lane 0 of v[A] into lane k. -/
  | vins (d a k : BitVec 5) (w : BitVec 2)
  /-- VPERM (R270): Permutes lanes by an index vector. -/
  | vperm (d a b : BitVec 5) (s : BitVec 3) (t m : BitVec 1) (w : BitVec 2)
  /-- VSLUP (R270): Slides lanes up by k. -/
  | vslup (d a k : BitVec 5) (s : BitVec 3) (t m : BitVec 1) (w : BitVec 2)
  /-- VSLDN (R270): Slides lanes down by k. -/
  | vsldn (d a k : BitVec 5) (s : BitVec 3) (t m : BitVec 1) (w : BitVec 2)
  /-- VZIP (R270): Interleaves the low halves of two registers. -/
  | vzip (d a b : BitVec 5) (s : BitVec 3) (t m : BitVec 1) (w : BitVec 2)
  /-- VUZP (R270): Gathers the even lanes of two registers. -/
  | vuzp (d a b : BitVec 5) (s : BitVec 3) (t m : BitVec 1) (w : BitVec 2)
  /-- VSEL (R270): Selects lanes from two registers by mask. -/
  | vsel (d a b : BitVec 5) (s : BitVec 3) (t : BitVec 1) (w : BitVec 2)
  /-- VLD (R271): Contiguous local vector load. -/
  | vld (d a : BitVec 5) (s : BitVec 3) (t m : BitVec 1) (w : BitVec 2)
  /-- VST (R271): Contiguous local vector store of active lanes. -/
  | vst (d a : BitVec 5) (s : BitVec 3) (w : BitVec 2)
  /-- VLDS (R271): Strided local vector load. -/
  | vlds (d a b : BitVec 5) (s : BitVec 3) (t m : BitVec 1) (w : BitVec 2)
  /-- VSTS (R271): Strided local vector store. -/
  | vsts (d a b : BitVec 5) (s : BitVec 3) (w : BitVec 2)
  /-- VLDG (R271): Indexed local vector gather load. -/
  | vldg (d a b : BitVec 5) (s : BitVec 3) (t m : BitVec 1) (w : BitVec 2)
  /-- VSTG (R271): Indexed local vector scatter store. -/
  | vstg (d a b : BitVec 5) (s : BitVec 3) (w : BitVec 2)
  /-- VCLD (R289): Loads four commons words in one bank step into a v register. -/
  | vcld (d a : BitVec 5) (s : BitVec 3) (t m : BitVec 1) (w : BitVec 2)
  /-- VCADD (R289): Vector atomic add over eight commons words returning old values. -/
  | vcadd (d a : BitVec 5) (w : BitVec 1)
  /-- VDLD (R291): Memory-core 32-byte DRAM vector load. -/
  | vdld (d a : BitVec 5) (s : BitVec 3) (t m : BitVec 1) (w : BitVec 2)
  /-- VDST (R291): Memory-core DRAM vector store of active lanes. -/
  | vdst (d a : BitVec 5) (s : BitVec 3) (w : BitVec 2)
  /-- VQNT_E4 (R275): Quantises a block to N8E4 codes and an S8 scale. -/
  | vqntE4 (d a : BitVec 5) (w : BitVec 1)
  /-- VQNT_E5 (R275): Quantises a block to N8E5 codes and an S8 scale. -/
  | vqntE5 (d a : BitVec 5) (w : BitVec 1)
  /-- VQNT_C4 (R275): Quantises a block to C4 codes with a codebook. -/
  | vqntC4 (d a b : BitVec 5) (w : BitVec 1)
  /-- VDQ_E4 (R275): Dequantises N8E4 codes under their scale. -/
  | vdqE4 (d a : BitVec 5) (w : BitVec 1)
  /-- VDQ_E5 (R275): Dequantises N8E5 codes under their scale. -/
  | vdqE5 (d a : BitVec 5) (w : BitVec 1)
  /-- VDQ_C4 (R275): Dequantises C4 codes with a codebook. -/
  | vdqC4 (d a b : BitVec 5) (w : BitVec 1)
  /-- MSYNC (R330): Tile command that retires once earlier MDRAINs of its actor are delivered or refused. -/
  | msync (core : Nat)
  /-- MCLR (R330): Tile command clearing an accumulator. -/
  | mclr (core : Nat)
  /-- MLOADCB (R330): Tile command loading a codebook slot from core memory. -/
  | mloadcb (core : Nat)
  /-- MRING_CONFIGURE (R331): Tile command setting a ring's shape and resetting HEAD and TAIL. -/
  | mringConfigure (core : Nat)
  /-- MRING_ADVANCE (R331): Tile command publishing the tile at TAIL. -/
  | mringAdvance (core : Nat)
  /-- MCHK_COMPARE (R330): Tile command enabling checksum comparison. -/
  | mchkCompare (core : Nat)
  /-- MCHK_NO_COMPARE (R330): Tile command disabling checksum comparison. -/
  | mchkNoCompare (core : Nat)
  /-- MMOVE (R332): Tile command copying one accumulator into another. -/
  | mmove (core : Nat)
  /-- MSCALE (R332): Tile command scaling an FP32 accumulator. -/
  | mscale (core : Nat)
  /-- MADDACC (R332): Tile command adding one accumulator to another. -/
  | maddacc (core : Nat)
  /-- MSTORE (R333): Tile command storing an accumulator converted into a region. -/
  | mstore (core : Nat)
  /-- MDRAIN (R334): Tile command reading an accumulator and handing it to the copy engine for a named actor. -/
  | mdrain (core : Nat)
  /-- MLOADACC (R333): Tile command loading an accumulator from a region. -/
  | mloadacc (core : Nat)
  /-- MMA_BF16 (R324): BF16 multiply-accumulate into an FP32 accumulator. -/
  | mmaBf16 (core badRuns : Nat)
  /-- MMA_FP16 (R324): FP16 multiply-accumulate into an FP32 accumulator. -/
  | mmaFp16 (core badRuns : Nat)
  /-- MMA_E4E4 (R324): N8E4 by N8E4 scaled multiply-accumulate. -/
  | mmaE4e4 (core badRuns : Nat)
  /-- MMA_E4E5 (R324): N8E4 by N8E5 scaled multiply-accumulate. -/
  | mmaE4e5 (core badRuns : Nat)
  /-- MMA_E5E4 (R324): N8E5 by N8E4 scaled multiply-accumulate. -/
  | mmaE5e4 (core badRuns : Nat)
  /-- MMA_E5E5 (R324): N8E5 by N8E5 scaled multiply-accumulate. -/
  | mmaE5e5 (core badRuns : Nat)
  /-- MMA_C4C4 (R324): C4 by C4 codebook multiply-accumulate. -/
  | mmaC4c4 (core badRuns : Nat)
  /-- MMA_C4E4 (R324): C4 by N8E4 multiply-accumulate. -/
  | mmaC4e4 (core badRuns : Nat)
  /-- MMA_E4C4 (R324): N8E4 by C4 multiply-accumulate. -/
  | mmaE4c4 (core badRuns : Nat)
  /-- MMA_S8S8 (R326): s8 by s8 wrapping integer multiply-accumulate into S32. -/
  | mmaS8s8 (core badRuns : Nat)
  /-- MMA_N8S8 (R326): n8 by s8 wrapping integer multiply-accumulate into S32. -/
  | mmaN8s8 (core badRuns : Nat)
  /-- MDRAIN_DELIVERY (R334): Copy engine reserves a place, checks the target region, writes the elements and places the closing message. -/
  | mdrainDelivery (n : Nat)
  /-- COPY_DRAM_TO_REGION (R342): Engine request copying from a global address into a local region. -/
  | copyDramToRegion (eng id : Nat)
  /-- COPY_REGION_TO_DRAM (R342): Engine request copying a local region to a global address. -/
  | copyRegionToDram (eng id : Nat)
  /-- PARCEL_HAND_OVER (R153): Engine request reserving at the receiver and copying a given region. -/
  | parcelHandOver (n : Nat)
  /-- SLAB_SCATTER (R343): Engine request spreading source blocks over a rectangle of flock members' regions. -/
  | slabScatter (eng id : Nat)
  /-- GATHER (R344): Engine request collecting table rows chosen by an index list. -/
  | gather (eng id : Nat)
  /-- RING_FEED (R345): Engine request reserving and filling one operand-ring tile. -/
  | ringFeed (eng id : Nat)
  /-- RING_FEED_PUBLISH (R188): Publishes a completed feed's tile in start order, advancing TAIL and CNT. -/
  | ringFeedPublish (eng id : Nat)
  /-- STREAM_REQUEST (R345): Engine request feeding or draining a bound stream buffer. -/
  | streamRequest (eng id : Nat)
  /-- COMMONS_BULK_READ (R342): Engine request reading commons words into a region. -/
  | commonsBulkRead (eng id : Nat)
  /-- COMMONS_BULK_WRITE (R342): Engine request storing region words into the commons. -/
  | commonsBulkWrite (eng id : Nat)
  /-- FILL_REGION (R342): Engine request filling a local range with a pattern. -/
  | fillRegion (eng id : Nat)
  /-- FILL_GLOBAL (R342): Engine request filling a global range with a pattern. -/
  | fillGlobal (eng id : Nat)
  /-- COPY_START (R192): Engine takes a FIFO head into a free active place, reserving a completion record, and checks it. -/
  | copyStart (eng : Nat)
  /-- COPY_COMPLETION (R339): Writes the completion record of a finished request and lowers CP. -/
  | copyCompletion (eng id : Nat)
  /-- COPY_HOST_TIMEOUT (R340): Ends a copy with fault 0x0E when the host window does not answer within 1 ms. -/
  | copyHostTimeout (eng id : Nat)
  /-- COPY_TICKET_TIMEOUT (R348): Ends a copy with fault 0x12 when its ticket ages 2^20 cycles. -/
  | copyTicketTimeout (eng id : Nat)
  /-- FIRING_START (R34): Selection logic starts the best eligible handler on an idle thread set. -/
  | firingStart (core : Nat)
  /-- GATE_OPEN (R47): Releases gated successors once every actor of the group has executed RETS. -/
  | gateOpen (core slot : Nat)
  /-- PRIORITY_AGEING (R35): Lowers an actor's effective priority number every 65,536 cycles of waiting. -/
  | priorityAgeing (core slot : Nat)
  /-- WATCHDOG_EXPIRY (R40): Kills the actor with WATCHDOG when the firing's time reaches the limit. -/
  | watchdogExpiry (core ts : Nat)
  /-- TIMER_EXPIRY (R69): Places a TIMEOUT notice on c3 and clears ARM when CYCLE reaches the deadline. -/
  | timerExpiry (core slot : Nat)
  /-- PREEMPTION_REQUEST (R195): A tenant, power or Cairn request arrives and the covered firings stop issuing. -/
  | preemptionRequest (core : Nat) (src : HoldSource)
  /-- PREEMPTION_SAVE (R196): After the matrix queue drains, writes the context into a save area and parks tickets. -/
  | preemptionSave (core ts : Nat)
  /-- PREEMPTION_WITHDRAW (R195): Withdraws a pre-emption request, making held firings resumable. -/
  | preemptionWithdraw (core : Nat) (src : HoldSource)
  /-- RESUMPTION (R182): Restores a resumable firing from its save area onto an idle thread set. -/
  | resumption (core : Nat)
  /-- DEFERRED_TRAP (R63): Takes a deferred fault at the next instruction boundary of the firing. -/
  | deferredTrap (core ts : Nat)
  /-- CHECKER_REEXECUTION (R382): Re-executes an instruction after a checker mismatch and commits or ends with CORE_FAULT. -/
  | checkerReexecution (core ts : Nat) (agrees : Bool)
  /-- LOAD_LEVELLING (R43): Samples core loads every 8,192 cycles and ships unstarted spawns to the least-loaded neighbour. -/
  | loadLevelling (pkg : Nat)
  /-- SPAWN_RELEASE (R306): Fills the reserved spawn entry once the release condition holds and writes the directory pending. -/
  | spawnRelease (core id : Nat)
  /-- SPAWN_START (R184): Starts the head spawn-list entry when a slot, room and supervision entries are free. -/
  | spawnStart (core : Nat)
  /-- STEWARD_FEED (R26): Steward feeds a held actor into a spawn list when an entry frees. -/
  | stewardFeed (n : Nat)
  /-- ACTOR_LOAD_COMPLETE (R151): Slot moves from loading to idle once the image is loaded and the initial message placed. -/
  | actorLoadComplete (core slot : Nat)
  /-- MESSAGE_ARRIVAL (R175): Receiving core accepts and places a message or refuses it with an answer. -/
  | messageArrival (n : Nat)
  /-- SEND_ANSWER (R179): An answer to a send entry arrives, returning the entry or rereading the directory and resending. -/
  | sendAnswer (n : Nat)
  /-- MESSAGE_BUSY_RESEND (R156): Resends a message, parcel, MDRAIN or Kill to a pending name every 256 cycles. -/
  | messageBusyResend (n : Nat)
  /-- DELIVERY_TIMEOUT (R156): Sends DELIVERY TIMEOUT after 2^20 cycles of busy answers from a pending name. -/
  | deliveryTimeout (n : Nat)
  /-- MESSAGE_RESEND (R180): Resends a cross-package message once after 18,800 cycles without answer. -/
  | messageResend (n : Nat)
  /-- MESSAGE_INDETERMINATE (R180): Returns the entry and sends DELIVERY INDETERMINATE after 47,000 cycles. -/
  | messageIndeterminate (n : Nat)
  /-- SIGNAL_ARRIVAL (R176): Places an arriving signal on c3 or kills the actor when c3 is full. -/
  | signalArrival (n : Nat)
  /-- EXIT_ARRIVAL (R158): Arriving EXIT removes the link entry and is placed, dropped or kills with LINKED. -/
  | exitArrival (n : Nat)
  /-- DOWN_ARRIVAL (R158): Arriving DOWN removes the watcher's entry and is placed on c3. -/
  | downArrival (n : Nat)
  /-- CHILD_EXIT_ARRIVAL (R160): Supervisor core applies the child's rule, kills the restart scope and places CHILD_EXIT. -/
  | childExitArrival (n : Nat)
  /-- BELLWETHER_RESTART (R163): Bellwether re-measures and re-creates a dead actor with the next incarnation. -/
  | bellwetherRestart (n : Nat)
  /-- KILL_ARRIVAL (R53): A Kill reaches a live actor and starts its death. -/
  | killArrival (n : Nat)
  /-- DEATH (R164): Stops the firing, cancels tickets and starts quiescing copies of a dying actor. -/
  | death (core slot : Nat)
  /-- DEATH_RECLAIM (R164): After engines acknowledge, reclaims regions, mailbox and accumulators and sends EXIT, DOWN and CHILD_EXIT. -/
  | deathReclaim (core slot : Nat)
  /-- PEER_LINK_REQUEST (R308): Peer core writes or refuses the far end of a link or monitor. -/
  | peerLinkRequest (n : Nat)
  /-- PARCEL_RESERVATION (R153): Receiver core reserves or refuses an entry, granules and a message place for a parcel. -/
  | parcelReservation (n : Nat)
  /-- PARCEL_ARRIVAL (R153): Validates the receiver's entry, frees the giver's granules and places the arrival notice. -/
  | parcelArrival (n : Nat)
  /-- ACCESS_AT_OWNER (R138): Owner performs an arriving access or answers it with a ticket, busy or refusal. -/
  | accessAtOwner (core id : Nat)
  /-- ACCESS_ANSWER (R282): The core acts on an answer to a commons or DRAM access. -/
  | accessAnswer (core id : Nat)
  /-- ACCESS_BUSY_RESEND (R99): Resends a busy-answered access every 256 cycles. -/
  | accessBusyResend (core id : Nat)
  /-- ACCESS_RETRY (R125): Resends a cross-package access once with the same tag after 18,800 cycles. -/
  | accessRetry (core id : Nat)
  /-- ACCESS_INDETERMINATE (R125): Raises deferred INDETERMINATE after 47,000 cycles without answer. -/
  | accessIndeterminate (core id : Nat)
  /-- PLB_REFILL (R135): Completes a PLB refill from the hint record or export table, with first touch. -/
  | plbRefill (core ga : Nat)
  /-- FAULT_TICKET (R143): Moves a ticketed access into the ticket table, replaying at once for MOVED. -/
  | faultTicket (core id : Nat)
  /-- REPLAY_NOTICE (R141): Matches a replay notice against ticket tables and replays or ends the accesses. -/
  | replayNotice (n : Nat)
  /-- REPLAY_ANSWER (R143): On a performed replay answer, sends the held accesses of the page in order. -/
  | replayAnswer (core id : Nat)
  /-- TICKET_TIMEOUT (R143): Kills the actor with TICKET_TIMEOUT when a ticket ages 2^20 cycles. -/
  | ticketTimeout (core id : Nat)
  /-- FIRST_MAPPING (R419): Home owner maps a zeroed frame for an absent page and posts the replay notice. -/
  | firstMapping (owner page : Nat)
  /-- SHOOTDOWN (R136): Clears matching PLB entries at a core or engine and acknowledges. -/
  | shootdown (n : Nat)
  /-- DIRECTORY_COLLAPSE (R146): Directory marks pages split, raises GEN and sends drops to replica owners. -/
  | directoryCollapse (n : Nat)
  /-- REPLICA_DROP (R146): Replica owner marks dropped pages moved and acknowledges. -/
  | replicaDrop (n : Nat)
  /-- COLLAPSE_COMPLETE (R146): After every acknowledgement the collapsing owner posts the replay notice naming the home. -/
  | collapseComplete (n : Nat)
  /-- MIGRATION_BEGIN (R124): Old owner starts answering MIGRATING after the new owner reserves triggers and continuations. -/
  | migrationBegin (page newOwner : Nat)
  /-- MIGRATION_END (R124): New owner accepts accesses and the old owner answers MOVED. -/
  | migrationEnd (page : Nat)
  /-- FRAME_RETIREMENT (R147): Retires a frame whose corrected-error count reaches 8 by copying its page. -/
  | frameRetirement (owner page : Nat) (copied : Bool)
  /-- PAGE_RECLAIM (R102): Empties a reclaimed or unmapped commons page and answers its continuations. -/
  | pageReclaim (page : Nat)
  /-- PATROL_SCRUB (R384): Reads and rewrites every DRAM and commons frame once per 2^36 cycles. -/
  | patrolScrub (owner page offset : Nat) (found : ScrubFinding)
  /-- CORE_QUARANTINE (R383): Stops a failed core, kills its actors and removes it from every count. -/
  | coreQuarantine (core : Nat)
  /-- MATRIX_WITHDRAWAL (R386): Withdraws a core's matrix unit and kills its matrix-using actors. -/
  | matrixWithdrawal (core : Nat)
  /-- CLUSTER_WITHDRAWAL (R386): Withdraws a cluster, quarantining its cores and migrating or losing its pages. -/
  | clusterWithdrawal (eng : Nat)
  /-- MEMORY_CORE_WITHDRAWAL (R386): Withdraws a memory core and loses every page of its channel. -/
  | memoryCoreWithdrawal (core : Nat)
  /-- POWER_SAMPLE (R206): Every 1 µs updates POWER, TEMP, ENERGY, CCEIL and throttle knobs per die. -/
  | powerSample (pkg : Nat) (readings : List Reading)
  /-- COUNTER_SAMPLE (R208): Samples thresholded counters every 1 µs and sends counter notices on crossings. -/
  | counterSample (pkg : Nat)
  /-- COUNTER_READ (R207): Counter service request reading a counter. -/
  | counterRead (n : Nat)
  /-- COUNTER_PROGRAM (R207): Counter service request programming a performance counter. -/
  | counterProgram (n : Nat)
  /-- THRESHOLD_SET (R207): Counter service request setting a level or period threshold. -/
  | thresholdSet (n : Nat)
  /-- THRESHOLD_CANCEL (R207): Counter service request cancelling a threshold. -/
  | thresholdCancel (n : Nat)
  /-- TOPOLOGY_REGISTER (R387): Topology service request registering the sender. -/
  | topologyRegister (n : Nat)
  /-- TOPOLOGY_DEREGISTER (R387): Topology service request deregistering the sender. -/
  | topologyDeregister (n : Nat)
  /-- TOPOLOGY_READ_UNIT (R387): Topology service request reading a unit's state. -/
  | topologyReadUnit (n : Nat)
  /-- TOPOLOGY_READ_GRANT (R387): Topology service request reading the domain's grant. -/
  | topologyReadGrant (n : Nat)
  /-- ATTEST_REGISTER (R399): Attestation service request registering the sender. -/
  | attestRegister (n : Nat)
  /-- ATTEST_DEREGISTER (R399): Attestation service request deregistering the sender. -/
  | attestDeregister (n : Nat)
  /-- QUOTE (R399): Attestation service request returning a signed quote parcel. -/
  | quote (n : Nat)
  /-- LOG_READ (R399): Attestation service request returning measurement log entries. -/
  | logRead (n : Nat)
  /-- POWER_SERVICE_REGISTER (R404): Power service request registering the sender for power-step notices. -/
  | powerServiceRegister (n : Nat)
  /-- POWER_SERVICE_DEREGISTER (R404): Power service request deregistering the sender. -/
  | powerServiceDeregister (n : Nat)
  /-- CAIRN_TAKE (R409): Cairn service request that cuts and quiesces the domain's actors. -/
  | cairnTake (n : Nat)
  /-- CAIRN_MARK (R409): After quiescing, marks copy-on-write, resumes the domain and starts streaming shards. -/
  | cairnMark (pkg dom : Nat)
  /-- CAIRN_MANIFEST (R411): Writes the manifest with its commit doubleword after every shard is performed. -/
  | cairnManifest (pkg dom : Nat)
  /-- COW_GRANULE_COPY (R410): Copies a marked core-memory granule so a waiting write can proceed. -/
  | cowGranuleCopy (core granule : Nat)
  /-- COW_PAGE_SERVICE (R410): Owner copies a copy-on-write page, restores its state and posts the notice. -/
  | cowPageService (owner page : Nat)
  /-- CAIRN_RESTORE (R412): Cairn service request restoring a domain from a manifest and its shards. -/
  | cairnRestore (n : Nat)
  /-- POWER_FAIL_RESTORE (R407): Cairn service request restoring a domain from the control-plane image. -/
  | powerFailRestore (n : Nat)
  /-- POWER_FAIL_DISCARD (R407): Cairn service request discarding the domain's control-plane image. -/
  | powerFailDiscard (n : Nat)
  /-- CONTROL_IMAGE_WINDOW_EXPIRY (R407): Discards undecided domains 60 s after boot. -/
  | controlImageWindowExpiry (pkg : Nat)
  /-- POWER_STEP (R400): Accepts a new pin cap when two samples agree and resets die budgets. -/
  | powerStep (pkg pins : Nat)
  /-- POWER_STEP_FRAME (R400): Takes a class 0 power-step frame setting the frame cap. -/
  | powerStepFrame (pkg : Nat) (hd : FrameHead) (arg : BitVec 64)
  /-- POWER_FAIL_TRAP (R405): Stops all work and writes the control-plane image to flash on PWRFAIL or a rail trip. -/
  | powerFailTrap (pkg : Nat)
  /-- PACKAGE_RESET (R417): Resets the package on power-on or RESET_N and runs bring-up. -/
  | packageReset (pkg : Nat)
  /-- RESET_FRAME (R417): Class 0 reset frame causing a package reset. -/
  | resetFrame (pkg : Nat) (hd : FrameHead)
  /-- READY (R417): Opens class 0 connections and asserts READY at the end of bring-up. -/
  | ready (pkg : Nat)
  /-- RECOVERY_IMAGE (R391): Accepts a refused firmware image from the host in recovery mode. -/
  | recoveryImage (pkg : Nat) (img : FwImage)
  /-- FREEZE (R388): Stops every clock of the package while FREEZE is asserted. -/
  | freeze (pkg : Nat)
  /-- FREEZE_RELEASE (R388): Restarts the clocks when FREEZE is released. -/
  | freezeRelease (pkg : Nat)
  /-- DEBUG_UNLOCK (R388): Unlocks the TAP on a signed token before reset completes and extends MV4. -/
  | debugUnlock (pkg : Nat) (token : List Byte) (signed : Bool)
  /-- LINK_MODE_CHANGE (R376): Changes a link port's mode on lane errors and reroutes traffic. -/
  | linkModeChange (pkg port : Nat) (mode : PortMode)
  /-- LINK_HEARTBEAT (R377): Sends a port heartbeat every 10 µs and takes the port down after 8 misses. -/
  | linkHeartbeat (pkg port : Nat) (answered : Bool)
  /-- PACKAGE_LOST (R377): Declares a package lost and sends CHIP_LOST signals and ends its tickets. -/
  | packageLost (lost : Nat)
  /-- DIRECTORY_MAP_UPDATE (R378): Rewrites directory-map slots of a lost package and re-mirrors records. -/
  | directoryMapUpdate (lost : Nat)
  /-- CONNECTION_OPEN (R380): Class 0 frame opening a host connection bound to a domain and gateway. -/
  | connectionOpen (pkg conn dom : Nat)
  /-- CONNECTION_CLOSE (R421): Closes a host connection and ends its gateway actor. -/
  | connectionClose (pkg conn : Nat) (byHost : Bool)
  /-- LAUNCH (R22): Class 1 launch frame checked, then flock created and answered. -/
  | launch (pkg : Nat) (hd : FrameHead) (hdr : List (BitVec 64)) (flock : Nat)
  /-- HOST_MESSAGE (R380): Class 2 frame entering the pod as a SEND from the gateway. -/
  | hostMessage (pkg : Nat) (hd : FrameHead) (dst arg : BitVec 64) (msg : List (BitVec 64))
  /-- HOST_PARCEL (R380): Class 3 frames gathered and handed over as a parcel. -/
  | hostParcel (pkg : Nat) (hd : FrameHead) (dst arg tag : BitVec 64) (body : List Byte)
  /-- HOST_RETRANSMIT (R380): Retransmits an unacknowledged frame after 50 µs. -/
  | hostRetransmit (pkg conn : Nat)
  /-- GRANT_REQUEST (R390): Class 0 request changing a domain's grant. -/
  | grantRequest (pkg : Nat) (hd : FrameHead) (dom die cluster : Nat) (adds : Bool)
  /-- REPLACEMENT_REQUEST (R394): Stages and verifies a new firmware image. -/
  | replacementRequest (pkg dom : Nat) (img : FwImage)
  /-- REPLACEMENT_ACTIVATE (R394): At the quiesce point exports the blob, starts the new image and extends its measurement. -/
  | replacementActivate (pkg : Nat)
  /-- HUB_WATCHDOG_WRITE (R396): New image writes the hub watchdog during probation. -/
  | hubWatchdogWrite (pkg : Nat)
  /-- REVERT (R396): Restarts the old image and replays the journal on watchdog expiry or request. -/
  | revert (pkg : Nat)
  /-- REPLACEMENT_COMMIT (R397): Writes the new image to flash after probation and logs the commit. -/
  | replacementCommit (pkg : Nat)
  /-- HINT_RECORD_WRITE (R130): The management firmware writes, rewrites or unmaps a range's hint record, with GEN raised and a shootdown sent when rights change. -/
  | hintRecordWrite (cls range : Nat) (dwords : List (BitVec 64))
  /-- EXPORT_TABLE_WRITE (R129): The management firmware writes or withdraws an export-table entry for host memory exported over a class 0 connection. -/
  | exportTableWrite (pkg range dom rights : Nat) (present : Bool)
  /-- IMAGE_STORE_WRITE (R108): The management firmware places an image into the image store under key slot 0. -/
  | imageStoreWrite (ga : Nat) (body : List Byte)
  /-- PAGE_PARKING (R107): A commons page that is not in use is parked in DRAM by its owner together with its metadata, taking FSTATE parked. -/
  | pageParking (owner page : Nat)
  deriving DecidableEq, Repr

end Sys2Proof
end

