-- ==== Sys2Proof/Machine/State.lean ====
section
/-! DEFINITION. The state of a pod of Massif packages as plain data: everything the specification gives the machine
(INVENTORY.md lists it with the rules), the reasons a step can stop, and the state right after package reset.

Tables that the hardware holds at fixed sizes are sparse maps whose unlisted entries hold the reset value; sizes are limits of
the operations that fill them. Names, addresses and registers that software sees as words are bit vectors; table indices,
counts and times are numbers. -/

namespace Sys2Proof.Machine

/-- Why a step stops with a fault. -/
inductive Fault where
  /-- Raised by the step when the model's own field `cur` names no core of any package: no step of the model leads there.
  Safe: the machine stops where the hardware has nothing to run. -/
  | noCore
  deriving DecidableEq, Repr

/-- Why a step is refused. -/
inductive Refusal where
  /-- Raised by the dispatch for an instruction that has no meaning yet, with its mnemonic. Safe: nothing is claimed of it. -/
  | notModelled (mnemonic : String)
  deriving DecidableEq, Repr

/-! ## Thread sets -/

/-- A fault found after its access had left the pipeline (R63): CAUSE as it will read, the address it names, the program
counter of the access, and the access's place in issue order (the older of two is taken). -/
structure Deferred where
  cause : W64
  va : W64
  pc : W64
  age : Nat
  deriving DecidableEq, Repr

/-- A thread set (R33, R56, R67): the registers of its firing. -/
structure Thread where
  busy : Bool := false
  slot : Nat := 0
  fid : Nat := 0
  handler : Nat := 0
  x : Vector W64 32 := Vector.replicate 32 0
  v : Vector V256 32 := Vector.replicate 32 0
  xp : BitVec 32 := -1
  vp : BitVec 32 := -1
  m : Vector W64 8 := Vector.replicate 8 0
  st : Vector W64 4 := Vector.replicate 4 0
  pc : W64 := 0
  cause : W64 := 0
  faultva : W64 := 0
  faultpc : W64 := 0
  faultins : W32 := 0
  status : W64 := 0
  fpctl : W64 := 0
  qnt : W64 := 0
  eperr : W64 := 0
  vlen : BitVec 6 := 32
  sendleft : BitVec 7 := 0
  wdogleft : BitVec 32 := 0
  deferred : Option Deferred := none
  stalled : Bool := false
  /-- The registers whose presence bits the stalled instruction waits for (event 0x05 of R204). -/
  waitX : BitVec 32 := 0
  waitV : BitVec 32 := 0
  /-- A pre-emption request covers the firing: it issues nothing further (R196 phase 1). -/
  stopping : Bool := false
  /-- A stream read's destination and value, until they arrive (R60). -/
  landing : Option (Reg × W64) := none
  deriving DecidableEq, Repr

/-! ## Actors -/

/-- The states of an actor-table slot (R150). -/
inductive ActState where
  | free | loading | idle | firing | preempted | gated | dying
  deriving DecidableEq, Repr

/-- A handler descriptor (R28), with the counts and consumptions per channel. -/
structure Handler where
  req : BitVec 4
  eclass : Nat
  prod : Nat
  entry : Nat
  cnt : Vector Nat 4
  use : Vector Nat 4
  deriving DecidableEq, Repr

/-- An operand-ring descriptor (R187). -/
structure Ring where
  valid : Bool := false
  ridx : Nat := 0
  rows : Nat := 0
  rowb : Nat := 0
  depth : Nat := 0
  head : Nat := 0
  tail : Nat := 0
  cnt : Nat := 0
  feed : Nat := 0
  qpop : Nat := 0
  deriving DecidableEq, Repr

/-- A death in progress (R164): its reason, sub-cause and DETAIL, the names that a supervisor's death ended first (R161), and
whether steps 1 to 3 have begun. -/
structure Death where
  reason : Nat
  sub : Nat
  detail : W64
  ended : List W64 := []
  begun : Bool := false
  deriving DecidableEq, Repr

/-- What a committed RETS hands to the successor's first firing (R77): the inherited registers with their presence, and the serial
number that this firing will have, under which values in flight arrive. -/
structure Inherit where
  x : Vector W64 32
  v : Vector V256 32
  xp : BitVec 32
  vp : BitVec 32
  xkeep : BitVec 32
  vkeep : BitVec 32
  fid : Nat
  deriving DecidableEq, Repr

/-- A codebook slot (R322): VALID, and ENTRIES, which are sixteen BF16 values. -/
structure Codebook where
  valid : Bool := false
  entries : BitVec 256 := 0
  deriving DecidableEq, Repr

/-- A slot of a core's actor table (R150), with what the spec holds with the slot. -/
structure Actor where
  state : ActState := .free
  name : W64 := 0
  incarn : BitVec 8 := 0
  image : W64 := 0
  domain : BitVec 16 := 0
  prio : Nat := 0
  eprio : Nat := 0
  /-- READY, the ready time (R35). -/
  ready : Nat := 0
  /-- A handler was runnable when the slot was last looked at (R35). -/
  runnable : Bool := false
  /-- Cycle from which the next 65,536 cycles of waiting are counted (R35). -/
  agedAt : Nat := 0
  wdog : Nat := 0
  cl : Nat := 0
  cs : Nat := 0
  cp : Nat := 0
  mt : Nat := 0
  hmask : BitVec 4 := 0
  timer : W64 := 0
  /-- CYCLE when TIMER was last written: a deadline that has then passed expires in the next cycle (R69). -/
  timerAt : Nat := 0
  trapexit : Bool := false
  mxdecl : Bool := false
  priv : Bool := false
  code : Nat := 0
  mbox : Nat := 0
  cring : Nat := 0
  save : Nat := 0
  tsetf : Nat := 0
  popcnt : BitVec 16 := 0
  fires : BitVec 32 := 0
  traps : BitVec 16 := 0
  handlers : List Handler := []
  trapEntry : Option Nat := none
  /-- Places reserved in each channel for parcels and MDRAINs in flight (R153, R175). -/
  resv : Vector Nat 4 := Vector.replicate 4 0
  crDepth : Nat := 0
  crHead : Nat := 0
  crCnt : Nat := 0
  crResv : Nat := 0
  cchan : Nat := 3
  rings : Vector Ring 4 := Vector.replicate 4 {}
  /-- Elements of acc0 to acc7: element (r, c) of acc i at 256·i + 16·r + c; an unlisted one holds 0 (R66). -/
  acc : SMap W32 := []
  accDecl : BitVec 8 := 0
  accFmt : BitVec 8 := 0
  accUnchk : BitVec 8 := 0
  /-- Codebook slots CB0 to CB7 (R322). -/
  cbs : Vector Codebook 8 := Vector.replicate 8 {}
  chkoff : Bool := false
  heldFault : Option Deferred := none
  heldErr : W64 := 0
  lastRef : BitVec 16 := 0
  dying : Option Death := none
  inherit : Option Inherit := none
  /-- The next firing is a successor's first (R77). -/
  succ : Bool := false
  /-- While gated: the name under which the RETS was executed, whose group holds the slot (R47). -/
  gateName : W64 := 0
  /-- Serial number and handler of the firing that the slot holds or last held. -/
  fid : Nat := 0
  handler : Nat := 0
  /-- Order of the pre-emption among those of the core (R182), and the cycle of the request. -/
  preAt : Nat := 0
  /-- A restarted supervisor's children that its death had ended (R161). -/
  revive : List W64 := []
  deriving DecidableEq, Repr

/-! ## A core's tables -/

/-- A region-table entry (R84, R152), with the order in which tombstones were made (R87). -/
structure RegEntry where
  valid : Bool := false
  tomb : Bool := false
  pend : Bool := false
  base : Nat := 0
  size : Nat := 0
  owner : Nat := 0
  kind : Nat := 0
  rd : Bool := false
  wr : Bool := false
  skew : Bool := false
  pitch : Nat := 0
  decl : Nat := 0
  age : Nat := 0
  /-- Number of the allocation that made the entry, among those of the core: a queued matrix command keeps it beside the index (R320). -/
  born : Nat := 0
  deriving DecidableEq, Repr

/-- A link-table entry (R157). -/
structure LinkEntry where
  kind : Nat
  slot : Nat
  ref : BitVec 16
  peer : W64
  pinc : BitVec 8
  deriving DecidableEq, Repr

/-- A supervision entry (R159). `rule` is the rule number within the supervisor; STAMPS lists the last restarts, newest
first. -/
structure SupEntry where
  slot : Nat
  rule : Nat
  flock : Nat
  lo : Nat
  hi : Nat
  mode : Nat
  strat : Nat
  maxr : Nat
  window : Nat
  stamps : List Nat := []
  deriving DecidableEq, Repr

/-- A name-directory entry (R154); `rrec` is the number of the restart record at RREC (log 38). -/
structure DirEntry where
  name : W64
  inc : BitVec 8
  /-- 1 live, 2 exiting, 3 pending. -/
  state : Nat
  pkg : Nat
  die : Nat
  kind : Nat
  cidx : Nat
  slot : Nat
  supv : W64
  rrec : Nat
  /-- While the name is pending: the children that the actor's death ended, which its restart revives (R161). -/
  ended : List W64 := []
  deriving DecidableEq, Repr

/-- A spawn-list entry (R183). `filled` is false while a SPAWN's entry is only reserved (R306); `slot`, `tset` and `order`
are those of the SPAWN, whose release condition is read from them. -/
structure Spawn where
  id : Nat
  name : W64
  msg : Vector W64 8
  sender : W64
  sinc : BitVec 8
  rst : Bool
  supv : W64
  inc : BitVec 8 := 0
  revive : List W64 := []
  filled : Bool := true
  slot : Nat := 0
  tset : Nat := 0
  order : Nat := 0
  deriving DecidableEq, Repr

/-- A message as it travels: addressee, the incarnation named, channel, header KIND, the sender's name and incarnation, the
sender's domain with its reach (R302), and m0 to m7. -/
structure Msg where
  dst : W64
  inc : BitVec 8
  named : Bool
  chan : Nat
  kind : BitVec 3
  sinc : BitVec 8
  sender : W64
  domain : BitVec 16
  everyDomain : Bool
  body : Vector W64 8
  deriving DecidableEq, Repr

/-- The stages of a send-allowance entry that holds a message (R179, R374): waiting to leave (R301), or to leave again after a busy or
stale answer; on its way; arrived early, in the reorder store of its receiving cluster; acted on, its answer under way; sent once more with
the same tag (R180); answered busy. -/
inductive SendPhase where
  | waiting | flying | stored | sent | resent | busy
  deriving DecidableEq, Repr

/-- A send-allowance entry in INF (R179, R180): the message, the slot, thread set and issue order it came from, where it was
last sent, its message sequence there (R374), its tag and times. -/
structure SendEntry where
  id : Nat
  slot : Nat
  fid : Nat
  tset : Nat
  order : Nat
  msg : Msg
  phase : SendPhase := .waiting
  /-- The receiving core that the message left for, its slot there where the sender read one, whether that reading was fresh (R156), and
  the number in the message sequence to that core (R374). -/
  core : Nat := 0
  dest : Option Nat := none
  fresh : Bool := false
  seq : Nat := 0
  /-- A stale answer has come, and no other kind of answer since (R374). -/
  rerouted : Bool := false
  tag : Option Nat := none
  firstAt : Nat := 0
  lastAt : Nat := 0
  busySince : Option Nat := none
  resent : Bool := false
  /-- The message has left the core before (R317). -/
  left : Bool := false
  deriving DecidableEq, Repr

/-- The atomics of a commons bank (R100). -/
inductive AtomOp where
  | add | min | max | minu | maxu | and | or | xor | swap | cas | fadd
  deriving DecidableEq, Repr

/-- What a commons or memory-core DRAM access does at its owner (R283 to R291). -/
inductive AccOp where
  | load | loadGe | loadEq | loadAcq | ver
  /-- A store of 4 (low or high nibble), 8, 16, 32 or 64 bits. -/
  | storeB | storeH | storeW | storeD | storeNl | storeNh | storeRel
  | atom (op : AtomOp)
  | defer | recl | reclRange | arm | disarm
  | vload | vadd
  | dld (bytes : Nat) | dst (bytes : Nat)
  deriving DecidableEq, Repr

/-- The stages of an access after issue (R142, R143): waiting to be sent (for the release condition of a CST.REL, or for the limit
of R375), in flight, in its bank's reorder store (R375), answered, lodged as a wait, answered busy, ticketed, held behind a ticket. -/
inductive AccPhase where
  | waiting | sent | stored | answered | lodged | busy | ticketed | held
  deriving DecidableEq, Repr

/-- What comes back for an access (R282): its values and version, an uncorrectable error with SRCMEM, a fault found at the
owner (reason, sub-cause, DETAIL), a lost page, a busy answer, a lodging report, or a ticket. -/
inductive AccAnswer where
  | value (vals : List W64) (ver : BitVec 16)
  | dataError (srcmem : Nat) (addr : W64)
  | fault (reason sub : Nat) (detail : W64)
  | lost
  | busy
  | lodged
  | ticket (code tkt newOwner : Nat)
  deriving DecidableEq, Repr

/-- A commons or memory-core DRAM access of a core from issue until its answer has been acted on: an issue-buffer or
ticket-table entry (R142). -/
structure Access where
  id : Nat
  slot : Nat
  name : W64
  /-- The domain and the incarnation of the actor at issue: what the owner acts for (R135, R286). -/
  domain : BitVec 16 := 0
  inc : BitVec 8 := 0
  /-- The instruction word (INSN, R142). -/
  insn : W32 := 0
  tset : Nat
  fid : Nat
  order : Nat
  op : AccOp
  ga : Nat
  /-- Operands captured at issue: data, expected value, version, tag, target name, payloads (OPS, R142). -/
  ops : List W64
  chan : Nat := 0
  /-- The first destination register: vector or scalar, and its number (DEST, R142). -/
  destV : Bool := false
  dest : Nat := 0
  pc : W64 := 0
  owner : Nat := 0
  seq : Nat := 0
  phase : AccPhase := .sent
  answer : Option AccAnswer := none
  /-- Ticket number, issuing owner and code (R139), and the cycle in which the ticket arrived (AGE). -/
  tkt : Nat := 0
  tktOwner : Nat := 0
  code : Nat := 0
  since : Nat := 0
  /-- The access holds a ticket-table entry: it has been ticketed or held, and has not been answered as performed since (R142). -/
  entry : Bool := false
  /-- The access is a replay of a ticketed access (R143). -/
  replay : Bool := false
  parked : Bool := false
  tag : Option Nat := none
  firstAt : Nat := 0
  lastAt : Nat := 0
  resent : Bool := false
  /-- The parts of one CRECL.R share a group: its counter falls once, when the last has reported (R287). -/
  group : Nat := 0
  /-- The actor has died since: the answer changes nothing (R79). -/
  orphan : Bool := false
  /-- A succession did not inherit the first, or the second, destination register: its value is discarded (R77). -/
  drop1 : Bool := false
  drop2 : Bool := false
  /-- A restore after a power failure has set the counter that counted the access to 0 (R407). -/
  uncounted : Bool := false
  /-- Answered busy under its present number, and not applied since (R375). -/
  busied : Bool := false
  /-- Reported lodged: no longer timed (R125). -/
  waited : Bool := false
  deriving DecidableEq, Repr

/-- A matrix-queue entry (R185), with the program counter of its MCMD and the region-table entry that a command on a local range
named, with the number of its allocation (R320). -/
structure TileCmd where
  cmd : V256
  sca : W64
  scb : W64
  slot : Nat
  tset : Nat
  ridx : Nat
  born : Nat := 0
  order : Nat
  pc : W64
  deriving DecidableEq, Repr

/-- A copy-FIFO entry (R191): W0 to W3, the issuing slot and thread set; for a request that GIVE placed (R346), its parcel; whether a
succession has cancelled it (R349). -/
structure CopyReq where
  id : Nat
  w : Vector W64 4
  slot : Nat
  name : W64
  tset : Nat
  fid : Nat
  parcel : Option Nat := none
  cancelled : Bool := false
  deriving DecidableEq, Repr

/-- A PLB entry (R134). -/
structure PlbEntry where
  domain : BitVec 16
  cls : Nat
  range : Nat
  rights : BitVec 3
  policy : Nat
  home : Nat
  localOwner : Nat
  split : Bool
  spmap : BitVec 32
  gen : Nat
  deriving DecidableEq, Repr

/-- A PLB refill that a stalled thread set waits for (R135): range and domain, and whether it found no record. -/
structure Refill where
  cls : Nat
  range : Nat
  domain : BitVec 16
  failed : Bool := false
  deriving DecidableEq, Repr

/-- A performance counter with its select word (R203). -/
structure Pmc where
  en : Bool := false
  dfilt : Bool := false
  domain : BitVec 16 := 0
  event : Nat := 0
  count : BitVec 48 := 0
  /-- Events counted in the present cycle: at most 16. -/
  seen : Nat := 0
  deriving DecidableEq, Repr

/-- What a receiving core answers to a message (R156, R175, R180). -/
inductive MsgAnswer where
  | placed
  | noproc (inc : BitVec 8)
  | overflow (code : Nat) (inc : BitVec 8)
  | stale
  | busy
  | expired
  deriving DecidableEq, Repr

/-- A receiving core's record of a tagged message (R180). -/
structure MsgTag where
  src : Nat
  number : Nat
  answer : MsgAnswer
  seen : Nat
  deriving DecidableEq, Repr

/-- A compute core or a memory core. -/
structure Core where
  mem : Memory := []
  /-- Bank words of core memory that hold an uncorrectable error (R83), by physical address div 8. -/
  bad : List Nat := []
  /-- Granules marked copy-on-write by a Cairn take (R410). -/
  cow : List Nat := []
  regions : SMap RegEntry := []
  slots : SMap Actor := []
  threads : Vector Thread 4 := Vector.replicate 4 {}
  links : SMap LinkEntry := []
  sups : SMap SupEntry := []
  spawns : List Spawn := []
  dirCache : List DirEntry := []
  sends : List SendEntry := []
  mq : List TileCmd := []
  fifo : List CopyReq := []
  accs : List Access := []
  plb : List PlbEntry := []
  /-- PLB refills that thread sets wait for, and those that found no record (R135). -/
  refills : List Refill := []
  bankSeq : SMap Nat := []
  msgSeq : SMap Nat := []
  tagNo : Nat := 0
  msgNo : Nat := 0
  /-- Number of the next entry of any table above, and of the next access in issue order. -/
  next : Nat := 0
  msgTags : List MsgTag := []
  pmcs : Vector Pmc 4 := Vector.replicate 4 {}
  /-- The matrix unit has been withdrawn (R386). -/
  mxLost : Bool := false
  /-- The core has been quarantined or withdrawn (R383, R386). -/
  gone : Bool := false
  /-- Cycles of the recoveries that the recovery count of R382 still counts, and of the failed reruns of R386. -/
  recovs : List Nat := []
  /-- Multiply-accumulates that the matrix unit has yet to count, in units of 256, by the domain of their actor (event 0x08 of R204). -/
  macs : List (BitVec 16 × Nat) := []
  mxFails : List Nat := []
  holds : List HoldSource := []
  /-- The thread set that issues until it stalls (R33). -/
  tset : Fin 4 := 0
  deriving DecidableEq, Repr

/-! ## Owners, commons banks, hint records -/

/-- A commons word (R92): data, VERSION, FLOOR, the has-value bit and poison. The word is deferred exactly while a
continuation of its bank names it, so STATE follows from these. -/
structure CWord where
  data : W64 := 0
  ver : BitVec 16 := 0
  floor : BitVec 16 := 0
  hasval : Bool := false
  poison : Bool := false
  deriving DecidableEq, Repr

/-- Who a continuation serves (R98): a waiting access of a core, or the target and channel of a deferral with its tag and
the actor that lodged it. -/
inductive ContFor where
  | wait (core id : Nat) (exact acq : Bool)
  | deferral (target : W64) (chan : Nat) (tag : W64) (lodger : W64) (lodgerInc : BitVec 8) (domain : BitVec 16)
  deriving DecidableEq, Repr

/-- A continuation (R98): the word, the version asked for and whom it serves, in lodging order. -/
structure Cont where
  word : Nat
  ver : BitVec 16
  who : ContFor
  deriving DecidableEq, Repr

/-- A shadow-store entry (R96). -/
structure Shadow where
  word : Nat
  ver : BitVec 16
  val : W64
  deriving DecidableEq, Repr

/-- A trigger entry (R101). -/
structure Trigger where
  word : Nat
  target : W64
  chan : Nat
  p0 : W64
  p1 : W64
  armer : W64
  armerInc : BitVec 8
  domain : BitVec 16
  deriving DecidableEq, Repr

/-- A bank's record of a tagged access (R125). -/
structure AccTag where
  core : Nat
  number : Nat
  answer : AccAnswer
  seen : Nat
  deriving DecidableEq, Repr

/-- A commons bank, or the arithmetic and order hardware of a memory core's channel: shadow store, continuations,
triggers and tag records. The accesses that it has not yet applied stand with their source cores, in SEQ order (R375). -/
structure Bank where
  shadow : List Shadow := []
  conts : List Cont := []
  trigs : List Trigger := []
  tags : List AccTag := []
  deriving DecidableEq, Repr

/-- States of a page at an owner (R137). -/
inductive FState where
  | absent | mapped | migrating | moved | replica | cow | lost | parked
  deriving DecidableEq, Repr

/-- A home-table entry (R137). -/
structure HomeEntry where
  fstate : FState := .absent
  frame : Nat := 0
  newOwner : Nat := 0
  keyslot : Nat := 0
  /-- The words of the frame that a corrected error has been counted for (CECNT is their number). -/
  corrected : List Nat := []
  /-- The state that a copy-on-write page returns to, and the one that a page whose frame is being retired returns to. -/
  back : FState := .mapped
  prior : FState := .mapped
  deriving DecidableEq, Repr

/-- A service record (R140): page, ticket number and code, the list of at most 32 clusters that hold its tickets, and the packages of the
map that takes the further ones. -/
structure Service where
  page : Nat
  tkt : Nat
  code : Nat
  subs : List Nat
  pkgMap : List Nat := []
  deriving DecidableEq, Repr

/-- An owner (R128): home table by page, service records, next ticket number, the order of moved entries, counters. -/
structure Owner where
  homes : SMap HomeEntry := []
  svcs : List Service := []
  nextTkt : Nat := 0
  moved : List Nat := []
  pmcs : Vector Pmc 2 := Vector.replicate 2 {}
  gone : Bool := false
  deriving DecidableEq, Repr

/-- A hint record (R130). -/
structure Hint where
  homepkg : Nat
  homedie : Nat
  tier : Nat
  homeidx : Nat
  mu : Bool
  split : Bool
  policy : Nat
  nkeep : Nat
  spmap : BitVec 32
  gen : BitVec 16
  keep : Vector Nat 4
  domain : BitVec 16
  orights : BitVec 3
  grights : BitVec 3
  deriving DecidableEq, Repr

/-- A migration in progress (R124): the page, its old and its new owner. -/
structure Migration where
  page : Nat
  oldOwner : Nat
  newOwner : Nat
  deriving DecidableEq, Repr

/-! ## Copy engines -/

/-- The stages of a burst: it waits for its ticket (R348), or for an entry of the ticket table that is full; it may be sent again, its owner answered it busy (R99, R140), it is on its way
to another package or to the host (R107, R125), and it is answered. -/
inductive BurstPhase where
  | ticketed
  | paused
  | ready
  | busy
  | sent
  | answered
  deriving DecidableEq, Repr

/-- A burst of a request that is not over at once (R347, R348): its global address and place among the bursts, whether it writes, its stage,
the bytes it captured to write or was answered, the tag it carries to another package, and its ticket-table entry with the ticket and the
cycle of its arrival. -/
structure Burst where
  ga : Nat
  idx : Nat := 0
  write : Bool
  phase : BurstPhase := .ready
  data : List Byte := []
  bad : Bool := false
  host : Bool := false
  tag : Option Nat := none
  firstAt : Nat := 0
  lastAt : Nat := 0
  resent : Bool := false
  entry : Bool := false
  tkt : Nat := 0
  owner : Nat := 0
  code : Nat := 0
  since : Nat := 0
  deriving DecidableEq, Repr

/-- The stages of an engine request: running, ended and waiting for its record. -/
inductive JobPhase where
  | running
  /-- A ring feed that is over and waits to publish its tile (R188). -/
  | filled
  /-- The record can be written (R339): STATUS and FCODE. -/
  | ended (status fcode : Nat)
  deriving DecidableEq, Repr

/-- A request in an active place (R192, R341): its request words, the bursts already done, the bytes written, what ended it, its
tickets, and the cycle of its start. -/
structure Job where
  id : Nat
  core : Nat
  slot : Nat
  name : W64
  tset : Nat
  fid : Nat
  w : Vector W64 4
  phase : JobPhase := .running
  done : List Nat := []
  bytes : Nat := 0
  /-- FCODE of a ring feed that has ended with a fault and waits to be published, with its FADDR (R188); else 0. -/
  fcode : Nat := 0
  faddr : W64 := 0
  localAddr : Bool := false
  detail : BitVec 32 := 0
  tile : Nat := 0
  bursts : List Burst := []
  /-- CYCLE when the engine took the request or last performed a burst of it: what the limits of R340 count from. -/
  startAt : Nat := 0
  /-- Names of refused slab-scatter targets (R343). -/
  refused : List W64 := []
  indices : List Nat := []
  /-- The binding of a stream request as its firing left it, once the firing no longer holds it (R345). -/
  ghost : Option W64 := none
  /-- The parcel that the place serves, for a request that GIVE placed (R346). -/
  parcel : Option Nat := none
  deriving DecidableEq, Repr

/-- A cluster's copy engine (R192, R341, R348). -/
structure Engine where
  active : List Job := []
  plb : List PlbEntry := []
  rr : Nat := 0
  next : Nat := 0
  /-- The number of the next tag (R347). -/
  tag : Nat := 0
  pmcs : Vector Pmc 2 := Vector.replicate 2 {}
  gone : Bool := false
  deriving DecidableEq, Repr

/-! ## In flight between agents -/

/-- A signal (R170) as it travels: addressee and the incarnation it is for, and the words 0 to 4. -/
structure Signal where
  dst : W64
  inc : BitVec 8
  kind : Nat
  reason : Nat
  sub : Nat
  ref : BitVec 16
  subject : W64
  origpkg : Nat
  origdie : Nat
  sinc : BitVec 8
  detail : W64
  stamp : W64
  /-- The EXIT with NOPROC that answers a LINK (R157, R308). -/
  linkAnswer : Bool := false
  /-- For CHILD_EXIT, what a restart needs (R163): the child's last core, its restart record, and the children that its own death had
  ended (R161). -/
  core : Nat := 0
  rrec : Nat := 0
  revive : List W64 := []
  deriving DecidableEq, Repr

/-- Requests that a core makes at a peer's core (R307, R421). -/
inductive LinkOp where
  | link | unlink | monitor | demonitor
  deriving DecidableEq, Repr

/-- A link request: what is asked, by whom, of whom (with the incarnation that the asker's entry holds), with the monitor reference. -/
structure LinkReq where
  op : LinkOp
  asker : W64
  askerInc : BitVec 8
  askerCore : Nat
  askerSlot : Nat
  domain : BitVec 16
  peer : W64
  pinc : BitVec 8 := 0
  ref : BitVec 16
  deriving DecidableEq, Repr

/-- The stages of a parcel (R153): waiting for its engine, asking the receiver, reserved and being copied. -/
inductive ParcelPhase where
  | queued | asking | reserved | busy
  deriving DecidableEq, Repr

/-- A parcel on its way (R153, R305): giver, its region (base, size and attributes, with the giver's tombstone entry when it
is on another core), receiver, channel and tag; then the receiver's core, slot, entry and base. -/
structure Parcel where
  giver : W64
  giverInc : BitVec 8
  giverCore : Nat
  giverEntry : Option Nat
  domain : BitVec 16
  base : Nat
  size : Nat
  kind : Nat
  rd : Bool
  wr : Bool
  skew : Bool
  pitch : Nat
  dst : W64
  chan : Nat
  tag : W64
  phase : ParcelPhase := .queued
  sameCore : Bool := false
  /-- Bytes that come from no core: a host parcel (R380) or a device service's (R399). -/
  body : List Byte := []
  rcore : Nat := 0
  rslot : Nat := 0
  rinc : BitVec 8 := 0
  rentry : Nat := 0
  /-- The number of the allocation of the mailbox that holds its reserved place. -/
  rbox : Nat := 0
  copied : Bool := false
  lastAt : Nat := 0
  firstAt : Nat := 0
  deriving DecidableEq, Repr

/-- An MDRAIN after its command has read the accumulator (R334): the converted rows and where they go. -/
structure Drain where
  name : W64
  inc : BitVec 8
  core : Nat
  slot : Nat
  domain : BitVec 16
  dst : W64
  tag : W64
  chan : Nat
  tridx : Nat
  off : Nat
  pitch : Nat
  fmt : Nat
  m : Nat
  n : Nat
  unchk : Bool
  rows : List (List Byte)
  esize : Nat
  firstAt : Nat := 0
  lastAt : Nat := 0
  busy : Bool := false
  deriving DecidableEq, Repr

/-- A restart that Bellwether has been asked for (R163): the name with its dead incarnation, last core, supervisor, and the
children to revive when a supervisor returns (R161). -/
structure Restart where
  name : W64
  inc : BitVec 8
  core : Nat
  supv : W64
  rrec : Nat
  revive : List W64
  deriving DecidableEq, Repr

/-- Who answers for a message that uses no send entry: nobody, the actor that lodged, armed or issued it, a host gateway, or a
counter threshold whose notice it is (R54, R209). -/
inductive Via where
  | entry (core id : Nat)
  | free (blame : W64) (inc : BitVec 8) (die : Nat)
  | notice (pkg threshold : Nat)
  deriving DecidableEq, Repr

/-- What travels between agents outside a core's own tables. -/
inductive Payload where
  | message (m : Msg) (via : Via) (busySince : Option Nat)
  | sendAnswer (core id : Nat) (tag : Option Nat) (a : MsgAnswer)
  | signal (s : Signal)
  | kill (dst : W64) (killer : W64) (killerInc : BitVec 8) (domain : BitVec 16) (everyDomain : Bool) (reason : Nat)
      (firstAt : Nat) (busy : Bool)
  | linkReq (r : LinkReq)
  | parcel (p : Parcel)
  | drain (d : Drain)
  | notice (owner tkt page holder status : Nat) (clusters : List Nat)
  | shootdown (cls range : Nat)
  | collapse (owner page tkt : Nat)
  | drop (owner home : Nat) (pages : List Nat) (collapse : Nat)
  | collapseDone (owner page tkt home : Nat) (drops : List Nat)
  | feed (sp : Spawn) (core : Nat)
  | restart (r : Restart)
  deriving DecidableEq, Repr

/-- A packet: where it was made, when it was last sent, and what it carries. -/
structure Packet where
  src : Nat
  born : Nat
  pay : Payload
  deriving DecidableEq, Repr

/-! ## Flocks, restart records, scopes -/

/-- A flock as its launch made it (R21, R24): header fields, gateway, and the count of exits. -/
structure Flock where
  prio : Nat
  nfield : Nat
  place : Nat
  supvl : Nat
  succl : Nat
  gate : Bool
  domain : BitVec 16
  wdog : Nat
  image : W64
  widths : List Nat
  maxlive : Nat
  supv : W64
  arg : W64
  init : Nat
  gateway : W64
  pkg : Nat
  conn : Nat
  abnormal : Nat := 0
  firstBad : Option Nat := none
  deriving DecidableEq, Repr

/-- A restart record (R162). -/
structure RestartRec where
  image : W64
  digest : BitVec 384
  msg : Vector W64 8
  sender : W64
  sinc : BitVec 8
  deriving DecidableEq, Repr

/-- A restart scope under way (R160): the supervisor, the dead child's CHILD_EXIT that waits, the children still to restart with
their last places, and the names whose deaths it still waits for. -/
structure Scope where
  supv : W64
  supvInc : BitVec 8
  trigger : Signal
  members : List Restart
  waiting : List W64
  deriving DecidableEq, Repr

/-! ## Package -/

/-- The power controller's counters for one die or the hub (R205), and the sample count and knobs of R206 and R402. -/
structure DieState where
  energy : W64 := 0
  power : Nat := 0
  temp : BitVec 16 := 0
  budget : Nat
  /-- CCEIL of every core of the die (R67, R206), and the samples in a row that R206 counts. -/
  cceil : Nat := 3
  calm : Nat := 0
  /-- Levels of knobs 1 to 8 in the order of R402 (the hub has only the eighth). -/
  knobs : List Nat
  rstdie : BitVec 32 := 0
  deriving DecidableEq, Repr

/-- A threshold of the counter service (R207, R208). -/
structure Threshold where
  ident : W64
  t : Nat
  hp : Nat
  period : Bool
  target : W64
  chan : Nat
  domain : BitVec 16
  armed : Bool := true
  last : Nat := 0
  lastNotice : Option Nat := none
  merged : Nat := 0
  lost : Nat := 0
  deriving DecidableEq, Repr

/-- One firmware as it stands in a slot: the 16-bit SCHEMA and SVN, the digest, and whether both signatures verify over it (R391). -/
structure FwSlot where
  schema : Nat
  svn : Nat
  digest : BitVec 384
  signed : Bool := true
  deriving DecidableEq, Repr

/-- The state of the first-stage loader, or of one of the three firmwares (R391): the image running, the one in flash (none after a commit write that was cut
short), whether it waits in recovery mode, and the SVN floor. -/
structure FwState where
  running : Option FwSlot
  flash : Option FwSlot
  recovery : Bool := false
  floor : Nat := 0
  deriving DecidableEq, Repr

/-- The stages of a replacement (R394): staged and verified; quiesced, with the blob exported; in probation; writing flash. -/
inductive ReplPhase where
  | staged | quiesced | probation | committing
  deriving DecidableEq, Repr

/-- A journal entry (R396): KIND, the SCHEMA that introduced that kind, and operands. -/
structure JournalEntry where
  kind : Nat
  schema : Nat
  ops : List Nat
  deriving DecidableEq, Repr

/-- A state blob (R394): SCHEMA, length and SHA-384 of the contents. -/
structure Blob where
  schema : Nat
  length : Nat
  digest : BitVec 384
  deriving DecidableEq, Repr

/-- A grant (R390): the granted dies, and the granted clusters as die·64 + cluster. -/
structure Grant where
  dies : List Nat := []
  clusters : List Nat := []
  deriving DecidableEq, Repr

/-- A live replacement in progress (R394 to R397): which firmware, the new image and the old one, the stage, the times of
activation and of the last hub-watchdog write on the wall clock, the old image's blob with the grants in it (R390), and the journal. -/
structure Replacement where
  fw : Nat
  new : FwSlot
  old : FwSlot
  phase : ReplPhase := .staged
  since : Nat := 0
  wrote : Nat := 0
  blob : Option Blob := none
  grants : SMap Grant := []
  journal : List JournalEntry := []
  deriving DecidableEq, Repr

/-- An entry of the measurement log (R392). -/
structure LogEntry where
  fw : Nat
  event : Nat
  mv : Nat
  schema : Nat
  cycle : Nat
  digest : BitVec 384
  deriving DecidableEq, Repr

/-- A service registration: the actor and its domain. -/
structure Registration where
  name : W64
  domain : BitVec 16
  deriving DecidableEq, Repr

/-- The stages of a Cairn take (R409). -/
inductive CairnPhase where
  | quiesce | stream
  deriving DecidableEq, Repr

/-- What a shard or an image keeps of one core for a domain (R406, R410): the slots with their tables and contents. -/
structure CoreSnap where
  core : Nat
  slots : SMap Actor
  regions : SMap RegEntry
  mem : Memory
  links : SMap LinkEntry
  sups : SMap SupEntry
  spawns : List Spawn
  accs : List Access
  /-- Send entries that a cut has answered busy (R409). -/
  sends : List SendEntry := []
  deriving DecidableEq, Repr

/-- A commons page in a shard: its words, shadow entries, continuations and triggers (R124, R410). -/
structure PageSnap where
  page : Nat
  words : SMap CWord
  bytes : Memory
  shadow : List Shadow
  conts : List Cont
  trigs : List Trigger
  deriving DecidableEq, Repr

/-- A committed or streaming Cairn of a domain: its id, step, place, and everything listed in R410 as it stood at step 3. -/
structure Cairn where
  domain : BitVec 16
  id : Nat
  step : W64
  dest : Nat
  room : Nat
  chan : Nat
  asker : W64
  cores : List CoreSnap := []
  pages : List PageSnap := []
  dir : List DirEntry := []
  flocks : SMap Flock := []
  rrecs : SMap RestartRec := []
  phase : CairnPhase := .quiesce
  /-- Number by which the lengths and the bytes of its shards' bodies are free values (log 43). -/
  serial : Nat := 0
  /-- Shards that have gone out (R409 step 5). -/
  sent : Nat := 0
  deriving DecidableEq, Repr

/-- The control-plane image in flash (R406): CYCLE at the trap, the directory and flocks, the cores' tables, the last committed
Cairn of each domain, and for each actor whether its mailbox was omitted; the bytes of sections 1 to 4, and the trailer. -/
structure ControlImage where
  /-- Package number, SILREV, CYCLE and section count of the header; the bytes of sections 1 to 4, and the digest and the commit
  doubleword of the trailer. -/
  pkg : Nat := 0
  silrev : Nat := 0
  cycle : Nat
  sections : Nat := 5
  body : List Byte := []
  digest : BitVec 384
  commit : W64 := 0x43504C494D000001
  dir : List DirEntry
  flocks : SMap Flock
  cores : List CoreSnap
  cairns : List (BitVec 16 × Nat)
  omitted : List (W64 × Nat) := []
  rrecs : SMap RestartRec := []
  deriving DecidableEq, Repr

/-- A Phiros Link port (R376, R377): its mode, the lanes that work, the packages that its routes serve (none programmed: every
package of the pod), the time of its last heartbeat on the wall clock, and the heartbeats missed in a row. -/
structure Port where
  mode : PortMode := .full
  lanes : Nat := 8
  routes : Option (List Nat) := none
  beat : Nat := 0
  /-- Narrowed by the link-lane throttle (R402). -/
  throttled : Bool := false
  missed : Nat := 0
  deriving DecidableEq, Repr

/-- A frame sent to the host (R380): class, FLAGS (bit 0 ACK present, bit 1 reply), PSN and ACKN, NAME, ARG and the payload. -/
structure Frame where
  cls : Nat
  flags : BitVec 16 := 1
  psn : Nat
  ackn : Nat := 0
  name : W64
  arg : W64
  words : List W64
  sentAt : Nat
  deriving DecidableEq, Repr

/-- A host connection (R380): the domain it is bound to, next PSN out, next PSN expected, frames awaiting an ACK. -/
structure Conn where
  domain : BitVec 16
  psnOut : Nat := 0
  psnIn : Nat := 0
  unacked : List Frame := []
  deriving DecidableEq, Repr

/-- An entry of the host port's export table (R129). -/
structure Export where
  domain : BitVec 16
  rights : BitVec 2
  deriving DecidableEq, Repr

/-- The port's end of a link or monitor that names a gateway actor (R421). -/
structure GwLink where
  gateway : W64
  kind : Nat
  ref : BitVec 16
  peer : W64
  pinc : BitVec 8
  deriving DecidableEq, Repr

/-- A package: its hub, its power controller, its firmwares and services. -/
structure Package where
  form : Nat := 1
  farch : Nat := 96
  silrev : Nat := 1
  cycle : Nat := 0
  /-- CYCLE div 8,192 at the last load levelling (R43), and the µs of the last power sample and counter sample (R206, R208), on the wall clock. -/
  levelled : Nat := 0
  sampled : Nat := 0
  counted : Nat := 0
  frozen : Bool := false
  halted : Bool := false
  /-- The last step of bring-up that is done (R417): 0 while RESET_N is asserted, 6 before READY. -/
  bringUp : Nat := 6
  /-- A router has failed (R386): the fabric of the package stands. -/
  fabricStopped : Bool := false
  isReady : Bool := false
  /-- The wall-clock µs in which RESET_N (0), FREEZE asserted (2) and FREEZE released (3) were last sampled at a level that is not
  yet taken (R416). -/
  pins : SMap Nat := []
  debug : Bool := false
  lost : Bool := false
  /-- Cycles for which each other package has answered no end-to-end heartbeat of this one (R377); an unlisted one has answered. -/
  silent : SMap Nat := []
  dies : Vector DieState 4
  hub : DieState
  /-- When the cap in force was accepted (R401), on the wall clock. -/
  capSince : Nat := 0
  pinCap : Nat := 15
  pinLast : Nat := 15
  /-- The µs of the last sample of the PSTEP pins (R400), on the wall clock. -/
  pinAt : Nat := 0
  frameCap : Nat := 15
  /-- The last accepted power step: new K, previous K, source (1 frame), and the wall clock at acceptance (R404). -/
  step : Option (Nat × Nat × Bool × Nat) := none
  thermtrip : Bool := false
  alert : Bool := false
  grants : SMap Grant := []
  keys : SMap Nat := [(0, 0)]
  exports : SMap Export := []
  /-- The bad-frame list, in the layout of R147. -/
  badFrames : List W32 := []
  badFull : Bool := false
  thresholds : SMap Threshold := []
  topoRegs : List Registration := []
  attRegs : List Registration := []
  powRegs : List Registration := []
  /-- The digests that each of MV0 to MV4 has been extended with, oldest first; R392 gives its value from them. -/
  mv : Vector (List (BitVec 384)) 5 := Vector.replicate 5 []
  log : List LogEntry := []
  /-- The first-stage loader (R391), which every boot verifies before the images. -/
  loader : FwState
  fw : Vector FwState 3
  repl : Option Replacement := none
  ports : Vector Port 16 := Vector.replicate 16 {}
  conns : SMap Conn := []
  gwLinks : List GwLink := []
  lostClusters : List Nat := []
  /-- The control-plane image in module flash and the domains that have asked for it (R406, R407). -/
  flashImage : Option ControlImage := none
  window : Option Nat := none
  decided : List (BitVec 16) := []
  cairns : List Cairn := []
  committed : List Cairn := []
  deriving DecidableEq, Repr

/-! ## The pod -/

/-- An uncorrectable soft error (R384) that befalls a bank word of a core's memory, or a copy engine's buffer while it serves a
request; or a router of a package that fails (R386). -/
inductive SoftError where
  | coreWord (core word : Nat)
  | copyBuffer (engine job : Nat)
  | router (pkg : Nat)
  deriving DecidableEq, Repr

/-- What comes next (log 1): a step of the device, an instruction of a thread set, or a soft error. -/
inductive Turn where
  | event (i : Instr)
  | issue (core : Nat) (tset : Fin 4)
  | error (e : SoftError)
  deriving DecidableEq, Repr

/-- The state of the pod. -/
structure State where
  pkgs : SMap Package
  npkg : Nat
  cores : SMap Core
  engines : SMap Engine
  owners : SMap Owner
  banks : SMap Bank
  words : SMap CWord
  gmem : Memory
  /-- Words of global memory that hold an uncorrectable error, by address div 8 (R104). -/
  gbad : List Nat
  hints : SMap Hint
  /-- Pages of the image store that the management firmware has placed (R242). -/
  placed : List Nat
  dir : SMap DirEntry
  /-- The directory map (R378): unlisted slot s names package s. -/
  dirMap : SMap Nat
  /-- Slots of the directory map whose fresh mirrors have not been written yet (R378 step 2). -/
  bare : List Nat
  rrecs : SMap RestartRec
  flocks : SMap Flock
  scopes : List Scope
  migrations : List Migration
  /-- Every Cairn that a manifest has committed: what the shards hold that lie at its destination (R410, R411). -/
  archive : List Cairn
  net : SMap Packet
  /-- Number of the next packet, restart record or firing. -/
  serial : Nat
  agenda : List Turn
  delays : List Nat
  /-- The cores that have issued an instruction in the present cycle, and whether an event has taken place in it since: an
  instruction of a cycle comes before the cycle's arrivals (R31, R53, R178). -/
  issuers : List Nat
  settled : Bool
  /-- The cores whose selection logic has started a firing in the present cycle (R34). -/
  started : List Nat
  /-- The wall clock of R11, in units of 1/940 µs: it goes on while FREEZE stops the clocks of a package. -/
  wall : Nat
  /-- The core that issued last, or issues now. -/
  cur : Nat
  deriving DecidableEq, Repr

/-! ## Reset -/

/-- The power counters of a compute die after reset (R205, R400, R401): cap 15 is 2,800 W, so the die's share is 660 W; every
knob of R402 is full. -/
def DieState.compute : DieState := { budget := 660, knobs := [8, 8, 4, 4, 4, 4, 4] }

/-- The power counters of the hub die after reset: its budget is 160 W (R401), its one knob the link lanes (R402). -/
def DieState.hubDie : DieState := { budget := 160, knobs := [8] }

/-- The image that a package holds from its making (R391): 0 the loader, 1 to 3 the firmwares. -/
def FwSlot.made (k : Nat) : FwSlot :=
  { schema := Config.bootSchema k % 65536, svn := Config.bootSvn k % 65536, digest := Config.bootDigest k }

/-- A firmware that has booted from its flash image (R391). -/
def FwState.booted (k : Nat) : FwState := { running := some (FwSlot.made k), flash := some (FwSlot.made k), floor := 0 }

/-- The log entry of a boot measurement (R392): FW k into MV k. -/
def LogEntry.boot (k : Nat) : LogEntry :=
  { fw := k, event := 0, mv := k, schema := (FwSlot.made k).schema, cycle := 0, digest := (FwSlot.made k).digest }

/-- A package after its reset, with its firmwares verified, measured and started (R417 steps 1 to 6): CYCLE 0, no grants but
those of domain 0, key slot 0 bound to domain 0, no host connection, READY not yet asserted. -/
def Package.reset : Package where
  dies := Vector.replicate 4 DieState.compute
  hub := DieState.hubDie
  loader := FwState.booted 0
  fw := #v[FwState.booted 1, FwState.booted 2, FwState.booted 3]
  mv := #v[[Config.bootDigest 0], [Config.bootDigest 1], [Config.bootDigest 2], [Config.bootDigest 3], []]
  log := [LogEntry.boot 0, LogEntry.boot 1, LogEntry.boot 2, LogEntry.boot 3]

/-- A pod of one package right after its reset: every core, engine, owner and bank as its reset values say, memory with
nothing listed, no actor, no hint record, nothing in flight. -/
def State.reset : State where
  pkgs := [(0, Package.reset)]
  npkg := 1
  cores := []
  engines := []
  owners := []
  banks := []
  words := []
  gmem := []
  gbad := []
  hints := []
  placed := []
  dir := []
  dirMap := []
  bare := []
  rrecs := []
  flocks := []
  scopes := []
  migrations := []
  archive := []
  net := []
  serial := 0
  agenda := []
  delays := []
  issuers := []
  settled := false
  started := []
  wall := 0
  cur := 0

end Sys2Proof.Machine
end

