-- ==== Sys2Proof/Machine/Ops.lean ====
section
/-! DEFINITION. The operations that every meaning is written over: where units lie, reading and changing the parts of the state,
stalling and finishing an instruction, taking a trap (R71), ending an actor (R49), and local memory (R84 to R90). -/

namespace Sys2Proof.Machine

/-! ## Where units lie (R6, R70, R128)

A core's key is its package number above its COREID. A cluster's key is package, die and cluster; an owner's key is its owner
identity; a bank's key is its owner's with the bank number. -/

/-- Package of a core. -/
def corePkg (c : Nat) : Nat := c / 65536
/-- Die of a core (COREID bits 15:14). -/
def coreDie (c : Nat) : Nat := c / 16384 % 4
/-- Whether a core is a memory core (COREID bit 13). -/
def coreIsMem (c : Nat) : Bool := decide (c / 8192 % 2 = 1)
/-- Tier of a memory core (COREID bit 12). -/
def coreTier (c : Nat) : Nat := c / 4096 % 2
/-- Index of a core (COREID bits 11:0). -/
def coreIndex (c : Nat) : Nat := c % 4096
/-- The key of a core. -/
def coreKey (pkg die : Nat) (mem : Bool) (tier index : Nat) : Nat :=
  pkg * 65536 + die * 16384 + (if mem then 8192 else 0) + tier * 4096 + index
/-- The key of a compute core from its die index. -/
def computeKey (pkg die index : Nat) : Nat := coreKey pkg die false 0 index

/-- The cluster a core belongs to (R6); memory core NMk sits beside cluster 2k and FMk beside cluster 2k + 1 (log 8). -/
def coreCluster (c : Nat) : Nat :=
  if coreIsMem c then 2 * coreIndex c + coreTier c else coreIndex c / 16
/-- The key of a core's cluster, which is also that of its copy engine. -/
def engineOf (c : Nat) : Nat := corePkg c * 256 + coreDie c * 64 + coreCluster c
/-- Package of a cluster. -/
def engPkg (e : Nat) : Nat := e / 256
/-- Die of a cluster. -/
def engDie (e : Nat) : Nat := e / 64 % 4
/-- Cluster number on its die. -/
def engCluster (e : Nat) : Nat := e % 64
/-- The cores of a cluster, compute cores by k and then the memory core beside it. -/
def clusterCores (e : Nat) : List Nat :=
  (List.range 16).map (fun k => computeKey (engPkg e) (engDie e) (16 * engCluster e + k)) ++
    [coreKey (engPkg e) (engDie e) true (engCluster e % 2) (engCluster e / 2)]

/-- OIDX of a memory core (R128). -/
def coreOidx (c : Nat) : Nat := if coreTier c = 1 then 32 + coreIndex c else coreIndex c
/-- The owner identity of a memory core (R128). -/
def memOwner (c : Nat) : Nat := corePkg c * 512 + coreDie c * 128 + coreOidx c
/-- The owner identity of a cluster's bank group (R128). -/
def bankOwner (e : Nat) : Nat := engPkg e * 512 + engDie e * 128 + 64 + engCluster e
/-- Package of an owner. -/
def ownerPkg (o : Nat) : Nat := o / 512
/-- Die of an owner. -/
def ownerDie (o : Nat) : Nat := o / 128 % 4
/-- Whether an owner is a bank group. -/
def ownerIsBank (o : Nat) : Bool := decide (o / 64 % 2 = 1)
/-- OIDX of an owner. -/
def ownerIdx (o : Nat) : Nat := o % 64
/-- The core of a memory-core owner. -/
def ownerCore (o : Nat) : Nat :=
  let far := decide (ownerIdx o ≥ 32)
  coreKey (ownerPkg o) (ownerDie o) true (if far then 1 else 0) (if far then ownerIdx o - 32 else ownerIdx o)
/-- The cluster key of an owner: its own for a bank group, the memory core's for a channel. -/
def ownerCluster (o : Nat) : Nat :=
  if ownerIsBank o then ownerPkg o * 256 + ownerDie o * 64 + ownerIdx o else engineOf (ownerCore o)
/-- The key of the bank of an owner that holds a global address (R91); a memory core has one. -/
def bankOf (o ga : Nat) : Nat := o * 4 + (if ownerIsBank o then ga / 64 % 4 else 0)

/-! ## Global addresses (R106) -/

/-- CLASS of a global address. -/
def gaClass (ga : Nat) : Nat := ga / 2 ^ 54 % 8
/-- RANGE of a global address. -/
def gaRange (ga : Nat) : Nat := ga / 2 ^ 21 % 2 ^ 33
/-- PAGE of a global address: bits 56:16. -/
def gaPage (ga : Nat) : Nat := ga / 65536
/-- The page's place within its range (bits 20:16). -/
def gaPageInRange (ga : Nat) : Nat := ga / 65536 % 32
/-- Bits 63:57 are zero and CLASS is one of 0 to 3 (R106). -/
def gaValid (ga : Nat) : Bool := decide (ga < 2 ^ 56)
/-- The key of a hint record: class and range. -/
def hintKey (cls range : Nat) : Nat := cls * 2 ^ 33 + range
/-- The key of the hint record of an address. -/
def hintKeyOf (ga : Nat) : Nat := hintKey (gaClass ga) (gaRange ga)
/-- The key of the hint record of a page. -/
def hintKeyOfPage (page : Nat) : Nat := hintKeyOf (page * 65536)

/-! ## Reading and changing parts of the state -/

/-- A package. -/
def State.pkg (s : State) (p : Nat) : Package := s.pkgs.get Package.reset p
/-- Changes a package. -/
def State.onPkg (s : State) (p : Nat) (f : Package → Package) : State := { s with pkgs := s.pkgs.put p (f (s.pkg p)) }
/-- A core; an unlisted core is as package reset leaves it. -/
def State.core (s : State) (c : Nat) : Core := s.cores.get {} c
/-- Replaces a core. -/
def State.setCore (s : State) (c : Nat) (k : Core) : State := { s with cores := s.cores.put c k }
/-- Changes a core. -/
def State.onCore (s : State) (c : Nat) (f : Core → Core) : State := s.setCore c (f (s.core c))
/-- A copy engine. -/
def State.engine (s : State) (e : Nat) : Engine := s.engines.get {} e
/-- Changes a copy engine. -/
def State.onEngine (s : State) (e : Nat) (f : Engine → Engine) : State :=
  { s with engines := s.engines.put e (f (s.engine e)) }
/-- An owner. -/
def State.owner (s : State) (o : Nat) : Owner := s.owners.get {} o
/-- Changes an owner. -/
def State.onOwner (s : State) (o : Nat) (f : Owner → Owner) : State := { s with owners := s.owners.put o (f (s.owner o)) }
/-- A bank. -/
def State.bank (s : State) (b : Nat) : Bank := s.banks.get {} b
/-- Changes a bank. -/
def State.onBank (s : State) (b : Nat) (f : Bank → Bank) : State := { s with banks := s.banks.put b (f (s.bank b)) }
/-- A commons word, by the global address of its first byte divided by 8 (R92). -/
def State.word (s : State) (w : Nat) : CWord := s.words.get {} w
/-- Replaces a commons word. -/
def State.setWord (s : State) (w : Nat) (v : CWord) : State := { s with words := SMap.set {} s.words w v }
/-- CCEIL of a core (R67, R206). -/
def State.cceil (s : State) (c : Nat) : Nat := ((s.pkg (corePkg c)).dies[coreDie c % 4]'(Nat.mod_lt _ (by decide))).cceil
/-- The cycle count of a package (R69). -/
def State.cycle (s : State) (p : Nat) : Nat := (s.pkg p).cycle
/-- The cycle count at a core. -/
def State.now (s : State) (c : Nat) : Nat := s.cycle (corePkg c)
/-- A name-directory entry; none where the name is free. -/
def State.dirEntry (s : State) (name : W64) : Option DirEntry := s.dir.find name.toNat
/-- Writes a name-directory entry. -/
def State.setDir (s : State) (e : DirEntry) : State := { s with dir := s.dir.put e.name.toNat e }
/-- Thresholds whose target lives no longer are cancelled (R209). -/
def State.cancelThresholds (s : State) (name : W64) : State :=
  { s with pkgs := s.pkgs.mapVals fun _ p => { p with thresholds := p.thresholds.filter fun h => h.2.target != name } }
/-- Frees a name. -/
def State.freeName (s : State) (name : W64) : State := { s.cancelThresholds name with dir := s.dir.del name.toNat }
/-- A flock. -/
def State.flock (s : State) (n : Nat) : Option Flock := s.flocks.find n
/-- Changes a flock, if it exists. -/
def State.onFlock (s : State) (n : Nat) (f : Flock → Flock) : State :=
  match s.flocks.find n with
  | none => s
  | some fl => { s with flocks := s.flocks.put n (f fl) }
/-- Puts a packet under way. -/
def State.post (s : State) (src : Nat) (pay : Payload) : State :=
  { s with net := s.net.put s.serial { src := src, born := s.cycle src, pay := pay }, serial := s.serial + 1 }
/-- A packet under way. -/
def State.packet (s : State) (n : Nat) : Option Packet := s.net.find n
/-- Takes a packet off. -/
def State.take (s : State) (n : Nat) : State := { s with net := s.net.del n }

/-- An actor-table slot; an unlisted slot is free. -/
def Core.actor (k : Core) (slot : Nat) : Actor := k.slots.get {} slot
/-- Changes an actor-table slot. -/
def Core.onActor (k : Core) (slot : Nat) (f : Actor → Actor) : Core :=
  { k with slots := k.slots.put slot (f (k.actor slot)) }
/-- A thread set. -/
def Core.thread (k : Core) (i : Fin 4) : Thread := k.threads[i]
/-- Changes a thread set. -/
def Core.onThread (k : Core) (i : Fin 4) (f : Thread → Thread) : Core :=
  { k with threads := k.threads.set i (f (k.threads[i])) }
/-- OPCNT of an actor (R70). -/
def Actor.opcnt (a : Actor) : W64 := BitVec.ofNat 64 (a.mt * 2 ^ 24 + a.cp * 2 ^ 16 + a.cs * 2 ^ 8 + a.cl)
/-- Changes an actor-table slot of a core. -/
def State.onActor (s : State) (c slot : Nat) (f : Actor → Actor) : State := s.onCore c (·.onActor slot f)
/-- An actor-table slot of a core. -/
def State.actor (s : State) (c slot : Nat) : Actor := (s.core c).actor slot

/-- The core that issues. -/
def State.me (s : State) : Core := s.core s.cur
/-- The thread set that issues. -/
def State.th (s : State) : Thread := s.me.thread s.me.tset
/-- The actor whose firing issues. -/
def State.self (s : State) : Actor := s.me.actor s.th.slot
/-- Changes the issuing core. -/
def State.onMe (s : State) (f : Core → Core) : State := s.onCore s.cur f
/-- Changes the issuing thread set. -/
def State.onTh (s : State) (f : Thread → Thread) : State := s.onMe fun k => k.onThread k.tset f
/-- Changes the actor whose firing issues. -/
def State.onSelf (s : State) (f : Actor → Actor) : State := s.onMe fun k => k.onActor (k.thread k.tset).slot f

/-- Whether a core exists (R3, R6): its package does, and its index is of a part that the package holds.
Where fewer than 96 far channels are populated they are the first ones in die order (log 85). -/
def State.coreExists (s : State) (c : Nat) : Bool :=
  match s.pkgs.find (corePkg c) with
  | none => false
  | some p =>
    if coreIsMem c then
      if coreTier c = 1 then decide (coreIndex c < 24) && decide (coreDie c * 24 + coreIndex c < p.farch)
      else decide (coreIndex c < 32)
    else decide (coreTier c = 0) && decide (coreIndex c < 1024)

/-- Whether a package is lost to the pod: one that comes out of its reset is not yet back before step 4 of bring-up (R377, R417). -/
def Package.away (p : Package) : Bool := p.lost && decide (4 ≤ p.bringUp)

/-- Whether a core of the pod takes part: it exists, its package runs, and it has not been withdrawn. -/
def State.coreLive (s : State) (c : Nat) : Bool :=
  s.coreExists c && !(s.core c).gone && !(s.pkg (corePkg c)).halted && !(s.pkg (corePkg c)).away

/-! ## Firmware (R393, R396) -/

/-- Whether an image is quiesced (R393): from its quiesce point until its successor has imported the blob. -/
def Package.quiesced (p : Package) (fw : Nat) : Bool :=
  (p.fw[(fw + 2) % 3]).running.isNone || p.repl.any fun r => r.fw == fw && decide (r.phase = .quiesced)

/-- Whether any image of a package is quiesced. -/
def Package.quiescing (p : Package) : Bool := p.repl.any fun r => decide (r.phase = .quiesced)

/-- KINDs of journal entries (R396): 1 is a launch accepted; the other numbers are the model's (log 98). -/
def jLaunch : Nat := 1
/-- A steward feed. -/
def jFeed : Nat := 2
/-- A hint-record write. -/
def jHint : Nat := 3
/-- An export-table write. -/
def jExport : Nat := 4
/-- An image-store write. -/
def jImage : Nat := 5
/-- A connection opened or closed. -/
def jConn : Nat := 6
/-- A grant changed: domain, die, cluster (64 for the die), and 1 for an addition. -/
def jGrant : Nat := 7
/-- A key slot bound. -/
def jKey : Nat := 8
/-- The directory map, or a port's routes, changed. -/
def jFabric : Nat := 10
/-- Debug unlocked. -/
def jDebug : Nat := 11

/-- A change of its own state that an image in probation makes is a journal entry (R396). -/
def Package.journaled (p : Package) (fw kind : Nat) (ops : List Nat) : Package :=
  match p.repl with
  | some r =>
    if r.fw = fw ∧ r.phase = .probation then
      { p with repl := some { r with journal := r.journal ++ [{ kind := kind, schema := Config.journalSchema kind, ops := ops }] } }
    else p
  | none => p

/-- The same for a package of the pod. -/
def State.journal (s : State) (pkg fw kind : Nat) (ops : List Nat) : State :=
  if ((s.pkg pkg).repl).isSome then s.onPkg pkg (·.journaled fw kind ops) else s

/-! ## Registers of a thread set (R56 to R62) -/

/-- A scalar register; x0 reads zero (R56). -/
def Thread.readX (t : Thread) (r : Reg) : W64 := if r = 0 then 0 else t.x[r.toNat]'r.isLt
/-- A vector register. -/
def Thread.readV (t : Thread) (r : Reg) : V256 := t.v[r.toNat]'r.isLt
/-- Presence of a scalar register; x0 is always present (R56). -/
def Thread.hereX (t : Thread) (r : Reg) : Bool := decide (r = 0) || t.xp.getLsbD r.toNat
/-- Presence of a vector register. -/
def Thread.hereV (t : Thread) (r : Reg) : Bool := t.vp.getLsbD r.toNat
/-- Writes a scalar register and sets its presence bit; a write to x0 is discarded (R56). -/
def Thread.writeX (t : Thread) (r : Reg) (v : W64) : Thread :=
  if r = 0 then t else { t with x := t.x.set r.toNat v r.isLt, xp := t.xp ||| (1#32 <<< r.toNat) }
/-- Writes a vector register and sets its presence bit. -/
def Thread.writeV (t : Thread) (r : Reg) (v : V256) : Thread :=
  { t with v := t.v.set r.toNat v r.isLt, vp := t.vp ||| (1#32 <<< r.toNat) }
/-- Clears the presence bit of a scalar register; that of x0 is never cleared (R60). -/
def Thread.clearX (t : Thread) (r : Reg) : Thread :=
  if r = 0 then t else { t with xp := t.xp &&& ~~~(1#32 <<< r.toNat) }
/-- Clears the presence bit of a vector register. -/
def Thread.clearV (t : Thread) (r : Reg) : Thread := { t with vp := t.vp &&& ~~~(1#32 <<< r.toNat) }
/-- A message register (R64). -/
def Thread.readM (t : Thread) (r : BitVec 3) : W64 := t.m[r.toNat]'r.isLt
/-- Writes a message register. -/
def Thread.writeM (t : Thread) (r : BitVec 3) (v : W64) : Thread := { t with m := t.m.set r.toNat v r.isLt }
/-- The program counter of the next instruction in sequence (R259): local addresses are 20 bits, and pc + 4 may lie beyond
them. -/
def Thread.nextPc (t : Thread) : Thread := { t with pc := t.pc + 4 }
/-- Whether all of some scalar registers are present. -/
def Thread.hereXs (t : Thread) (rs : List Reg) : Bool := rs.all t.hereX
/-- Whether all of some vector registers are present. -/
def Thread.hereVs (t : Thread) (rs : List Reg) : Bool := rs.all t.hereV

/-- STATUS.INTRAP (R70). -/
def Thread.inTrap (t : Thread) : Bool := t.status.getLsbD 0
/-- STATUS.PRIV (R70). -/
def Thread.isPriv (t : Thread) : Bool := t.status.getLsbD 1

/-! ## Ending an instruction -/

/-- What a step of the pod answers. -/
abbrev Answer := Host.Outcome State Fault Refusal

/-- The thread set stalls (R33): nothing changes but that the core looks at its next thread set. -/
def State.stall (s : State) : Answer := .next (s.onTh fun t => { t with stalled := true })

/-- The bits of some registers in a presence word (R59). -/
def regMask (rs : List Reg) : BitVec 32 := rs.foldl (fun m r => m ||| (1#32 <<< r.toNat)) 0

/-- The thread set stalls on presence bits (R61). -/
def State.stallReg (s : State) (xs vs : List Reg) : Answer :=
  .next (s.onTh fun t => { t with stalled := true, waitX := regMask xs, waitV := regMask vs })

/-- The instruction commits: the thread set changes as given and goes on at the next instruction. -/
def State.finish (s : State) (f : Thread → Thread) : Answer := .next (s.onTh fun t => (f t).nextPc)

/-- Runs the rest of an instruction once some scalar registers (sources and destination, R61) are present. -/
def State.withX (s : State) (rs : List Reg) (k : Thread → Answer) : Answer :=
  if s.th.hereXs rs then k s.th else s.stallReg rs []

/-! ## Bank words as the core's own hardware reads and writes them (R83) -/

/-- Writes whole bank words at a local address, with fresh ECC (R83). -/
def Core.writeWords (k : Core) (a : Nat) (bs : List Byte) : Core :=
  { k with
    mem := k.mem.writeN a bs
    bad := k.bad.filter fun w => !(decide (a ≤ w * 8) && decide (w * 8 + 8 ≤ a + bs.length)) }

/-- Writes one bank word, with fresh ECC. -/
def Core.writeWord (k : Core) (a : Nat) (v : W64) : Core := k.writeWords a (toBytes 8 v.toNat)

/-- A doubleword of core memory as its hardware reads it (R63, R83): zero where the bank word holds an uncorrectable error. -/
def Core.readWord (k : Core) (a : Nat) : W64 := if k.bad.contains (a / 8) then 0 else k.mem.read64 a

/-- A doubleword that the core keeps for itself in core memory: a channel descriptor, a waiting signal, a saved register that is not being
restored. What it reads where the bank word holds an uncorrectable error is a free value (log 91). -/
def Core.metaWord (k : Core) (a : Nat) : W64 :=
  if k.bad.contains (a / 8) then Config.badMeta (a / 8) k.next else k.mem.read64 a

/-- The local address of the first bank word with an uncorrectable error among `n` bytes at an address (R83). -/
def Core.badRun (k : Core) (a n : Nat) : Option W64 :=
  (k.bad.find? fun w => decide (a < w * 8 + 8) && decide (w * 8 < a + n)).map fun w => BitVec.ofNat 64 (w * 8)

/-! ## Save areas (R75, R76) -/

/-- Local address of save area `k`. -/
def saveBase (k : Nat) : Nat := 0x5C000 + 0x800 * k

/-- Changes the outstanding-operation counters of a slot in their home (R200): the save area holds them too while the firing is
pre-empted. -/
def Core.onCounters (k : Core) (slot : Nat) (f : Actor → Actor) : Core :=
  let k1 := k.onActor slot f
  let a := k1.actor slot
  if a.state = .preempted then k1.writeWord (saveBase a.save + 0x570) a.opcnt else k1

/-- SENDLEFT of a pre-empted firing, from its save area. -/
def Core.savedSendLeft (k : Core) (a : Actor) : Nat := (k.metaWord (saveBase a.save + 0x5C0)).toNat

/-! ## Ending an actor, taking a trap -/

/-- Reason codes (R171). -/
def rNormal : Nat := 0x00
/-- SUCCEEDED. -/
def rSucceeded : Nat := 0x01
/-- KILLED. -/
def rKilled : Nat := 0x02
/-- LINKED. -/
def rLinked : Nat := 0x03
/-- ILLEGAL. -/
def rIllegal : Nat := 0x10
/-- PRIV. -/
def rPriv : Nat := 0x11
/-- PLB_DENY. -/
def rPlbDeny : Nat := 0x12
/-- REGION_DENY. -/
def rRegionDeny : Nat := 0x13
/-- MISALIGN. -/
def rMisalign : Nat := 0x14
/-- STREAM_CLOSED. -/
def rStreamClosed : Nat := 0x15
/-- VERSION_GONE. -/
def rVersionGone : Nat := 0x16
/-- SUCC_SHAPE. -/
def rSuccShape : Nat := 0x17
/-- TILE_CMD. -/
def rTileCmd : Nat := 0x18
/-- BREAK. -/
def rBreak : Nat := 0x19
/-- SEND_LIMIT. -/
def rSendLimit : Nat := 0x1A
/-- DATA_ERROR. -/
def rDataError : Nat := 0x20
/-- CORE_FAULT. -/
def rCoreFault : Nat := 0x21
/-- WATCHDOG. -/
def rWatchdog : Nat := 0x22
/-- TIMEOUT. -/
def rTimeout : Nat := 0x30
/-- TICKET_TIMEOUT. -/
def rTicketTimeout : Nat := 0x31
/-- OVERFLOW. -/
def rOverflow : Nat := 0x32
/-- NOPROC. -/
def rNoproc : Nat := 0x33
/-- INDETERMINATE. -/
def rIndeterminate : Nat := 0x34
/-- CORE_LOST. -/
def rCoreLost : Nat := 0x40
/-- CHIP_LOST. -/
def rChipLost : Nat := 0x41
/-- FRAME_LOST. -/
def rFrameLost : Nat := 0x42
/-- RESTART_LIMIT. -/
def rRestartLimit : Nat := 0x43
/-- POWER_STEP. -/
def rPowerStep : Nat := 0x50
/-- MEASURE. -/
def rMeasure : Nat := 0x51
/-- TOPOLOGY. -/
def rTopology : Nat := 0x52

/-- Whether an exit with a reason is abnormal (R171). -/
def abnormal (reason : Nat) : Bool := reason != rNormal && reason != rSucceeded

/-- The reason codes that R171 assigns. -/
def reasonAssigned (r : Nat) : Bool :=
  [0x00, 0x01, 0x02, 0x03, 0x10, 0x11, 0x12, 0x13, 0x14, 0x15, 0x16, 0x17, 0x18, 0x19, 0x1A, 0x20, 0x21, 0x22, 0x30, 0x31,
    0x32, 0x33, 0x34, 0x40, 0x41, 0x42, 0x43, 0x50, 0x51, 0x52].contains r || (decide (0x80 ≤ r) && decide (r ≤ 0xFE))

/-- Whether a slot holds an actor that an event of R49 can end (R151). -/
def ActState.mortal : ActState → Bool
  | .loading | .idle | .firing | .preempted | .gated => true
  | .free | .dying => false

/-- An actor dies (R49, R151): its slot becomes dying with the reason, sub-cause and DETAIL, its firing stops, and POPCNT is
cleared. DEATH and DEATH_RECLAIM take the steps of R164. A death event that reaches a free or dying slot is discarded. -/
def Core.die (k : Core) (slot reason sub : Nat) (detail : W64) : Core :=
  let a := k.actor slot
  if a.state.mortal then
    let k1 := if a.state = .firing then k.onThread (Fin.ofNat 4 a.tsetf) fun t => { t with busy := false, deferred := none } else k
    k1.onActor slot fun a =>
      { a with state := .dying, dying := some { reason := reason, sub := sub, detail := detail }, popcnt := 0 }
  else k

/-- A trap as the detecting unit supplies it (R71): reason, sub-cause, DETAIL, the address it names with GAF, IMP, and the
program counter of the instruction. `word` is false where no word was fetched (R259). -/
structure Trap where
  reason : Nat
  sub : Nat := 0
  detail : W32 := 0
  va : W64 := 0
  gaf : Bool := false
  imp : Bool := false
  pc : W64
  word : Bool := true
  deriving DecidableEq, Repr

/-- CAUSE as a trap writes it (R70, R71). -/
def Trap.cause (r : Trap) : W64 :=
  BitVec.ofNat 64 ((if r.imp then 2 ^ 63 else 0) + (if r.gaf then 2 ^ 62 else 0) + r.reason * 2 ^ 40 + r.sub * 2 ^ 32 +
    r.detail.toNat)

/-- The instruction word at a local address of a core. -/
def Core.wordAt (k : Core) (pc : W64) : W32 := BitVec.ofNat 32 (ofBytes (k.mem.readN pc.toNat 4))

/-- The local address at which a region of a core begins. -/
def Core.regionBase (k : Core) (i : Nat) : Nat := (k.regions.get {} i).base * 1024

/-- Reasons that no trap handler ever sees (R49, R71). -/
def neverCaught (reason : Nat) : Bool := reason == rWatchdog || reason == rKilled || reason == rCoreFault

/-- Taking a trap on thread set `i` of a core (R71, R202): the handler is entered within the same firing, or the actor dies.
A death carries CAUSE.DETAIL as its DETAIL (R164). -/
def Core.takeTrap (k : Core) (i : Fin 4) (r : Trap) : Core :=
  let t := k.thread i
  let a := k.actor t.slot
  match a.trapEntry with
  | none => k.die t.slot r.reason r.sub (r.detail.zeroExtend 64)
  | some entry =>
    if neverCaught r.reason || t.inTrap then k.die t.slot r.reason r.sub (r.detail.zeroExtend 64)
    else
      (k.onThread i fun t =>
        { t with
          cause := r.cause
          faultva := r.va
          faultpc := r.pc
          faultins := if r.word then k.wordAt r.pc else 0
          status := t.status ||| 1
          pc := BitVec.ofNat 64 (k.regionBase a.code + entry) }).onActor t.slot fun a =>
            { a with traps := if a.traps = BitVec.allOnes 16 then a.traps else a.traps + 1 }

/-- The issuing instruction traps (R71): precise, with its own program counter. -/
def State.trap (s : State) (reason sub : Nat) (detail : Nat := 0) (va : W64 := 0) (gaf : Bool := false) : Answer :=
  .next (s.onMe fun k => k.takeTrap k.tset
    { reason := reason, sub := sub, detail := BitVec.ofNat 32 detail, va := va, gaf := gaf, pc := s.th.pc })

/-- ILLEGAL with a sub-cause (R72). -/
def State.illegal (s : State) (sub : Nat) : Answer := s.trap rIllegal sub

/-- The issuing actor dies (R309). -/
def State.dieSelf (s : State) (reason : Nat) (detail : W64) : State := s.onMe fun k => k.die s.th.slot reason 0 detail

/-! ## Data errors (R63, R70, R385) -/

/-- EPERR with one more uncorrectable error: the first is recorded, later ones set MULTI. -/
def recordErr (eperr : W64) (srcmem : Nat) (addr : W64) : W64 :=
  if eperr.getLsbD 63 then eperr ||| (1#64 <<< 62)
  else BitVec.ofNat 64 (2 ^ 63 + srcmem * 2 ^ 59 + addr.toNat % 2 ^ 54)

/-- Records an error with the firing of an actor: in its thread set while it runs, in its save area while it is pre-empted, and
with the slot otherwise (R385). -/
def Core.recordErr (k : Core) (slot srcmem : Nat) (addr : W64) : Core :=
  let a := k.actor slot
  match a.state with
  | .firing => k.onThread (Fin.ofNat 4 a.tsetf) fun t => { t with eperr := Machine.recordErr t.eperr srcmem addr }
  | .preempted =>
    let at_ := saveBase a.save + 0x5B0
    k.writeWord at_ (Machine.recordErr (k.readWord at_) srcmem addr)
  | .free | .dying => k
  | .loading | .idle | .gated => k.onActor slot fun a => { a with heldErr := Machine.recordErr a.heldErr srcmem addr }

/-- The error record of an instruction that has read a bank word with an uncorrectable error, if any (R83, R384): SRCMEM 0. -/
def State.readError (s : State) (at_ : Option W64) : State :=
  match at_ with
  | some v => s.onMe fun k => k.recordErr s.th.slot 0 v
  | none => s

/-- The error that the core's hardware meets in `n` bytes that it reads for an actor, if any (R83, R384). -/
def Core.noteBad (k : Core) (slot a n : Nat) : Core :=
  match k.badRun a n with
  | some v => k.recordErr slot 0 v
  | none => k

/-- Records a deferred fault with the firing of an actor (R63): with its thread set while it runs, with the slot otherwise (and in
the save area's fault words while it is pre-empted, R76). The fault of the older access is kept. -/
def Core.deferFault (k : Core) (slot : Nat) (d : Deferred) : Core :=
  let a := k.actor slot
  let older : Option Deferred → Option Deferred := fun o =>
    match o with
    | none => some d
    | some e => if d.age < e.age then some d else some e
  match a.state with
  | .firing => k.onThread (Fin.ofNat 4 a.tsetf) fun t => { t with deferred := older t.deferred }
  | .free | .dying => k
  | .preempted =>
    match older a.heldFault with
    | none => k
    | some e =>
      let b := saveBase a.save
      ((k.writeWord (b + 0x5D0) (e.cause ||| (1#64 <<< 63))).writeWord (b + 0x5D8) e.pc).onActor slot fun a => { a with heldFault := some e }
  | .loading | .idle | .gated => k.onActor slot fun a => { a with heldFault := older a.heldFault }

/-! ## Regions and local memory (R84 to R90) -/

/-- Region kinds (R84). -/
def kData : Nat := 0
/-- Code. -/
def kCode : Nat := 1
/-- Mailbox. -/
def kMailbox : Nat := 2
/-- Operand ring. -/
def kRing : Nat := 3
/-- Completion ring. -/
def kCring : Nat := 4
/-- Save area. -/
def kSave : Nat := 5
/-- Stream buffer. -/
def kStream : Nat := 6

/-- A region-table entry; entries 248 to 255 describe the save areas (R84). -/
def Core.region (k : Core) (i : Nat) : RegEntry :=
  if 248 ≤ i ∧ i < 256 then { valid := true, base := 368 + 2 * (i - 248), size := 2, kind := kSave } else k.regions.get {} i
/-- Changes a region-table entry. -/
def Core.onRegion (k : Core) (i : Nat) (f : RegEntry → RegEntry) : Core :=
  { k with regions := k.regions.put i (f (k.regions.get {} i)) }
/-- Whether the code region of a slot holds a whole word at a program counter (R259). -/
def Core.inCode (k : Core) (slot : Nat) (pc : W64) : Bool :=
  let e := k.region (k.actor slot).code
  decide (e.base * 1024 ≤ pc.toNat) && decide (pc.toNat + 4 ≤ (e.base + e.size) * 1024)

/-- Whether a thread set stands at a trap that is taken before a pre-emption at the same boundary (R73): a deferred fault, the end of the code
region, or a BREAK (R317). -/
def Core.trapsHere (k : Core) (i : Fin 4) : Bool :=
  let t := k.thread i
  t.deferred.isSome || !k.inCode t.slot t.pc || (k.badRun t.pc.toNat 4).isNone && decide ((k.wordAt t.pc).toNat / 65536 = 0xD800)

/-- Makes a region-table entry invalid. -/
def Core.dropRegion (k : Core) (i : Nat) : Core := { k with regions := k.regions.del i }

/-- Whether an entry covers a local address. -/
def RegEntry.covers (e : RegEntry) (a : Nat) : Bool := decide (e.base * 1024 ≤ a) && decide (a < (e.base + e.size) * 1024)
/-- Whether an entry is a live region of a slot. -/
def RegEntry.liveOf (e : RegEntry) (slot : Nat) : Bool := e.valid && !e.tomb && e.owner == slot

/-- The live region of a slot that covers a local address, with its index. -/
def Core.findRegion (k : Core) (slot a : Nat) : Option (Nat × RegEntry) :=
  k.regions.find? fun p => p.2.liveOf slot && p.2.covers a
/-- The tombstone of a slot that covers a local address (R86). -/
def Core.findTomb (k : Core) (slot a : Nat) : Option (Nat × RegEntry) :=
  k.regions.find? fun p => p.2.valid && p.2.tomb && p.2.owner == slot && p.2.covers a

/-- Whether the owner of a region of a kind may ever load from it (R85). -/
def kindLoads (kind : Nat) : Bool := kind == kData || kind == kCode || kind == kRing || kind == kCring
/-- Whether the owner of a region of a kind may ever store to it (R85). -/
def kindStores (kind : Nat) : Bool := kind == kData || kind == kRing

/-- The check of a load or store of `n` bytes at local address `a` by the actor in a slot (R86): the region, or the sub-cause and
DETAIL of REGION_DENY. -/
def Core.checkLocal (k : Core) (slot a n : Nat) (store : Bool) : Except (Nat × Nat) RegEntry :=
  if 0x5C000 ≤ a ∧ a ≤ 0x5FFFF then .error (0x04, 248 + (a - 0x5C000) / 0x800)
  else
    match k.findRegion slot a with
    | none =>
      match k.findTomb slot a with
      | some (i, _) => .error (0x02, i)
      | none => .error (0x01, 0xFFFFFFFF)
    | some (i, e) =>
      if a + n > (e.base + e.size) * 1024 then .error (0x05, i)
      else if !(if store then kindStores e.kind else kindLoads e.kind) then .error (0x04, i)
      else if !(if store then e.wr else e.rd) then .error (0x03, i)
      else .ok e

/-- The local byte address that holds byte `a` of a region (R89): skew mode moves bank words within their row. -/
def RegEntry.place (e : RegEntry) (a : Nat) : Nat :=
  if e.skew then
    let o := a - e.base * 1024
    let q := o / 8
    let p := 32 * e.pitch
    let r := q / p
    let w := q % p
    (e.base * 128 + r * p + 32 * (w / 32) + (w + r) % 32) * 8 + o % 8
  else a

/-- `n` bytes of a region from a local address. -/
def Core.readIn (k : Core) (e : RegEntry) (a n : Nat) : List Byte := k.mem.readMap e.place a n

/-- The bank words (by address div 8) that `n` bytes of a region occupy. -/
def RegEntry.bankWords (e : RegEntry) (a n : Nat) : List Nat := ((List.range n).map fun i => e.place (a + i) / 8).eraseDups

/-- The first bank word with an uncorrectable error among those that an access reads (R83). -/
def Core.badWord (k : Core) (e : RegEntry) (a n : Nat) : Option Nat := (e.bankWords a n).find? fun w => k.bad.contains w

/-- Whether an access touches a granule that a Cairn take has marked (R410). -/
def Core.cowHit (k : Core) (e : RegEntry) (a n : Nat) : Bool :=
  !k.cow.isEmpty && (e.bankWords a n).any fun w => k.cow.contains (w / 128)

/-- Stores bytes into a region. A bank word written whole takes fresh ECC; one written in part and holding an uncorrectable error
is not written, and its address is reported (R83). -/
def Core.writeIn (k : Core) (e : RegEntry) (a : Nat) (bs : List Byte) : Core × Option Nat :=
  if k.bad.isEmpty then ({ k with mem := k.mem.writeMap e.place a bs }, none)
  else
    let whole := fun (w : Nat) => ((List.range bs.length).filter fun i => e.place (a + i) / 8 == w).length == 8
    let hurt := (e.bankWords a bs.length).filter fun w => k.bad.contains w && !whole w
    let mem := ((List.range bs.length).zip bs).foldl (fun (m : Memory) p =>
      let q := e.place (a + p.1)
      if hurt.contains (q / 8) then m else m.write q p.2) k.mem
    ({ k with mem := mem, bad := k.bad.filter fun w => !((e.bankWords a bs.length).contains w && whole w) },
      hurt.head?.map (· * 8))

/-- Zeroes a run of granules and takes their errors away (R88). -/
def Core.scrub (k : Core) (base size : Nat) : Core :=
  { k with
    mem := k.mem.filter fun c => !(decide (base * 1024 ≤ c.1) && decide (c.1 < (base + size) * 1024))
    bad := k.bad.filter fun w => !(decide (base * 128 ≤ w) && decide (w < (base + size) * 128))
    cow := k.cow.filter fun g => !(decide (base ≤ g) && decide (g < base + size)) }

/-- Whether an entry holds a granule: live regions do, and tombstones whose granules are still held for an engine (R152). -/
def RegEntry.holds (e : RegEntry) (g : Nat) : Bool :=
  e.valid && (!e.tomb || e.pend) && decide (e.base ≤ g) && decide (g < e.base + e.size)

/-- Whether a granule is in the free pool. -/
def Core.granuleFree (k : Core) (g : Nat) : Bool := decide (g < 368) && !k.regions.any fun p => p.2.holds g

/-- Whether a run of granules is free. -/
def Core.runFree (k : Core) (base size : Nat) : Bool := (List.range size).all fun i => k.granuleFree (base + i)

/-- The lowest base at which a run of free granules fits (R303). -/
def Core.findRun (k : Core) (size : Nat) : Option Nat :=
  (List.range (369 - size)).find? fun b => k.runFree b size

/-- The region-table entry that an allocation takes: the lowest invalid one, else the oldest tombstone whose granules are no
longer held (R87). -/
def Core.freeEntry (k : Core) : Option Nat :=
  match (List.range 248).find? fun i => !(k.regions.get {} i).valid with
  | some i => some i
  | none =>
    (k.regions.filter fun p => p.2.tomb && !p.2.pend).foldl (fun best p =>
      match best with
      | none => some p.1
      | some b => if p.2.age < (k.regions.get {} b).age then some p.1 else some b) none

end Sys2Proof.Machine
end

