-- ==== Sys2Proof/Machine/Flags.lean ====
section
/-! DEFINITION. The sticky flags of a firing (R70, R214, R226) and the rounding mode in force (R213, R232). -/

namespace Sys2Proof.Machine

/-- Sets FPCTL flags; a flag is sticky (R226). -/
def Thread.addFlags (t : Thread) (f : FFlags) : Thread := { t with fpctl := t.fpctl ||| f.word }

/-- Sets QNTFLAGS flags; a flag is sticky (R226). -/
def Thread.addQnt (t : Thread) (f : QFlags) : Thread := { t with qnt := t.qnt ||| f.word }

/-- FPCTL.RM (R70). -/
def Thread.rm (t : Thread) : Nat := (t.fpctl &&& 7).toNat

/-- The rounding mode that an RMD field selects: 7 is FPCTL.RM, 0 to 4 themselves (R232). -/
def Thread.rounding (t : Thread) (rmd : BitVec 3) : Nat := if rmd = 7 then t.rm else rmd.toNat

end Sys2Proof.Machine
end

