-- ==== Sys2Proof/Machine/Operands.lean ====
section
/-! DEFINITION. The operand forms: scalar results (R244), floating-point formats (R251), vector lanes, masks and the policies of
tail and masked-off lanes (R57, R58, R262, R263). -/

namespace Sys2Proof.Machine

/-! ## Scalar results -/

/-- A result of two registers: both sources and the destination are present at issue (R61, R244). -/
def alu2 (d a b : Reg) (f : W64 → W64 → W64) (s : State) : Answer :=
  s.withX [a, b, d] fun t => s.finish (·.writeX d (f (t.readX a) (t.readX b)))

/-- A result of one register. -/
def alu1 (d a : Reg) (f : W64 → W64) (s : State) : Answer :=
  s.withX [a, d] fun t => s.finish (·.writeX d (f (t.readX a)))

/-- A result that also reads its destination: sources A, B and D. -/
def alu3 (d a b : Reg) (f : W64 → W64 → W64 → W64) (s : State) : Answer :=
  s.withX [a, b, d] fun t => s.finish (·.writeX d (f (t.readX a) (t.readX b) (t.readX d)))

/-- The format that a scalar FMT field names: 0 FP32, 1 FP64 (R232). -/
def scalarFmt (fmt : BitVec 2) : FFmt := if fmt = 0 then .fp32 else .fp64

/-- The low bits of a register that a format fills; the others are ignored (R251). -/
def FFmt.operand (f : FFmt) (v : W64) : Nat := v.toNat % 2 ^ f.width

/-! ## Vector lanes -/

/-- Lane `i` at width `w` (R57). -/
def lane (w : Nat) (v : V256) (i : Nat) : Nat := (v.toNat >>> (w * i)) % 2 ^ w

/-- The number that lanes of width `w` stand for, lane 0 least significant. -/
def packNat (w : Nat) : List Nat → Nat
  | [] => 0
  | l :: ls => l % 2 ^ w + 2 ^ w * packNat w ls

/-- A register from its lanes. -/
def pack (w : Nat) (ls : List Nat) : V256 := BitVec.ofNat 256 (packNat w ls)

/-- A pattern read as a signed value of `w` bits. -/
def signed (w v : Nat) : Int := if v % 2 ^ w < 2 ^ (w - 1) then (v % 2 ^ w : Nat) else (v % 2 ^ w : Nat) - (2 ^ w : Int)

/-- The element width of a width code (R235). -/
def laneWidth (w : BitVec 2) : Nat := 8 * 2 ^ w.toNat

/-- The element format of a width code of VFP (R235). -/
def laneFmt (w : BitVec 2) : FFmt :=
  match w.toNat with
  | 0 => .bf16
  | 1 => .fp16
  | 2 => .fp32
  | _ => .fp64

/-- The mask register that an MSEL code names, if any (R58). -/
def maskReg (msel : BitVec 3) : Option Reg :=
  match msel.toNat with
  | 1 | 5 => some 0
  | 2 | 6 => some 1
  | 3 => some 2
  | 4 => some 3
  | _ => none

/-- The mask of a firing for an MSEL code (R58): codes 5 and 6 name complements. -/
def Thread.maskBit (t : Thread) (msel : BitVec 3) (i : Nat) : Bool :=
  match maskReg msel with
  | none => true
  | some r => (t.readV r).getLsbD i != decide (msel.toNat ≥ 5)

/-- The bound min(VLEN, L) (R262). -/
def Thread.bound (t : Thread) (l : Nat) : Nat := Min.min t.vlen.toNat l

/-- Whether lane `i` of `l` is active (R58). -/
def Thread.active (t : Thread) (msel : BitVec 3) (l i : Nat) : Bool := decide (i < t.bound l) && t.maskBit msel i

/-- A vector result lane by lane (R263): tail lanes by TP, masked-off lanes by MP, active lanes from the operation. -/
def Thread.lanes (t : Thread) (msel : BitVec 3) (tp mp : BitVec 1) (w : Nat) (old : V256) (op : Nat → Nat) : V256 :=
  pack w ((List.range (256 / w)).map fun i =>
    if i ≥ t.bound (256 / w) then (if tp = 1 then 0 else lane w old i)
    else if t.maskBit msel i then op i
    else if mp = 1 then 0 else lane w old i)

/-- The active lanes of a register. -/
def Thread.activeLanes (t : Thread) (msel : BitVec 3) (w : Nat) : List Nat :=
  (List.range (256 / w)).filter fun i => t.active msel (256 / w) i

/-- A mask result (R267): positions below L by lane, the others tail positions. -/
def Thread.maskResult (t : Thread) (msel : BitVec 3) (tp mp : BitVec 1) (l : Nat) (old : V256) (op : Nat → Bool) : V256 :=
  BitVec.ofNat 256 (packNat 1 ((List.range 256).map fun i =>
    let keep := if old.getLsbD i then 1 else 0
    if i ≥ l ∨ i ≥ t.bound l then (if tp = 1 then 0 else keep)
    else if t.maskBit msel i then (if op i then 1 else 0)
    else if mp = 1 then 0 else keep))

/-- A result in lane 0 with every other lane a tail lane (R268). -/
def laneZero (w : Nat) (tp : BitVec 1) (old : V256) (v : Nat) : V256 :=
  pack w ((List.range (256 / w)).map fun i => if i = 0 then v else if tp = 1 then 0 else lane w old i)

/-- Runs the rest of a vector instruction once its vector and scalar registers and its mask are present (R61, R262). -/
def State.withV (s : State) (vs xs : List Reg) (msel : BitVec 3) (k : Thread → Answer) : Answer :=
  if s.th.hereVs (vs ++ (maskReg msel).toList) && s.th.hereXs xs then k s.th else s.stallReg xs (vs ++ (maskReg msel).toList)

/-- Registers `r` to `r + n − 1`. -/
def regGroup (r : Reg) (n : Nat) : List Reg := (List.range n).map fun i => r + BitVec.ofNat 5 i

/-- A lane-by-lane result of two vector registers. -/
def vec2 (d a b : Reg) (msel : BitVec 3) (tp mp : BitVec 1) (w : Nat) (f : Nat → Nat → Nat) (s : State) : Answer :=
  s.withV [a, b, d] [] msel fun t =>
    s.finish (·.writeV d (t.lanes msel tp mp w (t.readV d) fun i => f (lane w (t.readV a) i) (lane w (t.readV b) i)))

end Sys2Proof.Machine
end

