-- ==== Sys2Proof/Machine/Deliver.lean ====
section
/-! DEFINITION. Values and faults that come back for accesses in flight (R61 to R63, R76, R200, R282). -/

namespace Sys2Proof.Machine

/-! ## Values -/

/-- The firing that a value in flight belongs to, on a core: the thread set that runs it, or the save area of a pre-empted one. -/
def Core.threadOf (k : Core) (fid : Nat) : Option (Fin 4) :=
  [0, 1, 2, 3].find? fun i => (k.thread i).busy && (k.thread i).fid == fid

/-- A bit of a saved presence word set (R76): the word is read, with any error that it holds, and written whole. -/
def Core.setSaved (k : Core) (slot a i : Nat) : Core := (k.noteBad slot a 8).writeWord a (k.readWord a ||| (1#64 <<< i))

/-- A scalar value arrives (R61, R62, R77): at the running firing, in its save area, with a successor that inherits the register,
or nowhere. -/
def Core.arriveX (k : Core) (slot fid : Nat) (r : Reg) (v : W64) : Core :=
  match k.threadOf fid with
  | some i => k.onThread i (·.writeX r v)
  | none =>
    let a := k.actor slot
    if r = 0 then k
    else if a.state = .preempted ∧ a.fid = fid then
      let b := saveBase a.save
      (k.writeWord (b + 8 * r.toNat) v).setSaved slot (b + 0x500) r.toNat
    else
      match a.inherit with
      | some h =>
        if h.fid = fid ∧ h.xkeep.getLsbD r.toNat then
          k.onActor slot fun a => { a with inherit := some { h with x := h.x.set r.toNat v r.isLt, xp := h.xp ||| (1#32 <<< r.toNat) } }
        else k
      | none => k

/-- A vector value arrives, as `arriveX` for a scalar one. -/
def Core.arriveV (k : Core) (slot fid : Nat) (r : Reg) (v : V256) : Core :=
  match k.threadOf fid with
  | some i => k.onThread i (·.writeV r v)
  | none =>
    let a := k.actor slot
    if a.state = .preempted ∧ a.fid = fid then
      let b := saveBase a.save
      (k.writeWords (b + 0x100 + 32 * r.toNat) (toBytes 32 v.toNat)).setSaved slot (b + 0x508) r.toNat
    else
      match a.inherit with
      | some h =>
        if h.fid = fid ∧ h.vkeep.getLsbD r.toNat then
          k.onActor slot fun a => { a with inherit := some { h with v := h.v.set r.toNat v r.isLt, vp := h.vp ||| (1#32 <<< r.toNat) } }
        else k
      | none => k

/-- Four doublewords as a vector register, the first in the low lane. -/
def vecOf (l : List W64) : V256 := pack 64 (l.map BitVec.toNat)

/-- What an access's answer writes to its destination: a register, or the bytes of a vector load chosen at issue (R263, R289):
`ops` then hold the bits taken and the other bits. -/
def Access.result (a : Access) (vals : List W64) : V256 :=
  match a.op with
  | .vadd => vecOf (vals.take 4)
  | _ => (vecOf vals &&& vecOf (a.ops.take 4)) ||| vecOf ((a.ops.drop 4).take 4)

/-- Values for the first and second destination registers of an access arrive, but for registers that a succession did not inherit. -/
def Core.arriveRegs (k : Core) (a : Access) (x : W64) (v1 v2 : V256) : Core :=
  if a.orphan then k
  else if a.destV then
    let k1 := if a.drop1 then k else k.arriveV a.slot a.fid (BitVec.ofNat 5 a.dest) v1
    if a.op = .vadd ∧ !a.drop2 then k1.arriveV a.slot a.fid (BitVec.ofNat 5 (a.dest + 1)) v2 else k1
  else if a.drop1 then k else k.arriveX a.slot a.fid (BitVec.ofNat 5 a.dest) x

/-- The values of an answer reach the destination, if the access has one. -/
def Core.arrive (k : Core) (a : Access) (vals : List W64) : Core :=
  k.arriveRegs a (vals.headD 0) (a.result vals) (vecOf (vals.drop 4))

/-- Zero of the destination's width arrives (R63). -/
def Core.arriveZero (k : Core) (a : Access) : Core := k.arriveRegs a 0 0 0

/-! ## The end of an access -/

/-- Whether an access counts in CL (R198); the others count in CS. -/
def AccOp.countsLoad : AccOp → Bool
  | .load | .loadGe | .loadEq | .loadAcq | .ver | .vload | .dld _ => true
  | .storeB | .storeH | .storeW | .storeD | .storeNl | .storeNh | .storeRel | .atom _ | .defer | .recl | .reclRange | .arm
  | .disarm | .vadd | .dst _ => false

/-- The access leaves the core's tables, and the counter that counts it falls (R198, R200): once for all the parts of a CRECL.R. -/
def Core.endAccess (k : Core) (a : Access) : Core :=
  let rest := k.accs.filter fun b => b.id != a.id
  let k1 := { k with accs := rest }
  if a.orphan || a.uncounted || (a.group != 0 && rest.any fun b => b.group == a.group) then k1
  else k1.onCounters a.slot fun n => if a.op.countsLoad then { n with cl := n.cl - 1 } else { n with cs := n.cs - 1 }

/-- CAUSE of a deferred fault on a global address (R63, R70). -/
def deferredCause (reason sub : Nat) (detail : W64) : W64 :=
  BitVec.ofNat 64 (2 ^ 63 + 2 ^ 62 + reason * 2 ^ 40 + sub * 2 ^ 32 + detail.toNat % 2 ^ 32)

/-- An access ends with a fault found after issue (R63): zero arrives and the fault is deferred. -/
def Core.faultAccess (k : Core) (a : Access) (reason sub : Nat) (detail : W64) : Core :=
  let k1 := (k.arriveZero a).endAccess a
  if a.orphan then k1
  else k1.deferFault a.slot
    { cause := deferredCause reason sub detail, va := BitVec.ofNat 64 a.ga, pc := a.pc, age := a.order }

/-- DETAIL of FRAME_LOST (R148): GA bits 53:16. -/
def lostDetail (ga : Nat) : W64 := BitVec.ofNat 64 (ga / 65536 % 2 ^ 38)

/-- The actor of an access that is refused LOST dies with FRAME_LOST (R148). -/
def Core.lostAccess (k : Core) (a : Access) : Core :=
  let k1 := k.endAccess a
  if a.orphan then k1 else k1.die a.slot rFrameLost 0 (lostDetail a.ga)

/-- The core acts on an answer that ends an access (R282). -/
def Core.actOn (k : Core) (a : Access) (v : AccAnswer) : Core :=
  match v with
  | .value vals _ => (k.arrive a vals).endAccess a
  | .dataError srcmem addr =>
    let k1 := (k.arriveZero a).endAccess a
    if a.orphan then k1 else k1.recordErr a.slot srcmem addr
  | .fault reason sub detail => k.faultAccess a reason sub detail
  | .lost => k.lostAccess a
  | .busy | .lodged | .ticket .. => k

end Sys2Proof.Machine
end

