-- ==== Sys2Proof/Machine/LocalMem.lean ====
section
/-! DEFINITION. Local loads and stores (R278, R279) and local vector loads and stores (R271 to R273). -/

namespace Sys2Proof.Machine

/-! ## What every access shares -/

/-- Whether an acquire of a firing is outstanding (R115, R283): until its value has arrived no younger access is performed. -/
def Core.acquiring (k : Core) (fid : Nat) : Bool := k.accs.any fun a => a.fid == fid && decide (a.op = .loadAcq)

/-- Runs an access unless an older acquire holds it. -/
def State.access (s : State) (k : Answer) : Answer := if s.me.acquiring s.th.fid then s.stall else k

/-- A local address (R86): the low 20 bits of a sum, also of one above 0xF_FFFF (log 89). -/
def localAddr (base : W64) (off : Int) : Nat := ((base.toNat + off) % 2 ^ 20).toNat

/-- The local address of a bank word by its number (R83). -/
def bankAddr (w : Nat) : W64 := BitVec.ofNat 64 (w * 8)

/-! ## Scalar loads and stores -/

/-- A local load of `n` bytes (R279): aligned, permitted by R86, and extended as `ext` says. A bank word with an uncorrectable
error writes zero and records SRCMEM 0. -/
def loadLocal (d a : Reg) (o : BitVec 16) (n : Nat) (ext : Nat → W64) (s : State) : Answer :=
  s.withX [a, d] fun t => s.access <|
    let va := localAddr (t.readX a) o.toInt
    if va % n ≠ 0 then s.trap rMisalign 0 n (BitVec.ofNat 64 va)
    else
      match s.me.checkLocal t.slot va n false with
      | .error e => s.trap rRegionDeny e.1 e.2 (BitVec.ofNat 64 va)
      | .ok e =>
        match s.me.badWord e va n with
        | none => s.finish (·.writeX d (ext (ofBytes (s.me.readIn e va n))))
        | some w => (s.onMe fun k => k.recordErr t.slot 0 (bankAddr w)).finish (·.writeX d 0)

/-- The bytes that a local store writes take their place (R83): an error found by a read-modify-write is recorded. -/
def State.storeIn (s : State) (e : RegEntry) (va : Nat) (bs : List Byte) : State :=
  let r := s.me.writeIn e va bs
  match r.2 with
  | none => s.onMe fun _ => r.1
  | some w => s.onMe fun _ => r.1.recordErr s.th.slot 0 (BitVec.ofNat 64 w)

/-- A local store of `n` bytes made from the data register and the byte at the address (R279). A granule marked by a Cairn take
is copied first (R410). -/
def storeLocal (t a : Reg) (off : Int) (n : Nat) (data : W64 → Nat → Nat) (s : State) : Answer :=
  s.withX [a, t] fun u => s.access <|
    let va := localAddr (u.readX a) off
    if va % n ≠ 0 then s.trap rMisalign 0 n (BitVec.ofNat 64 va)
    else
      match s.me.checkLocal u.slot va n true with
      | .error e => s.trap rRegionDeny e.1 e.2 (BitVec.ofNat 64 va)
      | .ok e =>
        if s.me.cowHit e va n then s.stall
        else (s.storeIn e va (toBytes n (data (u.readX t) (ofBytes (s.me.readIn e va 1))))).finish id

/-- LB (R279): Loads a sign-extended byte from core memory. -/
def execLb (d a : Reg) (o : BitVec 16) (s : State) : Answer := loadLocal d a o 1 (sext64 8) s

/-- LBU (R279): Loads a zero-extended byte. -/
def execLbu (d a : Reg) (o : BitVec 16) (s : State) : Answer := loadLocal d a o 1 (BitVec.ofNat 64) s

/-- LH (R279): Loads a sign-extended halfword. -/
def execLh (d a : Reg) (o : BitVec 16) (s : State) : Answer := loadLocal d a o 2 (sext64 16) s

/-- LHU (R279): Loads a zero-extended halfword. -/
def execLhu (d a : Reg) (o : BitVec 16) (s : State) : Answer := loadLocal d a o 2 (BitVec.ofNat 64) s

/-- LW (R279): Loads a sign-extended word. -/
def execLw (d a : Reg) (o : BitVec 16) (s : State) : Answer := loadLocal d a o 4 (sext64 32) s

/-- LWU (R279): Loads a zero-extended word. -/
def execLwu (d a : Reg) (o : BitVec 16) (s : State) : Answer := loadLocal d a o 4 (BitVec.ofNat 64) s

/-- LD (R279): Loads a doubleword. -/
def execLd (d a : Reg) (o : BitVec 16) (s : State) : Answer := loadLocal d a o 8 (BitVec.ofNat 64) s

/-- SB (R279): Stores byte 0 of x[T] to core memory. -/
def execSb (t a : Reg) (o : BitVec 16) (s : State) : Answer := storeLocal t a o.toInt 1 (fun v _ => v.toNat) s

/-- SH (R279): Stores halfword 0 of x[T]. -/
def execSh (t a : Reg) (o : BitVec 16) (s : State) : Answer := storeLocal t a o.toInt 2 (fun v _ => v.toNat) s

/-- SW (R279): Stores word 0 of x[T]. -/
def execSw (t a : Reg) (o : BitVec 16) (s : State) : Answer := storeLocal t a o.toInt 4 (fun v _ => v.toNat) s

/-- SD (R279): Stores x[T] as a doubleword. -/
def execSd (t a : Reg) (o : BitVec 16) (s : State) : Answer := storeLocal t a o.toInt 8 (fun v _ => v.toNat) s

/-- A byte with nibble `h` replaced by the low nibble of a value (R279). -/
def setNibble (h : BitVec 1) (v old : Nat) : Nat :=
  if h = 1 then v % 16 * 16 + old % 16 else old / 16 * 16 + v % 16

/-- SN (R279): Stores x[T] bits 3:0 into the chosen nibble of a byte. -/
def execSn (t a : Reg) (o : BitVec 15) (h : BitVec 1) (s : State) : Answer :=
  storeLocal t a o.toInt 1 (fun v old => setNibble h v.toNat old) s

/-! ## Vector loads and stores -/

/-- The first check of R272 that an active lane fails. `lanes` are the addresses of the active lanes, of `b` bytes each; VLD and VST
check the alignment of their base instead of each lane's (`base`). -/
def Core.vecCheck (k : Core) (slot b : Nat) (base : Option Nat) (lanes : List Nat) (store : Bool) :
    Option (Nat × Nat × Nat × Nat) :=
  let align : Option (Nat × Nat × Nat × Nat) :=
    match base with
    | some x => if x % 8 ≠ 0 then some (rMisalign, 0, 32, x) else none
    | none => (lanes.find? fun x => x % b ≠ 0).map fun x => (rMisalign, 0, b, x)
  match align with
  | some e => some e
  | none => lanes.findSome? fun x =>
    match k.checkLocal slot x b store with
    | .error e => some (rRegionDeny, e.1, e.2, x)
    | .ok _ => none

/-- The region of a lane that has passed its check. -/
def Core.laneRegion (k : Core) (slot a : Nat) : RegEntry :=
  match k.findRegion slot a with
  | some r => r.2
  | none => {}

/-- The lowest of some bank words. -/
def lowestWord : List Nat → Option Nat
  | [] => none
  | w :: ws => some (ws.foldl Min.min w)

/-- A local vector load (R271 to R273) of lanes of width `w` at the addresses that `addr` gives. -/
def loadVec (d : Reg) (vs xs : List Reg) (q : BitVec 3) (tp mp : BitVec 1) (w : Nat) (base : Thread → Option Nat)
    (addr : Thread → Nat → Nat) (s : State) : Answer :=
  s.withV (d :: vs) xs q fun t => s.access <|
    let b := w / 8
    let act := t.activeLanes q w
    match (if act.isEmpty then none else s.me.vecCheck t.slot b (base t) (act.map (addr t)) false) with
    | some (r, sub, det, va) => s.trap r sub det (BitVec.ofNat 64 va)
    | none =>
      let k := s.me
      let bad := fun i => k.badWord (k.laneRegion t.slot (addr t i)) (addr t i) b
      let s1 := match lowestWord (act.filterMap bad) with
        | none => s
        | some x => s.onMe fun k => k.recordErr t.slot 0 (bankAddr x)
      s1.finish fun u => u.writeV d (t.lanes q tp mp w (t.readV d) fun i =>
        if (bad i).isSome then 0 else ofBytes (k.readIn (k.laneRegion t.slot (addr t i)) (addr t i) b))

/-- A local vector store (R271 to R273): the active lanes in ascending order. -/
def storeVec (d : Reg) (vs xs : List Reg) (q : BitVec 3) (w : Nat) (base : Thread → Option Nat) (addr : Thread → Nat → Nat)
    (s : State) : Answer :=
  s.withV (d :: vs) xs q fun t => s.access <|
    let b := w / 8
    let act := t.activeLanes q w
    match (if act.isEmpty then none else s.me.vecCheck t.slot b (base t) (act.map (addr t)) true) with
    | some (r, sub, det, va) => s.trap r sub det (BitVec.ofNat 64 va)
    | none =>
      if act.any fun i => s.me.cowHit (s.me.laneRegion t.slot (addr t i)) (addr t i) b then s.stall
      else
        (act.foldl (fun u i => u.storeIn (u.me.laneRegion t.slot (addr t i)) (addr t i) (toBytes b (lane w (t.readV d) i)))
          s).finish id

/-- The base of a vector access (R271). -/
def vecBase (a : Reg) (t : Thread) : Nat := localAddr (t.readX a) 0

/-- The address of a lane at unit stride. -/
def unitAddr (a : Reg) (w : Nat) (t : Thread) (i : Nat) : Nat := localAddr (t.readX a) (i * (w / 8))

/-- The address of a lane at a signed byte stride. -/
def strideAddr (a b : Reg) (t : Thread) (i : Nat) : Nat := localAddr (t.readX a) (i * (t.readX b).toInt)

/-- The address of a lane by an index register. -/
def indexAddr (a b : Reg) (w : Nat) (t : Thread) (i : Nat) : Nat := localAddr (t.readX a) (lane w (t.readV b) i * (w / 8))

/-- VLD (R271): Contiguous local vector load. -/
def execVld (d a : Reg) (q : BitVec 3) (t m : BitVec 1) (w : BitVec 2) (s : State) : Answer :=
  loadVec d [] [a] q t m (laneWidth w) (fun u => some (vecBase a u)) (unitAddr a (laneWidth w)) s

/-- VST (R271): Contiguous local vector store of active lanes. -/
def execVst (d a : Reg) (q : BitVec 3) (w : BitVec 2) (s : State) : Answer :=
  storeVec d [] [a] q (laneWidth w) (fun u => some (vecBase a u)) (unitAddr a (laneWidth w)) s

/-- VLDS (R271): Strided local vector load. -/
def execVlds (d a b : Reg) (q : BitVec 3) (t m : BitVec 1) (w : BitVec 2) (s : State) : Answer :=
  loadVec d [] [a, b] q t m (laneWidth w) (fun _ => none) (strideAddr a b) s

/-- VSTS (R271): Strided local vector store. -/
def execVsts (d a b : Reg) (q : BitVec 3) (w : BitVec 2) (s : State) : Answer :=
  storeVec d [] [a, b] q (laneWidth w) (fun _ => none) (strideAddr a b) s

/-- VLDG (R271): Indexed local vector gather load. -/
def execVldg (d a b : Reg) (q : BitVec 3) (t m : BitVec 1) (w : BitVec 2) (s : State) : Answer :=
  loadVec d [b] [a] q t m (laneWidth w) (fun _ => none) (indexAddr a b (laneWidth w)) s

/-- VSTG (R271): Indexed local vector scatter store. -/
def execVstg (d a b : Reg) (q : BitVec 3) (w : BitVec 2) (s : State) : Answer :=
  storeVec d [b] [a] q (laneWidth w) (fun _ => none) (indexAddr a b (laneWidth w)) s

end Sys2Proof.Machine
end

