-- ==== Sys2Proof/Machine/Plb.lean ====
section
/-! DEFINITION. Hint records and the directory (R130 to R133), the protection lookaside buffers (R134 to R136) and the choice of an
owner (R135, R146). -/

namespace Sys2Proof.Machine

/-! ## Owners -/

/-- Whether an owner exists (R3, R4). -/
def State.ownerExists (s : State) (o : Nat) : Bool :=
  if ownerIsBank o then (s.pkgs.find (ownerPkg o)).isSome else decide (ownerIdx o < 56) && s.coreExists (ownerCore o)

/-- Whether an owner is there to hold pages (R3, R386). -/
def State.ownerLive (s : State) (o : Nat) : Bool :=
  !(s.owner o).gone && !(s.pkg (ownerPkg o)).halted && !(s.pkg (ownerPkg o)).lost && s.ownerExists o

/-- The home that a record names (R130); none while TIER is 3. -/
def Hint.home (h : Hint) : Option Nat :=
  if h.tier = 3 then none else some (h.homepkg * 512 + h.homedie * 128 + (if h.tier = 2 then 64 else 0) + h.homeidx)

/-- The packages of a record's keep-mapped list (R130). -/
def Hint.kept (h : Hint) : List Nat := h.keep.toList.take h.nkeep

/-- Whether a record permits no access at all (R132). -/
def Hint.broken (h : Hint) : Bool := decide (h.policy ≥ 4) || (h.policy == 3 && !h.kept.contains h.homepkg)

/-- Whether a page of a range is duplicated (R135, R146). -/
def Hint.duplicated (h : Hint) (page : Nat) : Bool := h.policy == 3 && !(h.split && h.spmap.getLsbD (page % 32))

/-- The owner on a package that has another owner's die, kind and index (R146). -/
def replicaOwner (home pkg : Nat) : Nat := pkg * 512 + home % 512

/-- The owners that hold a duplicated page, the home among them (R146). -/
def Hint.replicas (h : Hint) : List Nat :=
  match h.home with
  | none => []
  | some o => h.kept.map (replicaOwner o)

/-- The hint record of a page. -/
def State.hintOf (s : State) (page : Nat) : Option Hint := s.hints.find (hintKeyOfPage page)

/-! ## First touch (R132) -/

/-- The owner that a first touch by a requester on core `c` names. -/
def firstOwner (c cls : Nat) : Nat :=
  if cls = 1 then bankOwner (engineOf c)
  else if coreIsMem c then memOwner c
  else corePkg c * 512 + coreDie c * 128 + coreCluster c / 2

/-- The owners of one kind and tier on a die, in ascending OIDX from a given one and wrapping (R132). -/
def ownerRing (o : Nat) : List Nat :=
  let base := o - ownerIdx o
  let lo := if ownerIsBank o then 0 else if ownerIdx o ≥ 32 then 32 else 0
  let n := if ownerIsBank o then 64 else if ownerIdx o ≥ 32 then 24 else 32
  (List.range n).map fun i => base + lo + (ownerIdx o - lo + i) % n

/-- TIER of an owner as a record gives it (R130). -/
def tierOf (o : Nat) : Nat := if ownerIsBank o then 2 else if ownerIdx o ≥ 32 then 1 else 0

/-- A record with its home at an owner, GEN one higher. -/
def Hint.withHome (h : Hint) (o : Nat) : Hint :=
  { h with homepkg := ownerPkg o, homedie := ownerDie o, tier := tierOf o, homeidx := ownerIdx o, gen := h.gen + 1 }

/-- First touch: a FIRST range without a home takes the first live owner (R132). -/
def State.firstTouch (s : State) (c cls range : Nat) : State :=
  match s.hints.find (hintKey cls range) with
  | none => s
  | some h =>
    if h.policy = 1 ∧ h.tier = 3 ∧ cls < 2 then
      match (ownerRing (firstOwner c cls)).find? s.ownerLive with
      | none => s
      | some o => { s with hints := s.hints.put (hintKey cls range) (h.withHome o) }
    else s

/-! ## The PLB -/

/-- Rights of a domain in a record (R130): domain 0 holds every right, but nobody writes class 2. Bits 2, 1, 0 are read, write and
execute. -/
def Hint.rights (h : Hint) (cls : Nat) (dom : BitVec 16) : BitVec 3 :=
  let r := if dom = 0 then 7 else if dom = h.domain then h.orights else h.grights
  if cls = 2 then r &&& 5 else r

/-- What a refill makes of a record for a requester on a package (R134, R146). None where the record permits no access. -/
def Hint.entry (h : Hint) (pkg cls range : Nat) (dom : BitVec 16) : Option PlbEntry :=
  if h.broken then none
  else
    match h.home with
    | none => none
    | some o =>
      some { domain := dom, cls := cls, range := range, rights := h.rights cls dom, policy := h.policy, home := o,
             localOwner := if h.policy = 3 ∧ h.kept.contains pkg then replicaOwner o pkg else o,
             split := h.split, spmap := h.spmap, gen := h.gen.toNat }

/-- What a refill of a class 3 range makes of the export table (R129): the home is the host port of the package, which has
no owner identity: HOME and LOCAL are 0 (log 93). -/
def exportEntry (e : Export) (range : Nat) (dom : BitVec 16) : PlbEntry :=
  { domain := dom, cls := 3, range := range,
    rights := if dom = 0 then 6 else if dom = e.domain then e.rights.zeroExtend 3 <<< 1 else 0,
    policy := 0, home := 0, localOwner := 0, split := false, spmap := 0, gen := 0 }

/-- The entry that a refill for a requester on core `c` gives, after first touch (R135). -/
def State.refilled (s : State) (c : Nat) (dom : BitVec 16) (cls range : Nat) : Option PlbEntry :=
  if cls = 3 then ((s.pkg (corePkg c)).exports.find range).map fun e => exportEntry e range dom
  else (s.hints.find (hintKey cls range)).bind fun h => h.entry (corePkg c) cls range dom

/-- Whether an entry is the one of a domain and range. -/
def PlbEntry.isFor (e : PlbEntry) (dom : BitVec 16) (cls range : Nat) : Bool :=
  e.domain == dom && e.cls == cls && e.range == range

/-- An entry put first, as the most recently used; 64 entries are kept (R134). -/
def plbUse (l : List PlbEntry) (e : PlbEntry) : List PlbEntry :=
  (e :: l.filter fun f => !f.isFor e.domain e.cls e.range).take 64

/-- The owner that an entry gives for an address (R135). -/
def PlbEntry.ownerOf (e : PlbEntry) (ga : Nat) : Nat :=
  if e.policy = 3 ∧ ¬ (e.split ∧ e.spmap.getLsbD (gaPageInRange ga)) then e.localOwner else e.home

/-- The rights check of R135: the sub-cause of PLB_DENY that an access meets. -/
def PlbEntry.denies (e : PlbEntry) (reads writes : Bool) : Option Nat :=
  if reads && !e.rights.getLsbD 2 then some 0x01
  else if writes && !e.rights.getLsbD 1 then some 0x02
  else none

/-- What choosing an owner at issue can answer (R135). -/
inductive OwnerAnswer where
  | owner (o : Nat)
  | deny (sub : Nat)
  | refill
  deriving DecidableEq, Repr

/-- Owner(GA) of R135 for the issuing core: an owner, a precise PLB_DENY, or a refill to wait for. -/
def Core.ownerAt (k : Core) (dom : BitVec 16) (ga : Nat) (reads writes : Bool) : OwnerAnswer :=
  match k.plb.find? (·.isFor dom (gaClass ga) (gaRange ga)) with
  | some e =>
    match e.denies reads writes with
    | some sub => .deny sub
    | none => .owner (e.ownerOf ga)
  | none =>
    if k.refills.any fun r => r.failed && r.domain == dom && r.cls == gaClass ga && r.range == gaRange ga then .deny 0x01
    else .refill

/-- The entry of an address becomes the most recently used one. -/
def Core.plbTouch (k : Core) (dom : BitVec 16) (ga : Nat) : Core :=
  match k.plb.find? (·.isFor dom (gaClass ga) (gaRange ga)) with
  | some e => { k with plb := plbUse k.plb e }
  | none => k

/-- Whether a refill is for an address and domain. -/
def Refill.isFor (r : Refill) (dom : BitVec 16) (ga : Nat) : Bool :=
  r.domain == dom && r.cls == gaClass ga && r.range == gaRange ga

/-- A core asks for a refill, unless it already has. -/
def Core.askRefill (k : Core) (dom : BitVec 16) (ga : Nat) : Core :=
  if k.refills.any (·.isFor dom ga) then k
  else { k with refills := { cls := gaClass ga, range := gaRange ga, domain := dom } :: k.refills }

/-- A refill that found no record has been acted on. -/
def Core.dropRefill (k : Core) (dom : BitVec 16) (ga : Nat) : Core :=
  { k with refills := k.refills.filter fun r => !r.isFor dom ga }

/-- A refill at a core for a domain and an address, at once (R139, R143): the stale entry is replaced. -/
def State.refillNow (s : State) (c : Nat) (dom : BitVec 16) (ga : Nat) : State :=
  let s1 := s.firstTouch c (gaClass ga) (gaRange ga)
  match s1.refilled c dom (gaClass ga) (gaRange ga) with
  | some e => s1.onCore c fun k => { k with plb := plbUse k.plb e }
  | none => s1.onCore c fun k => { k with plb := k.plb.filter fun f => !f.isFor dom (gaClass ga) (gaRange ga) }

/-- A record of a range has been written: refills that found none before are forgotten (R135). -/
def State.forgetRefills (s : State) (cls range : Nat) : State :=
  { s with cores := s.cores.mapVals fun _ k => { k with refills := k.refills.filter fun r => !(r.failed && r.cls == cls && r.range == range) } }

/-- The package that a slot of the directory map names (R378). -/
def State.dirPackage (s : State) (slot : Nat) : Nat := s.dirMap.get slot slot

/-- The directory slot of a range (R131). -/
def State.rangeSlot (s : State) (range : Nat) : Nat :=
  (bits range 11 0 ^^^ bits range 23 12 ^^^ bits range 32 24) % Max.max 1 s.npkg

/-- The directory slot of a name (R155). -/
def State.nameSlot (s : State) (name : W64) : Nat :=
  let v := name.toNat
  (bits v 11 0 ^^^ bits v 23 12 ^^^ bits v 35 24 ^^^ bits v 47 36 ^^^ bits v 59 48 ^^^ bits v 63 60) % Max.max 1 s.npkg

/-- Whether the directory answers for a slot (R378): a read that goes to a lost package is resent until the map names another. -/
def State.slotServed (s : State) (slot : Nat) : Bool := !(s.pkg (s.dirPackage slot)).lost

/-- PLB_REFILL (R135): Completes a PLB refill from the hint record or export table, with first touch. -/
def evPlbRefill (core ga : Nat) (s : State) : Option State :=
  match (s.core core).refills.find? fun r => !r.failed && r.cls == gaClass ga && r.range == gaRange ga with
  | none => none
  | some r =>
    if r.cls < 3 ∧ !s.slotServed (s.rangeSlot r.range) then none
    else
    let s1 := s.firstTouch core r.cls r.range
    match s1.refilled core r.domain r.cls r.range with
    | some e =>
      some (s1.onCore core fun k => { k with plb := plbUse k.plb e, refills := k.refills.filter (decide <| · ≠ r) })
    | none =>
      some (s1.onCore core fun k => { k with refills := k.refills.map fun q => if q = r then { q with failed := true } else q })

/-- The meaning of PLB_REFILL. -/
def execPlbRefill (core ga : Nat) (s : State) : Answer := .next ((evPlbRefill core ga s).getD s)

/-! ## Shootdown (R136) -/

/-- Every core and copy engine of the pod clears the entries of a range. -/
def State.clearPlbs (s : State) (cls range : Nat) : State :=
  { s with
    cores := s.cores.mapVals fun _ k => { k with plb := k.plb.filter fun e => !(e.cls == cls && e.range == range) }
    engines := s.engines.mapVals fun _ g => { g with plb := g.plb.filter fun e => !(e.cls == cls && e.range == range) } }

/-- SHOOTDOWN (R136): Clears matching PLB entries at every core and engine and acknowledges. -/
def evShootdown (n : Nat) (s : State) : Option State :=
  match s.packet n with
  | some { pay := .shootdown cls range, .. } => some ((s.take n).clearPlbs cls range)
  | _ => none

/-- The meaning of SHOOTDOWN. -/
def execShootdown (n : Nat) (s : State) : Answer := .next ((evShootdown n s).getD s)

end Sys2Proof.Machine
end

