-- ==== Sys2Proof/Machine/Access.lean ====
section
/-! DEFINITION. Issuing a commons access or a memory-core DRAM access (R106, R142, R143, R199, R277, R281). -/

namespace Sys2Proof.Machine

/-! ## Rights (R135, R138) -/

/-- Whether an access needs the read right. -/
def AccOp.reads : AccOp → Bool
  | .storeB | .storeH | .storeW | .storeD | .storeNl | .storeNh | .storeRel | .dst _ => false
  | .load | .loadGe | .loadEq | .loadAcq | .ver | .vload | .dld _ | .defer | .atom _ | .recl | .reclRange | .arm | .disarm
  | .vadd => true

/-- Whether an access needs the write right. -/
def AccOp.writes : AccOp → Bool
  | .load | .loadGe | .loadEq | .loadAcq | .ver | .vload | .dld _ | .defer => false
  | .storeB | .storeH | .storeW | .storeD | .storeNl | .storeNh | .storeRel | .dst _ | .atom _ | .recl | .reclRange | .arm
  | .disarm | .vadd => true

/-! ## The issue buffer and the ticket table (R142) -/

/-- Whether younger accesses of its actor to its page are held behind an access (R143, R144): it is ticketed, being replayed, or held
itself. -/
def Access.blocks (a : Access) : Bool := a.replay || decide (a.phase = .ticketed) || decide (a.phase = .held)

/-- Entries of the ticket table in use. A ticketed access that found none stays in the issue buffer. -/
def Core.tableUse (k : Core) : Nat := (k.accs.filter Access.entry).length

/-- Entries of the issue buffer in use. -/
def Core.bufferUse (k : Core) : Nat := (k.accs.filter fun a => !a.entry).length + (k.tableUse - 32)

/-- Whether an actor's younger accesses to a page are held (R143, R144). -/
def Core.holdsPage (k : Core) (slot page : Nat) : Bool :=
  k.accs.any fun a => a.slot == slot && !a.orphan && a.blocks && a.ga / 65536 == page

/-- Accesses to a bank that no answer has come to the core for (R375): also those whose answer is on its way. -/
def Core.unanswered (k : Core) (bank : Nat) : Nat :=
  (k.accs.filter fun a => bankOf a.owner a.ga == bank && decide (a.phase = .sent ∨ a.phase = .stored ∨ a.phase = .busy ∨ a.phase = .lodged ∨ a.phase = .answered)).length

/-- Whether an access of the core to a bank waits for its release condition, which keeps younger ones behind it (R113). -/
def Core.waitsAt (k : Core) (bank : Nat) : Bool :=
  k.accs.any fun a => decide (a.phase = .waiting) && bankOf a.owner a.ga == bank

/-- Whether an access has been performed or refused: its effect is fixed at its target (R110). -/
def Access.performed (a : Access) : Bool :=
  decide (a.phase = .answered) &&
    match a.answer with
    | some (.value ..) | some (.dataError ..) | some (.fault ..) | some .lost => true
    | _ => false

/-- The next per-bank sequence number of a core (R375); SEQ is its low 8 bits. -/
def Core.takeSeq (k : Core) (bank : Nat) : Nat × Core :=
  (k.bankSeq.get 0 bank, { k with bankSeq := k.bankSeq.put bank (k.bankSeq.get 0 bank + 1) })

/-- An access leaves the core for its owner (R281, R143): it takes the next number, and across packages a tag (R125). -/
def Core.sendAcc (k : Core) (c now id owner : Nat) (replay : Bool) : Core :=
  match k.accs.find? (·.id == id) with
  | none => k
  | some a =>
    let r := k.takeSeq (bankOf owner a.ga)
    let crosses := ownerPkg owner != corePkg c
    { r.2 with
      tagNo := if crosses then r.2.tagNo + 1 else r.2.tagNo
      accs := r.2.accs.map fun b =>
        if b.id = id then
          { b with phase := .sent, owner := owner, seq := r.1, replay := replay, answer := none, firstAt := now, resent := false,
                   busied := false, waited := false,
                   tag := if crosses then some r.2.tagNo else none }
        else b }

/-! ## Issue -/

/-- An access as an instruction asks for it. -/
structure Ask where
  op : AccOp
  ga : Nat
  size : Nat
  cls : Nat := 1
  ops : List W64 := []
  chan : Nat := 0
  destV : Bool := false
  dest : Nat := 0

/-- Where the outstanding-operation counter of an access stands (R198, R199). -/
def Actor.counterFull (a : Actor) (op : AccOp) : Bool := decide ((if op.countsLoad then a.cl else a.cs) ≥ 63)

/-- The counter of an access rises at issue (R198). -/
def Actor.countUp (a : Actor) (op : AccOp) : Actor := if op.countsLoad then { a with cl := a.cl + 1 } else { a with cs := a.cs + 1 }

/-- The presence bits of an access's destination are cleared (R60). -/
def Ask.clearDest (q : Ask) (t : Thread) : Thread :=
  if q.destV then
    let t1 := t.clearV (BitVec.ofNat 5 q.dest)
    if q.op = .vadd then t1.clearV (BitVec.ofNat 5 (q.dest + 1)) else t1
  else t.clearX (BitVec.ofNat 5 q.dest)

/-- Whether the release condition of R115 holds for an access or message of a slot issued at a given place in issue order: every
older access of the kinds that `which` names is performed. -/
def Core.released (k : Core) (slot order : Nat) (which : AccOp → Bool) : Bool :=
  !k.accs.any fun a => a.slot == slot && !a.orphan && decide (a.order < order) && which a.op && !a.performed

/-- The record of an access to an owner. -/
def State.newAccess (s : State) (q : Ask) (owner group : Nat) : Access :=
  let k := s.me
  { id := k.next, slot := s.th.slot, name := s.self.name, tset := k.tset, fid := s.th.fid, order := k.next, op := q.op, ga := q.ga,
    ops := q.ops, chan := q.chan, destV := q.destV, dest := q.dest, pc := s.th.pc, owner := owner, group := group,
    domain := s.self.domain, inc := s.self.incarn, insn := k.wordAt s.th.pc, phase := .waiting, firstAt := s.now s.cur }

/-- An access with its owner chosen leaves the instruction: held behind a ticket of the actor on its page, waiting for its release
condition, or sent (R281). -/
def State.launch (s : State) (q : Ask) (owner group : Nat) : State :=
  let k := s.me
  let a := s.newAccess q owner group
  let k1 := fun (a : Access) => { k with accs := k.accs ++ [a], next := k.next + 1 }
  if k.holdsPage s.th.slot (q.ga / 65536) then s.onMe fun _ => k1 { a with phase := .held, entry := true }
  else if k.waitsAt (bankOf owner q.ga) || (decide (q.op = .storeRel) && !k.released s.th.slot a.order (fun _ => true)) then
    s.onMe fun _ => k1 a
  else s.onMe fun _ => (k1 a).sendAcc s.cur (s.now s.cur) a.id owner false

/-- Whether an access that has yet to leave its core may leave now: nothing older of the core waits at its bank, the limit of R375 leaves
room, a CST.REL has its release condition (R115), and one that was held follows the older held accesses of its page (R123). -/
def Core.mayGo (k : Core) (a : Access) : Bool :=
  let waits := fun (b : Access) => decide (b.phase = .waiting) && decide (b.order < a.order)
  !k.accs.any (fun b => waits b && bankOf b.owner b.ga == bankOf a.owner a.ga) && decide (k.unanswered (bankOf a.owner a.ga) < 127) &&
    (decide (a.op ≠ .storeRel) || a.orphan || k.released a.slot a.order fun _ => true) &&
    (!a.entry || a.replay || !k.accs.any fun b => waits b && b.slot == a.slot && !b.orphan && b.ga / 65536 == a.ga / 65536)

/-- The parts of an access: one for each bank that a CRECL.R touches, else one (R287). -/
def Ask.parts (q : Ask) (owner : Nat) : List Ask :=
  match q.op with
  | .reclRange =>
    let n := ((q.ops[1]?).getD 0).toNat % 2 ^ 14
    ((List.range 4).filterMap fun i =>
      ((List.range (Min.min n ((65536 - q.ga % 65536) / 8))).find? fun j => bankOf owner (q.ga + 8 * j) % 4 == i).map fun j =>
        { q with ga := q.ga + 8 * j, ops := q.ops.take 2 ++ [BitVec.ofNat 64 q.ga] })
  | _ => [q]

/-- Places that an access needs in the issue buffer or the ticket table, and below the limit of each bank (R142, R375). -/
def State.canLaunch (s : State) (parts : List Ask) (owner : Nat) : Bool :=
  let k := s.me
  match parts with
  | [] => true
  | q :: _ =>
    if k.holdsPage s.th.slot (q.ga / 65536) then decide (k.tableUse + parts.length ≤ 32)
    else decide (k.bufferUse + parts.length ≤ 128) && parts.all fun p => decide (k.unanswered (bankOf owner p.ga) < 127)

/-- An access issues with its owner chosen (R281): the counter rises, the destination's presence is cleared, and the thread set
runs on. -/
def State.issueTo (s : State) (q : Ask) (owner : Nat) : Answer :=
  let parts := q.parts owner
  if s.self.counterFull q.op || !s.canLaunch parts owner then s.stall
  else
    let group := if parts.length > 1 then s.me.next + 1 else 0
    let s1 := (s.onMe (·.plbTouch s.self.domain q.ga)).onTh q.clearDest
    let s2 := if parts.isEmpty then s1 else s1.onSelf (·.countUp q.op)
    (parts.foldl (fun s p => s.launch p owner group) s2).finish id

/-- A memory-core DRAM access whose page has another home ends at once with a deferred PLB_DENY (R103, R290); it waits for its counter and
for the issue buffer as every access does (R142, R199). -/
def State.denyElsewhere (s : State) (q : Ask) : Answer :=
  let k := s.me
  let a := s.newAccess q 0 0
  if s.self.counterFull q.op || decide (k.bufferUse ≥ 128) then s.stall
  else .next ((s.onMe fun k => { k with next := k.next + 1 }).onMe (fun k1 =>
    (k1.arriveZero a).deferFault s.th.slot
      { cause := deferredCause rPlbDeny 0x01 0, va := BitVec.ofNat 64 q.ga, pc := a.pc, age := k.next }) |>.onTh Thread.nextPc)

/-- Issuing an access (R277, R281, R290): alignment, class, rights and owner, in the order of R72. -/
def State.issue (s : State) (q : Ask) : Answer :=
  s.access <|
    if q.ga % q.size ≠ 0 then s.trap rMisalign 0 q.size (BitVec.ofNat 64 q.ga) (gaf := true)
    else if !(gaValid q.ga && gaClass q.ga == q.cls) then s.trap rPlbDeny 0x01 0 (BitVec.ofNat 64 q.ga) (gaf := true)
    else
      match s.me.ownerAt s.self.domain q.ga q.op.reads q.op.writes with
      | .refill => .next ((s.onMe (·.askRefill s.self.domain q.ga)).onTh fun t => { t with stalled := true })
      | .deny sub => (s.onMe (·.dropRefill s.self.domain q.ga)).trap rPlbDeny sub 0 (BitVec.ofNat 64 q.ga) (gaf := true)
      | .owner o => if q.cls = 0 ∧ o ≠ memOwner s.cur then s.denyElsewhere q else s.issueTo q o

end Sys2Proof.Machine
end

