-- ==== Sys2Proof/Machine/Signal.lean ====
section
/-! DEFINITION. Making messages and signals (R170, R171, R420) on their way to an actor. -/

namespace Sys2Proof.Machine

/-- Message KINDs of R299. -/
def mSend : BitVec 3 := 0
/-- SENDI. -/
def mSendi : BitVec 3 := 1
/-- Parcel notice. -/
def mParcel : BitVec 3 := 2
/-- Deferral. -/
def mDeferral : BitVec 3 := 3
/-- Trigger. -/
def mTrigger : BitVec 3 := 4
/-- MDRAIN closing message. -/
def mDrain : BitVec 3 := 5
/-- Signal. -/
def mSignal : BitVec 3 := 6
/-- Initial message. -/
def mInitial : BitVec 3 := 7

/-- Signal KINDs of R170. -/
def sExit : Nat := 1
/-- DOWN. -/
def sDown : Nat := 2
/-- CHILD_EXIT. -/
def sChildExit : Nat := 3
/-- DELIVERY. -/
def sDelivery : Nat := 4
/-- TIMER. -/
def sTimer : Nat := 5
/-- DEVICE. -/
def sDevice : Nat := 6

/-- The flock number of a name (R16). -/
def flockOf (name : W64) : Nat := name.toNat / 2 ^ 48

/-- The work index of a name (R16). -/
def indexOf (name : W64) : Nat := name.toNat % 2 ^ 48

/-- Eight message words from a list, zero beyond it. -/
def body8 (l : List W64) : Vector W64 8 := Vector.ofFn fun i => (l[i.val]?).getD 0

/-- A signal sent from a unit of a package. -/
def State.signal (s : State) (src : Nat) (g : Signal) : State := s.post src (.signal g)

/-- DETAIL of a DELIVERY signal (R170): refusal code, channel, and the low half of the refused message's m0. -/
def deliveryDetail (code chan : Nat) (m0 : W64) : W64 :=
  BitVec.ofNat 64 (code + chan * 256 + m0.toNat % 2 ^ 32 * 2 ^ 32)

/-- A DELIVERY signal to an actor about an addressee (R170, R420), from a package and die. -/
def State.delivery (s : State) (pkg die : Nat) (dst : W64) (inc : BitVec 8) (reason : Nat) (subject : W64) (sinc : BitVec 8)
    (detail : W64) : State :=
  s.signal pkg { dst := dst, inc := inc, kind := sDelivery, reason := reason, sub := 0, ref := 0, subject := subject,
                 origpkg := pkg, origdie := die, sinc := sinc, detail := detail, stamp := BitVec.ofNat 64 (s.cycle pkg) }

/-- A DEVICE signal to an actor (R170, R420). -/
def State.deviceSignal (s : State) (pkg die : Nat) (dst : W64) (inc : BitVec 8) (reason sub : Nat) (detail : W64) : State :=
  s.signal pkg { dst := dst, inc := inc, kind := sDevice, reason := reason, sub := sub, ref := 0, subject := dst,
                 origpkg := pkg, origdie := die, sinc := inc, detail := detail, stamp := BitVec.ofNat 64 (s.cycle pkg) }

/-- The eight words of a signal (R170). -/
def Signal.words (g : Signal) : Vector W64 8 :=
  body8 [BitVec.ofNat 64 (g.kind * 2 ^ 56 + g.reason * 2 ^ 48 + g.sub * 2 ^ 40 + g.ref.toNat * 2 ^ 16), g.subject,
    BitVec.ofNat 64 (g.origpkg * 2 ^ 20 + g.origdie * 2 ^ 18 + g.sinc.toNat), g.detail, g.stamp]

end Sys2Proof.Machine
end

