-- ==== Sys2Proof/Machine/Time.lean ====
section
/-! DEFINITION. Cycles (R69) and the performance counters that count events (R203, R204). How many cycles a step takes is not
fixed by the specification: it is data of the state (log 2). -/

namespace Sys2Proof.Machine

/-! ## Performance counters -/

/-- Whether a counter counts events of a code (R203); with DFILT only those of an actor of its domain. -/
def Pmc.counts (p : Pmc) (code : Nat) (dom : Option (BitVec 16)) : Bool :=
  p.en && p.event == code && (!p.dfilt || dom == some p.domain)

/-- A counter counts events of the present cycle (R203), modulo 2^48 and up to 16 in one cycle. -/
def Pmc.tally (p : Pmc) (code : Nat) (dom : Option (BitVec 16)) (n : Nat) : Pmc :=
  if p.counts code dom then
    let m := Min.min n (16 - p.seen)
    { p with count := p.count + BitVec.ofNat 48 m, seen := p.seen + m }
  else p

/-- A counter counts an event that stands for `n` cycles. -/
def Pmc.tallyCycles (p : Pmc) (code : Nat) (dom : Option (BitVec 16)) (n : Nat) : Pmc :=
  if p.counts code dom then { p with count := p.count + BitVec.ofNat 48 n } else p

/-- A new cycle begins for a counter. -/
def Pmc.fresh (p : Pmc) : Pmc := { p with seen := 0 }

/-- A core counts events. -/
def Core.count (k : Core) (code : Nat) (dom : Option (BitVec 16)) (n : Nat := 1) : Core :=
  { k with pmcs := k.pmcs.map (·.tally code dom n) }

/-- A core counts events of an actor of one of its slots. -/
def Core.countOf (k : Core) (slot code : Nat) (n : Nat := 1) : Core := k.count code (some (k.actor slot).domain) n

/-- A core of the pod counts events. -/
def State.countCore (s : State) (c code : Nat) (dom : Option (BitVec 16)) (n : Nat := 1) : State :=
  s.onCore c (·.count code dom n)

/-- A copy engine counts events. -/
def State.countEngine (s : State) (e code : Nat) (dom : Option (BitVec 16)) (n : Nat := 1) : State :=
  s.onEngine e fun g => { g with pmcs := g.pmcs.map (·.tally code dom n) }

/-- A bank group or a DRAM channel counts events. -/
def State.countOwner (s : State) (o code : Nat) (dom : Option (BitVec 16)) (n : Nat := 1) : State :=
  s.onOwner o fun w => { w with pmcs := w.pmcs.map (·.tally code dom n) }

/-! ## Cycles -/

/-- Whether the cycles of a package pass: it runs and is not frozen (R388), halted or lost. -/
def Package.runs (p : Package) : Bool :=
  !p.frozen && !p.halted && !p.fabricStopped && decide (1 ≤ p.bringUp) && (!p.lost || decide (p.bringUp < 4))

/-- The value of a stream read reaches its register in the cycle after the read (R60, log 90). -/
def Thread.land (t : Thread) (n : Nat) : Thread :=
  if n = 0 then t
  else
    match t.landing with
    | some (r, v) => { t.writeX r v with landing := none }
    | none => t

/-- Cycles of a firing fall from WDOGLEFT (R67). -/
def Thread.spend (t : Thread) (n : Nat) : Thread := { t with wdogleft := BitVec.ofNat 32 (t.wdogleft.toNat - n) }

/-- Whether a stalled instruction still waits for a presence bit (event 0x05 of R204). -/
def Thread.waiting (t : Thread) : Bool := decide (t.waitX &&& ~~~t.xp &&& ~~~1 ≠ 0) || decide (t.waitV &&& ~~~t.vp ≠ 0)

/-- Cycles of one thread set: WDOGLEFT falls while it holds a firing, and event 0x05 counts while it waits for a presence
bit. -/
def Core.tickThread (k : Core) (n : Nat) (i : Fin 4) : Core :=
  let t := k.thread i
  if t.busy then
    let k1 := k.onThread i fun t => (t.land n).spend n
    if t.waiting then { k1 with pmcs := k1.pmcs.map (·.tallyCycles 0x05 (some (k.actor t.slot).domain) n) } else k1
  else k

/-- The matrix unit counts at most `n` of the multiply-accumulates that it has retired (R204). -/
def Core.countMacs (k : Core) : List (BitVec 16 × Nat) → Nat → Core
  | [], _ => { k with macs := [] }
  | (d, m) :: rest, n =>
    let k1 : Core := { k with pmcs := k.pmcs.map fun p => p.tallyCycles 0x08 (some d) (Min.min m n) }
    if n < m then { k1 with macs := (d, m - n) :: rest } else k1.countMacs rest (n - m)

/-- Cycles of a core. -/
def Core.tick (k : Core) (n : Nat) : Core :=
  if n = 0 then k
  else
    let k1 := (((k.tickThread n 0).tickThread n 1).tickThread n 2).tickThread n 3
    let k2 := k1.countMacs k1.macs (16 * n)
    { k2 with pmcs := k2.pmcs.map Pmc.fresh }

/-- `n` cycles pass: the wall clock of R11 goes on, CYCLE rises modulo 2^64 (R69) in every package that runs, and where any passes, a new
cycle begins. -/
def State.tick (s : State) (n : Nat) : State :=
  if n = 0 then s
  else
    { s with
      pkgs := s.pkgs.mapVals fun _ p => if p.runs then { p with cycle := (p.cycle + n) % 2 ^ 64 } else p
      cores := s.cores.mapVals fun c k => if (s.pkg (corePkg c)).runs then k.tick n else k
      engines := s.engines.mapVals fun _ g => { g with pmcs := g.pmcs.map Pmc.fresh }
      owners := s.owners.mapVals fun _ o => { o with pmcs := o.pmcs.map Pmc.fresh }
      wall := s.wall + n
      issuers := []
      started := []
      settled := false }

/-- Whether the issuing thread set has trapped since a state: it has entered its handler, or its actor dies of the trap (R71). -/
def State.trappedSince (s u : State) : Bool :=
  (!u.th.inTrap && s.th.inTrap) ||
    (u.self.dying.isNone && ((s.actor u.cur u.th.slot).dying.any fun d => decide (0x10 ≤ d.reason ∧ d.reason < 0x30)))

/-- Events 0x01 and 0x02 of R204, for an instruction that issued in a state `u`: a cycle in which the thread set issues, unless it stalled; an
instruction committed, unless it trapped. -/
def State.issued (u s : State) : State :=
  if s.th.stalled then s
  else
    let dom := some u.self.domain
    let s1 := s.countCore u.cur 0x01 dom
    if s.trappedSince u then s1 else s1.countCore u.cur 0x02 dom

end Sys2Proof.Machine
end

