-- ==== Sys2Proof/Machine/Bank.lean ====
section
/-! DEFINITION. What a commons bank does with one access, in one step (R92 to R102, R283 to R289). -/

namespace Sys2Proof.Machine

/-! ## Versions (R93) -/

/-- Version `a` is at or after version `b`. -/
def verGe (a b : BitVec 16) : Bool := decide ((a - b).toNat < 2 ^ 15)

/-- Version `a` is after version `b`; every version that is not is `b` or before it. -/
def verAfter (a b : BitVec 16) : Bool := verGe a b && a != b

/-- The continuations of a word, in lodging order (R98). -/
def Bank.contsOf (b : Bank) (w : Nat) : List Cont := b.conts.filter (·.word == w)

/-- STATE of a word (R92): 3 poisoned, 2 deferred, 1 full, 0 empty. -/
def CWord.state (c : CWord) (lodged : Bool) : Nat := if c.poison then 3 else if lodged then 2 else if c.hasval then 1 else 0

/-- The word that CVER reads (R283). -/
def CWord.meta (c : CWord) (lodged : Bool) : W64 :=
  BitVec.ofNat 64 ((if c.hasval then 2 ^ 63 else 0) + c.state lodged * 2 ^ 48 + c.floor.toNat * 2 ^ 32 + c.ver.toNat)

/-! ## Answers -/

/-- Changes an access of a core. -/
def State.onAcc (s : State) (core id : Nat) (f : Access → Access) : State :=
  s.onCore core fun k => { k with accs := k.accs.map fun a => if a.id = id then f a else a }

/-- The answer to an access leaves its owner. -/
def State.answer (s : State) (core id : Nat) (v : AccAnswer) : State :=
  s.onAcc core id fun a => { a with phase := .answered, answer := some v }

/-- An access is answered busy and will be resent unchanged (R99). -/
def State.answerBusy (s : State) (core id : Nat) : State :=
  s.onAcc core id fun a => { a with phase := .busy, busied := true, lastAt := s.now core }

/-! ## Messages of a bank -/

/-- The incarnation under which a name is live, or 0 (R420). -/
def State.liveInc (s : State) (name : W64) : BitVec 8 :=
  match s.dirEntry name with
  | some e => if e.state = 1 then e.inc else 0
  | none => 0

/-- A message that a bank sends for an actor that lodged a deferral or armed a word; its refusals go to that actor (R99, R101). -/
def State.bankMessage (s : State) (o : Nat) (target : W64) (chan : Nat) (kind : BitVec 3) (from_ : W64) (inc : BitVec 8)
    (dom : BitVec 16) (words : List W64) : State :=
  let m : Msg :=
    { dst := target, inc := 0, named := false, chan := chan, kind := kind, sinc := inc, sender := from_, domain := dom,
      everyDomain := false, body := body8 words }
  s.post (ownerPkg o) (.message m (.free from_ inc (ownerDie o)) none)

/-- The global address of a word. -/
def wordGa (w : Nat) : W64 := BitVec.ofNat 64 (w * 8)

/-- The message of a served deferral (R286): GONE with the page, POISON with a poisoned word. -/
def State.serveDeferral (s : State) (o w : Nat) (target : W64) (chan : Nat) (tag from_ : W64) (inc : BitVec 8)
    (dom : BitVec 16) (val : W64) (ver : BitVec 16) (gone poison : Bool) : State :=
  s.bankMessage o target chan mDeferral from_ inc dom
    [if gone || poison then 0 else val, wordGa w,
     BitVec.ofNat 64 ((if gone then 2 ^ 63 else 0) + (if poison then 2 ^ 62 else 0) + ver.toNat), tag]

/-! ## The walk (R98) -/

/-- Whether the making of version `v` serves a continuation. -/
def Cont.servedBy (c : Cont) (v : BitVec 16) : Bool :=
  match c.who with
  | .wait _ _ true _ => c.ver == v
  | _ => verGe v c.ver

/-- Serves one continuation with the version that stands in its word. -/
def State.serve (s : State) (o : Nat) (c : Cont) : State :=
  let w := s.word c.word
  match c.who with
  | .wait core id _ _ =>
    s.answer core id (if w.poison then .dataError 1 (wordGa c.word) else .value [w.data] w.ver)
  | .deferral target chan tag from_ inc dom => s.serveDeferral o c.word target chan tag from_ inc dom w.data w.ver false w.poison

/-- The walk of a word after a version has been made. -/
def State.walk (s : State) (o w : Nat) : State :=
  let b := bankOf o (w * 8)
  let v := (s.word w).ver
  let go := fun (c : Cont) => c.word == w && c.servedBy v
  let served := (s.bank b).conts.filter go
  served.foldl (fun s c => s.serve o c) (s.onBank b fun k => { k with conts := k.conts.filter (!go ·) })

/-! ## Making versions (R93 to R96) -/

/-- The push of a word's version and value to the shadow store, which then may discard its oldest entry (R96): nothing for an empty word, nor
for a version before the word's FLOOR. -/
def State.pushShadow (s : State) (o w : Nat) : State :=
  let b := bankOf o (w * 8)
  let c := s.word w
  if !c.hasval || !verGe c.ver c.floor then s
  else
    let s1 := if (s.bank b).shadow.length ≥ 4096 then s.countOwner o 0x61 none else s
    s1.onBank b fun k =>
      { k with shadow := (if k.shadow.length ≥ 4096 then k.shadow.drop 1 else k.shadow) ++ [⟨w, c.ver, c.data⟩] }

/-- A word takes new data as a new version: push, write, walk, in one step (R95). A write of all 64 bits ends poison. -/
def State.makeVersion (s : State) (o w : Nat) (data : W64) (whole : Bool) : State :=
  let c := s.word w
  ((s.pushShadow o w).setWord w
    { c with data := data, ver := c.ver + 1, hasval := true, poison := c.poison && !whole }).walk o w

/-- The trigger check after a writing atomic (R101): an armed word that has gone from nonzero to zero is disarmed and sends its
message. -/
def State.triggerCheck (s : State) (o w : Nat) (old : W64) : State :=
  let b := bankOf o (w * 8)
  let c := s.word w
  if old ≠ 0 ∧ c.data = 0 then
    match (s.bank b).trigs.find? (·.word == w) with
    | none => s
    | some t =>
      ((s.onBank b fun k => { k with trigs := k.trigs.filter (·.word != w) }).bankMessage o t.target t.chan mTrigger t.armer
        t.armerInc t.domain [t.p0, t.p1, wordGa w, c.ver.zeroExtend 64]).countOwner o 0x64 (some t.domain)
  else s

/-- A writing atomic on one word (R100): the version and then the trigger check. -/
def State.atomicWrite (s : State) (o w : Nat) (data : W64) : State :=
  let old := (s.word w).data
  (s.makeVersion o w data true).triggerCheck o w old

/-! ## Values -/

/-- Bytes of a word replaced from bit `lo` upward, `n` bits wide. -/
def insertBits (old : W64) (lo n : Nat) (v : W64) : W64 :=
  let m := (BitVec.ofNat 64 (2 ^ n - 1)) <<< lo
  (old &&& ~~~m) ||| ((v <<< lo) &&& m)

/-- What a store of a commons word leaves in it (R284): data, and whether all 64 bits are written. -/
def storeValue (op : AccOp) (old : W64) (ga : Nat) (v : W64) : W64 × Bool :=
  let lo := ga % 8 * 8
  match op with
  | .storeB => (insertBits old lo 8 v, false)
  | .storeH => (insertBits old lo 16 v, false)
  | .storeW => (insertBits old lo 32 v, false)
  | .storeNl => (insertBits old lo 4 v, false)
  | .storeNh => (insertBits old (lo + 4) 4 v, false)
  | _ => (v, true)

/-- FP32 addition of a bank's arithmetic unit (R100): nearest even, subnormals kept, a NaN result canonical. -/
def bankFadd (a b : Nat) : Nat := (FFmt.fp32.addNum rneIeee (FFmt.fp32.read a) (FFmt.fp32.read b)).1

/-- The new value of an atomic (R100, R285); none where it writes nothing. -/
def atomValue (op : AtomOp) (old : W64) (ga : Nat) (x expected : W64) : Option W64 :=
  match op with
  | .add => some (old + x)
  | .min => some (if BitVec.slt x old then x else old)
  | .max => some (if BitVec.slt old x then x else old)
  | .minu => some (if x < old then x else old)
  | .maxu => some (if old < x then x else old)
  | .and => some (old &&& x)
  | .or => some (old ||| x)
  | .xor => some (old ^^^ x)
  | .swap => some x
  | .cas => if old = expected then some x else none
  | .fadd =>
    let lo := ga / 4 % 2 * 32
    some (insertBits old lo 32 (BitVec.ofNat 64 (bankFadd ((old >>> lo).toNat % 2 ^ 32) (x.toNat % 2 ^ 32))))

/-- The old value that an atomic returns (R285): CAFADD returns its FP32 half. -/
def atomOld (op : AtomOp) (old : W64) (ga : Nat) : W64 :=
  match op with
  | .fadd => BitVec.ofNat 64 ((old >>> (ga / 4 % 2 * 32)).toNat % 2 ^ 32)
  | _ => old

/-- One lane word of a vector add (R100): s64, or two FP32 halves. -/
def vaddValue (fp : Bool) (old x : W64) : W64 :=
  if fp then
    BitVec.ofNat 64 (bankFadd (old.toNat % 2 ^ 32) (x.toNat % 2 ^ 32) +
      bankFadd (old.toNat / 2 ^ 32) (x.toNat / 2 ^ 32) * 2 ^ 32)
  else old + x

/-! ## Applying an access at its bank -/

/-- Whether an access must lodge a wait (R97): its version has not been made, or the word has no value yet. -/
def State.mustLodge (s : State) (a : Access) : Bool :=
  let c := s.word (a.ga / 8)
  let v := BitVec.ofNat 16 ((a.ops.headD 0).toNat)
  match a.op with
  | .loadGe | .loadAcq => !(verGe c.ver v && c.hasval)
  | .loadEq => verAfter v c.ver
  | _ => false

/-- The continuations and triggers of a page at an owner's bank. -/
def Bank.ofPage (b : Bank) (page : Nat) : List Cont × List Trigger :=
  (b.conts.filter fun c => c.word / 8192 == page, b.trigs.filter fun t => t.word / 8192 == page)

/-- Continuations and triggers that a bank has reserved for the pages that migrate to its owner (R124): as many as stand at the old one. -/
def State.reservedAt (s : State) (b : Nat) : Nat × Nat :=
  let ls := (s.migrations.filter fun m => m.newOwner == b / 4).map fun m => (s.bank (m.oldOwner * 4 + b % 4)).ofPage m.page
  ((ls.map fun l => l.1.length).sum, (ls.map fun l => l.2.length).sum)

/-- Lodges a continuation, or answers busy where the pool is full (R98, R99). -/
def State.lodge (s : State) (o core : Nat) (a : Access) (who : ContFor) (ver : BitVec 16) (k : State → State) : State :=
  let b := bankOf o a.ga
  if (s.bank b).conts.length + (s.reservedAt b).1 ≥ 2048 then (s.answerBusy core a.id).countOwner o 0x63 (some a.domain)
  else k (s.onBank b fun n => { n with conts := n.conts ++ [⟨a.ga / 8, ver, who⟩] })

/-- A versioned read that need not lodge (R97): the current value, a shadow value, zero for an empty word, or VERSION_GONE. -/
def State.readVersion (s : State) (o : Nat) (a : Access) : AccAnswer :=
  let w := a.ga / 8
  let c := s.word w
  let v := BitVec.ofNat 16 ((a.ops.headD 0).toNat)
  let now : AccAnswer := if c.poison then .dataError 1 (BitVec.ofNat 64 a.ga) else .value [if c.hasval then c.data else 0] c.ver
  match a.op with
  | .loadEq =>
    if v = c.ver then now
    else
      match (if verGe v c.floor then (s.bank (bankOf o a.ga)).shadow.find? fun e => e.word == w && e.ver == v else none) with
      | some e => .value [e.val] v
      | none => .fault rVersionGone 0 (v.zeroExtend 64)
  | _ => now

/-- CRECL on one word (R97): the floor rises to `u`, or to the current version; shadow entries before it are discarded. -/
def State.reclaim (s : State) (o w : Nat) (u : BitVec 16) : State :=
  let c := s.word w
  let f := if verAfter u c.ver then c.ver else if verGe u c.floor then u else c.floor
  (s.setWord w { c with floor := f }).onBank (bankOf o (w * 8)) fun b =>
    { b with shadow := b.shadow.filter fun e => !(e.word == w && !verGe e.ver f) }

/-- The words of a part of a CRECL.R: those of the range in the bank of the part's address, within the page (R287). -/
def reclWords (o : Nat) (start n ga : Nat) : List Nat :=
  ((List.range (Min.min n ((65536 - start % 65536) / 8))).map fun i => start / 8 + i).filter fun w => bankOf o (w * 8) = bankOf o ga

/-- What an access does at its bank once the page permits it (R95, R283 to R289), for the actor that issued it. -/
def State.applyAtBank (s : State) (o core : Nat) (a : Access) : State :=
  let dom := a.domain
  let inc := a.inc
  let w := a.ga / 8
  let b := bankOf o a.ga
  let c := s.word w
  let x0 := a.ops.headD 0
  let x1 := (a.ops[1]?).getD 0
  let done := fun (s : State) => s.answer core a.id (.value [] 0)
  let v := BitVec.ofNat 16 x0.toNat
  match a.op with
  | .load | .loadGe | .loadEq | .loadAcq =>
    if s.mustLodge a then
      s.lodge o core a (.wait core a.id (decide (a.op = .loadEq)) (decide (a.op = .loadAcq))) v fun s =>
        s.onAcc core a.id fun a => { a with phase := .lodged, waited := true }
    else
      let r := s.readVersion o a
      let s1 := match r with
        | .fault .. => s.countOwner o 0x62 (some dom)
        | _ => s
      s1.answer core a.id r
  | .ver => s.answer core a.id (.value [c.meta !((s.bank b).contsOf w).isEmpty] c.ver)
  | .storeB | .storeH | .storeW | .storeD | .storeNl | .storeNh | .storeRel =>
    let r := storeValue a.op c.data a.ga x0
    done (s.makeVersion o w r.1 r.2)
  | .atom op =>
    if c.poison then s.answer core a.id (.dataError 1 (BitVec.ofNat 64 a.ga))
    else
      let s1 := match atomValue op c.data a.ga x0 x1 with
        | some n => s.atomicWrite o w n
        | none => s
      s1.answer core a.id (.value [atomOld op c.data a.ga] c.ver)
  | .defer =>
    let tag := x1 >>> 16
    let v := BitVec.ofNat 16 x1.toNat
    if verGe c.ver v && c.hasval then
      done (s.serveDeferral o w x0 a.chan tag a.name inc dom c.data c.ver false c.poison)
    else s.lodge o core a (.deferral x0 a.chan tag a.name inc dom) v done
  | .recl => done (s.reclaim o w v)
  | .reclRange =>
    done ((reclWords o ((a.ops[2]?).getD 0).toNat (x1.toNat % 2 ^ 14) a.ga).foldl (fun s w => s.reclaim o w v) s)
  | .arm =>
    let armed := (s.bank b).trigs.any (·.word == w)
    if armed || (s.bank b).trigs.length + (s.reservedAt b).2 ≥ 32 then
      done (s.delivery (ownerPkg o) (ownerDie o) a.name inc rOverflow x0 (s.liveInc x0) (deliveryDetail (if armed then 5 else 4) a.chan x1))
    else
      done (s.onBank b fun k => { k with trigs := k.trigs ++ [⟨w, x0, a.chan, x1, (a.ops[2]?).getD 0, a.name, inc, dom⟩] })
  | .disarm =>
    let mine := (s.bank b).trigs.any fun t => t.word == w && t.armer == a.name
    let s1 := if mine then s.onBank b fun k => { k with trigs := k.trigs.filter (·.word != w) } else s
    s1.answer core a.id (.value [ofBool64 mine] c.ver)
  | .vload =>
    let ws := (List.range 4).map (w + ·)
    match ws.find? fun x => (s.word x).poison with
    | some x => s.answer core a.id (.dataError 1 (wordGa x))
    | none => s.answer core a.id (.value (ws.map fun x => (s.word x).data) 0)
  | .vadd =>
    let ws := (List.range 8).map (w + ·)
    match ws.find? fun x => (s.word x).poison with
    | some x => s.answer core a.id (.dataError 1 (wordGa x))
    | none =>
      let olds := ws.map fun x => (s.word x).data
      let s1 := (ws.zip (olds.zip a.ops)).foldl (fun s p => s.atomicWrite o p.1 (vaddValue (a.chan == 0) p.2.1 p.2.2)) s
      s1.answer core a.id (.value olds 0)
  | .dld _ | .dst _ => s

/-- A continuation whose page or word is emptied goes (R102): a wait is answered VERSION_GONE, a deferral is delivered with GONE set. -/
def State.sendGone (s : State) (o : Nat) (c : Cont) : State :=
  match c.who with
  | .wait core id _ _ =>
    let dom := ((s.core core).accs.find? (·.id == id)).map (·.domain)
    (s.answer core id (.fault rVersionGone 0 (c.ver.zeroExtend 64))).countOwner o 0x62 dom
  | .deferral target chan tag from_ inc dom => s.serveDeferral o c.word target chan tag from_ inc dom 0 0 true false

/-- Sends away every continuation of a page with its words emptied (R102): waits answered VERSION_GONE, deferrals delivered with
GONE set; shadow entries and triggers discarded. -/
def State.emptyPage (s : State) (o page : Nat) : State :=
  let inPage := fun (w : Nat) => w / 8192 == page
  let go := fun (s : State) (i : Nat) =>
    let b := o * 4 + i
    let conts := (s.bank b).conts.filter fun c => inPage c.word
    let s1 := s.onBank b fun k =>
      { k with
        conts := k.conts.filter fun c => !inPage c.word
        shadow := k.shadow.filter fun e => !inPage e.word
        trigs := k.trigs.filter fun t => !inPage t.word }
    conts.foldl (fun s c => s.sendGone o c) s1
  let s1 := (List.range 4).foldl go s
  { s1 with words := s1.words.filter fun p => !inPage p.1 }

end Sys2Proof.Machine
end

