-- ==== Sys2Proof/Machine/Mailbox.lean ====
section
/-! DEFINITION. Mailboxes in core memory (R173 to R178), completion rings (R193, R194), the runnable handlers and the ready time
(R30, R35). -/

namespace Sys2Proof.Machine

/-! ## Channel descriptors (R174) -/

/-- A channel of a mailbox: first entry, capacity, head, waiting messages. -/
structure Chan where
  base : Nat
  cap : Nat
  head : Nat
  cnt : Nat
  deriving DecidableEq, Repr

/-- Local address of a slot's mailbox. -/
def Core.mailbox (k : Core) (slot : Nat) : Nat := k.regionBase (k.actor slot).mbox

/-- The descriptor of a channel. -/
def Core.chan (k : Core) (slot c : Nat) : Chan :=
  let d := (k.metaWord (k.mailbox slot + 16 * c)).toNat
  { base := bits d 47 32, cap := bits d 31 16, head := bits d 15 8, cnt := bits d 7 0 }

/-- The doubleword of a descriptor. -/
def Chan.word (c : Chan) : W64 := BitVec.ofNat 64 (c.base * 2 ^ 32 + c.cap * 2 ^ 16 + c.head * 2 ^ 8 + c.cnt)

/-- The error that reading a descriptor meets, if any (R83, R384). -/
def Core.noteChan (k : Core) (slot c : Nat) : Core := k.noteBad slot (k.mailbox slot + 16 * c) 8

/-- Writes a descriptor. -/
def Core.setChan (k : Core) (slot c : Nat) (d : Chan) : Core := k.writeWords (k.mailbox slot + 16 * c) (toBytes 8 d.word.toNat)

/-- Local address of a message entry, by its index in the mailbox. -/
def Core.entryAt (k : Core) (slot i : Nat) : Nat := k.mailbox slot + 64 + 80 * i

/-- Local address of the n-th waiting message of a channel, oldest first. -/
def Core.waitingAt (k : Core) (slot c n : Nat) : Nat :=
  let d := k.chan slot c
  k.entryAt slot (d.base + (d.head + n) % d.cap)

/-- The message places of a channel (R173): all of c0 to c2, c3 without its 8 signal places. -/
def Chan.places (d : Chan) (c : Nat) : Nat := if c = 3 then d.cap - 8 else d.cap

/-- The waiting-message count of a channel for the firing rule: for the completion channel, records (R194). -/
def Core.waiting (k : Core) (slot c : Nat) : Nat :=
  let a := k.actor slot
  if a.cchan = c ∧ c ≠ 3 then Min.min a.crCnt 255 else (k.chan slot c).cnt

/-! ## Runnable handlers (R30, R35) -/

/-- Whether a handler is runnable. -/
def Core.runnable (k : Core) (slot : Nat) (h : Handler) : Bool :=
  [0, 1, 2, 3].all fun c => !h.req.getLsbD c || decide (h.cnt[c]?.getD 0 ≤ k.waiting slot c)

/-- Whether an actor has a runnable handler. -/
def Core.anyRunnable (k : Core) (slot : Nat) : Bool := (k.actor slot).handlers.any (k.runnable slot)

/-- Looks at a slot again after its channels have changed: the ready time is the cycle in which it last came to have a runnable
handler, and its effective priority counts from there (R35). -/
def Core.wake (k : Core) (slot now : Nat) : Core :=
  let r := k.anyRunnable slot
  let was := (k.actor slot).runnable
  if r == was then k
  else k.onActor slot fun a =>
    if !r then { a with runnable := false }
    else if a.state = .preempted then { a with runnable := true }
    else { a with runnable := true, ready := now, agedAt := now, eprio := a.prio }

/-! ## Placing and popping (R175, R177) -/

/-- The header doubleword of a placed message (R299). -/
def header (kind : BitVec 3) (chan : Nat) (sinc : BitVec 8) (now : Nat) : W64 :=
  BitVec.ofNat 64 (2 ^ 63 + kind.toNat * 2 ^ 60 + chan * 2 ^ 58 + sinc.toNat * 2 ^ 48 + now % 2 ^ 32)

/-- The bytes of a message entry (R174). -/
def entryBytes (hdr sender : W64) (m : Vector W64 8) : List Byte :=
  toBytes 8 hdr.toNat ++ toBytes 8 sender.toNat ++ m.toList.flatMap fun v => toBytes 8 v.toNat

/-- Places an entry at the tail of a channel that has a place. -/
def Core.placeEntry (k : Core) (slot c now : Nat) (hdr sender : W64) (m : Vector W64 8) : Core :=
  let d := k.chan slot c
  let k1 := (k.noteChan slot c).writeWords (k.entryAt slot (d.base + (d.head + d.cnt) % d.cap)) (entryBytes hdr sender m)
  (k1.setChan slot c { d with cnt := d.cnt + 1 }).wake slot now

/-- Whether an ordinary message finds no place in a channel (R175). -/
def Core.chanFull (k : Core) (slot c : Nat) : Bool :=
  let a := k.actor slot
  let d := k.chan slot c
  decide (a.cchan = c ∧ c ≠ 3) || decide (d.places c ≤ d.cnt + a.resv[c]?.getD 0)

/-- Places an ordinary message. -/
def Core.placeMsg (k : Core) (slot now : Nat) (m : Msg) : Core :=
  k.placeEntry slot m.chan now (header m.kind m.chan m.sinc now) m.sender m.body

/-- A place of a channel is reserved for a parcel or an MDRAIN in flight (R153). -/
def Core.reservePlace (k : Core) (slot c : Nat) : Core :=
  k.onActor slot fun a => { a with resv := a.resv.setIfInBounds c (a.resv[c]?.getD 0 + 1) }

/-- A reserved place is given back. -/
def Core.unreservePlace (k : Core) (slot c : Nat) : Core :=
  k.onActor slot fun a => { a with resv := a.resv.setIfInBounds c (a.resv[c]?.getD 0 - 1) }

/-- The entry at the head of a channel leaves it (R177). -/
def Core.dropHead (k : Core) (slot c now : Nat) : Core :=
  let d := k.chan slot c
  ((k.noteChan slot c).setChan slot c { d with head := (d.head + 1) % d.cap, cnt := d.cnt - 1 }).wake slot now

/-- The entry at the head of a channel: header, sender, m0 to m7. -/
def Core.headEntry (k : Core) (slot c : Nat) : W64 × W64 × Vector W64 8 :=
  let at_ := k.waitingAt slot c 0
  (k.readWord at_, k.readWord (at_ + 8), Vector.ofFn fun i => k.readWord (at_ + 16 + 8 * i.val))

/-- The address of the first bank word with an uncorrectable error in the entry at the head of a channel (R83). -/
def Core.headBad (k : Core) (slot c : Nat) : Option W64 := k.badRun (k.waitingAt slot c 0) 80

/-! ## Signals on c3 (R176) -/

/-- The first waiting entry of c3 that is a signal of a kind with a reason, if named. -/
def Core.findSignal (k : Core) (slot kind : Nat) (reason : Option Nat) : Option Nat :=
  ((List.range (k.chan slot 3).cnt).map (k.waitingAt slot 3)).find? fun e =>
    let w0 := (k.metaWord (e + 16)).toNat
    bits (k.metaWord e).toNat 62 60 == 6 && bits w0 63 56 == kind && (reason.all fun r => bits w0 55 48 == r)

/-- The errors that a search of the signals waiting on c3 meets (R83, R384). -/
def Core.noteSignals (k : Core) (slot : Nat) : Core :=
  ((List.range (k.chan slot 3).cnt).map (k.waitingAt slot 3)).foldl (fun k e => (k.noteBad slot e 8).noteBad slot (e + 16) 8) k

/-- A signal arrives at c3 of an actor (R176). -/
def Core.placeSignal (k : Core) (slot now : Nat) (g : Signal) : Core :=
  let d := k.chan slot 3
  let k := if g.kind = sTimer ∨ g.kind = sDevice then k.noteSignals slot else k
  if g.kind = sTimer ∧ (k.findSignal slot sTimer none).isSome then k
  else
    match (if g.kind = sDevice then k.findSignal slot sDevice (some g.reason) else none) with
    | some e => k.writeWords (e + 40) (toBytes 8 g.detail.toNat ++ toBytes 8 g.stamp.toNat)
    | none =>
      if d.cnt + (k.actor slot).resv[3] ≥ d.cap then k.die slot rOverflow 0 3
      else k.placeEntry slot 3 now (header mSignal 3 0 now) 0 g.words

/-! ## Timers (R69) -/

/-- Whether the timer of an actor is due: its deadline has come, or had passed when it was written in an earlier cycle. -/
def Actor.timerDue (a : Actor) (now : Nat) : Bool :=
  a.state.mortal && a.timer.getLsbD 63 && decide (bits a.timer.toNat 62 0 ≤ now) && decide (a.timerAt ≠ now)

/-- The timer of an actor expires: its TIMEOUT notice goes to c3, and ARM is cleared. -/
def Core.expireTimer (k : Core) (core slot now : Nat) : Core :=
  let a := k.actor slot
  (k.onActor slot fun a => { a with timer := a.timer &&& ~~~(1#64 <<< 63) }).placeSignal slot now
    { dst := a.name, inc := a.incarn, kind := sTimer, reason := rTimeout, sub := 0, ref := 0, subject := a.name
      origpkg := corePkg core, origdie := coreDie core, sinc := a.incarn, detail := 0, stamp := BitVec.ofNat 64 now }

/-! ## Completion rings (R193) -/

/-- Local address of a record of a completion ring. -/
def Core.recordAt (k : Core) (slot i : Nat) : Nat := k.regionBase (k.actor slot).cring + 32 * i

/-- Writes a record at the tail of the ring; a reservation is used up. -/
def Core.putRecord (k : Core) (slot now : Nat) (ws : List W64) : Core :=
  let a := k.actor slot
  let k1 := k.writeWords (k.recordAt slot ((a.crHead + a.crCnt) % a.crDepth)) (ws.flatMap fun (v : W64) => toBytes 8 v.toNat)
  (k1.onActor slot fun a => { a with crCnt := a.crCnt + 1, crResv := a.crResv - 1 }).wake slot now

/-- The oldest record leaves the ring. -/
def Core.dropRecord (k : Core) (slot now : Nat) : Core :=
  (k.onActor slot fun a => { a with crHead := (a.crHead + 1) % a.crDepth, crCnt := a.crCnt - 1 }).wake slot now

/-! ## Consumption (R31) -/

/-- Items of a channel that the running firing has taken (POPCNT, R299). -/
def Actor.popped (a : Actor) (c : Nat) : Nat := bits a.popcnt.toNat (4 * c + 3) (4 * c)

/-- One more item taken from a channel. -/
def Actor.countPop (a : Actor) (c : Nat) : Actor := { a with popcnt := a.popcnt + BitVec.ofNat 16 (16 ^ c) }

/-- The handler that fired. -/
def Actor.fired (a : Actor) : Option Handler := a.handlers[a.handler]?

/-- USE of the fired handler for a channel. -/
def Actor.useOf (a : Actor) (c : Nat) : Nat := (a.fired.bind fun h => h.use[c]?).getD 0

/-- Discards the oldest items of a channel. -/
def Core.discard (k : Core) (slot c now : Nat) : Nat → Core
  | 0 => k
  | n + 1 =>
    if k.waiting slot c = 0 then k
    else (if (k.actor slot).cchan = c ∧ c ≠ 3 then k.dropRecord slot now else k.dropHead slot c now).discard slot c now n

/-- The consumption rule at the end of a firing: exactly USE of each required channel leave (R31). -/
def Core.consume (k : Core) (slot now : Nat) : Core :=
  let a := k.actor slot
  match a.fired with
  | none => k
  | some h =>
    [0, 1, 2, 3].foldl (fun k c => if h.req.getLsbD c then k.discard slot c now (a.useOf c - a.popped c) else k) k

end Sys2Proof.Machine
end

