-- ==== Sys2Proof/Machine/Reach.lean ====
section
/-! DEFINITION. Who a name stands for: places in the directory (R154), resolving a name (R156), and the reach of a sender (R302). -/

namespace Sys2Proof.Machine

/-! ## Links between packages (R376) -/

/-- Whether a package has link ports (R414): CAPS.LINK. -/
def Package.hasLinks (p : Package) : Bool := p.form != 3

/-- Whether a port carries traffic to a package. -/
def Port.carries (q : Port) (pkg : Nat) : Bool := decide (q.mode ≠ .down) && q.routes.all (·.contains pkg)

/-- Whether traffic passes between two packages: each has a port that carries it; while none does it waits in the hub's link buffers. -/
def State.linked (s : State) (p q : Nat) : Bool :=
  p == q || (!(s.pkg p).fabricStopped && !(s.pkg q).fabricStopped && (s.pkg p).hasLinks && (s.pkg q).hasLinks && (s.pkg p).ports.toList.any (·.carries q) && (s.pkg q).ports.toList.any (·.carries p))

/-- The die of the host port of a package (R154). -/
def hostDie : Nat := 3

/-- The flock number of the host's gateway actors (R380). -/
def gatewayFlock : Nat := 0xFFFF

/-- Whether a name is a gateway actor's. -/
def isGateway (name : W64) : Bool := flockOf name == gatewayFlock

/-- A directory entry's core (R154): CIDX is the die index of a compute core, OIDX of a memory core. -/
def DirEntry.core (e : DirEntry) : Nat :=
  if e.kind = 1 then coreKey e.pkg e.die true (if e.cidx ≥ 32 then 1 else 0) (e.cidx % 32) else computeKey e.pkg e.die e.cidx

/-- A directory entry placed at a core and slot. -/
def DirEntry.at (e : DirEntry) (core slot : Nat) : DirEntry :=
  { e with
    pkg := corePkg core, die := coreDie core, kind := if coreIsMem core then 1 else 0,
    cidx := if coreIsMem core then coreOidx core else coreIndex core, slot := slot }

/-- Whether a slot in a state accepts messages (R156). -/
def ActState.accepts : ActState → Bool
  | .loading | .idle | .firing | .preempted | .gated => true
  | .free | .dying => false

/-- Who a name stands for at this moment. -/
inductive Who where
  | actor (core slot : Nat)
  | gateway (pkg conn : Nat)
  | pending
  | nobody
  deriving DecidableEq, Repr

/-- Resolves a name by the directory (R156). An actor that has begun to die is nobody. -/
def State.who (s : State) (name : W64) : Who :=
  match s.dirEntry name with
  | none => .nobody
  | some e =>
    match e.state with
    | 3 => .pending
    | 1 =>
      if isGateway name then .gateway e.pkg (indexOf name)
      else
        let a := s.actor e.core e.slot
        if a.name = name ∧ a.state.accepts ∧ !(s.pkg e.pkg).lost then .actor e.core e.slot else .nobody
    | _ => .nobody

/-- The domain of the actor of a name: its flock's, or its connection's for a gateway actor. -/
def State.domainOf (s : State) (name : W64) : Option (BitVec 16) :=
  if isGateway name then
    (s.dirEntry name).bind fun e => ((s.pkg e.pkg).conns.find (indexOf name)).map (·.domain)
  else (s.flock (flockOf name)).map (·.domain)

/-- Whether a sender of a domain reaches a name (R302): its own domain and flock 0; every domain for PSEND. -/
def State.reaches (s : State) (dom : BitVec 16) (every : Bool) (name : W64) : Bool :=
  every || flockOf name == 0 || s.domainOf name == some dom

/-- The actor that a sender of a domain reaches under a name. -/
def State.reach (s : State) (dom : BitVec 16) (every : Bool) (name : W64) : Who :=
  if s.reaches dom every name then s.who name else .nobody

/-- Whether a cut of a Cairn is under way for a domain (R409 steps 1 and 2): mailboxes answer busy to every arrival for it. -/
def State.cut (s : State) (dom : BitVec 16) : Bool :=
  s.pkgs.any fun p => p.2.cairns.any fun c => c.domain == dom && decide (c.phase = .quiesce)

/-- What an arrival that brings something to a mailbox finds: as `reach`, but an actor of a domain that is being cut answers busy. -/
def State.reachMailbox (s : State) (dom : BitVec 16) (name : W64) : Who :=
  match s.reach dom false name with
  | .actor c i => if s.cut (s.actor c i).domain then .pending else .actor c i
  | w => w

/-- The live actor of a name, with its core and slot. -/
def State.liveActor (s : State) (name : W64) : Option (Nat × Nat) :=
  match s.who name with
  | .actor c i => some (c, i)
  | _ => none

end Sys2Proof.Machine
end

