-- ==== Sys2Proof/Machine/Messages.lean ====
section
/-! DEFINITION. Messages on their way (R115, R120, R156, R175, R179, R180, R302, R374): leaving the send allowance, arriving at a
core or at the host port, and their answers. -/

namespace Sys2Proof.Machine

/-! ## Frames to the host (R380) -/

/-- A frame with given flags leaves on a connection; nothing leaves on a connection that is not open. It acknowledges the frames that have
come in: ACKN is the last PSN taken (log 102). -/
def State.frameFlagged (s : State) (flags : BitVec 16) (pkg conn cls : Nat) (name arg : W64) (words : List W64) : State :=
  match (s.pkg pkg).conns.find conn with
  | none => s
  | some c =>
    let f : Frame :=
      { cls := cls, flags := flags, psn := c.psnOut, ackn := (c.psnIn + (2 ^ 32 - 1)) % 2 ^ 32, name := name, arg := arg, words := words
        sentAt := s.wall }
    s.onPkg pkg fun p =>
      { p with conns := p.conns.put conn { c with psnOut := (c.psnOut + 1) % 2 ^ 32, unacked := c.unacked ++ [f] } }

/-- A frame leaves on a connection: ACK present. -/
def State.frameOut (s : State) (pkg conn cls : Nat) (name arg : W64) (words : List W64) : State :=
  s.frameFlagged 1 pkg conn cls name arg words

/-- A reply frame leaves on a connection: ACK present, reply. -/
def State.replyOut (s : State) (pkg conn cls : Nat) (name arg : W64) (words : List W64) : State :=
  s.frameFlagged 3 pkg conn cls name arg words

/-- A message to a gateway actor leaves as a class 2 frame: NAME is the sender's name, and ARG its channel (log 30). -/
def State.messageOut (s : State) (pkg conn : Nat) (m : Msg) : State :=
  s.frameOut pkg conn 2 m.sender (BitVec.ofNat 64 m.chan) m.body.toList

/-! ## Device services (R207, R387, R399, R404, R408) -/

/-- The requests that each device service of flock 0 knows: its number and how many request codes it has. -/
def serviceCodes (name : W64) : Nat :=
  match name.toNat with
  | 3 | 4 | 5 | 7 => 4
  | 6 => 2
  | _ => 0

/-- Whether a name is a device service's. -/
def isService (name : W64) : Bool := decide (serviceCodes name > 0)

/-- The request code of a message: m0 bits 63:56. -/
def Msg.code (m : Msg) : Nat := bits (m.body[0]).toNat 63 56

/-- Whether a message is a request that its service knows: the service's own step takes it. -/
def Msg.isRequest (m : Msg) : Bool :=
  isService m.dst && m.chan == 0 && decide (1 ≤ m.code) && decide (m.code ≤ serviceCodes m.dst)

/-! ## Leaving (R115, R301, R374) -/

/-- Whether a message waits for an older access of a kind to be performed (R115). -/
def AccOp.beforeSend : AccOp → Bool
  | .storeB | .storeH | .storeW | .storeD | .storeNl | .storeNh | .storeRel | .atom _ | .vadd | .dst _ => true
  | .load | .loadGe | .loadEq | .loadAcq | .ver | .vload | .dld _ | .defer | .recl | .reclRange | .arm | .disarm => false

/-- Whether a send entry has no place yet in the message sequence of a receiving core, or is looking for one again after a stale answer
(R374). -/
def SendEntry.unplaced (f : SendEntry) : Bool :=
  decide (f.phase ≠ .sent ∧ f.phase ≠ .resent) && f.dest.isNone || f.rerouted

/-- Whether an older entry is of the same sending actor, to the same target name and channel. -/
def SendEntry.precedes (f e : SendEntry) : Bool :=
  f.slot == e.slot && f.msg.dst == e.msg.dst && f.msg.chan == e.msg.chan && decide (f.order < e.order)

/-- Whether a send entry may leave its core: its release condition holds, no value of an older acquire is outstanding, every older entry
of its thread set has left, and no older entry of its actor to the same name and channel is still without a place in a message sequence
(R115, R301, R374). -/
def Core.mayLeave (k : Core) (e : SendEntry) : Bool :=
  k.released e.slot e.order AccOp.beforeSend &&
    !k.accs.any (fun a => a.slot == e.slot && !a.orphan && decide (a.order < e.order) && decide (a.op = .loadAcq)) &&
    !k.sends.any fun f =>
      f.slot == e.slot && decide (f.phase = .waiting) && !f.left && decide (f.order < e.order) || f.precedes e && f.unplaced

/-- Changes a send entry. -/
def State.onSend (s : State) (c id : Nat) (f : SendEntry → SendEntry) : State :=
  s.onCore c fun k => { k with sends := k.sends.map fun e => if e.id = id then f e else e }

/-- Whether a packet carries the message of a send entry. -/
def Payload.isSend (p : Payload) (c id : Nat) : Bool :=
  match p with
  | .message _ (.entry d j) _ => d == c && j == id
  | _ => false

/-- A send entry returns to the pool, and its message is gone. -/
def State.endSend (s : State) (c id : Nat) : State :=
  { s.onCore c fun k => { k with sends := k.sends.filter fun e => e.id != id } with
    net := s.net.filter fun p => !p.2.pay.isSend c id }

/-! ## Where a message lands (R156, R302) -/

/-- What a message finds. -/
inductive Landing where
  | place (core slot : Nat)
  | host (pkg conn : Nat)
  | refused (core : Nat) (a : MsgAnswer)
  | stale (core : Nat)
  | pending (core : Nat)
  | notYet
  deriving DecidableEq, Repr

/-- The incarnation that the sender of a message named, or 0 (R420). -/
def Msg.incNamed (m : Msg) : BitVec 8 := if m.named then m.inc else 0

/-- The NOPROC of a message that finds no actor. -/
def Msg.nobody (m : Msg) : MsgAnswer := .noproc m.incNamed

/-- The addressee's incarnation in a DELIVERY that the sender's side decides: the live one, else the one that the sender named, or 0
(R420). -/
def State.msgInc (s : State) (m : Msg) : BitVec 8 :=
  match s.dirEntry m.dst with
  | some e => if e.state = 1 then e.inc else m.incNamed
  | none => m.incNamed

/-- A message at the slot of a core: the name must match, and the incarnation where it was named. A domain that is being cut answers busy
(R409). -/
def State.landAt (s : State) (m : Msg) (core slot : Nat) (miss : Landing) : Landing :=
  let a := s.actor core slot
  if a.name = m.dst ∧ a.state.accepts then
    if m.named ∧ a.incarn ≠ m.inc then .refused core (.noproc a.incarn)
    else if s.cut a.domain then .pending core
    else .place core slot
  else miss

/-- A message that the directory has not led to a core yet: what the directory answers now (R156). -/
def State.ashore (s : State) (src : Nat) (m : Msg) : Landing :=
  if !s.reaches m.domain m.everyDomain m.dst then .refused src m.nobody
  else if isService m.dst then .refused src .placed
  else if !s.slotServed (s.nameSlot m.dst) then .notYet
  else
    match s.dirEntry m.dst with
    | none => .refused src m.nobody
    | some e =>
      match e.state with
      | 3 => .pending e.core
      | 1 =>
        if isGateway m.dst then
          (if m.named ∧ e.inc ≠ m.inc then .refused src (.noproc e.inc) else .host e.pkg (indexOf m.dst))
        else s.landAt m e.core e.slot .notYet
      | _ => .refused src m.nobody

/-- A message at the core and slot that its sender's reading named: a sender that does not reach the name finds no actor; at a slot that
does not hold it, it is stale, or, where the reading was fresh, treated by the directory's state at that moment (R156). -/
def State.landing (s : State) (m : Msg) (core slot : Nat) (fresh : Bool) : Landing :=
  if !s.reaches m.domain m.everyDomain m.dst then .refused core m.nobody
  else
    s.landAt m core slot (
      if !fresh then .stale core
      else if !s.slotServed (s.nameSlot m.dst) then .notYet
      else
        match s.dirEntry m.dst with
        | none => .refused core m.nobody
        | some e =>
          match e.state with
          | 3 => .pending core
          | 1 => if e.core = core ∧ e.slot = slot then .notYet else .stale core
          | _ => .refused core m.nobody)

/-- A message is placed at a core, or refused with OVERFLOW (R175). -/
def State.place1 (s : State) (core slot : Nat) (m : Msg) : MsgAnswer × State :=
  let k := s.core core
  if k.chanFull slot m.chan then (.overflow 0 (k.actor slot).incarn, s)
  else (.placed, s.onCore core fun k => k.placeMsg slot (s.now core) m)

/-! ## Tags across packages (R180) -/

/-- A receiving core's record of a tag. -/
def Core.tagRecord (k : Core) (src number : Nat) : Option MsgTag := k.msgTags.find? fun t => t.src == src && t.number == number

/-- Whether every record of a receiving core is in use and young. -/
def Core.tagsFull (k : Core) (now : Nat) : Bool := decide ((k.msgTags.filter fun t => decide (now < t.seen + 47000)).length ≥ 1024)

/-- Records a tag with its answer; records that are old are let go. -/
def Core.recordMsg (k : Core) (now src number : Nat) (a : MsgAnswer) : Core :=
  { k with msgTags := k.msgTags.filter (fun t => decide (now < t.seen + 47000)) ++ [{ src := src, number := number, answer := a, seen := now }] }

/-! ## Arrival -/

/-- The core's cached directory entry for a name. -/
def Core.cached (k : Core) (name : W64) : Option DirEntry := k.dirCache.find? (·.name == name)

/-- A directory entry is used or read: the least recently used of 256 goes (R156). -/
def Core.cacheDir (k : Core) (e : DirEntry) : Core := { k with dirCache := (e :: k.dirCache.filter (·.name != e.name)).take 256 }

/-! ## The message sequence (R374) -/

/-- The place of an entry among those of its core to one receiving core: the number it has from a busy answer there, or the next. -/
def Core.seqTo (k : Core) (e : SendEntry) (core : Nat) : Nat :=
  if e.busySince.isSome && e.dest.isSome && e.core == core then e.seq else k.msgSeq.get 0 core

/-- Whether an entry awaits an answer: it has left and no answer has come. -/
def SendEntry.unanswered (f : SendEntry) : Bool := decide (f.phase ≠ .waiting ∧ f.phase ≠ .busy)

/-- Whether the receiving core of an entry has yet to act on an earlier number of the entry's core: one on its way, in the reorder store,
or answered busy. -/
def SendEntry.ahead (f e : SendEntry) : Bool :=
  f.id != e.id && f.dest.isSome && f.core == e.core && decide (f.seq < e.seq) && decide (f.phase ≠ .sent ∧ f.phase ≠ .resent)

/-- Whether an earlier number of the core to the same receiving core has been answered busy and not yet otherwise. -/
def Core.behindBusy (k : Core) (e : SendEntry) : Bool := k.sends.any fun f => f.ahead e && f.busySince.isSome

/-- Whether an earlier number of the core to the same receiving core has yet to be acted on. -/
def Core.early (k : Core) (e : SendEntry) : Bool := k.sends.any fun f => f.ahead e

/-- Whether the limit of 127 unanswered messages to one receiving core, or the order of one actor's messages to one channel, keeps an entry
from leaving for a core: an older one that another core has not acted on yet goes first (log 103). -/
def Core.staysBehind (k : Core) (e : SendEntry) (core : Nat) : Bool :=
  decide ((k.sends.filter fun f => f.unanswered && f.dest.isSome && f.core == core).length ≥ 127) ||
    k.sends.any fun f => f.precedes e && decide (f.phase ≠ .sent ∧ f.phase ≠ .resent) && f.core != core

/-- Messages that arrived early in the reorder store of a cluster: 64 at most. -/
def State.storeUse (s : State) (cluster : Nat) : Nat :=
  (s.net.filter fun p => match p.2.pay with
    | .message _ (.entry d j) _ =>
      (s.core d).sends.any fun f => f.id == j && decide (f.phase = .stored) && f.core / 16 == cluster
    | _ => false).length

/-- Whether an older entry of the same actor to the same name and channel has been answered stale and has not heard of it yet: it is to find
its place at the next core first (R120, R374). -/
def State.behindStale (s : State) (c : Nat) (e : SendEntry) : Bool :=
  s.net.any fun p => match p.2.pay with
    | .sendAnswer d id tag .stale => d == c && (s.core c).sends.any fun f => f.id == id && f.tag == tag && f.precedes e
    | _ => false

/-- A send entry leaves for a slot of a receiving core: it takes its number there and, across packages, a message number (R180). -/
def State.leaveFor (s : State) (c : Nat) (e : SendEntry) (core slot : Nat) (fresh : Bool) : State :=
  let k := s.core c
  if k.staysBehind e core || s.behindStale c e then s
  else
    let n := k.seqTo e core
    let crosses := corePkg core != corePkg c
    (s.onCore c fun k =>
      { k with msgSeq := if n = k.msgSeq.get 0 core then k.msgSeq.put core (n + 1) else k.msgSeq
               msgNo := if crosses then (k.msgNo + 1) % 2 ^ 32 else k.msgNo }).onSend c e.id fun e =>
        { e with phase := .flying, core := core, dest := some slot, fresh := fresh, seq := n, tag := if crosses then some k.msgNo else none
                 firstAt := s.now c, lastAt := s.now c, resent := false, left := true }

/-- A send entry leaves for the slot that the core's cached directory entry, else the directory, names (R156); where the directory names
none, or the name is a gateway actor's or a service's, it leaves without a receiving core. -/
def State.leave (s : State) (c : Nat) (e : SendEntry) : State :=
  let m := e.msg
  let plain := s.onSend c e.id fun e => { e with phase := .flying, core := c, dest := none, tag := none, firstAt := s.now c, left := true }
  if !s.reaches m.domain m.everyDomain m.dst || isService m.dst then plain
  else
    match (s.core c).cached m.dst with
    | some d => (s.onCore c (·.cacheDir d)).leaveFor c e d.core d.slot false
    | none =>
      match s.dirEntry m.dst with
      | some d =>
        if d.state = 1 ∧ !isGateway m.dst ∧ s.slotServed (s.nameSlot m.dst) then (s.onCore c (·.cacheDir d)).leaveFor c e d.core d.slot true
        else plain
      | none => plain

/-- A send entry leaves, after every older entry of its thread set that may: the moment at which an entry leaves is free once it may
(log 103). -/
def State.leaveUpTo (s : State) (c : Nat) (e : SendEntry) : State :=
  ((s.core c).sends.filter fun f => f.id == e.id || f.slot == e.slot && decide (f.order < e.order)).foldl (fun s f =>
    if f.phase = .waiting ∧ (s.core c).mayLeave f then s.leave c f else s) s

/-! ## Arrival -/

/-- A receiving core's answer goes back, recorded where the message is tagged. -/
def State.answerSend (s : State) (c : Nat) (e : SendEntry) (a : MsgAnswer) : State :=
  let s1 := s.onSend c e.id fun e => { e with phase := .sent }
  let s2 := match e.tag with
    | some t => s1.onCore e.core fun k => k.recordMsg (s.now e.core) c t a
    | none => s1
  s2.post (corePkg e.core) (.sendAnswer c e.id e.tag a)

/-- A busy answer: the entry keeps its turn and is resent after 256 cycles, as a new message (R156, R180, R374). -/
def State.busySend (s : State) (c : Nat) (e : SendEntry) : State :=
  s.onSend c e.id fun f =>
    { f with phase := .busy, busySince := some (f.busySince.getD (s.now c)), lastAt := s.now c, tag := none, rerouted := false }

/-- The receiving core acts on a message in its turn: it places it, refuses it or answers it stale or busy; a core whose tag records are
all young answers a tagged message busy (R180). -/
def State.actOn (s : State) (c : Nat) (e : SendEntry) (slot : Nat) : Option State :=
  if e.tag.isSome && (s.core e.core).tagsFull (s.now e.core) then some (s.busySend c e)
  else
    match s.landing e.msg e.core slot e.fresh with
    | .notYet | .host .. => none
    | .place core i =>
      let r := s.place1 core i e.msg
      let s1 := if r.1 = .placed then r.2.countCore c 0x0A (some e.msg.domain) else r.2
      some (s1.answerSend c e r.1)
    | .refused _ a => some (s.answerSend c e a)
    | .stale _ => some (s.answerSend c e .stale)
    | .pending _ => some (s.busySend c e)

/-- A message reaches its receiving core: behind a busy answer it is answered busy; early, it waits in the reorder store, or is answered
busy where the store is full; else the core acts on it (R374). -/
def State.receive (s : State) (c : Nat) (e : SendEntry) (slot : Nat) : Option State :=
  let k := s.core c
  if !(s.pkg (corePkg e.core)).runs then none
  else if k.behindBusy e then some (s.busySend c e)
  else if k.early e then
    (if e.phase = .stored then none
     else if s.storeUse (e.core / 16) < 64 then some (s.onSend c e.id fun e => { e with phase := .stored })
     else some (s.busySend c e))
  else s.actOn c e slot

/-- A send entry as it stands. -/
def State.sendEntry (s : State) (c id : Nat) : Option SendEntry := (s.core c).sends.find? (·.id == id)

/-- A message that left without a receiving core: the directory answers it now, and one that it leads to a core leaves for it. -/
def State.findPlace (s : State) (c : Nat) (e : SendEntry) : Option State :=
  match s.ashore c e.msg with
  | .notYet | .stale _ => none
  | .host pkg conn => some ((s.messageOut pkg conn e.msg).answerSend c e .placed)
  | .refused _ a => some (s.answerSend c e a)
  | .pending _ => some (s.busySend c e)
  | .place core slot =>
    let s1 := s.leaveFor c e core slot true
    match s1.sendEntry c e.id with
    | some f => if f.dest.isSome then s1.receive c f slot else none
    | none => none

/-- The message of a send entry arrives for the first time, or after a busy or stale answer. -/
def State.entryArrives (s : State) (c : Nat) (e : SendEntry) : Option State :=
  let s1 := s.leaveUpTo c e
  match s1.sendEntry c e.id with
  | none => none
  | some f =>
    if f.phase = .flying ∨ f.phase = .stored then
      match f.dest with
      | some slot => s1.receive c f slot
      | none => s1.findPlace c f
    else none

/-- A resend reaches the receiving core (R180): a recorded answer is returned; one without a record is handled as a first arrival, or
refused when it is too old. -/
def State.resendArrives (s : State) (c : Nat) (e : SendEntry) : Option State :=
  match (s.core e.core).tagRecord c (e.tag.getD 0) with
  | some t => some ((s.onSend c e.id fun f => { f with phase := .sent }).post (corePkg e.core) (.sendAnswer c e.id e.tag t.answer))
  | none =>
    if e.firstAt + 47000 < s.now c then
      some ((s.onSend c e.id fun f => { f with phase := .sent }).post (corePkg e.core) (.sendAnswer c e.id e.tag .expired))
    else s.actOn c e (e.dest.getD 0)

/-- A refusal of a message that no send entry holds (R175, R209): DELIVERY to the actor that answers for it, or one more notice lost;
a threshold whose target it does not find alive is cancelled. The signal is that of the package and die of the unit that refuses (R420). -/
def State.viaRefused (s : State) (pkg die : Nat) (m : Msg) (via : Via) (reason code : Nat) (inc : BitVec 8) : State :=
  match via with
  | .entry .. => s
  | .free blame binc _ =>
    s.delivery pkg die blame binc reason m.dst inc (deliveryDetail code m.chan m.body[0])
  | .notice home t =>
    s.onPkg home fun p =>
      match p.thresholds.find t with
      | none => p
      | some h =>
        { p with thresholds := if reason = rNoproc then p.thresholds.del t else p.thresholds.put t { h with lost := h.lost + 1 } }

/-- The die of the unit that sends a message without a send entry: the bank's, the host port's or the firmware's. -/
def Via.die : Via → Nat
  | .free _ _ d => d
  | .entry c _ => coreDie c
  | .notice .. => hostDie

/-- A notice has been placed: its lost count starts again (R209). -/
def State.viaPlaced (s : State) (via : Via) : State :=
  match via with
  | .notice pkg t =>
    s.onPkg pkg fun p =>
      match p.thresholds.find t with
      | none => p
      | some h => { p with thresholds := p.thresholds.put t { h with lost := 0 } }
  | .entry .. | .free .. => s

/-- Whether a frame of the host that came in earlier on the same connection still waits to be acted on: a message to the same name and channel where a
message comes, a parcel where a parcel comes (R120, R380). -/
def State.hostWaits (s : State) (n : Nat) (gateway dst : W64) (chan : Nat) (parcel : Bool) : Bool :=
  isGateway gateway && s.net.any fun q => decide (q.1 < n) && match q.2.pay with
    | .message m (.free b _ _) _ => !parcel && b == gateway && m.sender == gateway && m.dst == dst && m.chan == chan
    | .parcel p => parcel && p.giver == gateway && p.dst == dst && p.chan == chan
    | _ => false

/-- A message without a send entry arrives: `src` is a core of the package it comes from. Those of a gateway actor to one channel keep their order. -/
def State.freeArrives (s : State) (n : Nat) (p : Packet) (m : Msg) (via : Via) (since : Option Nat) : Option State :=
  let src := p.src * 65536
  if s.hostWaits n m.sender m.dst m.chan false then none
  else
  match s.ashore src m with
  | .notYet | .stale _ => none
  | .place core slot =>
    if !(s.pkg (corePkg core)).runs then none
    else
      let r := s.place1 core slot m
      match r.1 with
      | .overflow c inc => some ((r.2.take n).viaRefused (corePkg core) (coreDie core) m via rOverflow c inc)
      | _ => some ((r.2.take n).viaPlaced via)
  | .host pkg conn => some (((s.messageOut pkg conn m).take n).viaPlaced via)
  | .refused core a =>
    match a with
    | .noproc inc =>
      some (if core = src then (s.take n).viaRefused p.src via.die m via rNoproc 0 inc
        else (s.take n).viaRefused (corePkg core) (coreDie core) m via rNoproc 0 inc)
    | .placed | .overflow .. | .stale | .busy | .expired => some (s.take n)
  | .pending _ =>
    let now := s.cycle p.src
    some { s with net := s.net.put n { p with born := now, pay := .message m via (some (since.getD now)) } }

/-- MESSAGE_ARRIVAL (R175): Receiving core accepts and places a message or refuses it with an answer. -/
def evMessageArrival (n : Nat) (s : State) : Option State :=
  match s.packet n with
  | none => none
  | some p =>
    match p.pay with
    | .message m via since =>
      if m.isRequest then none
      else
        match via with
        | .entry c id =>
          match (s.core c).sends.find? (·.id == id) with
          | none => some (s.take n)
          | some e =>
            match e.phase with
            | .waiting | .flying | .stored => s.entryArrives c e
            | .resent => s.resendArrives c e
            | .sent | .busy => none
        | _ => if since.isSome then none else s.freeArrives n p m via since
    | _ => none

/-- The meaning of MESSAGE_ARRIVAL. -/
def execMessageArrival (n : Nat) (s : State) : Answer := .next ((evMessageArrival n s).getD s)

/-! ## Answers (R156, R179) -/

/-- DELIVERY to the sender of a send entry that was refused (R170, R420). -/
def State.entryRefused (s : State) (c : Nat) (e : SendEntry) (unit reason code : Nat) (inc : BitVec 8) : State :=
  (s.endSend c e.id).delivery (corePkg unit) (coreDie unit) e.msg.sender e.msg.sinc reason e.msg.dst inc
    (deliveryDetail code e.msg.chan e.msg.body[0])

/-- SEND_ANSWER (R179, R180): An answer to a send entry arrives, returning the entry or rereading the directory and resending. One that bears
another tag than the entry has now answers a message that the entry has replaced: nothing follows from it. -/
def evSendAnswer (n : Nat) (s : State) : Option State :=
  match s.packet n with
  | none => none
  | some p =>
    match p.pay with
    | .sendAnswer c id tag a =>
      let s1 := s.take n
      match (s.core c).sends.find? fun e => e.id == id && e.tag == tag with
      | none => some s1
      | some e =>
        match a with
        | .placed => some (s1.endSend c id)
        | .noproc inc => some (s1.entryRefused c e e.core rNoproc 0 inc)
        | .overflow code inc => some (s1.entryRefused c e e.core rOverflow code inc)
        | .stale =>
          some ((s1.onCore c fun k => { k with dirCache := k.dirCache.filter (·.name != e.msg.dst) }).onSend c id fun e =>
            { e with phase := .waiting, busySince := none, dest := none, tag := none, rerouted := true })
        | .busy => some (s1.busySend c e)
        | .expired => some s1
    | _ => none

/-- The meaning of SEND_ANSWER. -/
def execSendAnswer (n : Nat) (s : State) : Answer := .next ((evSendAnswer n s).getD s)

/-! ## Messages across packages without an answer (R180) -/

/-- The send entry whose message a packet carries. -/
def State.sendOf (s : State) (n : Nat) : Option (Nat × SendEntry) :=
  match s.packet n with
  | none => none
  | some p =>
    match p.pay with
    | .message _ (.entry c id) _ => ((s.core c).sends.find? (·.id == id)).map fun e => (c, e)
    | _ => none

/-- MESSAGE_RESEND (R180): Resends a cross-package message once after 18,800 cycles without answer. -/
def evMessageResend (n : Nat) (s : State) : Option State :=
  match s.sendOf n with
  | none => none
  | some (c, e) =>
    if e.unanswered ∧ e.tag.isSome ∧ !e.resent ∧ e.firstAt + 18800 ≤ s.now c then
      some (s.onSend c e.id fun e => { e with phase := if e.phase = .sent then .resent else e.phase, resent := true })
    else none

/-- The meaning of MESSAGE_RESEND. -/
def execMessageResend (n : Nat) (s : State) : Answer := .next ((evMessageResend n s).getD s)

/-- MESSAGE_INDETERMINATE (R180): Returns the entry and sends DELIVERY INDETERMINATE after 47,000 cycles. -/
def evMessageIndeterminate (n : Nat) (s : State) : Option State :=
  match s.sendOf n with
  | none => none
  | some (c, e) =>
    if e.unanswered ∧ e.tag.isSome ∧ e.firstAt + 47000 ≤ s.now c then
      some (s.entryRefused c e c rIndeterminate 0 (s.msgInc e.msg))
    else none

/-- The meaning of MESSAGE_INDETERMINATE. -/
def execMessageIndeterminate (n : Nat) (s : State) : Answer := .next ((evMessageIndeterminate n s).getD s)

end Sys2Proof.Machine
end

