-- ==== Sys2Proof/Machine/Stream.lean ====
section
/-! DEFINITION. Stream bindings and the stream instructions (R65, R292, R293). -/

namespace Sys2Proof.Machine

/-! ## Bindings (R65) -/

/-- BOUND. -/
def sBound (v : W64) : Bool := v.getLsbD 63
/-- DIR: the firing writes. -/
def sWrites (v : W64) : Bool := v.getLsbD 62
/-- CLOSED. -/
def sClosed (v : W64) : Bool := v.getLsbD 61
/-- RIDX. -/
def sRidx (v : W64) : Nat := bits v.toNat 55 48
/-- HEAD. -/
def sHead (v : W64) : Nat := bits v.toNat 31 16
/-- CNT. -/
def sCnt (v : W64) : Nat := bits v.toNat 15 0

/-- A binding from its fields. -/
def sMake (writes closed : Bool) (ridx head cnt : Nat) : W64 :=
  BitVec.ofNat 64 (2 ^ 63 + (if writes then 2 ^ 62 else 0) + (if closed then 2 ^ 61 else 0) + ridx * 2 ^ 48 + head * 2 ^ 16 + cnt)

/-- A binding moved on by one bank word of a region of `len` words (R293). -/
def sStep (v : W64) (len : Nat) : W64 := sMake (sWrites v) (sClosed v) (sRidx v) ((sHead v + 1) % len) (sCnt v - 1)

/-- A binding as SCLOSE leaves it (R293). -/
def sClose (v : W64) : W64 :=
  if sWrites v then sMake true true (sRidx v) (sHead v) (sCnt v) else sMake false true (sRidx v) (sHead v) 0

/-- Length of a region in bank words: S = 128·SIZE (R292). -/
def RegEntry.streamWords (e : RegEntry) : Nat := 128 * e.size

/-- Number of a stream register from its field. -/
def sIndex (r : Reg) : Fin 4 := Fin.ofNat 4 r.toNat

/-- A request's KIND (R240). -/
def reqKind (w0 : W64) : Nat := bits w0.toNat 63 60
/-- A request's RIDX. -/
def reqRidx (w0 : W64) : Nat := bits w0.toNat 59 52
/-- A request's KSPEC. -/
def reqKspec (w0 : W64) : Nat := bits w0.toNat 51 48
/-- A request's TAG. -/
def reqTag (w0 : W64) : Nat := bits w0.toNat 15 0

/-- A firing lets go of a bound stream register (SUNBIND, R293, R345): the engine's request on it goes on from the binding as it was
left, closed. -/
def State.letGo (s : State) (c fid : Nat) (i : Fin 4) (v : W64) : State :=
  if sBound v then
    s.onEngine (engineOf c) fun g =>
      { g with active := g.active.map fun j =>
          if j.core = c ∧ j.fid = fid ∧ reqKind j.w[0] = 7 ∧ reqKspec j.w[0] = i.val ∧ j.ghost = none then
            { j with ghost := some (sClose v) } else j }
  else s

/-- A firing lets go of all its stream registers. -/
def State.letGoAll (s : State) (c fid : Nat) (st : Vector W64 4) : State :=
  (((s.letGo c fid 0 st[0]).letGo c fid 1 st[1]).letGo c fid 2 st[2]).letGo c fid 3 st[3]

/-! ## Instructions -/

/-- A binding instruction (R292): the region is checked, a binding already there is let go, and the new one is written. -/
def bindStream (writes : Bool) (d a : Reg) (s : State) : Answer :=
  s.withX [a] fun t =>
    let i := bits (t.readX a).toNat 7 0
    let e := s.me.regions.get {} i
    let deny := fun (sub : Nat) => s.trap rRegionDeny sub i
    if !e.valid || e.owner != t.slot then deny 0x01
    else if e.tomb then deny 0x02
    else if e.kind ≠ kStream then deny 0x04
    else if (List.range 4).any fun j => j != (sIndex d).val && sBound (t.st[j]?.getD 0) && sRidx (t.st[j]?.getD 0) == i then deny 0x04
    else
      (s.letGo s.cur t.fid (sIndex d) t.st[sIndex d]).finish fun u =>
        { u with st := u.st.set (sIndex d) (sMake writes false i 0 (if writes then e.streamWords else 0)) }

/-- SBIND_R (R292): Binds a stream register for reading a stream-buffer region. -/
def execSbindR (d a : Reg) (s : State) : Answer :=
  bindStream false d a s

/-- SBIND_W (R292): Binds a stream register for writing a stream-buffer region. -/
def execSbindW (d a : Reg) (s : State) : Answer :=
  bindStream true d a s

/-- SUNBIND (R292): Closes if needed and clears a stream binding. -/
def execSunbind (d : Reg) (s : State) : Answer :=
  (s.letGo s.cur s.th.fid (sIndex d) s.th.st[sIndex d]).finish fun u => { u with st := u.st.set (sIndex d) 0 }

/-- The bank word of a stream buffer at HEAD, as a local address (R293). -/
def streamAddr (e : RegEntry) (v : W64) : Nat := e.base * 1024 + 8 * sHead v

/-- SRD (R60, R293): Reads the next bank word of a read stream, waiting while none is available; the register is not present until the
value arrives. -/
def execSrd (d a : Reg) (s : State) : Answer :=
  s.withX [d] fun t => s.access <|
    let v := t.st[sIndex a]
    let e := s.me.regions.get {} (sRidx v)
    if !sBound v || sWrites v then s.illegal 0x05
    else if sCnt v = 0 then (if sClosed v then s.trap rStreamClosed 0 (sIndex a).val else s.stall)
    else
      let at_ := streamAddr e v
      let r := match s.me.badWord e at_ 8 with
        | none => (s, BitVec.ofNat 64 (ofBytes (s.me.readIn e at_ 8)))
        | some w => (s.onMe fun k => k.recordErr t.slot 0 (bankAddr w), 0)
      r.1.finish fun u => { u.clearX d with landing := some (d, r.2), st := u.st.set (sIndex a) (sStep v e.streamWords) }

/-- SWR (R293): Writes the next bank word of a write stream, waiting for free space. -/
def execSwr (d a : Reg) (s : State) : Answer :=
  s.withX [a] fun t => s.access <|
    let v := t.st[sIndex d]
    let e := s.me.regions.get {} (sRidx v)
    if !sBound v || !sWrites v then s.illegal 0x05
    else if sClosed v then s.trap rStreamClosed 0 (sIndex d).val
    else if sCnt v = 0 || s.me.cowHit e (streamAddr e v) 8 then s.stall
    else
      (s.storeIn e (streamAddr e v) (toBytes 8 (t.readX a).toNat)).finish fun u =>
        { u with st := u.st.set (sIndex d) (sStep v e.streamWords) }

/-- SCLOSE (R293): Closes a stream binding. -/
def execSclose (d : Reg) (s : State) : Answer :=
  let v := s.th.st[sIndex d]
  if !sBound v then s.illegal 0x05
  else s.finish fun u => { u with st := u.st.set (sIndex d) (sClose v) }

end Sys2Proof.Machine
end

