-- ==== Sys2Proof/Machine/Sha.lean ====
section
/-! DEFINITION. SHA-384, the digest that the spec measures images with (R162, R392, R406, R411). The spec names it and does not
lay it down: the function is the published standard's (log 7). -/

namespace Sys2Proof.Machine

/-- Whether a number is prime: no smaller one above 1 divides it. -/
def isPrime (n : Nat) : Bool := decide (2 ≤ n) && (List.range (n - 2)).all fun d => n % (d + 2) != 0

/-- The first eighty primes. -/
def shaPrimes : List Nat := (List.range 410).filter isPrime

/-- The greatest `r` with `r ^ k ≤ n`, found from its bit `b - 1` down, where it is known above that bit. -/
def rootFrom (k n : Nat) : Nat → Nat → Nat
  | 0, r => r
  | b + 1, r => rootFrom k n b (if (r + 2 ^ b) ^ k ≤ n then r + 2 ^ b else r)

/-- The first 64 bits of the fraction of the `k`-th root of a prime below 512. -/
def rootFraction (k p : Nat) : BitVec 64 := BitVec.ofNat 64 (rootFrom k (p * 2 ^ (64 * k)) 70 0)

/-- The round constants: the fractions of the cube roots of the first eighty primes. -/
def shaK : List (BitVec 64) := shaPrimes.map (rootFraction 3)

/-- The initial chaining value of SHA-384: the fractions of the square roots of the ninth to the sixteenth prime. -/
def shaInit : List (BitVec 64) := ((shaPrimes.drop 8).take 8).map (rootFraction 2)

/-- The message schedule: each further word from four of the sixteen before it, newest first. -/
def shaSchedule : Nat → List (BitVec 64) → List (BitVec 64)
  | 0, w => w
  | n + 1, w =>
    let w2 := w.getD 1 0
    let w15 := w.getD 14 0
    let s1 := w2.rotateRight 19 ^^^ w2.rotateRight 61 ^^^ (w2 >>> 6)
    let s0 := w15.rotateRight 1 ^^^ w15.rotateRight 8 ^^^ (w15 >>> 7)
    shaSchedule n ((s1 + w.getD 6 0 + s0 + w.getD 15 0) :: w)

/-- One round over the eight working words. -/
def shaRound (v : List (BitVec 64)) (kw : BitVec 64 × BitVec 64) : List (BitVec 64) :=
  match v with
  | [a, b, c, d, e, f, g, h] =>
    let s1 := e.rotateRight 14 ^^^ e.rotateRight 18 ^^^ e.rotateRight 41
    let t1 := h + s1 + ((e &&& f) ^^^ (~~~e &&& g)) + kw.1 + kw.2
    let s0 := a.rotateRight 28 ^^^ a.rotateRight 34 ^^^ a.rotateRight 39
    [t1 + s0 + ((a &&& b) ^^^ (a &&& c) ^^^ (b &&& c)), a, b, c, d + t1, e, f, g]
  | _ => v

/-- A doubleword from eight bytes, most significant first. -/
def shaWord (bs : List Byte) : BitVec 64 := BitVec.ofNat 64 (ofBytes (bs.take 8).reverse)

/-- The words of a block, in order. -/
def shaWords : Nat → List Byte → List (BitVec 64)
  | 0, _ => []
  | n + 1, bs => shaWord bs :: shaWords n (bs.drop 8)

/-- One block into the chaining value. -/
def shaBlock (h : List (BitVec 64)) (bs : List Byte) : List (BitVec 64) :=
  let w := (shaSchedule 64 (shaWords 16 bs).reverse).reverse
  List.zipWith (· + ·) h ((shaK.zip w).foldl shaRound h)

/-- All blocks of a padded message. -/
def shaBlocks : Nat → List (BitVec 64) → List Byte → List (BitVec 64)
  | 0, h, _ => h
  | n + 1, h, bs => shaBlocks n (shaBlock h bs) (bs.drop 128)

/-- The SHA-384 digest of some bytes: its 48 bytes read with byte 0 least significant, as the device keeps them (R9). -/
def sha384 (bs : List Byte) : BitVec 384 :=
  let n := bs.length
  let blocks := (n + 17 + 127) / 128
  let padded := bs ++ [0x80] ++ List.replicate (blocks * 128 - n - 17) 0 ++ (toBytes 16 (8 * n)).reverse
  let h := shaBlocks blocks shaInit padded
  BitVec.ofNat 384 (ofBytes ((h.take 6).flatMap fun w => (toBytes 8 w.toNat).reverse))

end Sys2Proof.Machine
end

