-- ==== Sys2Proof/Machine/Image.lean ====
section
/-! DEFINITION. Images (R28, R29, R241, R242): reading and refusing one, the room it needs, and loading it into a slot of a core
(R84, R173, R174, R187, R193). -/

namespace Sys2Proof.Machine

/-! ## What an image declares -/

/-- A region declaration: the entry it makes, and the offset of its initial bytes. -/
structure RegDecl where
  size : Nat
  kind : Nat
  rd : Bool
  wr : Bool
  skew : Bool
  pitch : Nat
  init : Nat
  deriving DecidableEq, Repr

/-- A ring declaration. -/
structure RingDecl where
  rows : Nat
  rowb : Nat
  depth : Nat
  skew : Bool
  pitch : Nat
  deriving DecidableEq, Repr

/-- A child rule as an image or SUPSET gives it. -/
structure RuleDecl where
  flock : Nat
  lo : Nat
  hi : Nat
  window : Nat
  maxr : Nat
  strat : Nat
  mode : Nat
  deriving DecidableEq, Repr

/-- An image. -/
structure Image where
  ga : Nat
  size : Nat
  codeSize : Nat
  codeOff : Nat
  depths : List Nat
  crDepth : Nat
  cchan : Nat
  mxdecl : Bool
  priv : Bool
  accDecl : BitVec 8
  accFmt : BitVec 8
  trapEntry : Option Nat
  handlers : List Handler
  regions : List RegDecl
  rings : List RingDecl
  cbs : List V256
  rules : List RuleDecl
  deriving DecidableEq, Repr

/-! ## Reading (R28, R241) -/

/-- A 4-bit count per channel. -/
def nibbles4 (v lo : Nat) : Vector Nat 4 := Vector.ofFn fun i => bits v (lo + 4 * i.val + 3) (lo + 4 * i.val)

/-- A handler descriptor from its two doublewords (R28). -/
def Handler.ofWords (d0 d1 : Nat) : Handler :=
  { req := BitVec.ofNat 4 (bits d0 63 60), eclass := bits d0 59 58, prod := bits d0 54 48, entry := bits d0 31 0,
    cnt := nibbles4 d1 32, use := nibbles4 d1 0 }

/-- Whether R29 accepts a handler descriptor. -/
def handlerOk (code d0 d1 : Nat) : Bool :=
  let h := Handler.ofWords d0 d1
  bits d0 57 55 == 0 && bits d0 47 32 == 0 && bits d1 63 48 == 0 && bits d1 31 16 == 0 && decide (h.req ≠ 0) &&
    [0, 1, 2, 3].all (fun c =>
      let n := h.cnt[c]?.getD 0
      if h.req.getLsbD c then decide (0 < n) && decide (h.use[c]?.getD 0 ≤ n) else n == 0) &&
    decide (h.prod ≤ 64) && h.entry % 4 == 0 && decide (h.entry < code)

/-- A region declaration (R241). -/
def RegDecl.ofWord (d : Nat) : RegDecl :=
  { size := bits d 8 0, kind := bits d 11 9, rd := bit d 12, wr := bit d 13, skew := bit d 14, pitch := bits d 20 15,
    init := bits d 63 32 }

/-- Whether a skew flag and a pitch agree (R84, R303). -/
def skewOk (skew : Bool) (pitch : Nat) : Bool := skew == decide (pitch ≠ 0)

/-- Whether R242 accepts a region declaration. -/
def regDeclOk (size d : Nat) : Bool :=
  let r := RegDecl.ofWord d
  decide (1 ≤ r.size) && decide (r.size ≤ 368) && (r.kind == kData || r.kind == kStream) && bits d 31 21 == 0 &&
    skewOk r.skew r.pitch && (r.init == 0 || decide (r.init + r.size * 1024 ≤ size))

/-- A ring declaration (R241). -/
def RingDecl.ofWord (d : Nat) : RingDecl :=
  { rows := bits d 4 0, rowb := bits d 8 5, depth := bits d 15 9, skew := bit d 16, pitch := bits d 22 17 }

/-- Whether the shape of a ring is one that R187 permits. -/
def ringShapeOk (rows rowb depth : Nat) : Bool :=
  decide (1 ≤ rows) && decide (rows ≤ 16) && decide (1 ≤ rowb) && decide (rowb ≤ 8) && decide (2 ≤ depth) && decide (depth ≤ 64)

/-- Whether R242 accepts a ring declaration. -/
def ringDeclOk (d : Nat) : Bool :=
  let r := RingDecl.ofWord d
  ringShapeOk r.rows r.rowb r.depth && bits d 63 23 == 0 && skewOk r.skew r.pitch

/-- Granules of a ring's region (R187). -/
def RingDecl.granules (r : RingDecl) : Nat := (r.depth * r.rows * r.rowb * 32 + 1023) / 1024

/-- A rule from its first three doublewords (R241, R314). -/
def RuleDecl.ofWords (d0 d1 d2 : Nat) : RuleDecl :=
  { flock := bits d0 63 48, lo := bits d0 47 0, hi := bits d1 47 0, window := bits d2 30 0, maxr := bits d2 34 31,
    strat := bits d2 36 35, mode := bits d2 38 37 }

/-- Whether a rule's values are ones that R159 assigns. -/
def RuleDecl.ok (r : RuleDecl) : Bool := decide (r.strat < 3) && decide (r.mode < 3) && decide (r.lo ≤ r.hi)

/-- Whether R242 accepts a child rule of an image. -/
def ruleDeclOk (d0 d1 d2 d3 : Nat) : Bool :=
  (RuleDecl.ofWords d0 d1 d2).ok && bits d0 63 48 == 0 && bits d1 63 48 == 0 && bits d2 63 39 == 0 && d3 == 0

/-- Granules of the mailbox for given depths (R174). -/
def mailboxGranules (depths : List Nat) : Nat := (64 + 80 * (depths.sum + 8) + 1023) / 1024

/-- Depths as R173 takes them: c0 at least 1, c3 at least 8, none for the completion channel. -/
def effectiveDepths (d0 d1 d2 d3 cchan : Nat) : List Nat :=
  [Max.max d0 1, if cchan = 1 then 0 else d1, if cchan = 2 then 0 else d2, Max.max d3 8]

/-- Granules of an image's code region. -/
def Image.codeGranules (i : Image) : Nat := (i.codeSize + 1023) / 1024

/-- Granules of an image's completion ring (R193). -/
def Image.cringGranules (i : Image) : Nat := (32 * i.crDepth + 1023) / 1024

/-- Granules of everything an image declares (R242). -/
def Image.granules (i : Image) : Nat :=
  i.codeGranules + (i.regions.map (·.size)).sum + (i.rings.map RingDecl.granules).sum + mailboxGranules i.depths + i.cringGranules

/-- A doubleword of global memory. -/
def State.gmem64 (s : State) (ga : Nat) : Nat := (s.gmem.read64 ga).toNat

/-- Whether the image store holds every byte of a range (R242): each page placed, in a range with a record. -/
def State.stored (s : State) (ga n : Nat) : Bool :=
  gaValid ga && gaClass ga == 2 && gaValid (ga + n) && gaClass (ga + n - 1) == 2 &&
    (List.range ((ga + n + 65535) / 65536 - ga / 65536)).all fun i =>
      s.placed.contains (ga / 65536 + i) && (s.hintOf (ga / 65536 + i)).isSome

/-- Whether doublewords `lo` to `hi` of the header are zero. -/
def State.zeroDws (s : State) (ga lo hi : Nat) : Bool := (List.range ((hi - lo) / 8)).all fun i => s.gmem64 (ga + lo + 8 * i) == 0

/-- The image at an address, for a flock; none where R29 or R242 refuses it. The spec describes no load into flock 0 by the management firmware:
any load of a PRIV image for flock 0 counts as one (log 120). -/
def State.image (s : State) (ga flock : Nat) : Option Image :=
  if !s.stored ga 0x410 then none
  else
    let d := fun (off : Nat) => s.gmem64 (ga + off)
    let w0 := d 0x000
    let w1 := d 0x008
    let w2 := d 0x010
    let w3 := d 0x018
    let w4 := d 0x020
    let nhand := bits w0 42 40
    let nreg := bits w0 46 43
    let nring := bits w0 49 47
    let ncb := bits w0 53 50
    let nrule := bits w2 42 38
    let size := bits w4 63 32
    let code := bits w1 31 0
    let codeOff := bits w1 63 32
    let cchan := bits w2 37 36
    let trapEntry := bits w4 31 0
    let hs := (List.range nhand).map fun i => (d (0x30 + 16 * i), d (0x38 + 16 * i))
    let rs := (List.range nreg).map fun i => d (0x70 + 8 * i)
    let gs := (List.range nring).map fun i => d (0xF0 + 8 * i)
    let us := (List.range nrule).map fun i => (d (0x210 + 32 * i), d (0x218 + 32 * i), d (0x220 + 32 * i), d (0x228 + 32 * i))
    let img : Image :=
      { ga := ga, size := size, codeSize := code, codeOff := codeOff,
        depths := effectiveDepths (bits w2 7 0) (bits w2 15 8) (bits w2 23 16) (bits w2 31 24) cchan,
        crDepth := 2 ^ (4 + bits w2 35 32), cchan := cchan, mxdecl := bit w0 54, priv := bit w0 56,
        accDecl := BitVec.ofNat 8 (bits w3 7 0), accFmt := BitVec.ofNat 8 (bits w3 15 8),
        trapEntry := if bit w0 55 then some trapEntry else none,
        handlers := hs.map fun h => Handler.ofWords h.1 h.2, regions := rs.map RegDecl.ofWord, rings := gs.map RingDecl.ofWord,
        cbs := (List.range ncb).map fun i => BitVec.ofNat 256 (ofBytes (s.gmem.readN (ga + 0x110 + 32 * i) 32)),
        rules := us.map fun u => RuleDecl.ofWords u.1 u.2.1 u.2.2.1 }
    let header := bits w0 31 0 == 0x4D494741 && bits w0 39 32 == 1 && bits w0 63 57 == 0 && bits w2 63 43 == 0 &&
      bits w3 63 16 == 0 && d 0x028 == 0
    let counts := decide (1 ≤ nhand) && decide (nhand ≤ 4) && decide (nreg ≤ 15) && decide (nring ≤ 4) && decide (ncb ≤ 8) &&
      decide (nrule ≤ 16) && decide (bits w2 35 32 ≤ 6) && decide (bits w2 31 24 ≤ 247) && decide (1 ≤ cchan)
    let beyond := s.zeroDws ga (0x30 + 16 * nhand) 0x70 && s.zeroDws ga (0x70 + 8 * nreg) 0xF0 &&
      s.zeroDws ga (0xF0 + 8 * nring) 0x110 && s.zeroDws ga (0x110 + 32 * ncb) 0x210 && s.zeroDws ga (0x210 + 32 * nrule) 0x410
    let codeOk := decide (code ≠ 0) && code % 4 == 0 && codeOff % 64 == 0 && decide (0x440 ≤ codeOff) && decide (codeOff + code ≤ size)
    let trapOk := if bit w0 55 then trapEntry % 4 == 0 && decide (trapEntry < code) else trapEntry == 0
    let decls := hs.all (fun h => handlerOk code h.1 h.2) && rs.all (regDeclOk size) && gs.all ringDeclOk &&
      us.all fun u => ruleDeclOk u.1 u.2.1 u.2.2.1 u.2.2.2
    let matrix := img.mxdecl || (nring == 0 && ncb == 0 && decide (img.accDecl = 0) && decide (img.accFmt = 0))
    if header && counts && beyond && codeOk && trapOk && decls && matrix && s.stored ga size && (!img.priv || flock == 0) &&
        decide (img.granules ≤ 368) then some img
    else none

/-- The measurement of an image (R162, R241): SHA-384 of bytes 0 to IMGSZ − 1. -/
def State.measure (s : State) (i : Image) : BitVec 384 := sha384 (s.gmem.readN i.ga i.size)

/-! ## Room (R163, R168, R184) -/

/-- Something that an image needs room for: what DETAIL of SUCC_SHAPE calls it (R168), and its region-table entry. -/
structure Need where
  what : Nat
  entry : RegEntry
  deriving DecidableEq, Repr

/-- The code region an image needs. DECL is 15 for it, for mailboxes and for both kinds of ring (log 94). -/
def Image.codeNeed (i : Image) (slot : Nat) : Need :=
  { what := 16, entry := { valid := true, size := i.codeGranules, owner := slot, kind := kCode, rd := true, decl := 15 } }

/-- The entry of a region declaration. -/
def RegDecl.entry (r : RegDecl) (slot d : Nat) : RegEntry :=
  { valid := true, size := r.size, owner := slot, kind := r.kind, rd := r.rd, wr := r.wr, skew := r.skew, pitch := r.pitch,
    decl := d }

/-- The region that a ring needs. -/
def RingDecl.need (r : RingDecl) (slot i : Nat) : Need :=
  { what := 20 + i,
    entry := { valid := true, size := r.granules, owner := slot, kind := kRing, rd := true, wr := true, skew := r.skew,
               pitch := r.pitch, decl := 15 } }

/-- The mailbox that an image needs. -/
def Image.mboxNeed (i : Image) (slot : Nat) : Need :=
  { what := 17, entry := { valid := true, size := mailboxGranules i.depths, owner := slot, kind := kMailbox, decl := 15 } }

/-- The completion ring that an image needs. -/
def Image.cringNeed (i : Image) (slot : Nat) : Need :=
  { what := 18, entry := { valid := true, size := i.cringGranules, owner := slot, kind := kCring, rd := true, decl := 15 } }

/-- All that an image needs, in the order of R168. -/
def Image.needs (i : Image) (slot : Nat) : List Need :=
  i.codeNeed slot :: (i.regions.zipIdx.map fun (r : RegDecl × Nat) => { what := r.2, entry := r.1.entry slot r.2 : Need }) ++
    (i.rings.zipIdx.map fun (r : RingDecl × Nat) => r.1.need slot r.2) ++ [i.mboxNeed slot, i.cringNeed slot]

/-- Allocates a region at the lowest base that fits, in the entry that R87 gives. -/
def Core.alloc (k : Core) (e : RegEntry) : Option (Nat × Core) :=
  match k.freeEntry, k.findRun e.size with
  | some i, some b => some (i, { k with regions := k.regions.put i { e with base := b, born := k.next } })
  | _, _ => none

/-- Allocates several needs in order: their entries' indices, or the first that finds no room. -/
def Core.allocAll (k : Core) : List Need → Except Nat (List (Nat × Nat) × Core)
  | [] => .ok ([], k)
  | n :: ns =>
    match k.alloc n.entry with
    | none => .error n.what
    | some (i, k1) =>
      match k1.allocAll ns with
      | .error w => .error w
      | .ok (l, k2) => .ok ((n.what, i) :: l, k2)

/-- The region-table index that a need was given. -/
def indexOfNeed (l : List (Nat × Nat)) (what : Nat) : Nat := ((l.find? (·.1 == what)).map (·.2)).getD 0

/-- Supervision entries free on a core (R159). -/
def Core.freeSups (k : Core) : List Nat := (List.range 64).filter fun i => (k.sups.find i).isNone

/-! ## Loading -/

/-- Bytes written into a region from its start, by the region's own placement (R88, R89). -/
def Core.fillRegion (k : Core) (i : Nat) (bs : List Byte) : Core :=
  let e := k.regions.get {} i
  (k.writeIn e (e.base * 1024) bs).1

/-- Loads an image's code into its region. -/
def State.loadCode (s : State) (k : Core) (img : Image) (i : Nat) : Core :=
  k.fillRegion i (s.gmem.readN (img.ga + img.codeOff) img.codeSize)

/-- Loads the INIT bytes of a declaration into its region (R88). -/
def State.loadInit (s : State) (k : Core) (img : Image) (r : RegDecl) (i : Nat) : Core :=
  if r.init = 0 then k else k.fillRegion i (s.gmem.readN (img.ga + r.init) (r.size * 1024))

/-- The four channel descriptors of an empty mailbox (R174). -/
def Core.initMailbox (k : Core) (slot : Nat) (depths : List Nat) : Core :=
  let caps := [depths[0]?.getD 1, depths[1]?.getD 0, depths[2]?.getD 0, depths[3]?.getD 8 + 8]
  [0, 1, 2, 3].foldl (fun k c => k.setChan slot c { base := (caps.take c).sum, cap := caps[c]?.getD 0, head := 0, cnt := 0 }) k

/-- A ring descriptor as image load sets it (R187). -/
def RingDecl.ring (r : RingDecl) (ridx : Nat) : Ring := { valid := true, ridx := ridx, rows := r.rows, rowb := r.rowb, depth := r.depth }

/-- A codebook slot as sixteen entries set it (R322): VALID where they form a valid codebook. -/
def Codebook.load (cb : V256) : Codebook := { valid := cbValid cb, entries := cb }

/-- The codebook slots that an image sets (R322), with the rest cleared. -/
def Image.codebooks (i : Image) : Vector Codebook 8 := Vector.ofFn fun j => ((i.cbs[j.val]?).map Codebook.load).getD {}

/-- The supervision entry of a rule (R159): FLOCK 0 is the supervisor's own flock. -/
def RuleDecl.entry (r : RuleDecl) (slot rule own : Nat) : SupEntry :=
  { slot := slot, rule := rule, flock := if r.flock = 0 then own else r.flock, lo := r.lo, hi := r.hi, mode := r.mode,
    strat := r.strat, maxr := r.maxr, window := r.window }

/-- Loads the child rules of an image for a supervisor, with no stamps (R159). -/
def Core.loadRules (k : Core) (img : Image) (slot own : Nat) : Core :=
  (img.rules.zipIdx.zip k.freeSups).foldl (fun k p => { k with sups := k.sups.put p.2 (p.1.1.entry slot p.1.2 own) }) k

/-- The fields that an image sets in an actor's slot, once its regions stand (R150). -/
def Actor.withImage (a : Actor) (img : Image) (l : List (Nat × Nat)) : Actor :=
  { a with
    image := BitVec.ofNat 64 img.ga, mxdecl := img.mxdecl, priv := img.priv, handlers := img.handlers, trapEntry := img.trapEntry
    code := indexOfNeed l 16, accDecl := img.accDecl, accFmt := img.accFmt, cbs := img.codebooks, cchan := img.cchan }

/-- Whether a core can start an actor of an image now (R184): a free slot, room for everything, and supervision entries. -/
def Core.freeSlot (k : Core) : Option Nat := (List.range 64).find? fun i => decide ((k.actor i).state = .free)

/-- Creation of an actor in a slot of a core (R151, R163 steps 4 and 5): its regions are allocated and loaded, its tables set, and its
initial message placed on c0; the slot is loading. None where the core lacks room. -/
def State.install (s : State) (core slot : Nat) (img : Image) (name : W64) (inc : BitVec 8) (fl : Flock) (msg : Vector W64 8)
    (sender : W64) (sinc : BitVec 8) : Option Core :=
  let k := s.core core
  let now := s.now core
  match k.allocAll (img.needs slot) with
  | .error _ => none
  | .ok (l, k1) =>
    if k.freeSups.length < img.rules.length then none
    else
      let k2 := s.loadCode k1 img (indexOfNeed l 16)
      let k3 := img.regions.zipIdx.foldl (fun k r => s.loadInit k img r.1 (indexOfNeed l r.2)) k2
      let a : Actor := { state := .loading, name := name, incarn := inc, domain := fl.domain, prio := fl.prio, eprio := fl.prio,
                         wdog := fl.wdog }
      let rings : Vector Ring 4 := Vector.ofFn fun i => ((img.rings[i.val]?).map fun r => r.ring (indexOfNeed l (20 + i.val))).getD {}
      let a1 : Actor := { a.withImage img l with
        mbox := indexOfNeed l 17, cring := indexOfNeed l 18, crDepth := img.crDepth, rings := rings }
      let k4 := { k3 with slots := k3.slots.put slot a1 }
      let k5 := (k4.initMailbox slot img.depths).loadRules img slot (flockOf name)
      some (k5.placeEntry slot 0 now (header mInitial 0 sinc now) sender msg)

end Sys2Proof.Machine
end

