-- ==== Sys2Proof/Machine/Tile.lean ====
section
/-! DEFINITION. Tile commands (R318 to R336): MCMD with its checks, the matrix command queue and its sequencer (R185, R186, R321), the
operand rings (R187 to R189), and every tile command. -/

namespace Sys2Proof.Machine

/-! ## The command word (R237, R329) -/

/-- A doubleword of a command. -/
def cmdDw (c : V256) (i : Nat) : Nat := lane 64 c i
/-- OPC. -/
def cmdOpc (c : V256) : Nat := bits (cmdDw c 0) 7 0
/-- ACC, or SLOT of MLOADCB. -/
def cmdAcc (c : V256) : Nat := bits (cmdDw c 0) 10 8
/-- SRC of MMOVE and MADDACC. -/
def cmdSrc (c : V256) : Nat := bits (cmdDw c 0) 13 11
/-- M. -/
def cmdM (c : V256) : Nat := bits (cmdDw c 0) 23 20 + 1
/-- N. -/
def cmdN (c : V256) : Nat := bits (cmdDw c 0) 27 24 + 1
/-- K. -/
def cmdK (c : V256) : Nat := bits (cmdDw c 0) 35 28 + 1
/-- OVW. -/
def cmdOvw (c : V256) : Bool := (cmdDw c 0).testBit 13
/-- RINGA. -/
def cmdRingA (c : V256) : Nat := bits (cmdDw c 0) 17 16
/-- RINGB. -/
def cmdRingB (c : V256) : Nat := bits (cmdDw c 0) 19 18
/-- RING of MRING. -/
def cmdRing (c : V256) : Nat := bits (cmdDw c 0) 9 8
/-- ROP of MRING. -/
def cmdRop (c : V256) : Nat := bits (cmdDw c 0) 11 10
/-- MODE of MCHK. -/
def cmdMode (c : V256) : Nat := bits (cmdDw c 0) 9 8
/-- FMT of MSTORE, MDRAIN and MLOADACC. -/
def cmdFmt (c : V256) : Nat := bits (cmdDw c 0) 19 16
/-- ADDR of MLOADCB, MSTORE and MLOADACC. -/
def cmdAddr (c : V256) : Nat := bits (cmdDw c 1) 19 0
/-- PITCH of MSTORE and MLOADACC. -/
def cmdPitch (c : V256) : Nat := bits (cmdDw c 1) 35 20
/-- The shape record of A or B (R238). -/
def cmdShape (c : V256) (b : Bool) : Nat := if b then bits (cmdDw c 1) 63 32 else bits (cmdDw c 1) 31 0
/-- OFFSET of a shape record. -/
def shOffset (h : Nat) : Nat := bits h 31 20
/-- ESTR of a shape record. -/
def shEstr (h : Nat) : Nat := bits h 19 16
/-- RSTR of a shape record in bytes: 0 stands for the ring's row (R323). -/
def shRstr (h : Nat) (g : Ring) : Nat := if bits h 15 4 = 0 then g.rowb * 32 else bits h 15 4

/-- The element formats of the multiply-accumulate commands. -/
inductive TFmt where
  | bf16 | fp16 | e4 | e5 | c4 | s8 | n8
  deriving DecidableEq, Repr

/-- A multiply-accumulate opcode (R239): formats of A and B, KMAX, and the dot group of R324. -/
structure MmaOp where
  a : TFmt
  b : TFmt
  kmax : Nat
  group : Nat
  deriving DecidableEq, Repr

/-- The multiply-accumulate opcodes of R239. -/
def mmaOp (opc : Nat) : Option MmaOp :=
  match opc with
  | 0x10 => some ⟨.bf16, .bf16, 128, 16⟩
  | 0x11 => some ⟨.fp16, .fp16, 128, 16⟩
  | 0x20 => some ⟨.e4, .e4, 256, 32⟩
  | 0x21 => some ⟨.e4, .e5, 256, 32⟩
  | 0x22 => some ⟨.e5, .e4, 256, 32⟩
  | 0x23 => some ⟨.e5, .e5, 256, 32⟩
  | 0x30 => some ⟨.c4, .c4, 256, 32⟩
  | 0x31 => some ⟨.c4, .e4, 256, 32⟩
  | 0x32 => some ⟨.e4, .c4, 256, 32⟩
  | 0x38 => some ⟨.s8, .s8, 256, 32⟩
  | 0x39 => some ⟨.n8, .s8, 256, 32⟩
  | _ => none

/-- Whether an opcode accumulates integers (R327). -/
def MmaOp.integer (p : MmaOp) : Bool := p.b == .s8

/-- Element size of a format in nibbles (R323). -/
def TFmt.nibbles : TFmt → Nat
  | .bf16 | .fp16 => 4
  | .e4 | .e5 | .s8 | .n8 => 2
  | .c4 => 1

/-- The bits of DW0 and DW1 that a command's layout gives a field, the opcode among them (R237, R329); none for an unassigned
opcode. -/
def cmdLayout (c : V256) : Option (Nat × Nat) :=
  match mmaOp (cmdOpc c) with
  | some p =>
    some (2 ^ 36 - 1 + (if p.a = .c4 then 0x7 <<< 37 else 0) + (if p.b = .c4 then 0x7 <<< 40 else 0), 0xFFFFFFF0FFFFFFF0)
  | none =>
    match cmdOpc c with
    | 0x01 => some (0xFF, 0)
    | 0x02 => some (0x7FF, 0)
    | 0x03 => some (0x7FF, 0xFFFFF)
    | 0x04 => some (0xFFF, if cmdRop c = 1 then 0 else 0xFFFF)
    | 0x05 => some (0x3FF, 0)
    | 0x06 | 0x09 => some (0x3FFF, 0)
    | 0x08 => some (0x7FF, 0xFFFFFFFF)
    | 0x0A | 0x0C => some (0x0FFF07FF, 2 ^ 36 - 1)
    | 0x0B => some (0x3FFF07FF, 2 ^ 44 - 1)
    | _ => none

/-- The accumulators that a command names. -/
def cmdAccs (c : V256) : List Nat :=
  if (mmaOp (cmdOpc c)).isSome then [cmdAcc c]
  else
    match cmdOpc c with
    | 0x02 | 0x08 | 0x0A | 0x0B | 0x0C => [cmdAcc c]
    | 0x06 | 0x09 => [cmdAcc c, cmdSrc c]
    | _ => []

/-- The rings whose tiles a command reads: one tile of each (R318). -/
def cmdReads (c : V256) : List Nat := if (mmaOp (cmdOpc c)).isSome then [cmdRingA c, cmdRingB c].eraseDups else []

/-- The rings that a command reads or changes (R169). -/
def cmdRings (c : V256) : List Nat := if cmdOpc c = 0x04 then [cmdRing c] else cmdReads c

/-- The rings that a command pops a tile of (R189): once where A and B share a ring. -/
def cmdPops (c : V256) : List Nat :=
  if (mmaOp (cmdOpc c)).isSome then
    ((if (cmdDw c 0).testBit 14 then [cmdRingA c] else []) ++ (if (cmdDw c 0).testBit 15 then [cmdRingB c] else [])).eraseDups
  else []

/-! ## Accumulators and rings of an actor -/

/-- Element (r, c) of an accumulator (R66). -/
def Actor.accAt (a : Actor) (i r c : Nat) : Nat := (a.acc.get 0 (256 * i + 16 * r + c)).toNat

/-- Writes an element. -/
def Actor.setAcc (a : Actor) (i r c v : Nat) : Actor :=
  { a with acc := SMap.set 0 a.acc (256 * i + 16 * r + c) (BitVec.ofNat 32 v) }

/-- Writes elements in turn. -/
def Actor.setAccs (a : Actor) (i : Nat) (es : List (Nat × Nat × Nat)) : Actor :=
  es.foldl (fun a e => a.setAcc i e.1 e.2.1 e.2.2) a

/-- Sets ACCSTAT.UNCHK of an accumulator. -/
def Actor.setUnchk (a : Actor) (i : Nat) (b : Bool) : Actor :=
  { a with accUnchk := if b then a.accUnchk ||| (1#8 <<< i) else a.accUnchk &&& ~~~(1#8 <<< i) }

/-- Whether an accumulator is declared. -/
def Actor.accHas (a : Actor) (i : Nat) : Bool := a.accDecl.getLsbD i
/-- Whether an accumulator is S32. -/
def Actor.accInt (a : Actor) (i : Nat) : Bool := a.accFmt.getLsbD i

/-- An operand ring. -/
def Actor.ring (a : Actor) (r : Nat) : Ring := (a.rings[r]?).getD {}
/-- Changes an operand ring. -/
def Actor.onRing (a : Actor) (r : Nat) (f : Ring → Ring) : Actor := { a with rings := a.rings.setIfInBounds r (f (a.ring r)) }

/-- Bytes of a tile (R187). -/
def Ring.tileBytes (g : Ring) : Nat := g.rows * g.rowb * 32

/-- Whether a tile command of a slot that names an accumulator is queued or running (ACCSTAT.BUSY, R321). -/
def Core.accBusy (k : Core) (slot i : Nat) : Bool := k.mq.any fun c => c.slot == slot && (cmdAccs c.cmd).contains i

/-! ## Element formats of MSTORE, MDRAIN and MLOADACC (R333) -/

/-- Bytes of an element of an FMT. -/
def fmtBytes (fmt : Nat) : Nat :=
  match fmt with
  | 0x1 | 0xA => 4
  | 0x2 | 0x3 => 2
  | _ => 1

/-- The FMT values that a command permits for an accumulator (R333). -/
def fmtsOf (load s32 : Bool) : List Nat :=
  if load then (if s32 then [0xA] else [0x1]) else if s32 then [0xA, 0x8] else [0x1, 0x2, 0x3, 0x4, 0x5]

/-- An element of an accumulator converted to an FMT (R333): R223 with nearest even, no flag. -/
def convOut (fmt v : Nat) : Nat :=
  match fmt with
  | 0x2 => (convert .fp32 .fp16 0 v).1
  | 0x3 => (convert .fp32 .bf16 0 v).1
  | 0x4 => (NFmt.ofIeee .e4 .fp32 v).1
  | 0x5 => (NFmt.ofIeee .e5 .fp32 v).1
  | 0x8 => wrapInt 8 (satInt true 8 (signed 32 v)).1
  | _ => v

/-- Whether an FP32 pattern is finite. -/
def fin32 (v : Nat) : Bool := (FFmt.fp32.read v).isFinite

/-! ## Check (R319) -/

/-- Whether a shape record's values are permitted (test 3): ESTR, and OFFSET and RSTR multiples of the element size (R323). -/
def shapeOk (h : Nat) (f : TFmt) : Bool :=
  let e := f.nibbles / 2
  decide (shEstr h ≠ 0) && (e == 0 || (shOffset h % e == 0 && bits h 15 4 % e == 0))

/-- Test 3 of R319: every field holds an assigned value within its range. An FMT for an accumulator that is not declared need only be
one that some accumulator permits. -/
def Core.cmdFields (k : Core) (a : Actor) (c : V256) : Bool :=
  match mmaOp (cmdOpc c) with
  | some p => decide (cmdK c ≤ p.kmax) && shapeOk (cmdShape c false) p.a && shapeOk (cmdShape c true) p.b
  | none =>
    match cmdOpc c with
    | 0x04 =>
      let d := cmdDw c 1
      let rows := bits d 4 0
      let rowb := bits d 8 5
      let depth := bits d 15 9
      cmdRop c == 1 ||
        (cmdRop c == 0 && decide (1 ≤ rows ∧ rows ≤ 16 ∧ 1 ≤ rowb ∧ rowb ≤ 8 ∧ 2 ≤ depth ∧ depth ≤ 64) &&
          (!(a.ring (cmdRing c)).valid ||
            decide (depth * rows * rowb * 32 ≤ (k.regions.get {} (a.ring (cmdRing c)).ridx).size * 1024)))
    | 0x05 => decide (cmdMode c ≤ 1)
    | 0x0A | 0x0B | 0x0C =>
      let load := cmdOpc c == 0x0C
      if a.accHas (cmdAcc c) then (fmtsOf load (a.accInt (cmdAcc c))).contains (cmdFmt c)
      else (fmtsOf load false ++ fmtsOf load true).contains (cmdFmt c)
    | _ => true

/-- Test 4 of R319: the accumulator that is not declared or lacks the format that the command requires. -/
def Actor.cmdBadAcc (a : Actor) (c : V256) : Option Nat :=
  match (cmdAccs c).find? fun i => !a.accHas i with
  | some i => some i
  | none =>
    let x := cmdAcc c
    match mmaOp (cmdOpc c) with
    | some p => if a.accInt x = p.integer then none else some x
    | none =>
      if cmdOpc c = 0x08 ∧ a.accInt x then some x
      else if (cmdOpc c = 0x06 ∨ cmdOpc c = 0x09) ∧ a.accInt x ≠ a.accInt (cmdSrc c) then some (cmdSrc c)
      else none

/-- Whether the last element of an operand of `n` rows lies within its tile (R323). -/
def inTile (h : Nat) (f : TFmt) (g : Ring) (n kk : Nat) : Bool :=
  decide (2 * (shOffset h + (n - 1) * shRstr h g) + (kk - 1) * shEstr h * f.nibbles + f.nibbles ≤ 2 * g.tileBytes)

/-- Test 5 of R319: the ring that is not declared, or whose tile an operand leaves. -/
def Actor.cmdBadRing (a : Actor) (c : V256) : Option Nat :=
  match mmaOp (cmdOpc c) with
  | some p =>
    let ga := a.ring (cmdRingA c)
    let gb := a.ring (cmdRingB c)
    if !ga.valid || !inTile (cmdShape c false) p.a ga (cmdM c) (cmdK c) then some (cmdRingA c)
    else if !gb.valid || !inTile (cmdShape c true) p.b gb (cmdN c) (cmdK c) then some (cmdRingB c)
    else none
  | none => if cmdOpc c = 0x04 ∧ !(a.ring (cmdRing c)).valid then some (cmdRing c) else none

/-- Check() (R319): the sub-cause and the index shown of the first test that fails. -/
def Core.cmdCheck (k : Core) (a : Actor) (c : V256) : Option (Nat × Nat) :=
  match cmdLayout c with
  | none => some (0x01, 0)
  | some (m0, m1) =>
    if cmdDw c 0 &&& m0 ≠ cmdDw c 0 ∨ cmdDw c 1 &&& m1 ≠ cmdDw c 1 ∨ cmdDw c 2 ≠ 0 ∨ cmdDw c 3 ≠ 0 then some (0x02, 0)
    else if !k.cmdFields a c then some (0x05, 0)
    else
      match a.cmdBadAcc c with
      | some i => some (0x03, i)
      | none => (a.cmdBadRing c).map fun r => (0x04, r)

/-- The local range that a command names (R333): address, bytes, the alignment of its parts, and whether it stores. -/
def cmdRange (c : V256) : Option (Nat × Nat × Nat × Bool) :=
  match cmdOpc c with
  | 0x03 => some (cmdAddr c, 32, 32, false)
  | 0x0A | 0x0C =>
    let e := fmtBytes (cmdFmt c)
    some (cmdAddr c, (cmdM c - 1) * cmdPitch c + cmdN c * e, e, cmdOpc c == 0x0A)
  | _ => none

/-- DETAIL of TILE_CMD (R319). -/
def cmdDetail (c : V256) (i : Nat) : Nat := cmdOpc c + i % 256 * 256

/-! ## MCMD -/

/-- A command joins the queue (R318): MT and QPOP rise. -/
def Core.pushCmd (k : Core) (t : Thread) (c : V256) (sca scb : W64) (tset ridx : Nat) : Core :=
  let e : TileCmd := { cmd := c, sca := sca, scb := scb, slot := t.slot, tset := tset, ridx := ridx, born := (k.regions.get {} ridx).born, order := k.next, pc := t.pc }
  let k1 : Core := { k with mq := k.mq ++ [e], next := k.next + 1 }
  k1.onActor t.slot fun a => (cmdPops c).foldl (fun a r => a.onRing r fun g => { g with qpop := g.qpop + 1 }) { a with mt := a.mt + 1 }

/-- MCMD (R318): Checks a tile command and appends it with two captured scales to the matrix queue. -/
def execMcmd (d a b : Reg) (s : State) : Answer :=
  if coreIsMem s.cur || !s.th.status.getLsbD 2 then s.illegal 0x06
  else
    s.withV [a] [d, b] 0 fun t => s.access <|
      let c := t.readV a
      let me := s.self
      match s.me.cmdCheck me c with
      | some (sub, i) => s.trap rTileCmd sub (cmdDetail c i)
      | none =>
        let push := fun (ridx : Nat) =>
          if s.me.mq.length ≥ 32 ∨ me.mt ≥ 63 ∨ (cmdReads c).any fun r => decide ((me.ring r).cnt < (me.ring r).qpop + 1) then s.stall
          else (s.onMe fun k => k.pushCmd t c (t.readX d) (t.readX b) k.tset ridx).finish id
        match cmdRange c with
        | none => push 0
        | some (va, n, e, store) =>
          if va % e ≠ 0 ∨ (cmdOpc c ≠ 0x03 ∧ cmdPitch c % e ≠ 0) then s.trap rMisalign 0 e (BitVec.ofNat 64 va)
          else
            match s.me.checkLocal t.slot va n store with
            | .error x => s.trap rRegionDeny x.1 x.2 (BitVec.ofNat 64 va)
            | .ok g =>
              match s.me.findRegion t.slot va with
              | none => s.stall
              | some (i, _) =>
                if g.kind ≠ kData ∧ g.kind ≠ kRing then s.trap rRegionDeny 0x04 i (BitVec.ofNat 64 va)
                else push i

/-! ## The sequencer (R185, R189, R320, R321) -/

/-- A command leaves the queue without popping (R189): MT falls, and its QPOP counts come back. -/
def Core.giveBack (k : Core) (c : TileCmd) : Core :=
  k.onActor c.slot fun a =>
    (cmdPops c.cmd).foldl (fun a r => a.onRing r fun g => { g with qpop := g.qpop - 1 }) { a with mt := a.mt - 1 }

/-- The queued commands of a slot that a test picks are abandoned (R189). -/
def Core.abandon (k : Core) (slot : Nat) (which : V256 → Bool) : Core :=
  let go := fun (c : TileCmd) => c.slot == slot && which c.cmd
  (k.mq.filter go).foldl Core.giveBack { k with mq := k.mq.filter (!go ·) }

/-- The head command retires with what it has done to its core (R321): its tiles are popped and MT falls, for MDRAIN when its closing
message is placed or refused. -/
def Core.retireCmd (k : Core) (c : TileCmd) : Core :=
  let k1 : Core := { k with mq := k.mq.drop 1 }
  k1.onActor c.slot fun a =>
    (cmdPops c.cmd).foldl (fun a r => a.onRing r fun g =>
      { g with head := (g.head + 1) % g.depth, cnt := g.cnt - 1, qpop := g.qpop - 1 })
      { a with mt := if cmdOpc c.cmd = 0x0B then a.mt else a.mt - 1 }

/-- The head command is found faulty at execution (R320): it retires with no effect, the actor's later commands are abandoned, and the
fault is deferred. -/
def Core.faultCmd (k : Core) (c : TileCmd) (sub i : Nat) : Core :=
  let k1 : Core := { k with mq := k.mq.drop 1 }
  ((k1.giveBack c).abandon c.slot fun _ => true).deferFault c.slot
    { cause := BitVec.ofNat 64 (2 ^ 63 + rTileCmd * 2 ^ 40 + sub * 2 ^ 32 + cmdDetail c.cmd i), va := 0, pc := c.pc, age := c.order }

/-- Runs the head command of a core's queue where it is of an opcode, by what it does to the core or the deferred fault it meets. -/
def State.runCmd (s : State) (core : Nat) (which : V256 → Bool) (f : Core → TileCmd → Except (Nat × Nat) Core) : Option State :=
  let k := s.core core
  match k.mq with
  | [] => none
  | c :: _ =>
    if which c.cmd then
      match f k c with
      | .ok k1 => some (s.setCore core (k1.retireCmd c))
      | .error (sub, i) => some (s.setCore core (k.faultCmd c sub i))
    else none

/-- Whether a command has an opcode. -/
def isOpc (opc : Nat) (c : V256) : Bool := cmdOpc c == opc

/-! ## Multiply-accumulate commands (R323 to R328) -/

/-- The local byte addresses of a ring's region at which the tile at HEAD begins. -/
def Core.tileBase (k : Core) (g : Ring) (tile : Nat) : Nat := k.regionBase g.ridx + tile * g.tileBytes

/-- The code of one element of an operand (R323), read from the tile at HEAD, at a place counted in nibbles; a bank word with an
uncorrectable error reads as zero (R83). -/
def Core.elemCode (k : Core) (g : Ring) (f : TFmt) (at2 : Nat) : Nat :=
  let e := k.regions.get {} g.ridx
  let byte := fun (b : Nat) =>
    let p := e.place (k.tileBase g g.head + b)
    if k.bad.contains (p / 8) then 0 else (k.mem.read p).toNat
  match f.nibbles with
  | 4 => byte (at2 / 2) + 256 * byte (at2 / 2 + 1)
  | 1 => if at2 % 2 = 1 then byte (at2 / 2) / 16 else byte (at2 / 2) % 16
  | _ => byte (at2 / 2)

/-- The place of an element in its tile, in nibbles (R323). -/
def elemAt (h : Nat) (f : TFmt) (g : Ring) (row kk : Nat) : Nat :=
  2 * (shOffset h + row * shRstr h g) + kk * shEstr h * f.nibbles

/-- The physical bank words that an operand's elements occupy, in the order they are read. -/
def Core.elemWords (k : Core) (g : Ring) (f : TFmt) (h n kk : Nat) : List Nat :=
  let e := k.regions.get {} g.ridx
  (List.range n).flatMap fun i => (List.range kk).map fun j => e.place (k.tileBase g g.head + elemAt h f g i j / 2) / 8

/-- The value of a code (R324): for floating-point formats the element with its block's scale, for integers the integer. -/
def TFmt.value (f : TFmt) (code scale : Nat) (cb : V256) : Num :=
  let int := fun (v : Int) => Num.fin (decide (v < 0)) v.natAbs 0
  match f with
  | .bf16 => FFmt.bf16.read code
  | .fp16 => FFmt.fp16.read code
  | .e4 => scaledNum scale (NFmt.e4.read code)
  | .e5 => scaledNum scale (NFmt.e5.read code)
  | .c4 => scaledNum scale (cbValue cb code)
  | .s8 => int (signed 8 code)
  | .n8 => int code

/-- The rows of an operand as values (R323, R324), with its captured scales and its negation. -/
def Core.operand (k : Core) (g : Ring) (f : TFmt) (h n kk : Nat) (scales : W64) (cb : V256) (neg : Bool) : List (List Num) :=
  (List.range n).map fun i => (List.range kk).map fun j =>
    let v := f.value (k.elemCode g f (elemAt h f g i j)) (bits scales.toNat (8 * (j / 32) + 7) (8 * (j / 32))) cb
    if neg then v.neg else v

/-- One product (R325): none where it is NaN. -/
def prod (x y : Num) : Option Num :=
  match Num.mul x y with
  | some (.nan _) => none
  | r => r

/-- GroupSum (R325): an FP32 pattern. -/
def groupSum (ps : List (Option Num)) : Nat :=
  if ps.any Option.isNone then FFmt.fp32.nan
  else
    let qs := ps.filterMap id
    let infs := qs.filterMap fun q => match q with
      | .inf n => some n
      | _ => none
    if infs.contains true && infs.contains false then FFmt.fp32.nan
    else
      match infs with
      | n :: _ => FFmt.fp32.inf n
      | [] =>
        let e0 := qs.foldl (fun (e : Int) q => match q with
          | .fin _ _ x => Min.min e x
          | _ => e) (10 ^ 6)
        let v := qs.foldl (fun (t : Int) q => match q with
          | .fin n m x => t + scaled n m x e0
          | _ => t) 0
        let allNeg := qs.all fun q => match q with
          | .fin n _ _ => n
          | _ => false
        if v = 0 then FFmt.fp32.zero allNeg else (FFmt.fp32.round rneIeee (decide (v < 0)) v.natAbs e0).1

/-- acc + S (R324, R325). -/
def accPlus (acc v : Nat) : Nat := (FFmt.fp32.addNum rneIeee (FFmt.fp32.read acc) (FFmt.fp32.read v)).1

/-- The groups of a dot product, in increasing k (R324). -/
def dotGroups (group : Nat) : Nat → List Num → List Num → List Nat
  | 0, _, _ => []
  | n + 1, xs, ys =>
    if xs.isEmpty then []
    else groupSum (((xs.take group).zip (ys.take group)).map fun p => prod p.1 p.2) ::
      dotGroups group n (xs.drop group) (ys.drop group)

/-- A new element of a floating-point accumulator (R324). -/
def dotFloat (group : Nat) (ovw : Bool) (old : Nat) (xs ys : List Num) : Nat :=
  match dotGroups group xs.length xs ys with
  | [] => if ovw then 0 else old
  | g :: gs => gs.foldl accPlus (if ovw then g else accPlus old g)

/-- The exact integer that a value stands for. -/
def Num.int : Num → Int
  | .fin n m e => scaled n m e 0
  | _ => 0

/-- A new element of an integer accumulator (R326). -/
def dotInt (ovw : Bool) (old : Nat) (xs ys : List Num) : Nat :=
  wrapInt 32 ((if ovw then 0 else signed 32 old) + ((xs.zip ys).map fun p => p.1.int * p.2.int).sum)

/-- The operands of a multiply-accumulate command, or the codebook slot that is not valid (R320, R322). -/
def Core.mmaOperands (k : Core) (c : TileCmd) (p : MmaOp) : Except Nat (List (List Num) × List (List Num)) :=
  let a := k.actor c.slot
  let d0 := cmdDw c.cmd 0
  let cba := bits d0 39 37
  let cbb := bits d0 42 40
  let book := fun (f : TFmt) (i : Nat) =>
    if f = .c4 then (let b := (a.cbs[i]?).getD {}; if b.valid then some b.entries else none) else some 0
  match book p.a cba, book p.b cbb with
  | none, _ => .error cba
  | _, none => .error cbb
  | some x, some y =>
    .ok (k.operand (a.ring (cmdRingA c.cmd)) p.a (cmdShape c.cmd false) (cmdM c.cmd) (cmdK c.cmd) c.sca x (d0.testBit 11),
      k.operand (a.ring (cmdRingB c.cmd)) p.b (cmdShape c.cmd true) (cmdN c.cmd) (cmdK c.cmd) c.scb y (d0.testBit 12))

/-- The new elements of the accumulator (R324, R326). -/
def mmaResult (a : Actor) (c : V256) (p : MmaOp) (xs ys : List (List Num)) : List (Nat × Nat × Nat) :=
  xs.zipIdx.flatMap fun x => ys.zipIdx.map fun y =>
    let old := a.accAt (cmdAcc c) x.2 y.2
    (x.2, y.2, if p.integer then dotInt (cmdOvw c) old x.1 y.1 else dotFloat p.group (cmdOvw c) old x.1 y.1)

/-- The bank words with an uncorrectable error that the operands of a command meet (R83). -/
def Core.mmaBad (k : Core) (c : TileCmd) (p : MmaOp) : List Nat :=
  if k.bad.isEmpty then []
  else
    let a := k.actor c.slot
    ((k.elemWords (a.ring (cmdRingA c.cmd)) p.a (cmdShape c.cmd false) (cmdM c.cmd) (cmdK c.cmd)) ++
      (k.elemWords (a.ring (cmdRingB c.cmd)) p.b (cmdShape c.cmd true) (cmdN c.cmd) (cmdK c.cmd))).eraseDups.filter k.bad.contains

/-- Whether a command is compared with its checksums (R328). -/
def mmaCompared (a : Actor) (c : V256) (p : MmaOp) (xs ys : List (List Num)) (new : List (Nat × Nat × Nat)) : Bool :=
  !a.chkoff &&
    (p.integer || ((xs ++ ys).all (fun r => r.all Num.isFinite) &&
      new.all fun e => fin32 e.2.2 && (cmdOvw c || fin32 (a.accAt (cmdAcc c) e.1 e.2.1))))

/-- One checksum (R328): the exact sums C and P of a column, with the magnitude B, from the old and new elements of the column, the rows of
the one operand and the column's vector of the other. For a row the operands change places. -/
def checksum (olds news : List Dyadic) (rows : List (List Dyadic)) (y : List Dyadic) : Dyadic × Dyadic × Dyadic :=
  let sums := (List.range y.length).map fun k => Dyadic.sum (rows.map fun r => (r[k]?).getD ⟨0, 0⟩)
  (Dyadic.sum ((news.zip olds).map fun p => p.1.add p.2.neg), Dyadic.sum ((sums.zip y).map fun p => p.1.mul p.2),
    Dyadic.sum ((olds.map Dyadic.abs) ++ (news.map Dyadic.abs) ++ rows.flatMap fun r => (r.zip y).map fun p => (p.1.mul p.2).abs))

/-- Whether a checksum passes (R328): within 2^-18 of its magnitude, or for integers modulo 2^32. -/
def checksumPasses (integer : Bool) (r : Dyadic × Dyadic × Dyadic) : Bool :=
  let d := r.1.dist r.2.1
  if integer then decide ((d.n * 2 ^ d.e.toNat) % 2 ^ 32 = 0) else d.le ⟨r.2.2.n, r.2.2.e - 18⟩

/-- Whether every row and column of a command passes (R328). -/
def mmaPasses (a : Actor) (c : V256) (p : MmaOp) (xs ys : List (List Num)) (new : List (Nat × Nat × Nat)) : Bool :=
  let num := fun (v : Nat) => if p.integer then (⟨signed 32 v, 0⟩ : Dyadic) else (FFmt.fp32.read v).dyadic
  let old := fun (i j : Nat) => if cmdOvw c then (⟨0, 0⟩ : Dyadic) else num (a.accAt (cmdAcc c) i j)
  let dx := xs.map (·.map Num.dyadic)
  let dy := ys.map (·.map Num.dyadic)
  let line := fun (sel : Nat × Nat × Nat → Bool) (rows : List (List Dyadic)) (y : List Dyadic) =>
    let es := new.filter sel
    checksumPasses p.integer (checksum (es.map fun e => old e.1 e.2.1) (es.map fun e => num e.2.2) rows y)
  (dy.zipIdx.all fun y => line (fun e => e.2.1 == y.2) dx y.1) && dx.zipIdx.all fun x => line (fun e => e.1 == x.2) dy x.1

/-- The runs of a command whose checksums fail (R328): both where its own arithmetic does not pass, else `badRuns`, the runs in which the
matrix unit went wrong (log 20). -/
def Core.failedRuns (k : Core) (c : TileCmd) (p : MmaOp) (xs ys : List (List Num)) (badRuns : Nat) : Nat :=
  let a := k.actor c.slot
  if mmaPasses a c.cmd p xs ys (mmaResult a c.cmd p xs ys) then badRuns else 2

/-- A multiply-accumulate command on a core (R324 to R328). -/
def Core.mma (badRuns : Nat) (k : Core) (c : TileCmd) : Except (Nat × Nat) Core :=
  match mmaOp (cmdOpc c.cmd) with
  | none => .ok k
  | some p =>
    match k.mmaOperands c p with
    | .error i => .error (0x07, i)
    | .ok (xs, ys) =>
      let a := k.actor c.slot
      let i := cmdAcc c.cmd
      let new := mmaResult a c.cmd p xs ys
      let hurt := k.mmaBad c p
      let k0 : Core := { k with macs := k.macs ++ [(a.domain, cmdM c.cmd * cmdN c.cmd * cmdK c.cmd / 256)] }
      if !hurt.isEmpty || !mmaCompared a c.cmd p xs ys new then
        .ok ((hurt.foldl (fun k w => k.recordErr c.slot 0 (bankAddr w)) k0).onActor c.slot fun a => (a.setAccs i new).setUnchk i true)
      else
        let runs := k.failedRuns c p xs ys badRuns
        let k1 := if runs > 0 then k0.countOf c.slot 0x09 else k0
        if runs > 1 then
          let g := a.ring (cmdRingA c.cmd)
          .ok ((k1.recordErr c.slot 0 (BitVec.ofNat 64 (k.tileBase g g.head))).onActor c.slot fun a => a.setUnchk i false)
        else .ok (k1.onActor c.slot fun a => (a.setAccs i new).setUnchk i false)

/-- A matrix unit's failed checksum rerun, as the count of R386 keeps it: with those of the last 16,777,216 cycles. -/
def Core.noteRerun (k : Core) (now : Nat) : Core := { k with mxFails := now :: k.mxFails.filter fun t => decide (now < t + 16777216) }

/-- Whether the head command of a core would be compared and fails twice. -/
def Core.rerunFails (k : Core) (badRuns : Nat) : Bool :=
  match k.mq with
  | c :: _ =>
    match mmaOp (cmdOpc c.cmd) with
    | some p =>
      match k.mmaOperands c p with
      | .ok (xs, ys) =>
        decide (k.failedRuns c p xs ys badRuns > 1) && (k.mmaBad c p).isEmpty &&
          mmaCompared (k.actor c.slot) c.cmd p xs ys (mmaResult (k.actor c.slot) c.cmd p xs ys)
      | .error _ => false
    | none => false
  | [] => false

/-- A multiply-accumulate event of an opcode. -/
def mmaEvent (opc core badRuns : Nat) (s : State) : Option State :=
  let fails := (s.core core).rerunFails badRuns
  (s.runCmd core (isOpc opc) (Core.mma badRuns)).map fun s1 =>
    if fails then s1.onCore core (·.noteRerun (s.now core)) else s1

/-! ## The other commands (R329 to R333) -/

/-- All elements of an accumulator as an operation gives them. -/
def wholeAcc (f : Nat → Nat → Nat) : List (Nat × Nat × Nat) :=
  (List.range 16).flatMap fun r => (List.range 16).map fun c => (r, c, f r c)

/-- Whether the region that a command on a local range named is still the actor's (R320): the same allocation, not another under its index. -/
def Core.rangeHolds (k : Core) (c : TileCmd) : Bool := (k.regions.get {} c.ridx).liveOf c.slot && (k.regions.get {} c.ridx).born == c.born

/-- `n` bytes of a named region for the matrix unit: a bank word with an uncorrectable error reads as zero and is recorded (R83). -/
def Core.mxRead (k : Core) (c : TileCmd) (va n : Nat) : List Byte × List Nat :=
  let e := k.regions.get {} c.ridx
  ((List.range n).map fun i => if k.bad.contains (e.place (va + i) / 8) then 0 else k.mem.read (e.place (va + i)),
    (e.bankWords va n).filter k.bad.contains)

/-- MLOADCB (R330). -/
def Core.mloadcb (k : Core) (c : TileCmd) : Except (Nat × Nat) Core :=
  if !k.rangeHolds c then .error (0x06, c.ridx)
  else
    let r := k.mxRead c (cmdAddr c.cmd) 32
    let cb : V256 := BitVec.ofNat 256 (ofBytes r.1)
    .ok ((r.2.foldl (fun k w => k.recordErr c.slot 0 (bankAddr w)) k).onActor c.slot fun a =>
      { a with cbs := a.cbs.setIfInBounds (cmdAcc c.cmd) (Codebook.load cb) })

/-- MRING configure (R331). -/
def Core.ringConfigure (k : Core) (c : TileCmd) : Except (Nat × Nat) Core :=
  let r := cmdRing c.cmd
  let g := (k.actor c.slot).ring r
  let d := cmdDw c.cmd 1
  if g.cnt ≠ 0 ∨ g.feed ≠ 0 ∨ g.qpop ≠ 0 then .error (0x08, r)
  else .ok (k.onActor c.slot fun a => a.onRing r fun g =>
    { g with rows := bits d 4 0, rowb := bits d 8 5, depth := bits d 15 9, head := 0, tail := 0 })

/-- MRING advance (R331, R188). -/
def Core.ringAdvance (k : Core) (c : TileCmd) : Except (Nat × Nat) Core :=
  let r := cmdRing c.cmd
  let g := (k.actor c.slot).ring r
  if g.cnt ≥ g.depth ∨ g.feed ≠ 0 then .error (0x08, r)
  else .ok (k.onActor c.slot fun a => a.onRing r fun g => { g with tail := (g.tail + 1) % g.depth, cnt := g.cnt + 1 })

/-- MSCALE (R332). -/
def Core.mscale (k : Core) (c : TileCmd) : Except (Nat × Nat) Core :=
  let a := k.actor c.slot
  let i := cmdAcc c.cmd
  let x := bits (cmdDw c.cmd 1) 31 0
  let new := wholeAcc fun r q => (FFmt.fp32.mulNum rneIeee (FFmt.fp32.read (a.accAt i r q)) (FFmt.fp32.read x)).1
  .ok (k.onActor c.slot fun n => (n.setAccs i new).setUnchk i
    (!fin32 x || new.any fun e => !fin32 e.2.2 || !fin32 (a.accAt i e.1 e.2.1)))

/-- MADDACC (R332). -/
def Core.maddacc (k : Core) (c : TileCmd) : Except (Nat × Nat) Core :=
  let a := k.actor c.slot
  let i := cmdAcc c.cmd
  let j := cmdSrc c.cmd
  let int := a.accInt i
  let new := wholeAcc fun r q =>
    let x := a.accAt i r q
    let y := a.accAt j r q
    if int then (x + y) % 2 ^ 32 else accPlus x y
  .ok (k.onActor c.slot fun n => (n.setAccs i new).setUnchk i
    (!int && new.any fun e => !fin32 e.2.2 || !fin32 (a.accAt i e.1 e.2.1) || !fin32 (a.accAt j e.1 e.2.1)))

/-- The elements that MSTORE and MDRAIN send out, row by row, as bytes (R333). -/
def Actor.outRows (a : Actor) (c : V256) : List (List Byte) :=
  (List.range (cmdM c)).map fun i => (List.range (cmdN c)).flatMap fun j =>
    toBytes (fmtBytes (cmdFmt c)) (convOut (cmdFmt c) (a.accAt (cmdAcc c) i j))

/-- MSTORE (R333): a bank word that a row writes in part and that holds an uncorrectable error is not written (R83). -/
def Core.mstore (k : Core) (c : TileCmd) : Except (Nat × Nat) Core :=
  if !k.rangeHolds c then .error (0x06, c.ridx)
  else
    .ok (((k.actor c.slot).outRows c.cmd).zipIdx.foldl (fun k row =>
      let r := k.writeIn (k.regions.get {} c.ridx) (cmdAddr c.cmd + row.2 * cmdPitch c.cmd) row.1
      match r.2 with
      | none => r.1
      | some w => r.1.recordErr c.slot 0 (BitVec.ofNat 64 w)) k)

/-- MLOADACC (R333). -/
def Core.mloadacc (k : Core) (c : TileCmd) : Except (Nat × Nat) Core :=
  if !k.rangeHolds c then .error (0x06, c.ridx)
  else
    let i := cmdAcc c.cmd
    let int := (k.actor c.slot).accInt i
    let rows := (List.range (cmdM c.cmd)).map fun r => k.mxRead c (cmdAddr c.cmd + r * cmdPitch c.cmd) (4 * cmdN c.cmd)
    let new := rows.zipIdx.flatMap fun p => (List.range (cmdN c.cmd)).map fun q => (p.2, q, ofBytes ((p.1.1.drop (4 * q)).take 4))
    let hurt := (rows.flatMap (·.2)).eraseDups
    .ok ((hurt.foldl (fun k w => k.recordErr c.slot 0 (bankAddr w)) k).onActor c.slot fun a =>
      (a.setAccs i new).setUnchk i (!int && new.any fun e => !fin32 e.2.2))

/-- The delivery that an MDRAIN hands to its cluster's copy engine (R334). -/
def Core.drainOf (k : Core) (c : TileCmd) (core now : Nat) : Drain :=
  let a := k.actor c.slot
  let d := cmdDw c.cmd 1
  { name := a.name, inc := a.incarn, core := core, slot := c.slot, domain := a.domain, dst := c.sca, tag := c.scb,
    chan := bits (cmdDw c.cmd 0) 29 28, tridx := bits d 7 0, off := bits d 27 8, pitch := bits d 43 28, fmt := cmdFmt c.cmd,
    m := cmdM c.cmd, n := cmdN c.cmd, unchk := a.accUnchk.getLsbD (cmdAcc c.cmd), rows := a.outRows c.cmd,
    esize := fmtBytes (cmdFmt c.cmd), firstAt := now, lastAt := now }

/-- Whether a drain of an actor is still on its way. -/
def State.draining (s : State) (name : W64) : Bool :=
  s.net.any fun p => match p.2.pay with
    | .drain d => d.name == name
    | _ => false

/-! ## Events -/

/-- MSYNC (R330): Tile command that retires once earlier MDRAINs of its actor are delivered or refused. -/
def evMsync (core : Nat) (s : State) : Option State :=
  if ((s.core core).mq.head?).any fun c => s.draining ((s.core core).actor c.slot).name then none
  else s.runCmd core (isOpc 0x01) fun k _ => .ok k

/-- The meaning of MSYNC. -/
def execMsync (core : Nat) (s : State) : Answer := .next ((evMsync core s).getD s)

/-- MCLR (R330): Tile command clearing an accumulator. -/
def evMclr (core : Nat) (s : State) : Option State :=
  s.runCmd core (isOpc 0x02) fun k c =>
    .ok (k.onActor c.slot fun a => (a.setAccs (cmdAcc c.cmd) (wholeAcc fun _ _ => 0)).setUnchk (cmdAcc c.cmd) false)

/-- The meaning of MCLR. -/
def execMclr (core : Nat) (s : State) : Answer := .next ((evMclr core s).getD s)

/-- MLOADCB (R330): Tile command loading a codebook slot from core memory. -/
def evMloadcb (core : Nat) (s : State) : Option State :=
  s.runCmd core (isOpc 0x03) Core.mloadcb

/-- The meaning of MLOADCB. -/
def execMloadcb (core : Nat) (s : State) : Answer := .next ((evMloadcb core s).getD s)

/-- MRING_CONFIGURE (R331): Tile command setting a ring's shape and resetting HEAD and TAIL. -/
def evMringConfigure (core : Nat) (s : State) : Option State :=
  s.runCmd core (fun c => isOpc 0x04 c && cmdRop c == 0) Core.ringConfigure

/-- The meaning of MRING_CONFIGURE. -/
def execMringConfigure (core : Nat) (s : State) : Answer := .next ((evMringConfigure core s).getD s)

/-- MRING_ADVANCE (R331): Tile command publishing the tile at TAIL. -/
def evMringAdvance (core : Nat) (s : State) : Option State :=
  s.runCmd core (fun c => isOpc 0x04 c && cmdRop c == 1) Core.ringAdvance

/-- The meaning of MRING_ADVANCE. -/
def execMringAdvance (core : Nat) (s : State) : Answer := .next ((evMringAdvance core s).getD s)

/-- MCHK_COMPARE (R330): Tile command enabling checksum comparison. -/
def evMchkCompare (core : Nat) (s : State) : Option State :=
  s.runCmd core (fun c => isOpc 0x05 c && cmdMode c == 0) fun k c =>
    .ok (k.onActor c.slot fun a => { a with chkoff := false })

/-- The meaning of MCHK_COMPARE. -/
def execMchkCompare (core : Nat) (s : State) : Answer := .next ((evMchkCompare core s).getD s)

/-- MCHK_NO_COMPARE (R330): Tile command disabling checksum comparison. -/
def evMchkNoCompare (core : Nat) (s : State) : Option State :=
  s.runCmd core (fun c => isOpc 0x05 c && cmdMode c == 1) fun k c =>
    .ok (k.onActor c.slot fun a => { a with chkoff := true })

/-- The meaning of MCHK_NO_COMPARE. -/
def execMchkNoCompare (core : Nat) (s : State) : Answer := .next ((evMchkNoCompare core s).getD s)

/-- MMOVE (R332): Tile command copying one accumulator into another. -/
def evMmove (core : Nat) (s : State) : Option State :=
  s.runCmd core (isOpc 0x06) fun k c =>
    let a := k.actor c.slot
    .ok (k.onActor c.slot fun n => (n.setAccs (cmdAcc c.cmd) (wholeAcc (a.accAt (cmdSrc c.cmd)))).setUnchk (cmdAcc c.cmd)
      (a.accUnchk.getLsbD (cmdSrc c.cmd)))

/-- The meaning of MMOVE. -/
def execMmove (core : Nat) (s : State) : Answer := .next ((evMmove core s).getD s)

/-- MSCALE (R332): Tile command scaling an FP32 accumulator. -/
def evMscale (core : Nat) (s : State) : Option State :=
  s.runCmd core (isOpc 0x08) Core.mscale

/-- The meaning of MSCALE. -/
def execMscale (core : Nat) (s : State) : Answer := .next ((evMscale core s).getD s)

/-- MADDACC (R332): Tile command adding one accumulator to another. -/
def evMaddacc (core : Nat) (s : State) : Option State :=
  s.runCmd core (isOpc 0x09) Core.maddacc

/-- The meaning of MADDACC. -/
def execMaddacc (core : Nat) (s : State) : Answer := .next ((evMaddacc core s).getD s)

/-- MSTORE (R333): Tile command storing an accumulator converted into a region. -/
def evMstore (core : Nat) (s : State) : Option State :=
  s.runCmd core (isOpc 0x0A) Core.mstore

/-- The meaning of MSTORE. -/
def execMstore (core : Nat) (s : State) : Answer := .next ((evMstore core s).getD s)

/-- MDRAIN (R334): Tile command reading an accumulator and handing it to the copy engine for a named actor. -/
def evMdrain (core : Nat) (s : State) : Option State :=
  match (s.core core).mq with
  | [] => none
  | c :: _ =>
    let d := (s.core core).drainOf c core (s.now core)
    (s.runCmd core (isOpc 0x0B) fun k _ => .ok k).map fun s1 => s1.post (corePkg core) (.drain d)

/-- The meaning of MDRAIN. -/
def execMdrain (core : Nat) (s : State) : Answer := .next ((evMdrain core s).getD s)

/-- MLOADACC (R333): Tile command loading an accumulator from a region. -/
def evMloadacc (core : Nat) (s : State) : Option State :=
  s.runCmd core (isOpc 0x0C) Core.mloadacc

/-- The meaning of MLOADACC. -/
def execMloadacc (core : Nat) (s : State) : Answer := .next ((evMloadacc core s).getD s)

/-- MMA_BF16 (R324): BF16 multiply-accumulate into an FP32 accumulator. -/
def evMmaBf16 (core badRuns : Nat) (s : State) : Option State :=
  mmaEvent 0x10 core badRuns s

/-- The meaning of MMA_BF16. -/
def execMmaBf16 (core badRuns : Nat) (s : State) : Answer := .next ((evMmaBf16 core badRuns s).getD s)

/-- MMA_FP16 (R324): FP16 multiply-accumulate into an FP32 accumulator. -/
def evMmaFp16 (core badRuns : Nat) (s : State) : Option State :=
  mmaEvent 0x11 core badRuns s

/-- The meaning of MMA_FP16. -/
def execMmaFp16 (core badRuns : Nat) (s : State) : Answer := .next ((evMmaFp16 core badRuns s).getD s)

/-- MMA_E4E4 (R324): N8E4 by N8E4 scaled multiply-accumulate. -/
def evMmaE4e4 (core badRuns : Nat) (s : State) : Option State :=
  mmaEvent 0x20 core badRuns s

/-- The meaning of MMA_E4E4. -/
def execMmaE4e4 (core badRuns : Nat) (s : State) : Answer := .next ((evMmaE4e4 core badRuns s).getD s)

/-- MMA_E4E5 (R324): N8E4 by N8E5 scaled multiply-accumulate. -/
def evMmaE4e5 (core badRuns : Nat) (s : State) : Option State :=
  mmaEvent 0x21 core badRuns s

/-- The meaning of MMA_E4E5. -/
def execMmaE4e5 (core badRuns : Nat) (s : State) : Answer := .next ((evMmaE4e5 core badRuns s).getD s)

/-- MMA_E5E4 (R324): N8E5 by N8E4 scaled multiply-accumulate. -/
def evMmaE5e4 (core badRuns : Nat) (s : State) : Option State :=
  mmaEvent 0x22 core badRuns s

/-- The meaning of MMA_E5E4. -/
def execMmaE5e4 (core badRuns : Nat) (s : State) : Answer := .next ((evMmaE5e4 core badRuns s).getD s)

/-- MMA_E5E5 (R324): N8E5 by N8E5 scaled multiply-accumulate. -/
def evMmaE5e5 (core badRuns : Nat) (s : State) : Option State :=
  mmaEvent 0x23 core badRuns s

/-- The meaning of MMA_E5E5. -/
def execMmaE5e5 (core badRuns : Nat) (s : State) : Answer := .next ((evMmaE5e5 core badRuns s).getD s)

/-- MMA_C4C4 (R324): C4 by C4 codebook multiply-accumulate. -/
def evMmaC4c4 (core badRuns : Nat) (s : State) : Option State :=
  mmaEvent 0x30 core badRuns s

/-- The meaning of MMA_C4C4. -/
def execMmaC4c4 (core badRuns : Nat) (s : State) : Answer := .next ((evMmaC4c4 core badRuns s).getD s)

/-- MMA_C4E4 (R324): C4 by N8E4 multiply-accumulate. -/
def evMmaC4e4 (core badRuns : Nat) (s : State) : Option State :=
  mmaEvent 0x31 core badRuns s

/-- The meaning of MMA_C4E4. -/
def execMmaC4e4 (core badRuns : Nat) (s : State) : Answer := .next ((evMmaC4e4 core badRuns s).getD s)

/-- MMA_E4C4 (R324): N8E4 by C4 multiply-accumulate. -/
def evMmaE4c4 (core badRuns : Nat) (s : State) : Option State :=
  mmaEvent 0x32 core badRuns s

/-- The meaning of MMA_E4C4. -/
def execMmaE4c4 (core badRuns : Nat) (s : State) : Answer := .next ((evMmaE4c4 core badRuns s).getD s)

/-- MMA_S8S8 (R326): s8 by s8 wrapping integer multiply-accumulate into S32. -/
def evMmaS8s8 (core badRuns : Nat) (s : State) : Option State :=
  mmaEvent 0x38 core badRuns s

/-- The meaning of MMA_S8S8. -/
def execMmaS8s8 (core badRuns : Nat) (s : State) : Answer := .next ((evMmaS8s8 core badRuns s).getD s)

/-- MMA_N8S8 (R326): n8 by s8 wrapping integer multiply-accumulate into S32. -/
def evMmaN8s8 (core badRuns : Nat) (s : State) : Option State :=
  mmaEvent 0x39 core badRuns s

/-- The meaning of MMA_N8S8. -/
def execMmaN8s8 (core badRuns : Nat) (s : State) : Answer := .next ((evMmaN8s8 core badRuns s).getD s)

end Sys2Proof.Machine
end

