-- ==== Sys2Proof/Machine/Control.lean ====
section
/-! DEFINITION. Control registers (R67 to R70, R315), moves to and from message, vector and stream registers (R298), timers (R312),
work indices (R313) and BREAK (R316). -/

namespace Sys2Proof.Machine

/-! ## Control registers -/

/-- CHANCNT (R67, R194). -/
def Core.chancnt (k : Core) (slot : Nat) : W64 :=
  BitVec.ofNat 64 (k.waiting slot 0 + k.waiting slot 1 * 2 ^ 8 + k.waiting slot 2 * 2 ^ 16 + k.waiting slot 3 * 2 ^ 24)

/-- The four bits of ACCSTAT for an accumulator (R70). -/
def Core.accNibble (k : Core) (slot i : Nat) : Nat :=
  let a := k.actor slot
  (if a.accHas i then 1 else 0) + (if a.accInt i then 2 else 0) + (if a.accUnchk.getLsbD i then 4 else 0) +
    (if k.accBusy slot i then 8 else 0)

/-- ACCSTAT (R70). -/
def Core.accstat (k : Core) (slot : Nat) : W64 := BitVec.ofNat 64 (packNat 4 ((List.range 8).map (k.accNibble slot)))

/-- RING0 to RING3 (R70): all zero where the ring is not declared. -/
def Core.ringWord (k : Core) (slot r : Nat) : W64 :=
  let g := (k.actor slot).ring r
  if g.valid then
    BitVec.ofNat 64 (2 ^ 63 + g.cnt * 2 ^ 56 + g.feed * 2 ^ 49 + g.qpop * 2 ^ 42 + g.head * 2 ^ 36 + g.tail * 2 ^ 30 +
      k.regionBase g.ridx % 2 ^ 20)
  else 0

/-- CAPS (R70). -/
def State.caps (s : State) (c : Nat) : W64 :=
  let p := s.pkg (corePkg c)
  let mxu := !coreIsMem c && !(s.core c).mxLost
  BitVec.ofNat 64 (p.farch * 2 ^ 32 + p.form * 2 ^ 28 + p.silrev * 2 ^ 8 + (if mxu then 8 else 0) + (if coreIsMem c then 4 else 0) +
    (if p.form = 3 then 0 else 2) + (if p.farch > 0 then 1 else 0))

/-- What a control register reads (R67); none where its number is not assigned. -/
def State.creg (s : State) (r : Nat) : Option W64 :=
  let t := s.th
  let k := s.me
  let a := s.self
  match r with
  | 0x00 => some t.cause
  | 0x01 => some t.faultva
  | 0x02 => some t.faultpc
  | 0x03 => some (t.faultins.zeroExtend 64)
  | 0x04 => some t.status
  | 0x05 => some t.fpctl
  | 0x06 => some t.qnt
  | 0x07 => some t.eperr
  | 0x08 => some (t.vlen.zeroExtend 64)
  | 0x09 => some a.opcnt
  | 0x0A => some (t.sendleft.zeroExtend 64)
  | 0x0B => some (t.wdogleft.zeroExtend 64)
  | 0x10 => some a.name
  | 0x11 => some (a.incarn.zeroExtend 64)
  | 0x12 => some (a.domain.zeroExtend 64)
  | 0x13 => some (a.hmask.zeroExtend 64)
  | 0x14 => some (k.chancnt t.slot)
  | 0x15 => some (k.accstat t.slot)
  | 0x16 => some a.timer
  | 0x18 => some (k.ringWord t.slot 0)
  | 0x19 => some (k.ringWord t.slot 1)
  | 0x1A => some (k.ringWord t.slot 2)
  | 0x1B => some (k.ringWord t.slot 3)
  | 0x20 => some (BitVec.ofNat 64 k.tset.val)
  | 0x21 => some (BitVec.ofNat 64 (s.cur % 65536))
  | 0x22 => some (s.caps s.cur)
  | 0x23 => some (BitVec.ofNat 64 (s.now s.cur))
  | 0x24 => some (BitVec.ofNat 64 (s.cceil s.cur))
  | _ => none

/-- A control register that may not be accessed so (R68): privileged numbers trap PRIV below privilege. -/
def State.badCreg (s : State) (r : Nat) : Answer :=
  if r ≥ 0xC0 ∧ !s.th.status.getLsbD 1 then s.trap rPriv 0x02 else s.illegal 0x07

/-- MFCR (R315): Reads a control register into x[D]; CHANCNT reads the channel descriptors, with any error in them (R83). -/
def execMfcr (d : Reg) (r : BitVec 8) (s : State) : Answer :=
  match s.creg r.toNat with
  | none => s.badCreg r.toNat
  | some v =>
    s.withX [d] fun _ => (if r = 0x14 then s.onMe fun k => [0, 1, 2, 3].foldl (fun k c => k.noteChan s.th.slot c) k else s).finish (·.writeX d v)

/-- MTCR (R315): Writes a control register without behaviour of its own, zeroing reserved bits. -/
def execMtcr (a : Reg) (r : BitVec 8) (s : State) : Answer :=
  match r.toNat with
  | 0x00 => s.withX [a] fun t => s.finish fun u => { u with cause := t.readX a &&& 0xC000FFFFFFFFFFFF }
  | 0x01 => s.withX [a] fun t => s.finish fun u => { u with faultva := t.readX a }
  | 0x02 => s.withX [a] fun t => s.finish fun u => { u with faultpc := t.readX a }
  | 0x06 => s.withX [a] fun t => s.finish fun u => { u with qnt := t.readX a &&& 7 }
  | n => s.badCreg n

/-- STATUS_WRITE (R315): Write to STATUS that can only clear INTRAP. -/
def execStatusWrite (a : Reg) (s : State) : Answer :=
  s.withX [a] fun t => s.finish fun u => { u with status := if (t.readX a).getLsbD 0 then u.status else u.status &&& ~~~1 }

/-- FPCTL_WRITE (R68): Write to FPCTL that traps on a reserved rounding mode. -/
def execFpctlWrite (a : Reg) (s : State) : Answer :=
  s.withX [a] fun t =>
    let v := t.readX a &&& 0xFF
    if (v &&& 7).toNat > 4 then s.illegal 0x03 else s.finish fun u => { u with fpctl := v }

/-- EPERR_WRITE (R315): Write to EPERR that clears it when zero. -/
def execEperrWrite (a : Reg) (s : State) : Answer :=
  s.withX [a] fun t => s.finish fun u => { u with eperr := if t.readX a = 0 then 0 else u.eperr }

/-- VLEN_WRITE (R315): Write to VLEN that traps on values 33 to 63. -/
def execVlenWrite (a : Reg) (s : State) : Answer :=
  s.withX [a] fun t =>
    let v := BitVec.ofNat 6 (t.readX a).toNat
    if v.toNat > 32 then s.illegal 0x03 else s.finish fun u => { u with vlen := v }

/-- HMASK_WRITE (R315): Write to HMASK taking effect at the next selection. -/
def execHmaskWrite (a : Reg) (s : State) : Answer :=
  s.withX [a] fun t => (s.onSelf fun n => { n with hmask := BitVec.ofNat 4 (t.readX a).toNat }).finish id

/-- Runs a timer instruction after an expiry of the same cycle (R312): the notice is placed first, unless placing it ends the actor. -/
def State.afterExpiry (s : State) (k : State → Answer) : Answer :=
  if s.self.timerDue (s.now s.cur) then
    let s1 := s.onMe fun n => n.expireTimer s.cur s.th.slot (s.now s.cur)
    if s1.th.busy then k s1 else .next s1
  else k s

/-- TIMER_WRITE (R312): Write to TIMER acting as TMSET or TMCAN. -/
def execTimerWrite (a : Reg) (s : State) : Answer :=
  s.withX [a] fun t => s.afterExpiry fun s => (s.onSelf fun n => { n with timer := t.readX a, timerAt := s.now s.cur }).finish id

/-- TMSET (R312): Arms the actor timer with an absolute deadline. -/
def execTmset (a : Reg) (s : State) : Answer :=
  s.withX [a] fun t => s.afterExpiry fun s => (s.onSelf fun n => { n with timer := t.readX a ||| (1#64 <<< 63), timerAt := s.now s.cur }).finish id

/-- TMCAN (R312): Disarms the timer and returns the old ARM bit. -/
def execTmcan (d : Reg) (s : State) : Answer :=
  s.withX [d] fun _ => s.afterExpiry fun s =>
    (s.onSelf fun n => { n with timer := n.timer &&& ~~~(1#64 <<< 63) }).finish (·.writeX d (ofBool64 (s.self.timer.getLsbD 63)))

/-- BREAK (R316): Traps BREAK with its immediate as DETAIL. -/
def execBreakTrap (i : BitVec 16) (s : State) : Answer := s.trap rBreak 0 i.toNat

/-! ## Moves -/

/-- A message-register number from its field. -/
def mIndex (r : Reg) : BitVec 3 := BitVec.ofNat 3 r.toNat

/-- MTM (R298): Moves an x register to an m register. -/
def execMtm (d a : Reg) (s : State) : Answer := s.withX [a] fun t => s.finish (·.writeM (mIndex d) (t.readX a))

/-- MFM (R298): Moves an m register to an x register. -/
def execMfm (d a : Reg) (s : State) : Answer := s.withX [d] fun t => s.finish (·.writeX d (t.readM (mIndex a)))

/-- MFS (R298): Reads a stream binding into an x register. -/
def execMfs (d a : Reg) (s : State) : Answer := s.withX [d] fun t => s.finish (·.writeX d t.st[sIndex a])

/-- Message registers `b` to `b + 3` from a vector register's lanes. -/
def Thread.lanesToM (t : Thread) (b : BitVec 3) (v : V256) : Thread :=
  [0, 1, 2, 3].foldl (fun t i => t.writeM (b + BitVec.ofNat 3 i) (BitVec.ofNat 64 (lane 64 v i))) t

/-- A vector register from message registers `b` to `b + 3`. -/
def Thread.lanesOfM (t : Thread) (b : BitVec 3) : V256 :=
  pack 64 ([0, 1, 2, 3].map fun i => (t.readM (b + BitVec.ofNat 3 i)).toNat)

/-- VTML (R298): Moves lanes 0 to 3 of a v register into m0 to m3. -/
def execVtml (a : Reg) (s : State) : Answer := s.withV [a] [] 0 fun t => s.finish (·.lanesToM 0 (t.readV a))

/-- VTML_IN (R298): Moves m0 to m3 into lanes 0 to 3 of a v register. -/
def execVtmlIn (d : Reg) (s : State) : Answer := s.withV [d] [] 0 fun t => s.finish (·.writeV d (t.lanesOfM 0))

/-- VTMH (R298): Moves lanes 0 to 3 of a v register into m4 to m7. -/
def execVtmh (a : Reg) (s : State) : Answer := s.withV [a] [] 0 fun t => s.finish (·.lanesToM 4 (t.readV a))

/-- VTMH_IN (R298): Moves m4 to m7 into lanes 0 to 3 of a v register. -/
def execVtmhIn (d : Reg) (s : State) : Answer := s.withV [d] [] 0 fun t => s.finish (·.writeV d (t.lanesOfM 4))

/-! ## Work indices (R17, R18, R313) -/

/-- The field widths of the issuing actor's flock. -/
def State.widths (s : State) (name : W64) : List Nat := ((s.flock (flockOf name)).map (·.widths)).getD []

/-- Field `k` of a work index; 0 beyond the fields. -/
def fieldOf (ws : List Nat) (w k : Nat) : Nat :=
  match ws[k]? with
  | some n => w / 2 ^ (ws.drop (k + 1)).sum % 2 ^ n
  | none => 0

/-- The group number of a work index at a level (R18). -/
def groupOf (ws : List Nat) (w l : Nat) : Nat := w / 2 ^ (ws.drop l).sum

/-- WIX (R313): Extracts field k of a work index. -/
def execWix (d a : Reg) (k : BitVec 3) (s : State) : Answer :=
  s.withX [a, d] fun t =>
    s.finish (·.writeX d (BitVec.ofNat 64 (fieldOf (s.widths s.self.name) (indexOf (t.readX a)) k.toNat)))

/-- WIX_G (R313): Computes the group number of a work index at level L. -/
def execWixG (d a : Reg) (l : BitVec 3) (s : State) : Answer :=
  s.withX [a, d] fun t =>
    s.finish (·.writeX d (BitVec.ofNat 64 (groupOf (s.widths s.self.name) (indexOf (t.readX a)) l.toNat)))

end Sys2Proof.Machine
end

