-- ==== Sys2Proof/Machine/Owner.lean ====
section
/-! DEFINITION. Owners (R128): home tables and the states of pages (R137, R138), tickets and services (R139 to R141), accesses at
their owner and their answers (R99, R125, R143, R282), and first mapping (R419). -/

namespace Sys2Proof.Machine

/-! ## Pages at an owner -/

/-- How an owner answers for a page (R137, R138): by its state, as moved to another owner, or without any record. -/
inductive PageView where
  | held (f : FState)
  | elsewhere (newOwner : Nat)
  | unused
  deriving DecidableEq, Repr

/-- The state of a page at an owner: its home-table entry, else the hint record (R137); every page of a withdrawn memory core is lost
(R386). -/
def State.pageAt (s : State) (o page : Nat) : PageView :=
  match (s.owner o).homes.find page with
  | some e => if e.fstate = .moved then .elsewhere e.newOwner else .held e.fstate
  | none =>
    match (s.hintOf page).bind Hint.home with
    | none => .unused
    | some h => if h = o then .held (if (s.owner o).gone && !ownerIsBank o then .lost else .absent) else .elsewhere h

/-- Frames of an owner that pages may hold: 15 commons frames of a cluster (R91), 1 GiB of a near channel, 8 GiB of a far one. -/
def ownerFrames (o : Nat) : Nat := if ownerIsBank o then 15 else if ownerIdx o ≥ 32 then 131072 else 16384

/-- Whether a home-table entry occupies its frame. -/
def HomeEntry.usesFrame (e : HomeEntry) : Bool :=
  decide (e.fstate = .mapped ∨ e.fstate = .migrating ∨ e.fstate = .replica ∨ e.fstate = .cow)

/-- A bad-frame entry (R147): tier in bits 31:30, die in 29:28, channel in 27:22, frame in 21:5. -/
def badEntry (o frame : Nat) : W32 :=
  BitVec.ofNat 32 ((if ownerIdx o ≥ 32 then 1 else 0) * 2 ^ 30 + ownerDie o * 2 ^ 28 + (if ownerIdx o ≥ 32 then ownerIdx o - 32 else ownerIdx o) * 2 ^ 22 +
    frame % 2 ^ 17 * 2 ^ 5)

/-- The frame that a page takes: the lowest free one of the owner (log 92). DRAM frames on the bad-frame list are never allocated (R147). -/
def State.freeFrame (s : State) (o : Nat) : Option Nat :=
  let used := ((s.owner o).homes.filter (·.2.usesFrame)).map (·.2.frame)
  let bad := (s.pkg (ownerPkg o)).badFrames
  (List.range (Min.min (ownerFrames o) (used.length + bad.length + 1))).find? fun f => !used.contains f && (ownerIsBank o || !bad.contains (badEntry o f))

/-- Changes a home-table entry. -/
def State.onHome (s : State) (o page : Nat) (f : HomeEntry → HomeEntry) : State :=
  s.onOwner o fun w => { w with homes := w.homes.put page (f (w.homes.get {} page)) }

/-- Marks a page moved to another owner (R137): 1,024 moved entries are kept, the oldest that no migration holds is evicted. -/
def State.markMoved (s : State) (o page newOwner : Nat) : State :=
  let held := fun (p : Nat) => s.migrations.any fun m => m.oldOwner == o && hintKeyOfPage m.page == hintKeyOfPage p
  let s1 := s.onHome o page fun e => { e with fstate := .moved, frame := 0, newOwner := newOwner, corrected := [] }
  s1.onOwner o fun w =>
    let moved := w.moved.filter (· != page) ++ [page]
    match (if moved.length > 1024 then moved.find? fun p => !held p else none) with
    | some p => { w with moved := moved.filter (· != p), homes := w.homes.del p }
    | none => { w with moved := moved }

/-- The key slot of a domain (R105). -/
def State.keyslot (s : State) (pkg : Nat) (dom : BitVec 16) : Nat := (s.pkg pkg).keys.get 0 dom.toNat

/-- Whether a page of a package lies in a frame under a key slot. -/
def State.keyInUse (s : State) (pkg n : Nat) : Bool :=
  s.owners.any fun o => ownerPkg o.1 == pkg && o.2.homes.any fun h => h.2.keyslot == n && h.2.usesFrame

/-- The key slot that the management firmware binds to a domain that has none (R105): the lowest one that is bound to no domain, else the
first one whose domain holds no DRAM (log 100). -/
def State.keyFor (s : State) (pkg : Nat) : Option Nat :=
  let keys := (s.pkg pkg).keys
  match (List.range (keys.length + 1)).find? fun n => decide (0 < n ∧ n < 1024) && !keys.any (·.2 == n) with
  | some n => some n
  | none => (keys.find? fun p => decide (0 < p.2) && !s.keyInUse pkg p.2).map (·.2)

/-- The management firmware binds a tenant domain to a key slot before its first page takes a DRAM frame of the package (R105): not where all
are taken, and not while it is quiesced (R393). Commons frames need none. -/
def State.bindKey (s : State) (o : Nat) (dom : BitVec 16) : Option State :=
  let pkg := ownerPkg o
  if ownerIsBank o ∨ dom = 0 ∨ ((s.pkg pkg).keys.find dom.toNat).isSome then some s
  else if (s.pkg pkg).quiesced 1 then none
  else
    (s.keyFor pkg).map fun n =>
      (s.onPkg pkg fun p => { p with keys := SMap.put (p.keys.filter (·.2 != n)) dom.toNat n }).journal pkg 1 jKey [dom.toNat, n]

/-- The key slot of a page of a domain at an owner (R105, R137): 0 for commons. -/
def State.keyAt (s : State) (o : Nat) (dom : BitVec 16) : Nat := if ownerIsBank o then 0 else s.keyslot (ownerPkg o) dom

/-! ## Tickets and services (R139 to R141) -/

/-- Ticket codes (R139). -/
def tAbsent : Nat := 1
/-- MOVED. -/
def tMoved : Nat := 2
/-- MIGRATING. -/
def tMigrating : Nat := 3
/-- WPROT. -/
def tWprot : Nat := 4
/-- COW. -/
def tCow : Nat := 5

/-- A cluster subscribes to a service (R140): in the list of 32, or, where that is full, by its package's bit in the map. -/
def Service.subscribe (v : Service) (eng : Nat) : Service :=
  if v.subs.contains eng || v.pkgMap.contains (engPkg eng) then v
  else if v.subs.length < 32 then { v with subs := v.subs ++ [eng] }
  else { v with pkgMap := v.pkgMap ++ [engPkg eng] }

/-- The clusters that the notice of a service goes to (R140): the listed ones, and every cluster of each marked package. -/
def Service.clusters (v : Service) : List Nat :=
  (v.subs.filter fun e => !v.pkgMap.contains (engPkg e)) ++ v.pkgMap.flatMap fun p => (List.range 256).map (p * 256 + ·)

/-- A ticket for a page to a cluster: the number of the page's service, opened where there is none; none where all 64 records are in
use (R140). A new WPROT service starts the collapse of R146. -/
def State.openTicket (s : State) (o page code eng : Nat) : Option (Nat × State) :=
  match (s.owner o).svcs.find? (·.page == page) with
  | some v =>
    some (v.tkt, s.onOwner o fun w =>
      { w with svcs := w.svcs.map fun r =>
          if r.page = page then r.subscribe eng else r })
  | none =>
    if (s.owner o).svcs.length ≥ 64 then none
    else
      let t := (s.owner o).nextTkt
      let s1 := s.onOwner o fun w =>
        { w with svcs := w.svcs ++ [{ page := page, tkt := t, code := code, subs := [eng] }], nextTkt := (t + 1) % 65536 }
      some (t, if code = tWprot then s1.post (ownerPkg o) (.collapse o page t) else s1)

/-- A service ends (R141): the replay notice leaves for every subscribing cluster, naming the owner that holds the page. -/
def State.endService (s : State) (o page holder status : Nat) : State :=
  match (s.owner o).svcs.find? (·.page == page) with
  | none => s
  | some v =>
    (s.onOwner o fun w => { w with svcs := w.svcs.filter (·.page != page) }).post (ownerPkg o)
      (.notice o v.tkt page holder status v.clusters)

/-! ## DRAM accesses at their channel (R104, R290, R291) -/

/-- SRCMEM of a DRAM owner (R70): 2 near, 3 far. -/
def dramSrc (o : Nat) : Nat := if ownerIdx o ≥ 32 then 3 else 2

/-- A DRAM access performed at its channel. -/
def State.applyAtChannel (s : State) (o core : Nat) (dom : BitVec 16) (a : Access) : State :=
  match a.op with
  | .dld n =>
    let s1 := s.countOwner o 0x80 (some dom)
    match ((List.range n).map fun i => (a.ga + i) / 8).find? s.gbad.contains with
    | some w => s1.answer core a.id (.dataError (dramSrc o) (wordGa w))
    | none =>
      let bytes := s.gmem.readN a.ga n
      s1.answer core a.id (.value (if n = 32 then (List.range 4).map (fun i => BitVec.ofNat 64 (ofBytes ((bytes.drop (8 * i)).take 8)))
        else [BitVec.ofNat 64 (ofBytes bytes)]) 0)
  | .dst n =>
    let data := (a.ops.take 4).flatMap fun v => toBytes 8 v.toNat
    let mask := (a.ops.drop 4).flatMap fun v => toBytes 8 v.toNat
    let on := fun (i : Nat) => decide (n ≠ 32) || (mask[i]?).getD 0 != 0
    let whole := fun (w : Nat) => (List.range n).countP (fun i => on i && (a.ga + i) / 8 == w) == 8
    let gmem := ((List.range n).zip data).foldl (fun (m : Memory) p => if on p.1 then m.write (a.ga + p.1) p.2 else m) s.gmem
    ({ s with gmem := gmem, gbad := s.gbad.filter (!whole ·) }.countOwner o 0x81 (some dom)).answer core a.id (.value [] 0)
  | _ => s

/-! ## An access at its owner (R138, R375) -/

/-- Whether an owner collapses a page (R146): from its WPROT ticket to the replay notice. -/
def State.collapsing (s : State) (o page : Nat) : Bool := (s.owner o).svcs.any fun v => v.page == page && v.code == tWprot

/-- Whether a page's answers treat an access as a write (R138). -/
def State.treatedAsWrite (s : State) (a : Access) : Bool :=
  match a.op with
  | .ver | .load | .vload | .dld _ => false
  | .loadGe | .loadEq | .loadAcq => s.mustLodge a
  | .storeB | .storeH | .storeW | .storeD | .storeNl | .storeNh | .storeRel | .atom _ | .defer | .recl | .reclRange | .arm
  | .disarm | .vadd | .dst _ => true

/-- A ticket as an answer, or busy where no service record is free (R140). -/
def State.answerTicket (s : State) (o core : Nat) (a : Access) (code : Nat) : State :=
  match s.openTicket o (a.ga / 65536) code (engineOf core) with
  | some (t, s1) => s1.answer core a.id (.ticket code t 0)
  | none => (s.answerBusy core a.id).countOwner o 0x63 (some a.domain)

/-- Whether an access of a core stands answered busy. -/
def State.busyNow (s : State) (core id : Nat) : Bool := (s.core core).accs.any fun a => a.id == id && decide (a.phase = .busy)

/-- The owner performs an access that its page permits; a bank that applies one counts it (event 0x60 of R204). -/
def State.perform (s : State) (o core : Nat) (a : Access) : State :=
  if ownerIsBank o then
    let s1 := s.applyAtBank o core a
    if s1.busyNow core a.id then s1 else s1.countOwner o 0x60 (some a.domain)
  else s.applyAtChannel o core a.domain a

/-- How an owner answers an access by the state of its page (R138). While it collapses a page that it has itself dropped, writes get the ticket of that
service (R146). -/
def State.ownerAnswers (s : State) (o core : Nat) (a : Access) : State :=
  match s.pageAt o (a.ga / 65536) with
  | .unused => s.answer core a.id (.fault rPlbDeny 0x01 0)
  | .elsewhere q =>
    if s.collapsing o (a.ga / 65536) && s.treatedAsWrite a then s.answerTicket o core a tWprot
    else if ownerIsBank o then s.answer core a.id (.ticket tMoved 0 q) else s.answer core a.id (.fault rPlbDeny 0x01 0)
  | .held f =>
    match f with
    | .mapped => s.perform o core a
    | .replica => if s.treatedAsWrite a then s.answerTicket o core a tWprot else s.perform o core a
    | .cow => if s.treatedAsWrite a then s.answerTicket o core a tCow else s.perform o core a
    | .absent | .parked => s.answerTicket o core a tAbsent
    | .migrating => s.answerTicket o core a tMigrating
    | .lost => s.answer core a.id .lost
    | .moved => s

/-- The access of a core that its bank takes next (R375): the one with the lowest number among those it has not yet applied. -/
def Core.headAt (k : Core) (bank : Nat) : Option Access :=
  (k.accs.filter fun a => bankOf a.owner a.ga == bank && decide (a.phase = .sent ∨ a.phase = .stored ∨ a.phase = .busy)).foldl (fun best a =>
    match best with
    | none => some a
    | some b => if a.seq < b.seq then some a else some b) none

/-- The record that a bank keeps of a tagged access, once it has an answer (R125): at least 50 µs, 1,024 at most. -/
def State.recordTag (s : State) (bank core now : Nat) (a : Access) : State :=
  match a.tag with
  | none => s
  | some t =>
    if a.op.countsLoad then s
    else
      match ((s.core core).accs.find? (·.id == a.id)).bind (·.answer) with
      | some (.value vals ver) =>
        s.onBank bank fun b =>
          { b with tags := (b.tags.filter fun r => decide (now - r.seen < 47000)) ++ [⟨core, t, .value vals ver, now⟩] }
      | some (.dataError src addr) =>
        s.onBank bank fun b =>
          { b with tags := (b.tags.filter fun r => decide (now - r.seen < 47000)) ++ [⟨core, t, .dataError src addr, now⟩] }
      | _ => s

/-- What happens to an access that arrives at its owner in its turn. -/
def State.arriveAtOwner (s : State) (core : Nat) (a : Access) : State :=
  let o := a.owner
  let bank := bankOf o a.ga
  let now := s.now core
  match a.tag with
  | none => s.ownerAnswers o core a
  | some t =>
    match (s.bank bank).tags.find? fun r => r.core == core && r.number == t with
    | some r => s.answer core a.id r.answer
    | none =>
      if a.op.countsLoad then s.ownerAnswers o core a
      else if now - a.firstAt > 47000 then s.onAcc core a.id fun b => { b with phase := .answered, answer := none }
      else if ((s.bank bank).tags.filter fun r => decide (s.cycle (ownerPkg o) - r.seen < 47000)).length ≥ 1024 then
        (s.answerBusy core a.id).countOwner o 0x63 (some a.domain)
      else (s.ownerAnswers o core a).recordTag bank core (s.cycle (ownerPkg o)) a

/-- An access that has yet to leave its core is sent once it may go. -/
def State.sendReleased (s : State) (core id : Nat) : State :=
  match (s.core core).accs.find? (·.id == id) with
  | none => s
  | some a =>
    if a.phase = .waiting ∧ (s.core core).mayGo a then s.onCore core (·.sendAcc core (s.now core) id a.owner a.replay) else s

/-- Whether an access follows one of its actor to the same page that has met a ticket and not been performed since: it is held with the core
(R123, log 101), also where it had been sent before the ticket came. -/
def Core.behindTicket (k : Core) (a : Access) : Bool :=
  !a.orphan && k.accs.any fun b => b.slot == a.slot && !b.orphan && decide (b.order < a.order) && b.ga / 65536 == a.ga / 65536 &&
    (b.blocks || decide (b.phase = .answered) && match b.answer with
      | some (.ticket ..) => true
      | _ => false)

/-- Whether an earlier access of the core has been answered busy at the bank of an access, and has not been resent and applied since (R375). -/
def Core.busyBefore (k : Core) (a : Access) : Bool :=
  k.accs.any fun b => b.busied && decide (b.phase = .busy ∨ b.phase = .sent ∨ b.phase = .stored) && bankOf b.owner b.ga == bankOf a.owner a.ga && decide (b.seq < a.seq)

/-- Accesses in the reorder store of a bank (R375). -/
def State.storedAt (s : State) (bank : Nat) : Nat :=
  (s.cores.map fun c => (c.2.accs.filter fun a => decide (a.phase = .stored) && bankOf a.owner a.ga == bank).length).sum

/-- ACCESS_AT_OWNER (R138): Owner performs an arriving access or answers it with a ticket, busy or refusal; one that comes early goes to the
reorder store of its bank, or is answered busy where that is full (R375). -/
def evAccessAtOwner (core id : Nat) (s0 : State) : Option State :=
  let s := s0.sendReleased core id
  match (s.core core).accs.find? (·.id == id) with
  | none => none
  | some a =>
    let k := s.core core
    let bank := bankOf a.owner a.ga
    if a.phase ≠ .sent ∧ a.phase ≠ .stored then none
    else if (s.pkg (corePkg core)).lost then none
    else if (s.pkg (ownerPkg a.owner)).lost then some (s.answer core id .lost)
    else if (s.pkg (ownerPkg a.owner)).halted then none
    else if k.behindTicket a then some (s.onAcc core id fun b => { b with phase := .held, entry := true, tag := none })
    else if (k.headAt bank).any (·.id == id) then some (s.arriveAtOwner core a)
    else if k.busyBefore a || (decide (a.phase = .sent) && decide (s.storedAt bank ≥ 256)) then
      some ((s.answerBusy core id).countOwner a.owner 0x63 (some a.domain))
    else if a.phase = .sent then some (s.onAcc core id fun b => { b with phase := .stored })
    else none

/-- The meaning of ACCESS_AT_OWNER. -/
def execAccessAtOwner (core id : Nat) (s : State) : Answer := .next ((evAccessAtOwner core id s).getD s)

/-- ACCESS_BUSY_RESEND (R99): Resends a busy-answered access every 256 cycles. -/
def evAccessBusyResend (core id : Nat) (s : State) : Option State :=
  match (s.core core).accs.find? (·.id == id) with
  | some a => if a.phase = .busy ∧ a.lastAt + 256 ≤ s.now core then some (s.onAcc core id fun b => { b with phase := .sent }) else none
  | none => none

/-- The meaning of ACCESS_BUSY_RESEND. -/
def execAccessBusyResend (core id : Nat) (s : State) : Answer := .next ((evAccessBusyResend core id s).getD s)

/-- ACCESS_RETRY (R125): Resends a cross-package access once with the same tag after 18,800 cycles. -/
def evAccessRetry (core id : Nat) (s : State) : Option State :=
  match (s.core core).accs.find? (·.id == id) with
  | some a =>
    if a.tag.isSome && !a.resent && decide (a.phase = .sent ∨ a.phase = .stored) && decide (a.firstAt + 18800 ≤ s.now core) then
      some (s.onAcc core id fun b => { b with resent := true })
    else none
  | none => none

/-- The meaning of ACCESS_RETRY. -/
def execAccessRetry (core id : Nat) (s : State) : Answer := .next ((evAccessRetry core id s).getD s)

/-- ACCESS_INDETERMINATE (R125): Raises deferred INDETERMINATE after 47,000 cycles without answer; an answer that the core has not
acted on may be one that was lost on its way. A wait is timed until it is reported lodged. -/
def evAccessIndeterminate (core id : Nat) (s : State) : Option State :=
  match (s.core core).accs.find? (·.id == id) with
  | some a =>
    match a.tag with
    | some t =>
      if (a.phase = .sent ∨ a.phase = .stored ∨ a.phase = .busy ∨ a.phase = .answered) ∧ ¬ a.waited ∧ a.firstAt + 47000 ≤ s.now core then
        some (s.onCore core (·.faultAccess a rIndeterminate 0 (BitVec.ofNat 64 t)))
      else none
    | none => none
  | none => none

/-- The meaning of ACCESS_INDETERMINATE. -/
def execAccessIndeterminate (core id : Nat) (s : State) : Answer := .next ((evAccessIndeterminate core id s).getD s)

/-! ## Answers and tickets at the core (R143, R144, R282) -/

/-- ACCESS_ANSWER (R282): The core acts on an answer to a commons or DRAM access. -/
def evAccessAnswer (core id : Nat) (s : State) : Option State :=
  match (s.core core).accs.find? (·.id == id) with
  | some a =>
    if a.performed && !a.replay then a.answer.map fun v => s.onCore core (·.actOn a v) else none
  | none => none

/-- The meaning of ACCESS_ANSWER. -/
def execAccessAnswer (core id : Nat) (s : State) : Answer := .next ((evAccessAnswer core id s).getD s)

/-- The sub-cause of PLB_DENY that the requester's rights, read again, give an access, if any (R135, R149). -/
def State.deniedNow (s : State) (core : Nat) (dom : BitVec 16) (a : Access) : Option Nat :=
  match (s.core core).plb.find? (·.isFor dom (gaClass a.ga) (gaRange a.ga)) with
  | some e => e.denies a.op.reads a.op.writes
  | none => some 0x01

/-- Sends an access of the ticket table again (R143): the PLB entry is refilled, the rights are checked, and a new number is taken. A
memory-core DRAM access whose page is at another channel ends with PLB_DENY (R290). -/
def State.replayTo (s : State) (core : Nat) (a : Access) (owner : Option Nat) (replay : Bool) : State :=
  let s1 := s.refillNow core a.domain a.ga
  match s1.deniedNow core a.domain a with
  | some sub => s1.onCore core (·.faultAccess a rPlbDeny sub 0)
  | none =>
    let o := match owner with
      | some o => o
      | none => (((s1.core core).plb.find? (·.isFor a.domain (gaClass a.ga) (gaRange a.ga))).map (·.ownerOf a.ga)).getD a.owner
    if gaClass a.ga = 0 ∧ o ≠ memOwner core then s1.onCore core (·.faultAccess a rPlbDeny 0x01 0)
    else if (s1.core core).mayGo { a with owner := o, replay := replay } then
      s1.onCore core (·.sendAcc core (s1.now core) a.id o replay)
    else s1.onAcc core a.id fun b => { b with phase := .waiting, owner := o, replay := replay, answer := none, tag := none }

/-- Once no ticketed access of an actor remains on a page, its held accesses are sent in order (R143, R144). -/
def State.sendHeld (s : State) (core slot page : Nat) : State :=
  let mine := fun (a : Access) => a.slot == slot && !a.orphan && a.ga / 65536 == page
  let k := s.core core
  if k.accs.any fun a => mine a && a.blocks && decide (a.phase ≠ .held) then s
  else (k.accs.filter fun a => mine a && decide (a.phase = .held)).foldl (fun s a => s.replayTo core a none false) s

/-- FAULT_TICKET (R143): Moves a ticketed access into the ticket table, replaying at once for MOVED. Its entry is parked where the firing is
pre-empted or has retired, and has the thread set of a later firing that runs (R142, R145); an access of a dead actor goes. -/
def evFaultTicket (core id : Nat) (s : State) : Option State :=
  match (s.core core).accs.find? (·.id == id) with
  | some a =>
    match a.answer with
    | some (.ticket code tkt newOwner) =>
      let n := s.actor core a.slot
      let runs := decide (n.state = .firing)
      if a.phase ≠ .answered then none
      else if a.orphan then some (s.onCore core (·.endAccess a))
      else
        let entry := fun (b : Access) =>
          { b with entry := true, tkt := tkt, tktOwner := a.owner, code := code, since := s.now core, tag := none, parked := !runs
                   tset := if runs then n.tsetf else b.tset }
        let s1 := (s.countCore core 0x06 (some a.domain)).onAcc core id entry
        if code = tMoved then some ((s1.replayTo core (entry a) (some newOwner) true).sendHeld core a.slot (a.ga / 65536))
        else some (s1.onAcc core id fun b => { b with phase := .ticketed, replay := false })
    | _ => none
  | none => none

/-- The meaning of FAULT_TICKET. -/
def execFaultTicket (core id : Nat) (s : State) : Answer := .next ((evFaultTicket core id s).getD s)

/-- REPLAY_ANSWER (R143): On a performed replay answer, sends the held accesses of the page in order. -/
def evReplayAnswer (core id : Nat) (s : State) : Option State :=
  match (s.core core).accs.find? (·.id == id) with
  | some a =>
    if a.performed && a.replay then
      a.answer.map fun v => (s.onCore core (·.actOn a v)).sendHeld core a.slot (a.ga / 65536)
    else none
  | none => none

/-- The meaning of REPLAY_ANSWER. -/
def execReplayAnswer (core id : Nat) (s : State) : Answer := .next ((evReplayAnswer core id s).getD s)

/-- TICKET_TIMEOUT (R143): Kills the actor with TICKET_TIMEOUT when a ticket ages 2^20 cycles. -/
def evTicketTimeout (core id : Nat) (s : State) : Option State :=
  match (s.core core).accs.find? (·.id == id) with
  | some a =>
    if a.phase = .ticketed ∧ ¬ a.orphan ∧ a.since + 2 ^ 20 ≤ s.now core then
      some (s.onCore core (·.die a.slot rTicketTimeout 0 0))
    else none
  | none => none

/-- The meaning of TICKET_TIMEOUT. -/
def execTicketTimeout (core id : Nat) (s : State) : Answer := .next ((evTicketTimeout core id s).getD s)

/-- What a replay notice does to one core's ticket table (R141). -/
def State.noticeAtCore (s : State) (core o tkt holder status : Nat) : State :=
  ((s.core core).accs.filter fun a => decide (a.phase = .ticketed) && a.tktOwner == o && a.tkt == tkt).foldl (fun s a =>
    if status = 0 then
      let s1 := s.replayTo core a (some holder) true
      s1.sendHeld core a.slot (a.ga / 65536)
    else if status = 1 then s.onCore core (·.lostAccess a)
    else (s.onCore core (·.faultAccess a rPlbDeny 0x01 0)).sendHeld core a.slot (a.ga / 65536)) s

/-- A request ends in flight with a fault (R340): a ring feed still publishes its tile first (R188). -/
def Job.fail (j : Job) (fcode : Nat) (faddr : W64) : Job :=
  let j1 := { j with fcode := fcode, faddr := faddr, localAddr := false, detail := 0, bursts := [] }
  if reqKind j.w[0] = 6 then { j1 with phase := .filled } else { j1 with phase := .ended 1 fcode }

/-- What a replay notice does to a copy engine's tickets (R348): the bursts it holds are sent again once the engine has read the
record again; with status 2 the request ends, and a lost page ends its actor (R340). -/
def State.noticeAtEngine (s : State) (e o tkt page status : Nat) : State :=
  let hit := fun (b : Burst) => decide (b.phase = .ticketed) && b.owner == o && b.tkt == tkt
  let s1 := s.onEngine e fun g =>
    { g with
      plb := if g.active.any (·.bursts.any hit) then g.plb.filter fun x => !(hintKey x.cls x.range == hintKeyOfPage page) else g.plb
      active := g.active.map fun j =>
        match j.bursts.find? hit with
        | none => j
        | some b =>
          if status = 2 then j.fail (if b.write then 0x09 else 0x08) (BitVec.ofNat 64 b.ga)
          else { j with bursts := j.bursts.map fun b => if hit b then { b with phase := .ready } else b } }
  if status ≠ 1 then s1
  else
    ((s.engine e).active.filter fun j => j.bursts.any hit).foldl (fun s j =>
      s.onCore j.core fun k =>
        if (k.actor j.slot).name = j.name then k.die j.slot rFrameLost 0 (lostDetail (page * 65536)) else k) s1

/-- REPLAY_NOTICE (R141): Matches a replay notice against ticket tables and replays or ends the accesses. -/
def evReplayNotice (n : Nat) (s : State) : Option State :=
  match s.packet n with
  | some p =>
    match p.pay with
    | .notice o tkt page holder status (e :: rest) =>
      let s1 := if rest.isEmpty then s.take n
        else { s with net := s.net.put n { p with pay := .notice o tkt page holder status rest } }
      let s2 := (clusterCores e).foldl (fun s c => if (s.cores.find c).isSome then s.noticeAtCore c o tkt holder status else s) s1
      some (s2.noticeAtEngine e o tkt page status)
    | .notice _ _ _ _ _ [] => some (s.take n)
    | _ => none
  | none => none

/-- The meaning of REPLAY_NOTICE. -/
def execReplayNotice (n : Nat) (s : State) : Answer := .next ((evReplayNotice n s).getD s)

/-! ## First mapping (R419) -/

/-- A page takes a free frame, empty, with an entry of a state. -/
def State.mapFresh (s : State) (o page frame keyslot : Nat) (f : FState) : State :=
  let s1 := s.onOwner o fun w =>
    { w with homes := w.homes.put page { fstate := f, frame := frame, keyslot := keyslot }, moved := w.moved.filter (· != page) }
  if ownerIsBank o then { s1 with words := s1.words.filter fun p => p.1 / 8192 != page }
  else
    { s1 with gmem := s1.gmem.filter fun c => c.1 / 65536 != page, gbad := s1.gbad.filter fun w => w / 8192 != page }

/-- A replica owner takes a frame for a page of a read-duplicate range, with the contents of the home (R146); where it has none free, its
readers are sent to the home. -/
def State.addReplica (s : State) (o page : Nat) (dom : BitVec 16) : State :=
  match (if s.ownerLive o then s.freeFrame o else none) with
  | some f =>
    match s.bindKey o dom with
    | some s1 =>
      s1.onOwner o fun w =>
        { w with homes := w.homes.put page { fstate := .replica, frame := f, keyslot := s1.keyAt o dom }, moved := w.moved.filter (· != page) }
    | none => s
  | none => s

/-- Whether a page is lost at another owner, whose home it had been: it stays lost until its range is unmapped (R148). -/
def State.lostElsewhere (s : State) (o page : Nat) : Bool :=
  s.owners.any fun p => p.1 != o && (p.2.homes.find page).any fun e => decide (e.fstate = .lost)

/-- FIRST_MAPPING (R419): Home owner maps a zeroed frame for an absent page, under the key slot of its domain, and posts the replay notice; a page that
was lost stays so (R148). -/
def evFirstMapping (owner page : Nat) (s0 : State) : Option State :=
  match (s0.owner owner).svcs.find? (fun v => v.page == page && v.code == tAbsent), s0.hintOf page, s0.freeFrame owner with
  | some _, some h, some f =>
    if s0.lostElsewhere owner page then some ((s0.onHome owner page fun _ => { fstate := .lost }).endService owner page owner 1)
    else if gaClass (page * 65536) ≥ 2 ∨ h.home ≠ some owner ∨ !s0.ownerLive owner ∨ s0.pageAt owner page ≠ .held .absent ∧ s0.pageAt owner page ≠ .held .parked then none
    else
      (s0.bindKey owner h.domain).map fun s =>
        let state : FState := if h.duplicated page then .replica else .mapped
        let s1 := if s.pageAt owner page = .held .parked then s.onHome owner page fun e => { e with fstate := state, frame := f }
          else s.mapFresh owner page f (s.keyAt owner h.domain) state
        let s2 := if state = .replica then h.replicas.foldl (fun s o => if o = owner then s else s.addReplica o page h.domain) s1 else s1
        s2.endService owner page owner 0
  | _, _, _ => none

/-- The meaning of FIRST_MAPPING. -/
def execFirstMapping (owner page : Nat) (s : State) : Answer := .next ((evFirstMapping owner page s).getD s)

end Sys2Proof.Machine
end

