-- ==== Sys2Proof/Machine/Copy.lean ====
section
/-! DEFINITION. Copies: COPY, COPY.NB and CQPOP (R337, R338), the copy engine's choice and checks (R192, R341), every request kind
(R342 to R345), its accesses and tickets (R347, R348), and completion records (R339, R340). -/

namespace Sys2Proof.Machine

/-! ## Instructions -/

/-- A request joins the copy FIFO (R191): CP rises. -/
def Core.pushCopy (k : Core) (t : Thread) (name : W64) (w : Vector W64 4) : Core :=
  let r : CopyReq := { id := k.next, w := w, slot := t.slot, name := name, tset := k.tset, fid := t.fid }
  let k1 : Core := { k with fifo := k.fifo ++ [r], next := k.next + 1 }
  k1.onActor t.slot fun a => { a with cp := a.cp + 1 }

/-- The four request words in x[A] to x[A+3] (R337). -/
def Thread.words4 (t : Thread) (a : Reg) : Vector W64 4 := Vector.ofFn fun i => t.readX (a + BitVec.ofNat 5 i.val)

/-- COPY (R337): Appends a copy request to the core's copy FIFO, stalling while it is full. -/
def execCopy (a : Reg) (s : State) : Answer :=
  s.withX (regGroup a 4) fun t => s.access <|
    if s.self.cp ≥ 63 ∨ s.me.fifo.length ≥ 16 then s.stall
    else (s.onMe fun k => k.pushCopy t s.self.name (t.words4 a)).finish id

/-- COPY_NB (R337): Appends a copy request or reports the FIFO busy. -/
def execCopyNb (d a : Reg) (s : State) : Answer :=
  s.withX (d :: regGroup a 4) fun t => s.access <|
    if s.self.cp ≥ 63 then s.stall
    else if s.me.fifo.length ≥ 16 then s.finish (·.writeX d 1)
    else (s.onMe fun k => k.pushCopy t s.self.name (t.words4 a)).finish (·.writeX d 0)

/-- CQPOP (R338): Pops the oldest completion record into a v register as an acquire. -/
def execCqpop (d : Reg) (s : State) : Answer :=
  s.withV [d] [] 0 fun t =>
    let a := s.self
    if a.crCnt = 0 ∨ (a.cchan ≠ 3 ∧ a.popped a.cchan ≥ a.useOf a.cchan) then s.finish (·.writeV d 0)
    else
      let at_ := s.me.recordAt t.slot a.crHead
      let bad := s.me.badRun at_ 32
      let rec_ : V256 := if bad.isSome then 0 else BitVec.ofNat 256 (ofBytes (s.me.mem.readN at_ 32))
      let s1 := (s.onMe fun k => k.dropRecord t.slot (s.now s.cur)).readError bad
      (if a.cchan = 3 then s1 else s1.onSelf (·.countPop a.cchan)).finish (·.writeV d rec_)

/-! ## Bursts (R347) -/

/-- One burst of a request: bytes at a global address, their place in the local region, and the target of a slab scatter. -/
structure Piece where
  ga : Nat
  n : Nat
  off : Nat
  target : Nat := 0
  deriving DecidableEq, Repr

/-- The bursts of a run of global bytes: each lies within 64 aligned bytes. -/
def lines : Nat → Nat → Nat → Nat → List Piece
  | 0, _, _, _ => []
  | f + 1, ga, n, off =>
    if n = 0 then []
    else
      let m := Min.min n (64 - ga % 64)
      { ga := ga, n := m, off := off } :: lines f (ga + m) (n - m) (off + m)

/-- The bursts of a run of `n` bytes. -/
def burstsOf (ga n off : Nat) : List Piece := lines (n / 64 + 2) ga n off

/-- A burst takes its place by address among others, behind those of the same address. -/
def insertPiece (p : Piece) : List Piece → List Piece
  | [] => [p]
  | q :: qs => if p.ga < q.ga then p :: q :: qs else q :: insertPiece p qs

/-- A field of W1, W2 or W3 of a request. -/
def Job.f (j : Job) (i : Fin 4) (hi lo : Nat) : Nat := bits (j.w[i]).toNat hi lo

/-- KIND of a request. -/
def Job.kind (j : Job) : Nat := reqKind j.w[0]
/-- KSPEC of a request. -/
def Job.kspec (j : Job) : Nat := reqKspec j.w[0]
/-- RIDX of a request. -/
def Job.ridx (j : Job) : Nat := reqRidx j.w[0]

/-- The number of targets of a slab scatter that receive blocks (R343). -/
def Job.slabTargets (j : Job) : Nat := (j.f 2 63 58 + 1) * (j.f 2 57 52 + 1)

/-- The bursts of a request, in address order; those of a gather of commons rows too, since each bank performs them so (R347). -/
def Job.pieces (j : Job) (g : Ring) : List Piece :=
  let w1 := (j.w[1]).toNat
  match j.kind with
  | 1 | 2 | 8 | 9 => burstsOf w1 (j.f 3 31 0) (j.f 2 19 0)
  | 10 => if j.kspec = 0 then burstsOf 0 (j.f 3 31 0) (j.f 1 19 0) else burstsOf w1 (j.f 3 31 0) 0
  | 4 =>
    let blk := j.f 3 43 24
    let t := j.slabTargets
    ((List.range (j.f 3 23 0)).flatMap fun n =>
      (burstsOf (w1 + n * blk) blk (j.f 3 63 44 + n / t * blk)).map fun p => { p with target := n % t }) ++
      ((List.range t).drop (j.f 3 23 0)).map fun i => { ga := w1, n := 0, off := j.f 3 63 44, target := i }
  | 5 =>
    let rb := j.f 3 31 16
    let ps := j.indices.zipIdx.flatMap fun p => burstsOf (w1 + p.1 * j.f 3 63 32) rb (j.f 2 39 20 + p.2 * rb)
    if gaClass w1 = 1 then ps.foldl (fun l p => insertPiece p l) [] else ps
  | 6 =>
    let stride := if j.f 2 15 0 = 0 then g.rowb * 32 else j.f 2 15 0
    (List.range g.rows).flatMap fun r => burstsOf (w1 + r * stride) (g.rowb * 32) (j.tile * g.tileBytes + r * g.rowb * 32)
  | _ => []

/-- The classes of global addresses that a request kind permits (R342 to R345). -/
def Job.classes (j : Job) (write : Bool) : List Nat :=
  match j.kind with
  | 1 | 6 => [0, 2, 3]
  | 2 => [0, 3]
  | 8 | 9 => [1]
  | 10 => [0, 1, 3]
  | 7 => if write then [0, 1, 3] else [0, 1, 2, 3]
  | _ => [0, 1, 2, 3]

/-! ## Checks at start (R340, R341) -/

/-- A refusal at start: FCODE, FADDR, LOCAL, DETAIL. -/
structure Refused where
  fcode : Nat
  faddr : W64 := 0
  localAddr : Bool := false
  detail : BitVec 32 := 0
  deriving DecidableEq, Repr

/-- Whether a kind names a local region in RIDX (R342 to R345). -/
def Job.namesRegion (j : Job) : Bool := !(j.kind == 4 || j.kind == 6 || (j.kind == 10 && j.kspec == 1))

/-- Test 0x02: reserved fields, KSPEC, and a rectangle that the flock's fields do not hold (R343). -/
def Job.reservedOk (j : Job) (widths : List Nat) : Bool :=
  let zero := fun (i : Fin 4) (hi lo : Nat) => j.f i hi lo == 0
  zero 0 47 16 && (j.namesRegion || j.ridx == 0) &&
    match j.kind with
    | 1 | 2 | 8 | 9 => j.kspec == 0 && zero 2 63 20 && zero 3 63 32
    | 10 => decide (j.kspec ≤ 1) && zero 3 63 32 && (j.kspec == 1 || zero 1 63 20)
    | 4 =>
      j.kspec == 0 && decide (j.f 2 51 48 ≤ 14) && decide (j.f 2 57 52 + 1 ≤ 2 ^ (widths.getLastD 48)) &&
        (j.f 2 63 58 == 0 || decide (widths.length ≠ 1))
    | 5 => j.kspec == 0 && zero 2 63 40
    | 6 => decide (j.kspec ≤ 3) && zero 2 63 16 && zero 3 63 0
    | _ => decide (j.kspec ≤ 3) && zero 2 63 32 && zero 3 63 0

/-- The local address that FADDR shows for a region (R340). -/
def RegEntry.shown (e : RegEntry) : W64 := BitVec.ofNat 64 (e.base * 1024)

/-- Whether a kind writes its local region. -/
def Job.writesRegion (j : Job) : Bool := j.kind == 1 || j.kind == 8 || j.kind == 10 || j.kind == 5

/-- Tests 0x03 to 0x06 on RIDX: the region, its kind, its rights, and the local range (offset, length). -/
def Job.regionCheck (j : Job) (k : Core) (kind : Nat) (range : Option (Nat × Nat)) : Option Refused :=
  let i := j.ridx
  let e := k.region i
  let idx := BitVec.ofNat 32 i
  if i < 248 ∧ !e.liveOf j.slot then some { fcode := 0x03, detail := idx }
  else if e.kind ≠ kind then some { fcode := 0x04, faddr := e.shown, localAddr := true, detail := idx }
  else if kind = kData ∧ !(if j.writesRegion then e.wr else e.rd) then
    some { fcode := 0x05, faddr := e.shown, localAddr := true, detail := idx }
  else
    match range with
    | some (off, n) =>
      if n > 0 ∧ off + n > e.size * 1024 then
        some { fcode := 0x06, faddr := BitVec.ofNat 64 (e.base * 1024 + off), localAddr := true, detail := idx }
      else none
    | none => none

/-- Tests 0x03 to 0x06 on the region of a gather's index list (R340, R344). -/
def Job.listCheck (j : Job) (k : Core) : Option Refused :=
  let a := j.f 2 19 0
  let n := j.f 3 15 0
  match k.findRegion j.slot a with
  | none => some { fcode := 0x03, faddr := BitVec.ofNat 64 a, localAddr := true, detail := 0xFFFFFFFF }
  | some (i, e) =>
    let idx := BitVec.ofNat 32 i
    if e.kind ≠ kData then some { fcode := 0x04, faddr := e.shown, localAddr := true, detail := idx }
    else if !e.rd then some { fcode := 0x05, faddr := e.shown, localAddr := true, detail := idx }
    else if a + 4 * n > (e.base + e.size) * 1024 then
      some { fcode := 0x06, faddr := BitVec.ofNat 64 a, localAddr := true, detail := idx }
    else none

/-- Test 0x07: the first misaligned field of W1, then W2, then W3 (R340). -/
def Job.alignCheck (j : Job) : Option Refused :=
  let ga := j.w[1]
  let fail := fun (v : W64) (loc : Bool) (n : Nat) => some { fcode := 0x07, faddr := v, localAddr := loc, detail := BitVec.ofNat 32 n }
  let off8 := fun (i : Fin 4) (hi lo : Nat) => decide (j.f i hi lo % 8 ≠ 0)
  let fillsRegion := j.kind == 10 && j.kspec == 0
  if fillsRegion && off8 1 19 0 then fail 0 false 1
  else if !fillsRegion && decide (ga.toNat % 8 ≠ 0) then fail ga false 1
  else
    match j.kind with
    | 1 | 2 | 8 | 9 => if off8 2 19 0 then fail 0 false 2 else if off8 3 31 0 then fail 0 false 3 else none
    | 10 => if off8 3 31 0 then fail 0 false 3 else none
    | 4 => if off8 3 63 44 || off8 3 43 24 then fail 0 false 3 else none
    | 5 =>
      if j.f 2 19 0 % 4 ≠ 0 then fail (BitVec.ofNat 64 (j.f 2 19 0)) true 2
      else if off8 2 39 20 then fail 0 false 2
      else if off8 3 31 16 || off8 3 63 32 then fail 0 false 3 else none
    | 6 => if off8 2 15 0 then fail 0 false 2 else none
    | _ => if off8 2 31 0 then fail 0 false 2 else none

/-- The first of some tests that fails, in the order of their codes. -/
def firstRefused (l : List (Option Refused)) : Option Refused :=
  (l.filterMap id).foldl (fun best r =>
    match best with
    | none => some r
    | some b => if r.fcode < b.fcode then some r else some b) none

/-- The binding of a stream request: at the running firing, in the save area of a pre-empted one, or as the firing left it (R293,
R345). -/
def Core.bindingOf (k : Core) (j : Job) : Option W64 :=
  match j.ghost with
  | some v => some v
  | none =>
    let i := sIndex (BitVec.ofNat 5 j.kspec)
    match k.threadOf j.fid with
    | some t => some (k.thread t).st[i]
    | none =>
      let a := k.actor j.slot
      if a.state = .preempted ∧ a.fid = j.fid then some (k.metaWord (saveBase a.save + 0x550 + 8 * i.val)) else none

/-- Writes the binding of a stream request where it lies. -/
def State.setBinding (s : State) (e : Nat) (j : Job) (v : W64) : State :=
  let i := sIndex (BitVec.ofNat 5 j.kspec)
  if j.ghost.isSome then
    s.onEngine e fun g => { g with active := g.active.map fun q => if q.id = j.id then { q with ghost := some v } else q }
  else
    s.onCore j.core fun k =>
      match k.threadOf j.fid with
      | some t => k.onThread t fun u => { u with st := u.st.set i v }
      | none =>
        let at_ := saveBase (k.actor j.slot).save + 0x550 + 8 * i.val
        (k.noteBad j.slot at_ 8).writeWord at_ v

/-- Test 0x05 on the region of a stream request (R340, R345): a read binding has the engine write the region, a write binding has it read
the region. A stream register without a binding to the region is left to test 0x0D. -/
def Job.streamCheck (j : Job) (k : Core) : Option Refused :=
  let e := k.region j.ridx
  match k.bindingOf j with
  | some v =>
    if sBound v ∧ sRidx v = j.ridx ∧ !(if sWrites v then e.rd else e.wr) then
      some { fcode := 0x05, faddr := e.shown, localAddr := true, detail := BitVec.ofNat 32 j.ridx }
    else none
  | none => none

/-- The checks of R341, in the order of the codes; none where the request may run. -/
def State.copyCheck (s : State) (j : Job) : Option Refused :=
  let k := s.core j.core
  let a := k.actor j.slot
  let kind := j.kind
  if kind = 0 ∨ kind = 3 ∨ kind ≥ 11 then some { fcode := 0x01 }
  else if !j.reservedOk (((s.flock (flockOf j.name)).map (·.widths)).getD []) then some { fcode := 0x02 }
  else
    let region :=
      match kind with
      | 1 | 2 | 8 | 9 => j.regionCheck k kData (some (j.f 2 19 0, j.f 3 31 0))
      | 10 => if j.kspec = 0 then j.regionCheck k kData (some (j.f 1 19 0, j.f 3 31 0)) else none
      | 5 => j.regionCheck k kData (some (j.f 2 39 20, j.f 3 15 0 * j.f 3 31 16))
      | 7 => j.regionCheck k kStream none
      | _ => none
    match firstRefused [region, if kind = 5 then j.listCheck k else if kind = 7 then j.streamCheck k else none, j.alignCheck] with
    | some r => some r
    | none =>
      if kind = 6 then
        let g := a.ring j.kspec
        if !g.valid ∨ g.cnt + g.feed ≥ g.depth then some { fcode := 0x0C, detail := BitVec.ofNat 32 j.kspec } else none
      else if kind = 7 then
        match k.bindingOf j with
        | some v =>
          if sBound v ∧ sRidx v = j.ridx ∧ !sClosed v then none else some { fcode := 0x0D, detail := BitVec.ofNat 32 j.kspec }
        | none => some { fcode := 0x0D, detail := BitVec.ofNat 32 j.kspec }
      else none

/-! ## Starting (R192) -/

/-- Whether a request's actor is still there. -/
def State.jobLives (s : State) (core slot : Nat) (name : W64) : Bool :=
  (s.actor core slot).name == name && (s.actor core slot).state.mortal

/-- Whether the head of a core's copy FIFO can start (R192, R193); a parcel needs no record. -/
def State.canStart (s : State) (e core : Nat) : Option CopyReq :=
  match (s.core core).fifo with
  | [] => none
  | r :: _ =>
    let a := s.actor core r.slot
    if ((s.engine e).active.filter (·.core == core)).length < 4 ∧
        (r.parcel.isSome ∨ a.crCnt + a.crResv < a.crDepth) then some r else none

/-- The cores of a cluster in the order in which the engine looks at them. -/
def State.copyOrder (s : State) (e : Nat) : List Nat :=
  let cs := clusterCores e
  let n := (s.engine e).rr
  cs.drop n ++ cs.take n

/-- Changes a request of an engine. -/
def State.onJob (s : State) (e id : Nat) (f : Job → Job) : State :=
  s.onEngine e fun g => { g with active := g.active.map fun j => if j.id = id then f j else j }

/-- The index list of a gather (R344), with whether it met an uncorrectable error. -/
def Core.gatherList (k : Core) (j : Job) : List Nat × Bool :=
  let a := j.f 2 19 0
  match k.findRegion j.slot a with
  | none => ([], false)
  | some (_, r) =>
    let bs := k.readIn r a (4 * j.f 3 15 0)
    ((List.range (j.f 3 15 0)).map fun i => ofBytes ((bs.drop (4 * i)).take 4), (k.badWord r a (4 * j.f 3 15 0)).isSome)

/-- A request that has passed its checks is set up: a ring feed reserves its tile (R188), a gather reads its list (R344), and a
request with nothing to move is done (R341). -/
def State.beginCopy (s : State) (e : Nat) (j : Job) : State :=
  let k := s.core j.core
  let a := k.actor j.slot
  match j.kind with
  | 6 =>
    let g := a.ring j.kspec
    (s.onJob e j.id fun j => { j with tile := (g.tail + g.feed) % g.depth }).onActor j.core j.slot fun a =>
      a.onRing j.kspec fun g => { g with feed := g.feed + 1 }
  | 5 =>
    let l := k.gatherList j
    if l.2 then s.onJob e j.id (·.fail 0x0B j.w[1])
    else s.onJob e j.id fun j => { j with indices := l.1, phase := if l.1.isEmpty ∨ j.f 3 31 16 = 0 then .ended 0 0 else .running }
  | 7 =>
    if j.f 2 31 0 ≠ 0 then s.onJob e j.id fun j => { j with phase := .running }
    else
      let s1 := s.onJob e j.id fun j => { j with phase := .ended 0 0 }
      match k.bindingOf j with
      | some v => if sWrites v then s1 else s1.setBinding e j (sMake false true (sRidx v) (sHead v) (sCnt v))
      | none => s1
  | _ => s.onJob e j.id fun j => { j with phase := if (j.pieces {}).isEmpty then .ended 0 0 else .running }

/-- COPY_START (R192): The engine takes the next eligible request round-robin into an active place and checks it. -/
def evCopyStart (eng : Nat) (s : State) : Option State :=
  let g := s.engine eng
  if g.gone || decide (g.active.length ≥ 16) || !(s.pkg (engPkg eng)).runs then none
  else
    match (s.copyOrder eng).find? fun c => (s.canStart eng c).isSome with
    | none => none
    | some c =>
      (s.canStart eng c).map fun r =>
        let j : Job := { id := g.next, core := c, slot := r.slot, name := r.name, tset := r.tset, fid := r.fid, w := r.w,
                         startAt := s.now c, parcel := r.parcel }
        let s1 := (s.onCore c fun k => { k with fifo := k.fifo.drop 1 }).onEngine eng fun g =>
          { g with active := g.active ++ [j], next := g.next + 1, rr := (((clusterCores eng).idxOf c) + 1) % 17 }
        match r.parcel with
        | some n =>
          match s1.packet n with
          | some p =>
            match p.pay with
            | .parcel q => { s1 with net := s1.net.put n { p with pay := .parcel { q with phase := .asking, lastAt := s.now c,
                                                                                          firstAt := s.now c } } }
            | _ => s1
          | none => s1
        | none =>
          let s2 := s1.onActor c r.slot fun a => { a with crResv := a.crResv + 1 }
          if r.cancelled then s2.onJob eng j.id fun j => { j with phase := .ended 2 0 }
          else
          match s2.copyCheck j with
          | some f =>
            s2.onJob eng j.id fun j =>
              { j with phase := .ended 1 f.fcode, faddr := f.faddr, localAddr := f.localAddr, detail := f.detail }
          | none => s2.beginCopy eng j

/-- The meaning of COPY_START. -/
def execCopyStart (eng : Nat) (s : State) : Answer := .next ((evCopyStart eng s).getD s)

/-! ## Global accesses of an engine (R347, R348) -/

/-- What the engine's check of a burst gives: its owner (none for the host), or an FCODE. -/
inductive Granted where
  | go (owner : Option Nat) (s : State)
  | fail (fcode : Nat) (s : State)

/-- What running a burst does: it moves on a stage, ends its request with an FCODE, or is performed, with its bytes and whether one
was bad. -/
inductive Ran where
  | wait (s : State)
  | fail (fcode : Nat) (s : State)
  | done (s : State) (data : List Byte) (bad : Bool)

/-- Whether a refill of an engine for an address goes unanswered: its directory chip is lost, and the map names no other yet, or no link carries the
request (R376, R378). -/
def State.refillWaits (s : State) (e ga : Nat) : Bool :=
  let slot := s.rangeSlot (gaRange ga)
  decide (gaClass ga < 3) && (!s.slotServed slot || !s.linked (engPkg e) (s.dirPackage slot))

/-- Whether an engine holds no PLB entry for an address under a domain, and its refill goes unanswered. -/
def State.plbWaits (s : State) (e : Nat) (dom : BitVec 16) (ga : Nat) : Bool :=
  (s.engine e).plb.all (!·.isFor dom (gaClass ga) (gaRange ga)) && s.refillWaits e ga

/-- A refill at an engine for an address under a domain (R135, R348): the entry that takes the old one's place, if any. -/
def State.engineRefill (s : State) (e core : Nat) (dom : BitVec 16) (ga : Nat) : Option PlbEntry × State :=
  let s1 := s.firstTouch core (gaClass ga) (gaRange ga)
  match s1.refilled core dom (gaClass ga) (gaRange ga) with
  | some x => (some x, s1.onEngine e fun g => { g with plb := plbUse g.plb x })
  | none => (none, s1.onEngine e fun g => { g with plb := g.plb.filter fun f => !f.isFor dom (gaClass ga) (gaRange ga) })

/-- The engine's PLB entry for an address under a domain, refilled where it holds none (R135, R341). -/
def State.enginePlb (s : State) (e core : Nat) (dom : BitVec 16) (ga : Nat) : Option PlbEntry × State :=
  match (s.engine e).plb.find? (·.isFor dom (gaClass ga) (gaRange ga)) with
  | some x => (some x, s.onEngine e fun g => { g with plb := plbUse g.plb x })
  | none => s.engineRefill e core dom ga

/-- Ticket-table entries of an engine in use (R348). -/
def Engine.tickets (g : Engine) : Nat := (g.active.map fun j => j.bursts.countP (·.entry)).sum

/-- A burst of a request is noted in place of what is noted of it. -/
def State.putBurst (s : State) (e id : Nat) (b : Burst) : State :=
  s.onJob e id fun j => { j with bursts := (j.bursts.filter fun x => x.idx != b.idx) ++ [b] }

/-- A burst of a request is over. -/
def State.dropBurst (s : State) (e id i : Nat) : State :=
  s.onJob e id fun j => { j with bursts := j.bursts.filter fun x => x.idx != i }

/-- A burst is answered busy, and goes again 256 cycles later (R99, R140). -/
def State.burstBusy (s : State) (e : Nat) (j : Job) (b : Burst) (o : Nat) : State :=
  (s.putBurst e j.id { b with phase := .busy, lastAt := s.now j.core }).countOwner o 0x63 (some (s.actor j.core j.slot).domain)

/-- A burst takes a ticket of a page with its captured operands (R348): while the engine's table is full its request pauses in its place; busy where no
service record is free (R140). -/
def State.burstTicket (s : State) (e : Nat) (j : Job) (b : Burst) (o code : Nat) : Option State :=
  if !b.entry && decide ((s.engine e).tickets ≥ 64) then
    if b.phase = .paused then none else some (s.putBurst e j.id { b with phase := .paused, tag := none })
  else
    match s.openTicket o (b.ga / 65536) code e with
    | none => some (s.burstBusy e j b o)
    | some (t, s1) =>
      some ((s1.putBurst e j.id
        { b with phase := .ticketed, entry := true, tkt := t, owner := o, code := code, since := s.now j.core, tag := none }).countEngine
          e 0x42 (some (s.actor j.core j.slot).domain))

/-- Reads a burst at its target (R97, R104): the bytes, with those of bad words zero, and whether any was bad. -/
def State.burstRead (s : State) (o : Option Nat) (ga n : Nat) : List Byte × Bool :=
  let ws := (List.range (n / 8)).map fun i => ga / 8 + i
  let isBank := (o.map ownerIsBank).getD false
  let bad := fun (w : Nat) => if isBank then (s.word w).poison else s.gbad.contains w
  (ws.flatMap fun w =>
    if bad w then List.replicate 8 0
    else if isBank then (if (s.word w).hasval then toBytes 8 (s.word w).data.toNat else List.replicate 8 0)
    else s.gmem.readN (w * 8) 8,
    ws.any bad)

/-- Writes a burst at its target: commons words as CST.D does (R284, R342), DRAM and host bytes as they are. -/
def State.burstWrite (s : State) (o : Option Nat) (ga : Nat) (bs : List Byte) : State :=
  match o with
  | some o =>
    if ownerIsBank o then
      (List.range (bs.length / 8)).foldl (fun s i =>
        s.makeVersion o (ga / 8 + i) (BitVec.ofNat 64 (ofBytes ((bs.drop (8 * i)).take 8))) true) s
    else
      { s with gmem := s.gmem.writeN ga bs, gbad := s.gbad.filter fun w => !(decide (ga / 8 ≤ w) && decide (w < (ga + bs.length) / 8)) }
  | none => { s with gmem := s.gmem.writeN ga bs }

/-- The counters of a burst of `n` bytes at its owner (R204): each commons word is an access; the words of a stream that share 64 bytes of
DRAM are one burst. -/
def State.countBurst (s : State) (o : Option Nat) (j : Job) (b : Burst) (n : Nat) : State :=
  let dom := (s.actor j.core j.slot).domain
  match o with
  | none => s
  | some o =>
    if ownerIsBank o then s.countOwner o 0x60 (some dom) (n / 8)
    else if j.kind = 7 ∧ b.idx ≠ 0 ∧ b.ga % 64 ≠ 0 then s
    else s.countOwner o (if b.write then 0x81 else 0x80) (some dom)

/-- A burst is performed at its target (R110): the bytes it read or wrote, and whether one was bad. -/
def State.burstPerform (s : State) (o : Option Nat) (j : Job) (b : Burst) (n : Nat) : List Byte × Bool × State :=
  if b.write then (b.data, b.bad, (s.burstWrite o b.ga b.data).countBurst o j b n)
  else ((s.burstRead o b.ga n).1, (s.burstRead o b.ga n).2, s.countBurst o j b n)

/-- The number by which a bank knows an engine as the issuer of tagged accesses (R125, log 111). -/
def issuerOf (e : Nat) : Nat := 2 ^ 22 + e

/-- A permitted burst at its owner: one that carries a tag is answered with the bank's record where the bank holds one; else it is performed
and, on a bank, recorded, or answered busy where the bank's records are all young (R125, R347). -/
def State.burstHere (s : State) (e : Nat) (j : Job) (b : Burst) (o n : Nat) : Ran :=
  match b.tag with
  | none =>
    let r := s.burstPerform (some o) j b n
    .done (r.2.2.dropBurst e j.id b.idx) r.1 r.2.1
  | some t =>
    let bank := bankOf o b.ga
    let now := s.cycle (ownerPkg o)
    let young := (s.bank bank).tags.filter fun r => decide (now - r.seen < 47000)
    let keeps := ownerIsBank o && b.write
    if keeps && (s.bank bank).tags.any fun r => r.core == issuerOf e && r.number == t then
      .wait (s.putBurst e j.id { b with phase := .answered })
    else if keeps && decide (young.length ≥ 1024) then .wait (s.burstBusy e j b o)
    else
      let r := s.burstPerform (some o) j b n
      let s1 := if keeps then r.2.2.onBank bank fun k => { k with tags := young ++ [⟨issuerOf e, t, .value [] 0, now⟩] } else r.2.2
      .wait (s1.putBurst e j.id { b with phase := .answered, data := r.1, bad := r.2.1 })

/-- A burst goes to an owner on another package (R125, R347): it carries a new tag. -/
def State.burstAbroad (s : State) (e : Nat) (j : Job) (b : Burst) (o : Nat) : State :=
  let t := (s.engine e).tag
  (s.onEngine e fun g => { g with tag := (t + 1) % 2 ^ 32 }).putBurst e j.id
    { b with phase := .sent, owner := o, tag := some t, firstAt := s.now j.core, resent := false }

/-- How an owner answers an engine's burst (R138), following moved pages to their new owners: each MOVED is a ticket (R204, R348), and a new owner on
another package is sent the burst with a new tag. A page of the image store has no tickets, and the burst waits for it (R129). -/
def State.burstAt (s : State) (e : Nat) (j : Job) (b : Burst) (bytes : Nat) : Nat → Nat → Option Ran
  | 0, _ => none
  | n + 1, o =>
    let p := s.pkg (ownerPkg o)
    let ticket := fun (code : Nat) => if gaClass b.ga = 2 then none else (s.burstTicket e j b o code).map Ran.wait
    if p.lost then some (.wait (s.onCore j.core fun k => k.die j.slot rFrameLost 0 (lostDetail b.ga)))
    else if !p.runs || !s.linked (engPkg e) (ownerPkg o) then none
    else
      match s.pageAt o (b.ga / 65536) with
      | .unused => some (.fail 0x08 s)
      | .elsewhere q =>
        if s.refillWaits e b.ga then none
        else
          match s.engineRefill e j.core (s.actor j.core j.slot).domain b.ga with
          | (none, s1) => some (.fail 0x08 s1)
          | (some x, s1) =>
            let s2 := s1.countEngine e 0x42 (some (s.actor j.core j.slot).domain)
            if (x.denies (!b.write) b.write).isSome then some (.fail 0x08 s2)
            else if ownerPkg q = engPkg e then s2.burstAt e j { b with tag := none } bytes n q
            else some (.wait (s2.burstAbroad e j b q))
      | .held f =>
        match f with
        | .mapped => some (s.burstHere e j b o bytes)
        | .replica => if b.write then ticket tWprot else some (s.burstHere e j b o bytes)
        | .cow => if b.write then ticket tCow else some (s.burstHere e j b o bytes)
        | .absent | .parked => ticket tAbsent
        | .migrating => ticket tMigrating
        | .lost => some (.wait (s.onCore j.core fun k => k.die j.slot rFrameLost 0 (lostDetail b.ga)))
        | .moved => none

/-- The engine checks an address of a request and chooses its owner (R106, R135, R341). -/
def State.burstGo (s : State) (e : Nat) (j : Job) (ga : Nat) (write : Bool) : Granted :=
  if ga ≥ 2 ^ 57 then .fail 0x08 s
  else if !(j.classes write).contains (gaClass ga) then .fail 0x09 s
  else
    let r := s.enginePlb e j.core (s.actor j.core j.slot).domain ga
    match r.1 with
    | none => .fail 0x08 r.2
    | some x =>
      match x.denies (!write) write with
      | some _ => .fail (if write then 0x09 else 0x08) r.2
      | none => .go (if gaClass ga = 3 then none else some (x.ownerOf ga)) r.2

/-- A burst leaves the engine: at an owner on the package it is over at once; to another package it carries a tag, and keeps it when it goes
again (R125, R347); the host is asked (R107). -/
def State.burstSend (s : State) (e : Nat) (j : Job) (b : Burst) (n : Nat) : Option Ran :=
  if decide (b.ga < 2 ^ 57) && s.plbWaits e (s.actor j.core j.slot).domain b.ga then none else
  match s.burstGo e j b.ga b.write with
  | .fail fc s1 => some (.fail fc s1)
  | .go none s1 => some (.wait (s1.putBurst e j.id { b with phase := .sent, host := true, firstAt := s.now j.core }))
  | .go (some o) s1 =>
    if ownerPkg o = engPkg e then s1.burstAt e j { b with tag := none } n 16 o
    else if b.tag.isSome then some (.wait (s1.putBurst e j.id { b with phase := .sent, owner := o }))
    else some (.wait (s1.burstAbroad e j b o))

/-- Runs burst `i` of a request (R347, R348): a burst that waits for its ticket stays; one to another package is sent again once after 18,800
cycles, and ends the request with 0x11 where no answer has come after 47,000 (R125, R340). -/
def State.burstRun (s : State) (e : Nat) (j : Job) (p : Piece) (i : Nat) (write : Bool) (data : List Byte) (bad : Bool) : Option Ran :=
  let b := (j.bursts.find? fun b => b.idx == i).getD { ga := p.ga, idx := i, write := write, data := data, bad := bad }
  let now := s.now j.core
  let late := b.tag.isSome && decide (b.firstAt + 47000 ≤ now)
  match b.phase with
  | .ticketed => none
  | .paused => if (s.engine e).tickets < 64 then s.burstSend e j b p.n else none
  | .ready => s.burstSend e j b p.n
  | .busy => if late then some (.fail 0x11 s) else if b.lastAt + 256 ≤ now then s.burstSend e j b p.n else none
  | .sent =>
    if b.host then
      let r := s.burstPerform none j b p.n
      if b.firstAt + 940000 ≤ now then none else some (.done (r.2.2.dropBurst e j.id i) r.1 r.2.1)
    else if late then some (.fail 0x11 s)
    else if !b.resent && decide (b.firstAt + 18800 ≤ now) then some (.wait (s.putBurst e j.id { b with resent := true }))
    else s.burstAt e j b p.n 16 b.owner
  | .answered => if late then some (.fail 0x11 s) else some (.done (s.dropBurst e j.id i) b.data b.bad)

/-! ## Running -/

/-- The next burst of a request: the first that is not done and whose page waits for no ticket of the request (R123, R348). -/
def Job.nextPiece (j : Job) (ps : List Piece) : Option (Piece × Nat) :=
  ps.zipIdx.find? fun p =>
    !j.done.contains p.2 && !j.bursts.any fun b => decide (b.phase = .ticketed) && b.ga / 65536 == p.1.ga / 65536

/-- What follows a request's last burst. -/
def Job.over (j : Job) : JobPhase :=
  if j.kind = 6 then .filled else if j.refused.isEmpty then .ended 0 0 else .ended 1 0x0F

/-- A burst has been written: BYTES rises, and a request with no burst left is over. -/
def State.burstDone (s : State) (e : Nat) (j : Job) (i n total : Nat) : State :=
  let j1 := { j with done := i :: j.done, bytes := j.bytes + n }
  (s.onJob e j.id fun q =>
    { q with
      done := j1.done
      bytes := j1.bytes
      startAt := s.now j.core
      phase := if j1.done.length ≥ total then j1.over else q.phase }).countEngine e 0x40
        (some (s.actor j.core j.slot).domain) (j1.bytes / 64 - j.bytes / 64)

/-- Runs one burst of a request of a kind. -/
def State.copyRun (s : State) (e id : Nat) (which : Job → Bool) (f : State → Job → Option State) : Option State :=
  match (s.engine e).active.find? (·.id == id) with
  | none => none
  | some j =>
    if (s.pkg (engPkg e)).runs && which j && decide (j.phase = .running) && j.parcel.isNone && s.jobLives j.core j.slot j.name && !(s.engine e).gone then f s j
    else none

/-- A burst from a global address into a region entry of a core (R342, R344, R345); it waits for a granule that a Cairn take has marked (R410). -/
def State.burstIn (s : State) (e : Nat) (j : Job) (p : Piece) (i total core : Nat) (r : RegEntry) : Option State :=
  if (s.core core).cowHit r (r.base * 1024 + p.off) p.n then none else
  (s.burstRun e j p i false [] false).map fun g =>
    match g with
    | .wait s1 => s1
    | .fail fc s1 => s1.onJob e j.id (·.fail fc (BitVec.ofNat 64 p.ga))
    | .done s1 data bad =>
      let s3 := (s1.onCore core fun k => (k.writeIn r (r.base * 1024 + p.off) data).1).burstDone e j i p.n total
      if bad then s3.onJob e j.id (·.fail 0x0B (BitVec.ofNat 64 p.ga)) else s3

/-- A burst from a region entry, or of a pattern, to a global address (R342). -/
def State.burstOut (s : State) (e : Nat) (j : Job) (p : Piece) (i total : Nat) (bs : List Byte) (bad : Bool) : Option State :=
  (s.burstRun e j p i true bs bad).map fun g =>
    match g with
    | .wait s1 => s1
    | .fail fc s1 => s1.onJob e j.id (·.fail fc (BitVec.ofNat 64 p.ga))
    | .done s1 _ bad =>
      let s2 := s1.burstDone e j i p.n total
      if bad then s2.onJob e j.id (·.fail 0x0B (BitVec.ofNat 64 p.ga)) else s2

/-- A copy into the region that RIDX names. -/
def State.copyIn (s : State) (j : Job) (e : Nat) : Option State :=
  let ps := j.pieces {}
  (j.nextPiece ps).bind fun (p, i) => s.burstIn e j p i ps.length j.core ((s.core j.core).region j.ridx)

/-- A copy out of the region that RIDX names: bad bank words go out as zero, and end the request (R83). -/
def State.copyOut (s : State) (j : Job) (e : Nat) : Option State :=
  let ps := j.pieces {}
  (j.nextPiece ps).bind fun (p, i) =>
    let k := s.core j.core
    let r := k.region j.ridx
    let va := r.base * 1024 + p.off
    let bs := (List.range p.n).map fun x => if k.bad.contains (r.place (va + x) / 8) then 0 else k.mem.read (r.place (va + x))
    s.burstOut e j p i ps.length bs (k.badWord r va p.n).isSome

/-- The pattern of a fill, for a burst (R342). -/
def Job.pattern (j : Job) (n : Nat) : List Byte := (List.range (n / 8)).flatMap fun _ => toBytes 8 (j.w[2]).toNat

/-- COPY_DRAM_TO_REGION (R342): Copies DRAM, image or host bytes into a region, burst by burst. -/
def evCopyDramToRegion (eng id : Nat) (s : State) : Option State :=
  s.copyRun eng id (fun j => j.kind == 1) fun s j => s.copyIn j eng

/-- The meaning of COPY_DRAM_TO_REGION. -/
def execCopyDramToRegion (eng id : Nat) (s : State) : Answer := .next ((evCopyDramToRegion eng id s).getD s)

/-- COPY_REGION_TO_DRAM (R342): Copies a region's bytes to DRAM or the host, burst by burst. -/
def evCopyRegionToDram (eng id : Nat) (s : State) : Option State :=
  s.copyRun eng id (fun j => j.kind == 2) fun s j => s.copyOut j eng

/-- The meaning of COPY_REGION_TO_DRAM. -/
def execCopyRegionToDram (eng id : Nat) (s : State) : Answer := .next ((evCopyRegionToDram eng id s).getD s)

/-- COMMONS_BULK_READ (R342): Reads commons words into a region, each as a plain CLD. -/
def evCommonsBulkRead (eng id : Nat) (s : State) : Option State :=
  s.copyRun eng id (fun j => j.kind == 8) fun s j => s.copyIn j eng

/-- The meaning of COMMONS_BULK_READ. -/
def execCommonsBulkRead (eng id : Nat) (s : State) : Answer := .next ((evCommonsBulkRead eng id s).getD s)

/-- COMMONS_BULK_WRITE (R342): Writes a region's doublewords to commons words, each as a CST.D. -/
def evCommonsBulkWrite (eng id : Nat) (s : State) : Option State :=
  s.copyRun eng id (fun j => j.kind == 9) fun s j => s.copyOut j eng

/-- The meaning of COMMONS_BULK_WRITE. -/
def execCommonsBulkWrite (eng id : Nat) (s : State) : Answer := .next ((evCommonsBulkWrite eng id s).getD s)

/-- GATHER (R344): Copies table rows chosen by an index list into a region. -/
def evGather (eng id : Nat) (s : State) : Option State :=
  s.copyRun eng id (fun j => j.kind == 5) fun s j => s.copyIn j eng

/-- The meaning of GATHER. -/
def execGather (eng id : Nat) (s : State) : Answer := .next ((evGather eng id s).getD s)

/-- RING_FEED (R345): Fills a reserved operand-ring tile from global memory. -/
def evRingFeed (eng id : Nat) (s : State) : Option State :=
  s.copyRun eng id (fun j => j.kind == 6) fun s j =>
    let g := (s.actor j.core j.slot).ring j.kspec
    let ps := j.pieces g
    (j.nextPiece ps).bind fun (p, i) => s.burstIn eng j p i ps.length j.core ((s.core j.core).region g.ridx)

/-- The meaning of RING_FEED. -/
def execRingFeed (eng id : Nat) (s : State) : Answer := .next ((evRingFeed eng id s).getD s)

/-- FILL_REGION (R342): Writes a 64-bit pattern over a region range. -/
def evFillRegion (eng id : Nat) (s : State) : Option State :=
  s.copyRun eng id (fun j => j.kind == 10 && j.kspec == 0) fun s j =>
    let ps := j.pieces {}
    (j.nextPiece ps).bind fun (p, i) =>
      let r := (s.core j.core).region j.ridx
      if (s.core j.core).cowHit r (r.base * 1024 + p.off) p.n then none
      else some <| (s.onCore j.core fun k => (k.writeIn r (r.base * 1024 + p.off) (j.pattern p.n)).1).burstDone eng j i p.n ps.length

/-- The meaning of FILL_REGION. -/
def execFillRegion (eng id : Nat) (s : State) : Answer := .next ((evFillRegion eng id s).getD s)

/-- FILL_GLOBAL (R342): Writes a 64-bit pattern over a global range. -/
def evFillGlobal (eng id : Nat) (s : State) : Option State :=
  s.copyRun eng id (fun j => j.kind == 10 && j.kspec == 1) fun s j =>
    let ps := j.pieces {}
    (j.nextPiece ps).bind fun (p, i) => s.burstOut eng j p i ps.length (j.pattern p.n) false

/-- The meaning of FILL_GLOBAL. -/
def execFillGlobal (eng id : Nat) (s : State) : Answer := .next ((evFillGlobal eng id s).getD s)

/-! ## Slab scatter (R343) -/

/-- The name of target `t` of a slab scatter. -/
def Job.slabName (j : Job) (wl t : Nat) : W64 :=
  let px := j.f 2 57 52 + 1
  BitVec.ofNat 64 (flockOf j.name * 2 ^ 48 + (j.f 2 47 0 + t / px * 2 ^ wl + t % px) % 2 ^ 48)

/-- The bytes that target `t` receives in all: its blocks lie one after another from OFF. -/
def Job.slabShare (j : Job) (t : Nat) : Nat :=
  ((j.f 3 23 0 + j.slabTargets - 1 - t) / j.slabTargets) * j.f 3 43 24

/-- The region of a slab-scatter target (R343): its declared region DECL, of kind data and WR, covering the whole share. -/
def State.slabRegion (s : State) (j : Job) (core slot t : Nat) : Option RegEntry :=
  ((s.core core).regions.find? fun p => p.2.liveOf slot && p.2.decl == j.f 2 51 48).bind fun p =>
    if p.2.kind = kData ∧ p.2.wr ∧ j.f 3 63 44 + j.slabShare t ≤ p.2.size * 1024 then some p.2 else none

/-- SLAB_SCATTER (R343): Spreads blocks of a source over a rectangle of actors' regions; a target without a block is resolved and checked all the same. -/
def evSlabScatter (eng id : Nat) (s : State) : Option State :=
  s.copyRun eng id (fun j => j.kind == 4) fun s j =>
    let ps := j.pieces {}
    (j.nextPiece ps).bind fun (p, i) =>
      let wl := (((s.flock (flockOf j.name)).map (·.widths)).getD []).getLastD 48
      let name := j.slabName wl p.target
      let refuse := fun (s : State) =>
        let s1 := s.onJob eng id fun q =>
          { q with
            refused := if q.refused.contains name then q.refused else q.refused ++ [name]
            faddr := if q.refused.isEmpty then name else q.faddr
            detail := BitVec.ofNat 32 (if q.refused.contains name then q.refused.length else q.refused.length + 1) }
        match (s1.engine eng).active.find? (·.id == id) with
        | some j1 => s1.burstDone eng j1 i 0 ps.length
        | none => s1
      if j.refused.contains name then some (refuse s)
      else
        match s.reach (s.actor j.core j.slot).domain false name with
        | .actor core slot =>
          match s.slabRegion j core slot p.target with
          | some r => if p.n = 0 then some (s.burstDone eng j i 0 ps.length) else s.burstIn eng j p i ps.length core r
          | none => some (refuse s)
        | .pending => if j.startAt + 2 ^ 20 ≤ s.now j.core then some (refuse s) else none
        | .gateway .. | .nobody => some (refuse s)

/-- The meaning of SLAB_SCATTER. -/
def execSlabScatter (eng id : Nat) (s : State) : Answer := .next ((evSlabScatter eng id s).getD s)

/-! ## Streams (R345) -/

/-- One word of a stream has been delivered. -/
def State.streamDone (s : State) (e : Nat) (j : Job) : State :=
  let n := j.bytes / 8 + 1
  (s.onJob e j.id fun q =>
    { q with bytes := q.bytes + 8, startAt := s.now j.core, phase := if 8 * n ≥ j.f 2 31 0 then .ended 0 0 else q.phase }).countEngine e 0x40
      (some (s.actor j.core j.slot).domain) ((j.bytes + 8) / 64 - j.bytes / 64)

/-- The burst of a stream's next word. -/
def Job.wordPiece (j : Job) : Piece := { ga := (j.w[1]).toNat + j.bytes, n := 8, off := 0 }

/-- A word of a read stream: the next source word goes to the buffer's tail; the last closes the binding. -/
def State.streamIn (s : State) (e : Nat) (j : Job) (v : W64) : Option State :=
  let r := (s.core j.core).region j.ridx
  let p := j.wordPiece
  if sClosed v then some (s.onJob e j.id fun q => { q with phase := .ended 3 0 })
  else if sCnt v ≥ r.streamWords || (s.core j.core).cowHit r (r.base * 1024 + 8 * ((sHead v + sCnt v) % r.streamWords)) 8 then none
  else
    (s.burstRun e j p (j.bytes / 8) false [] false).map fun g =>
      match g with
      | .wait s1 => s1
      | .fail fc s1 => s1.onJob e j.id (·.fail fc (BitVec.ofNat 64 p.ga))
      | .done s1 data bad =>
        let at_ := r.base * 1024 + 8 * ((sHead v + sCnt v) % r.streamWords)
        let last := decide (j.bytes + 8 ≥ j.f 2 31 0)
        let s2 := (s1.onCore j.core fun k => (k.writeIn r at_ data).1).setBinding e j (sMake false last (sRidx v) (sHead v) (sCnt v + 1))
        let s3 := s2.streamDone e j
        if bad then s3.onJob e j.id (·.fail 0x0B (BitVec.ofNat 64 p.ga)) else s3

/-- A word of a write stream: the oldest written word goes to the next destination. -/
def State.streamOut (s : State) (e : Nat) (j : Job) (v : W64) : Option State :=
  let k := s.core j.core
  let r := k.region j.ridx
  let p := j.wordPiece
  if sCnt v ≥ r.streamWords then
    (if sClosed v then some (s.onJob e j.id fun q => { q with phase := .ended 3 0 }) else none)
  else
    let at_ := r.base * 1024 + 8 * ((sHead v + sCnt v) % r.streamWords)
    let isBad := (k.badWord r at_ 8).isSome
    (s.burstRun e j p (j.bytes / 8) true (if isBad then List.replicate 8 0 else k.readIn r at_ 8) isBad).map fun g =>
      match g with
      | .wait s1 => s1
      | .fail fc s1 => s1.onJob e j.id (·.fail fc (BitVec.ofNat 64 p.ga))
      | .done s1 _ bad =>
        let s3 := (s1.setBinding e j (sMake true (sClosed v) (sRidx v) (sHead v) (sCnt v + 1))).streamDone e j
        if bad then s3.onJob e j.id (·.fail 0x0B (BitVec.ofNat 64 p.ga)) else s3

/-- STREAM_REQUEST (R345): Moves stream words between global memory and a bound stream buffer. -/
def evStreamRequest (eng id : Nat) (s : State) : Option State :=
  s.copyRun eng id (fun j => j.kind == 7) fun s j =>
    match (s.core j.core).bindingOf j with
    | none => some (s.onJob eng id fun q => { q with phase := .ended 3 0 })
    | some v => if sWrites v then s.streamOut eng j v else s.streamIn eng j v

/-- The meaning of STREAM_REQUEST. -/
def execStreamRequest (eng id : Nat) (s : State) : Answer := .next ((evStreamRequest eng id s).getD s)

/-! ## Ends (R188, R339, R340) -/

/-- RING_FEED_PUBLISH (R188): Publishes a ring feed's tile in start order. -/
def evRingFeedPublish (eng id : Nat) (s : State) : Option State :=
  match (s.engine eng).active.find? (·.id == id) with
  | none => none
  | some j =>
    let earlier := (s.engine eng).active.any fun q =>
      q.core == j.core && q.slot == j.slot && q.kind == 6 && q.kspec == j.kspec && decide (q.id < j.id) &&
        decide (q.phase = .running ∨ q.phase = .filled)
    if j.phase ≠ .filled ∨ earlier then none
    else
      some ((s.onJob eng id fun q => { q with phase := if q.fcode = 0 then .ended 0 0 else .ended 1 q.fcode }).onActor j.core j.slot fun a =>
        a.onRing j.kspec fun g => { g with tail := (g.tail + 1) % g.depth, cnt := g.cnt + 1, feed := g.feed - 1 })

/-- The meaning of RING_FEED_PUBLISH. -/
def execRingFeedPublish (eng id : Nat) (s : State) : Answer := .next ((evRingFeedPublish eng id s).getD s)

/-- The four doublewords of a completion record (R339). -/
def Job.record (j : Job) (status fcode now : Nat) : List W64 :=
  let fault := status == 1
  [BitVec.ofNat 64 (2 ^ 63 + j.kind * 2 ^ 56 + status * 2 ^ 52 + (if fault then fcode * 2 ^ 40 else 0) +
      (if fault && j.localAddr then 2 ^ 34 else 0) + j.tset % 4 * 2 ^ 32 + reqTag j.w[0]),
    BitVec.ofNat 64 j.bytes, if fault then j.faddr else 0,
    BitVec.ofNat 64 ((if fault then j.detail.toNat * 2 ^ 32 else 0) + now % 2 ^ 32)]

/-- COPY_COMPLETION (R339): Writes the completion record, counts it and ends the request. -/
def evCopyCompletion (eng id : Nat) (s : State) : Option State :=
  match (s.engine eng).active.find? (·.id == id) with
  | none => none
  | some j =>
    match j.phase with
    | .ended status fcode =>
      if !s.jobLives j.core j.slot j.name then none
      else
        let now := s.now j.core
        some (((s.onEngine eng fun g => { g with active := g.active.filter fun q => q.id != id }).onCore j.core fun k =>
          (k.putRecord j.slot now (j.record status fcode now)).onCounters j.slot fun a => { a with cp := a.cp - 1 }).countEngine eng 0x41
            (some (s.actor j.core j.slot).domain))
    | _ => none

/-- The meaning of COPY_COMPLETION. -/
def execCopyCompletion (eng id : Nat) (s : State) : Answer := .next ((evCopyCompletion eng id s).getD s)

/-- COPY_HOST_TIMEOUT (R340): Ends a copy with FCODE 0x0E when the host has not answered a burst of it in 940,000 cycles. -/
def evCopyHostTimeout (eng id : Nat) (s : State) : Option State :=
  s.copyRun eng id (fun _ => true) fun s j =>
    (j.bursts.find? fun b => b.host && decide (b.phase = .sent) && decide (b.firstAt + 940000 ≤ s.now j.core)).map fun b =>
      s.onJob eng id (·.fail 0x0E (BitVec.ofNat 64 b.ga))

/-- The meaning of COPY_HOST_TIMEOUT. -/
def execCopyHostTimeout (eng id : Nat) (s : State) : Answer := .next ((evCopyHostTimeout eng id s).getD s)

/-- COPY_TICKET_TIMEOUT (R348): Ends a copy with FCODE 0x12 when a ticket ages 2^20 cycles. -/
def evCopyTicketTimeout (eng id : Nat) (s : State) : Option State :=
  s.copyRun eng id (fun _ => true) fun s j =>
    (j.bursts.find? fun b => decide (b.phase = .ticketed) && decide (b.since + 2 ^ 20 ≤ s.now j.core)).map fun b =>
      s.onJob eng id (·.fail 0x12 (BitVec.ofNat 64 b.ga))

/-- The meaning of COPY_TICKET_TIMEOUT. -/
def execCopyTicketTimeout (eng id : Nat) (s : State) : Answer := .next ((evCopyTicketTimeout eng id s).getD s)

/-! ## What a freed or given region waits for (R304, R349) -/

/-- Whether a request names a region of its actor: its RIDX, its ring, or the region of its index list. -/
def namesRegion (k : Core) (slot i : Nat) (w : Vector W64 4) : Bool :=
  let w0 := w[0]
  let kind := reqKind w0
  match kind with
  | 6 => ((k.actor slot).ring (reqKspec w0)).valid && ((k.actor slot).ring (reqKspec w0)).ridx == i
  | 4 => false
  | 10 => reqKspec w0 == 0 && reqRidx w0 == i
  | 5 => reqRidx w0 == i || (k.regions.get {} i).covers (bits (w[2]).toNat 19 0)
  | _ => reqRidx w0 == i

/-- Whether an active request of the actor names a region. -/
def State.activeNames (s : State) (core slot i : Nat) : Bool :=
  (s.engine (engineOf core)).active.any fun j =>
    j.core == core && j.slot == slot && j.parcel.isNone && namesRegion (s.core core) slot i j.w

/-- Whether a queued request of the actor names a region. -/
def Core.queuedNames (k : Core) (slot i : Nat) : Bool :=
  k.fifo.any fun r => r.slot == slot && r.parcel.isNone && namesRegion k slot i r.w

/-- Whether a queued tile command of the actor names a region. -/
def Core.tileNames (k : Core) (slot i : Nat) : Bool :=
  k.mq.any fun c => c.slot == slot && (cmdRange c.cmd).isSome && c.ridx == i

end Sys2Proof.Machine
end

