-- ==== Sys2Proof/Machine/Firing.lean ====
section
/-! DEFINITION. Firings: selection and start (R33 to R37, R181), effective priority (R35), the watchdog (R40), timers (R69), gates (R47),
deferred traps (R63), and pre-emption and resumption (R75, R76, R182, R195 to R197). -/

namespace Sys2Proof.Machine

/-! ## Send allowance (R179) -/

/-- Entries of the send allowance reserved by firings in progress: RES. -/
def Core.reserved (k : Core) : Nat :=
  ((k.threads.toList.filter (·.busy)).map fun t => t.sendleft.toNat).sum +
    ((k.slots.filter fun p => decide (p.2.state = .preempted)).map fun p => k.savedSendLeft p.2).sum

/-- Free entries of the send allowance. -/
def Core.allowance (k : Core) : Nat := 64 - k.reserved - k.sends.length

/-! ## Holds (R195) -/

/-- Whether a pre-emption request covers the firing of a slot. -/
def Core.covers (k : Core) (slot : Nat) (h : HoldSource) : Bool :=
  let a := k.actor slot
  match h with
  | .slot i => i == slot
  | .yielded i => i == slot
  | .tenant d => a.domain.toNat == d
  | .cairn d => a.domain.toNat == d
  | .power c => (a.fired.map fun f => decide (f.eclass > c)).getD false

/-- Whether the firing of a slot is held. -/
def Core.held (k : Core) (slot : Nat) : Bool := k.holds.any (k.covers slot)

/-- Whether a standing request keeps a slot from being selected: a tenant switch or a cut that names it. -/
def Core.barred (k : Core) (slot : Nat) : Bool :=
  k.holds.any fun h =>
    match h with
    | .slot _ | .tenant _ | .cairn _ => k.covers slot h
    | .power _ | .yielded _ => false

/-- Firings that are running or pre-empted (R75). -/
def Core.firings (k : Core) : Nat := (k.slots.filter fun p => decide (p.2.state = .firing ∨ p.2.state = .preempted)).length

/-! ## Selection (R34) -/

/-- A candidate of the selection logic: slot and handler, with the keys of its choice. -/
structure Pick where
  eprio : Nat
  eclass : Nat
  ready : Nat
  slot : Nat
  handler : Nat
  deriving DecidableEq, Repr

/-- The order of selection: effective priority, energy class, ready time, slot, handler. -/
def Pick.before (p q : Pick) : Bool :=
  let a := [p.eprio, p.eclass, p.ready, p.slot, p.handler]
  let b := [q.eprio, q.eclass, q.ready, q.slot, q.handler]
  decide (a < b)

/-- Whether a handler of a slot is eligible under an energy-class ceiling (R34). -/
def Core.eligible (k : Core) (ceil slot i : Nat) (h : Handler) : Bool :=
  let a := k.actor slot
  decide (a.state = .idle) && k.runnable slot h && !a.hmask.getLsbD i && decide (h.eclass ≤ ceil) &&
    decide (h.prod ≤ k.allowance) && !(k.mxLost && a.mxdecl) && !k.barred slot

/-- The eligible handlers of a slot. -/
def Core.picksOf (k : Core) (ceil slot : Nat) : List Pick :=
  let a := k.actor slot
  (a.handlers.zipIdx.filter fun p => k.eligible ceil slot p.2 p.1).map fun p =>
    { eprio := a.eprio, eclass := p.1.eclass, ready := a.ready, slot := slot, handler := p.2 }

/-- The best of some candidates. -/
def bestPick (l : List Pick) : Option Pick :=
  l.foldl (fun best p =>
    match best with
    | none => some p
    | some b => if p.before b then some p else some b) none

/-- The handler that the selection logic chooses. -/
def Core.select (k : Core) (ceil : Nat) : Option Pick := bestPick (k.slots.flatMap fun p => k.picksOf ceil p.1)

/-- The lowest-numbered idle thread set. -/
def Core.idleSet (k : Core) : Option (Fin 4) := [0, 1, 2, 3].find? fun i => !(k.thread i).busy

/-! ## Resumable firings (R182) -/

/-- The firing that a core resumes first: lowest effective priority number, then earliest pre-emption. -/
def Core.resumable (k : Core) : Option Nat :=
  ((k.slots.filter fun p => decide (p.2.state = .preempted) && !k.held p.1).foldl (fun best p =>
    match best with
    | none => some p
    | some (b : Nat × Actor) => if p.2.eprio < b.2.eprio ∨ (p.2.eprio = b.2.eprio ∧ p.2.preAt < b.2.preAt) then some p else some b)
    none).map (·.1)

/-! ## Starting a firing (R37) -/

/-- WDOGLEFT at firing start (R67). -/
def wdogStart (wdog : Nat) : BitVec 32 := BitVec.ofNat 32 (if wdog = 0 then 67108864 else wdog * 65536)

/-- STATUS at firing start (R70). -/
def Actor.startStatus (a : Actor) : W64 :=
  BitVec.ofNat 64 ((if a.priv then 2 else 0) + (if a.mxdecl then 4 else 0) + (if a.succ then 8 else 0))

/-- The thread set as a firing finds it (R37, R77): the inherited registers of a successor's first firing, else all zero and present. -/
def Core.startThread (k : Core) (p : Pick) (fid : Nat) : Thread :=
  let a := k.actor p.slot
  let h := (a.handlers[p.handler]?).getD { req := 0, eclass := 0, prod := 0, entry := 0, cnt := Vector.replicate 4 0, use := Vector.replicate 4 0 }
  let t : Thread :=
    { busy := true, slot := p.slot, fid := fid, handler := p.handler, pc := BitVec.ofNat 64 (k.regionBase a.code + h.entry)
      status := a.startStatus, eperr := a.heldErr, sendleft := BitVec.ofNat 7 h.prod, wdogleft := wdogStart a.wdog
      deferred := a.heldFault }
  let t1 := match a.inherit with
    | some n => { t with x := n.x, v := n.v, xp := n.xp, vp := n.vp }
    | none => t
  ((t1.writeX 10 (h.req.zeroExtend 64)).writeX 11 (BitVec.ofNat 64 p.handler)).writeX 12 a.name

/-- A firing starts on a thread set. -/
def Core.startFiring (k : Core) (i : Fin 4) (p : Pick) (fid : Nat) : Core :=
  let t := k.startThread p fid
  let k1 : Core :=
    { k with
      accs := k.accs.map fun a => if a.slot = p.slot ∧ !a.orphan ∧ a.entry then { a with tset := i, parked := false } else a
      holds := k.holds.filter fun h =>
        match h with
        | .yielded s => !(decide ((k.actor s).state = .preempted) && (k.actor s).tsetf == i.val)
        | _ => true }
  ((k1.onThread i fun _ => t).onActor p.slot fun a =>
    { a with
      state := .firing, tsetf := i, fid := fid, handler := p.handler, eprio := a.prio, popcnt := 0, fires := a.fires + 1
      heldFault := none, heldErr := 0, inherit := none, succ := false }).countOf p.slot 0x03

/-- Firings that a change of the holds has made resumable take their flock's priority again (R35, R182). -/
def Core.freshlyFree (k before : Core) (now : Nat) : Core :=
  k.slots.foldl (fun k p =>
    if p.2.state = .preempted ∧ before.held p.1 ∧ !k.held p.1 then k.onActor p.1 fun a => { a with eprio := a.prio, agedAt := now } else k) k

/-- Thread sets stop issuing exactly while a request covers their firing (R196). A firing whose last request is withdrawn before its
context has been saved simply issues on (log 96). -/
def Core.stopCovered (k : Core) : Core :=
  { k with threads := k.threads.map fun t => if t.busy then { t with stopping := k.held t.slot } else t }

/-- FIRING_START (R34): Selection logic starts the best eligible handler on an idle thread set. -/
def evFiringStart (core : Nat) (s : State) : Option State :=
  let k := s.core core
  if !s.coreLive core || !(s.pkg (corePkg core)).runs || k.firings ≥ 8 || k.resumable.isSome then none
  else
    match k.idleSet, k.select (s.cceil core) with
    | some i, some p =>
      let fid := ((k.actor p.slot).inherit.map (·.fid)).getD s.serial
      let s1 := if (k.actor p.slot).inherit.isSome then s else { s with serial := s.serial + 1 }
      some (s1.setCore core (((k.startFiring i p fid).freshlyFree k (s.now core)).stopCovered))
    | _, _ => none

/-- The meaning of FIRING_START. -/
def execFiringStart (core : Nat) (s : State) : Answer := .next ((evFiringStart core s).getD s)

/-! ## Waiting -/

/-- Whether an actor waits for a firing, or for its pre-empted one to resume (R35). -/
def Core.waitsItsTurn (k : Core) (slot : Nat) : Bool :=
  let a := k.actor slot
  (decide (a.state = .idle) && a.runnable) || (decide (a.state = .preempted) && !k.held slot)

/-- Whether an actor's effective priority number falls now (R35). -/
def Core.agesAt (k : Core) (slot now : Nat) : Bool :=
  k.waitsItsTurn slot && decide ((k.actor slot).eprio > 0) && decide ((k.actor slot).agedAt + 65536 ≤ now)

/-- PRIORITY_AGEING (R35): Lowers an actor's effective priority number every 65,536 cycles of waiting. -/
def evPriorityAgeing (core slot : Nat) (s : State) : Option State :=
  if (s.core core).agesAt slot (s.now core) then
    some (s.onActor core slot fun a => { a with eprio := a.eprio - 1, agedAt := a.agedAt + 65536 })
  else none

/-- The meaning of PRIORITY_AGEING. -/
def execPriorityAgeing (core slot : Nat) (s : State) : Answer := .next ((evPriorityAgeing core slot s).getD s)

/-- A thread set by its number. -/
def tsetOf (ts : Nat) : Fin 4 := Fin.ofNat 4 ts

/-- WATCHDOG_EXPIRY (R40): Kills the actor with WATCHDOG when the firing's time reaches the limit. -/
def evWatchdogExpiry (core ts : Nat) (s : State) : Option State :=
  let t := (s.core core).thread (tsetOf ts)
  if t.busy && decide (t.wdogleft = 0) then some (s.onCore core (·.die t.slot rWatchdog 0 0)) else none

/-- The meaning of WATCHDOG_EXPIRY. -/
def execWatchdogExpiry (core ts : Nat) (s : State) : Answer := .next ((evWatchdogExpiry core ts s).getD s)

/-- TIMER_EXPIRY (R69): Places a TIMEOUT notice on c3 and clears ARM when CYCLE reaches the deadline. -/
def evTimerExpiry (core slot : Nat) (s : State) : Option State :=
  if (s.actor core slot).timerDue (s.now core) then some (s.onCore core (·.expireTimer core slot (s.now core))) else none

/-- The meaning of TIMER_EXPIRY. -/
def execTimerExpiry (core slot : Nat) (s : State) : Answer := .next ((evTimerExpiry core slot s).getD s)

/-- The group of an actor at the succession level of its flock (R18, R47). -/
def State.gateGroup (s : State) (name : W64) : Nat :=
  match s.flock (flockOf name) with
  | some f => indexOf name / 2 ^ (f.widths.drop f.succl).sum
  | none => indexOf name

/-- Whether two names belong to one gate group. -/
def State.gateMates (s : State) (a b : W64) : Bool := flockOf a == flockOf b && s.gateGroup a == s.gateGroup b

/-- Whether an actor of a name's gate group has not executed RETS (R47): it is not yet in a slot, or its slot is not gated. -/
def State.gateShut (s : State) (name : W64) : Bool :=
  s.dir.any fun p => s.gateMates p.2.name name &&
    (p.2.state == 3 || (p.2.state == 1 && (s.liveActor p.2.name).any fun m => decide ((s.actor m.1 m.2).state ≠ .gated)))

/-- The gated slots that wait at the gate of a name's group, as core and slot: an actor that has taken another name waits at the gate of
its old one. -/
def State.gateWaiters (s : State) (name : W64) : List (Nat × Nat) :=
  s.cores.flatMap fun c =>
    (c.2.slots.filter fun p => decide (p.2.state = .gated) && s.gateMates p.2.gateName name).map fun p => (c.1, p.1)

/-- GATE_OPEN (R47): Releases gated successors once every actor of the group has executed RETS. -/
def evGateOpen (core slot : Nat) (s : State) : Option State :=
  let a := s.actor core slot
  if decide (a.state = .gated) && !s.gateShut a.gateName then
    some (((core, slot) :: s.gateWaiters a.gateName).foldl (fun s m =>
      s.onCore m.1 fun k => (k.onActor m.2 fun a => { a with state := if a.state = .gated then .idle else a.state }).wake m.2 (s.now m.1)) s)
  else none

/-- The meaning of GATE_OPEN. -/
def execGateOpen (core slot : Nat) (s : State) : Answer := .next ((evGateOpen core slot s).getD s)

/-! ## Deferred traps (R63) -/

/-- A deferred fault as the trap that it becomes: imprecise, with the program counter of its access. -/
def Deferred.trap (d : Deferred) : Trap :=
  let c := d.cause.toNat
  { reason := bits c 47 40, sub := bits c 39 32, detail := BitVec.ofNat 32 (bits c 31 0), va := d.va, gaf := c.testBit 62, imp := true,
    pc := d.pc }

/-- DEFERRED_TRAP (R63): Takes a deferred fault at the next instruction boundary of the firing. -/
def evDeferredTrap (core ts : Nat) (s : State) : Option State :=
  let i := tsetOf ts
  let t := (s.core core).thread i
  match t.deferred with
  | some d =>
    if t.busy then some (s.onCore core fun k => (k.onThread i fun t => { t with deferred := none }).takeTrap i d.trap) else none
  | none => none

/-- The meaning of DEFERRED_TRAP. -/
def execDeferredTrap (core ts : Nat) (s : State) : Answer := .next ((evDeferredTrap core ts s).getD s)

/-! ## Pre-emption (R195 to R197) -/

/-- Whether the source of a pre-emption request asks for it at a core now (R195): the scheduler firmware at any time, the power controller
while the ceiling stands so, the Cairn engine while a cut of the domain is under way. -/
def State.wantsHold (s : State) (core : Nat) (src : HoldSource) : Bool :=
  match src with
  | .slot _ | .tenant _ => true
  | .power c => decide (c = s.cceil core) && decide (c < 3)
  | .cairn d => decide (d < 2 ^ 16) && s.cut (BitVec.ofNat 16 d)
  | .yielded _ => false

/-- Whether the source of a standing request withdraws it now (R195). -/
def State.dropsHold (s : State) (core : Nat) (src : HoldSource) : Bool :=
  match src with
  | .slot _ | .tenant _ => true
  | .power c => decide (c < s.cceil core)
  | .cairn _ => !s.wantsHold core src
  | .yielded _ => false

/-- Whether a source may hold several requests of one kind at once (R197): the scheduler firmware. -/
def holdRepeats : HoldSource → Bool
  | .slot _ | .tenant _ => true
  | .power _ | .cairn _ | .yielded _ => false

/-- PREEMPTION_REQUEST (R195): A tenant, power or Cairn request arrives and the covered firings stop issuing. -/
def evPreemptionRequest (core : Nat) (src : HoldSource) (s : State) : Option State :=
  if !s.wantsHold core src || ((s.core core).holds.contains src && !holdRepeats src) || !s.coreLive core then none
  else some (s.onCore core fun k => ({ k with holds := k.holds ++ [src] } : Core).stopCovered)

/-- The meaning of PREEMPTION_REQUEST. -/
def execPreemptionRequest (core : Nat) (src : HoldSource) (s : State) : Answer := .next ((evPreemptionRequest core src s).getD s)

/-- The requests that stand once one is withdrawn: a power request stays for the classes above the new ceiling (R195). -/
def Core.holdsAfter (k : Core) (src : HoldSource) (ceil : Nat) : List HoldSource :=
  let rest := k.holds.erase src
  match src with
  | .power _ => if ceil < 3 ∧ !rest.contains (.power ceil) then rest ++ [.power ceil] else rest
  | .slot _ | .tenant _ | .cairn _ | .yielded _ => rest

/-- PREEMPTION_WITHDRAW (R195, R197): Withdraws one pre-emption request; the firings that none covers any more become resumable. -/
def evPreemptionWithdraw (core : Nat) (src : HoldSource) (s : State) : Option State :=
  if s.dropsHold core src && (s.core core).holds.contains src then
    some (s.onCore core fun k => ((({ k with holds := k.holdsAfter src (s.cceil core) } : Core).freshlyFree k (s.now core)).stopCovered))
  else none

/-- The meaning of PREEMPTION_WITHDRAW. -/
def execPreemptionWithdraw (core : Nat) (src : HoldSource) (s : State) : Answer := .next ((evPreemptionWithdraw core src s).getD s)

/-- The doublewords of a save area in order (R76). A register that is not present is saved as 0. -/
def Thread.context (t : Thread) (opcnt : W64) : List W64 :=
  let zx := fun {n : Nat} (v : BitVec n) => v.zeroExtend 64
  t.pc :: ((List.range 31).map fun i => if t.xp.getLsbD (i + 1) then (t.x[i + 1]?).getD 0 else 0) ++
    (t.v.toList.zipIdx.flatMap fun p => [0, 1, 2, 3].map fun j => if t.vp.getLsbD p.2 then BitVec.ofNat 64 (lane 64 p.1 j) else 0) ++ [zx t.xp, zx t.vp] ++ t.m.toList ++ t.st.toList ++
    [opcnt, t.status, t.cause, t.faultva, t.faultpc, zx t.faultins, t.fpctl, t.qnt, t.eperr, zx t.vlen, zx t.sendleft, zx t.wdogleft] ++
    [(t.deferred.map fun d => d.cause ||| (1#64 <<< 63)).getD 0, (t.deferred.map (·.pc)).getD 0] ++ List.replicate 68 0

/-- The free save area that a context takes (R75, R196): the lowest (log 115). -/
def Core.freeSave (k : Core) : Option Nat :=
  (List.range 8).find? fun i => !k.slots.any fun p => decide (p.2.state = .preempted) && p.2.save == i

/-- The context of a thread set goes to a save area; its firing is pre-empted (R196 phase 3). -/
def Core.saveContext (k : Core) (i : Fin 4) (area : Nat) : Core :=
  let t := (k.thread i).land 1
  let a := k.actor t.slot
  let k1 : Core :=
    { k.writeWords (saveBase area) ((t.context a.opcnt).flatMap fun v => toBytes 8 v.toNat) with
      accs := k.accs.map fun x => if x.slot = t.slot ∧ !x.orphan ∧ x.entry then { x with parked := true } else x
      next := k.next + 1 }
  ((k1.onThread i fun _ => {}).onActor t.slot fun a =>
    { a with state := .preempted, save := area, heldFault := t.deferred, preAt := k.next }).countOf t.slot 0x04

/-- PREEMPTION_SAVE (R196): After the matrix queue drains, writes the context into a save area and parks tickets. A trap at the same
boundary is taken first (R73). -/
def evPreemptionSave (core ts : Nat) (s : State) : Option State :=
  let k := s.core core
  let i := tsetOf ts
  let t := k.thread i
  match k.freeSave with
  | some area =>
    if t.busy && t.stopping && !k.trapsHere i && !k.mq.any (·.slot == t.slot) then some (s.setCore core (k.saveContext i area)) else none
  | none => none

/-- The meaning of PREEMPTION_SAVE. -/
def execPreemptionSave (core ts : Nat) (s : State) : Answer := .next ((evPreemptionSave core ts s).getD s)

/-- The firing that a save area holds (R76). -/
def Core.loadContext (k : Core) (a : Actor) (slot : Nat) : Thread :=
  let b := saveBase a.save
  let d := fun (off : Nat) => k.readWord (b + off)
  { busy := true, slot := slot, fid := a.fid, handler := a.handler
    x := Vector.ofFn fun i => if i.val = 0 then 0 else d (8 * i.val)
    v := Vector.ofFn fun i => vecOf ((List.range 4).map fun j => d (0x100 + 32 * i.val + 8 * j))
    xp := (d 0x500).setWidth 32, vp := (d 0x508).setWidth 32
    m := Vector.ofFn fun i => d (0x510 + 8 * i.val)
    st := Vector.ofFn fun i => d (0x550 + 8 * i.val)
    pc := d 0, status := d 0x578, cause := d 0x580, faultva := d 0x588, faultpc := d 0x590, faultins := (d 0x598).setWidth 32
    fpctl := d 0x5A0, qnt := d 0x5A8, eperr := d 0x5B0, vlen := (d 0x5B8).setWidth 6, sendleft := (d 0x5C0).setWidth 7
    wdogleft := (d 0x5C8).setWidth 32, deferred := a.heldFault }

/-- A pre-empted firing is restored on a thread set (R76, R182). -/
def Core.resume (k : Core) (i : Fin 4) (slot : Nat) : Core :=
  let a := k.actor slot
  let t0 := k.loadContext a slot
  let t := match k.badRun (saveBase a.save) 0x5E0 with
    | some at_ => { t0 with eperr := Machine.recordErr t0.eperr 0 at_ }
    | none => t0
  let k1 : Core :=
    { k with accs := k.accs.map fun x => if x.slot = slot ∧ !x.orphan ∧ x.entry then { x with tset := i, parked := false } else x }
  (k1.onThread i fun _ => t).onActor slot fun a =>
    let n := (k.mem.read64 (saveBase a.save + 0x570)).toNat
    { a with
      state := .firing, tsetf := i, save := 0, heldFault := none, eprio := a.prio
      cl := bits n 5 0, cs := bits n 13 8, cp := bits n 21 16, mt := bits n 29 24 }

/-- RESUMPTION (R182): Restores a resumable firing from its save area onto an idle thread set. -/
def evResumption (core : Nat) (s : State) : Option State :=
  let k := s.core core
  if !s.coreLive core || !(s.pkg (corePkg core)).runs then none
  else
    match k.idleSet, k.resumable with
    | some i, some slot => some (s.setCore core ((k.resume i slot).stopCovered))
    | _, _ => none

/-- The meaning of RESUMPTION. -/
def execResumption (core : Nat) (s : State) : Answer := .next ((evResumption core s).getD s)

end Sys2Proof.Machine
end

