-- ==== Sys2Proof/Machine/Order.lean ====
section
/-! DEFINITION. The ordering instructions (R116, R118, R294, R295). -/

namespace Sys2Proof.Machine

/-- Whether the target of an access lies within a fence's scope (R116): 0 thread set, 1 core, 2 chip, 3 pod. -/
def Access.inScope (a : Access) (core scope : Nat) : Bool :=
  match scope with
  | 0 => false
  | 1 => coreIsMem core && a.owner == memOwner core
  | 2 => ownerPkg a.owner == corePkg core
  | _ => true

/-- Whether a global address that an actor on a core reaches lies within a fence's scope (R116). -/
def State.gaInScope (s : State) (core scope : Nat) (dom : BitVec 16) (ga : Nat) : Bool :=
  match s.refilled core dom (gaClass ga) (gaRange ga) with
  | some e => gaClass ga != 3 && (match scope with
    | 0 => false
    | 1 => coreIsMem core && e.ownerOf ga == memOwner core
    | _ => ownerPkg (e.ownerOf ga) == corePkg core)
  | none => false

/-- Whether a name is that of an actor within a fence's scope of a slot. -/
def State.nameInScope (s : State) (core slot scope : Nat) (name : W64) : Bool :=
  match s.reach (s.actor core slot).domain false name with
  | .actor c i => (match scope with
    | 0 => c == core && i == slot
    | 1 => c == core
    | _ => corePkg c == corePkg core)
  | .pending | .gateway .. | .nobody => false

/-- Whether a copy lies within a scope (R116): a region or ring that it names is the actor's own, so it lies within every scope; a fill of
global memory and a slab scatter have only the addresses and targets that they reach. -/
def State.copyInScope (s : State) (j : Job) (scope : Nat) : Bool :=
  let dom := (s.actor j.core j.slot).domain
  let wl := (((s.flock (flockOf j.name)).map (·.widths)).getD []).getLastD 48
  decide (scope ≥ 3) || j.namesRegion || j.kind == 6 || (j.pieces {}).any fun p =>
    s.gaInScope j.core scope dom p.ga || (j.kind == 4 && s.nameInScope j.core j.slot scope (j.slabName wl p.target))

/-- A copy request as the engine would take it. -/
def CopyReq.job (r : CopyReq) (core : Nat) : Job :=
  { id := r.id, core := core, slot := r.slot, name := r.name, tset := r.tset, fid := r.fid, w := r.w }

/-- The copies counted in an actor's CP that lie outside a scope. -/
def State.copiesOutside (s : State) (core slot scope : Nat) : Nat :=
  (((s.core core).fifo.filter fun r => r.slot == slot && r.parcel.isNone).countP fun r => !s.copyInScope (r.job core) scope) +
    (((s.engine (engineOf core)).active.filter fun j => j.core == core && j.slot == slot && j.parcel.isNone).countP fun j =>
      !s.copyInScope j scope)

/-- The tile commands counted in an actor's MT that name no region, ring or accumulator (R116): MSYNC and MCHK. -/
def Core.placelessCmds (k : Core) (slot : Nat) : Nat :=
  k.mq.countP fun c => c.slot == slot && (cmdOpc c.cmd == 0x01 || cmdOpc c.cmd == 0x05)

/-- Whether a fence can proceed (R116): no older access of a named class within its scope is unperformed. At pod scope every copy and every
tile command lies within it. -/
def State.fenceDone (s : State) (mask : BitVec 3) (scope : Nat) : Bool :=
  let a := s.self
  let slot := s.th.slot
  (!mask.getLsbD 0 || !s.me.accs.any fun x => x.slot == slot && !x.orphan && !x.performed && x.inScope s.cur scope) &&
    (!mask.getLsbD 1 || decide (a.cp ≤ s.copiesOutside s.cur slot scope)) &&
    (!mask.getLsbD 2 || decide (a.mt ≤ if scope ≥ 3 then 0 else s.me.placelessCmds slot))

/-- FENCE (R116): Stalls until older accesses of the named classes within the scope are performed. -/
def execFence (q : BitVec 2) (c : BitVec 3) (s : State) : Answer :=
  if s.fenceDone c q.toNat then s.finish id else s.stall

/-- SRCMEM of an error record (R70). -/
def errSrc (v : W64) : Nat := bits v.toNat 61 59

/-- DATA_ERROR as EFENCE and the retirement check raise a recorded error (R294): none where EPERR records none. -/
def State.errorTrap (s : State) : Option Answer :=
  let v := s.th.eperr
  if v.getLsbD 63 then
    some (s.trap rDataError (errSrc v) 0 (BitVec.ofNat 64 (bits v.toNat 53 0)) (gaf := decide (errSrc v ≠ 0)))
  else none

/-- EFENCE (R294): Fences every class at pod scope, waits for error reports and raises DATA_ERROR if recorded. -/
def execEfence  (s : State) : Answer :=
  if s.fenceDone 7 3 && !s.me.accs.any (fun x => x.slot == s.th.slot && !x.orphan) then
    match s.errorTrap with
    | some r => r
    | none => s.finish id
  else s.stall

/-- Whether a ticketed store or atomic of a slot still awaits its replay, counted or, after a restore, not (R118, R407). -/
def Core.awaitsReplay (k : Core) (slot : Nat) : Bool := k.accs.any fun a => a.slot == slot && !a.orphan && a.entry && a.op.writes

/-- WAITC (R118, R123, R295): Stalls until every outstanding-operation counter is at or below its immediate, and with a CS immediate of 0 until
no ticketed store or atomic awaits its replay. -/
def execWaitc (l q p m : BitVec 6) (s : State) : Answer :=
  let a := s.self
  if a.cl ≤ l.toNat ∧ a.cs ≤ q.toNat ∧ a.cp ≤ p.toNat ∧ a.mt ≤ m.toNat ∧ !(q == 0 && s.me.awaitsReplay s.th.slot) then s.finish id
  else s.stall

end Sys2Proof.Machine
end

