-- ==== Sys2Proof/Machine/Talk.lean ====
section
/-! DEFINITION. The actor instructions: receiving (R300), sending (R301), regions and parcels (R303 to R305), spawning (R306), links,
monitors, kills and exits (R307 to R309), RETIRE (R310), YIELD (R311) and supervision rules (R314). -/

namespace Sys2Proof.Machine

/-! ## Receiving -/

/-- Whether RECV finds a channel empty (R300): the completion channel, a channel that has given its USE, or one with nothing
waiting. -/
def Core.recvEmpty (k : Core) (slot c : Nat) : Bool :=
  let a := k.actor slot
  decide (a.cchan ≠ 3 ∧ c = a.cchan) || decide (a.popped c ≥ a.useOf c) || decide ((k.chan slot c).cnt = 0)

/-- What RECV puts into the thread set. -/
def Thread.receive (t : Thread) (d b : Reg) (e : W64 × W64 × Vector W64 8) : Thread :=
  (({ t with m := e.2.2 } : Thread).writeX d e.1).writeX b e.2.1

/-- RECV (R300): Pops the oldest message of a channel into m0 to m7 with its header and sender, or reports empty. -/
def execRecv (d b : Reg) (c : BitVec 2) (s : State) : Answer :=
  s.withX [d, b] fun t =>
    if s.me.recvEmpty t.slot c.toNat then s.finish fun u => (u.writeX d 0).writeX b 0
    else
      (((s.onMe fun k => k.dropHead t.slot c.toNat (s.now s.cur)).onSelf (·.countPop c.toNat)).readError (s.me.headBad t.slot c.toNat)).finish
        (·.receive d b (s.me.headEntry t.slot c.toNat))

/-! ## Sending -/

/-- The message that an instruction sends. -/
def State.message (s : State) (dst choice : W64) (chan : Nat) (kind : BitVec 3) (every : Bool) (body : Vector W64 8) : Msg :=
  { dst := dst, inc := BitVec.ofNat 8 choice.toNat, named := choice.getLsbD 8, chan := chan, kind := kind, sinc := s.self.incarn,
    sender := s.self.name, domain := s.self.domain, everyDomain := every, body := body }

/-- A message enters the send allowance (R179, R301): one entry moves from RES to INF, and the message is on its way once its release
condition holds. -/
def State.sendNow (s : State) (m : Msg) : State :=
  let k := s.me
  let e : SendEntry := { id := k.next, slot := s.th.slot, fid := s.th.fid, tset := k.tset, order := k.next, msg := m,
                         firstAt := s.now s.cur }
  ((s.onMe fun k => { k with sends := k.sends ++ [e], next := k.next + 1 }).onTh fun t => { t with sendleft := t.sendleft - 1 }).post
    (corePkg s.cur) (.message m (.entry s.cur k.next) none)

/-- PROD of the fired handler. -/
def Actor.prodOf (a : Actor) : Nat := (a.fired.map Handler.prod).getD 0

/-- The sending instructions (R301): SEND_LIMIT beyond the production bound. -/
def State.sendOrTrap (s : State) (m : Msg) : Answer :=
  if s.th.sendleft = 0 then s.trap rSendLimit 0 s.self.prodOf else (s.sendNow m).finish id

/-- SEND (R301): Sends m0 to m7 to a named actor and channel from the send allowance. -/
def execSend (a b : Reg) (c : BitVec 2) (s : State) : Answer :=
  s.withX [a, b] fun t => s.sendOrTrap (s.message (t.readX a) (t.readX b) c.toNat mSend false t.m)

/-- SEND_NB (R301): Sends a message or reports no allowance instead of trapping. -/
def execSendNb (d a b : Reg) (c : BitVec 2) (s : State) : Answer :=
  s.withX [a, b, d] fun t =>
    if t.sendleft = 0 then s.finish (·.writeX d 1)
    else (s.sendNow (s.message (t.readX a) (t.readX b) c.toNat mSend false t.m)).finish (·.writeX d 0)

/-- SENDI (R301): Sends a message built from two x registers. -/
def execSendi (d a b : Reg) (c : BitVec 2) (s : State) : Answer :=
  s.withX [a, b, d] fun t => s.sendOrTrap (s.message (t.readX a) 0 c.toNat mSendi false (body8 [t.readX d, t.readX b]))

/-- A privileged instruction traps PRIV in a firing without privilege (R229 step 7, R297). -/
def State.privileged (s : State) (k : Answer) : Answer := if s.th.isPriv then k else s.trap rPriv 0x01

/-- PSEND (R301): Privileged send that reaches every actor. -/
def execPsend (a b : Reg) (c : BitVec 2) (s : State) : Answer :=
  s.privileged <| s.withX [a, b] fun t => s.sendOrTrap (s.message (t.readX a) (t.readX b) c.toNat mSend true t.m)

/-! ## Regions -/

/-- The result of RALLOC when nothing was allocated (R303). -/
def rallocFail (why : Nat) : W64 := BitVec.ofNat 64 (2 ^ 63 + why * 2 ^ 40)

/-- Whether RALLOC accepts a descriptor (R303). -/
def rallocOk (v : W64) : Bool :=
  let r := RegDecl.ofWord v.toNat
  decide (v.toNat < 2 ^ 21) && decide (1 ≤ r.size) && decide (r.size ≤ 368) && (r.kind == kData || r.kind == kStream) && skewOk r.skew r.pitch

/-- RALLOC (R303): Allocates a region from a descriptor and returns its index and base or a failure. -/
def execRalloc (d a : Reg) (s : State) : Answer :=
  s.withX [a, d] fun t =>
    let v := t.readX a
    let r := RegDecl.ofWord v.toNat
    if !rallocOk v then s.finish (·.writeX d (rallocFail 3))
    else
      match s.me.freeEntry, s.me.findRun r.size with
      | none, _ => s.finish (·.writeX d (rallocFail 1))
      | some _, none => s.finish (·.writeX d (rallocFail 2))
      | some i, some b =>
        (s.onMe fun k =>
          ({ k with regions := k.regions.put i { r.entry t.slot 15 with base := b, born := k.next } } : Core).scrub b r.size).finish
            (·.writeX d (BitVec.ofNat 64 (i * 2 ^ 32 + b * 1024)))

/-- Whether a stream register of a firing is bound to a region. -/
def Thread.bindsRegion (t : Thread) (i : Nat) : Bool := t.st.toList.any fun v => sBound v && sRidx v == i

/-- REGION_DENY that RFREE and GIVE raise on the region index they are given (R304, R305). -/
def State.denyRegion (s : State) (sub i : Nat) : Answer := s.trap rRegionDeny sub i

/-- A drain is over: MT of its issuer falls (R200, R334). -/
def State.endDrain (s : State) (n : Nat) (d : Drain) : State :=
  let s1 := s.take n
  if s1.jobLives d.core d.slot d.name then s1.onCore d.core (·.onCounters d.slot fun a => { a with mt := a.mt - 1 }) else s1

/-- A drain is refused: its issuer is told (R334). -/
def State.refuseDrain (s : State) (n : Nat) (d : Drain) (pkg die reason code : Nat) (inc : BitVec 8) : State :=
  (s.endDrain n d).delivery pkg die d.name d.inc reason d.dst inc (deliveryDetail code d.chan (BitVec.ofNat 64 d.off))

/-- The MDRAINs of other actors into regions of an actor are stopped, with NOPROC to their issuers (R164 step 3, R304). -/
def State.stopDrains (s : State) (core : Nat) (name : W64) (inc : BitVec 8) (which : Nat → Bool) : State :=
  s.net.foldl (fun s p =>
    match p.2.pay with
    | .drain d =>
      if d.dst = name ∧ d.name ≠ name ∧ which d.tridx then s.refuseDrain p.1 d (corePkg core) (coreDie core) rNoproc 0 inc else s
    | _ => s) s

/-- Whether an MDRAIN of an actor into a region of its own is queued or on its way (R304). -/
def State.drainsInto (s : State) (core slot i : Nat) : Bool :=
  let k := s.core core
  let name := (k.actor slot).name
  (k.mq.any fun c => c.slot == slot && cmdOpc c.cmd == 0x0B && c.sca == name && bits (cmdDw c.cmd 1) 7 0 == i) ||
    s.net.any fun p => match p.2.pay with
      | .drain d => d.core == core && d.slot == slot && d.name == name && d.dst == name && d.tridx == i
      | _ => false

/-- RFREE (R304): Frees a region once no copy, feed or tile command of the actor names it; MDRAINs of others into it are stopped. -/
def execRfree (a : Reg) (s : State) : Answer :=
  s.withX [a] fun t =>
    let i := bits (t.readX a).toNat 7 0
    let k := s.me
    let e := k.region i
    if i ≥ 248 || !e.valid || e.owner != t.slot then s.denyRegion 0x01 i
    else if e.tomb then (if e.pend then s.stall else (s.onMe (·.dropRegion i)).finish id)
    else if !(e.kind == kData || e.kind == kStream) || t.bindsRegion i then s.denyRegion 0x04 i
    else if k.queuedNames t.slot i || s.activeNames s.cur t.slot i || k.tileNames t.slot i || s.drainsInto s.cur t.slot i then s.stall
    else ((s.stopDrains s.cur s.self.name s.self.incarn (· == i)).onMe fun k => (k.dropRegion i).scrub e.base e.size).finish id

/-- The entries of a region that its owner gives to an actor of the same core (R87): it leaves the giver, who keeps a tombstone if an
entry is free for one, and belongs to nobody until the notice is placed. -/
def Core.giveHere (k : Core) (slot i : Nat) : Core :=
  let e := k.region i
  let k1 := k.onRegion i fun e => { e with tomb := true, pend := true, owner := 64, age := k.next }
  let k2 : Core :=
    match k1.freeEntry with
    | some j => { k1 with regions := k1.regions.put j { e with tomb := true, pend := false, owner := slot, age := k.next } }
    | none => k1
  { k2 with next := k.next + 1 }

/-- The giver's entry when the receiver is on another core (R153): a tombstone with PEND, and an entry of the copy FIFO with RIDX, the channel
in KSPEC, the receiver's name and the tag (R346). -/
def Core.giveAway (k : Core) (t : Thread) (name : W64) (i parcel : Nat) (dst : W64) (chan : Nat) (tag : W64) : Core :=
  let r : CopyReq := { id := k.next, w := #v[BitVec.ofNat 64 (3 * 2 ^ 60 + i * 2 ^ 52 + chan * 2 ^ 48), dst, tag, 0], slot := t.slot, name := name,
                       tset := k.tset, fid := t.fid, parcel := some parcel }
  let k1 := k.onRegion i fun e => { e with tomb := true, pend := true, age := k.next }
  { k1 with fifo := k1.fifo ++ [r], next := k.next + 1 }

/-- The parcel that GIVE makes of a region. -/
def State.parcelOf (s : State) (i : Nat) (dst : W64) (chan : Nat) (tag : W64) (same : Bool) : Parcel :=
  let e := s.me.region i
  { giver := s.self.name, giverInc := s.self.incarn, giverCore := s.cur, giverEntry := some i, domain := s.self.domain, base := e.base,
    size := e.size, kind := e.kind, rd := e.rd, wr := e.wr, skew := e.skew, pitch := e.pitch, dst := dst, chan := chan, tag := tag,
    phase := if same then .asking else .queued, sameCore := same, firstAt := s.now s.cur, lastAt := s.now s.cur }

/-- Whether a name stands for an actor of the issuing core, within the sender's reach. -/
def State.isHere (s : State) (name : W64) : Bool :=
  match s.reach s.self.domain false name with
  | .actor c _ => c == s.cur
  | _ => false

/-- GIVE (R305): Hands a data or stream region to a named actor and channel as a parcel. -/
def execGive (d a b : Reg) (c : BitVec 2) (s : State) : Answer :=
  s.withX [a, b, d] fun t => s.access <|
    let i := bits (t.readX b).toNat 7 0
    let k := s.me
    let e := k.region i
    let here := s.isHere (t.readX a)
    if i ≥ 248 || !e.valid || e.owner != t.slot then s.denyRegion 0x01 i
    else if e.tomb then s.denyRegion 0x02 i
    else if !(e.kind == kData || e.kind == kStream) || t.bindsRegion i then s.denyRegion 0x04 i
    else if s.activeNames s.cur t.slot i || (!here && decide (k.fifo.length ≥ 16)) then s.stall
    else
      let p := s.parcelOf i (t.readX a) c.toNat (t.readX d) here
      let n := s.serial
      ((s.post (corePkg s.cur) (.parcel p)).onMe fun k => if here then k.giveHere t.slot i else k.giveAway t s.self.name i n (t.readX a) c.toNat (t.readX d)).finish id

/-! ## Spawning -/

/-- Whether a work index is one that a member of a flock can have (R17, R306). -/
def validIndex (widths : List Nat) (w : Nat) : Bool := decide (w < 2 ^ widths.sum) && decide (w ≠ 2 ^ 48 - 1)

/-- SPAWN (R306): Reserves a spawn-list entry for a new member of the own flock and reports the outcome. -/
def execSpawn (d a : Reg) (s : State) : Answer :=
  s.withX [a, d] fun t =>
    let w := indexOf (t.readX a)
    let me := s.self
    if !validIndex (s.widths me.name) w then s.finish (·.writeX d 2)
    else if s.me.spawns.length ≥ 32 then s.finish (·.writeX d 1)
    else
      let e : Spawn := { id := s.me.next, name := BitVec.ofNat 64 (flockOf me.name * 2 ^ 48 + w), msg := t.m, sender := me.name,
                         sinc := me.incarn, rst := false, supv := ((s.dirEntry me.name).map (·.supv)).getD 0, filled := false,
                         slot := t.slot, tset := s.me.tset, order := s.me.next }
      (s.onMe fun k => { k with spawns := k.spawns ++ [e], next := k.next + 1 }).finish (·.writeX d 0)

/-! ## Links and monitors (R307, R308) -/

/-- The free link-table index that a new entry takes: the lowest (log 95). -/
def Core.freeLink (k : Core) : Option Nat := (List.range 256).find? fun i => (k.links.find i).isNone

/-- Adds a link-table entry at a free index. -/
def Core.addLink (k : Core) (e : LinkEntry) : Core :=
  match k.freeLink with
  | some i => { k with links := k.links.put i e }
  | none => k

/-- Removes the link-table entries that a test names. -/
def Core.dropLinks (k : Core) (f : LinkEntry → Bool) : Core := { k with links := k.links.filter fun p => !f p.2 }

/-- Whether a link-table entry ties a slot to a peer by a kind. -/
def LinkEntry.ties (e : LinkEntry) (kind slot : Nat) (peer : W64) : Bool := e.kind == kind && e.slot == slot && e.peer == peer

/-- The request that goes to a peer's core. -/
def State.linkReq (s : State) (op : LinkOp) (peer : W64) (ref : BitVec 16) : LinkReq :=
  { op := op, asker := s.self.name, askerInc := s.self.incarn, askerCore := s.cur, askerSlot := s.th.slot, domain := s.self.domain,
    peer := peer, pinc := s.liveInc peer, ref := ref }

/-- EXIT or DOWN that answers a LINK or MONITOR (R157, R307, R420). -/
def LinkReq.answer (r : LinkReq) (s : State) (pkg die reason : Nat) (detail : W64) (inc : BitVec 8) : Signal :=
  { dst := r.asker, inc := r.askerInc, kind := if r.op = .monitor then sDown else sExit, reason := reason, sub := 0, ref := r.ref,
    subject := r.peer, origpkg := pkg, origdie := die, sinc := inc, detail := detail, stamp := BitVec.ofNat 64 (s.cycle pkg),
    linkAnswer := true }

/-- Whether a name has an actor that a link can reach now. -/
def Who.lives : Who → Bool
  | .actor .. | .gateway .. => true
  | .pending | .nobody => false

/-- A link or monitor is asked for (R157, R307): an entry here and a request at the peer's core, or NOPROC at once. -/
def State.tie (s : State) (r : LinkReq) : State :=
  if (s.reach r.domain false r.peer).lives then
    (s.onMe (·.addLink { kind := if r.op = .monitor then 2 else 1, slot := s.th.slot, ref := r.ref, peer := r.peer
                         pinc := r.pinc })).post (corePkg s.cur) (.linkReq r)
  else s.signal (corePkg s.cur) (r.answer s (corePkg s.cur) (coreDie s.cur) rNoproc 0 0)

/-- LINK (R307): Creates a link with a peer actor. -/
def execLink (a : Reg) (s : State) : Answer :=
  s.withX [a] fun t =>
    let peer := t.readX a
    if peer = s.self.name ∨ (s.me.links.any fun p => p.2.ties 1 t.slot peer) then s.finish id
    else if s.me.freeLink.isNone then
      (s.delivery (corePkg s.cur) (coreDie s.cur) s.self.name s.self.incarn rOverflow peer (s.liveInc peer) 8).finish id
    else (s.tie (s.linkReq .link peer 0)).finish id

/-- UNLINK (R307): Removes a link at both ends without a signal. -/
def execUnlink (a : Reg) (s : State) : Answer :=
  s.withX [a] fun t =>
    let peer := t.readX a
    if s.me.links.any fun p => p.2.ties 1 t.slot peer then
      ((s.onMe (·.dropLinks fun e => e.ties 1 t.slot peer)).post (corePkg s.cur) (.linkReq (s.linkReq .unlink peer 0))).finish id
    else s.finish id

/-- The number after a monitor reference: from 0xFFFF to 1. -/
def refAfter (r : Nat) : Nat := if r ≥ 0xFFFF then 1 else r + 1

/-- The first number after a reference that the slot does not hold in use (R307). -/
def Core.newRef (k : Core) (slot : Nat) : Nat → Nat → Nat
  | 0, r => refAfter r
  | n + 1, r =>
    if k.links.any fun p => p.2.kind == 2 && p.2.slot == slot && p.2.ref.toNat == refAfter r then k.newRef slot n (refAfter r) else refAfter r

/-- MONITOR (R307): Creates a monitor of a peer and returns its reference. -/
def execMonitor (d a : Reg) (s : State) : Answer :=
  s.withX [a, d] fun t =>
    if s.me.freeLink.isNone then s.finish (·.writeX d 0)
    else
      let ref := BitVec.ofNat 16 (s.me.newRef t.slot 256 s.self.lastRef.toNat)
      ((s.onSelf fun n => { n with lastRef := ref }).tie (s.linkReq .monitor (t.readX a) ref)).finish (·.writeX d (ref.zeroExtend 64))

/-- DEMON (R307): Removes a monitor by reference at both ends. -/
def execDemon (a : Reg) (s : State) : Answer :=
  s.withX [a] fun t =>
    let ref := BitVec.ofNat 16 (t.readX a).toNat
    match s.me.links.find? fun p => p.2.kind == 2 && p.2.slot == t.slot && p.2.ref == ref with
    | some (_, e) =>
      ((s.onMe (·.dropLinks fun e => e.kind == 2 && e.slot == t.slot && e.ref == ref)).post (corePkg s.cur)
        (.linkReq (s.linkReq .demonitor e.peer ref))).finish id
    | none => s.finish id

/-- TRAPEX (R307): Sets TRAPEXIT and returns its old value. -/
def execTrapex (d a : Reg) (s : State) : Answer :=
  s.withX [a, d] fun t =>
    (s.onSelf fun n => { n with trapexit := (t.readX a).getLsbD 0 }).finish (·.writeX d (ofBool64 s.self.trapexit))

/-! ## Kills and exits (R309) -/

/-- A Kill goes to a name; one that names the issuer ends its firing here. -/
def State.killName (s : State) (dst : W64) (every : Bool) (reason : Nat) : Answer :=
  if dst = s.self.name then .next (s.dieSelf reason 0)
  else (s.post (corePkg s.cur) (.kill dst s.self.name s.self.incarn s.self.domain every reason (s.now s.cur) false)).finish id

/-- KILL (R309): Kills a reachable named actor with KILLED. -/
def execKill (a : Reg) (s : State) : Answer :=
  s.withX [a] fun t => s.killName (t.readX a) false rKilled

/-- PKILL (R309): Privileged kill of any domain's actor with KILLED or CORE_LOST. -/
def execPkill (a b : Reg) (s : State) : Answer :=
  s.privileged <| s.withX [a, b] fun t =>
    let r := bits (t.readX b).toNat 7 0
    if r = rKilled ∨ r = rCoreLost then s.killName (t.readX a) true r else s.illegal 0x03

/-- EXIT (R309): The issuing actor dies with the given reason and detail. -/
def execExit (a b : Reg) (s : State) : Answer :=
  s.withX [a, b] fun t =>
    let r := bits (t.readX a).toNat 7 0
    if !reasonAssigned r || r == rSucceeded then s.illegal 0x03 else .next (s.dieSelf r (t.readX b))

/-! ## Ending a firing -/

/-- A firing of a slot ends (R31, R32, R39): its items are consumed, its thread set is free with nothing left in it, its ticket-table
entries are parked (R145), and the slot looks at its handlers again. -/
def Core.endFiring (k : Core) (i : Fin 4) (now : Nat) (next : ActState) : Core :=
  let t := k.thread i
  let k1 := ((k.consume t.slot now).onThread i fun _ => {})
  let r := k1.anyRunnable t.slot
  let k2 : Core := { k1 with accs := k1.accs.map fun a => if a.slot = t.slot ∧ !a.orphan ∧ a.entry then { a with parked := true } else a }
  k2.onActor t.slot fun a =>
    { a with
      state := next, popcnt := 0, runnable := r, ready := if r then now else a.ready, agedAt := if r then now else a.agedAt
      heldFault := t.deferred }

/-- RETIRE (R39): Ends the firing after CL drains, with retirement check, consumption and counter write-back. -/
def execRetire (s : State) : Answer :=
  if s.self.cl > 0 then s.stall
  else
    match s.errorTrap with
    | some r => r
    | none => .next ((s.letGoAll s.cur s.th.fid s.th.st).onMe fun k => k.endFiring k.tset (s.now s.cur) .idle)

/-- Whether another actor's handler could start instead (R311). -/
def Core.othersReady (k : Core) (ceil slot : Nat) : Bool :=
  k.slots.any fun p => p.1 != slot && (k.picksOf ceil p.1).any fun q => decide (q.eprio ≤ (k.actor slot).eprio)

/-- YIELD (R311): Pre-empts the firing when another eligible handler waits and every thread set is busy. -/
def execYield (s : State) : Answer :=
  let k := s.me
  if k.idleSet.isNone && decide (k.firings < 8) && k.othersReady (s.cceil s.cur) s.th.slot then
    (s.onMe fun k => { k with holds := k.holds ++ [.yielded s.th.slot] }).finish fun t => { t with stopping := true }
  else s.finish id

/-! ## Supervision rules (R314) -/

/-- Rule `n` of a supervisor, by its place in the core's table. -/
def Core.ruleAt (k : Core) (slot n : Nat) : Option Nat := (k.sups.find? fun p => p.2.slot == slot && p.2.rule == n).map (·.1)

/-- SUPSET (R314): Sets a supervision rule from m0 to m2. -/
def execSupset (d a : Reg) (s : State) : Answer :=
  s.withX [a, d] fun t =>
    let n := bits (t.readX a).toNat 3 0
    let r := RuleDecl.ofWords (t.m[0]).toNat (t.m[1]).toNat (t.m[2]).toNat
    let foreign := r.flock != 0 && ((s.flock r.flock).map (·.domain)) != some s.self.domain
    if !r.ok || foreign then s.finish (·.writeX d 2)
    else
      match (s.me.ruleAt t.slot n).or s.me.freeSups.head? with
      | none => s.finish (·.writeX d 1)
      | some i =>
        (s.onMe fun k => { k with sups := k.sups.put i (r.entry t.slot n (flockOf s.self.name)) }).finish (·.writeX d 0)

/-- SUPDEL (R314): Removes a supervision rule. -/
def execSupdel (d a : Reg) (s : State) : Answer :=
  s.withX [a, d] fun t =>
    match s.me.ruleAt t.slot (bits (t.readX a).toNat 3 0) with
    | none => s.finish (·.writeX d 1)
    | some i => (s.onMe fun k => { k with sups := k.sups.del i }).finish (·.writeX d 0)

end Sys2Proof.Machine
end

