-- ==== Sys2Proof/Machine/Ends.lean ====
section
/-! DEFINITION. What an exit sends (R157, R164 step 7, R170, R420), shared by deaths and successions, the rules of supervisors (R159),
and the names that wait for a restart. -/

namespace Sys2Proof.Machine

/-! ## Signals of an exit -/

/-- An exit of an actor, as its signals tell of it; for CHILD_EXIT, what a restart needs. -/
structure Exit where
  name : W64
  inc : BitVec 8
  reason : Nat
  sub : Nat
  detail : W64
  core : Nat := 0
  rrec : Nat := 0
  revive : List W64 := []
  deriving DecidableEq, Repr

/-- A signal of an exit, from a package and die. -/
def Exit.signal (x : Exit) (s : State) (pkg die kind : Nat) (dst : W64) (inc : BitVec 8) (ref : BitVec 16) : Signal :=
  { dst := dst, inc := inc, kind := kind, reason := x.reason, sub := x.sub, ref := ref, subject := x.name, origpkg := pkg,
    origdie := die, sinc := x.inc, detail := x.detail, stamp := BitVec.ofNat 64 (s.cycle pkg), core := x.core, rrec := x.rrec,
    revive := x.revive }

/-- The link-table entries of a slot of a kind, in table order. -/
def Core.linksOf (k : Core) (slot kind : Nat) : List LinkEntry := (k.links.map (·.2)).filter fun e => e.slot == slot && e.kind == kind

/-- The signals of an exit (R164 step 7): EXIT to each linked peer, DOWN to each watcher, CHILD_EXIT to the supervisor. -/
def State.sendExit (s : State) (pkg die : Nat) (ls ws : List LinkEntry) (supv : W64) (x : Exit) : State :=
  let s1 := ls.foldl (fun s e => s.signal pkg (x.signal s pkg die sExit e.peer e.pinc 0)) s
  let s2 := ws.foldl (fun s e => s.signal pkg (x.signal s pkg die sDown e.peer e.pinc e.ref)) s1
  if supv = 0 then s2 else s2.signal pkg (x.signal s2 pkg die sChildExit supv (s2.liveInc supv) 0)

/-- The signals of an exit of the actor in a slot, and the end of its link-table entries. -/
def State.exitOf (s : State) (core slot : Nat) (supv : W64) (x : Exit) : State :=
  let k := s.core core
  (s.sendExit (corePkg core) (coreDie core) (k.linksOf slot 1) (k.linksOf slot 3) supv x).onCore core (·.dropLinks fun e => e.slot == slot)

/-! ## Rules (R159) -/

/-- Whether a rule covers a name. -/
def SupEntry.coversName (e : SupEntry) (name : W64) : Bool :=
  e.flock == flockOf name && decide (e.lo ≤ indexOf name) && decide (indexOf name ≤ e.hi)

/-- The rule of a child: the lowest-numbered entry of its supervisor that covers it, with its place in the core's table. -/
def Core.ruleOf (k : Core) (slot : Nat) (name : W64) : Option (Nat × SupEntry) :=
  (k.sups.filter fun p => p.2.slot == slot && p.2.coversName name).foldl (fun best p =>
    match best with
    | none => some p
    | some (b : Nat × SupEntry) => if p.2.rule < b.2.rule then some p else some b) none

/-- Whether a rule restarts a child after an exit with a reason. -/
def SupEntry.restarts (e : SupEntry) (reason : Nat) : Bool :=
  reason != rSucceeded && (e.mode == 0 || (e.mode == 1 && reason != rNormal))

/-- The group of a name at the supervision level of its flock (R18). -/
def State.supGroup (s : State) (name : W64) : Nat :=
  match s.flock (flockOf name) with
  | some f => groupOf f.widths (indexOf name) f.supvl
  | none => indexOf name

/-- The live children of a supervisor, in ascending order of their names. -/
def State.childrenOf (s : State) (supv : W64) : List DirEntry :=
  (s.dir.map (·.2)).filter fun e => e.supv == supv && e.state == 1 && !isGateway e.name

/-- The child ended by a restart scope of a supervisor that still waits for its death (R160). -/
def State.inScope (s : State) (supv name : W64) : Bool := s.scopes.any fun c => c.supv == supv && c.waiting.contains name

/-- Whether a name's supervisor is dying and has ended it (R161). -/
def State.endedBySupv (s : State) (supv name : W64) : Bool :=
  match s.dirEntry supv with
  | some e =>
    let a := s.actor e.core e.slot
    a.name == supv && (a.dying.map fun d => d.ended.contains name).getD false
  | none => false

/-- Whether a restart is to follow a death (R155): by the rule of a live supervisor, in one of its restart scopes, or after a dying
supervisor's own restart. -/
def State.restartFollows (s : State) (supv name : W64) (reason : Nat) : Bool :=
  s.inScope supv name || s.endedBySupv supv name ||
    match s.liveActor supv with
    | some (c, i) => (((s.core c).ruleOf i name).map fun p => p.2.restarts reason).getD false
    | none => false

/-! ## Names that exit -/

/-- Live actors of a flock (R25): those that the directory knows, pending and exiting ones among them (log 87). -/
def State.flockLive (s : State) (n : Nat) : Nat := (s.dir.filter fun p => flockOf p.2.name == n).length

/-- The launch service's DOWN to the launching gateway actor when the last actor of a flock has exited (R24). R420 has no row for it: ORIGDIE
and INCARN are 0 (log 116). -/
def State.flockDown (s : State) (n : Nat) : State :=
  match s.flock n with
  | none => s
  | some f =>
    if f.supv ≠ 0 ∨ s.flockLive n > 0 then s
    else
      s.signal f.pkg
        { dst := f.gateway, inc := s.liveInc f.gateway, kind := sDown, reason := f.firstBad.getD rNormal, sub := 0, ref := 0,
          subject := BitVec.ofNat 64 (n * 2 ^ 48 + (2 ^ 48 - 1)), origpkg := f.pkg, origdie := 0, sinc := 0,
          detail := BitVec.ofNat 64 f.abnormal, stamp := BitVec.ofNat 64 (s.cycle f.pkg) }

/-- A name is free: its actor has exited for good. -/
def State.nameGone (s : State) (name : W64) : State := (s.freeName name).flockDown (flockOf name)

/-- A pending name is free when no restart follows, and so are the names that its death had ended (R161); the depth of supervision bounds the
descent. -/
def State.giveUpTree : Nat → State → W64 → State
  | 0, s, _ => s
  | n + 1, s, name =>
    match s.dirEntry name with
    | some e => if e.state = 3 then e.ended.foldl (State.giveUpTree n) (s.nameGone name) else s
    | none => s

/-- A name that waited for a restart is free when none follows. -/
def State.giveUpName (s : State) (name : W64) : State := State.giveUpTree (s.dir.length + 1) s name

/-- Whether the directory holds a dead actor's name pending, under its restart record and no other (R155). -/
def State.awaits (s : State) (name : W64) (rrec : Nat) : Bool :=
  match s.dirEntry name with
  | some e => e.state == 3 && e.rrec == rrec
  | none => false

/-- A dead actor is not restarted: its name, where the directory still holds it for that, is free, and so are those of the children that its
death had ended (R161). -/
def State.noRestart (s : State) (name : W64) (rrec : Nat) (revive : List W64) : State :=
  revive.foldl State.giveUpName (if s.awaits name rrec then s.giveUpName name else s)

/-- A dead child is not restarted. -/
def State.giveUp (s : State) (g : Signal) : State := s.noRestart g.subject g.rrec g.revive

end Sys2Proof.Machine
end

