-- ==== Sys2Proof/Machine/Parcels.lean ====
section
/-! DEFINITION. Parcels after GIVE (R87, R153, R305) and the delivery of MDRAINs (R334). -/

namespace Sys2Proof.Machine

/-! ## The ends of a hand-over -/

/-- The parcel that a packet carries. -/
def State.parcelAt (s : State) (n : Nat) : Option Parcel :=
  match s.packet n with
  | none => none
  | some p =>
    match p.pay with
    | .parcel q => some q
    | _ => none

/-- Changes the parcel of a packet. -/
def State.onParcel (s : State) (n : Nat) (f : Parcel → Parcel) : State :=
  match s.packet n with
  | none => s
  | some p =>
    match p.pay with
    | .parcel q => { s with net := s.net.put n { p with pay := .parcel (f q) } }
    | _ => s

/-- A parcel is over: its packet and its place in the engine are gone. -/
def State.endParcel (s : State) (n : Nat) (p : Parcel) : State :=
  (s.take n).onEngine (engineOf p.giverCore) fun g => { g with active := g.active.filter fun j => j.parcel != some n }

/-- The granules that a giver held go back to its core's free pool (R88, R153): its entry stays a tombstone without PEND, or is free
where the region was given within the core. -/
def Core.releaseGiven (k : Core) (p : Parcel) : Core :=
  match p.giverEntry with
  | none => k
  | some i =>
    let k1 := k.scrub p.base p.size
    if (k1.region i).owner = 64 then k1.dropRegion i else k1.onRegion i fun e => { e with pend := false }

/-- A hand-over is refused (R153): the granules return to the giver's core, and the giver is told. -/
def State.refuseParcel (s : State) (n : Nat) (p : Parcel) (pkg die reason code : Nat) (inc : BitVec 8) : State :=
  ((s.endParcel n p).onCore p.giverCore (·.releaseGiven p)).delivery pkg die p.giver p.giverInc reason p.dst inc
    (deliveryDetail code p.chan 0)

/-- The die of the unit that sends a parcel: its giver's, or, where it comes from no core, the host port's. -/
def Parcel.die (p : Parcel) : Nat := if p.giverEntry.isNone then hostDie else coreDie p.giverCore

/-- A refusal by the core that was asked. -/
def State.refuseParcelAt (s : State) (n : Nat) (p : Parcel) (core reason code : Nat) (inc : BitVec 8) : State :=
  s.refuseParcel n p (corePkg core) (coreDie core) reason code inc

/-! ## Reservation (R153 steps 2 and 3) -/

/-- The entry that a receiving core reserves for a parcel: its granules are held, and no actor reaches it. -/
def Parcel.reservedEntry (p : Parcel) (base : Nat) : RegEntry :=
  { valid := true, tomb := true, pend := true, base := base, size := p.size, owner := 64, kind := p.kind, rd := p.rd, wr := p.wr,
    skew := p.skew, pitch := p.pitch, decl := 15 }

/-- The receiving core reserves what a parcel needs, or answers a refusal code. -/
def Core.reserveFor (k : Core) (p : Parcel) (slot : Nat) (here : Bool) : Except Nat (Nat × Core) :=
  if k.chanFull slot p.chan then .error 1
  else if here then .ok (p.giverEntry.getD 0, k.reservePlace slot p.chan)
  else
    match k.freeEntry, k.findRun p.size with
    | none, _ => .error 2
    | some _, none => .error 3
    | some j, some b => .ok (j, ({ k with regions := k.regions.put j { p.reservedEntry b with born := k.next } } : Core).reservePlace slot p.chan)

/-- The number of the allocation of a slot's mailbox: a succession that keeps the mailbox keeps it. -/
def Core.boxBorn (k : Core) (slot : Nat) : Nat := (k.region (k.actor slot).mbox).born

/-- Whether the mailbox in which a parcel has a place reserved is still that of its slot (R153). -/
def Core.keepsBox (k : Core) (p : Parcel) : Bool := decide ((k.actor p.rslot).state ≠ .free) && k.boxBorn p.rslot == p.rbox

/-- PARCEL_RESERVATION (R153): Receiver core reserves or refuses an entry, granules and a message place for a parcel. -/
def evParcelReservation (n : Nat) (s : State) : Option State :=
  match s.parcelAt n with
  | none => none
  | some p =>
    if p.phase ≠ .asking ∨ s.hostWaits n p.giver p.dst p.chan true then none
    else
      match s.reachMailbox p.domain p.dst with
      | .pending => some (s.onParcel n fun p => { p with phase := .busy, lastAt := s.now p.giverCore })
      | .nobody => some (s.refuseParcel n p (corePkg p.giverCore) p.die rNoproc 0 0)
      | .gateway pkg _ => some (s.onParcel n fun p => { p with phase := .reserved, rcore := computeKey pkg 0 0 })
      | .actor core slot =>
        let here := p.sameCore && core == p.giverCore
        let a := s.actor core slot
        match (s.core core).reserveFor p slot here with
        | .error code => some (s.refuseParcelAt n p core rOverflow code a.incarn)
        | .ok (j, k) =>
          some ((s.setCore core k).onParcel n fun p =>
            { p with phase := .reserved, sameCore := here, rcore := core, rslot := slot, rinc := a.incarn, rentry := j, rbox := (s.core core).boxBorn slot })

/-- The meaning of PARCEL_RESERVATION. -/
def execParcelReservation (n : Nat) (s : State) : Answer := .next ((evParcelReservation n s).getD s)

/-! ## Copying and arrival (R153 step 4) -/

/-- The bytes of a parcel: its giver's granules, or those that come from no core. -/
def State.parcelBytes (s : State) (p : Parcel) : List Byte :=
  match p.giverEntry with
  | none => p.body
  | some _ => (s.core p.giverCore).mem.readN (p.base * 1024) (p.size * 1024)

/-- The bad bank words of a parcel, from its beginning. -/
def State.parcelBad (s : State) (p : Parcel) : List Nat :=
  match p.giverEntry with
  | none => []
  | some _ =>
    ((s.core p.giverCore).bad.filter fun w => decide (p.base * 128 ≤ w) && decide (w < (p.base + p.size) * 128)).map (· - p.base * 128)

/-- The doublewords of a parcel's frames, 8,192 data bytes to a frame: `n` bounds the frames. -/
def frameBodies : Nat → List Byte → List (List W64)
  | 0, _ => []
  | n + 1, l =>
    if l.isEmpty then []
    else
      let b := l.take 8192
      ((List.range ((b.length + 7) / 8)).map fun i => BitVec.ofNat 64 (ofBytes ((b.drop (8 * i)).take 8))) :: frameBodies n (l.drop 8192)

/-- A parcel to a gateway actor leaves as frames of class 3 (R153, R380, log 30), each with the GIVE tag before its data. -/
def State.parcelOut (s : State) (p : Parcel) : State :=
  match s.who p.dst with
  | .gateway pkg conn =>
    (frameBodies p.size (s.parcelBytes p)).foldl
      (fun s b => s.frameOut pkg conn 3 p.giver (BitVec.ofNat 64 p.chan) (p.tag :: b)) s
  | _ => s

/-- A parcel's bytes are copied, and the giver's engine counts them (R204), which the model does not spread over the cycles of the copy; one that comes from no core has no engine. -/
def State.parcelDone (s : State) (n : Nat) (p : Parcel) : State :=
  let s1 := s.onParcel n fun p => { p with copied := true }
  if p.giverEntry.isNone then s1
  else s1.onEngine (engineOf p.giverCore) fun g => { g with pmcs := g.pmcs.map (·.tallyCycles 0x40 (some p.domain) (p.size * 16)) }

/-- PARCEL_HAND_OVER (R153): Engine request reserving at the receiver and copying a given region. -/
def evParcelHandOver (n : Nat) (s : State) : Option State :=
  match s.parcelAt n with
  | none => none
  | some p =>
    if p.phase ≠ .reserved ∨ p.copied ∨ p.sameCore then none
    else if isGateway p.dst then some ((s.parcelOut p).parcelDone n p)
    else
      let b := ((s.core p.rcore).region p.rentry).base
      some ((s.onCore p.rcore fun k =>
        let k1 := k.scrub b p.size
        { k1 with mem := k1.mem.writeN (b * 1024) (s.parcelBytes p), bad := k1.bad ++ (s.parcelBad p).map (· + b * 128) }).parcelDone n p)

/-- The meaning of PARCEL_HAND_OVER. -/
def execParcelHandOver (n : Nat) (s : State) : Answer := .next ((evParcelHandOver n s).getD s)

/-- The receiver's entry becomes its own and the notice takes the reserved place. -/
def Core.takeParcel (k : Core) (p : Parcel) (now : Nat) : Core :=
  let k1 := k.onRegion p.rentry fun e => { e with tomb := false, pend := false, owner := p.rslot, decl := 15, age := 0, born := k.next }
  let body := body8 [BitVec.ofNat 64 ((k1.region p.rentry).base * 1024), BitVec.ofNat 64 (p.size * 1024), BitVec.ofNat 64 p.rentry,
    p.giver, p.tag]
  (k1.unreservePlace p.rslot p.chan).placeEntry p.rslot p.chan now (header mParcel p.chan p.giverInc now) p.giver body

/-- Whether a parcel's receiver still waits for it. -/
def State.receives (s : State) (p : Parcel) : Bool :=
  let a := s.actor p.rcore p.rslot
  if isGateway p.dst then
    match s.who p.dst with
    | .gateway _ _ => true
    | _ => false
  else a.name == p.dst && a.incarn == p.rinc && a.state.accepts

/-- What a receiving core reserved for a parcel that does not come is free again. -/
def State.dropReserved (s : State) (p : Parcel) : State :=
  if p.phase ≠ .reserved ∨ isGateway p.dst then s
  else s.onCore p.rcore fun k =>
    let k1 := if k.keepsBox p then k.unreservePlace p.rslot p.chan else k
    if p.sameCore then k1 else (k1.dropRegion p.rentry).scrub (k.region p.rentry).base (k.region p.rentry).size

/-- PARCEL_ARRIVAL (R153): Validates the receiver's entry, frees the giver's granules and places the arrival notice. -/
def evParcelArrival (n : Nat) (s : State) : Option State :=
  match s.parcelAt n with
  | none => none
  | some p =>
    if p.phase ≠ .reserved ∨ !(p.sameCore || p.copied) then none
    else if s.receives p then
      let s1 := if isGateway p.dst then s else s.onCore p.rcore fun k => k.takeParcel p (s.now p.rcore)
      some (if p.sameCore then s1.endParcel n p else (s1.endParcel n p).onCore p.giverCore (·.releaseGiven p))
    else
      some ((s.dropReserved p).refuseParcelAt n p p.rcore rNoproc 0 0)

/-- The meaning of PARCEL_ARRIVAL. -/
def execParcelArrival (n : Nat) (s : State) : Answer := .next ((evParcelArrival n s).getD s)

/-! ## MDRAIN (R334) -/

/-- Bytes of a drain's footprint. -/
def Drain.bytes (d : Drain) : Nat := (d.m - 1) * d.pitch + d.n * d.esize

/-- Whether the target region passes the checks of step 3. -/
def Drain.regionOk (d : Drain) (e : RegEntry) (slot : Nat) : Bool :=
  e.liveOf slot && e.kind == kData && e.wr && d.off % d.esize == 0 && d.pitch % d.esize == 0 &&
    decide (d.off + d.bytes ≤ e.size * 1024)

/-- The closing message's words. -/
def Drain.words (d : Drain) : Vector W64 8 :=
  body8 [BitVec.ofNat 64 d.off, BitVec.ofNat 64 d.bytes,
    BitVec.ofNat 64 (d.tridx + d.fmt * 2 ^ 8 + (d.m - 1) * 2 ^ 12 + (d.n - 1) * 2 ^ 16 + (if d.unchk then 2 ^ 20 else 0)), d.name, d.tag]

/-- The elements are written, row by row; a word that a row writes in part and that is bad is not written (R83). -/
def Drain.write (d : Drain) (k : Core) (e : RegEntry) : Core × List Nat :=
  d.rows.zipIdx.foldl (fun (r : Core × List Nat) row =>
    let w := r.1.writeIn e (e.base * 1024 + d.off + row.2 * d.pitch) row.1
    (w.1, r.2 ++ w.2.toList)) (k, [])

/-- The drain that a packet carries. -/
def State.drainAt (s : State) (n : Nat) : Option Drain :=
  match s.packet n with
  | none => none
  | some p =>
    match p.pay with
    | .drain d => some d
    | _ => none

/-- A drain meets its target: written with its closing message, or the code of its refusal. -/
def Drain.deliver (d : Drain) (s : State) (core slot : Nat) : Except Nat (State × List Nat) :=
  let k := s.core core
  let e := k.region d.tridx
  if k.chanFull slot d.chan then .error 1
  else if !d.regionOk e slot then .error 9
  else
    let r := d.write k e
    let now := s.now core
    .ok (s.setCore core (r.1.placeEntry slot d.chan now (header mDrain d.chan d.inc now) d.name d.words), r.2)

/-- MDRAIN_DELIVERY (R334): Copy engine reserves a place, checks the target region, writes the elements and places the closing message. -/
def evMdrainDelivery (n : Nat) (s : State) : Option State :=
  match s.drainAt n with
  | none => none
  | some d =>
    if d.busy || (s.engine (engineOf d.core)).gone || !(s.pkg (corePkg d.core)).runs then none
    else
      match s.reachMailbox d.domain d.dst with
      | .pending =>
        (s.packet n).map fun p => { s with net := s.net.put n { p with pay := .drain { d with busy := true, lastAt := s.now d.core } } }
      | .nobody => some (s.refuseDrain n d (corePkg d.core) (coreDie d.core) rNoproc 0 0)
      | .gateway pkg _ => some (s.refuseDrain n d pkg hostDie rOverflow 9 (s.liveInc d.dst))
      | .actor core slot =>
        match d.deliver s core slot with
        | .error code => some (s.refuseDrain n d (corePkg core) (coreDie core) rOverflow code (s.actor core slot).incarn)
        | .ok (s1, hurt) =>
          let s2 := (s1.endDrain n d).countEngine (engineOf d.core) 0x40 (some d.domain) (d.m * d.n * d.esize / 64)
          some (if s2.jobLives d.core d.slot d.name then
            s2.onCore d.core fun k => hurt.foldl (fun k w => k.recordErr d.slot 0 (BitVec.ofNat 64 w)) k
          else s2)

/-- The meaning of MDRAIN_DELIVERY. -/
def execMdrainDelivery (n : Nat) (s : State) : Answer := .next ((evMdrainDelivery n s).getD s)

end Sys2Proof.Machine
end

