-- ==== Sys2Proof/Machine/Arrivals.lean ====
section
/-! DEFINITION. The arrival of signals (R158, R160, R165, R176), Kills (R53, R309) and link requests (R157, R307, R308, R421). -/

namespace Sys2Proof.Machine

/-! ## Signals -/

/-- The signal that a packet carries. -/
def State.signalAt (s : State) (n : Nat) : Option Signal :=
  match s.packet n with
  | none => none
  | some p =>
    match p.pay with
    | .signal g => some g
    | _ => none

/-- Whom a signal finds (R165): its receiver under the incarnation it was generated for. -/
def State.hears (s : State) (g : Signal) : Who :=
  match s.who g.dst with
  | .actor c i => if (s.actor c i).incarn = g.inc then .actor c i else .nobody
  | .gateway p c => if s.liveInc g.dst = g.inc then .gateway p c else .nobody
  | .pending => .nobody
  | .nobody => .nobody

/-- A signal to a gateway actor leaves as a class 2 frame, as a message on c3 does (R380). -/
def State.signalOut (s : State) (pkg conn : Nat) (g : Signal) : State := s.frameOut pkg conn 2 0 3 g.words.toList

/-- A signal of some kinds is handled where its receiver is: at an actor's core, once no cut of its domain is under way (R409), or at the host
port. -/
def State.signalStep (s : State) (n : Nat) (kinds : Nat → Bool) (atCore : State → Nat → Nat → Signal → State)
    (atPort : Package → Signal → Package) (lost : State → Signal → State) : Option State :=
  match s.signalAt n with
  | none => none
  | some g =>
    if !kinds g.kind then none
    else
      match s.hears g with
      | .actor c i => if (s.pkg (corePkg c)).runs && !s.cut (s.actor c i).domain then some (atCore (s.take n) c i g) else none
      | .gateway p c => some (((s.take n).signalOut p c g).onPkg p fun q => atPort q g)
      | .pending => some (lost (s.take n) g)
      | .nobody => some (lost (s.take n) g)

/-- A signal is placed on c3 (R176). -/
def State.placeAt (s : State) (c i : Nat) (g : Signal) : State := s.onCore c fun k => k.placeSignal i (s.now c) g

/-- SIGNAL_ARRIVAL (R176): Places an arriving signal on c3 or kills the actor when c3 is full. -/
def evSignalArrival (n : Nat) (s : State) : Option State :=
  s.signalStep n (fun k => k == sDelivery || k == sTimer || k == sDevice) State.placeAt (fun p _ => p) fun s _ => s

/-- The meaning of SIGNAL_ARRIVAL. -/
def execSignalArrival (n : Nat) (s : State) : Answer := .next ((evSignalArrival n s).getD s)

/-- An EXIT at its receiver (R158, R308): the link entry for its sender, of the incarnation that has died, goes; with none, only the answer to a LINK counts. -/
def State.exitAt (s : State) (c i : Nat) (g : Signal) : State :=
  let k := s.core c
  let mine := fun (e : LinkEntry) => e.ties 1 i g.subject && (g.linkAnswer || e.pinc == g.sinc)
  if !k.links.any (fun p => mine p.2) && !g.linkAnswer then s
  else
    let s1 := s.onCore c (·.dropLinks mine)
    if (k.actor i).trapexit then s1.placeAt c i g
    else if abnormal g.reason then s1.onCore c (·.die i rLinked 0 (BitVec.ofNat 64 g.reason))
    else s1

/-- The port's end of a link or monitor goes. -/
def Package.dropGwLink (p : Package) (f : GwLink → Bool) : Package := { p with gwLinks := p.gwLinks.filter (!f ·) }

/-- EXIT_ARRIVAL (R158): Arriving EXIT removes the link entry and is placed, dropped or kills with LINKED. -/
def evExitArrival (n : Nat) (s : State) : Option State :=
  s.signalStep n (· == sExit) State.exitAt
    (fun p g => p.dropGwLink fun l => l.gateway == g.dst && l.kind == 1 && l.peer == g.subject) fun s _ => s

/-- The meaning of EXIT_ARRIVAL. -/
def execExitArrival (n : Nat) (s : State) : Answer := .next ((evExitArrival n s).getD s)

/-- A DOWN at its receiver (R158): the watcher's entry goes, and the signal is placed. -/
def State.downAt (s : State) (c i : Nat) (g : Signal) : State :=
  (s.onCore c (·.dropLinks fun e => e.ties 2 i g.subject && e.ref == g.ref)).placeAt c i g

/-- DOWN_ARRIVAL (R158): Arriving DOWN removes the watcher's entry and is placed on c3. -/
def evDownArrival (n : Nat) (s : State) : Option State :=
  s.signalStep n (· == sDown) State.downAt
    (fun p g => p.dropGwLink fun l => l.gateway == g.dst && l.kind == 2 && l.peer == g.subject && l.ref == g.ref) fun s _ => s

/-- The meaning of DOWN_ARRIVAL. -/
def execDownArrival (n : Nat) (s : State) : Answer := .next ((evDownArrival n s).getD s)

/-! ## CHILD_EXIT (R160) -/

/-- The restart of a dead child, from its CHILD_EXIT. -/
def Signal.restart (g : Signal) : Restart :=
  { name := g.subject, inc := g.sinc, core := g.core, supv := g.dst, rrec := g.rrec, revive := g.revive }

/-- The restart of a live sibling that a restart scope ends. -/
def DirEntry.restart (e : DirEntry) : Restart :=
  { name := e.name, inc := e.inc, core := e.core, supv := e.supv, rrec := e.rrec, revive := e.ended }

/-- The package whose Bellwether a restart is asked of: that of the dead actor's core, or where it is lost, the supervisor's (R377). -/
def State.bellwetherOf (s : State) (r : Restart) : Nat :=
  if (s.pkg (corePkg r.core)).lost then ((s.dirEntry r.supv).map (·.pkg)).getD (corePkg r.core) else corePkg r.core

/-- A member of a scope with the children that its own death has ended (R161). -/
def State.reviving (s : State) (r : Restart) : Restart :=
  match s.dirEntry r.name with
  | some e => { r with revive := e.ended }
  | none => r

/-- Once every death that a scope waits for has come, its members are restarted in ascending work index. -/
def State.runScope (s : State) (c : Scope) : State :=
  if c.waiting.isEmpty then c.members.foldl (fun s r => s.post (s.bellwetherOf r) (.restart (s.reviving r))) s else s

/-- A death that a restart scope waits for has come. -/
def State.scopeDeath (s : State) (supv name : W64) : State :=
  let hit := fun (c : Scope) => c.supv == supv && c.waiting.contains name
  let left := fun (c : Scope) => { c with waiting := c.waiting.filter (· != name) }
  let s1 := { s with scopes := s.scopes.map fun c => if hit c then left c else c }
  (s.scopes.filter hit).foldl (fun s c => s.runScope (left c)) s1

/-- The siblings that a restart takes with it (R159): SOLE none, GROUP the group, TAIL its members with a work index above the child's. -/
def State.taken (s : State) (c i : Nat) (g : Signal) (rule strat : Nat) : List DirEntry :=
  if strat = 0 then []
  else
    (s.childrenOf g.dst).filter fun e =>
      e.name != g.subject && (((s.core c).ruleOf i e.name).map (·.2.rule)) == some rule && s.supGroup e.name == s.supGroup g.subject &&
        (strat == 1 || decide (indexOf e.name > indexOf g.subject))

/-- The restarts of a scope in ascending work index. -/
def ascending (l : List Restart) : List Restart := l.mergeSort fun a b => decide (indexOf a.name ≤ indexOf b.name)

/-- The name of a child whose restart follows is pending (R155): one that step 7 freed, because a rule set since covers it, is entered again,
unless another actor has taken it (log 124). -/
def State.reenter (s : State) (g : Signal) : State :=
  match s.dirEntry g.subject with
  | some _ => s
  | none =>
    let d : DirEntry := { name := g.subject, inc := g.sinc, state := 3, pkg := 0, die := 0, kind := 0, cidx := 0, slot := 0, supv := g.dst
                          rrec := g.rrec, ended := g.revive }
    s.setDir (d.at g.core 0)

/-- A supervisor's rule restarts a child (R160): the stamp is taken, the members of the scope are killed, and the scope waits. -/
def State.restartScope (s : State) (c i : Nat) (g : Signal) (at_ : Nat) (e : SupEntry) : State :=
  let now := s.now c % 2 ^ 32
  let s1 := s.onCore c fun k => { k with sups := k.sups.put at_ { e with stamps := (now :: e.stamps).take 16 } }
  let es := s1.taken c i g e.rule e.strat
  let s2 := es.foldl (fun s d => s.onCore d.core (·.die d.slot rKilled 0 0)) s1
  let scope : Scope := { supv := g.dst, supvInc := g.inc, trigger := { g with sub := 0 }, members := ascending (g.restart :: es.map DirEntry.restart)
                         waiting := es.map (·.name) }
  (({ s2 with scopes := s2.scopes ++ [scope] } : State).reenter g).runScope scope

/-- CHILD_EXIT at the supervisor's core (R160). -/
def State.childExitAt (s : State) (c i : Nat) (g : Signal) : State :=
  let deliver := fun (s : State) (act : Nat) => s.placeAt c i { g with sub := act }
  if s.inScope g.dst g.subject then deliver (s.scopeDeath g.dst g.subject) 4
  else
    match (s.core c).ruleOf i g.subject with
    | none => deliver (s.giveUp g) 1
    | some (at_, e) =>
      if !e.restarts g.reason then deliver (s.giveUp g) 1
      else
        let now := s.now c
        let n := (e.stamps.filter fun st => decide ((now + 2 ^ 32 - st) % 2 ^ 32 < e.window)).length
        if n ≥ e.maxr then (deliver (s.giveUp g) 3).onCore c (·.die i rRestartLimit 0 0)
        else s.restartScope c i g at_ e

/-- CHILD_EXIT_ARRIVAL (R160): Supervisor core applies the child's rule, kills the restart scope and places CHILD_EXIT. -/
def evChildExitArrival (n : Nat) (s : State) : Option State :=
  s.signalStep n (· == sChildExit) State.childExitAt (fun p _ => p) State.giveUp

/-- The meaning of CHILD_EXIT_ARRIVAL. -/
def execChildExitArrival (n : Nat) (s : State) : Answer := .next ((evChildExitArrival n s).getD s)

/-! ## Gateway actors end (R421) -/

/-- A connection closes: its gateway actor exits, EXIT and DOWN go out in table order, and the name is free. -/
def State.closeConn (s : State) (pkg conn reason : Nat) : State :=
  let name := BitVec.ofNat 64 (gatewayFlock * 2 ^ 48 + conn)
  let ls := (s.pkg pkg).gwLinks.filter fun l => l.gateway == name
  let entry := fun (l : GwLink) => ({ kind := l.kind, slot := 0, ref := l.ref, peer := l.peer, pinc := l.pinc } : LinkEntry)
  let x : Exit := { name := name, inc := s.liveInc name, reason := reason, sub := 0, detail := 0 }
  let s1 := s.sendExit pkg hostDie ((ls.filter (·.kind == 1)).map entry) ((ls.filter (·.kind == 3)).map entry) 0 x
  (s1.freeName name).onPkg pkg fun p =>
    { (p.dropGwLink fun l => l.gateway == name) with conns := p.conns.del conn }

/-! ## Kills (R53, R309) -/

/-- The die of an actor, by its directory entry. -/
def State.dieOf (s : State) (name : W64) : Nat := ((s.dirEntry name).map (·.die)).getD 0

/-- KILL_ARRIVAL (R53): A Kill reaches a live actor and starts its death. A domain that is being cut answers busy (R409). -/
def evKillArrival (n : Nat) (s : State) : Option State :=
  match s.packet n with
  | none => none
  | some p =>
    match p.pay with
    | .kill dst killer kinc dom every reason first busy =>
      let wait := some { s with net := s.net.put n { p with born := s.cycle p.src, pay := .kill dst killer kinc dom every reason first true } }
      if busy then none
      else
        match s.reach dom every dst with
        | .actor c i =>
          if s.cut (s.actor c i).domain then wait else some ((s.take n).onCore c (·.die i reason 0 0))
        | .gateway pkg conn => some ((s.take n).closeConn pkg conn rKilled)
        | .pending => wait
        | .nobody => some ((s.take n).delivery p.src (s.dieOf killer) killer kinc rNoproc dst 0 0)
    | _ => none

/-- The meaning of KILL_ARRIVAL. -/
def execKillArrival (n : Nat) (s : State) : Answer := .next ((evKillArrival n s).getD s)

/-! ## Link requests at the peer (R307, R308, R421) -/

/-- The asker of a link request still lives. -/
def State.asks (s : State) (r : LinkReq) : Bool :=
  let a := s.actor r.askerCore r.askerSlot
  a.name == r.asker && a.incarn == r.askerInc && a.state.accepts

/-- The kind of the far entry of a request. -/
def LinkOp.farKind : LinkOp → Nat
  | .link | .unlink => 1
  | .monitor | .demonitor => 3

/-- The peer's table is full (R307): the asker's entry goes, and it is told. -/
def State.linkFull (s : State) (r : LinkReq) (pkg die : Nat) : State :=
  let inc := s.liveInc r.peer
  match r.op with
  | .monitor => s.signal pkg (r.answer s pkg die rOverflow 8 inc)
  | _ =>
    (s.onCore r.askerCore (·.dropLinks fun e => e.ties 1 r.askerSlot r.peer)).delivery pkg die r.asker r.askerInc rOverflow r.peer inc 8

/-- The package and die that find no live actor under a name (R420): those of the core where it is exiting, else of the core that asks. -/
def State.foundBy (s : State) (name : W64) (asker : Nat) : Nat × Nat :=
  match s.dirEntry name with
  | some e => if e.state = 1 ∨ e.state = 2 then (e.pkg, e.die) else (corePkg asker, coreDie asker)
  | none => (corePkg asker, coreDie asker)

/-- A link or monitor finds no live actor. -/
def State.linkNobody (s : State) (r : LinkReq) : State :=
  let at_ := s.foundBy r.peer r.askerCore
  s.signal at_.1 (r.answer s at_.1 at_.2 rNoproc 0 0)

/-- A link or monitor is written at the peer, or refused; one that finds the next incarnation of the peer that it was asked of finds
nobody, as an entry never passes to it (R157). -/
def State.linkAt (s : State) (r : LinkReq) : State :=
  let kind := r.op.farKind
  match s.reach r.domain false r.peer with
  | .actor c i =>
    if (s.actor c i).incarn ≠ r.pinc then s.linkNobody r
    else if kind = 1 ∧ (s.core c).links.any (fun p => p.2.ties 1 i r.asker && p.2.pinc == r.askerInc) then s
    else if (s.core c).freeLink.isNone then s.linkFull r (corePkg c) (coreDie c)
    else s.onCore c (·.addLink { kind := kind, slot := i, ref := r.ref, peer := r.asker, pinc := r.askerInc })
  | .gateway p _ =>
    if s.liveInc r.peer ≠ r.pinc then s.linkNobody r
    else if (s.pkg p).gwLinks.any fun l => kind == 1 && l.kind == 1 && l.gateway == r.peer && l.peer == r.asker then s
    else if (s.pkg p).gwLinks.length ≥ 4096 then s.linkFull r p hostDie
    else s.onPkg p fun q =>
      { q with gwLinks := q.gwLinks ++ [{ gateway := r.peer, kind := kind, ref := r.ref, peer := r.asker, pinc := r.askerInc }] }
  | .pending | .nobody => s.linkNobody r

/-- A link or monitor is removed at the peer. -/
def State.unlinkAt (s : State) (r : LinkReq) : State :=
  let kind := r.op.farKind
  match s.who r.peer with
  | .actor c i => s.onCore c (·.dropLinks fun e => e.ties kind i r.asker && (kind == 1 || e.ref == r.ref))
  | .gateway p _ =>
    s.onPkg p (·.dropGwLink fun l => l.gateway == r.peer && l.kind == kind && l.peer == r.asker && (kind == 1 || l.ref == r.ref))
  | .pending => s
  | .nobody => s

/-- PEER_LINK_REQUEST (R308): Peer core writes or refuses the far end of a link or monitor. -/
def evPeerLinkRequest (n : Nat) (s : State) : Option State :=
  match s.packet n with
  | none => none
  | some p =>
    match p.pay with
    | .linkReq r =>
      match r.op with
      | .link | .monitor => some (if s.asks r then (s.take n).linkAt r else s.take n)
      | .unlink | .demonitor => some ((s.take n).unlinkAt r)
    | _ => none

/-- The meaning of PEER_LINK_REQUEST. -/
def execPeerLinkRequest (n : Nat) (s : State) : Answer := .next ((evPeerLinkRequest n s).getD s)

/-! ## Resends to pending names, and their timeout (R156, R309, R334) -/

/-- What a busy answer has made wait: the cycle from which 256 are counted, and that from which 2^20 are; none for any other packet. -/
def State.busyTimes (s : State) (p : Packet) : Option (Nat × Nat × Nat) :=
  match p.pay with
  | .message _ (.entry c id) _ =>
    ((s.core c).sends.find? (·.id == id)).bind fun e =>
      if e.phase = .busy then some (e.lastAt, e.busySince.getD e.lastAt, s.now c) else none
  | .message _ _ (some since) => some (p.born, since, s.cycle p.src)
  | .parcel q => if q.phase = .busy then some (q.lastAt, q.firstAt, s.now q.giverCore) else none
  | .drain d => if d.busy then some (d.lastAt, d.firstAt, s.now d.core) else none
  | .kill _ _ _ _ _ _ first busy => if busy then some (p.born, first, s.cycle p.src) else none
  | _ => none

/-- MESSAGE_BUSY_RESEND (R156): Resends a message, parcel, MDRAIN or Kill to a pending name every 256 cycles. -/
def evMessageBusyResend (n : Nat) (s : State) : Option State :=
  match s.packet n with
  | none => none
  | some p =>
    match s.busyTimes p with
    | none => none
    | some (last, _, now) =>
      if now < last + 256 then none
      else
        let put := fun (q : Payload) => some { s with net := s.net.put n { p with born := s.cycle p.src, pay := q } }
        match p.pay with
        | .message m via since =>
          match via with
          | .entry c id => some (s.onSend c id fun e => { e with phase := .waiting, lastAt := now })
          | _ =>
            let s1 := { s with net := s.net.put n { p with born := s.cycle p.src } }
            (s1.freeArrives n { p with born := s.cycle p.src } m via since).or (some s1)
        | .parcel q => put (.parcel { q with phase := .asking, lastAt := now })
        | .drain d => put (.drain { d with busy := false, lastAt := now })
        | .kill dst killer kinc dom every reason first _ => put (.kill dst killer kinc dom every reason first false)
        | _ => none

/-- The meaning of MESSAGE_BUSY_RESEND. -/
def execMessageBusyResend (n : Nat) (s : State) : Answer := .next ((evMessageBusyResend n s).getD s)

/-- DELIVERY_TIMEOUT (R156): Sends DELIVERY TIMEOUT after 2^20 cycles of busy answers from a pending name. -/
def evDeliveryTimeout (n : Nat) (s : State) : Option State :=
  match s.packet n with
  | none => none
  | some p =>
    match s.busyTimes p with
    | none => none
    | some (_, first, now) =>
      if now < first + 2 ^ 20 then none
      else
        match p.pay with
        | .message m via _ =>
          match via with
          | .entry c id => ((s.core c).sends.find? (·.id == id)).map fun e => s.entryRefused c e c rTimeout 0 (s.msgInc e.msg)
          | _ => some ((s.take n).viaRefused p.src via.die m via rTimeout 0 (s.msgInc m))
        | .parcel q => some (s.refuseParcel n q (corePkg q.giverCore) q.die rTimeout 0 (s.liveInc q.dst))
        | .drain d => some (s.refuseDrain n d (corePkg d.core) (coreDie d.core) rTimeout 0 (s.liveInc d.dst))
        | .kill dst killer kinc _ _ _ _ _ => some ((s.take n).delivery p.src (s.dieOf killer) killer kinc rTimeout dst (s.liveInc dst) 0)
        | _ => none

/-- The meaning of DELIVERY_TIMEOUT. -/
def execDeliveryTimeout (n : Nat) (s : State) : Answer := .next ((evDeliveryTimeout n s).getD s)

end Sys2Proof.Machine
end

