-- ==== Sys2Proof/Machine/Notices.lean ====
section
/-! DEFINITION. Notices of the device: counter notices (R209) and TOPOLOGY notices with the counts that they carry (R387). -/

namespace Sys2Proof.Machine

/-! ## Counter notices (R207, R209) -/

/-- The counter service's name. -/
def counterService : W64 := 3

/-- A counter notice to the target of a threshold: code, crossings merged, value, T in force, identity and CYCLE. -/
def State.counterNotice (s : State) (pkg number : Nat) (h : Threshold) (code merged : Nat) (value : W64) (t : Nat) : State :=
  let body := [BitVec.ofNat 64 (code * 2 ^ 48 + number % 2 ^ 16 * 2 ^ 32 + merged % 2 ^ 32), value, BitVec.ofNat 64 t, h.ident,
    BitVec.ofNat 64 (s.cycle pkg), BitVec.ofNat 64 h.lost]
  let m : Msg :=
    { dst := h.target, inc := 0, named := false, chan := h.chan, kind := mSend, sinc := 0, sender := counterService, domain := 0,
      everyDomain := true, body := body8 body }
  s.post pkg (.message m (.notice pkg number) none)

/-- KIND of a counter identity (R207): 5 names the bad-frame list. -/
def identKind (w : W64) : Nat := bits w.toNat 63 60

/-- Whether a threshold is on the bad-frame list of a package. -/
def Threshold.onList (h : Threshold) (pkg : Nat) : Bool := identKind h.ident == 5 && bits h.ident.toNat 59 48 == pkg

/-- The thresholds of the pod on the bad-frame list of a package: the package whose service holds each, its number, and the threshold. -/
def State.listThresholds (s : State) (pkg : Nat) : List (Nat × Nat × Threshold) :=
  s.pkgs.flatMap fun q => if q.2.lost then [] else (q.2.thresholds.filter fun p => p.2.onList pkg).map fun p => (q.1, p.1, p.2)

/-- Notice code 0x0002 to every actor that holds a domain-0 threshold on the bad-frame list (R147, R209). -/
def State.badFullNotices (s : State) (pkg : Nat) : State :=
  ((s.listThresholds pkg).filter fun p => p.2.2.domain == 0).foldl (fun s p =>
    s.counterNotice p.1 p.2.1 p.2.2 2 0 (BitVec.ofNat 64 (s.pkg pkg).badFrames.length) p.2.2.t) s

/-! ## TOPOLOGY notices (R387) -/

/-- Compute cores of a package that have been withdrawn. -/
def State.goneCores (s : State) (pkg : Nat) : Nat :=
  s.cores.countP fun p => corePkg p.1 == pkg && !coreIsMem p.1 && p.2.gone

/-- Visible compute cores of a package (R383). -/
def State.visibleCores (s : State) (pkg : Nat) : Nat := 4096 - s.goneCores pkg

/-- Visible compute cores of a package with a usable matrix unit. -/
def State.matrixCores (s : State) (pkg : Nat) : Nat :=
  s.visibleCores pkg - s.cores.countP fun p => corePkg p.1 == pkg && !coreIsMem p.1 && !p.2.gone && p.2.mxLost

/-- DETAIL of a TOPOLOGY notice. -/
def State.topologyDetail (s : State) (pkg die unit : Nat) : W64 :=
  BitVec.ofNat 64 (pkg * 2 ^ 52 + die * 2 ^ 50 + unit % 4096 * 2 ^ 36 + s.matrixCores pkg * 2 ^ 16 + s.visibleCores pkg)

/-- Whether a domain holds a grant on a package (R390): domain 0 does everywhere. -/
def Package.holdsGrant (p : Package) (dom : BitVec 16) : Bool := dom == 0 || p.grants.get {} dom.toNat != {}

/-- A DEVICE signal to a list of registered actors. -/
def State.tellAll (s : State) (pkg die : Nat) (rs : List Registration) (reason sub : Nat) (detail : W64) : State :=
  rs.foldl (fun s r => s.deviceSignal pkg die r.name (s.liveInc r.name) reason sub detail) s

/-- A TOPOLOGY notice to every registered actor of every domain that holds a grant on the package. -/
def State.topologyNotice (s : State) (pkg die sub unit : Nat) : State :=
  let rs := (s.pkgs.flatMap fun p => p.2.topoRegs).filter fun r => (s.pkg pkg).holdsGrant r.domain
  s.tellAll pkg die rs rTopology sub (s.topologyDetail pkg die unit)

/-- The TOPOLOGY notice of a changed grant, to one domain (R390). -/
def State.grantNotice (s : State) (pkg die : Nat) (dom : BitVec 16) : State :=
  let rs := (s.pkgs.flatMap fun p => p.2.topoRegs).filter fun r => r.domain == dom
  s.tellAll pkg die rs rTopology 6 (s.topologyDetail pkg die 0)

end Sys2Proof.Machine
end

