-- ==== Sys2Proof/Machine/Deaths.lean ====
section
/-! DEFINITION. Death (R49, R50, R79, R145, R161, R164): its steps 1 to 3, and its steps 4 to 7. -/

namespace Sys2Proof.Machine

/-! ## Steps 1 to 3 -/

/-- The live children that a dying supervisor's rules cover are killed (R161); their names. -/
def State.endChildren (s : State) (core slot : Nat) (name : W64) : List W64 × State :=
  let es := (s.childrenOf name).filter fun e => ((s.core core).ruleOf slot e.name).isSome
  (es.map (·.name), es.foldl (fun s e => s.onCore e.core (·.die e.slot rKilled 0 0)) s)

/-- Lodged waits of a slot are withdrawn at their banks (R99, R145). -/
def State.withdrawWaits (s : State) (core slot : Nat) : State :=
  let ids := ((s.core core).accs.filter fun a => a.slot == slot && !a.orphan && decide (a.phase = .lodged)).map (·.id)
  let gone := fun (c : Cont) => match c.who with
    | .wait k id _ _ => k == core && ids.contains id
    | .deferral .. => false
  let s1 := { s with banks := s.banks.mapVals fun _ b => { b with conts := b.conts.filter (!gone ·) } }
  s1.onCore core fun k => { k with accs := k.accs.filter fun a => !ids.contains a.id }

/-- Ticketed and held accesses of a slot are dropped, also those that wait to be sent again; its other accesses go on for nobody (R145, R79). -/
def Core.cancelTickets (k : Core) (slot : Nat) : Core :=
  let dropped := fun (a : Access) => a.slot == slot && !a.orphan && (decide (a.phase = .ticketed ∨ a.phase = .held) || (a.entry && decide (a.phase = .waiting)))
  { k with accs := (k.accs.filter (!dropped ·)).map fun a => if a.slot = slot then { a with orphan := true } else a }

/-- Messages and spawns of a slot that have not left yet are dropped (R317). -/
def State.dropUnsent (s : State) (core slot : Nat) : State :=
  let ids := ((s.core core).sends.filter fun e => e.slot == slot && decide (e.phase = .waiting) && !e.left).map (·.id)
  (ids.foldl (fun s id => s.endSend core id) s).onCore core fun k =>
    { k with spawns := k.spawns.filter fun e => e.filled || e.slot != slot }

/-- Every entry of a dying actor that holds granules takes PEND until the engines have acknowledged (R164 step 3). -/
def Core.pendRegions (k : Core) (slot : Nat) : Core :=
  { k with regions := k.regions.map fun p =>
      if p.2.valid && p.2.owner == slot && !p.2.tomb then (p.1, { p.2 with pend := true }) else p }

/-- Whether a packet is an MDRAIN of an actor of a slot. -/
def Payload.isDrainOf (p : Payload) (core slot : Nat) (name : W64) : Bool :=
  match p with
  | .drain d => d.core == core && d.slot == slot && d.name == name
  | _ => false

/-- Whether a packet is a parcel of an actor. -/
def Payload.isParcelOf (p : Payload) (core : Nat) (name : W64) (inc : BitVec 8) (phase : ParcelPhase → Bool) : Bool :=
  match p with
  | .parcel q => q.giverCore == core && q.giver == name && q.giverInc == inc && q.giverEntry.isSome && phase q.phase
  | _ => false

/-- A hand-over that no core has accepted ends with its giver (R153). -/
def State.dropParcel (s : State) (n : Nat) : State :=
  match s.parcelAt n with
  | some p => (s.endParcel n p).onCore p.giverCore (·.releaseGiven p)
  | none => s.take n

/-- The actor's copies stop without records, its MDRAINs send nothing, and its parcels go on only where they have been accepted; MDRAINs of
others into its regions are refused, and its entries take PEND (R164 step 3). -/
def State.stopCopies (s0 : State) (core slot : Nat) : State :=
  let a := s0.actor core slot
  let s := s0.stopDrains core a.name 0 fun _ => true
  let s1 := s.onCore core fun k => ({ k with fifo := k.fifo.filter fun r => r.slot != slot } : Core).pendRegions slot
  let s2 := s1.onEngine (engineOf core) fun g =>
    { g with active := g.active.filter fun j => !(j.core == core && j.slot == slot && j.parcel.isNone) }
  let s3 := { s2 with net := s2.net.filter fun p => !p.2.pay.isDrainOf core slot a.name }
  ((s3.net.filter fun p => p.2.pay.isParcelOf core a.name a.incarn fun ph => ph != .reserved).map (·.1)).foldl State.dropParcel s3

/-- DEATH (R164): Stops the firing, cancels tickets and starts quiescing copies of a dying actor. A restart scope of a supervisor that dies is
dropped, and the child that began it stays pending (log 97). -/
def evDeath (core slot : Nat) (s : State) : Option State :=
  let a := s.actor core slot
  match a.dying with
  | none => none
  | some d =>
    if d.begun then none
    else
      let s1 := match s.dirEntry a.name with
        | some e => if e.state = 1 ∧ e.core = core ∧ e.slot = slot then (s.setDir { e with state := 2 }).cancelThresholds a.name else s
        | none => s
      let (ended, s2) := s1.endChildren core slot a.name
      let s3 := { s2 with scopes := s2.scopes.filter fun c => c.supv != a.name }
      let s4 := (((s3.withdrawWaits core slot).dropUnsent core slot).stopCopies core slot).onCore core fun k =>
        let k1 := (k.cancelTickets slot).abandon slot fun _ => true
        ({ k1 with holds := k1.holds.filter (decide <| · ≠ .yielded slot),
                   refills := k1.refills.filter fun r => !(r.failed && r.domain == a.domain) } : Core).onActor slot fun a =>
          { a with dying := some { d with begun := true, ended := ended }, cl := 0, cs := 0, cp := 0, mt := 0, crResv := 0 }
      some s4

/-- The meaning of DEATH. -/
def execDeath (core slot : Nat) (s : State) : Answer := .next ((evDeath core slot s).getD s)

/-! ## Steps 4 to 7 -/

/-- Whether an access can still change a word when it reaches its owner. -/
def AccOp.writesWord (op : AccOp) : Bool := op.writes

/-- Whether nothing of the dead actor is still under way (R121, R161, R164): its writes are performed or refused, its accepted parcels
have been handed over, and the children it ended are gone. -/
def State.quiet (s : State) (core slot : Nat) (d : Death) : Bool :=
  let a := s.actor core slot
  !(s.core core).accs.any (fun x => x.slot == slot && x.orphan && x.op.writesWord && !x.performed) &&
    !s.net.any (fun p => p.2.pay.isParcelOf core a.name a.incarn fun ph => ph == .reserved) &&
    d.ended.all fun c => match s.dirEntry c with
      | some e => e.state == 3
      | none => true

/-- Every region-table entry of a slot goes, its granules scrubbed where it holds any (R88, R164 step 4). -/
def Core.reclaimRegions (k : Core) (slot : Nat) : Core :=
  k.regions.foldl (fun k1 p =>
    if p.2.valid && p.2.owner == slot then
      let k2 := k1.dropRegion p.1
      if p.2.tomb && !p.2.pend then k2 else k2.scrub p.2.base p.2.size
    else k1) k

/-- The slot is free, with its rules. -/
def Core.freeSlotOf (k : Core) (slot : Nat) : Core :=
  { k with slots := k.slots.del slot, sups := k.sups.filter fun p => p.2.slot != slot }

/-- An exit counts for its flock (R24). -/
def State.countExit (s : State) (name : W64) (reason : Nat) : State :=
  if abnormal reason then
    s.onFlock (flockOf name) fun f => { f with abnormal := f.abnormal + 1, firstBad := some (f.firstBad.getD reason) }
  else s

/-- DEATH_RECLAIM (R155, R161, R164): The children that the death had ended stay pending until its CHILD_EXIT has been handled. After engines acknowledge, reclaims regions, mailbox and accumulators and sends EXIT, DOWN and CHILD_EXIT. -/
def evDeathReclaim (core slot : Nat) (s : State) : Option State :=
  let a := s.actor core slot
  match a.dying with
  | none => none
  | some d =>
    if !d.begun || !s.quiet core slot d then none
    else
      let e := s.dirEntry a.name
      let supv := (e.map (·.supv)).getD 0
      let follows := s.restartFollows supv a.name d.reason
      let x : Exit := { name := a.name, inc := a.incarn, reason := d.reason, sub := d.sub, detail := d.detail, core := core
                        rrec := (e.map (·.rrec)).getD 0, revive := d.ended }
      let told := if s.endedBySupv supv a.name then 0 else supv
      let s1 := s.onCore core (·.reclaimRegions slot)
      let s2 := ((s1.exitOf core slot told x).onCore core (·.freeSlotOf slot)).countExit a.name d.reason
      let s3 := match e with
        | some e =>
          if e.state = 2 ∧ e.core = core ∧ e.slot = slot then (if follows then s2.setDir { e with state := 3, ended := d.ended } else s2.nameGone a.name)
          else s2
        | none => s2
      some (if follows ∨ told ≠ 0 then s3 else d.ended.foldl State.giveUpName s3)

/-- The meaning of DEATH_RECLAIM. -/
def execDeathReclaim (core slot : Nat) (s : State) : Answer := .next ((evDeathReclaim core slot s).getD s)

end Sys2Proof.Machine
end

