-- ==== Sys2Proof/Machine/Spawns.lean ====
section
/-! DEFINITION. Actors that come to be: spawns (R41, R183, R184, R306), placement (R26), load levelling (R42, R43), image load (R151) and
restarts by Bellwether (R161 to R163). -/

namespace Sys2Proof.Machine

/-! ## Placement (R26, R390) -/

/-- The live clusters of a domain's grant on a package, as die·64 + cluster, in order. -/
def Package.liveGrant (p : Package) (dom : BitVec 16) : List Nat :=
  (List.range 256).filter fun c => (dom = 0 || (p.grants.get {} dom.toNat).clusters.contains c) && !p.lostClusters.contains c

/-- The group of a name at the placement level of its flock, and its index within the group. -/
def placeOf (f : Flock) (name : W64) : Nat × Nat :=
  let below := (f.widths.drop f.place).sum
  (indexOf name / 2 ^ below, indexOf name % 2 ^ below)

/-- Whether the steward places an actor of an image on a core (R383, R386). -/
def State.placeable (s : State) (core : Nat) (mx : Bool) : Bool := s.coreLive core && !((s.core core).mxLost && mx)

/-- The core that the steward gives an actor (R26): among the cluster's cores the one of R26, or the next that takes part (log 32). -/
def State.stewardCore (s : State) (pkg : Nat) (f : Flock) (name : W64) (mx : Bool) : Option Nat :=
  let live := (s.pkg pkg).liveGrant f.domain
  let dies := (List.range 4).filter fun d => live.any fun c => c / 64 == d
  let g := (placeOf f name).1
  let j := (placeOf f name).2
  if dies.isEmpty then none
  else
    let die := (dies[g % dies.length]?).getD 0
    let cs := live.filter fun c => c / 64 == die
    let cl := (cs[g / dies.length % cs.length]?).getD 0 % 64
    let k := (g / (dies.length * cs.length) + j) % 16
    ((List.range 16).map fun i => computeKey pkg die (16 * cl + (k + i) % 16)).find? fun c => s.placeable c mx

/-! ## The directory at a start -/

/-- A name is live at a core and slot (R155). -/
def State.goLive (s : State) (name : W64) (inc : BitVec 8) (core slot : Nat) : State :=
  match s.dirEntry name with
  | some e => s.setDir { (e.at core slot) with inc := inc, state := 1, ended := [] }
  | none => s

/-- Children that a restarted supervisor's death had ended are restarted by the rules just reloaded; the others stay dead (R161). -/
def State.reviveAll (s : State) (core slot : Nat) (supv : W64) (names : List W64) : State :=
  (names.mergeSort fun a b => decide (indexOf a ≤ indexOf b)).foldl (fun s n =>
    match s.dirEntry n with
    | none => s
    | some e =>
      if ((s.core core).ruleOf slot n).any fun p => p.2.mode == 0 || p.2.mode == 1 then
        s.post e.pkg (.restart { e.restart with supv := supv })
      else s.giveUpName n) s

/-- A restart has been completed (R202): it counts on the die of the core where it starts (log 118). -/
def State.countRestart (s : State) (core : Nat) : State :=
  s.onPkg (corePkg core) fun p =>
    { p with dies := p.dies.set (coreDie core % 4) { p.dies[coreDie core % 4] with rstdie := p.dies[coreDie core % 4].rstdie + 1 } }

/-- An actor starts in a slot of a core, if the core has room: its image is loaded, its initial message placed, and its name live. -/
def State.startActor (s : State) (core : Nat) (e : Spawn) (imageGa : W64) : Option State :=
  (s.flock (flockOf e.name)).bind fun f => (s.image imageGa.toNat (flockOf e.name)).bind fun img =>
    (s.core core).freeSlot.bind fun slot =>
      (s.install core slot img e.name e.inc f e.msg e.sender e.sinc).map fun k =>
        let s1 := (s.setCore core k).goLive e.name e.inc core slot
        if e.rst then ((s1.countRestart core).reviveAll core slot e.name e.revive) else s1

/-! ## Spawns (R183, R184, R306) -/

/-- Whether the release condition of a SPAWN holds (R115, R306). -/
def Core.spawnReleased (k : Core) (e : Spawn) : Bool :=
  k.released e.slot e.order AccOp.beforeSend &&
    !k.accs.any fun a => a.slot == e.slot && !a.orphan && decide (a.order < e.order) && decide (a.op = .loadAcq)

/-- A restart record (R162). -/
def State.record (s : State) (image : W64) (flock : Nat) (e : Spawn) : RestartRec :=
  { image := image, digest := ((s.image image.toNat flock).map s.measure).getD 0, msg := e.msg, sender := e.sender, sinc := e.sinc }

/-- A name is entered pending, with its restart record (R155, R162). -/
def State.enterPending (s : State) (core : Nat) (e : Spawn) (image : W64) : State :=
  let d : DirEntry := { name := e.name, inc := 0, state := 3, pkg := 0, die := 0, kind := 0, cidx := 0, slot := 0, supv := e.supv
                        rrec := s.serial }
  { s.setDir (d.at core 0) with rrecs := s.rrecs.put s.serial (s.record image (flockOf e.name) e), serial := s.serial + 1 }

/-- SPAWN_RELEASE (R306): Fills the reserved spawn entry once the release condition holds, appends it and writes the directory pending. Every
name of the flock that the directory holds counts against MAXLIVE (R25, log 87). -/
def evSpawnRelease (core id : Nat) (s : State) : Option State :=
  let k := s.core core
  match k.spawns.find? (·.id == id) with
  | none => none
  | some e =>
    if e.filled || !k.spawnReleased e then none
    else
      let rest := k.spawns.filter (·.id != id)
      let n := flockOf e.name
      let refuse := fun (code : Nat) =>
        (s.onCore core fun k => { k with spawns := rest }).delivery (corePkg core) (coreDie core) e.sender e.sinc rOverflow e.name
          (s.liveInc e.name) (deliveryDetail code 0 0)
      match s.flock n with
      | none => some (refuse 7)
      | some f =>
        if (s.dirEntry e.name).isSome then some (refuse 6)
        else if f.maxlive ≠ 0 ∧ s.flockLive n ≥ f.maxlive then some (refuse 7)
        else some ((s.onCore core fun k => { k with spawns := rest ++ [{ e with filled := true }] }).enterPending core e f.image)

/-- The meaning of SPAWN_RELEASE. -/
def execSpawnRelease (core id : Nat) (s : State) : Answer := .next ((evSpawnRelease core id s).getD s)

/-- The image that an entry of a spawn list starts: a restart's from its record, else the flock's (R21, R162). -/
def State.spawnImage (s : State) (e : Spawn) : W64 :=
  if e.rst then (((s.dirEntry e.name).bind fun d => s.rrecs.find d.rrec).map (·.image)).getD 0
  else ((s.flock (flockOf e.name)).map (·.image)).getD 0

/-- SPAWN_START (R184): Starts the head spawn-list entry when a slot, room and supervision entries are free. A place that is only reserved
for a SPAWN has not been appended yet (R306). -/
def evSpawnStart (core : Nat) (s : State) : Option State :=
  match (s.core core).spawns.find? (·.filled) with
  | none => none
  | some e =>
    if !s.coreLive core then none
    else (s.onCore core fun k => { k with spawns := k.spawns.filter (·.id != e.id) }).startActor core e (s.spawnImage e)

/-- The meaning of SPAWN_START. -/
def execSpawnStart (core : Nat) (s : State) : Answer := .next ((evSpawnStart core s).getD s)

/-- The core on which the steward of a package places an actor of a flock now (R26, R390). -/
def State.stewardPlace (s : State) (pkg : Nat) (name : W64) : Option Nat :=
  (s.flock (flockOf name)).bind fun f =>
    s.stewardCore pkg f name (((s.image f.image.toNat (flockOf name)).map (·.mxdecl)).getD false)

/-- An entry at the tail of a core's spawn list, under a number of its own. -/
def Core.appendSpawn (k : Core) (e : Spawn) : Core := { k with spawns := k.spawns ++ [{ e with id := k.next }], next := k.next + 1 }

/-- STEWARD_FEED (R26): The steward places an actor on the core that its grant gives now (R390): in a slot where one and room are free, else
in the core's spawn list; it holds one that meets a full list, and feeds the held ones in order. It places nothing while its firmware is
quiesced (R393). -/
def evStewardFeed (n : Nat) (s : State) : Option State :=
  match s.packet n with
  | none => none
  | some p =>
    match p.pay with
    | .feed e _ =>
      if (s.pkg p.src).quiesced 2 then none
      else
        (s.stewardPlace p.src e.name).bind fun c =>
          let earlier := s.net.any fun q => decide (q.1 < n) && match q.2.pay with
            | .feed e' _ => q.2.src == p.src && s.stewardPlace p.src e'.name == some c
            | _ => false
          let done := fun (t : State) => (t.take n).journal p.src 2 jFeed [e.name.toNat, c]
          match (if e.rst then none else s.startActor c e (s.spawnImage e)) with
          | some t => some (done t)
          | none =>
            if earlier || (s.core c).spawns.length ≥ 32 then none
            else some (done (s.onCore c (·.appendSpawn e)))
    | _ => none

/-- The meaning of STEWARD_FEED. -/
def execStewardFeed (n : Nat) (s : State) : Answer := .next ((evStewardFeed n s).getD s)

/-- ACTOR_LOAD_COMPLETE (R151): Slot moves from loading to idle once the image is loaded and the initial message placed. -/
def evActorLoadComplete (core slot : Nat) (s : State) : Option State :=
  if (s.actor core slot).state = .loading then
    some (s.onCore core fun k => (k.onActor slot fun a => { a with state := .idle }).wake slot (s.now core))
  else none

/-- The meaning of ACTOR_LOAD_COMPLETE. -/
def execActorLoadComplete (core slot : Nat) (s : State) : Answer := .next ((evActorLoadComplete core slot s).getD s)

/-! ## Load levelling (R42, R43) -/

/-- The load of a core (R42). -/
def Core.load (k : Core) : Nat :=
  (k.slots.filter fun p => decide (p.2.state ≠ .free ∧ p.2.state ≠ .dying) && k.anyRunnable p.1).length + k.spawns.length

/-- The neighbour of a compute core at an offset within its cluster. -/
def neighbour (c dx dy : Nat) : Nat :=
  let k := coreIndex c % 16
  computeKey (corePkg c) (coreDie c) (coreIndex c / 16 * 16 + (k / 4 + dy) % 4 * 4 + (k % 4 + dx) % 4)

/-- The neighbours in order: east, south, west, north. -/
def neighbours (c : Nat) : List Nat := [neighbour c 1 0, neighbour c 0 1, neighbour c 3 0, neighbour c 0 3]

/-- The least-loaded neighbour of a core that takes part (R43, R383). -/
def State.lightest (s : State) (c : Nat) : Option Nat :=
  ((neighbours c).filter s.coreLive).foldl (fun best n =>
    match best with
    | none => some n
    | some b => if (s.core n).load < (s.core b).load then some n else some b) none

/-- Unstarted spawns of a core that levelling may ship. -/
def Core.shippable (k : Core) : List Spawn := k.spawns.filter fun e => !e.rst && e.filled

/-- What a core would ship, and where (R43). -/
def State.shipment (s : State) (c : Nat) : Option (Nat × Nat) :=
  if !s.coreLive c then none
  else
    (s.lightest c).bind fun n =>
      let l := (s.core c).load
      let m := (s.core n).load
      if l < m + 2 then none else some (n, Min.min (Min.min 4 ((l - m) / 2)) (s.core c).shippable.length)

/-- Moves the last `n` spawns that a core could ship when the loads were sampled, in `before`, to the tail of another's list. -/
def State.ship (s before : State) (src dst n : Nat) : State :=
  let es := (before.core src).shippable
  let out := es.drop (es.length - n)
  let s1 := s.onCore src fun k => { k with spawns := k.spawns.filter fun e => !out.any (·.id == e.id) }
  (s1.onCore dst fun k => out.foldl Core.appendSpawn k).countCore src 0x0B none out.length

/-- The shipments to one core: the entries that were free when the loads were sampled are granted to its west, north, east and south
neighbours in turn. -/
def State.receiveAll (s before : State) (dst : Nat) : State :=
  (([neighbour dst 3 0, neighbour dst 0 3, neighbour dst 1 0, neighbour dst 0 1]).foldl (fun (r : State × Nat) src =>
    match before.shipment src with
    | some (d, n) => if d = dst then (r.1.ship before src dst (Min.min n r.2), r.2 - n) else r
    | none => r) (s, 32 - (before.core dst).spawns.length)).1

/-- Whether this is a cycle in which the cores of a package sample their loads, and they have not yet done so (R43). -/
def State.levels (s : State) (pkg : Nat) : Bool :=
  let p := s.pkg pkg
  p.runs && decide (p.cycle % 8192 = 0) && decide (p.cycle / 8192 ≠ p.levelled)

/-- Whether some core of a package holds a spawn that levelling could ship. -/
def State.hasSpawns (s : State) (pkg : Nat) : Bool := s.cores.any fun c => corePkg c.1 == pkg && !c.2.shippable.isEmpty

/-- LOAD_LEVELLING (R43): Samples core loads in each cycle in which CYCLE mod 8,192 is 0, and ships unstarted spawns to the least-loaded
neighbour. -/
def evLoadLevelling (pkg : Nat) (s : State) : Option State :=
  if !s.levels pkg then none
  else
    let cs := (s.cores.map (·.1)).filter fun c => corePkg c == pkg && !coreIsMem c
    let dsts := (cs.filterMap fun c => (s.shipment c).map (·.1)).eraseDups
    some ((dsts.foldl (fun t d => t.receiveAll s d) s).onPkg pkg fun p => { p with levelled := p.cycle / 8192 })

/-- The meaning of LOAD_LEVELLING. -/
def execLoadLevelling (pkg : Nat) (s : State) : Answer := .next ((evLoadLevelling pkg s).getD s)

/-! ## Bellwether (R160 to R163) -/

/-- A member of a restart scope has been restarted or refused; when it was the last, the dead child's CHILD_EXIT is delivered (R160):
SUB 2 where its own image was refused. -/
def State.scopeMember (s : State) (supv name : W64) (refused : Bool) : State :=
  let mine := fun (c : Scope) => c.supv == supv && c.waiting.isEmpty && c.members.any fun m => m.name == name
  let step := fun (c : Scope) =>
    { c with
      members := c.members.filter fun m => m.name != name
      trigger := if refused ∧ c.trigger.subject = name then { c.trigger with sub := 2 } else c.trigger }
  let s1 := { s with scopes := (s.scopes.map fun c => if mine c then step c else c).filter fun c => !(c.waiting.isEmpty && c.members.isEmpty) }
  ((s.scopes.filter mine).map step).foldl (fun s c =>
    if c.members.isEmpty then
      match s.hears c.trigger with
      | .actor k i => s.placeAt k i { c.trigger with sub := if c.trigger.sub = 2 then 2 else 0 }
      | _ => s
    else s) s1

/-- A restart is refused: the name is free, and so are those that would have followed it. -/
def State.refuseRestart (s : State) (r : Restart) : State :=
  (s.noRestart r.name r.rrec r.revive).scopeMember r.supv r.name true

/-- The restart of a name on a core, started now or at the head of its spawn list, behind earlier restarts (R163, R184). Its initial message has
the incarnation of its sender at the first creation (log 99). -/
def State.restartOn (s : State) (r : Restart) (rec_ : RestartRec) (core : Nat) : Option State :=
  let e : Spawn := { id := (s.core core).next, name := r.name, msg := rec_.msg, sender := rec_.sender, sinc := rec_.sinc, rst := true
                     supv := r.supv, inc := r.inc + 1, revive := r.revive }
  match s.startActor core e rec_.image with
  | some s1 => some s1
  | none =>
    let k := s.core core
    if k.spawns.length ≥ 32 then none
    else
      let n := (k.spawns.takeWhile (·.rst)).length
      some (s.setCore core { k with spawns := k.spawns.take n ++ [e] ++ k.spawns.drop n, next := k.next + 1 })

/-- The core of a restart (R163 step 2): the steward makes no choice while its firmware is quiesced (R393). -/
def State.restartCore (s : State) (r : Restart) (mx : Bool) : Option Nat :=
  if s.placeable r.core mx then some r.core
  else if (s.pkg (corePkg r.core)).quiesced 2 then none
  else (s.flock (flockOf r.name)).bind fun f => s.stewardCore (corePkg r.core) f r.name mx

/-- BELLWETHER_RESTART (R163): Bellwether re-measures and re-creates a dead actor with the next incarnation. -/
def evBellwetherRestart (n : Nat) (s : State) : Option State :=
  match s.packet n with
  | none => none
  | some p =>
    match p.pay with
    | .restart r =>
      let earlier := s.net.any fun q => decide (q.1 < n) && match q.2.pay with
        | .restart t => corePkg t.core == corePkg r.core && coreDie t.core == coreDie r.core
        | _ => false
      if earlier || !(s.pkg p.src).runs then none
      else
        match (s.dirEntry r.name).bind fun d => if s.awaits r.name r.rrec then (s.rrecs.find r.rrec).map fun x => (d, x) else none with
        | none => some ((s.take n).refuseRestart r)
        | some (d, rec_) =>
          match s.image rec_.image.toNat (flockOf r.name) with
          | none => some ((s.take n).refuseRestart r)
          | some img =>
            if s.measure img ≠ rec_.digest then some ((s.take n).refuseRestart r)
            else
              (s.restartCore r img.mxdecl).bind fun core =>
                (((s.take n).setDir { (d.at core 0) with inc := r.inc + 1, state := 3 }).restartOn r rec_ core).map
                  fun s1 => s1.scopeMember r.supv r.name false
    | _ => none

/-- The meaning of BELLWETHER_RESTART. -/
def execBellwetherRestart (n : Nat) (s : State) : Answer := .next ((evBellwetherRestart n s).getD s)

end Sys2Proof.Machine
end

