-- ==== Sys2Proof/Machine/Services.lean ====
section
/-! DEFINITION. Requests to the device services of flock 0: taking a request and answering it (R207), the topology service (R387, R390),
the power service (R404) and the attestation service with the measurement log (R392, R395, R399). -/

namespace Sys2Proof.Machine

/-! ## Requests and answers (R207) -/

/-- A service takes a request of a code: the message, the package that serves it (log 40), and the state once the sender's send entry has
its answer. None where the packet holds no such request, or where it may not leave its core yet. -/
def State.request (s : State) (n : Nat) (service : W64) (code : Nat) : Option (Msg × Nat × State) :=
  match s.packet n with
  | none => none
  | some p =>
    match p.pay with
    | .message m via _ =>
      if m.dst ≠ service ∨ !m.isRequest ∨ m.code ≠ code ∨ !(s.pkg p.src).runs then none
      else
        match via with
        | .entry c id =>
          match s.sendEntry c id with
          | none => none
          | some e =>
            let s1 := s.leaveUpTo c e
            match s1.sendEntry c id with
            | none => none
            | some f => if f.phase = .flying ∧ f.dest.isNone then some (m, p.src, s1.answerSend c f .placed) else none
        | .free .. | .notice .. => some (m, p.src, s.take n)
    | _ => none

/-- The answer of a service on its requester's c0. -/
def State.reply (s : State) (pkg : Nat) (m : Msg) (words : List W64) : State :=
  let r : Msg :=
    { dst := m.sender, inc := 0, named := false, chan := 0, kind := mSend, sinc := 0, sender := m.dst, domain := 0, everyDomain := true,
      body := body8 words }
  s.post pkg (.message r (.free m.dst 0 hostDie) none)

/-- A request that a service answers with a status and further words, after changing its package. -/
def State.served (s : State) (n : Nat) (service : W64) (code : Nat) (f : State → Nat → Msg → State × List W64) : Option State :=
  (s.request n service code).map fun q =>
    let r := f q.2.2 q.2.1 q.1
    r.1.reply q.2.1 q.1 r.2

/-! ## Registries -/

/-- The registration of a sender, unless it has one; none where its domain already holds the limit. -/
def register (l : List Registration) (limit : Nat) (m : Msg) : Option (List Registration) :=
  let r : Registration := { name := m.sender, domain := m.domain }
  if l.any fun x => x.name == m.sender then some l
  else if (l.filter fun x => x.domain == m.domain).length ≥ limit then none
  else some (l ++ [r])

/-- A registry without a sender. -/
def deregister (l : List Registration) (m : Msg) : List Registration := l.filter fun x => x.name != m.sender

/-! ## The topology service (R387) -/

/-- The topology service's name. -/
def topologyService : W64 := 4

/-- TOPOLOGY_REGISTER (R387): Registers the requester for topology notices, or refuses a 17th of a domain. -/
def evTopologyRegister (n : Nat) (s : State) : Option State :=
  s.served n topologyService 1 fun s pkg m =>
    match register (s.pkg pkg).topoRegs 16 m with
    | some l => (s.onPkg pkg fun p => { p with topoRegs := l }, [0])
    | none => (s, [2])

/-- The meaning of TOPOLOGY_REGISTER. -/
def execTopologyRegister (n : Nat) (s : State) : Answer := .next ((evTopologyRegister n s).getD s)

/-- TOPOLOGY_DEREGISTER (R387): Removes the requester's topology registration. -/
def evTopologyDeregister (n : Nat) (s : State) : Option State :=
  s.served n topologyService 2 fun s pkg m => (s.onPkg pkg fun p => { p with topoRegs := deregister p.topoRegs m }, [0])

/-- The meaning of TOPOLOGY_DEREGISTER. -/
def execTopologyDeregister (n : Nat) (s : State) : Answer := .next ((evTopologyDeregister n s).getD s)

/-- The state of the compute core that a DETAIL names: 0 live, 1 matrix unit withdrawn, 2 quarantined, 3 absent. DETAIL does not say which kind of
unit UNIT counts (log 107). -/
def State.unitState (s : State) (d : W64) : Nat :=
  let c := computeKey (bits d.toNat 63 52) (bits d.toNat 51 50) (bits d.toNat 47 36)
  if bits d.toNat 47 36 ≥ 1024 ∨ !s.coreExists c ∨ (s.pkg (corePkg c)).lost then 3
  else if (s.core c).gone then 2
  else if (s.core c).mxLost then 1
  else 0

/-- TOPOLOGY_READ_UNIT (R387): Answers whether a unit is live, matrix-withdrawn, quarantined or absent. -/
def evTopologyReadUnit (n : Nat) (s : State) : Option State :=
  s.served n topologyService 3 fun s _ m => (s, [0, BitVec.ofNat 64 (s.unitState m.body[1])])

/-- The meaning of TOPOLOGY_READ_UNIT. -/
def execTopologyReadUnit (n : Nat) (s : State) : Answer := .next ((evTopologyReadUnit n s).getD s)

/-- The grant words of a domain on a package: the granted dies, and the live clusters of each die. -/
def Package.grantWords (p : Package) (dom : BitVec 16) : List W64 :=
  let live := p.liveGrant dom
  let dies := if dom = 0 then List.range 4 else (List.range 4).filter (p.grants.get {} dom.toNat).dies.contains
  BitVec.ofNat 64 (dies.map (2 ^ ·)).sum ::
    (List.range 4).map fun d => BitVec.ofNat 64 ((live.filter fun c => c / 64 == d).map fun c => 2 ^ (c % 64)).sum

/-- TOPOLOGY_READ_GRANT (R387): Answers the grant of the requester's domain. -/
def evTopologyReadGrant (n : Nat) (s : State) : Option State :=
  s.served n topologyService 4 fun s pkg m => (s, 0 :: (s.pkg pkg).grantWords m.domain)

/-- The meaning of TOPOLOGY_READ_GRANT. -/
def execTopologyReadGrant (n : Nat) (s : State) : Answer := .next ((evTopologyReadGrant n s).getD s)

/-! ## The power service (R404) -/

/-- The power service's name. -/
def powerService : W64 := 6

/-- POWER_SERVICE_REGISTER (R404): Registers the requester for power-step notices. -/
def evPowerServiceRegister (n : Nat) (s : State) : Option State :=
  s.served n powerService 1 fun s pkg m =>
    match register (s.pkg pkg).powRegs 16 m with
    | some l => (s.onPkg pkg fun p => { p with powRegs := l }, [0])
    | none => (s, [2])

/-- The meaning of POWER_SERVICE_REGISTER. -/
def execPowerServiceRegister (n : Nat) (s : State) : Answer := .next ((evPowerServiceRegister n s).getD s)

/-- POWER_SERVICE_DEREGISTER (R404): Removes the requester's power registration. -/
def evPowerServiceDeregister (n : Nat) (s : State) : Option State :=
  s.served n powerService 2 fun s pkg m => (s.onPkg pkg fun p => { p with powRegs := deregister p.powRegs m }, [0])

/-- The meaning of POWER_SERVICE_DEREGISTER. -/
def execPowerServiceDeregister (n : Nat) (s : State) : Answer := .next ((evPowerServiceDeregister n s).getD s)

/-! ## Measurement (R392, R395) -/

/-- The 48 bytes of a digest. -/
def digestBytes (d : BitVec 384) : List Byte := toBytes 48 d.toNat

/-- A measurement value from the digests that it has been extended with, oldest first (R392). -/
def measured (l : List (BitVec 384)) : BitVec 384 := l.foldl (fun mv h => sha384 (digestBytes mv ++ digestBytes h)) 0

/-- An extend of a measurement value, with its log entry while the log has room (R392). -/
def Package.extend (p : Package) (fw event mv schema : Nat) (h : BitVec 384) : Package :=
  let e : LogEntry := { fw := fw, event := event, mv := mv, schema := schema, cycle := p.cycle, digest := h }
  { p with
    mv := p.mv.set (mv % 5) (p.mv[mv % 5] ++ [h])
    log := if p.log.length < 4096 then p.log ++ [e] else p.log }

/-- A MEASURE notice (R395) for the newest log entry, to every registered attestation actor of the pod. -/
def State.measureNotice (s : State) (pkg fw event schema skipped : Nat) : State :=
  let detail := BitVec.ofNat 64 (fw * 2 ^ 60 + event * 2 ^ 56 + schema % 2 ^ 16 * 2 ^ 32 +
    ((s.pkg pkg).log.length - 1) % 2 ^ 16 * 2 ^ 16 + skipped % 2 ^ 16)
  s.tellAll pkg 0 (s.pkgs.flatMap fun p => p.2.attRegs) rMeasure event detail

/-! ## The attestation service (R399) -/

/-- The attestation service's name. -/
def attestationService : W64 := 5

/-- ATTEST_REGISTER (R399): Registers the requester as an attestation actor of its domain. -/
def evAttestRegister (n : Nat) (s : State) : Option State :=
  s.served n attestationService 1 fun s pkg m =>
    match register (s.pkg pkg).attRegs 4 m with
    | some l => (s.onPkg pkg fun p => { p with attRegs := l }, [0])
    | none => (s, [2])

/-- The meaning of ATTEST_REGISTER. -/
def execAttestRegister (n : Nat) (s : State) : Answer := .next ((evAttestRegister n s).getD s)

/-- ATTEST_DEREGISTER (R399): Removes the requester's attestation registration. -/
def evAttestDeregister (n : Nat) (s : State) : Option State :=
  s.served n attestationService 2 fun s pkg m => (s.onPkg pkg fun p => { p with attRegs := deregister p.attRegs m }, [0])

/-- The meaning of ATTEST_DEREGISTER. -/
def execAttestDeregister (n : Nat) (s : State) : Answer := .next ((evAttestDeregister n s).getD s)

/-- Granules of a parcel of so many bytes: one at least. -/
def parcelGranules (bytes : Nat) : Nat := Max.max 1 ((bytes + 1023) / 1024)

/-- Whether an actor has room for a parcel of a size on a channel (R153). -/
def State.parcelRoom (s : State) (name : W64) (size chan : Nat) : Bool :=
  match s.who name with
  | .actor core slot =>
    let k := s.core core
    !k.chanFull slot chan && k.freeEntry.isSome && (k.findRun size).isSome
  | .gateway .. => true
  | .pending | .nobody => false

/-- A parcel of bytes that come from no core, on its way to a receiver. -/
def State.sendBody (s : State) (pkg : Nat) (giver : W64) (dom : BitVec 16) (dst : W64) (chan : Nat) (tag : W64) (body : List Byte) : State :=
  let p : Parcel :=
    { giver := giver, giverInc := 0, giverCore := pkg * 65536, giverEntry := none, domain := dom, base := 0, size := parcelGranules body.length,
      kind := kData, rd := true, wr := true, skew := false, pitch := 0, dst := dst, chan := chan, tag := tag, phase := .asking, body := body }
  s.post pkg (.parcel p)

/-- A request that a service answers with a parcel on the channel of m7 (R399): 1 where the receiver has no room. -/
def State.servedParcel (s : State) (n code : Nat) (body : State → Nat → Msg → List Byte) : Option State :=
  s.served n attestationService code fun s pkg m =>
    let b := body s pkg m
    let chan := bits (m.body[7]).toNat 1 0
    if s.parcelRoom m.sender (parcelGranules b.length) chan then
      (s.sendBody pkg attestationService m.domain m.sender chan 0 b, [0])
    else (s, [1])

/-- The bytes of a quote (R399): 17 granules, the signatures over SHA-384 of the first 0x140. -/
def Package.quote (p : Package) (pkg : Nat) (m : Msg) : List Byte :=
  let w := fun (v : Nat) => toBytes 8 v
  let head := w (pkg * 2 ^ 52 + p.silrev % 256 * 2 ^ 8 + 1) ++ w (m.domain.toNat * 2 ^ 48 + p.cycle % 2 ^ 32) ++
    ((m.body.toList.drop 1).take 6).flatMap (fun v => w v.toNat) ++ p.mv.toList.flatMap (fun l => digestBytes (measured l)) ++
    w p.log.length ++ w 0
  let h := sha384 head
  head ++ toBytes 384 (Config.rsaSignature h).toNat ++ toBytes 16224 (Config.slhSignature h).toNat ++ List.replicate 480 0

/-- QUOTE (R399): Delivers a signed quote parcel over the measurement values. -/
def evQuote (n : Nat) (s : State) : Option State := s.servedParcel n 3 fun s pkg m => (s.pkg pkg).quote pkg m

/-- The meaning of QUOTE. -/
def execQuote (n : Nat) (s : State) : Answer := .next ((evQuote n s).getD s)

/-- The 64 bytes of a log entry (R392). -/
def LogEntry.bytes (e : LogEntry) (index : Nat) : List Byte :=
  toBytes 8 (e.fw * 2 ^ 60 + e.event * 2 ^ 56 + e.mv * 2 ^ 48 + e.schema % 2 ^ 16 * 2 ^ 32 + index % 2 ^ 32) ++ toBytes 8 e.cycle ++
    digestBytes e.digest

/-- LOG_READ (R399): Delivers a parcel of up to 256 measurement log entries. -/
def evLogRead (n : Nat) (s : State) : Option State :=
  s.servedParcel n 4 fun s pkg m =>
    (((s.pkg pkg).log.zipIdx.drop (m.body[1]).toNat).take 256).flatMap fun p => p.1.bytes p.2

/-- The meaning of LOG_READ. -/
def execLogRead (n : Nat) (s : State) : Answer := .next ((evLogRead n s).getD s)

end Sys2Proof.Machine
end

