-- ==== Sys2Proof/Machine/Counters.lean ====
section
/-! DEFINITION. The counter service (R207 to R209): counter identities, reading and programming counters, thresholds and their samples. The
layout of an identity's low bits and of a select word is the model's (log 41). -/

namespace Sys2Proof.Machine

/-! ## Identities (R207) -/

/-- A counter that an identity names: a performance counter of a core, an engine or an owner; FIRES or TRAPS of a slot; RSTDIE of a die;
ENERGY, POWER, TEMP or BUDGET of a die, the hub or the package; the bad-frame list. -/
inductive CounterRef where
  | corePmc (core i : Nat)
  | enginePmc (eng i : Nat)
  | ownerPmc (owner i : Nat)
  | fires (core slot : Nat)
  | traps (core slot : Nat)
  | rstdie (pkg die : Nat)
  | power (kind pkg : Nat) (part : Option (Option Nat))
  | budget (pkg : Nat) (part : Option Nat)
  | badFrames (pkg : Nat)
  deriving DecidableEq, Repr

/-- The counter that an identity names (log 41); none where it names none. Bits 44:0 hold the counter index in 3:0 and the
unit above: for KIND 0 the unit kind in 21:20 (0 core, 1 copy engine, 2 owner) with its number in 19:4; for KIND 1 the slot in 9:4 and the
core's number in 23:10; for KINDs 2 to 4 index 0 names a die, or the hub where DIE is 3 and bit 45 is set, and index 1 the package; for KIND 3 index 2
names BUDGET. -/
def counterRef (id : W64) : Option CounterRef :=
  let v := id.toNat
  let pkg := bits v 59 48
  let die := bits v 47 46
  let hub := v.testBit 45
  let i := bits v 3 0
  let part : Option Nat := if hub then none else some die
  if hub ∧ (die ≠ 3 ∨ identKind id < 2 ∨ identKind id > 4) then none
  else
    match identKind id with
    | 0 =>
      let u := bits v 19 4
      match bits v 44 20 with
      | 0 => if i < 4 ∧ u < 2 ^ 14 then some (.corePmc (pkg * 65536 + die * 16384 + u) i) else none
      | 1 => if i < 2 ∧ u < 64 then some (.enginePmc (pkg * 256 + die * 64 + u) i) else none
      | 2 => if i < 2 ∧ u < 128 then some (.ownerPmc (pkg * 512 + die * 128 + u) i) else none
      | _ => none
    | 1 =>
      let core := pkg * 65536 + die * 16384 + bits v 23 10
      if bits v 44 24 ≠ 0 then none
      else
        match i with
        | 0 => some (.fires core (bits v 9 4))
        | 1 => some (.traps core (bits v 9 4))
        | 2 => if bits v 44 4 = 0 then some (.rstdie pkg die) else none
        | _ => none
    | 2 | 3 | 4 =>
      match bits v 44 0 with
      | 0 => some (.power (identKind id) pkg (some part))
      | 1 => if bits v 47 45 = 0 then some (.power (identKind id) pkg none) else none
      | 2 => if identKind id = 3 then some (.budget pkg part) else none
      | _ => none
    | 5 => if bits v 47 0 = 0 then some (.badFrames pkg) else none
    | _ => none

/-- The package of a counter. -/
def CounterRef.pkg : CounterRef → Nat
  | .corePmc c _ | .fires c _ | .traps c _ => corePkg c
  | .enginePmc e _ => engPkg e
  | .ownerPmc o _ => ownerPkg o
  | .rstdie p _ | .power _ p _ | .budget p _ | .badFrames p => p

/-- The unit of a counter exists, on a package that takes part in the pod. -/
def State.counterExists (s : State) (r : CounterRef) : Bool :=
  (s.pkgs.find r.pkg).isSome && !(s.pkg r.pkg).lost &&
  match r with
  | .corePmc c _ => s.coreExists c
  | .fires c _ | .traps c _ => s.coreExists c
  | .ownerPmc o _ => ownerIsBank o || (decide (ownerIdx o < 56) && s.coreExists (ownerCore o))
  | .enginePmc .. | .rstdie .. | .power .. | .budget .. | .badFrames _ => true

/-- The counters of one die or of the hub. -/
def Package.part (p : Package) (part : Option Nat) : DieState :=
  match part with
  | some d => p.dies[d % 4]
  | none => p.hub

/-- The five parts of a package that draw power (R205). -/
def Package.parts (p : Package) : List DieState := p.dies.toList ++ [p.hub]

/-- ENERGY, POWER or TEMP of a part or of the package (R205). -/
def Package.powerValue (p : Package) (kind : Nat) (part : Option (Option Nat)) : Int :=
  let l := match part with
    | some q => [p.part q]
    | none => p.parts
  match kind with
  | 2 => (l.map fun d => (d.energy.toNat : Int)).sum
  | 3 => (l.map fun d => (d.power : Int)).sum
  | _ => l.foldl (fun m d => Max.max m d.temp.toInt) ((l.map fun d => d.temp.toInt).headD 0)

/-- A performance counter. -/
def State.pmc (s : State) (r : CounterRef) : Option Pmc :=
  match r with
  | .corePmc c i => (s.core c).pmcs[i]?
  | .enginePmc e i => (s.engine e).pmcs[i]?
  | .ownerPmc o i => (s.owner o).pmcs[i]?
  | _ => none

/-- The value of a counter. -/
def State.counterValue (s : State) (r : CounterRef) : Int :=
  match r with
  | .corePmc .. | .enginePmc .. | .ownerPmc .. => ((s.pmc r).map fun c => (c.count.toNat : Int)).getD 0
  | .fires c i => (s.actor c i).fires.toNat
  | .traps c i => (s.actor c i).traps.toNat
  | .rstdie p d => (s.pkg p).dies[d % 4].rstdie.toNat
  | .power kind p part => (s.pkg p).powerValue kind part
  | .budget p part => ((s.pkg p).part part).budget
  | .badFrames p => (s.pkg p).badFrames.length

/-- The width of a counter that wraps, for its crossings (R208); none of one that saturates or is a level. -/
def CounterRef.wraps : CounterRef → Option Nat
  | .corePmc .. | .enginePmc .. | .ownerPmc .. => some 48
  | .fires .. | .rstdie .. => some 32
  | .power kind _ _ => if kind = 2 then some 64 else none
  | .traps .. | .budget .. | .badFrames _ => none

/-- Whether a requester of a domain may name a counter (R207): domain 0 any; a tenant the performance counters that filter its own domain,
the counters of its own actors, and ENERGY, POWER and TEMP of the package that serves it (R205). -/
def State.mayName (s : State) (pkg : Nat) (dom : BitVec 16) (r : CounterRef) : Bool :=
  dom == 0 ||
    match r with
    | .corePmc .. | .enginePmc .. | .ownerPmc .. => ((s.pmc r).map fun c => c.dfilt && c.domain == dom).getD false
    | .fires c i | .traps c i => (s.actor c i).domain == dom
    | .power _ p none => p == pkg
    | .power _ _ (some _) | .budget .. | .rstdie .. | .badFrames _ => false

/-- The counter of a request, or the status that refuses it. -/
def State.named (s : State) (pkg : Nat) (m : Msg) (id : W64) : Option CounterRef :=
  (counterRef id).bind fun r => if s.counterExists r && s.mayName pkg m.domain r then some r else none

/-! ## Reading and programming -/

/-- COUNTER_READ (R207): Answers a counter read request with the value. -/
def evCounterRead (n : Nat) (s : State) : Option State :=
  s.served n counterService 1 fun s pkg m =>
    match s.named pkg m m.body[1] with
    | some r => (s, [0, BitVec.ofInt 64 (s.counterValue r), BitVec.ofNat 64 (s.cycle pkg)])
    | none => (s, [1])

/-- The meaning of COUNTER_READ. -/
def execCounterRead (n : Nat) (s : State) : Answer := .next ((evCounterRead n s).getD s)

/-- The event codes of R204 that a unit's counter can select. -/
def eventCodes : CounterRef → List Nat
  | .corePmc .. => [0x01, 0x02, 0x03, 0x04, 0x05, 0x06, 0x07, 0x08, 0x09, 0x0A, 0x0B, 0x0C]
  | .enginePmc .. => [0x40, 0x41, 0x42]
  | .ownerPmc o _ => if ownerIsBank o then [0x60, 0x61, 0x62, 0x63, 0x64] else [0x80, 0x81, 0x82]
  | _ => []

/-- A counter programmed by a select word (log 41): EVENT in bits 7:0, DOMAIN in 23:8, DFILT in bit 24, EN in bit 25; it counts from 0. -/
def Pmc.ofWord (w : W64) : Pmc :=
  { event := bits w.toNat 7 0, domain := BitVec.ofNat 16 (bits w.toNat 23 8), dfilt := w.getLsbD 24, en := w.getLsbD 25 }

/-- Writes a performance counter. -/
def State.setPmc (s : State) (r : CounterRef) (c : Pmc) : State :=
  match r with
  | .corePmc k i => s.onCore k fun k => { k with pmcs := k.pmcs.set (i % 4) c (Nat.mod_lt _ (by decide)) }
  | .enginePmc e i => s.onEngine e fun g => { g with pmcs := g.pmcs.set (i % 2) c (Nat.mod_lt _ (by decide)) }
  | .ownerPmc o i => s.onOwner o fun w => { w with pmcs := w.pmcs.set (i % 2) c (Nat.mod_lt _ (by decide)) }
  | _ => s

/-- The status of a request to program a counter (R207): 1 a counter or code not permitted, 3 reserved bits. -/
def State.programStatus (s : State) (m : Msg) (r : Option CounterRef) (w : W64) : Nat :=
  match r with
  | none => 1
  | some r =>
    if bits w.toNat 63 26 ≠ 0 then 3
    else if !s.counterExists r || !(eventCodes r).contains (bits w.toNat 7 0) then 1
    else if m.domain = 0 ∨ ((Pmc.ofWord w).dfilt ∧ (Pmc.ofWord w).domain = m.domain) then 0
    else 1

/-- COUNTER_PROGRAM (R207): Programs a performance counter's select word after permission checks. -/
def evCounterProgram (n : Nat) (s : State) : Option State :=
  s.served n counterService 2 fun s pkg m =>
    let r := counterRef m.body[1]
    let st := s.programStatus m r m.body[2]
    match st, r with
    | 0, some r => (s.setPmc r (Pmc.ofWord m.body[2]), [0])
    | _, _ => (s, [BitVec.ofNat 64 st])

/-- The meaning of COUNTER_PROGRAM. -/
def execCounterProgram (n : Nat) (s : State) : Answer := .next ((evCounterProgram n s).getD s)

/-! ## Thresholds (R207, R208) -/

/-- T of a threshold as its counter's values are compared: signed for a temperature. -/
def Threshold.level (h : Threshold) (w : W64) : Int := if identKind h.ident = 4 then w.toInt else w.toNat

/-- The threshold of a request. -/
def Threshold.ofMsg (m : Msg) (now : Int) : Threshold :=
  let h : Threshold :=
    { ident := m.body[1], t := (m.body[2]).toNat, hp := (m.body[3]).toNat, period := (m.body[4]).getLsbD 0, target := m.body[5],
      chan := bits (m.body[6]).toNat 1 0, domain := m.domain }
  { h with armed := h.period || decide (now < h.level m.body[2]) }

/-- Whether an operand of a threshold request is out of range (R207): reserved bits, or a period of 0; a T beyond the counter is taken (log 119). -/
def thresholdBad (m : Msg) : Bool :=
  bits (m.body[4]).toNat 63 1 != 0 || bits (m.body[6]).toNat 63 2 != 0 || ((m.body[4]).getLsbD 0 && m.body[3] == 0)

/-- THRESHOLD_SET (R207): Sets a counter threshold for notices, under the lowest free number (log 115). -/
def evThresholdSet (n : Nat) (s : State) : Option State :=
  s.served n counterService 3 fun s pkg m =>
    match s.named pkg m m.body[1] with
    | none => (s, [1])
    | some r =>
      if thresholdBad m then (s, [3])
      else
        match (List.range 1024).find? fun i => ((s.pkg pkg).thresholds.find i).isNone with
        | none => (s, [2])
        | some i =>
          (s.onPkg pkg fun p => { p with thresholds := p.thresholds.put i (Threshold.ofMsg m (s.counterValue r)) }, [0, BitVec.ofNat 64 i])

/-- The meaning of THRESHOLD_SET. -/
def execThresholdSet (n : Nat) (s : State) : Answer := .next ((evThresholdSet n s).getD s)

/-- THRESHOLD_CANCEL (R207): Cancels a counter threshold. A tenant cancels its own domain's thresholds only. -/
def evThresholdCancel (n : Nat) (s : State) : Option State :=
  s.served n counterService 4 fun s pkg m =>
    let i := (m.body[1]).toNat
    match (s.pkg pkg).thresholds.find i with
    | some h =>
      if m.domain = 0 ∨ h.domain = m.domain then (s.onPkg pkg fun p => { p with thresholds := p.thresholds.del i }, [0]) else (s, [1])
    | none => (s, [3])

/-- The meaning of THRESHOLD_CANCEL. -/
def execThresholdCancel (n : Nat) (s : State) : Answer := .next ((evThresholdCancel n s).getD s)

/-- How often a period threshold is crossed in a sample (R208): of a wrapping counter, judged on the difference modulo its width. -/
def Threshold.crossings (h : Threshold) (wraps : Option Nat) (v : Int) : Nat :=
  let reached : Option Nat := match wraps with
    | some w => let d := ((v - h.t) % 2 ^ w).toNat; if d < 2 ^ (w - 1) then some d else none
    | none => if (h.t : Int) ≤ v then some (v - h.t).toNat else none
  match reached with
  | some d => if h.hp > 0 then d / h.hp + 1 else 0
  | none => 0

/-- T of a period threshold after some crossings. -/
def Threshold.raised (h : Threshold) (wraps : Option Nat) (n : Nat) : Nat :=
  match wraps with
  | some w => (h.t + n * h.hp) % 2 ^ w
  | none => h.t + n * h.hp

/-- A threshold takes a sample: it after the sample, with its crossings added to those not yet told of, and T as it stood (R208). -/
def Threshold.sample (h : Threshold) (wraps : Option Nat) (v : Int) : Threshold :=
  if h.period then
    let n := h.crossings wraps v
    { h with t := h.raised wraps n, merged := h.merged + n }
  else
    let t := h.level (BitVec.ofNat 64 h.t)
    if h.armed ∧ t ≤ v then { h with armed := false, merged := h.merged + 1 }
    else if v < t - h.hp then { h with armed := true } else h

/-- A threshold of a package is sampled, and its notice leaves unless the last one left within 100 µs of wall time (R208). The crossings
of that time go into the next notice. -/
def State.sampleThreshold (s : State) (pkg i : Nat) (h : Threshold) : State :=
  match counterRef h.ident with
  | none => s
  | some r =>
    if !(s.pkgs.find r.pkg).isSome || (s.pkg r.pkg).lost then s
    else
    let now := s.wall
    let v := s.counterValue r
    let g := h.sample r.wraps v
    let due := decide (g.merged > 0) && (match h.lastNotice with | none => true | some t => decide (t + 94000 ≤ now))
    let t := if g.period ∧ g.merged > 0 then (match r.wraps with | some w => (g.t + (2 ^ w - g.hp % 2 ^ w)) % 2 ^ w | none => g.t - g.hp) else g.t
    let g1 := if due then { g with merged := 0, lastNotice := some now } else g
    let s1 := s.onPkg pkg fun p => { p with thresholds := p.thresholds.put i { g1 with last := v.toNat } }
    if due then s1.counterNotice pkg i g 1 g.merged (BitVec.ofInt 64 v) t else s1

/-- A frame of an owner joins the bad-frame list of its package (R147): 2,048 entries in flash; a frame beyond them is withheld until the
next reset, and the full list is told of. Thresholds on the list take a sample at each entry (R208). -/
def State.listBadFrame (s : State) (o frame : Nat) : State :=
  let pkg := ownerPkg o
  let full := decide ((s.pkg pkg).badFrames.length ≥ 2048)
  let s1 := s.onPkg pkg fun p => { p with badFrames := p.badFrames ++ [badEntry o frame], badFull := p.badFull || full }
  if full then s1.badFullNotices pkg
  else (s1.listThresholds pkg).foldl (fun s q => s.sampleThreshold q.1 q.2.1 q.2.2) s1

/-- COUNTER_SAMPLE (R208): Samples thresholds every microsecond and posts crossings as notices. -/
def evCounterSample (pkg : Nat) (s : State) : Option State :=
  let p := s.pkg pkg
  if !p.runs || decide (s.wall / 940 ≤ p.counted) then none
  else
    let s1 := (p.thresholds.filter fun q => identKind q.2.ident != 5).foldl (fun s q => s.sampleThreshold pkg q.1 q.2) s
    some (s1.onPkg pkg fun p => { p with counted := s.wall / 940 })

/-- The meaning of COUNTER_SAMPLE. -/
def execCounterSample (pkg : Nat) (s : State) : Answer := .next ((evCounterSample pkg s).getD s)

end Sys2Proof.Machine
end

