-- ==== Sys2Proof/Machine/Pages.lean ====
section
/-! DEFINITION. Pages between owners: collapse of read-duplicate pages (R146), migration (R124), frame retirement and lost pages (R147,
R148), reclaim (R102), parking (R107), patrol scrub (R384), and what the management firmware writes: hint records (R130, R136), the export
table (R129) and the image store (R108). -/

namespace Sys2Proof.Machine

/-- The pages of a range, in order. -/
def rangePages (key : Nat) : List Nat := (List.range 32).map (key * 32 + ·)

/-- The key of a page's range, class and range together. -/
def rangeOfPage (page : Nat) : Nat := page / 32

/-- A frame that a page leaves joins the bad-frame list where its corrected words call for retirement (R147): it is not given out again. -/
def State.leaveFrame (s : State) (o : Nat) (e : HomeEntry) : State :=
  if e.usesFrame && decide (e.corrected.length ≥ 8) then s.listBadFrame o e.frame else s

/-- A page leaves an owner, and its home-table entry with it (R137). -/
def State.dropHome (s : State) (o page : Nat) : State :=
  let e := (s.owner o).homes.get {} page
  (s.onOwner o fun w => { w with homes := w.homes.del page, moved := w.moved.filter (· != page) }).leaveFrame o e

/-- A page that another owner keeps is marked moved there (R146, R147). A service for it ends with that owner as holder, but for the owner's own
collapse, whose notice waits for every acknowledgement (R146 step 4). -/
def State.dropAt (s : State) (o page home : Nat) : State :=
  let e := (s.owner o).homes.get {} page
  let s1 := (s.markMoved o page home).leaveFrame o e
  if s.collapsing o page then s1 else s1.endService o page home 0

/-- A state as it is where the home holds a page alone, and where the page is duplicated. -/
def FState.single (f : FState) : FState := if f = .replica then .mapped else f
/-- As it is where the page is duplicated. -/
def FState.shared (f : FState) : FState := if f = .mapped then .replica else f

/-- A home-table entry whose page becomes single or duplicated, also while it is copy-on-write or its frame is retired. -/
def HomeEntry.become (e : HomeEntry) (f : FState → FState) : HomeEntry :=
  { e with fstate := f e.fstate, back := f e.back, prior := f e.prior }

/-! ## Collapse (R146) -/

/-- What a collapse makes of a record: SPLIT set with the bit of the page, or with all 32 bits while MU is 0. -/
def Hint.collapsed (h : Hint) (page : Nat) : Hint :=
  { h with split := true, spmap := if h.mu then h.spmap ||| (1#32 <<< (page % 32)) else BitVec.allOnes 32, gen := h.gen + 1 }

/-- DIRECTORY_COLLAPSE (R146): Directory marks pages split, raises GEN and sends drops to replica owners. -/
def evDirectoryCollapse (n : Nat) (s : State) : Option State :=
  match s.packet n with
  | none => none
  | some p =>
    match p.pay with
    | .collapse o page t =>
      match s.hintOf page with
      | none => some ((s.take n).post (ownerPkg o) (.collapseDone o page t o []))
      | some h =>
        match (if h.policy = 3 then h.home else none) with
        | none => some ((s.take n).post (ownerPkg o) (.collapseDone o page t (h.home.getD o) []))
        | some home =>
          let pages := if h.mu then [page] else rangePages (rangeOfPage page)
          let others := h.replicas.filter fun q => q != home && s.ownerLive q
          let s1 := { s.take n with hints := s.hints.put (hintKeyOfPage page) (h.collapsed page) }
          let first := s1.serial
          let s2 := others.foldl (fun s q => s.post (ownerPkg o) (.drop q home pages first)) s1
          some (s2.post (ownerPkg o) (.collapseDone o page t home ((List.range others.length).map (first + ·))))
    | _ => none

/-- The meaning of DIRECTORY_COLLAPSE. -/
def execDirectoryCollapse (n : Nat) (s : State) : Answer := .next ((evDirectoryCollapse n s).getD s)

/-- REPLICA_DROP (R146): Replica owner marks dropped pages moved and acknowledges, also those whose frame it is retiring and those that a cut has
marked copy-on-write. -/
def evReplicaDrop (n : Nat) (s : State) : Option State :=
  match s.packet n with
  | none => none
  | some p =>
    match p.pay with
    | .drop q home pages _ =>
      some (pages.foldl (fun s page =>
        match (s.owner q).homes.find page with
        | some e => if e.fstate = .replica ∨ e.fstate = .cow ∨ e.fstate = .migrating then s.dropAt q page home else s
        | none => s) (s.take n))
    | _ => none

/-- The meaning of REPLICA_DROP. -/
def execReplicaDrop (n : Nat) (s : State) : Answer := .next ((evReplicaDrop n s).getD s)

/-- Whether some replica owner has yet to drop a page. -/
def State.dropping (s : State) (page : Nat) : Bool :=
  s.net.any fun p => match p.2.pay with
    | .drop _ _ pages _ => pages.contains page
    | _ => false

/-- The home holds alone the pages of a range that no replica owner has yet to drop and that are no longer duplicated (R146 step 3). -/
def State.homeAlone (s : State) (home page : Nat) : State :=
  match s.hintOf page with
  | none => s
  | some h =>
    (rangePages (rangeOfPage page)).foldl (fun s q =>
      if h.duplicated q || s.dropping q then s
      else
        if (s.owner home).homes.any fun p => p.1 == q then s.onHome home q (·.become FState.single) else s) s

/-- COLLAPSE_COMPLETE (R146): After every acknowledgement the collapsing owner reads the record again and posts the replay notice naming the home
(R133). -/
def evCollapseComplete (n : Nat) (s : State) : Option State :=
  match s.packet n with
  | none => none
  | some p =>
    match p.pay with
    | .collapseDone o page _ home drops =>
      if drops.any fun d => (s.packet d).isSome then none
      else
        let now := ((s.hintOf page).bind Hint.home).getD home
        some (((s.take n).homeAlone now page).endService o page now 0)
    | _ => none

/-- The meaning of COLLAPSE_COMPLETE. -/
def execCollapseComplete (n : Nat) (s : State) : Answer := .next ((evCollapseComplete n s).getD s)

/-! ## Migration (R124) -/

/-- Whether the new owner's banks have entries for every continuation and trigger of a page (R124), beside what they have reserved already. -/
def State.canReserve (s : State) (o q page : Nat) : Bool :=
  (List.range 4).all fun i =>
    let mine := (s.bank (o * 4 + i)).ofPage page
    let new := s.bank (q * 4 + i)
    let kept := s.reservedAt (q * 4 + i)
    decide (new.conts.length + kept.1 + mine.1.length ≤ 2048) && decide (new.trigs.length + kept.2 + mine.2.length ≤ 32)

/-- The access of a wait that has passed to another owner's bank. -/
def State.waitMoved (s : State) (q : Nat) (c : Cont) : State :=
  match c.who with
  | .wait core id _ _ => s.onAcc core id fun a => { a with owner := q }
  | .deferral .. => s

/-- The continuations, triggers and shadow entries of a page pass to the new owner's banks, in their order: the copy that R124 asks for. -/
def State.movePageState (s : State) (o q page : Nat) : State :=
  (List.range 4).foldl (fun s i =>
    let mine := (s.bank (o * 4 + i)).ofPage page
    let shadow := (s.bank (o * 4 + i)).shadow.filter fun e => e.word / 8192 == page
    let s1 := s.onBank (o * 4 + i) fun b =>
      { b with
        conts := b.conts.filter fun c => c.word / 8192 != page
        trigs := b.trigs.filter fun t => t.word / 8192 != page
        shadow := b.shadow.filter fun e => e.word / 8192 != page }
    (mine.1.foldl (State.waitMoved · q) s1).onBank (q * 4 + i) fun b =>
      { b with
        conts := b.conts ++ mine.1
        trigs := b.trigs ++ mine.2
        shadow := (b.shadow ++ shadow).drop ((b.shadow ++ shadow).length - 4096) }) s

/-- Whether the hint record lets a page go to an owner by migration (R132, R133). -/
def Hint.mayMigrate (h : Hint) (q : Nat) : Bool := h.policy == 2 && (h.nkeep == 0 || h.kept.contains (ownerPkg q))

/-- Whether a page may go to another owner: by migration, or because its owner is withdrawn, in a range of a fixed home, or in a read-duplicate one
while the page is not duplicated and the list names the package (R132, R133, R386, log 61). -/
def State.mayMove (s : State) (h : Hint) (page o q : Nat) : Bool :=
  h.mayMigrate q ||
    ((s.owner o).gone && (decide (h.policy < 2) || (h.policy == 3 && !h.duplicated page && h.kept.contains (ownerPkg q))))

/-- Whether the pages of a class migrate, duplicate and receive tickets (R129). -/
def pageMoves (page : Nat) : Bool := decide (gaClass (page * 65536) < 2)

/-- Whether an owner can keep a moved entry for every page of a range (R124): those of unfinished migrations are never evicted. -/
def State.movedRoom (s : State) (o page : Nat) : Bool :=
  let ranges := (((s.migrations.filter fun m => m.oldOwner == o).map fun m => rangeOfPage m.page) ++ [rangeOfPage page]).eraseDups
  decide (32 * ranges.length ≤ 1024)

/-- The migrations of a page's range. -/
def State.rangeMigrations (s : State) (page : Nat) : List Migration :=
  s.migrations.filter fun m => rangeOfPage m.page == rangeOfPage page

/-- A page starts to migrate to an owner that has a frame and entries for it: none where it cannot. What it holds stays at the old owner until the
migration ends; the new one has reserved as much (R124). -/
def State.startMigration (s : State) (page o q : Nat) : Option State :=
  let dom := ((s.hintOf page).map (·.domain)).getD 0
  if o = q ∨ ownerIsBank o ≠ ownerIsBank q ∨ !s.ownerLive q ∨ !s.canReserve o q page then none
  else
    (s.freeFrame q).bind fun f => (s.bindKey q dom).map fun s =>
      let s1 := s.onOwner q fun w =>
        { w with
          homes := w.homes.put page { fstate := .migrating, frame := f, keyslot := s.keyAt q dom }
          moved := w.moved.filter (· != page) }
      { s1.onHome o page fun e => { e with prior := e.fstate, fstate := .migrating } with migrations := s1.migrations ++ [⟨page, o, q⟩] }

/-- MIGRATION_BEGIN (R124): Old owner starts answering MIGRATING after the new owner reserves triggers and continuations. -/
def evMigrationBegin (page newOwner : Nat) (s : State) : Option State :=
  match s.hintOf page with
  | none => none
  | some h =>
    match h.home with
    | none => none
    | some o =>
      if !pageMoves page || !h.mayMigrate newOwner || !s.movedRoom o page then none
      else if (s.rangeMigrations page).any fun m => m.newOwner != newOwner || m.page == page then none
      else if s.pageAt o page = .held .mapped ∨ s.pageAt o page = .held .parked then s.startMigration page o newOwner
      else none

/-- The meaning of MIGRATION_BEGIN. -/
def execMigrationBegin (page newOwner : Nat) (s : State) : Answer := .next ((evMigrationBegin page newOwner s).getD s)

/-- Whether an owner still holds a page of a range that has to migrate. -/
def State.stillHolds (s : State) (o key : Nat) : Bool :=
  (rangePages key).any fun q =>
    match s.pageAt o q with
    | .held f => f == .mapped || f == .migrating || f == .cow || f == .parked || f == .replica
    | _ => false

/-- A range has left its old home (R124): the record, read again, names the new one with GEN increased, pages that were lost stay so there, and
services for pages that the old home never held go on at the new one (R133). -/
def State.rehome (s : State) (o q key : Nat) : State :=
  match s.hints.find (hintKeyOfPage (key * 32)) with
  | none => s
  | some h =>
    let s1 := { s with
      hints := if h.home = some o then s.hints.put (hintKeyOfPage (key * 32)) (h.withHome q) else s.hints
      migrations := s.migrations.filter fun m => rangeOfPage m.page != key }
    (rangePages key).foldl (fun s p =>
      match (s.owner o).homes.find p with
      | some e => if e.fstate = .lost then (s.dropHome o p).onHome q p fun _ => { fstate := .lost } else s
      | none => s.endService o p q 0) s1

/-- A migration that the record, rewritten meanwhile, no longer permits is given up (R133): the old owner keeps the page as it was, mapped or parked. -/
def State.giveUpMigration (s : State) (m : Migration) : State :=
  let s1 := ((s.endService m.newOwner m.page m.oldOwner 0).dropHome m.newOwner m.page).onHome m.oldOwner m.page fun e => { e with fstate := e.prior }
  { s1.endService m.oldOwner m.page m.oldOwner 0 with migrations := s1.migrations.filter fun x => x.page != m.page }

/-- MIGRATION_END (R124): New owner accepts accesses and the old owner answers MOVED. The record is read again first (R133). -/
def evMigrationEnd (page : Nat) (s : State) : Option State :=
  match s.migrations.find? fun m => m.page == page && decide (s.pageAt m.oldOwner page = .held .migrating) with
  | none => none
  | some m =>
    let o := m.oldOwner
    let q := m.newOwner
    if !(s.hintOf page).any fun h => decide (h.home = some q) || decide (h.home = some o) && s.mayMove h page o q then some (s.giveUpMigration m)
    else
      let left := (s.owner o).homes.get {} page
      let s1 := ((((s.movePageState o q page).markMoved o page q).leaveFrame o left).onHome q page fun e => { e with fstate := .mapped })
      let s2 := (s1.endService o page q 0).endService q page q 0
      some (if s2.stillHolds o (rangeOfPage page) then s2 else s2.rehome o q (rangeOfPage page))

/-- The meaning of MIGRATION_END. -/
def execMigrationEnd (page : Nat) (s : State) : Answer := .next ((evMigrationEnd page s).getD s)

/-! ## Lost pages and frame retirement (R147, R148) -/

/-- Continuations of a page that can be served no more: waits meet the lost page, deferrals are delivered with GONE set. -/
def State.endConts (s : State) (o page : Nat) : State :=
  (List.range 4).foldl (fun s i =>
    let mine := (s.bank (o * 4 + i)).ofPage page
    let s1 := s.onBank (o * 4 + i) fun b =>
      { b with conts := b.conts.filter fun c => c.word / 8192 != page, trigs := b.trigs.filter fun t => t.word / 8192 != page }
    mine.1.foldl (fun s c =>
      match c.who with
      | .wait core id _ _ => s.answer core id .lost
      | .deferral target chan tag from_ inc dom => s.serveDeferral o c.word target chan tag from_ inc dom 0 0 true false) s1) s

/-- A page becomes lost at its owner (R148): it holds no frame any more, and its service ends with status 1. -/
def State.losePage (s : State) (o page : Nat) : State :=
  ((s.onHome o page fun e => { e with fstate := .lost, frame := 0, corrected := [] }).endConts o page).endService o page o 1

/-- Whether a DRAM page holds a word that cannot be read. -/
def State.badPage (s : State) (page : Nat) : Bool := s.gbad.any fun w => w / 8192 == page

/-- FRAME_RETIREMENT (R147): Retires a frame whose corrected-error count reaches 8 by copying its page. The owner first marks the page
migrating, and then, with `copied` false where the copy meets an uncorrectable word, ends the retirement. A copy-on-write page is served first
(R149). -/
def evFrameRetirement (owner page : Nat) (copied : Bool) (s : State) : Option State :=
  match (s.owner owner).homes.find page, s.freeFrame owner with
  | some e, some f =>
    if e.corrected.length < 8 ∨ !s.ownerLive owner then none
    else if e.fstate = .mapped ∨ e.fstate = .replica then
      some (s.onHome owner page fun e => { e with prior := e.fstate, fstate := .migrating })
    else if e.fstate = .migrating ∧ !s.migrations.any (fun m => m.page == page && (m.oldOwner == owner || m.newOwner == owner)) then
      if !copied || s.badPage page then some ((s.losePage owner page).listBadFrame owner e.frame)
      else
        let s1 := s.onHome owner page fun e => { e with fstate := e.prior, frame := f, corrected := [] }
        some ((s1.endService owner page owner 0).listBadFrame owner e.frame)
    else none
  | _, _ => none

/-- The meaning of FRAME_RETIREMENT. -/
def execFrameRetirement (owner page : Nat) (copied : Bool) (s : State) : Answer :=
  .next ((evFrameRetirement owner page copied s).getD s)

/-- An uncorrectable error in the metadata of a commons word (R384): the word is poisoned, and its shadow entries and continuations go
as at page reclaim (R102). What its metadata then holds is left open (log 47). -/
def State.metadataError (s : State) (o w : Nat) : State :=
  let go := fun (s : State) (i : Nat) =>
    let b := o * 4 + i
    let conts := (s.bank b).conts.filter fun c => c.word == w
    let s1 := s.onBank b fun k =>
      { k with conts := k.conts.filter fun c => c.word != w, shadow := k.shadow.filter fun e => e.word != w }
    conts.foldl (fun s c => s.sendGone o c) s1
  let s1 := (List.range 4).foldl go s
  let n := s1.serial
  { s1.setWord w { data := (s1.word w).data, ver := Config.lostVersion n, floor := Config.lostFloor n, hasval := Config.lostHasval n
                   poison := true } with serial := n + 1 }

/-- A soft error that no read finds first (R384): a core-memory word is bad until it is written whole; a copy engine's request ends with
FCODE 0x0B, and the issuer's EPERR records SRCMEM 4. A router that fails stops the fabric of its package (R386), which the pod then finds lost. A hand-over that ends so has no record: its granules go back, and no signal tells of it
(log 104). -/
def State.softError (s : State) (e : SoftError) : State :=
  match e with
  | .router pkg => if (s.pkgs.find pkg).isSome then s.onPkg pkg fun p => { p with fabricStopped := true, lost := p.lost || decide (s.npkg < 2) } else s
  | .coreWord core word =>
    if s.coreExists core && decide (word < 49152) then
      s.onCore core fun k => { k with bad := if k.bad.contains word then k.bad else word :: k.bad }
    else s
  | .copyBuffer eng job =>
    match (s.engine eng).active.find? fun j => j.id == job && decide (j.phase = .running) with
    | none => s
    | some j =>
      let addr := Config.bufferErrorAddr s.serial
      let s0 : State := { s with serial := s.serial + 1 }
      let s1 := match j.parcel with
        | none => s0.onJob eng job (·.fail 0x0B addr)
        | some n =>
          match s0.parcelAt n with
          | some p => ((s0.dropReserved p).endParcel n p).onCore p.giverCore (·.releaseGiven p)
          | none => s0
      if s.jobLives j.core j.slot j.name then s1.onCore j.core fun k => k.recordErr j.slot 4 addr else s1

/-- PATROL_SCRUB (R384): Reads and rewrites every DRAM and commons frame once per 2^36 cycles: what it finds in a word. -/
def evPatrolScrub (owner page offset : Nat) (found : ScrubFinding) (s : State) : Option State :=
  match (s.owner owner).homes.find page with
  | none => none
  | some e =>
    if !e.usesFrame || e.fstate == .lost || decide (offset ≥ 65536) || !s.ownerLive owner then none
    else
      let w := page * 8192 + offset / 8
      match found with
      | .clean => some s
      | .corrected =>
        if ownerIsBank owner then some s
        else some ((s.countOwner owner 0x82 none).onHome owner page fun e =>
          { e with corrected := if e.corrected.contains (w % 8192) then e.corrected else e.corrected ++ [w % 8192] })
      | .metadata => if ownerIsBank owner then some (s.metadataError owner w) else none
      | .uncorrectable =>
        if ownerIsBank owner then some (s.setWord w { s.word w with poison := true })
        else some { s with gbad := if s.gbad.contains w then s.gbad else w :: s.gbad }

/-- The meaning of PATROL_SCRUB. -/
def execPatrolScrub (owner page offset : Nat) (found : ScrubFinding) (s : State) : Answer :=
  .next ((evPatrolScrub owner page offset found s).getD s)

/-! ## Reclaim and parking (R102, R107) -/

/-- The owners that hold a page with a frame or a parked copy. -/
def State.holders (s : State) (page : Nat) : List Nat :=
  (s.owners.filter fun p => match p.2.homes.find page with
    | some e => e.fstate != .moved && e.fstate != .absent
    | none => false).map (·.1)

/-- PAGE_RECLAIM (R102): Empties a reclaimed or unmapped commons page and answers its continuations. -/
def evPageReclaim (page : Nat) (s : State) : Option State :=
  let hs := s.holders page
  let ok := hs.all fun o =>
    match s.pageAt o page with
    | .held f => f == .mapped || f == .replica || f == .parked
    | _ => false
  if hs.isEmpty || !ok || hs.any fun o => (s.owner o).svcs.any (·.page == page) then none
  else some (hs.foldl (fun s o => (if ownerIsBank o then s.emptyPage o page else s).dropHome o page) s)

/-- The meaning of PAGE_RECLAIM. -/
def execPageReclaim (page : Nat) (s : State) : Answer := .next ((evPageReclaim page s).getD s)

/-- PAGE_PARKING (R107): A commons page that is not in use is parked in DRAM by its owner together with its metadata, taking FSTATE
parked. A page is in use while a continuation or trigger of it is held. -/
def evPageParking (owner page : Nat) (s : State) : Option State :=
  let used := (List.range 4).any fun i => let m := (s.bank (owner * 4 + i)).ofPage page; !m.1.isEmpty || !m.2.isEmpty
  if !ownerIsBank owner || s.pageAt owner page ≠ .held .mapped || used || !s.ownerLive owner then none
  else some ((s.leaveFrame owner ((s.owner owner).homes.get {} page)).onHome owner page fun e => { e with fstate := .parked, corrected := [] })

/-- The meaning of PAGE_PARKING. -/
def execPageParking (owner page : Nat) (s : State) : Answer := .next ((evPageParking owner page s).getD s)

/-! ## What the management firmware writes -/

/-- A hint record from its four doublewords (R130), with a generation; none where a reserved field is nonzero or NKEEP exceeds 4. -/
def Hint.ofWords (l : List W64) (gen : BitVec 16) : Option Hint :=
  match l with
  | [d0, d1, d2, d3] =>
    let f := fun (d : W64) (hi lo : Nat) => bits d.toNat hi lo
    if f d0 33 32 ≠ 0 ∨ f d2 41 0 ≠ 0 ∨ d3 ≠ 0 ∨ f d0 36 34 > 4 then none
    else some {
      homepkg := f d0 63 52
      homedie := f d0 51 50
      tier := f d0 49 48
      homeidx := f d0 47 42
      mu := d0.getLsbD 41
      split := d0.getLsbD 40
      policy := f d0 39 37
      nkeep := f d0 36 34
      spmap := d0.setWidth 32
      gen := gen
      keep := #v[f d1 47 36, f d1 35 24, f d1 23 12, f d1 11 0]
      domain := BitVec.ofNat 16 (f d2 63 48)
      orights := BitVec.ofNat 3 (f d2 47 45)
      grights := BitVec.ofNat 3 (f d2 44 42) }
  | _ => none

/-- A page that is lost at an owner which is its home no more is lost at the home that the record now names (R148): it stays so until its range is
unmapped. -/
def State.carryLost (s : State) (h : Hint) (page : Nat) : State :=
  match h.home with
  | none => s
  | some q =>
    if ((s.owner q).homes.find page).any fun e => decide (e.fstate ≠ .absent ∧ e.fstate ≠ .moved) then s
    else
      (s.holders page).foldl (fun s o =>
        if o ≠ q ∧ s.pageAt o page = .held .lost then (s.dropHome o page).onHome q page fun _ => { fstate := .lost } else s) s

/-- The pages of a range take the states that a rewritten record gives them (R146): where a page is duplicated, every replica owner
holds it; where it is not, its home holds it alone. A page that was lost stays lost (R148). -/
def State.settle (s : State) (h : Hint) (page : Nat) : State :=
  let moving := s.migrations.any fun m => m.page == page
  match h.home.bind fun o => ((s.owner o).homes.find page).map fun e => (o, e) with
  | none => s
  | some (home, e) =>
    if moving ∨ !(e.fstate = .mapped ∨ e.fstate = .replica ∨ e.fstate = .cow ∨ e.fstate = .migrating) then s
    else
      let others := if h.duplicated page then h.replicas.filter (· != home) else []
      let drop := (s.holders page).filter fun o => o != home && !others.contains o && decide (s.pageAt o page ≠ .held .lost)
      let s1 := drop.foldl (fun s o => s.dropAt o page home) s
      if h.duplicated page then
        others.foldl (fun s o => if (s.holders page).contains o then s else s.addReplica o page h.domain)
          (s1.onHome home page (·.become FState.shared))
      else s1.onHome home page (·.become FState.single)

/-- A range is unmapped: its pages leave their owners (R102), and its services end without a record to act by. -/
def State.unmapRange (s : State) (key : Nat) : State :=
  let s1 := { s with
    hints := s.hints.del (hintKeyOfPage (key * 32))
    migrations := s.migrations.filter fun m => rangeOfPage m.page != key
    placed := s.placed.filter fun p => rangeOfPage p != key }
  (rangePages key).foldl (fun s page =>
    s.owners.foldl (fun s p =>
      let s1 := s.endService p.1 page p.1 2
      match p.2.homes.find page with
      | none => s1
      | some _ => (if ownerIsBank p.1 then s1.emptyPage p.1 page else s1).dropHome p.1 page) s) s1

/-- Open services for pages that an owner does not hold and is no longer the home of go on at the record's home (R133). -/
def State.forwardServices (s : State) (key : Nat) (home : Option Nat) : State :=
  match home with
  | none => s
  | some q =>
    (rangePages key).foldl (fun s page =>
      s.owners.foldl (fun s p => if p.1 ≠ q ∧ (p.2.homes.find page).isNone then s.endService p.1 page q 0 else s) s) s

/-- Whether a record suits its class (R107, R129, R130): DRAM space has its home in DRAM, the commons in the commons, and the image store, which
neither moves nor duplicates, in near DRAM. -/
def Hint.suits (h : Hint) (cls : Nat) : Bool :=
  h.home.all (fun o => h.tier == tierOf o) &&
    match cls with
    | 0 => h.tier != 2
    | 1 => decide (h.tier ≥ 2)
    | _ => h.tier == 0 && (h.policy == 0 || h.broken)

/-- HINT_RECORD_WRITE (R130): The management firmware writes, rewrites or unmaps a range's hint record, with GEN raised and a shootdown
sent when rights change. No doublewords unmap the range. A record's home is on a channel that exists (R4) and is of the range's class (R107,
R129), and an RDUP record is written only where every replica owner exists and is live (R146). Nothing is written while that firmware is quiesced (R393). -/
def evHintRecordWrite (cls range : Nat) (dwords : List W64) (s0 : State) : Option State :=
  let pkg := s0.dirPackage (s0.rangeSlot range)
  if cls ≥ 3 ∨ range ≥ 2 ^ 33 ∨ (s0.pkg pkg).quiesced 1 then none
  else
    let s := s0.journal pkg 1 jHint [cls, range]
    let key := hintKey cls range
    let old := s.hints.find key
    match dwords with
    | [] => if old.isNone then none else some ((s.unmapRange key).post pkg (.shootdown cls range))
    | _ =>
      match Hint.ofWords dwords (match old with | some o => o.gen + 1 | none => BitVec.ofNat 16 (bits ((dwords[1]?).getD 0).toNat 63 48)) with
      | none => none
      | some h =>
        if !h.suits cls ∨ !h.home.all s.ownerExists ∨ (h.policy = 3 ∧ !h.replicas.all s.ownerLive) then none
        else
          let s1 := { s.forgetRefills cls range with hints := s.hints.put key h }
          let s2 := ((rangePages key).foldl (fun s p => (s.carryLost h p).settle h p) s1).forwardServices key h.home
          let changed := match old with
            | some o => o.domain != h.domain || o.orights != h.orights || o.grights != h.grights
            | none => false
          some (if changed then s2.post pkg (.shootdown cls range) else s2)

/-- The meaning of HINT_RECORD_WRITE. -/
def execHintRecordWrite (cls range : Nat) (dwords : List W64) (s : State) : Answer :=
  .next ((evHintRecordWrite cls range dwords s).getD s)

/-- EXPORT_TABLE_WRITE (R129): The management firmware writes or withdraws an export-table entry for host memory exported over a class 0
connection. The domain is that of an open connection; a changed or withdrawn entry is shot down. -/
def evExportTableWrite (pkg range dom rights : Nat) (present : Bool) (s : State) : Option State :=
  let p := s.pkg pkg
  let d := BitVec.ofNat 16 dom
  if (s.pkgs.find pkg).isNone ∨ range ≥ 2 ^ 33 ∨ rights ≥ 4 ∨ p.quiesced 1 then none
  else if present then
    if !p.conns.any (fun c => c.2.domain == d) then none
    else
      let s1 := ((s.journal pkg 1 jExport [range]).forgetRefills 3 range).onPkg pkg fun p => { p with exports := p.exports.put range ⟨d, BitVec.ofNat 2 rights⟩ }
      some (if (p.exports.find range).isSome then s1.post pkg (.shootdown 3 range) else s1)
  else if (p.exports.find range).isNone then none
  else some (((s.journal pkg 1 jExport [range]).onPkg pkg fun p => { p with exports := p.exports.del range }).post pkg (.shootdown 3 range))

/-- The meaning of EXPORT_TABLE_WRITE. -/
def execExportTableWrite (pkg range dom rights : Nat) (present : Bool) (s : State) : Answer :=
  .next ((evExportTableWrite pkg range dom rights present s).getD s)

/-- A page of the image store is placed, zero, in a frame of the near memory core that its record names, under key slot 0 (R129); none where that
has no frame. -/
def State.placePage (s : State) (page : Nat) : Option State :=
  if s.placed.contains page then some s
  else
    ((s.hintOf page).bind Hint.home).bind fun o =>
      (s.freeFrame o).map fun f => { s.mapFresh o page f 0 .mapped with placed := s.placed ++ [page] }

/-- IMAGE_STORE_WRITE (R108): The management firmware places an image into the image store under key slot 0; not while it is quiesced (R393). -/
def evImageStoreWrite (ga : Nat) (body : List Byte) (s : State) : Option State :=
  let last := ga + (body.length - 1)
  if body.isEmpty ∨ !gaValid last ∨ gaClass ga ≠ 2 ∨ gaClass last ≠ 2 then none
  else
    let pages := (List.range (last / 65536 + 1 - ga / 65536)).map (ga / 65536 + ·)
    let homes := pages.filterMap fun p => (s.hintOf p).bind Hint.home
    if homes.length ≠ pages.length ∨ homes.any fun o => (s.pkg (ownerPkg o)).quiesced 1 then none
    else
      (pages.foldl (fun (r : Option State) p => r.bind (·.placePage p)) (some s)).map fun s1 =>
        (homes.map ownerPkg).eraseDups.foldl (fun s p => s.journal p 1 jImage [ga, body.length]) { s1 with gmem := s1.gmem.writeN ga body }

/-- The meaning of IMAGE_STORE_WRITE. -/
def execImageStoreWrite (ga : Nat) (body : List Byte) (s : State) : Answer := .next ((evImageStoreWrite ga body s).getD s)

end Sys2Proof.Machine
end

