-- ==== Sys2Proof/Machine/Units.lean ====
section
/-! DEFINITION. The checker stage (R382), quarantine (R383), and the withdrawal of matrix units, memory cores and clusters (R386) with their
TOPOLOGY notices (R387). -/

namespace Sys2Proof.Machine

/-! ## Quarantine (R383) -/

/-- The restart that an RST entry of a spawn list stands for. -/
def State.restartOf (s : State) (core : Nat) (e : Spawn) : Restart :=
  { name := e.name, inc := e.inc - 1, core := core, supv := e.supv, rrec := ((s.dirEntry e.name).map (·.rrec)).getD 0, revive := e.revive }

/-- Unstarted spawns of a core go back to the steward, and RST entries to Bellwether. -/
def State.returnSpawns (s : State) (core : Nat) : State :=
  let es := (s.core core).spawns.filter (·.filled)
  es.foldl (fun s e =>
    s.post (corePkg core) (if e.rst then .restart (s.restartOf core e) else .feed { e with tset := 0 } core))
    (s.onCore core fun k => { k with spawns := k.spawns.filter (!·.filled) })

/-- Every actor of a core that an event can end dies with CORE_LOST. -/
def Core.loseActors (k : Core) : Core := k.slots.foldl (fun k p => k.die p.1 rCoreLost 0 0) k

/-- A core stops, its actors die, its spawns go back, and it drops out of every count. -/
def State.withdrawCore (s : State) (core : Nat) : State :=
  (s.onCore core fun k => { k.loseActors with gone := true }).returnSpawns core

/-- Quarantine of a compute core with its notice (SUB 0x01). -/
def State.quarantine (s : State) (core : Nat) : State :=
  (s.withdrawCore core).topologyNotice (corePkg core) (coreDie core) 1 (coreIndex core)

/-! ## Pages of a withdrawn owner (R146, R386) -/

/-- A withdrawn replica owner's package leaves a record's list, with GEN increased (R146). -/
def Hint.without (h : Hint) (pkg : Nat) : Hint :=
  let kept := h.kept.filter (· != pkg)
  { h with nkeep := kept.length, keep := Vector.ofFn fun i => (kept[i.val]?).getD 0, gen := h.gen + 1 }

/-- A replica owner other than the home loses a range: its package leaves the list. -/
def State.dropReplicaOwner (s : State) (o page : Nat) : State :=
  match s.hintOf page with
  | some h =>
    let s1 := if h.kept.contains (ownerPkg o) then { s with hints := s.hints.put (hintKeyOfPage page) (h.without (ownerPkg o)) } else s
    (s1.endService o page (h.home.getD o) 0).dropHome o page
  | none => s.dropHome o page

/-- Whether a page at an owner is a replica whose home is elsewhere. -/
def State.farReplica (s : State) (o page : Nat) : Bool :=
  match s.hintOf page with
  | some h => h.policy == 3 && h.home != some o && h.replicas.contains o
  | none => false

/-- A page of a withdrawn memory core is lost (R386); a replica leaves its range. -/
def State.losePages (s : State) (o : Nat) : State :=
  (s.owner o).homes.foldl (fun s p =>
    if p.2.fstate = .moved ∨ p.2.fstate = .absent then s
    else
      match s.migrations.find? fun m => m.page == p.1 && m.newOwner == o with
      | some m => s.giveUpMigration m
      | none => if s.farReplica o p.1 then s.dropReplicaOwner o p.1 else s.losePage o p.1) s

/-- The owners that a withdrawn cluster's pages can go to: the others of its die in the order of R132, then those of the other dies, then those of the
other packages. -/
def State.refuges (s : State) (o : Nat) : List Nat :=
  let ring := fun (pkg die : Nat) => (List.range 64).map fun i => pkg * 512 + die * 128 + 64 + i
  let dies := fun (pkg : Nat) => [1, 2, 3].flatMap fun i => ring pkg ((ownerDie o + i) % 4)
  (ownerRing o).drop 1 ++ dies (ownerPkg o) ++
    ((s.pkgs.map (·.1)).filter (· != ownerPkg o)).flatMap fun p => ring p (ownerDie o) ++ dies p

/-- The pages that an owner still holds of a range, and that can be read. -/
def State.readablePages (s : State) (o key : Nat) : List Nat :=
  (rangePages key).filter fun p => match (s.owner o).homes.find p with
    | some e => decide (e.fstate = .mapped ∨ e.fstate = .cow ∨ e.fstate = .replica ∨ e.fstate = .parked)
    | none => false

/-- A range goes to another owner, every page of it; none where some page finds no room there, or may not go (R132, R133). -/
def State.flee (s : State) (o key q : Nat) : Option State :=
  (s.readablePages o key).foldl (fun r p => r.bind fun s =>
    (s.hintOf p).bind fun h => if s.mayMove h p o q then s.startMigration p o q else none) (some s)

/-- A read-duplicate range whose home is withdrawn is duplicated no more: its record marks every page, and the home holds them alone (R146). -/
def State.unduplicate (s : State) (o key : Nat) : State :=
  match s.hints.find (hintKeyOfPage (key * 32)) with
  | some h =>
    if h.policy = 3 ∧ h.home = some o then
      let h1 := { h with split := true, spmap := BitVec.allOnes 32, gen := h.gen + 1 }
      (rangePages key).foldl (fun s p => s.settle h1 p) { s with hints := s.hints.put (hintKeyOfPage (key * 32)) h1 }
    else s
  | none => s

/-- The pages of a range that a withdrawn cluster holds (R386, log 61): they go to the owner that the range already migrates to, else to the first that
has room for them all; those for which there is no place are lost, and a page that is a replica of another home leaves its range. -/
def State.leaveRange (s0 : State) (o key : Nat) : State :=
  let s1 := (s0.readablePages o key).foldl (fun s p => if s.farReplica o p then s.dropReplicaOwner o p else s) s0
  let s2 := s1.unduplicate o key
  let begun := s2.migrations.filter fun m => rangeOfPage m.page == key && m.oldOwner == o
  match begun.findSome? fun m => s2.flee o key m.newOwner with
  | some t => t
  | none =>
    let s3 := begun.foldl State.giveUpMigration s2
    match (s3.refuges o).findSome? fun q => s3.flee o key q with
    | some t => t
    | none => (s3.readablePages o key).foldl (fun s p => s.losePage o p) s3

/-- Each page held in a withdrawn cluster's frames migrates where it can be read and has a place to go, and is lost otherwise (R386,
log 61). A migration toward the cluster is given up. -/
def State.leavePages (s : State) (o : Nat) : State :=
  let s1 := (s.migrations.filter fun m => m.newOwner == o).foldl State.giveUpMigration s
  ((s1.owner o).homes.map fun p => rangeOfPage p.1).eraseDups.foldl (fun s key => s.leaveRange o key) s1

/-! ## The events -/

/-- Withdrawal of a memory core (R386): its actors die, every page of its channel is lost, and the notice has SUB 0x04. -/
def State.withdrawMemoryCore (s : State) (core : Nat) : State :=
  let o := memOwner core
  let s1 := ((s.withdrawCore core).losePages o).onOwner o fun w => { w with gone := true }
  s1.topologyNotice (corePkg core) (coreDie core) 4 (coreOidx core)

/-- A core that fails goes: quarantine, or withdrawal on the same terms (R386). -/
def State.failCore (s : State) (core : Nat) : State := if coreIsMem core then s.withdrawMemoryCore core else s.quarantine core

/-- A core counts a recovery, and fails at the sixteenth within 16,777,216 cycles (R382). -/
def State.noteRecovery (s : State) (core : Nat) : State :=
  let now := s.now core
  let l := now :: (s.core core).recovs.filter fun t => decide (now < t + 16777216)
  let s1 := s.onCore core fun k => { k with recovs := l }
  if l.length ≥ 16 then s1.failCore core else s1

/-- CHECKER_REEXECUTION (R382): Re-executes an instruction after a checker mismatch and commits or ends with CORE_FAULT. -/
def evCheckerReexecution (core ts : Nat) (agrees : Bool) (s : State) : Option State :=
  let t := (s.core core).thread (Fin.ofNat 4 ts)
  if ts ≥ 4 ∨ !s.coreLive core ∨ !t.busy ∨ t.stopping then none
  else if agrees then some ((s.onCore core (·.countOf t.slot 0x07)).noteRecovery core)
  else some ((s.onCore core (·.die t.slot rCoreFault 0 0)).failCore core)

/-- The meaning of CHECKER_REEXECUTION. -/
def execCheckerReexecution (core ts : Nat) (agrees : Bool) (s : State) : Answer := .next ((evCheckerReexecution core ts agrees s).getD s)

/-- CORE_QUARANTINE (R383): Stops a failed core, kills its actors and removes it from every count. -/
def evCoreQuarantine (core : Nat) (s : State) : Option State :=
  if coreIsMem core ∨ !s.coreLive core then none else some (s.quarantine core)

/-- The meaning of CORE_QUARANTINE. -/
def execCoreQuarantine (core : Nat) (s : State) : Answer := .next ((evCoreQuarantine core s).getD s)

/-- Whether a core's matrix unit is to be withdrawn (R386): two failed reruns within 16,777,216 cycles of one another, or its built-in test, in step 3 of
bring-up (R417), finds it so. -/
def State.matrixFails (s : State) (core : Nat) : Bool := decide ((s.pkg (corePkg core)).bringUp = 2) || decide ((s.core core).mxFails.length ≥ 2)

/-- MATRIX_WITHDRAWAL (R386): Withdraws a core's matrix unit and kills its matrix-using actors. -/
def evMatrixWithdrawal (core : Nat) (s : State) : Option State :=
  if coreIsMem core ∨ !s.coreLive core ∨ (s.core core).mxLost ∨ !s.matrixFails core then none
  else
    let s1 := s.onCore core fun k =>
      { k.slots.foldl (fun k p => if p.2.mxdecl then k.die p.1 rCoreLost 0 0 else k) k with mxLost := true }
    some (s1.topologyNotice (corePkg core) (coreDie core) 2 (coreIndex core))

/-- The meaning of MATRIX_WITHDRAWAL. -/
def execMatrixWithdrawal (core : Nat) (s : State) : Answer := .next ((evMatrixWithdrawal core s).getD s)

/-- MEMORY_CORE_WITHDRAWAL (R386): Withdraws a memory core and loses every page of its channel. -/
def evMemoryCoreWithdrawal (core : Nat) (s : State) : Option State :=
  if !coreIsMem core ∨ !s.coreLive core then none else some (s.withdrawMemoryCore core)

/-- The meaning of MEMORY_CORE_WITHDRAWAL. -/
def execMemoryCoreWithdrawal (core : Nat) (s : State) : Answer := .next ((evMemoryCoreWithdrawal core s).getD s)

/-- CLUSTER_WITHDRAWAL (R386): Withdraws a cluster, quarantining its cores and migrating or losing its pages. It leaves every grant (R390). -/
def evClusterWithdrawal (eng : Nat) (s : State) : Option State :=
  let pkg := engPkg eng
  if (s.pkgs.find pkg).isNone ∨ (s.pkg pkg).lost ∨ (s.pkg pkg).halted ∨ (s.engine eng).gone then none
  else
    let o := bankOwner eng
    let cores := ((clusterCores eng).take 16).filter s.coreLive
    let s1 := cores.foldl State.quarantine s
    let cl := eng % 256
    let granted := ((s.pkg pkg).grants.filter fun g => g.2.clusters.contains cl).map (·.1)
    let s2 := (((s1.onOwner o fun w => { w with gone := true }).onEngine eng fun g => { g with gone := true }).leavePages o).topologyNotice pkg
      (engDie eng) 3 (engCluster eng)
    let s3 := s2.onPkg pkg fun p =>
      { p with lostClusters := p.lostClusters ++ [cl]
               grants := p.grants.mapVals fun _ g => { g with clusters := g.clusters.filter (· != cl) } }
    some (granted.foldl (fun s d => s.grantNotice pkg (engDie eng) (BitVec.ofNat 16 d)) s3)

/-- The meaning of CLUSTER_WITHDRAWAL. -/
def execClusterWithdrawal (eng : Nat) (s : State) : Answer := .next ((evClusterWithdrawal eng s).getD s)

end Sys2Proof.Machine
end

