-- ==== Sys2Proof/Machine/Losses.lean ====
section
/-! DEFINITION. Phiros Link ports (R376, R377), lost packages (R377) and the directory map (R378). -/

namespace Sys2Proof.Machine

/-! ## Ports (R376, R377) -/

/-- A port of a package. -/
def Package.port (p : Package) (i : Nat) : Port := p.ports[i % 16]

/-- Changes a port. -/
def Package.setPort (p : Package) (i : Nat) (q : Port) : Package := { p with ports := p.ports.set (i % 16) q }

/-- A port changes mode, with its TOPOLOGY notice (SUB 0x05). -/
def State.portMode (s : State) (pkg port : Nat) (q : Port) : State :=
  (s.onPkg pkg fun p => p.setPort port q).topologyNotice pkg 0 5 port

/-- A port in another mode, with the lanes that then work, where its own mode and the link-lane throttle allow the change (R376, R402): full once
training completes; erasure when one lane of a full port fails; narrow when a second one does; down from every mode. -/
def Port.into (q : Port) (throttled : Bool) (mode : PortMode) : Option Port :=
  match mode with
  | .full => if q.mode = .full ∨ throttled then none else some { q with mode := .full, lanes := 8, throttled := false, missed := 0 }
  | .erasure => if q.mode = .full then some { q with mode := .erasure, lanes := 7 } else none
  | .narrow =>
    if q.mode = .full ∨ q.mode = .erasure then some { q with mode := .narrow, lanes := Min.min q.lanes 6 }
    else if q.mode = .down ∧ throttled then some { q with mode := .narrow, lanes := 8, throttled := true, missed := 0 }
    else none
  | .down => if q.mode = .down then none else some { q with mode := .down, lanes := Min.min q.lanes 3 }

/-- LINK_MODE_CHANGE (R376): A link port enters full, erasure, narrow or down mode. While the link-lane knob stands at 4, a port that completes
training comes up narrow (R402). -/
def evLinkModeChange (pkg port : Nat) (mode : PortMode) (s : State) : Option State :=
  let p := s.pkg pkg
  if (s.pkgs.find pkg).isNone ∨ port ≥ 16 ∨ !p.hasLinks ∨ !p.runs ∨ p.bringUp < 4 then none
  else ((p.port port).into (decide (p.hub.knobs.headD 8 < 8)) mode).map (s.portMode pkg port)

/-- The meaning of LINK_MODE_CHANGE. -/
def execLinkModeChange (pkg port : Nat) (mode : PortMode) (s : State) : Answer := .next ((evLinkModeChange pkg port mode s).getD s)

/-- LINK_HEARTBEAT (R377): Port heartbeat every 10 microseconds of wall time; 8 misses in a row take the port down. -/
def evLinkHeartbeat (pkg port : Nat) (answered : Bool) (s : State) : Option State :=
  let p := s.pkg pkg
  let q : Port := { p.port port with beat := s.wall }
  if (s.pkgs.find pkg).isNone ∨ port ≥ 16 ∨ !p.hasLinks ∨ !p.runs ∨ q.mode = .down ∨ s.wall < (p.port port).beat + 9400 then none
  else if answered then some (s.onPkg pkg fun p => p.setPort port { q with missed := 0 })
  else if q.missed + 1 ≥ 8 then some (s.portMode pkg port { q with mode := .down, missed := q.missed + 1 })
  else some (s.onPkg pkg fun p => p.setPort port { q with missed := q.missed + 1 })

/-- The meaning of LINK_HEARTBEAT. -/
def execLinkHeartbeat (pkg port : Nat) (answered : Bool) (s : State) : Answer := .next ((evLinkHeartbeat pkg port answered s).getD s)

/-! ## A lost package (R377) -/

/-- Whether the directory places a name on a package. -/
def State.livesOn (s : State) (pkg : Nat) (name : W64) : Bool := ((s.dirEntry name).map fun e => e.pkg == pkg).getD false

/-- A signal with reason CHIP_LOST, made by the package of its receiver (R420). -/
def State.chipLost (s : State) (pkg die kind : Nat) (dst : W64) (inc : BitVec 8) (ref : BitVec 16) (subject : W64) (sinc : BitVec 8)
    (core rrec : Nat) : State :=
  s.signal pkg { dst := dst, inc := inc, kind := kind, reason := rChipLost, sub := 0, ref := ref, subject := subject, origpkg := pkg
                 origdie := die, sinc := sinc, detail := 0, stamp := BitVec.ofNat 64 (s.cycle pkg), core := core, rrec := rrec }

/-- EXIT and DOWN to the actors of one core that are linked to, or monitor, an actor on a lost package; entries held for its watchers go. -/
def State.chipLostLinks (s : State) (lost core : Nat) : State :=
  let es := ((s.core core).links.map (·.2)).filter fun e => s.livesOn lost e.peer
  let s1 := es.foldl (fun s e =>
    let a := s.actor core e.slot
    if e.kind = 3 then s
    else s.chipLost (corePkg core) (coreDie core) (if e.kind = 1 then sExit else sDown) a.name a.incarn e.ref e.peer e.pinc 0 0) s
  s1.onCore core (·.dropLinks fun e => e.kind == 3 && s.livesOn lost e.peer)

/-- The same for the gateway actors of a package. -/
def State.chipLostGw (s : State) (lost pkg : Nat) : State :=
  let es := (s.pkg pkg).gwLinks.filter fun l => s.livesOn lost l.peer
  let s1 := es.foldl (fun s l =>
    if l.kind = 1 then s.chipLost pkg hostDie sExit l.gateway (s.liveInc l.gateway) l.ref l.peer l.pinc 0 0 else s) s
  s1.onPkg pkg fun p => { p with gwLinks := p.gwLinks.filter fun l => !(l.kind == 3 && s.livesOn lost l.peer) }

/-- CHILD_EXIT to the supervisor of each actor there; the restart records are lost with the package. -/
def State.chipLostChildren (s : State) (lost : Nat) : State :=
  let es := (s.dir.map (·.2)).filter fun e => e.pkg == lost && decide (e.state = 1 ∨ e.state = 2) && e.supv != 0 && !s.livesOn lost e.supv
  es.foldl (fun s e =>
    match s.dirEntry e.supv with
    | some v => s.chipLost v.pkg v.die sChildExit e.supv v.inc 0 e.name e.inc e.core e.rrec
    | none => s) s

/-- Directory entries that name the package become free; each of its actors counts as an abnormal exit of its flock. -/
def State.chipLostNames (s : State) (lost : Nat) : State :=
  let es := (s.dir.map (·.2)).filter fun e => e.pkg == lost
  let s1 := { s with rrecs := s.rrecs.filter fun r => !es.any fun e => e.rrec == r.1 && !isGateway e.name
                     flocks := s.flocks.filter fun f => f.2.pkg != lost }
  es.foldl (fun s e => if e.state = 3 then s.nameGone e.name else (s.countExit e.name rChipLost).nameGone e.name) s1

/-- Accesses that carry a tag when their owner lies on another package (R125): commons stores, atomics and CRECL. -/
def AccOp.tagged : AccOp → Bool
  | .storeB | .storeH | .storeW | .storeD | .storeNl | .storeNh | .storeRel | .atom _ | .vadd | .recl | .reclRange => true
  | .load | .loadGe | .loadEq | .loadAcq | .ver | .vload | .dld _ | .dst _ | .defer | .arm | .disarm => false

/-- Tickets and tagged accesses of a core that name an owner on the lost package end their actors (R148); untagged answers still awaited end
INDETERMINATE (R377, log 106). -/
def Core.loseOwners (k : Core) (lost : Nat) : Core :=
  (k.accs.filter fun a => ownerPkg a.owner == lost && decide (a.phase ≠ .waiting ∧ a.phase ≠ .held)).foldl (fun k a =>
    if a.phase = .ticketed ∨ a.op.tagged then k.lostAccess a
    else k.faultAccess a rIndeterminate 0 (BitVec.ofNat 64 (a.tag.getD a.seq))) k

/-- Accesses, messages, copies and waits of the lost package's own cores that are still under way are discarded (R377): its flits are. -/
def State.dropLostCores (s : State) (lost : Nat) : State :=
  { s with
    cores := s.cores.mapVals fun c k => if corePkg c = lost then { k with accs := [], sends := [], refills := [], fifo := [], mq := [] } else k
    engines := s.engines.mapVals fun e g => if engPkg e = lost then { g with active := [] } else g
    banks := s.banks.mapVals fun b k =>
      if ownerPkg (b / 4) = lost then k
      else { k with conts := k.conts.filter fun x => match x.who with
        | .wait core _ _ _ => corePkg core != lost
        | .deferral .. => true } }

/-- Messages of a core that were on their way to the lost package go to the directory again. -/
def Core.resendLost (k : Core) (lost : Nat) : Core :=
  { k with
    dirCache := k.dirCache.filter fun e => e.pkg != lost
    sends := k.sends.map fun e =>
      if corePkg e.core = lost ∧ e.phase ≠ .waiting then { e with phase := .waiting, busySince := none, dest := none, tag := none } else e }

/-- Whether a burst waits for an owner of a package. -/
def Burst.waitsAt (b : Burst) (pkg : Nat) : Bool :=
  !b.host && decide (b.phase = .ticketed ∨ b.phase = .sent) && ownerPkg b.owner == pkg

/-- Jobs of an engine with a burst that waits at an owner on the lost package end their actors (R148, R348). -/
def State.loseBursts (s : State) (lost eng : Nat) : State :=
  ((s.engine eng).active.filter fun j => j.bursts.any fun b => b.waitsAt lost).foldl (fun s j =>
    let ga := ((j.bursts.find? fun b => b.waitsAt lost).map (·.ga)).getD 0
    s.onCore j.core fun k => if (k.actor j.slot).name = j.name then k.die j.slot rFrameLost 0 (lostDetail ga) else k) s

/-- What becomes of a packet when a package is lost: nothing comes from it any more, except that restarts asked of it are refused by the
supervisor's package; a drop for it counts as acknowledged; a parcel that it had accepted asks again. -/
def State.packetLost (s : State) (lost : Nat) (p : Packet) : Option Packet :=
  match p.pay with
  | .restart r => if p.src = lost then (if s.livesOn lost r.supv then none else some { p with src := s.bellwetherOf r }) else some p
  | .drop q _ _ _ => if ownerPkg q = lost ∨ p.src = lost then none else some p
  | .sendAnswer c .. => if corePkg c = lost ∨ p.src = lost then none else some p
  | .parcel q =>
    if corePkg q.giverCore = lost then none
    else if q.phase = .reserved ∧ corePkg q.rcore = lost then some { p with pay := .parcel { q with phase := .asking, copied := false } }
    else some p
  | .notice o t page h st cs => some { p with pay := .notice o t page h st (cs.filter fun e => engPkg e != lost) }
  | _ => if p.src = lost then none else some p

/-- Places and granules that parcels of the lost package had been given at live receivers are given back. -/
def State.returnReserved (s : State) (lost : Nat) : State :=
  s.net.foldl (fun s p =>
    match p.2.pay with
    | .parcel q =>
      if corePkg q.giverCore = lost ∧ q.phase = .reserved ∧ corePkg q.rcore ≠ lost ∧ !isGateway q.dst then
        s.onCore q.rcore fun k =>
          let e := k.region q.rentry
          let k1 := (k.dropRegion q.rentry).scrub e.base e.size
          if k.keepsBox q then k1.unreservePlace q.rslot q.chan else k1
      else s
    | _ => s) s

/-- A lost replica owner's package leaves the list of each record that names it but is not at home there (R146); migrations from or to the
package end. -/
def State.loseRanges (s : State) (lost : Nat) : State :=
  let s1 := { s with hints := s.hints.mapVals fun _ h =>
    if h.policy = 3 ∧ h.homepkg ≠ lost ∧ h.kept.contains lost then h.without lost else h }
  (s1.migrations.filter fun m => ownerPkg m.oldOwner == lost || ownerPkg m.newOwner == lost).foldl (fun s m =>
    if ownerPkg m.newOwner = lost then s.giveUpMigration m
    else { (s.endService m.newOwner m.page m.newOwner 1).dropHome m.newOwner m.page with
      migrations := s.migrations.filter (decide <| · ≠ m) }) s1

/-- The slots of the directory map that have no mirror once a package is lost: those that had none yet, and those whose mirror it held (R378). -/
def State.bareAfter (s : State) (lost : Nat) : List Nat :=
  let n := Max.max 1 s.npkg
  (s.bare ++ (List.range n).filter fun q => s.dirPackage ((q + 1) % n) == lost).eraseDups

/-- Records and entries of a directory slot are lost when neither its directory chip nor a mirror is left (R378). -/
def State.loseSlots (s : State) : State :=
  let n := Max.max 1 s.npkg
  let gone := (List.range n).filter fun q => !s.slotServed q && (n == 1 || s.bare.contains q || !s.slotServed ((q + 1) % n))
  if gone.isEmpty then s
  else
    { s with
      hints := s.hints.filter fun h => !gone.contains (s.rangeSlot (h.1 % 2 ^ 33))
      dir := s.dir.filter fun e => !gone.contains (s.nameSlot e.2.name) }

/-- A package is lost (R377). A frozen package changes nothing (R388). -/
def State.losePackage (s : State) (lost : Nat) : State :=
  let detects := fun (p : Nat) => p != lost && !(s.pkg p).frozen
  let live := (s.cores.map (·.1)).filter fun c => detects (corePkg c)
  let engs := (s.engines.map (·.1)).filter fun e => detects (engPkg e)
  let pkgs := (s.pkgs.map (·.1)).filter detects
  let s1 := { s with bare := s.bareAfter lost }.onPkg lost fun p => { p with lost := true }
  let s2 := live.foldl (fun s c => s.chipLostLinks lost c) s1
  let s3 := (pkgs.foldl (fun s p => s.chipLostGw lost p) s2).chipLostChildren lost
  let s4 := s3.returnReserved lost
  let s5 : State := { s4 with net := s4.net.filterMap fun (p : Nat × Packet) => (s4.packetLost lost p.2).map fun q => (p.1, q) }
  let s6 := ((s5.chipLostNames lost).loseRanges lost).dropLostCores lost
  let s7 := live.foldl (fun s c => s.onCore c fun k => (k.loseOwners lost).resendLost lost) s6
  (engs.foldl (fun s e => s.loseBursts lost e) s7).loseSlots

/-- Whether a package finds another one lost (R377): no port reaches it, its fabric stands (R386), or it has answered no end-to-end heartbeat for
188,000 cycles. -/
def State.findsLost (s : State) (p lost : Nat) : Bool :=
  !s.linked p lost || (s.pkg lost).fabricStopped || decide ((s.pkg p).silent.get 0 lost ≥ 188000)

/-- PACKAGE_LOST (R377): Detecting packages send CHIP_LOST exits, free directory entries and end tickets of a lost package. The other packages of
the pod find it lost together (log 63), unless the fabric firmware of one of them is quiesced (R393). A frozen one takes no part (R388): the others
wait for it, unless they find it lost as well. -/
def evPackageLost (lost : Nat) (s : State) : Option State :=
  let members := s.pkgs.filter fun p => p.1 != lost && !p.2.lost && !p.2.halted
  let others := members.filter fun p => !p.2.frozen && !p.2.fabricStopped
  if (s.pkgs.find lost).isNone ∨ (s.pkg lost).lost ∨ s.npkg < 2 ∨ others.isEmpty then none
  else if others.all fun p => s.findsLost p.1 lost && !p.2.quiesced 3 &&
      members.all (fun q => others.contains q || s.findsLost p.1 q.1) then some (s.losePackage lost)
  else none

/-- The meaning of PACKAGE_LOST. -/
def execPackageLost (lost : Nat) (s : State) : Answer := .next ((evPackageLost lost s).getD s)

/-- The package that holds the mirrors of a slot: that of the first later slot that is not lost. -/
def State.mirrorOf (s : State) (slot : Nat) : Option Nat :=
  ((List.range s.npkg).map fun i => s.dirPackage ((slot + 1 + i) % Max.max 1 s.npkg)).find? fun p => !(s.pkg p).lost

/-- The slots that name a package. -/
def State.slotsOf (s : State) (pkg : Nat) : List Nat := (List.range s.npkg).filter fun q => s.dirPackage q == pkg

/-- The directory map once the slots of a package name the holders of their mirrors (R378 step 1): they have no mirror until step 2. -/
def State.remap (s : State) (lost : Nat) : State :=
  let slots := s.slotsOf lost
  let put := fun (m : SMap Nat) (q : Nat) =>
    match s.mirrorOf q with
    | some p => m.put q p
    | none => m
  { s with dirMap := slots.foldl put s.dirMap, bare := (s.bare ++ slots).eraseDups }

/-- DIRECTORY_MAP_UPDATE (R378): Rewrites directory map slots naming a lost package to the mirror holder, and then, in a second step, remakes the
mirrors. The fabric firmware does neither while it is quiesced (R393); it journals both (R396). -/
def evDirectoryMapUpdate (lost : Nat) (s : State) : Option State :=
  let live := s.pkgs.filter fun p => !p.2.lost
  let noted := fun (t : State) => live.foldl (fun t p => t.journal p.1 3 jFabric [lost]) t
  if live.any fun p => p.2.quiesced 3 || p.2.frozen then none
  else if (s.pkg lost).lost ∧ !(s.slotsOf lost).isEmpty then some (noted (s.remap lost))
  else if s.bare.isEmpty then none
  else some (noted { s with bare := [] })

/-- The meaning of DIRECTORY_MAP_UPDATE. -/
def execDirectoryMapUpdate (lost : Nat) (s : State) : Answer := .next ((evDirectoryMapUpdate lost s).getD s)

end Sys2Proof.Machine
end

