-- ==== Sys2Proof/Machine/HostPort.lean ====
section
/-! DEFINITION. The host port (R380, R381, R421): connections, launches (R21 to R24), messages and parcels from the host, retransmission, and
grant requests (R390). -/

namespace Sys2Proof.Machine

/-! ## Frames from the host (R380) -/

/-- Whether the first-stage loader or some firmware of a package waits in recovery mode (R391). -/
def Package.recovering (p : Package) : Bool := p.loader.recovery || p.fw.any (·.recovery)

/-- Whether the host port answers frames of a class: all of them once bring-up is over (R417), and those of class 0 in recovery mode (R391). -/
def Package.answers (p : Package) (cls : Nat) : Bool := if p.recovering then cls == 0 else p.isReady

/-- The frames that still await an ACK after a cumulative one (R380): those up to the frame it names are acknowledged. -/
def unackedAfter (l : List Frame) (ackn : Nat) : List Frame :=
  if l.any fun f => f.psn == ackn then (l.dropWhile fun f => f.psn != ackn).drop 1 else l

/-- A frame of a class arrives on a connection: the next in PSN order, with VER 1; it counts, and acknowledges what its ACKN names where it carries
an ACK. None where the port discards it, or where it waits: class 0 while the management firmware is quiesced, class 1 while the scheduler firmware
is (R380, R393). -/
def State.frameIn (s : State) (pkg cls : Nat) (hd : FrameHead) (frames : Nat) : Option (Conn × State) :=
  let p := s.pkg pkg
  if (s.pkgs.find pkg).isNone ∨ !p.runs ∨ !p.answers cls ∨ hd.ver ≠ 1 ∨ (cls = 0 ∧ p.quiesced 1) ∨
      (cls = 1 ∧ p.quiesced 2) then none
  else
    (p.conns.find hd.conn).bind fun c =>
      if hd.psn.toNat ≠ c.psnIn then none
      else
        let c1 : Conn := { c with
          psnIn := (c.psnIn + frames) % 2 ^ 32
          unacked := if hd.flags.getLsbD 0 then unackedAfter c.unacked hd.ackn.toNat else c.unacked }
        some (c, s.onPkg pkg fun p => { p with conns := p.conns.put hd.conn c1 })

/-- The gateway actor of a connection. -/
def gatewayName (conn : Nat) : W64 := BitVec.ofNat 64 (gatewayFlock * 2 ^ 48 + conn)

/-! ## Connections (R380, R421) -/

/-- CONNECTION_OPEN (R380): Class 0 frame opening a host connection bound to a domain and gateway, whose directory entry names the host port
(R154). -/
def evConnectionOpen (pkg conn dom : Nat) (s : State) : Option State :=
  let p := s.pkg pkg
  if (s.pkgs.find pkg).isNone ∨ !p.runs ∨ !p.answers 0 ∨ conn ≥ 2 ^ 32 ∨ dom ≥ 2 ^ 16 ∨ (p.conns.find conn).isSome ∨
      p.quiesced 1 ∨ (s.dirEntry (gatewayName conn)).isSome then none
  else
    let e : DirEntry :=
      { name := gatewayName conn, inc := 0, state := 1, pkg := pkg, die := hostDie, kind := 1, cidx := 1023, slot := 0, supv := 0
        rrec := 0 }
    some (((s.journal pkg 1 jConn [conn, dom]).onPkg pkg fun p =>
      { p with conns := p.conns.put conn { domain := BitVec.ofNat 16 dom } }).setDir e)

/-- The meaning of CONNECTION_OPEN. -/
def execConnectionOpen (pkg conn dom : Nat) (s : State) : Answer := .next ((evConnectionOpen pkg conn dom s).getD s)

/-- CONNECTION_CLOSE (R421): Closes a host connection and ends its gateway actor: NORMAL where the host closed it, KILLED where the
management firmware did. -/
def evConnectionClose (pkg conn : Nat) (byHost : Bool) (s : State) : Option State :=
  if ((s.pkg pkg).conns.find conn).isNone ∨ !(s.pkg pkg).runs ∨ (s.pkg pkg).quiesced 1 then none
  else some ((s.closeConn pkg conn (if byHost then rNormal else rKilled)).journal pkg 1 jConn [conn])

/-- The meaning of CONNECTION_CLOSE. -/
def execConnectionClose (pkg conn : Nat) (byHost : Bool) (s : State) : Answer := .next ((evConnectionClose pkg conn byHost s).getD s)

/-! ## Launches (R21 to R24, R381) -/

/-- The flock that a launch header describes (R21). -/
def Flock.ofHeader (d : Nat → Nat) (gateway : W64) (pkg conn : Nat) : Flock :=
  let n := bits (d 0) 53 51
  { prio := bits (d 0) 55 54, nfield := n, place := bits (d 0) 50 48, supvl := bits (d 0) 47 45, succl := bits (d 0) 44 42
    gate := (d 0).testBit 41, domain := BitVec.ofNat 16 (bits (d 0) 31 16), wdog := bits (d 0) 15 0, image := BitVec.ofNat 64 (d 1)
    widths := (List.range n).map fun i => bits (d 2) (35 - 6 * i) (30 - 6 * i), maxlive := bits (d 6) 31 0, supv := BitVec.ofNat 64 (d 4)
    arg := BitVec.ofNat 64 (d 5), init := bits (d 3) 47 0, gateway := gateway, pkg := pkg, conn := conn }

/-- Whether a name is a live supervisor actor of a domain (R22): its image declares child rules (R159). -/
def State.liveSupervisor (s : State) (name : W64) (dom : BitVec 16) : Bool :=
  match s.liveActor name with
  | some (c, i) =>
    ((s.image (s.actor c i).image.toNat (flockOf name)).map fun m => !m.rules.isEmpty).getD false && s.domainOf name == some dom
  | none => false

/-- The code that refuses a launch, or 0 (R22, R381): the lowest of those that apply (log 113). -/
def State.launchCode (s : State) (pkg : Nat) (c : Conn) (d : Nat → Nat) (f : Flock) : Nat :=
  let sum := f.widths.sum
  let beyond := (List.range (6 - f.nfield)).any fun i => bits (d 2) (35 - 6 * (f.nfield + i)) (30 - 6 * (f.nfield + i)) != 0
  if bits (d 0) 63 56 ≠ 1 ∨ bits (d 0) 40 32 ≠ 0 ∨ bits (d 2) 63 36 ≠ 0 ∨ bits (d 3) 63 48 ≠ 0 ∨ bits (d 6) 63 32 ≠ 0 ∨ d 7 ≠ 0 then 1
  else if f.nfield = 0 ∨ f.nfield > 6 ∨ f.place > f.nfield ∨ f.supvl > f.nfield ∨ f.succl > f.nfield ∨ f.widths.contains 0 ∨ beyond ∨ sum > 48 then 2
  else if f.init = 0 ∨ f.init > 2 ^ sum ∨ (sum = 48 ∧ f.init > 2 ^ 48 - 1) then 3
  else if (s.image f.image.toNat 1).isNone then 4
  else if f.domain ≠ c.domain then 5
  else if f.supv ≠ 0 ∧ !s.liveSupervisor f.supv f.domain then 6
  else if f.maxlive ≠ 0 ∧ f.maxlive < f.init then 7
  else if ((s.pkg pkg).liveGrant f.domain).isEmpty then 8
  else 0

/-- An initial actor of a flock: a spawn-list entry with its message (R23). -/
def Flock.initial (f : Flock) (n i : Nat) (ginc : BitVec 8) : Spawn :=
  { id := 0, name := BitVec.ofNat 64 (n * 2 ^ 48 + i), msg := body8 [f.arg, BitVec.ofNat 64 f.init, f.gateway], sender := f.gateway, sinc := ginc
    rst := false, supv := f.supv }

/-- Creates the initial actors of a flock: their names are pending, and the steward places each (R26). -/
def State.createFlock (s : State) (pkg n : Nat) (f : Flock) (mx : Bool) : State :=
  (List.range f.init).foldl (fun s i =>
    let e := f.initial n i (s.liveInc f.gateway)
    let core := (s.stewardCore pkg f e.name mx).getD (pkg * 65536)
    (s.enterPending core e f.image).post pkg (.feed e core)) s

/-- The reply to a launch: a class 1 frame whose ARG holds the code and the flock number (R381). -/
def State.launchReply (s : State) (pkg conn code n : Nat) : State :=
  s.replyOut pkg conn 1 1 (BitVec.ofNat 64 (code + n * 2 ^ 48)) []

/-- LAUNCH (R22): Class 1 launch frame checked, then flock created and answered. The scheduler firmware's choice of a flock number is an
argument; it is one that no actor or entry still holds (R16), or 0 where it has no number or table space free (log 108). -/
def evLaunch (pkg : Nat) (hd : FrameHead) (hdr : List W64) (flock : Nat) (s : State) : Option State :=
  match s.frameIn pkg 1 hd 1 with
  | none => none
  | some (c, s1) =>
    let d := fun (i : Nat) => (hdr.getD i 0).toNat
    let f := Flock.ofHeader d (gatewayName hd.conn) pkg hd.conn
    let code := s1.launchCode pkg c d f
    if hdr.length ≠ 8 then none
    else if code ≠ 0 then some (s1.launchReply pkg hd.conn code 0)
    else if flock = 0 then some (s1.launchReply pkg hd.conn 8 0)
    else if flock ≥ 0xFFFF ∨ s1.flockLive flock > 0 then none
    else
      let mx := ((s1.image f.image.toNat flock).map (·.mxdecl)).getD false
      let s2 : State := { s1 with flocks := s1.flocks.put flock f }
      some (((s2.journal pkg 2 jLaunch [flock]).launchReply pkg hd.conn 0 flock).createFlock pkg flock f mx)

/-- The meaning of LAUNCH. -/
def execLaunch (pkg : Nat) (hd : FrameHead) (hdr : List W64) (flock : Nat) (s : State) : Answer :=
  .next ((evLaunch pkg hd hdr flock s).getD s)

/-! ## Messages and parcels (R380) -/

/-- HOST_MESSAGE (R380): Class 2 frame entering the pod as a SEND from the gateway. ARG holds the channel in bits 1:0, and an incarnation in
bits 15:8 that bit 16 names (log 30). -/
def evHostMessage (pkg : Nat) (hd : FrameHead) (dst arg : W64) (msg : List W64) (s : State) : Option State :=
  (s.frameIn pkg 2 hd 1).map fun q =>
    let name := gatewayName hd.conn
    let inc := q.2.liveInc name
    let m : Msg :=
      { dst := dst, inc := BitVec.ofNat 8 (bits arg.toNat 15 8), named := arg.getLsbD 16, chan := bits arg.toNat 1 0, kind := mSend, sinc := inc
        sender := name, domain := q.1.domain, everyDomain := false, body := body8 msg }
    q.2.post pkg (.message m (.free name inc hostDie) none)

/-- The meaning of HOST_MESSAGE. -/
def execHostMessage (pkg : Nat) (hd : FrameHead) (dst arg : W64) (msg : List W64) (s : State) : Answer :=
  .next ((evHostMessage pkg hd dst arg msg s).getD s)

/-- HOST_PARCEL (R380): Class 3 frames gathered and handed over as a parcel: 8,192 data bytes to a frame. -/
def evHostParcel (pkg : Nat) (hd : FrameHead) (dst arg tag : W64) (body : List Byte) (s : State) : Option State :=
  if body.isEmpty then none
  else
    (s.frameIn pkg 3 hd ((body.length + 8191) / 8192)).map fun q =>
      q.2.sendBody pkg (gatewayName hd.conn) q.1.domain dst (bits arg.toNat 1 0) tag body

/-- The meaning of HOST_PARCEL. -/
def execHostParcel (pkg : Nat) (hd : FrameHead) (dst arg tag : W64) (body : List Byte) (s : State) : Answer :=
  .next ((evHostParcel pkg hd dst arg tag body s).getD s)

/-- HOST_RETRANSMIT (R380): Retransmits an unacknowledged frame after 50 µs of wall time (47,000 units of it): the oldest of a connection. -/
def evHostRetransmit (pkg conn : Nat) (s : State) : Option State :=
  let p := s.pkg pkg
  match p.conns.find conn with
  | none => none
  | some c =>
    match c.unacked with
    | [] => none
    | f :: fs =>
      if f.sentAt + 47000 ≤ s.wall ∧ p.runs then
        some (s.onPkg pkg fun p => { p with conns := p.conns.put conn { c with unacked := { f with sentAt := s.wall } :: fs } })
      else none

/-- The meaning of HOST_RETRANSMIT. -/
def execHostRetransmit (pkg conn : Nat) (s : State) : Answer := .next ((evHostRetransmit pkg conn s).getD s)

/-! ## Grants (R390) -/

/-- Whether a domain still holds something on a cluster of a package: a live actor, a spawn-list entry or a pending restart,
which the directory holds from the actor's death until its restart is placed. -/
def State.holdsOn (s : State) (pkg : Nat) (dom : BitVec 16) (cluster : Nat) : Bool :=
  let mine := fun (name : W64) => s.domainOf name == some dom
  let eng := pkg * 256 + cluster
  (clusterCores eng).any fun c =>
    let k := s.core c
    k.slots.any (fun p => decide (p.2.state ≠ .free) && p.2.domain == dom) || k.spawns.any (fun e => mine e.name) ||
      s.dir.any (fun p => p.2.state == 3 && p.2.core == c && mine p.2.name) ||
      s.net.any fun p => match p.2.pay with
        | .restart r => r.core == c && mine r.name
        | _ => false

/-- The clusters that a grant request names on a die: one, or for 64 the whole die (log 67). -/
def grantUnits (die cluster : Nat) : List Nat := if cluster < 64 then [die * 64 + cluster] else (List.range 64).map (die * 64 + ·)

/-- A grant with clusters of a die added, but for withdrawn ones; or with clusters removed, and the die with them where the request names it
whole. -/
def Grant.changed (g : Grant) (lost : List Nat) (die cluster : Nat) (adds : Bool) : Grant :=
  let us := grantUnits die cluster
  if adds then
    { dies := if g.dies.contains die then g.dies else g.dies ++ [die]
      clusters := g.clusters ++ us.filter fun u => !g.clusters.contains u && !lost.contains u }
  else
    { dies := if cluster < 64 then g.dies else g.dies.filter (· != die), clusters := g.clusters.filter fun u => !us.contains u }

/-- GRANT_REQUEST (R390): Class 0 request changing a domain's grant: a cluster, or a whole die, is added, or removed where the domain holds nothing on
it. -/
def evGrantRequest (pkg : Nat) (hd : FrameHead) (dom die cluster : Nat) (adds : Bool) (s : State) : Option State :=
  match s.frameIn pkg 0 hd 1 with
  | none => none
  | some (c, s1) =>
    let d := BitVec.ofNat 16 dom
    let g := (s1.pkg pkg).grants.get {} dom
    let g1 := g.changed (s1.pkg pkg).lostClusters die cluster adds
    if c.domain ≠ 0 ∨ dom = 0 ∨ dom ≥ 2 ^ 16 ∨ die ≥ 4 ∨ g1 = g then some s1
    else if !adds && (grantUnits die cluster).any (s1.holdsOn pkg d) then some s1
    else
      some (((s1.journal pkg 1 jGrant [dom, die, Min.min cluster 64, if adds then 1 else 0]).onPkg pkg fun p =>
        { p with grants := p.grants.put dom g1 }).grantNotice pkg die d)

/-- The meaning of GRANT_REQUEST. -/
def execGrantRequest (pkg : Nat) (hd : FrameHead) (dom die cluster : Nat) (adds : Bool) (s : State) : Answer :=
  .next ((evGrantRequest pkg hd dom die cluster adds s).getD s)

end Sys2Proof.Machine
end

