-- ==== Sys2Proof/Machine/Firmware.lean ====
section
/-! DEFINITION. Firmware (R389 to R398): boot and recovery (R391, R392), live replacement (R394 to R397); package reset and bring-up (R417),
FREEZE and debug unlock (R388). -/

namespace Sys2Proof.Machine

/-! ## Boot (R391, R392, R417) -/

/-- What the root of trust makes of an image at package reset: it starts from flash where both signatures verify and its SVN reaches the floor,
and waits in recovery mode otherwise. -/
def FwState.boot (f : FwState) : FwState :=
  match f.flash with
  | some x =>
    if x.signed ∧ x.svn ≥ f.floor then { f with running := some x, recovery := false }
    else { f with running := none, recovery := true }
  | none => { f with running := none, recovery := true }

/-- The measurement of an image that has started at boot (R392): 0 is the loader. -/
def Package.bootMeasure (p : Package) (k : Nat) : Package :=
  match (if k = 0 then p.loader else p.fw[(k + 2) % 3]).running with
  | some x => p.extend k 0 k x.schema x.digest
  | none => p

/-- The images are verified, started and measured once the first-stage loader has started (R391, log 109). -/
def Package.bootImages (p : Package) : Package :=
  if p.loader.running.isNone then { p with alert := p.recovering }
  else
    let q := (({ p with fw := p.fw.map FwState.boot }.bootMeasure 1).bootMeasure 2).bootMeasure 3
    { q with alert := q.recovering }

/-- Step 1 of bring-up (R417): the loader first. -/
def Package.verify (p : Package) : Package := ({ p with loader := p.loader.boot }.bootMeasure 0).bootImages

/-- The cap of a number K (R400). -/
def capOf (k : Nat) : Nat := 700 + 140 * k

/-- The cap number in force: the lower of the pin cap and the frame cap (R400). -/
def Package.capNumber (p : Package) : Nat := Min.min p.pinCap p.frameCap

/-- The budgets of the cap in force (R401). -/
def Package.setBudgets (p : Package) : Package :=
  { p with
    dies := p.dies.map fun d => { d with budget := (capOf p.capNumber - 160) / 4 }
    hub := { p.hub with budget := 160 } }

/-- Whether a control-plane image is valid (R406): it has its commit doubleword, and the digest of sections 1 to 4 holds. -/
def ControlImage.valid (i : ControlImage) : Bool := i.commit == 0x43504C494D000001 && i.digest == sha384 i.body

/-- A stopped image: it does not run, and has not been refused. -/
def FwState.stopped (f : FwState) : FwState := { f with running := none, recovery := false }

/-- A package in its reset (R417): flash, the fused floors, the bad-frame list, Cairns in the host window and the level of the pins stay; everything
else has its reset value, and no step of bring-up is done. Its ports are down until they train, and it stays lost to a pod that has lost it. -/
def Package.boot (p : Package) : Package :=
  { Package.reset with
    form := p.form, farch := p.farch, silrev := p.silrev, pinCap := p.pinCap, pinLast := p.pinLast, pinAt := p.pinAt, lost := p.lost, bringUp := 0
    loader := p.loader.stopped, fw := p.fw.map FwState.stopped, badFrames := p.badFrames.take 2048, mv := Vector.replicate 5 [], log := []
    keys := [], ports := Vector.replicate 16 { mode := .down, lanes := 0 }
    flashImage := p.flashImage, committed := p.committed.filter fun c => gaClass c.dest == 3 }

/-! ## Package reset (R417) -/

/-- Pages that only owners of a package hold. -/
def State.pagesOnly (s : State) (pkg : Nat) : List Nat :=
  let mine := ((s.owners.filter fun o => ownerPkg o.1 == pkg).flatMap fun o => o.2.homes.map (·.1)).eraseDups
  mine.filter fun page => (s.holders page).all fun o => ownerPkg o == pkg

/-- Everything that stands in a package's cores, engines, banks and DRAM goes. -/
def State.clearPackage (s : State) (pkg : Nat) : State :=
  let pages := s.pagesOnly pkg
  { s with
    cores := s.cores.filter fun c => corePkg c.1 != pkg
    engines := s.engines.filter fun e => engPkg e.1 != pkg
    owners := s.owners.filter fun o => ownerPkg o.1 != pkg
    banks := s.banks.filter fun b => ownerPkg (b.1 / 4) != pkg
    words := s.words.filter fun w => !pages.contains (w.1 / 8192)
    gmem := s.gmem.filter fun c => !pages.contains (c.1 / 65536)
    gbad := s.gbad.filter fun w => !pages.contains (w / 8192)
    placed := s.placed.filter fun p => !pages.contains p }

/-- The pages of ranges at home on a package that had been lost stay lost until their record is rewritten (R378). -/
def State.keepLost (s : State) (pkg : Nat) : State :=
  (s.hints.filter fun h => h.2.homepkg == pkg && h.2.tier != 3).foldl (fun s h =>
    match h.2.home with
    | some o => (rangePages h.1).foldl (fun s page => s.onHome o page fun _ => { fstate := .lost }) s
    | none => s) s

/-- The reset of a package: of a pod of one, the pod as reset leaves it, but for what flash, fuses and the host keep; of a larger pod, the
other packages have found it lost (R377), and the directory map names it no more (R378), which the fabric firmwares journal (R396). -/
def State.resetPackage (s : State) (pkg : Nat) : State :=
  if s.npkg < 2 then
    { State.reset with
      pkgs := [(pkg, (s.pkg pkg).boot)], npkg := s.npkg, gmem := s.gmem.filter fun c => gaClass c.1 == 3, serial := s.serial
      archive := s.archive, wall := s.wall, agenda := s.agenda, delays := s.delays, cur := s.cur }
  else
    let s1 := (if (s.pkg pkg).lost then s else s.losePackage pkg).remap pkg
    let live := s1.pkgs.filter fun p => !p.2.lost && !p.2.frozen
    let s2 := live.foldl (fun t p => t.journal p.1 3 jFabric [pkg]) s1
    ((s2.clearPackage pkg).keepLost pkg).onPkg pkg Package.boot

/-- An input pin is sampled at a level that is not yet taken: `act` follows where the sample of the µs before agreed (R416). None in a µs that has
been sampled already. -/
def State.onPin (s : State) (pkg pin : Nat) (act : State → State) : Option State :=
  let now := s.wall / 940
  match (s.pkg pkg).pins.find pin with
  | some t =>
    if t = now then none
    else if t + 1 = now then some (act (s.onPkg pkg fun p => { p with pins := p.pins.del pin }))
    else some (s.onPkg pkg fun p => { p with pins := p.pins.put pin now })
  | none => some (s.onPkg pkg fun p => { p with pins := p.pins.put pin now })

/-- PACKAGE_RESET (R417): Resets the package on power-on, which a halted package comes back by, or on RESET_N, once two samples agree (R416). -/
def evPackageReset (pkg : Nat) (s : State) : Option State :=
  if (s.pkgs.find pkg).isNone ∨ (s.pkg pkg).bringUp = 0 then none
  else if (s.pkg pkg).halted then some (s.resetPackage pkg)
  else s.onPin pkg 0 (·.resetPackage pkg)

/-- The meaning of PACKAGE_RESET. -/
def execPackageReset (pkg : Nat) (s : State) : Answer := .next ((evPackageReset pkg s).getD s)

/-- RESET_FRAME (R417): Class 0 reset frame causing a package reset, on a domain-0 connection. -/
def evResetFrame (pkg : Nat) (hd : FrameHead) (s : State) : Option State :=
  (s.frameIn pkg 0 hd 1).map fun q => if q.1.domain = 0 then q.2.resetPackage pkg else q.2

/-- The meaning of RESET_FRAME. -/
def execResetFrame (pkg : Nat) (hd : FrameHead) (s : State) : Answer := .next ((evResetFrame pkg hd s).getD s)

/-- Step 2 of bring-up (R417): the management firmware binds key slot 0, and the cap in force gives the budgets (R418). -/
def Package.manage (p : Package) (now : Nat) : Package := { p.setBudgets with keys := [(0, 0)], capSince := now }

/-- Step 4 of bring-up (R417): the ports train, and the package is of the pod again. -/
def Package.train (p : Package) (now : Nat) : Package :=
  { p with lost := false, ports := if p.hasLinks then Vector.replicate 16 { beat := now } else p.ports, silent := [] }

/-- The image that a step of bring-up needs (R417), by number; 0 for none. -/
def bringUpImage (p : Package) (step : Nat) : Nat :=
  match step with
  | 2 => 1
  | 4 => if p.hasLinks then 3 else 0
  | 5 => 2
  | _ => 0

/-- The next step of bring-up (R417): none where it waits for an image in recovery mode (R418). Step 6 starts the window of a valid control-plane
image (R407), and step 7 asserts READY. -/
def Package.bringOn (p : Package) (now : Nat) : Option Package :=
  let k := bringUpImage p (p.bringUp + 1)
  if k ≠ 0 ∧ (p.fw[(k + 2) % 3]).running.isNone then none
  else
    let next := { p with bringUp := p.bringUp + 1 }
    match p.bringUp with
    | 0 => some next.verify
    | 1 => some (next.manage now)
    | 2 | 4 => some next
    | 3 => some (next.train now)
    | 5 => some { next with window := if p.flashImage.any ControlImage.valid then some now else none }
    | _ => if p.isReady || p.recovering then none else some { p with isReady := true }

/-- READY (R417): Opens class 0 connections and asserts READY at the end of bring-up; before that, each time, the next step of bring-up is done, the
first of them once RESET_N is released. -/
def evReady (pkg : Nat) (s : State) : Option State :=
  let p := s.pkg pkg
  if (s.pkgs.find pkg).isNone ∨ p.frozen ∨ p.halted ∨ p.fabricStopped ∨ p.away then none
  else (p.bringOn s.wall).map fun q => s.onPkg pkg fun _ => q

/-- The meaning of READY. -/
def execReady (pkg : Nat) (s : State) : Answer := .next ((evReady pkg s).getD s)

/-- Changes a firmware of a package; number 0 is the first-stage loader. -/
def Package.onFw (p : Package) (k : Nat) (f : FwState → FwState) : Package :=
  if k = 0 then { p with loader := f p.loader } else { p with fw := p.fw.set ((k + 2) % 3) (f p.fw[(k + 2) % 3]) }

/-- A firmware of a package, or its first-stage loader. -/
def Package.fwAt (p : Package) (k : Nat) : FwState := if k = 0 then p.loader else p.fw[(k + 2) % 3]

/-- RECOVERY_IMAGE (R391): Accepts a refused image from the host in recovery mode, under the same checks. Once a first-stage loader has been accepted,
the images in flash are verified (log 109). -/
def evRecoveryImage (pkg : Nat) (img : FwImage) (s : State) : Option State :=
  let p := s.pkg pkg
  let f := p.fwAt img.fw
  if img.fw > 3 ∨ !p.runs ∨ (s.pkgs.find pkg).isNone ∨ !f.recovery ∨ !img.signed ∨ img.svn < f.floor ∨ img.svn ≥ 2 ^ 16 ∨ img.schema ≥ 2 ^ 16 then none
  else
    let h := sha384 img.body
    some (s.onPkg pkg fun p =>
      let q := (p.onFw img.fw fun f => { f with running := some { schema := img.schema, svn := img.svn, digest := h }, recovery := false }).extend
        img.fw 5 4 img.schema h
      let r := if img.fw = 0 then q.bootImages else q
      { r with alert := r.recovering })

/-- The meaning of RECOVERY_IMAGE. -/
def execRecoveryImage (pkg : Nat) (img : FwImage) (s : State) : Answer := .next ((evRecoveryImage pkg img s).getD s)

/-! ## FREEZE and debug (R388) -/

/-- FREEZE (R388): Stops every clock of the package while FREEZE is asserted, once two samples agree (R416). -/
def evFreeze (pkg : Nat) (s : State) : Option State :=
  if (s.pkgs.find pkg).isNone ∨ (s.pkg pkg).frozen then none else s.onPin pkg 2 (·.onPkg pkg fun p => { p with frozen := true })

/-- The meaning of FREEZE. -/
def execFreeze (pkg : Nat) (s : State) : Answer := .next ((evFreeze pkg s).getD s)

/-- FREEZE_RELEASE (R388): Restarts the clocks when FREEZE is released, once two samples agree (R416). -/
def evFreezeRelease (pkg : Nat) (s : State) : Option State :=
  if (s.pkg pkg).frozen then s.onPin pkg 3 (·.onPkg pkg fun p => { p with frozen := false }) else none

/-- The meaning of FREEZE_RELEASE. -/
def execFreezeRelease (pkg : Nat) (s : State) : Answer := .next ((evFreezeRelease pkg s).getD s)

/-- DEBUG_UNLOCK (R388): Unlocks the TAP on a signed token before reset completes and extends MV4. -/
def evDebugUnlock (pkg : Nat) (token : List Byte) (signed : Bool) (s : State) : Option State :=
  let p := s.pkg pkg
  if (s.pkgs.find pkg).isNone ∨ p.isReady ∨ p.debug ∨ !signed ∨ !p.runs then none
  else some ((s.journal pkg 1 jDebug []).onPkg pkg fun p => { p.extend 4 4 4 0 (sha384 token) with debug := true })

/-- The meaning of DEBUG_UNLOCK. -/
def execDebugUnlock (pkg : Nat) (token : List Byte) (signed : Bool) (s : State) : Answer := .next ((evDebugUnlock pkg token signed s).getD s)

/-! ## Live replacement (R394 to R397) -/

/-- REPLACEMENT_REQUEST (R394): Stages and verifies a new firmware image. Only domain 0 asks; one replacement at a time; none while the log is
full (R392). -/
def evReplacementRequest (pkg dom : Nat) (img : FwImage) (s : State) : Option State :=
  let p := s.pkg pkg
  if dom ≠ 0 ∨ img.fw < 1 ∨ img.fw > 3 ∨ !p.runs ∨ !p.answers 0 ∨ p.repl.isSome ∨ p.log.length ≥ 4096 ∨ img.body.length > 2 ^ 26 ∨ !img.signed ∨
      img.svn ≥ 2 ^ 16 ∨ img.schema ≥ 2 ^ 16 then none
  else
    let f := p.fw[(img.fw + 2) % 3]'(Nat.mod_lt _ (by decide))
    match f.running with
    | none => none
    | some old =>
      if img.svn < f.floor ∨ (img.schema ≠ old.schema ∧ img.schema ≠ old.schema + 1) then none
      else
        let new : FwSlot := { schema := img.schema, svn := img.svn, digest := sha384 img.body }
        some (s.onPkg pkg fun p => { p with repl := some { fw := img.fw, new := new, old := old } })

/-- The meaning of REPLACEMENT_REQUEST. -/
def execReplacementRequest (pkg dom : Nat) (img : FwImage) (s : State) : Answer :=
  .next ((evReplacementRequest pkg dom img s).getD s)

/-- Whether an image holds no operation half done (R393): the management firmware's shootdowns have been acknowledged, and the fabric firmware has
rewritten the directory map. -/
def State.atQuiesce (s : State) (pkg fw : Nat) : Bool :=
  match fw with
  | 1 => !s.net.any fun p => match p.2.pay with
    | .shootdown .. => p.2.src == pkg
    | _ => false
  | 3 => !s.pkgs.any fun p => p.2.lost && !(s.slotsOf p.1).isEmpty
  | _ => true

/-- The bound of the window in which an image is quiesced, in units of the wall clock (R393). -/
def quiesceBound (fw : Nat) : Nat :=
  match fw with
  | 1 => 940000
  | 2 => 1880000
  | _ => 37600

/-- REPLACEMENT_ACTIVATE (R394): At the quiesce point exports the blob; then, within the bound of the window (R393, log 110), starts the new image, which
imports it, and extends its measurement. -/
def evReplacementActivate (pkg : Nat) (s : State) : Option State :=
  let p := s.pkg pkg
  match p.repl with
  | none => none
  | some r =>
    if !p.runs then none
    else
      match r.phase with
      | .staged =>
        if !s.atQuiesce pkg r.fw then none
        else
          let blob : Blob :=
            { schema := r.old.schema, length := Config.blobLength r.old.digest p.cycle, digest := Config.blobDigest r.old.digest p.cycle }
          some (s.onPkg pkg fun p =>
            { p with repl := some { r with phase := .quiesced, since := s.wall, blob := some blob, grants := p.grants } })
      | .quiesced =>
        if s.wall > r.since + quiesceBound r.fw then none
        else
          let s1 := s.onPkg pkg fun p =>
            let q := (p.onFw r.fw fun f => { f with running := some r.new }).extend r.fw 1 r.fw r.new.schema r.new.digest
            { q with repl := some { r with phase := .probation, since := s.wall, wrote := s.wall } }
          some (s1.measureNotice pkg r.fw 1 r.new.schema 0)
      | .probation | .committing => none

/-- The meaning of REPLACEMENT_ACTIVATE. -/
def execReplacementActivate (pkg : Nat) (s : State) : Answer := .next ((evReplacementActivate pkg s).getD s)

/-- The hub watchdog (R396): 10 ms of the wall clock. -/
def hubWatchdog : Nat := 9400000

/-- Whether the hub watchdog has expired. -/
def Replacement.expired (r : Replacement) (now : Nat) : Bool := decide (now ≥ r.wrote + hubWatchdog)

/-- HUB_WATCHDOG_WRITE (R396): New image writes the hub watchdog during probation, before it expires. -/
def evHubWatchdogWrite (pkg : Nat) (s : State) : Option State :=
  let p := s.pkg pkg
  match p.repl with
  | none => none
  | some r =>
    if r.phase ≠ .probation ∨ !p.runs ∨ r.expired s.wall then none
    else some (s.onPkg pkg fun p => { p with repl := some { r with wrote := s.wall } })

/-- The meaning of HUB_WATCHDOG_WRITE. -/
def execHubWatchdogWrite (pkg : Nat) (s : State) : Answer := .next ((evHubWatchdogWrite pkg s).getD s)

/-- The journal entries whose KIND the old image defines: it replays them in order (R396). -/
def Replacement.replayed (r : Replacement) : List JournalEntry := r.journal.filter fun k => decide (k.schema ≤ r.old.schema)

/-- Journal entries whose KIND the old image does not define. -/
def Replacement.skipped (r : Replacement) : Nat := r.journal.countP fun k => decide (k.schema > r.old.schema)

/-- What replaying a journal entry makes of the grants. -/
def replayGrant (lost : List Nat) (gs : SMap Grant) (k : JournalEntry) : SMap Grant :=
  match k.ops with
  | [dom, die, cluster, adds] => if k.kind = jGrant then gs.put dom ((gs.get {} dom).changed lost die cluster (adds == 1)) else gs
  | _ => gs

/-- The grants that the old management image holds again (R390, R394, R396): those of its blob, with the journal replayed; the grants are the one part
of a firmware's own record that the model keeps (log 98). -/
def Package.revertedGrants (p : Package) (r : Replacement) : SMap Grant :=
  if r.fw ≠ 1 then p.grants
  else (r.replayed.foldl (replayGrant p.lostClusters) r.grants).mapVals fun _ g =>
    { g with clusters := g.clusters.filter fun c => !p.lostClusters.contains c }

/-- The notice of each grant that a revert has changed (R390): by domain, and by the dies where its clusters differ. -/
def State.grantsBack (s : State) (pkg : Nat) (was : SMap Grant) : State :=
  let now := (s.pkg pkg).grants
  let doms := (was.map (·.1) ++ now.map (·.1)).eraseDups
  doms.foldl (fun s d =>
    let on := fun (g : SMap Grant) (die : Nat) => ((g.get {} d).dies.contains die, (g.get {} d).clusters.filter fun c => c / 64 == die)
    (List.range 4).foldl (fun s die => if on was die = on now die then s else s.grantNotice pkg die (BitVec.ofNat 16 d)) s) s

/-- REVERT (R396): Restarts the old image and replays the journal on watchdog expiry or request; a new image that refuses the blob is reverted too
(R394). -/
def evRevert (pkg : Nat) (s : State) : Option State :=
  let p := s.pkg pkg
  match p.repl with
  | none => none
  | some r =>
    if (r.phase ≠ .probation ∧ r.phase ≠ .quiesced) ∨ !p.runs then none
    else
      let s1 := s.onPkg pkg fun p =>
        { (p.onFw r.fw fun f => { f with running := some r.old }).extend r.fw 2 r.fw r.old.schema r.old.digest with
          repl := none, grants := p.revertedGrants r }
      some ((s1.measureNotice pkg r.fw 2 r.old.schema r.skipped).grantsBack pkg p.grants)

/-- The meaning of REVERT. -/
def execRevert (pkg : Nat) (s : State) : Answer := .next ((evRevert pkg s).getD s)

/-- The probation (R394): 2 s of the wall clock. -/
def probation : Nat := 1880000000

/-- A committed image raises the SVN floor to its own SVN where it asks for that, and MV4 takes the change (R392, R397, log 65). -/
def Package.raiseFloor (p : Package) (k : Nat) (x : FwSlot) : Package :=
  if decide ((p.fw[(k + 2) % 3]).floor < x.svn) && Config.floorAsked x.digest then
    (p.onFw k fun f => { f with floor := x.svn }).extend 4 (Config.floorEvent % 16) 4 0 (Config.floorDigest x.digest)
  else p

/-- REPLACEMENT_COMMIT (R397): After probation begins to write the new image over the flash image, of which nothing is left meanwhile; then, read back
and verified, logs the commit and raises the SVN floor. -/
def evReplacementCommit (pkg : Nat) (s : State) : Option State :=
  let p := s.pkg pkg
  match p.repl with
  | none => none
  | some r =>
    if !p.runs then none
    else
      match r.phase with
      | .probation =>
        if s.wall < r.since + probation ∨ r.expired s.wall then none
        else
          some (s.onPkg pkg fun p =>
            { (p.onFw r.fw fun f => { f with flash := none }) with repl := some { r with phase := .committing } })
      | .committing =>
        let s1 := s.onPkg pkg fun p =>
          let e : LogEntry := { fw := r.fw, event := 3, mv := r.fw, schema := r.new.schema, cycle := p.cycle, digest := r.new.digest }
          { (p.onFw r.fw fun f => { f with flash := some r.new }) with
            log := if p.log.length < 4096 then p.log ++ [e] else p.log
            repl := none }
        some ((s1.measureNotice pkg r.fw 3 r.new.schema 0).onPkg pkg (·.raiseFloor r.fw r.new))
      | .staged | .quiesced => none

/-- The meaning of REPLACEMENT_COMMIT. -/
def execReplacementCommit (pkg : Nat) (s : State) : Answer := .next ((evReplacementCommit pkg s).getD s)

end Sys2Proof.Machine
end

