-- ==== Sys2Proof/Machine/Power.lean ====
section
/-! DEFINITION. The power-fail trap and the control-plane image (R405, R406), power samples and throttles (R205, R206, R402, R416), and power
steps (R400, R401, R404). -/

namespace Sys2Proof.Machine

/-! ## The layout of a Cairn (R411) -/

/-- Shards of a Cairn (R409 step 5): one per core and page, and one for the device tables. -/
def Cairn.shards (c : Cairn) : Nat := c.cores.length + c.pages.length + 1

/-- KIND of a shard (R411). -/
def Cairn.kindOf (c : Cairn) (i : Nat) : Nat :=
  if i < c.cores.length then 0
  else match c.pages[i - c.cores.length]? with
    | some p => if gaClass (p.page * 65536) = 1 then 1 else 2
    | none => 3

/-- Bytes of the body of a shard: a 32-bit length. -/
def Cairn.bodyLength (c : Cairn) (i : Nat) : Nat := Config.shardLength c.serial i % 2 ^ 32

/-- The body of a shard (log 43). -/
def Cairn.body (c : Cairn) (i : Nat) : List Byte := (List.range (c.bodyLength i)).map (Config.shardByte c.serial i)

/-- Where a shard lies: the shards follow one another from the destination on, at multiples of 64 bytes (log 43). -/
def Cairn.place (c : Cairn) (i : Nat) : Nat := c.dest + ((List.range i).map fun j => (128 + c.bodyLength j + 63) / 64 * 64).sum

/-- The 128-byte header of a shard or of the manifest (R411): cairn id, step, index, kind, length and digest, in that order (log 43). -/
def shardHeader (id step index kind length digest : Nat) : List Byte :=
  toBytes 4 id ++ toBytes 8 step ++ toBytes 4 index ++ toBytes 4 kind ++ toBytes 4 length ++ toBytes 48 digest ++ List.replicate 56 0

/-- A shard as it lies in memory. -/
def Cairn.shard (c : Cairn) (i : Nat) : List Byte :=
  shardHeader c.id c.step.toNat i (c.kindOf i) (c.bodyLength i) (sha384 (c.body i)).toNat ++ c.body i

/-- Where the manifest lies: behind the shards. -/
def Cairn.manifestAt (c : Cairn) : Nat := c.place c.shards

/-- The 64-byte manifest entry of a shard (R411): index, GA, length and digest. -/
def manifestEntry (index ga length digest : Nat) : List Byte := toBytes 4 index ++ toBytes 8 ga ++ toBytes 4 length ++ toBytes 48 digest

/-- The commit doubleword of a manifest (R411). -/
def cairnCommit : Nat := 0x434149524E000001

/-- The body of the manifest: an entry per shard, then the commit doubleword. -/
def Cairn.manifestBody (c : Cairn) : List Byte :=
  ((List.range c.shards).flatMap fun i => manifestEntry i (c.place i) (c.bodyLength i) (sha384 (c.body i)).toNat) ++ toBytes 8 cairnCommit

/-- The manifest as it lies in memory; its INDEX follows those of the shards (log 43). -/
def Cairn.manifestBytes (c : Cairn) : List Byte :=
  shardHeader c.id c.step.toNat c.shards 15 (64 * c.shards + 8) (sha384 c.manifestBody).toNat ++ c.manifestBody

/-- Bytes of a Cairn from its destination to the end of its manifest. -/
def Cairn.length (c : Cairn) : Nat := c.manifestAt - c.dest + 128 + 64 * c.shards + 8

/-! ## The power-fail trap (R405, R406) -/

/-- A slot as the control-plane image keeps it: a firing cut short, or one that stood pre-empted in a save area, fires again; nothing of a register
of a firing is kept, inherited ones among them (R79, R405, R407). What the spec names no source for stays as it stands (log 114). -/
def Actor.imaged (a : Actor) : Actor :=
  let b := { a with inherit := none, succ := false, popcnt := 0 }
  match a.state with
  | .firing | .preempted => { b with state := .idle, heldFault := none, heldErr := 0, save := 0 }
  | .free | .loading | .idle | .gated | .dying => b

/-- Bytes of the regions of a kind: mailboxes and completion rings go into the image, other contents do not (R406). -/
def Core.bytesOf (k : Core) (keep : RegEntry → Bool) : Memory :=
  k.mem.filter fun c => k.regions.any fun p => p.2.valid && !p.2.tomb && keep p.2 && p.2.covers c.1

/-- The messages that a firing has taken from a channel wait again (R407): as many as the mailbox still holds. -/
def Core.unpop (k : Core) (slot c : Nat) : Core :=
  let a := k.actor slot
  if a.cchan ≠ 3 ∧ c = a.cchan then
    let n := Min.min (a.popped c) (a.crDepth - (a.crCnt + a.crResv))
    k.onActor slot fun a => { a with crHead := (a.crHead + a.crDepth - n) % Max.max 1 a.crDepth, crCnt := a.crCnt + n }
  else
    let d := k.chan slot c
    let n := Min.min (a.popped c) (d.cap - d.cnt)
    if n = 0 then k else k.setChan slot c { d with head := (d.head + d.cap - n) % Max.max 1 d.cap, cnt := d.cnt + n }

/-- A core whose cut firings have their messages back. -/
def Core.unpopAll (k : Core) : Core :=
  (k.slots.filter fun p => decide (p.2.state = .firing ∨ p.2.state = .preempted)).foldl (fun k p => [0, 1, 2, 3].foldl (fun k c => k.unpop p.1 c) k) k

/-- What the image keeps of a core. -/
def State.imageOfCore (s : State) (core : Nat) : CoreSnap :=
  let k := s.core core
  { core := core, slots := k.slots.mapVals fun _ a => a.imaged, regions := k.regions
    mem := k.bytesOf fun e => e.kind == kMailbox || e.kind == kCring
    links := k.links, sups := k.sups, spawns := k.spawns.filter (·.filled)
    accs := k.accs.filter fun a => !a.orphan && a.entry }

/-- Bytes of a slot's mailbox region. -/
def Core.mailboxBytes (k : Core) (slot : Nat) : Nat :=
  ((k.regions.filter fun p => p.2.valid && !p.2.tomb && p.2.owner == slot && p.2.kind == kMailbox).map fun p => p.2.size * 1024).sum

/-- The mailboxes of a package that the image leaves out, as core and slot, in package index order: whole ones that would pass 128 MiB, or that would
end too late (R406, log 44). -/
def State.omittedBoxes (s : State) (pkg : Nat) : List (Nat × Nat) :=
  let now := s.cycle pkg
  let boxes := ((s.cores.map (·.1)).filter fun c => corePkg c == pkg).flatMap fun c =>
    ((s.core c).slots.filter fun p => decide (p.2.state ≠ .free)).map fun p => (c, p.1)
  (boxes.foldl (fun (r : Nat × List (Nat × Nat)) b =>
    let n := (s.core b.1).mailboxBytes b.2
    if r.1 + n > 2 ^ 27 ∨ Config.imageLate now (r.1 + n) then (r.1, r.2 ++ [b]) else (r.1 + n, r.2)) (Config.imageTables now, [])).2

/-- A core whose image leaves some mailboxes out: their channels are empty. -/
def Core.emptyBoxes (k : Core) (slots : List Nat) : Core :=
  slots.foldl (fun k i => [0, 1, 2, 3].foldl (fun k c => k.setChan i c { k.chan i c with head := 0, cnt := 0 }) k) k

/-- The 64-byte header of an image (R406, log 44). -/
def imageHeader (pkg silrev cycle sections : Nat) : List Byte :=
  toBytes 8 pkg ++ toBytes 8 silrev ++ toBytes 8 cycle ++ toBytes 8 sections ++ List.replicate 32 0

/-- The bytes of the mailboxes of a slot. -/
def Core.boxBytes (k : Core) (slot : Nat) : List Byte :=
  (k.regions.filter fun p => p.2.valid && !p.2.tomb && p.2.owner == slot && p.2.kind == kMailbox).flatMap fun p =>
    k.mem.readN (p.2.base * 1024) (p.2.size * 1024)

/-- Sections 1 to 4 of an image in flash (R406): the header, the tables, and the mailboxes that are not left out. -/
def State.imageBody (s : State) (pkg : Nat) (out : List (Nat × Nat)) : List Byte :=
  let now := s.cycle pkg
  let boxes := ((s.cores.map (·.1)).filter fun c => corePkg c == pkg).flatMap fun c =>
    ((s.core c).slots.filter fun p => decide (p.2.state ≠ .free) && !out.contains (c, p.1)).flatMap fun p => (s.core c).boxBytes p.1
  imageHeader pkg (s.pkg pkg).silrev now 5 ++ (List.range (Config.imageTables now)).map (Config.imageByte now) ++ boxes

/-- The control-plane image of a package (R406), with the messages of each mailbox that it leaves out. -/
def State.controlImage (s0 : State) (pkg : Nat) : ControlImage :=
  let s := { s0 with cores := s0.cores.mapVals fun _ k => k.unpopAll }
  let out := s.omittedBoxes pkg
  let slotsOut := fun (c : Nat) => (out.filter (·.1 == c)).map (·.2)
  let t := { s with cores := s.cores.mapVals fun c k => k.emptyBoxes (slotsOut c) }
  { pkg := pkg
    silrev := (s.pkg pkg).silrev
    cycle := s.cycle pkg
    body := s.imageBody pkg out
    digest := sha384 (s.imageBody pkg out)
    dir := (s.dir.map (·.2)).filter fun e => e.pkg == pkg && !isGateway e.name
    flocks := s.flocks.filter fun f => f.2.pkg == pkg
    cores := ((s.cores.map (·.1)).filter fun c => corePkg c == pkg).map t.imageOfCore
    cairns := (s.pkg pkg).committed.map fun c => (c.domain, c.manifestAt)
    omitted := out.map fun b => ((s.actor b.1 b.2).name, ([0, 1, 2, 3].map fun c => ((s.core b.1).chan b.2 c).cnt).sum)
    rrecs := s.rrecs.filter fun r => s.dir.any fun e => e.2.pkg == pkg && e.2.rrec == r.1 }

/-- A performance counter stops (R210). -/
def Pmc.stopped (p : Pmc) : Pmc := { p with en := false }

/-- A core after phase 1: no firing, queue, FIFO or send entry is left. -/
def Core.halted (k : Core) : Core :=
  { k with
    threads := Vector.replicate 4 {}, mq := [], fifo := [], sends := [], pmcs := k.pmcs.map Pmc.stopped }

/-- The power-fail trap of a package (R405): all work stops, the image is written with its commit doubleword, and the package halts. A take in
progress is abandoned. Before step 5 of bring-up is done no image is written, and one that flash holds stays (R418). -/
def State.powerFail (s : State) (pkg : Nat) : State :=
  let img := s.controlImage pkg
  let s1 := { s with
    cores := s.cores.mapVals fun c k => if corePkg c = pkg then k.halted else k
    engines := s.engines.mapVals fun e g => if engPkg e = pkg then { g with active := [], pmcs := g.pmcs.map Pmc.stopped } else g
    owners := s.owners.mapVals fun o w => if ownerPkg o = pkg then { w with pmcs := w.pmcs.map Pmc.stopped } else w
    net := s.net.filter fun p => p.2.src != pkg }
  s1.onPkg pkg fun p => { p with halted := true, flashImage := if 5 ≤ p.bringUp then some img else p.flashImage, cairns := [], repl := none }

/-- POWER_FAIL_TRAP (R405): Stops all work and writes the control-plane image to flash on PWRFAIL or a rail trip. -/
def evPowerFailTrap (pkg : Nat) (s : State) : Option State :=
  if (s.pkgs.find pkg).isNone ∨ !(s.pkg pkg).runs then none else some (s.powerFail pkg)

/-- The meaning of POWER_FAIL_TRAP. -/
def execPowerFailTrap (pkg : Nat) (s : State) : Answer := .next ((evPowerFailTrap pkg s).getD s)

/-! ## Throttles (R206, R402) -/

/-- The first of some knobs above its floor goes down by one level (R402). -/
def lowerKnob : List (Nat × Nat × Nat) → List Nat
  | [] => []
  | (v, floor, step) :: l => if v > floor then (v - step) :: l.map (·.1) else v :: lowerKnob l

/-- The last of some knobs below full goes up by one level, from a list in reverse order. -/
def raiseKnob : List (Nat × Nat × Nat) → List Nat
  | [] => []
  | (v, full, step) :: l => if v < full then (v + step) :: l.map (·.1) else v :: raiseKnob l

/-- Full level, floor and step of the knobs of a compute die, and of the hub (R402). -/
def knobShape (hub : Bool) : List (Nat × Nat × Nat) :=
  if hub then [(8, 4, 4)] else [(8, 1, 1), (8, 1, 1), (4, 1, 1), (4, 1, 1), (4, 1, 1), (4, 1, 1), (4, 1, 1)]

/-- The knobs lowered by one level; the matrix duty has its floor at full while a pre-emption drains a queue of the die (R186, R402). -/
def DieState.lower (d : DieState) (hub drains : Bool) : List Nat :=
  let l := (d.knobs.zip (knobShape hub)).map fun p => (p.1, p.2.2.1, p.2.2.2)
  lowerKnob (match l with
    | (v, floor, step) :: rest => (v, if drains && !hub then 8 else floor, step) :: rest
    | [] => [])

/-- The knobs raised by one level. -/
def DieState.raise (d : DieState) (hub : Bool) : List Nat :=
  (raiseKnob ((d.knobs.zip (knobShape hub)).map fun p => (p.1, p.2.1, p.2.2.2)).reverse).reverse

/-- A die after a sample: its counters (R205), CCEIL (R206) and throttles (R402). -/
def DieState.sample (d : DieState) (hub drains : Bool) (r : Reading) : DieState :=
  let d1 := { d with energy := d.energy + BitVec.ofNat 64 r.energy, power := r.power % 2 ^ 16, temp := BitVec.ofInt 16 r.temp }
  if d1.power > d1.budget then { d1 with cceil := d1.cceil - 1, calm := 0, knobs := d1.lower hub drains }
  else if 10 * d1.power > 9 * d1.budget then { d1 with calm := 0 }
  else if d1.calm + 1 ≥ 10 then { d1 with cceil := Min.min 3 (d1.cceil + 1), calm := 0, knobs := d1.raise hub }
  else { d1 with calm := d1.calm + 1 }

/-- Ports that the link-lane throttle narrows, or widens again, with their notices (R402). -/
def State.throttlePorts (s : State) (pkg : Nat) (narrow : Bool) : State :=
  (List.range 16).foldl (fun s i =>
    let q := (s.pkg pkg).port i
    if narrow ∧ q.mode = .full then s.portMode pkg i { q with mode := .narrow, throttled := true }
    else if !narrow ∧ q.throttled ∧ q.mode = .narrow then s.portMode pkg i { q with mode := .full, throttled := false }
    else s) s

/-- DETAIL of a power-step notice (R404). -/
def stepDetail (k prev : Nat) (frame : Bool) (us : Nat) : W64 :=
  BitVec.ofNat 64 (k * 2 ^ 60 + prev * 2 ^ 56 + (if frame then 2 ^ 55 else 0) + us % 2 ^ 32)

/-- SUB 0x02 at the first sample at or below the new cap (R404). -/
def State.stepReached (s : State) (pkg : Nat) : State :=
  let p := s.pkg pkg
  match p.step with
  | some (k, prev, frame, at_) =>
    if (p.parts.map DieState.power).sum ≤ capOf k then
      (s.onPkg pkg fun p => { p with step := none }).tellAll pkg 0 p.powRegs rPowerStep 2 (stepDetail k prev frame ((s.wall - at_) / 940))
    else s
  | none => s

/-- A sample of every part of a package; `drains` says on which dies a pre-emption drains a matrix queue. -/
def Package.sampled1 (p : Package) (now : Nat) (drains : Nat → Bool) (rs : List Reading) : Package :=
  let r := fun (i : Nat) => rs.getD i ⟨0, 0, 0⟩
  { p with
    dies := p.dies.mapIdx fun i d => d.sample false (drains i) (r i), hub := p.hub.sample true false (r 4), sampled := now / 940 }

/-- Whether a pre-emption drains a matrix queue on a die (R186, R196): a firing that a request covers has commands in it. -/
def State.draining1 (s : State) (pkg die : Nat) : Bool :=
  s.cores.any fun c => corePkg c.1 == pkg && coreDie c.1 == die && c.2.threads.any fun t => t.busy && t.stopping && c.2.mq.any (·.slot == t.slot)

/-- What R401 promises of every sample: from 500 µs of wall time after the acceptance of the cap in force, POWER of the package is at or below it;
with every throttle at its floor and every CCEIL at 0, it is at most 640 W. -/
def Package.keepsPower (p : Package) (now : Nat) (rs : List Reading) : Bool :=
  let total := (rs.map fun r => r.power % 2 ^ 16).sum
  let floor := fun (d : DieState) (hub : Bool) => d.knobs == (knobShape hub).map fun k => k.2.1
  (decide (now < p.capSince + 470000) || decide (total ≤ capOf p.capNumber)) &&
    (!(p.dies.toList.all (fun d => floor d false && d.cceil == 0) && floor p.hub true) || decide (total ≤ 640))

/-- POWER_SAMPLE (R206): Every 1 µs updates POWER, TEMP, ENERGY, CCEIL and throttle knobs per die. A TEMP of 105 °C asserts THERMTRIP_N and takes
the power-fail trap (R416). Readings that break the bounds of R401 do not come. -/
def evPowerSample (pkg : Nat) (readings : List Reading) (s : State) : Option State :=
  let p := s.pkg pkg
  if (s.pkgs.find pkg).isNone ∨ !p.runs ∨ readings.length ≠ 5 ∨ p.bringUp < 2 ∨ s.wall / 940 ≤ p.sampled ∨ !p.keepsPower s.wall readings then none
  else
    let s1 := (s.onPkg pkg (·.sampled1 s.wall (s.draining1 pkg) readings)).stepReached pkg
    let was := p.hub.knobs
    let now := (s1.pkg pkg).hub.knobs
    let s2 := if !p.hasLinks ∨ was = now then s1 else s1.throttlePorts pkg (decide (now.headD 8 < was.headD 8))
    if readings.any fun r => decide (r.temp ≥ 840) then
      some ((s2.onPkg pkg fun p => { p with thermtrip := true }).powerFail pkg)
    else some s2

/-- The meaning of POWER_SAMPLE. -/
def execPowerSample (pkg : Nat) (readings : List Reading) (s : State) : Answer := .next ((evPowerSample pkg readings s).getD s)

/-! ## Power steps (R400, R401, R404) -/

/-- The cap in force may have changed: a step is accepted with its budgets and SUB 0x01 (R400, R401, R404). -/
def State.acceptStep (s : State) (pkg prev : Nat) (frame : Bool) : State :=
  let k := (s.pkg pkg).capNumber
  if k = prev then s
  else
    let s1 := s.onPkg pkg fun p => { p.setBudgets with step := some (k, prev, frame, s.wall), capSince := s.wall }
    s1.tellAll pkg 0 (s1.pkg pkg).powRegs rPowerStep 1 (stepDetail k prev frame 0)

/-- POWER_STEP (R400): Accepts a new pin cap when two samples, 1 µs apart, agree and resets die budgets. The pins are sampled from step 2 of bring-up on
(R418). -/
def evPowerStep (pkg pins : Nat) (s : State) : Option State :=
  let p := s.pkg pkg
  if (s.pkgs.find pkg).isNone ∨ !p.runs ∨ p.bringUp < 2 ∨ pins ≥ 16 ∨ s.wall / 940 = p.pinAt then none
  else
    let s1 := s.onPkg pkg fun p => { p with pinLast := pins, pinAt := s.wall / 940, pinCap := if p.pinLast = pins ∧ p.pinAt + 1 = s.wall / 940 then pins else p.pinCap }
    some (s1.acceptStep pkg p.capNumber false)

/-- The meaning of POWER_STEP. -/
def execPowerStep (pkg pins : Nat) (s : State) : Answer := .next ((evPowerStep pkg pins s).getD s)

/-- POWER_STEP_FRAME (R400): Takes a class 0 power-step frame setting the frame cap; discarded with other ARG bits or on another domain's
connection. -/
def evPowerStepFrame (pkg : Nat) (hd : FrameHead) (arg : W64) (s : State) : Option State :=
  (s.frameIn pkg 0 hd 1).map fun q =>
    if q.1.domain ≠ 0 ∨ arg.toNat ≥ 16 then q.2
    else (q.2.onPkg pkg fun p => { p with frameCap := arg.toNat }).acceptStep pkg (q.2.pkg pkg).capNumber true

/-- The meaning of POWER_STEP_FRAME. -/
def execPowerStepFrame (pkg : Nat) (hd : FrameHead) (arg : W64) (s : State) : Answer := .next ((evPowerStepFrame pkg hd arg s).getD s)

end Sys2Proof.Machine
end

