-- ==== Sys2Proof/Machine/Cairn.lean ====
section
/-! DEFINITION. Cairn (R408 to R413): taking a Cairn of a domain, copy-on-write, restoring one, and the restore or discard of a control-plane
image after a power failure (R407). -/

namespace Sys2Proof.Machine

/-- The Cairn service's name. -/
def cairnService : W64 := 7

/-- The domain that a request to the Cairn service names (R408): its own, or for domain 0 that of m5. -/
def Msg.cairnDomain (m : Msg) : BitVec 16 := if m.domain = 0 then (m.body[5]).setWidth 16 else m.domain

/-- The answer of the Cairn service, on the channel that the request named. -/
def State.cairnReply (s : State) (pkg : Nat) (to_ : W64) (chan : Nat) (words : List W64) : State :=
  let r : Msg :=
    { dst := to_, inc := 0, named := false, chan := chan, kind := mSend, sinc := 0, sender := cairnService, domain := 0, everyDomain := true
      body := body8 words }
  s.post pkg (.message r (.free cairnService 0 hostDie) none)

/-- The channel of a request: m7 bits 1:0. -/
def Msg.cairnChan (m : Msg) : Nat := bits (m.body[7]).toNat 1 0

/-! ## Taking (R409) -/

/-- Whether a Cairn of a domain is being taken. -/
def State.taking (s : State) (dom : BitVec 16) : Bool := s.pkgs.any fun p => p.2.cairns.any fun c => c.domain == dom

/-- The last committed Cairn of a domain on a package. -/
def Package.lastCairn (p : Package) (dom : BitVec 16) : Option Cairn := p.committed.find? fun c => c.domain == dom

/-- The status that refuses a take, or 0 (R408): 2 also where the destination is no such address (log 122). -/
def State.takeStatus (s : State) (pkg : Nat) (m : Msg) : Nat :=
  let dest := (m.body[1]).toNat
  let room := (m.body[2]).toNat
  let clash : Bool := match (s.pkg pkg).lastCairn m.cairnDomain with
    | some c => decide (dest < c.dest + c.length) && decide (c.dest < dest + room)
    | none => false
  if s.taking m.cairnDomain then 1
  else if !gaValid dest ∨ (gaClass dest ≠ 0 ∧ gaClass dest ≠ 3) ∨ dest % 64 ≠ 0 ∨ clash then 2
  else 0

/-- CAIRN_TAKE (R409): Cairn service request that cuts and quiesces the domain's actors. Its answer follows the manifest. While any firmware image is
quiesced the cut waits (R398). -/
def evCairnTake (n : Nat) (s : State) : Option State :=
  (s.request n cairnService 1).bind fun q =>
    let (m, pkg, s1) := q
    let st := s1.takeStatus pkg m
    if st ≠ 0 then some (s1.cairnReply pkg m.sender m.cairnChan [BitVec.ofNat 64 st])
    else if s.pkgs.any fun p => !p.2.lost && p.2.quiescing then none
    else some <|
      let c : Cairn :=
        { domain := m.cairnDomain, id := bits (m.body[4]).toNat 31 0, step := m.body[3], dest := (m.body[1]).toNat, room := (m.body[2]).toNat
          chan := m.cairnChan, asker := m.sender, serial := s1.serial }
      { s1.onPkg pkg fun p => { p with cairns := p.cairns ++ [c] } with serial := s1.serial + 1 }

/-- The meaning of CAIRN_TAKE. -/
def execCairnTake (n : Nat) (s : State) : Answer := .next ((evCairnTake n s).getD s)

/-! ## Quiesce and mark (R409 steps 2 and 3, R410) -/

/-- Whether nothing of a domain's actors on a core is still under way: firings are pre-empted, accesses lodged or ticketed, send entries
answered, copies done. -/
def State.quietCore (s : State) (core : Nat) (dom : BitVec 16) : Bool :=
  let k := s.core core
  let mine := fun (slot : Nat) => decide ((k.actor slot).state ≠ .free) && (k.actor slot).domain == dom
  !(k.slots.any fun p => p.2.domain == dom && decide (p.2.state = .firing ∨ p.2.state = .dying)) &&
    !(k.accs.any fun a => mine a.slot && !a.orphan && decide (a.phase ≠ .lodged ∧ a.phase ≠ .ticketed ∧ a.phase ≠ .held)) &&
    !(k.sends.any fun e => mine e.slot && decide (e.phase ≠ .busy)) &&
    !(k.fifo.any fun r => mine r.slot) && !(k.mq.any fun c => mine c.slot) && !(k.spawns.any fun e => mine e.slot && !e.filled) &&
    !((s.engine (engineOf core)).active.any fun j => j.core == core && mine j.slot)

/-- Whether no parcel or MDRAIN of a domain is on its way unanswered. -/
def State.quietNet (s : State) (dom : BitVec 16) : Bool :=
  !s.net.any fun p => match p.2.pay with
    | .parcel q => q.domain == dom && q.giverEntry.isSome && decide (q.phase ≠ .busy)
    | .drain d => d.domain == dom && !d.busy
    | _ => false

/-- The cores that hold actors or spawns of a domain (log 70). -/
def State.coresOf (s : State) (dom : BitVec 16) : List Nat :=
  (s.cores.filter fun c => (c.2.slots.any fun p => decide (p.2.state ≠ .free) && p.2.domain == dom) ||
    c.2.spawns.any fun e => s.domainOf e.name == some dom).map (·.1)

/-- Whether a region-table entry is of a slot of a domain. -/
def Core.regionOf (k : Core) (dom : BitVec 16) (e : RegEntry) : Bool :=
  e.valid && decide (e.owner < 64) && decide ((k.actor e.owner).state ≠ .free) && (k.actor e.owner).domain == dom

/-- The granules of a domain on a core: its regions, and the save areas of its pre-empted firings. -/
def Core.granulesOf (k : Core) (dom : BitVec 16) : List Nat :=
  ((k.regions.filter fun p => k.regionOf dom p.2 && !p.2.tomb).flatMap fun p => (List.range p.2.size).map (p.2.base + ·)) ++
    (k.slots.filter fun p => p.2.domain == dom && decide (p.2.state = .preempted)).flatMap fun p =>
      [saveBase p.2.save / 1024, saveBase p.2.save / 1024 + 1]

/-- The shard of a core (R410, R412). -/
def State.shardOf (s : State) (core : Nat) (dom : BitVec 16) : CoreSnap :=
  let k := s.core core
  let mine := fun (slot : Nat) => decide ((k.actor slot).state ≠ .free) && (k.actor slot).domain == dom
  let gs := k.granulesOf dom
  { core := core
    slots := k.slots.filter fun p => mine p.1
    regions := k.regions.filter fun p => k.regionOf dom p.2
    mem := k.mem.filter fun c => gs.contains (c.1 / 1024)
    links := k.links.filter fun p => mine p.2.slot
    sups := k.sups.filter fun p => mine p.2.slot
    spawns := k.spawns.filter fun e => s.domainOf e.name == some dom
    accs := k.accs.filter fun a => mine a.slot && !a.orphan
    sends := k.sends.filter fun e => mine e.slot }

/-- Whether a page's range belongs to a domain. -/
def State.pageOf (s : State) (dom : BitVec 16) (page : Nat) : Bool := (s.hintOf page).any fun h => h.domain == dom

/-- The pages of a domain's ranges that an owner holds in a frame that can be written, with that owner (R410). -/
def State.heldPages (s : State) (dom : BitVec 16) : List (Nat × Nat) :=
  s.owners.flatMap fun o => (o.2.homes.filter fun e => decide (e.2.fstate = .mapped ∨ e.2.fstate = .replica) && s.pageOf dom e.1).map fun e => (o.1, e.1)

/-- The pages that a take writes a shard of, each with an owner whose copy it is: those that are held, those that are parked, and those that migrate or
whose frame is being retired, which their owner lets nobody write (R107, R124, R147). -/
def State.shardPages (s : State) (dom : BitVec 16) : List (Nat × Nat) :=
  let still := s.owners.flatMap fun o => (o.2.homes.filter fun e =>
    s.pageOf dom e.1 && (decide (e.2.fstate = .parked) ||
      (decide (e.2.fstate = .migrating) && !s.migrations.any fun m => m.page == e.1 && m.newOwner == o.1))).map fun e => (o.1, e.1)
  (s.heldPages dom ++ still).foldl (fun l p => if l.any fun q => q.2 == p.2 then l else l ++ [p]) []

/-- The shard of a page at an owner (R124, R410). -/
def State.shardOfPage (s : State) (o page : Nat) : PageSnap :=
  let bs := (List.range 4).map fun i => s.bank (o * 4 + i)
  { page := page
    words := s.words.filter fun w => w.1 / 8192 == page
    bytes := s.gmem.filter fun c => c.1 / 65536 == page
    shadow := bs.flatMap fun b => b.shadow.filter fun e => e.word / 8192 == page
    conts := bs.flatMap fun b => (b.ofPage page).1
    trigs := bs.flatMap fun b => (b.ofPage page).2 }

/-- Changes the Cairn of a domain that a package is taking. -/
def Package.onCairn (p : Package) (dom : BitVec 16) (f : Cairn → Cairn) : Package :=
  { p with cairns := p.cairns.map fun c => if c.domain = dom then f c else c }

/-- Everything that a Cairn holds, as it stands now. -/
def State.snapshot (s : State) (c : Cairn) : Cairn :=
  let dom := c.domain
  let dir := (s.dir.map (·.2)).filter fun e => !isGateway e.name && s.domainOf e.name == some dom
  { c with
    cores := (s.coresOf dom).map fun k => s.shardOf k dom
    pages := (s.shardPages dom).map fun p => s.shardOfPage p.1 p.2
    dir := dir
    flocks := s.flocks.filter fun f => f.2.domain == dom
    rrecs := s.rrecs.filter fun r => dir.any fun e => e.rrec == r.1
    phase := .stream }

/-- The marks of a domain (R410): granules, and pages in FSTATE copy-on-write. -/
def State.markDomain (s : State) (dom : BitVec 16) : State :=
  let s1 := (s.coresOf dom).foldl (fun s c => s.onCore c fun k => { k with cow := k.cow ++ k.granulesOf dom }) s
  (s.heldPages dom).foldl (fun s p => s.onHome p.1 p.2 fun e => { e with back := e.fstate, fstate := .cow }) s1

/-- CAIRN_MARK (R409): After quiescing, marks copy-on-write, resumes the domain and starts streaming shards. A destination that is too small
ends the take with status 2. -/
def evCairnMark (pkg dom : Nat) (s : State) : Option State :=
  let d := BitVec.ofNat 16 dom
  match (s.pkg pkg).cairns.find? fun c => c.domain == d && decide (c.phase = .quiesce) with
  | none => none
  | some c =>
    if dom ≥ 2 ^ 16 ∨ !(s.pkg pkg).runs ∨ !(s.coresOf d).all (fun k => s.quietCore k d) ∨ !s.quietNet d then none
    else
      let shot := s.snapshot c
      if shot.length > c.room then
        some ((s.onPkg pkg fun p => { p with cairns := p.cairns.filter fun c => c.domain != d }).cairnReply pkg c.asker c.chan [2])
      else some ((s.markDomain d).onPkg pkg (·.onCairn d fun _ => shot))

/-- The meaning of CAIRN_MARK. -/
def execCairnMark (pkg dom : Nat) (s : State) : Answer := .next ((evCairnMark pkg dom s).getD s)

/-! ## Copy-on-write (R410) -/

/-- COW_GRANULE_COPY (R410): Copies a marked core-memory granule so a waiting write can proceed. -/
def evCowGranuleCopy (core granule : Nat) (s : State) : Option State :=
  if (s.core core).cow.contains granule then some (s.onCore core fun k => { k with cow := k.cow.filter (· != granule) }) else none

/-- The meaning of COW_GRANULE_COPY. -/
def execCowGranuleCopy (core granule : Nat) (s : State) : Answer := .next ((evCowGranuleCopy core granule s).getD s)

/-- A page is copied: its state returns, and the notice is posted. -/
def State.copyPage (s : State) (o page : Nat) : State :=
  (s.onHome o page fun e => { e with fstate := e.back }).endService o page o 0

/-- COW_PAGE_SERVICE (R410): Owner copies a copy-on-write page, restores its state and posts the notice. -/
def evCowPageService (owner page : Nat) (s : State) : Option State :=
  if s.pageAt owner page = .held .cow ∧ s.ownerLive owner then some (s.copyPage owner page) else none

/-- The meaning of COW_PAGE_SERVICE. -/
def execCowPageService (owner page : Nat) (s : State) : Answer := .next ((evCowPageService owner page s).getD s)

/-! ## The manifest (R409 step 6, R411) -/

/-- The granules that the shard of a core holds. -/
def CoreSnap.granules (k : CoreSnap) : List Nat :=
  (k.regions.filter fun p => !p.2.tomb).flatMap (fun p => (List.range p.2.size).map (p.2.base + ·)) ++
    (k.slots.filter fun p => decide (p.2.state = .preempted)).flatMap fun p => [saveBase p.2.save / 1024, saveBase p.2.save / 1024 + 1]

/-- A shard goes out (R409 step 5): what it holds of a core or of a page is copied, and its marks go. -/
def State.streamShard (s : State) (c : Cairn) (i : Nat) : State :=
  let s1 : State := { s with gmem := s.gmem.writeN (c.place i) (c.shard i) }
  match c.cores[i]? with
  | some k => s1.onCore k.core fun q => { q with cow := q.cow.filter fun g => !k.granules.contains g }
  | none =>
    match c.pages[i - c.cores.length]? with
    | some p => s1.owners.foldl (fun s o => if s.pageAt o.1 p.page = .held .cow then s.copyPage o.1 p.page else s) s1
    | none => s1

/-- CAIRN_MANIFEST (R411): Writes the manifest with its commit doubleword after every shard is performed; before that, each time, the next shard goes
out (R409 steps 5 and 6). -/
def evCairnManifest (pkg dom : Nat) (s : State) : Option State :=
  let d := BitVec.ofNat 16 dom
  match (s.pkg pkg).cairns.find? fun c => c.domain == d && decide (c.phase = .stream) with
  | none => none
  | some c =>
    if dom ≥ 2 ^ 16 ∨ !(s.pkg pkg).runs then none
    else if c.sent < c.shards then some ((s.streamShard c c.sent).onPkg pkg (·.onCairn d fun c => { c with sent := c.sent + 1 }))
    else
      let s1 : State := { s with gmem := s.gmem.writeN c.manifestAt c.manifestBytes, archive := s.archive ++ [c] }
      let s2 := s1.onPkg pkg fun p =>
        { p with cairns := p.cairns.filter fun c => c.domain != d, committed := p.committed.filter (fun c => c.domain != d) ++ [c] }
      some (s2.cairnReply pkg c.asker c.chan [0, BitVec.ofNat 64 c.shards, BitVec.ofNat 64 c.length, BitVec.ofNat 64 c.manifestAt])

/-- The meaning of CAIRN_MANIFEST. -/
def execCairnManifest (pkg dom : Nat) (s : State) : Answer := .next ((evCairnManifest pkg dom s).getD s)

/-! ## Restoring (R412) -/

/-! ### Reading a manifest and its shards -/

/-- A manifest entry as it is read: index, GA, length and digest. -/
structure ManifestEntry where
  index : Nat
  ga : Nat
  length : Nat
  digest : Nat
  deriving DecidableEq, Repr

/-- A field of some bytes, from a place on. -/
def headerField (bs : List Byte) (at_ n : Nat) : Nat := ofBytes ((bs.drop at_).take n)

/-- The entry that 64 bytes hold. -/
def ManifestEntry.ofList (bs : List Byte) : ManifestEntry := ⟨headerField bs 0 4, headerField bs 4 8, headerField bs 12 4, headerField bs 16 48⟩

/-- The header and the body that stand at an address, by the length that the header gives. -/
def State.shardAt (s : State) (ga : Nat) : List Byte × List Byte :=
  let h := s.gmem.readN ga 128
  (h, s.gmem.readN (ga + 128) (headerField h 20 4))

/-- The manifest at an address (R411, R412): its header, body and entries; none where there is no manifest or no commit doubleword. -/
def State.manifestAt (s : State) (ga : Nat) : Option (List Byte × List Byte × List ManifestEntry) :=
  let r := s.shardAt ga
  let n := r.2.length / 64
  if !gaValid ga ∨ headerField r.1 16 4 ≠ 15 ∨ r.2.length % 64 ≠ 8 ∨ headerField r.2 (64 * n) 8 ≠ cairnCommit then none
  else some (r.1, r.2, (List.range n).map fun i => ManifestEntry.ofList ((r.2.drop (64 * i)).take 64))

/-- Whether the digest of a shard fails: that of its own header, or that of its manifest entry. -/
def State.shardFails (s : State) (e : ManifestEntry) : Bool :=
  let r := s.shardAt e.ga
  let h := (sha384 r.2).toNat
  headerField r.1 24 48 != h || e.digest != h || r.2.length != e.length

/-- What a restore finds at an address (R408, R412): the Cairn, or the words that refuse it. What the shards hold is known of a Cairn that the pod has
written (log 43). -/
def State.readCairn (s : State) (ga : Nat) (dom : BitVec 16) : Except (List W64) Cairn :=
  match s.manifestAt ga with
  | none => .error [6]
  | some (h, body, es) =>
    let step := headerField h 4 8
    let other := es.filter fun e => headerField (s.shardAt e.ga).1 4 8 != step
    match other with
    | e :: _ => .error [3, BitVec.ofNat 64 e.index, BitVec.ofNat 64 (headerField (s.shardAt e.ga).1 4 8), BitVec.ofNat 64 other.length]
    | [] =>
      if headerField h 24 48 ≠ (sha384 body).toNat then .error [4, BitVec.ofNat 64 (headerField h 12 4)]
      else
        match es.find? s.shardFails with
        | some e => .error [4, BitVec.ofNat 64 e.index]
        | none =>
          match s.archive.find? fun c => c.domain == dom && c.step.toNat == step && c.id == headerField h 0 4 &&
              es.map (fun e => (e.index, e.length, e.digest)) ==
                (List.range c.shards).map fun i => (i, c.bodyLength i, (sha384 (c.body i)).toNat) with
          | some c => .ok c
          | none => .error [6]

/-! ### Placing what they hold -/

/-- Whether a core can take a shard: the same slots, region-table entries, granules and save areas are free, and its spawn list and send pool have room
(log 117). -/
def State.fits (s : State) (core : Nat) (c : CoreSnap) : Bool :=
  let k := s.core core
  s.coreLive core && decide (coreIsMem core = coreIsMem c.core) && c.slots.all (fun p => decide ((k.actor p.1).state = .free)) &&
    c.regions.all (fun p => !(k.regions.get {} p.1).valid && (p.2.tomb || k.runFree p.2.base p.2.size)) &&
    (c.slots.filter fun p => decide (p.2.state = .preempted)).all (fun p =>
      !k.slots.any fun q => decide (q.2.state = .preempted) && q.2.save == p.2.save) &&
    c.links.all (fun p => (k.links.find p.1).isNone) && c.sups.all (fun p => (k.sups.find p.1).isNone) &&
    decide (k.spawns.length + c.spawns.length ≤ 32) && decide (k.sends.length + c.sends.length ≤ 64)

/-- The core for a shard: its own, else one that the steward chooses among the domain's live cores. -/
def State.placeShard (s : State) (dom : BitVec 16) (c : CoreSnap) : Option Nat :=
  if s.fits c.core c then some c.core
  else
    let pkg := corePkg c.core
    (((s.pkg pkg).liveGrant dom).flatMap fun cl => (List.range 16).map fun i => computeKey pkg (cl / 64) (16 * (cl % 64) + i)).find? fun k => s.fits k c

/-- A shard with entry numbers of its core from a given one on. -/
def CoreSnap.renumbered (c : CoreSnap) (n : Nat) : CoreSnap :=
  { c with
    spawns := c.spawns.map fun e => { e with id := e.id + n }
    accs := c.accs.map fun a => { a with id := a.id + n, order := a.order + n, group := if a.group = 0 then 0 else a.group + n }
    sends := c.sends.map fun e => { e with id := e.id + n, order := e.order + n } }

/-- A core with a shard put into it, whose entries are numbered after its own. The words of its granules are written whole, and the restarts of its spawn
list stand behind the core's own (R83, R184). -/
def Core.restored (k : Core) (c0 : CoreSnap) : Core :=
  let c := c0.renumbered k.next
  let putAll := fun {α : Type} (m : SMap α) (l : SMap α) => l.foldl (fun m p => m.put p.1 p.2) m
  let busy := c.sends.map fun e => { e with phase := .waiting, busySince := none, dest := none, tag := none }
  let numbers := c.spawns.map (·.id) ++ c.accs.flatMap (fun a => [a.id, a.order, a.group]) ++ c.sends.flatMap fun e => [e.id, e.order]
  { k with
    slots := putAll k.slots c.slots
    regions := putAll k.regions c.regions
    mem := c.mem.foldl (fun m p => m.write p.1 p.2) k.mem
    bad := k.bad.filter fun w => !c.granules.contains (w / 128)
    links := putAll k.links c.links
    sups := putAll k.sups c.sups
    spawns := k.spawns.filter (·.rst) ++ c.spawns.filter (·.rst) ++ (k.spawns.filter (!·.rst) ++ c.spawns.filter (!·.rst))
    accs := k.accs ++ c.accs
    sends := k.sends ++ busy
    next := Max.max k.next (numbers.foldl Max.max 0 + 1) }

/-- Messages of a shard's send entries are on their way again. -/
def State.resendShard (s : State) (core : Nat) (c : CoreSnap) : State :=
  c.sends.foldl (fun s e => s.post (corePkg core) (.message e.msg (.entry core e.id) none)) s

/-- The tickets of a shard are replayed as if their notices had arrived (R412). -/
def State.replayShard (s : State) (core : Nat) (c : CoreSnap) : State :=
  (c.accs.filter fun a => decide (a.phase = .ticketed)).foldl (fun s a => s.replayTo core a none true) s

/-- A restored directory entry: live actors at the core that their shard went to. -/
def State.restoreName (s : State) (moved : List (Nat × Nat × Nat)) (e : DirEntry) : State :=
  match moved.find? fun p => p.1 == e.core with
  | some p => s.setDir (if p.2.1 = e.core then e else e.at p.2.1 e.slot)
  | none => s.setDir e

/-- A page is restored at its home, in place of what it held there: none where its range has no record, no frame is free, a bank lacks entries for its
continuations and triggers, or the page is lost, which it stays until its range is unmapped (R148, log 117). A wait that it lodges is that of a restored
access. -/
def State.restorePage (s : State) (moved : List (Nat × Nat × Nat)) (p : PageSnap) : Option State :=
  match (s.hintOf p.page).bind fun h => h.home.map fun o => (h, o) with
  | none => none
  | some (h, o) =>
    let held := (s.holders p.page).contains o
    let at_ := if held then some ((s.owner o).homes.get {} p.page).frame else s.freeFrame o
    match (if s.pageAt o p.page = .held .lost then none else at_.bind fun f => (s.bindKey o h.domain).map fun t => (f, t)) with
    | none => none
    | some (f, s0) =>
      let s := if held && ownerIsBank o then s0.emptyPage o p.page else s0
      let state : FState := if h.duplicated p.page then .replica else .mapped
      let s1 := s.mapFresh o p.page f (s.keyAt o h.domain) state
      let s2 := { s1 with
        words := p.words.foldl (fun m w => m.put w.1 w.2) s1.words
        gmem := p.bytes.foldl (fun (m : Memory) c => m.write c.1 c.2) s1.gmem }
      let moveCont := fun (c : Cont) => match c.who with
        | .wait core id ex acq => (moved.find? fun q => q.1 == core).map fun q => { c with who := .wait q.2.1 (id + q.2.2) ex acq }
        | .deferral .. => some c
      (List.range 4).foldl (fun r i => r.bind fun (s : State) =>
        let here := fun (w : Nat) => bankOf o (w * 8) == o * 4 + i
        let conts := (p.conts.filter fun c => here c.word).filterMap moveCont
        let trigs := p.trigs.filter fun t => here t.word
        let shadow := (s.bank (o * 4 + i)).shadow ++ p.shadow.filter fun e => here e.word
        let kept := s.reservedAt (o * 4 + i)
        if (s.bank (o * 4 + i)).conts.length + kept.1 + conts.length > 2048 ∨ (s.bank (o * 4 + i)).trigs.length + kept.2 + trigs.length > 32 then none
        else some (s.onBank (o * 4 + i) fun b =>
          { b with shadow := shadow.drop (shadow.length - 4096), conts := b.conts ++ conts, trigs := b.trigs ++ trigs })) (some s2)

/-- The pages of a Cairn are restored, or none is. -/
def State.restorePages (s : State) (moved : List (Nat × Nat × Nat)) (l : List PageSnap) : Option State :=
  l.foldl (fun r p => r.bind fun s => s.restorePage moved p) (some s)

/-- Whether a domain holds actors other than the one that asks, or its flock numbers are in use (status 5 of R408, log 46). -/
def State.domainBusy (s : State) (asker : W64) (dom : BitVec 16) (flocks : SMap Flock) : Bool :=
  (s.dir.any fun e => !isGateway e.2.name && e.2.name != asker && s.domainOf e.2.name == some dom) || flocks.any fun f => s.flockLive f.1 > 0

/-- Places for some shards, one after the other, each with the first number of its entries there; none where one finds no core. -/
def State.placeShards (s : State) (dom : BitVec 16) (cs : List CoreSnap) : Option (List (Nat × Nat × Nat) × State) :=
  cs.foldl (fun r c =>
    r.bind fun (q : List (Nat × Nat × Nat) × State) =>
      (q.2.placeShard dom c).map fun core => (q.1 ++ [(c.core, core, (q.2.core core).next)], q.2.onCore core (·.restored c))) (some ([], s))

/-- A Cairn is restored (R412): its device tables, its pages, and then its tickets. -/
def State.restoreCairn (s : State) (c : Cairn) : Option State :=
  (s.placeShards c.domain c.cores).bind fun (q : List (Nat × Nat × Nat) × State) =>
    let s1 : State := { q.2 with
      flocks := c.flocks.foldl (fun m f => m.put f.1 f.2) q.2.flocks
      rrecs := c.rrecs.foldl (fun m r => m.put r.1 r.2) q.2.rrecs }
    let s2 := c.dir.foldl (fun s e => s.restoreName q.1 e) s1
    (s2.restorePages q.1 c.pages).map fun s3 =>
      (c.cores.zip q.1).foldl (fun s p =>
        let k := p.1.renumbered p.2.2.2
        (s.replayShard p.2.2.1 k).resendShard p.2.2.1 k) s3

/-- Whether a restore waits at a package: its scheduler firmware, which places actors, or its management firmware, which binds keys, is quiesced
(R393). -/
def Package.restoreWaits (p : Package) : Bool := p.quiesced 1 || p.quiesced 2

/-- CAIRN_RESTORE (R412): Cairn service request restoring a domain from a manifest and its shards. It creates all or nothing. -/
def evCairnRestore (n : Nat) (s : State) : Option State :=
  (s.request n cairnService 2).bind fun q =>
    let (m, pkg, s1) := q
    let answer := fun (s : State) (l : List W64) => s.cairnReply pkg m.sender m.cairnChan l
    if (s1.pkg pkg).restoreWaits then none
    else
      match s1.readCairn (m.body[1]).toNat m.cairnDomain with
      | .error l => some (answer s1 l)
      | .ok c =>
        if s1.domainBusy m.sender c.domain c.flocks then some (answer s1 [5])
        else
          match s1.restoreCairn c with
          | some s2 => some (answer s2 [0])
          | none => some (answer s1 [5])

/-- The meaning of CAIRN_RESTORE. -/
def execCairnRestore (n : Nat) (s : State) : Answer := .next ((evCairnRestore n s).getD s)

/-! ## After a power failure (R407) -/

/-- The part of a core's image that belongs to a domain. -/
def CoreSnap.ofDomain (c : CoreSnap) (dom : BitVec 16) (mine : W64 → Bool) : CoreSnap :=
  let slot := fun (i : Nat) => ((c.slots.find i).map fun a => decide (a.state ≠ .free) && a.domain == dom).getD false
  { c with
    slots := c.slots.filter fun p => slot p.1
    regions := c.regions.filter fun p => p.2.valid && slot p.2.owner
    mem := c.mem.filter fun b => c.regions.any fun p => p.2.valid && slot p.2.owner && p.2.covers b.1
    links := c.links.filter fun p => slot p.2.slot
    sups := c.sups.filter fun p => slot p.2.slot
    spawns := c.spawns.filter fun e => mine e.name
    accs := c.accs.filter fun a => slot a.slot }

/-- The shard of a Cairn for an actor's region with the same name, incarnation, index, BASE and SIZE (R407). -/
def Cairn.regionBytes (c : Cairn) (name : W64) (inc : BitVec 8) (i : Nat) (e : RegEntry) : Option Memory :=
  c.cores.findSome? fun k =>
    match k.regions.find i with
    | some r =>
      let same := (k.slots.find r.owner).any fun a => a.name == name && a.incarn == inc
      if same && r.base == e.base && r.size == e.size then some (k.mem.filter fun b => r.covers b.1) else none
    | none => none

/-- Whether a region's contents come from a Cairn rather than from the image. -/
def RegEntry.fromCairn (e : RegEntry) : Bool := !e.tomb && e.kind != kMailbox && e.kind != kCring

/-- An actor as it comes back from the image: no counted load, write or command, and its timer moved by a difference of cycles, which may be negative
(R407). FEED and QPOP of its rings stay as the image has them (log 114). -/
def Actor.revived (a : Actor) (delta : Int) : Actor :=
  { a with
    cl := 0, cs := 0, mt := 0
    timer := BitVec.ofNat 64 ((if a.timer.getLsbD 63 then 2 ^ 63 else 0) + ((bits a.timer.toNat 62 0 + delta) % 2 ^ 63).toNat) }

/-- Records with STATUS 2 for the copies that an actor's CP still counts (R407). -/
def Core.cutCopies (k : Core) (slot now serial : Nat) : Core :=
  let mask := BitVec.ofNat 64 (15 * 2 ^ 56 + 3 * 2 ^ 32 + 2 ^ 32 - 1)
  (List.range (k.actor slot).cp).foldl (fun k i =>
    (k.putRecord slot now [BitVec.ofNat 64 (2 ^ 63 + 2 * 2 ^ 52) ||| (Config.cutCopyRecord (serial + i) &&& mask), 0, 0, BitVec.ofNat 64 (now % 2 ^ 32)]).onActor
      slot fun a => { a with cp := a.cp - 1 }) k

/-- How many regions of a slot are zeroed, and the bytes that the others take from the Cairn (R407). -/
def CoreSnap.contents (c : CoreSnap) (cairn : Option Cairn) (slot : Nat) (a : Actor) : Nat × Memory :=
  (c.regions.filter fun p => p.2.owner == slot && p.2.fromCairn).foldl (fun (r : Nat × Memory) p =>
    match cairn.bind fun x => x.regionBytes a.name a.incarn p.1 p.2 with
    | some m => (r.1, r.2 ++ m)
    | none => (r.1 + 1, r.2)) (0, [])

/-- An entry of a ticket table as it comes back from the image: a ticket, or held behind one, of an actor that runs no firing (R407). -/
def Access.revived (a : Access) : Access :=
  { a with phase := if a.phase = .held then .held else .ticketed, answer := none, replay := false, tag := none, resent := false, parked := true
           uncounted := true }

/-- One core of a domain comes back from the image: its tickets are replayed as if their notices had arrived (log 69). -/
def State.reviveCore (s : State) (c : CoreSnap) (core : Nat) (delta : Int) (cairn : Option Cairn) (omitted : List (W64 × Nat)) : State :=
  let mems := c.slots.map fun p => c.contents cairn p.1 p.2
  let snap : CoreSnap := { c with slots := c.slots.mapVals (fun _ a => a.revived delta), accs := c.accs.map Access.revived, sends := [] }
  let first := (s.core core).next
  let s1 := s.onCore core fun k =>
    let k1 := (mems.flatMap (·.2)).foldl (fun k b => { k with mem := k.mem.write b.1 b.2 }) (k.restored snap)
    c.slots.foldl (fun k p => k.cutCopies p.1 (s.now core) s.serial) k1
  let s2 := ({ s1 with serial := s1.serial + (c.slots.map fun p => p.2.cp).sum } : State).replayShard core (snap.renumbered first)
  c.slots.foldl (fun s p =>
    s.deviceSignal (corePkg core) (coreDie core) p.2.name p.2.incarn rPowerStep 4
      (BitVec.ofNat 64 ((c.contents cairn p.1 p.2).1 * 2 ^ 32 + (((omitted.find? fun o => o.1 == p.2.name).map (·.2)).getD 0) % 2 ^ 32))) s2

/-- The cores of an image that hold something of a domain, cut down to it. -/
def ControlImage.shards (i : ControlImage) (dom : BitVec 16) : List CoreSnap :=
  let mine := fun (n : W64) => ((i.flocks.find (flockOf n)).map fun f => f.domain == dom).getD false
  (i.cores.map fun c => c.ofDomain dom mine).filter fun c => !c.slots.isEmpty || !c.spawns.isEmpty

/-- A domain comes back from the control-plane image (R407), with the Cairn that the image names; none where a core's slots or granules are not free, or
a page of the Cairn finds no place. -/
def State.restoreImage (s : State) (pkg : Nat) (i : ControlImage) (dom : BitVec 16) : Option State :=
  let cs := i.shards dom
  let cairn := (i.cairns.find? fun c => c.1 == dom).bind fun c => match s.readCairn c.2 dom with
    | .ok c => some c
    | .error _ => none
  if !cs.all fun c => s.fits c.core c then none
  else
    let delta : Int := (s.cycle pkg : Int) - i.cycle
    let s1 : State := { s with
      flocks := (i.flocks.filter fun f => f.2.domain == dom).foldl (fun m f => m.put f.1 f.2) s.flocks
      rrecs := i.rrecs.foldl (fun m r => m.put r.1 r.2) s.rrecs }
    let s2 := (i.dir.filter fun e => s1.domainOf e.name == some dom).foldl (fun s e => s.restoreName [] e) s1
    (s2.restorePages [] ((cairn.map (·.pages)).getD [])).map fun s3 => cs.foldl (fun s c => s.reviveCore c c.core delta cairn i.omitted) s3

/-- The image of a package that its window still holds for a domain. -/
def Package.windowImage (p : Package) (dom : BitVec 16) : Option ControlImage :=
  if p.window.isSome && !p.decided.contains dom then p.flashImage else none

/-- POWER_FAIL_RESTORE (R407): Cairn service request restoring a domain from the control-plane image; status 6 once it has been decided (log 122). -/
def evPowerFailRestore (n : Nat) (s : State) : Option State :=
  (s.request n cairnService 3).bind fun q =>
    let (m, pkg, s1) := q
    let dom := m.cairnDomain
    let answer := fun (s : State) (st : W64) => s.cairnReply pkg m.sender m.cairnChan [st]
    if (s1.pkg pkg).restoreWaits then none
    else
      match (s1.pkg pkg).windowImage dom with
      | none => some (answer s1 6)
      | some i =>
        if s1.domainBusy m.sender dom (i.flocks.filter fun f => f.2.domain == dom) then some (answer s1 5)
        else
          match s1.restoreImage pkg i dom with
          | some s2 => some (answer (s2.onPkg pkg fun p => { p with decided := p.decided ++ [dom] }) 0)
          | none => some (answer s1 5)

/-- The meaning of POWER_FAIL_RESTORE. -/
def execPowerFailRestore (n : Nat) (s : State) : Answer := .next ((evPowerFailRestore n s).getD s)

/-- POWER_FAIL_DISCARD (R407): Cairn service request discarding the domain's control-plane image. -/
def evPowerFailDiscard (n : Nat) (s : State) : Option State :=
  (s.request n cairnService 4).map fun q =>
    let (m, pkg, s1) := q
    let dom := m.cairnDomain
    match (s1.pkg pkg).windowImage dom with
    | none => s1.cairnReply pkg m.sender m.cairnChan [6]
    | some _ => (s1.onPkg pkg fun p => { p with decided := p.decided ++ [dom] }).cairnReply pkg m.sender m.cairnChan [0]

/-- The meaning of POWER_FAIL_DISCARD. -/
def execPowerFailDiscard (n : Nat) (s : State) : Answer := .next ((evPowerFailDiscard n s).getD s)

/-- The window of R407: 60 s of the wall clock. -/
def imageWindow : Nat := 56400000000

/-- CONTROL_IMAGE_WINDOW_EXPIRY (R407): Discards undecided domains 60 s after boot. -/
def evControlImageWindowExpiry (pkg : Nat) (s : State) : Option State :=
  match (s.pkg pkg).window with
  | none => none
  | some w =>
    if w + imageWindow ≤ s.wall then some (s.onPkg pkg fun p => { p with window := none, flashImage := none, decided := [] }) else none

/-- The meaning of CONTROL_IMAGE_WINDOW_EXPIRY. -/
def execControlImageWindowExpiry (pkg : Nat) (s : State) : Answer := .next ((evControlImageWindowExpiry pkg s).getD s)

end Sys2Proof.Machine
end

