-- ==== Sys2Proof/Machine/Commons.lean ====
section
/-! DEFINITION. The commons instructions (R280 to R289) and the memory-core DRAM instructions (R290, R291). -/

namespace Sys2Proof.Machine

/-! ## Scalar forms -/

/-- The address in an x register. -/
def Thread.gaOf (t : Thread) (a : Reg) : Nat := (t.readX a).toNat

/-- A commons access with address in A, its operands from registers, and D as destination where `dest` says so (R280, R281). -/
def commons (op : AccOp) (size : Nat) (d a : Reg) (srcs : List Reg) (dest : Bool) (ops : Thread → List W64) (s : State) : Answer :=
  s.withX (d :: a :: srcs) fun t =>
    s.issue { op := op, ga := t.gaOf a, size := size, ops := ops t, dest := if dest then d.toNat else 0 }

/-- CLD (R283): Sends a plain commons load; the value arrives later into x[D]. -/
def execCld (d a : Reg) (s : State) : Answer :=
  commons .load 8 d a [] true (fun _ => []) s

/-- CLD_GE (R283): Commons load of a version at or after ver, lodging a wait if needed. -/
def execCldGe (d a b : Reg) (s : State) : Answer :=
  commons .loadGe 8 d a [b] true (fun t => [t.readX b]) s

/-- CLD_EQ (R283): Commons load of exactly version ver, from current value, shadow store or a lodged wait. -/
def execCldEq (d a b : Reg) (s : State) : Answer :=
  commons .loadEq 8 d a [b] true (fun t => [t.readX b]) s

/-- CLD_ACQ (R283): Waits like CLD.GE and acts as an acquire. -/
def execCldAcq (d a b : Reg) (s : State) : Answer :=
  commons .loadAcq 8 d a [b] true (fun t => [t.readX b]) s

/-- CVER (R283): Reads a commons word's metadata into x[D]. -/
def execCver (d a : Reg) (s : State) : Answer :=
  commons .ver 8 d a [] true (fun _ => []) s

/-- CST_B (R284): Commons byte store making a new version. -/
def execCstB (t a : Reg) (s : State) : Answer :=
  commons .storeB 1 t a [] false (fun u => [u.readX t]) s

/-- CST_H (R284): Commons halfword store. -/
def execCstH (t a : Reg) (s : State) : Answer :=
  commons .storeH 2 t a [] false (fun u => [u.readX t]) s

/-- CST_W (R284): Commons word store. -/
def execCstW (t a : Reg) (s : State) : Answer :=
  commons .storeW 4 t a [] false (fun u => [u.readX t]) s

/-- CST_D (R284): Commons doubleword store replacing the word. -/
def execCstD (t a : Reg) (s : State) : Answer :=
  commons .storeD 8 t a [] false (fun u => [u.readX t]) s

/-- CST_NL (R284): Commons store of the low nibble of a byte. -/
def execCstNl (t a : Reg) (s : State) : Answer :=
  commons .storeNl 1 t a [] false (fun u => [u.readX t]) s

/-- CST_NH (R284): Commons store of the high nibble of a byte. -/
def execCstNh (t a : Reg) (s : State) : Answer :=
  commons .storeNh 1 t a [] false (fun u => [u.readX t]) s

/-- CST_REL (R284): Commons doubleword store performed as a release. -/
def execCstRel (t a : Reg) (s : State) : Answer :=
  commons .storeRel 8 t a [] false (fun u => [u.readX t]) s

/-- CAADD (R285): Atomic add at the bank, returning the old value. -/
def execCaadd (d a b : Reg) (s : State) : Answer :=
  commons (.atom .add) 8 d a [b] true (fun t => [t.readX b]) s

/-- CAMIN (R285): Atomic signed minimum. -/
def execCamin (d a b : Reg) (s : State) : Answer :=
  commons (.atom .min) 8 d a [b] true (fun t => [t.readX b]) s

/-- CAMAX (R285): Atomic signed maximum. -/
def execCamax (d a b : Reg) (s : State) : Answer :=
  commons (.atom .max) 8 d a [b] true (fun t => [t.readX b]) s

/-- CAMINU (R285): Atomic unsigned minimum. -/
def execCaminu (d a b : Reg) (s : State) : Answer :=
  commons (.atom .minu) 8 d a [b] true (fun t => [t.readX b]) s

/-- CAMAXU (R285): Atomic unsigned maximum. -/
def execCamaxu (d a b : Reg) (s : State) : Answer :=
  commons (.atom .maxu) 8 d a [b] true (fun t => [t.readX b]) s

/-- CAAND (R285): Atomic bitwise and. -/
def execCaand (d a b : Reg) (s : State) : Answer :=
  commons (.atom .and) 8 d a [b] true (fun t => [t.readX b]) s

/-- CAOR (R285): Atomic bitwise or. -/
def execCaor (d a b : Reg) (s : State) : Answer :=
  commons (.atom .or) 8 d a [b] true (fun t => [t.readX b]) s

/-- CAXOR (R285): Atomic bitwise xor. -/
def execCaxor (d a b : Reg) (s : State) : Answer :=
  commons (.atom .xor) 8 d a [b] true (fun t => [t.readX b]) s

/-- CASWAP (R285): Atomic swap. -/
def execCaswap (d a b : Reg) (s : State) : Answer :=
  commons (.atom .swap) 8 d a [b] true (fun t => [t.readX b]) s

/-- CAFADD (R285): Atomic FP32 add into one half of a commons word. -/
def execCafadd (d a b : Reg) (s : State) : Answer :=
  commons (.atom .fadd) 4 d a [b] true (fun t => [t.readX b]) s

/-- CACAS (R285): Atomic compare-and-swap against the captured x[D]. -/
def execCacas (d a b : Reg) (s : State) : Answer :=
  commons (.atom .cas) 8 d a [b] true (fun t => [t.readX b, t.readX d]) s

/-- CDEFER (R286): Lodges a deferral that sends a message when the word reaches a version. -/
def execCdefer (d a b : Reg) (c : BitVec 2) (s : State) : Answer :=
  s.withX [d, a, b] fun t =>
    s.issue { op := .defer, ga := t.gaOf a, size := 8, ops := [t.readX d, t.readX b], chan := c.toNat }

/-- CRECL (R287): Raises the reclaim floor of one commons word. -/
def execCrecl (a b : Reg) (s : State) : Answer :=
  commons .recl 8 0 a [b] false (fun t => [t.readX b]) s

/-- CRECL_R (R287): Raises the reclaim floor of a range of words, one part per bank. -/
def execCreclR (d a b : Reg) (s : State) : Answer :=
  commons .reclRange 8 d a [b] false (fun t => [t.readX b, t.readX d]) s

/-- CARM (R288): Arms a commons word as a trigger with a stored message. -/
def execCarm (d a : Reg) (c : BitVec 2) (s : State) : Answer :=
  s.withX [d, d + 1, d + 2, a] fun t =>
    s.issue { op := .arm, ga := t.gaOf a, size := 8, ops := [t.readX d, t.readX (d + 1), t.readX (d + 2)], chan := c.toNat }

/-- CDISARM (R288): Removes the issuer's trigger on a word and reports whether it did. -/
def execCdisarm (d a : Reg) (s : State) : Answer :=
  commons .disarm 8 d a [] true (fun _ => []) s

/-! ## Vector forms -/

/-- A vector register as four doublewords, the low lane first. -/
def vecWords (v : V256) : List W64 := (List.range 4).map fun i => BitVec.ofNat 64 (lane 64 v i)

/-- The bits of a vector destination that a load takes from memory, and the bits that R263 gives it whatever arrives: both stand from
issue. -/
def Thread.loadPlan (t : Thread) (d : Reg) (q : BitVec 3) (tp mp : BitVec 1) (w : Nat) : List W64 :=
  vecWords (t.lanes q 1 1 w 0 fun _ => 2 ^ w - 1) ++ vecWords (t.lanes q tp mp w (t.readV d) fun _ => 0)

/-- A vector load of 32 bytes of global memory. -/
def vecGlobalLoad (op : AccOp) (cls : Nat) (d a : Reg) (q : BitVec 3) (tp mp : BitVec 1) (w : BitVec 2) (s : State) : Answer :=
  s.withV [d] [a] q fun t =>
    s.issue { op := op, ga := t.gaOf a, size := 32, cls := cls, ops := t.loadPlan d q tp mp (laneWidth w), destV := true,
              dest := d.toNat }

/-- VCLD (R289): Loads four commons words in one bank step into a v register. -/
def execVcld (d a : Reg) (q : BitVec 3) (t m : BitVec 1) (w : BitVec 2) (s : State) : Answer :=
  vecGlobalLoad .vload 1 d a q t m w s

/-- VCADD (R289): Vector atomic add over eight commons words returning old values. -/
def execVcadd (d a : Reg) (w : BitVec 1) (s : State) : Answer :=
  s.withV [d, d + 1] [a] 0 fun t =>
    s.issue { op := .vadd, ga := t.gaOf a, size := 64, ops := vecWords (t.readV d) ++ vecWords (t.readV (d + 1)), chan := w.toNat,
              destV := true, dest := d.toNat }

/-! ## DRAM instructions, memory cores only -/

/-- Runs an instruction that is available on memory cores only (R229 step 4, R290). -/
def State.onMemoryCore (s : State) (k : Answer) : Answer := if coreIsMem s.cur then k else s.illegal 0x06

/-- A DRAM load of `n` bytes, zero-extended (R290). -/
def dramLoad (n : Nat) (d a : Reg) (s : State) : Answer :=
  s.onMemoryCore <| s.withX [d, a] fun t =>
    s.issue { op := .dld n, ga := t.gaOf a, size := n, cls := 0, dest := d.toNat }

/-- A DRAM store of the low `n` bytes (R290). -/
def dramStore (n : Nat) (t a : Reg) (s : State) : Answer :=
  s.onMemoryCore <| s.withX [t, a] fun u =>
    s.issue { op := .dst n, ga := u.gaOf a, size := n, cls := 0, ops := [u.readX t] }

/-- DLD_B (R290): Memory-core DRAM byte load. -/
def execDldB (d a : Reg) (s : State) : Answer :=
  dramLoad 1 d a s

/-- DLD_H (R290): Memory-core DRAM halfword load. -/
def execDldH (d a : Reg) (s : State) : Answer :=
  dramLoad 2 d a s

/-- DLD_W (R290): Memory-core DRAM word load. -/
def execDldW (d a : Reg) (s : State) : Answer :=
  dramLoad 4 d a s

/-- DLD_D (R290): Memory-core DRAM doubleword load. -/
def execDldD (d a : Reg) (s : State) : Answer :=
  dramLoad 8 d a s

/-- DST_B (R290): Memory-core DRAM byte store. -/
def execDstB (t a : Reg) (s : State) : Answer :=
  dramStore 1 t a s

/-- DST_H (R290): Memory-core DRAM halfword store. -/
def execDstH (t a : Reg) (s : State) : Answer :=
  dramStore 2 t a s

/-- DST_W (R290): Memory-core DRAM word store. -/
def execDstW (t a : Reg) (s : State) : Answer :=
  dramStore 4 t a s

/-- DST_D (R290): Memory-core DRAM doubleword store. -/
def execDstD (t a : Reg) (s : State) : Answer :=
  dramStore 8 t a s

/-- VDLD (R291): Memory-core 32-byte DRAM vector load. -/
def execVdld (d a : Reg) (q : BitVec 3) (t m : BitVec 1) (w : BitVec 2) (s : State) : Answer :=
  s.onMemoryCore <| vecGlobalLoad (.dld 32) 0 d a q t m w s

/-- VDST (R291): Memory-core DRAM vector store of active lanes. -/
def execVdst (d a : Reg) (q : BitVec 3) (w : BitVec 2) (s : State) : Answer :=
  s.onMemoryCore <| s.withV [d] [a] q fun t =>
    s.issue { op := .dst 32, ga := t.gaOf a, size := 32, cls := 0,
              ops := vecWords (t.readV d) ++ vecWords (t.lanes q 1 1 (laneWidth w) 0 fun _ => 2 ^ laneWidth w - 1) }

end Sys2Proof.Machine
end

