-- ==== Sys2Proof/WellFormed.lean ====
section
/-! DEFINITION. Which instructions are well formed: the checks of R229, steps 5 and 6, that depend on the word alone.
What depends on the state (the kind of core, an unbound stream, a privileged number) is checked by the meanings. -/

namespace Sys2Proof

/-- The ILLEGAL sub-causes that a word's own fields can give (R72, R229): 0x03 reserved field or value, 0x05 register out
of range. -/
inductive FieldFault where
  | reserved
  | register
  deriving DecidableEq, Repr

namespace WellFormed

/-- RMD 5 and 6 are reserved (R232, R251). -/
def roundOk (m : BitVec 3) : Bool := m != 5 && m != 6
/-- The type codes of CVT that name a floating-point format: 0 FP64, 1 FP32, 2 FP16, 3 BF16 (R232). -/
def isIeee (c : BitVec 4) : Bool := c.toNat < 4
/-- The type codes of CVT that name N8E4 and N8E5 (R232). -/
def isN8 (c : BitVec 4) : Bool := c == 4 || c == 5
/-- The type codes of CVT that name an integer type (R232). -/
def isInt (c : BitVec 4) : Bool := 8 ≤ c.toNat

/-- The pairs of CVT that R254 permits, with their rounding codes: a conversion into N8 needs RMD 0. -/
def cvtOk (t f : BitVec 4) (m : BitVec 3) : Bool :=
  roundOk m &&
  ((isIeee f && isIeee t && t != f) || (isIeee f && isInt t) || (isInt f && isIeee t) ||
   (isIeee f && f != 0 && isN8 t && m == 0) || (isN8 f && isIeee t && t != 0))

/-- The registers of an element group of VQ: two for BF16 (w = 0), four for FP32 (w = 1, that is W = 2) (R275). -/
def groupLen (w : BitVec 1) : Nat := if w = 0 then 2 else 4

/-- The control registers whose writes the table lists under names of their own (STATUS_WRITE to TIMER_WRITE): a plain
MTCR names any other number. -/
def ownRow (r : BitVec 8) : Bool := r == 0x04 || r == 0x05 || r == 0x07 || r == 0x08 || r == 0x13 || r == 0x16

/-- A reserved value gives 0x03 unless the condition holds. -/
def res (ok : Bool) : Option FieldFault := if ok then none else some .reserved
/-- A register out of range gives 0x05 unless the condition holds. -/
def regs (ok : Bool) : Option FieldFault := if ok then none else some .register

end WellFormed

open WellFormed

/-- The first field of an instruction that R229 refuses, at step 5 before step 6; none when every field is in order. An
event carries no word and has no fields to refuse. -/
def Instr.fieldFault : Instr → Option FieldFault
  | .add _ _ _ => none
  | .sub _ _ _ => none
  | .and _ _ _ => none
  | .or _ _ _ => none
  | .xor _ _ _ => none
  | .andn _ _ _ => none
  | .orn _ _ _ => none
  | .xnor _ _ _ => none
  | .sll _ _ _ => none
  | .srl _ _ _ => none
  | .sra _ _ _ => none
  | .rol _ _ _ => none
  | .ror _ _ _ => none
  | .slt _ _ _ => none
  | .sltu _ _ _ => none
  | .seq _ _ _ => none
  | .min _ _ _ => none
  | .max _ _ _ => none
  | .minu _ _ _ => none
  | .maxu _ _ _ => none
  | .mul _ _ _ => none
  | .mulh _ _ _ => none
  | .mulhu _ _ _ => none
  | .mulhsu _ _ _ => none
  | .div _ _ _ => none
  | .divu _ _ _ => none
  | .rem _ _ _ => none
  | .remu _ _ _ => none
  | .cmovz _ _ _ => none
  | .cmovn _ _ _ => none
  | .addw _ _ _ => none
  | .subw _ _ _ => none
  | .clz _ _ => none
  | .ctz _ _ => none
  | .popc _ _ => none
  | .brev _ _ => none
  | .bswap _ _ => none
  | .sextb _ _ => none
  | .sexth _ _ => none
  | .sextw _ _ => none
  | .addi _ _ _ => none
  | .andi _ _ _ => none
  | .ori _ _ _ => none
  | .xori _ _ _ => none
  | .slti _ _ _ => none
  | .sltiu _ _ _ => none
  | .extu _ _ l p => res (p.toNat + l.toNat + 1 ≤ 64)
  | .exts _ _ l p => res (p.toNat + l.toNat + 1 ≤ 64)
  | .ins _ _ l p => res (p.toNat + l.toNat + 1 ≤ 64)
  | .slli _ _ _ => none
  | .srli _ _ _ => none
  | .srai _ _ _ => none
  | .rori _ _ _ => none
  | .lui _ _ => none
  | .sloi _ _ _ => none
  | .fadd _ _ _ f m => res (f.toNat ≤ 1 && roundOk m)
  | .fsub _ _ _ f m => res (f.toNat ≤ 1 && roundOk m)
  | .fmul _ _ _ f m => res (f.toNat ≤ 1 && roundOk m)
  | .fdiv _ _ _ f m => res (f.toNat ≤ 1 && roundOk m)
  | .fsqrt _ _ f m => res (f.toNat ≤ 1 && roundOk m)
  | .fmin _ _ _ f m => res (f.toNat ≤ 1 && roundOk m)
  | .fmax _ _ _ f m => res (f.toNat ≤ 1 && roundOk m)
  | .fma _ _ _ f m => res (f.toNat ≤ 1 && roundOk m)
  | .fms _ _ _ f m => res (f.toNat ≤ 1 && roundOk m)
  | .fnma _ _ _ f m => res (f.toNat ≤ 1 && roundOk m)
  | .feq _ _ _ f => res (f.toNat ≤ 1)
  | .flt _ _ _ f => res (f.toNat ≤ 1)
  | .fle _ _ _ f => res (f.toNat ≤ 1)
  | .fclass _ _ f => res (f.toNat ≤ 1)
  | .fsgnj _ _ _ f => res (f.toNat ≤ 1)
  | .fsgnjn _ _ _ f => res (f.toNat ≤ 1)
  | .fsgnjx _ _ _ f => res (f.toNat ≤ 1)
  | .cvt _ _ m t f => res (cvtOk t f m)
  | .beq _ _ _ => none
  | .bne _ _ _ => none
  | .blt _ _ _ => none
  | .bge _ _ _ => none
  | .bltu _ _ _ => none
  | .bgeu _ _ _ => none
  | .jal _ _ => none
  | .jalr _ _ _ => none
  | .codeEndTrap => none
  | .lb _ _ _ => none
  | .lbu _ _ _ => none
  | .lh _ _ _ => none
  | .lhu _ _ _ => none
  | .lw _ _ _ => none
  | .lwu _ _ _ => none
  | .ld _ _ _ => none
  | .sb _ _ _ => none
  | .sh _ _ _ => none
  | .sw _ _ _ => none
  | .sd _ _ _ => none
  | .sn _ _ _ _ => none
  | .cld _ _ => none
  | .cldGe _ _ _ => none
  | .cldEq _ _ _ => none
  | .cldAcq _ _ _ => none
  | .cver _ _ => none
  | .cstB _ _ => none
  | .cstH _ _ => none
  | .cstW _ _ => none
  | .cstD _ _ => none
  | .cstNl _ _ => none
  | .cstNh _ _ => none
  | .cstRel _ _ => none
  | .caadd _ _ _ => none
  | .camin _ _ _ => none
  | .camax _ _ _ => none
  | .caminu _ _ _ => none
  | .camaxu _ _ _ => none
  | .caand _ _ _ => none
  | .caor _ _ _ => none
  | .caxor _ _ _ => none
  | .caswap _ _ _ => none
  | .cacas _ _ _ => none
  | .cafadd _ _ _ => none
  | .cdefer _ _ _ _ => none
  | .crecl _ _ => none
  | .creclR _ _ _ => none
  | .carm d _ _ => regs (d.toNat ≤ 29)
  | .cdisarm _ _ => none
  | .dldB _ _ => none
  | .dldH _ _ => none
  | .dldW _ _ => none
  | .dldD _ _ => none
  | .dstB _ _ => none
  | .dstH _ _ => none
  | .dstW _ _ => none
  | .dstD _ _ => none
  | .fence _ c => res (c != 0)
  | .efence => none
  | .sbindR d _ => regs (d.toNat ≤ 3)
  | .sbindW d _ => regs (d.toNat ≤ 3)
  | .sunbind d => regs (d.toNat ≤ 3)
  | .srd _ a => regs (a.toNat ≤ 3)
  | .swr d _ => regs (d.toNat ≤ 3)
  | .sclose d => regs (d.toNat ≤ 3)
  | .waitc _ _ _ _ => none
  | .mcmd _ _ _ => none
  | .copy a => regs (a.toNat ≤ 28)
  | .copyNb _ a => regs (a.toNat ≤ 28)
  | .cqpop _ => none
  | .recv d b _ => res (!(d == b && d != 0))
  | .send _ _ _ => none
  | .sendNb _ _ _ _ => none
  | .sendi _ _ _ _ => none
  | .give _ _ _ _ => none
  | .ralloc _ _ => none
  | .rfree _ => none
  | .spawn _ _ => none
  | .link _ => none
  | .unlink _ => none
  | .monitor _ _ => none
  | .demon _ => none
  | .trapex _ _ => none
  | .kill _ => none
  | .exit _ _ => none
  | .retire => none
  | .rets _ => none
  | .yield => none
  | .tmset _ => none
  | .tmcan _ => none
  | .wix _ _ k => res (k.toNat ≤ 5)
  | .wixG _ _ l => res (l.toNat ≤ 6)
  | .mtm d _ => regs (d.toNat ≤ 7)
  | .mfm _ a => regs (a.toNat ≤ 7)
  | .vtml _ => none
  | .vtmlIn _ => none
  | .vtmh _ => none
  | .vtmhIn _ => none
  | .mfs _ a => regs (a.toNat ≤ 3)
  | .supset _ _ => none
  | .supdel _ _ => none
  | .pkill _ _ => none
  | .psend _ _ _ => none
  | .mfcr _ _ => none
  | .mtcr _ r => res (!ownRow r)
  | .statusWrite _ => none
  | .fpctlWrite _ => none
  | .eperrWrite _ => none
  | .vlenWrite _ => none
  | .hmaskWrite _ => none
  | .timerWrite _ => none
  | .breakTrap _ => none
  | .vadd _ _ _ s _ _ _ => res (s != 7)
  | .vsub _ _ _ s _ _ _ => res (s != 7)
  | .vmul _ _ _ s _ _ _ => res (s != 7)
  | .vmulh _ _ _ s _ _ _ => res (s != 7)
  | .vmin _ _ _ s _ _ _ => res (s != 7)
  | .vmax _ _ _ s _ _ _ => res (s != 7)
  | .vminu _ _ _ s _ _ _ => res (s != 7)
  | .vmaxu _ _ _ s _ _ _ => res (s != 7)
  | .vand _ _ _ s _ _ _ => res (s != 7)
  | .vor _ _ _ s _ _ _ => res (s != 7)
  | .vxor _ _ _ s _ _ _ => res (s != 7)
  | .vsll _ _ _ s _ _ _ => res (s != 7)
  | .vsrl _ _ _ s _ _ _ => res (s != 7)
  | .vsra _ _ _ s _ _ _ => res (s != 7)
  | .vadds _ _ _ s _ _ _ => res (s != 7)
  | .vsubs _ _ _ s _ _ _ => res (s != 7)
  | .vfadd _ _ _ s _ _ _ => res (s != 7)
  | .vfsub _ _ _ s _ _ _ => res (s != 7)
  | .vfmul _ _ _ s _ _ _ => res (s != 7)
  | .vfdiv _ _ _ s _ _ _ => res (s != 7)
  | .vfsqrt _ _ s _ _ _ => res (s != 7)
  | .vfmin _ _ _ s _ _ _ => res (s != 7)
  | .vfmax _ _ _ s _ _ _ => res (s != 7)
  | .vfma _ _ _ s _ _ _ => res (s != 7)
  | .vfeq _ _ _ s _ _ _ => res (s != 7)
  | .vflt _ _ _ s _ _ _ => res (s != 7)
  | .vfle _ _ _ s _ _ _ => res (s != 7)
  | .vfsum _ _ s _ _ => res (s != 7)
  | .vceq _ _ _ s _ _ _ => res (s != 7)
  | .vclt _ _ _ s _ _ _ => res (s != 7)
  | .vcltu _ _ _ s _ _ _ => res (s != 7)
  | .vsum _ _ s _ _ => res (s != 7)
  | .vrmin _ _ s _ _ => res (s != 7)
  | .vrmax _ _ s _ _ => res (s != 7)
  | .vrminu _ _ s _ _ => res (s != 7)
  | .vrmaxu _ _ s _ _ => res (s != 7)
  | .vmand _ _ _ s _ _ => res (s != 7)
  | .vmor _ _ _ s _ _ => res (s != 7)
  | .vmxor _ _ _ s _ _ => res (s != 7)
  | .vmnot _ _ s _ _ => res (s != 7)
  | .vmpop _ _ s _ => res (s != 7)
  | .vmov _ _ s _ _ _ => res (s != 7)
  | .vsplat _ _ k s _ _ w => res (s != 7 && k.toNat < 32 >>> w.toNat)
  | .vext _ _ k _ w => res (k.toNat < 32 >>> w.toNat)
  | .vins _ _ k w => res (k.toNat < 32 >>> w.toNat)
  | .vperm _ _ _ s _ _ _ => res (s != 7)
  | .vslup _ _ k s _ _ w => res (s != 7 && k.toNat < 32 >>> w.toNat)
  | .vsldn _ _ k s _ _ w => res (s != 7 && k.toNat < 32 >>> w.toNat)
  | .vzip _ _ _ s _ _ _ => res (s != 7)
  | .vuzp _ _ _ s _ _ _ => res (s != 7)
  | .vsel _ _ _ s _ _ => res (s != 7 && s != 0)
  | .vld _ _ s _ _ _ => res (s != 7)
  | .vst _ _ s _ => res (s != 7)
  | .vlds _ _ _ s _ _ _ => res (s != 7)
  | .vsts _ _ _ s _ => res (s != 7)
  | .vldg _ _ _ s _ _ _ => res (s != 7)
  | .vstg _ _ _ s _ => res (s != 7)
  | .vcld _ _ s _ _ _ => res (s != 7)
  | .vcadd d _ _ => regs (d.toNat ≤ 30)
  | .vdld _ _ s _ _ _ => res (s != 7)
  | .vdst _ _ s _ => res (s != 7)
  | .vqntE4 d a w => regs (d.toNat ≤ 30 && a.toNat + groupLen w ≤ 32)
  | .vqntE5 d a w => regs (d.toNat ≤ 30 && a.toNat + groupLen w ≤ 32)
  | .vqntC4 d a _ w => regs (d.toNat ≤ 30 && a.toNat + groupLen w ≤ 32)
  | .vdqE4 d a w => regs (a.toNat ≤ 30 && d.toNat + groupLen w ≤ 32)
  | .vdqE5 d a w => regs (a.toNat ≤ 30 && d.toNat + groupLen w ≤ 32)
  | .vdqC4 d a _ w => regs (a.toNat ≤ 30 && d.toNat + groupLen w ≤ 32)
  | .msync _ => none
  | .mclr _ => none
  | .mloadcb _ => none
  | .mringConfigure _ => none
  | .mringAdvance _ => none
  | .mchkCompare _ => none
  | .mchkNoCompare _ => none
  | .mmove _ => none
  | .mscale _ => none
  | .maddacc _ => none
  | .mstore _ => none
  | .mdrain _ => none
  | .mloadacc _ => none
  | .mmaBf16 _ _ => none
  | .mmaFp16 _ _ => none
  | .mmaE4e4 _ _ => none
  | .mmaE4e5 _ _ => none
  | .mmaE5e4 _ _ => none
  | .mmaE5e5 _ _ => none
  | .mmaC4c4 _ _ => none
  | .mmaC4e4 _ _ => none
  | .mmaE4c4 _ _ => none
  | .mmaS8s8 _ _ => none
  | .mmaN8s8 _ _ => none
  | .mdrainDelivery _ => none
  | .copyDramToRegion _ _ => none
  | .copyRegionToDram _ _ => none
  | .parcelHandOver _ => none
  | .slabScatter _ _ => none
  | .gather _ _ => none
  | .ringFeed _ _ => none
  | .ringFeedPublish _ _ => none
  | .streamRequest _ _ => none
  | .commonsBulkRead _ _ => none
  | .commonsBulkWrite _ _ => none
  | .fillRegion _ _ => none
  | .fillGlobal _ _ => none
  | .copyStart _ => none
  | .copyCompletion _ _ => none
  | .copyHostTimeout _ _ => none
  | .copyTicketTimeout _ _ => none
  | .firingStart _ => none
  | .gateOpen _ _ => none
  | .priorityAgeing _ _ => none
  | .watchdogExpiry _ _ => none
  | .timerExpiry _ _ => none
  | .preemptionRequest _ _ => none
  | .preemptionSave _ _ => none
  | .preemptionWithdraw _ _ => none
  | .resumption _ => none
  | .deferredTrap _ _ => none
  | .checkerReexecution _ _ _ => none
  | .loadLevelling _ => none
  | .spawnRelease _ _ => none
  | .spawnStart _ => none
  | .stewardFeed _ => none
  | .actorLoadComplete _ _ => none
  | .messageArrival _ => none
  | .sendAnswer _ => none
  | .messageBusyResend _ => none
  | .deliveryTimeout _ => none
  | .messageResend _ => none
  | .messageIndeterminate _ => none
  | .signalArrival _ => none
  | .exitArrival _ => none
  | .downArrival _ => none
  | .childExitArrival _ => none
  | .bellwetherRestart _ => none
  | .killArrival _ => none
  | .death _ _ => none
  | .deathReclaim _ _ => none
  | .peerLinkRequest _ => none
  | .parcelReservation _ => none
  | .parcelArrival _ => none
  | .accessAtOwner _ _ => none
  | .accessAnswer _ _ => none
  | .accessBusyResend _ _ => none
  | .accessRetry _ _ => none
  | .accessIndeterminate _ _ => none
  | .plbRefill _ _ => none
  | .faultTicket _ _ => none
  | .replayNotice _ => none
  | .replayAnswer _ _ => none
  | .ticketTimeout _ _ => none
  | .firstMapping _ _ => none
  | .shootdown _ => none
  | .directoryCollapse _ => none
  | .replicaDrop _ => none
  | .collapseComplete _ => none
  | .migrationBegin _ _ => none
  | .migrationEnd _ => none
  | .frameRetirement _ _ _ => none
  | .pageReclaim _ => none
  | .patrolScrub _ _ _ _ => none
  | .coreQuarantine _ => none
  | .matrixWithdrawal _ => none
  | .clusterWithdrawal _ => none
  | .memoryCoreWithdrawal _ => none
  | .powerSample _ _ => none
  | .counterSample _ => none
  | .counterRead _ => none
  | .counterProgram _ => none
  | .thresholdSet _ => none
  | .thresholdCancel _ => none
  | .topologyRegister _ => none
  | .topologyDeregister _ => none
  | .topologyReadUnit _ => none
  | .topologyReadGrant _ => none
  | .attestRegister _ => none
  | .attestDeregister _ => none
  | .quote _ => none
  | .logRead _ => none
  | .powerServiceRegister _ => none
  | .powerServiceDeregister _ => none
  | .cairnTake _ => none
  | .cairnMark _ _ => none
  | .cairnManifest _ _ => none
  | .cowGranuleCopy _ _ => none
  | .cowPageService _ _ => none
  | .cairnRestore _ => none
  | .powerFailRestore _ => none
  | .powerFailDiscard _ => none
  | .controlImageWindowExpiry _ => none
  | .powerStep _ _ => none
  | .powerStepFrame _ _ _ => none
  | .powerFailTrap _ => none
  | .packageReset _ => none
  | .resetFrame _ _ => none
  | .ready _ => none
  | .recoveryImage _ _ => none
  | .freeze _ => none
  | .freezeRelease _ => none
  | .debugUnlock _ _ _ => none
  | .linkModeChange _ _ _ => none
  | .linkHeartbeat _ _ _ => none
  | .packageLost _ => none
  | .directoryMapUpdate _ => none
  | .connectionOpen _ _ _ => none
  | .connectionClose _ _ _ => none
  | .launch _ _ _ _ => none
  | .hostMessage _ _ _ _ _ => none
  | .hostParcel _ _ _ _ _ _ => none
  | .hostRetransmit _ _ => none
  | .grantRequest _ _ _ _ _ _ => none
  | .replacementRequest _ _ _ => none
  | .replacementActivate _ => none
  | .hubWatchdogWrite _ => none
  | .revert _ => none
  | .replacementCommit _ => none
  | .hintRecordWrite _ _ _ => none
  | .exportTableWrite _ _ _ _ _ => none
  | .imageStoreWrite _ _ => none
  | .pageParking _ _ => none

/-- An instruction that R229 decodes without a trap of steps 5 and 6. -/
def Instr.WellFormed (i : Instr) : Bool := i.fieldFault.isNone

/-- The rows that are instruction words (R227); the others are events of the device. -/
def Instr.isWord : Instr → Bool
  | .add .. => true
  | .sub .. => true
  | .and .. => true
  | .or .. => true
  | .xor .. => true
  | .andn .. => true
  | .orn .. => true
  | .xnor .. => true
  | .sll .. => true
  | .srl .. => true
  | .sra .. => true
  | .rol .. => true
  | .ror .. => true
  | .slt .. => true
  | .sltu .. => true
  | .seq .. => true
  | .min .. => true
  | .max .. => true
  | .minu .. => true
  | .maxu .. => true
  | .mul .. => true
  | .mulh .. => true
  | .mulhu .. => true
  | .mulhsu .. => true
  | .div .. => true
  | .divu .. => true
  | .rem .. => true
  | .remu .. => true
  | .cmovz .. => true
  | .cmovn .. => true
  | .addw .. => true
  | .subw .. => true
  | .clz .. => true
  | .ctz .. => true
  | .popc .. => true
  | .brev .. => true
  | .bswap .. => true
  | .sextb .. => true
  | .sexth .. => true
  | .sextw .. => true
  | .addi .. => true
  | .andi .. => true
  | .ori .. => true
  | .xori .. => true
  | .slti .. => true
  | .sltiu .. => true
  | .extu .. => true
  | .exts .. => true
  | .ins .. => true
  | .slli .. => true
  | .srli .. => true
  | .srai .. => true
  | .rori .. => true
  | .lui .. => true
  | .sloi .. => true
  | .fadd .. => true
  | .fsub .. => true
  | .fmul .. => true
  | .fdiv .. => true
  | .fsqrt .. => true
  | .fmin .. => true
  | .fmax .. => true
  | .fma .. => true
  | .fms .. => true
  | .fnma .. => true
  | .feq .. => true
  | .flt .. => true
  | .fle .. => true
  | .fclass .. => true
  | .fsgnj .. => true
  | .fsgnjn .. => true
  | .fsgnjx .. => true
  | .cvt .. => true
  | .beq .. => true
  | .bne .. => true
  | .blt .. => true
  | .bge .. => true
  | .bltu .. => true
  | .bgeu .. => true
  | .jal .. => true
  | .jalr .. => true
  | .codeEndTrap => false
  | .lb .. => true
  | .lbu .. => true
  | .lh .. => true
  | .lhu .. => true
  | .lw .. => true
  | .lwu .. => true
  | .ld .. => true
  | .sb .. => true
  | .sh .. => true
  | .sw .. => true
  | .sd .. => true
  | .sn .. => true
  | .cld .. => true
  | .cldGe .. => true
  | .cldEq .. => true
  | .cldAcq .. => true
  | .cver .. => true
  | .cstB .. => true
  | .cstH .. => true
  | .cstW .. => true
  | .cstD .. => true
  | .cstNl .. => true
  | .cstNh .. => true
  | .cstRel .. => true
  | .caadd .. => true
  | .camin .. => true
  | .camax .. => true
  | .caminu .. => true
  | .camaxu .. => true
  | .caand .. => true
  | .caor .. => true
  | .caxor .. => true
  | .caswap .. => true
  | .cacas .. => true
  | .cafadd .. => true
  | .cdefer .. => true
  | .crecl .. => true
  | .creclR .. => true
  | .carm .. => true
  | .cdisarm .. => true
  | .dldB .. => true
  | .dldH .. => true
  | .dldW .. => true
  | .dldD .. => true
  | .dstB .. => true
  | .dstH .. => true
  | .dstW .. => true
  | .dstD .. => true
  | .fence .. => true
  | .efence => true
  | .sbindR .. => true
  | .sbindW .. => true
  | .sunbind .. => true
  | .srd .. => true
  | .swr .. => true
  | .sclose .. => true
  | .waitc .. => true
  | .mcmd .. => true
  | .copy .. => true
  | .copyNb .. => true
  | .cqpop .. => true
  | .recv .. => true
  | .send .. => true
  | .sendNb .. => true
  | .sendi .. => true
  | .give .. => true
  | .ralloc .. => true
  | .rfree .. => true
  | .spawn .. => true
  | .link .. => true
  | .unlink .. => true
  | .monitor .. => true
  | .demon .. => true
  | .trapex .. => true
  | .kill .. => true
  | .exit .. => true
  | .retire => true
  | .rets .. => true
  | .yield => true
  | .tmset .. => true
  | .tmcan .. => true
  | .wix .. => true
  | .wixG .. => true
  | .mtm .. => true
  | .mfm .. => true
  | .vtml .. => true
  | .vtmlIn .. => true
  | .vtmh .. => true
  | .vtmhIn .. => true
  | .mfs .. => true
  | .supset .. => true
  | .supdel .. => true
  | .pkill .. => true
  | .psend .. => true
  | .mfcr .. => true
  | .mtcr .. => true
  | .statusWrite .. => true
  | .fpctlWrite .. => true
  | .eperrWrite .. => true
  | .vlenWrite .. => true
  | .hmaskWrite .. => true
  | .timerWrite .. => true
  | .breakTrap .. => true
  | .vadd .. => true
  | .vsub .. => true
  | .vmul .. => true
  | .vmulh .. => true
  | .vmin .. => true
  | .vmax .. => true
  | .vminu .. => true
  | .vmaxu .. => true
  | .vand .. => true
  | .vor .. => true
  | .vxor .. => true
  | .vsll .. => true
  | .vsrl .. => true
  | .vsra .. => true
  | .vadds .. => true
  | .vsubs .. => true
  | .vfadd .. => true
  | .vfsub .. => true
  | .vfmul .. => true
  | .vfdiv .. => true
  | .vfsqrt .. => true
  | .vfmin .. => true
  | .vfmax .. => true
  | .vfma .. => true
  | .vfeq .. => true
  | .vflt .. => true
  | .vfle .. => true
  | .vfsum .. => true
  | .vceq .. => true
  | .vclt .. => true
  | .vcltu .. => true
  | .vsum .. => true
  | .vrmin .. => true
  | .vrmax .. => true
  | .vrminu .. => true
  | .vrmaxu .. => true
  | .vmand .. => true
  | .vmor .. => true
  | .vmxor .. => true
  | .vmnot .. => true
  | .vmpop .. => true
  | .vmov .. => true
  | .vsplat .. => true
  | .vext .. => true
  | .vins .. => true
  | .vperm .. => true
  | .vslup .. => true
  | .vsldn .. => true
  | .vzip .. => true
  | .vuzp .. => true
  | .vsel .. => true
  | .vld .. => true
  | .vst .. => true
  | .vlds .. => true
  | .vsts .. => true
  | .vldg .. => true
  | .vstg .. => true
  | .vcld .. => true
  | .vcadd .. => true
  | .vdld .. => true
  | .vdst .. => true
  | .vqntE4 .. => true
  | .vqntE5 .. => true
  | .vqntC4 .. => true
  | .vdqE4 .. => true
  | .vdqE5 .. => true
  | .vdqC4 .. => true
  | .msync .. => false
  | .mclr .. => false
  | .mloadcb .. => false
  | .mringConfigure .. => false
  | .mringAdvance .. => false
  | .mchkCompare .. => false
  | .mchkNoCompare .. => false
  | .mmove .. => false
  | .mscale .. => false
  | .maddacc .. => false
  | .mstore .. => false
  | .mdrain .. => false
  | .mloadacc .. => false
  | .mmaBf16 .. => false
  | .mmaFp16 .. => false
  | .mmaE4e4 .. => false
  | .mmaE4e5 .. => false
  | .mmaE5e4 .. => false
  | .mmaE5e5 .. => false
  | .mmaC4c4 .. => false
  | .mmaC4e4 .. => false
  | .mmaE4c4 .. => false
  | .mmaS8s8 .. => false
  | .mmaN8s8 .. => false
  | .mdrainDelivery .. => false
  | .copyDramToRegion .. => false
  | .copyRegionToDram .. => false
  | .parcelHandOver .. => false
  | .slabScatter .. => false
  | .gather .. => false
  | .ringFeed .. => false
  | .ringFeedPublish .. => false
  | .streamRequest .. => false
  | .commonsBulkRead .. => false
  | .commonsBulkWrite .. => false
  | .fillRegion .. => false
  | .fillGlobal .. => false
  | .copyStart .. => false
  | .copyCompletion .. => false
  | .copyHostTimeout .. => false
  | .copyTicketTimeout .. => false
  | .firingStart .. => false
  | .gateOpen .. => false
  | .priorityAgeing .. => false
  | .watchdogExpiry .. => false
  | .timerExpiry .. => false
  | .preemptionRequest .. => false
  | .preemptionSave .. => false
  | .preemptionWithdraw .. => false
  | .resumption .. => false
  | .deferredTrap .. => false
  | .checkerReexecution .. => false
  | .loadLevelling .. => false
  | .spawnRelease .. => false
  | .spawnStart .. => false
  | .stewardFeed .. => false
  | .actorLoadComplete .. => false
  | .messageArrival .. => false
  | .sendAnswer .. => false
  | .messageBusyResend .. => false
  | .deliveryTimeout .. => false
  | .messageResend .. => false
  | .messageIndeterminate .. => false
  | .signalArrival .. => false
  | .exitArrival .. => false
  | .downArrival .. => false
  | .childExitArrival .. => false
  | .bellwetherRestart .. => false
  | .killArrival .. => false
  | .death .. => false
  | .deathReclaim .. => false
  | .peerLinkRequest .. => false
  | .parcelReservation .. => false
  | .parcelArrival .. => false
  | .accessAtOwner .. => false
  | .accessAnswer .. => false
  | .accessBusyResend .. => false
  | .accessRetry .. => false
  | .accessIndeterminate .. => false
  | .plbRefill .. => false
  | .faultTicket .. => false
  | .replayNotice .. => false
  | .replayAnswer .. => false
  | .ticketTimeout .. => false
  | .firstMapping .. => false
  | .shootdown .. => false
  | .directoryCollapse .. => false
  | .replicaDrop .. => false
  | .collapseComplete .. => false
  | .migrationBegin .. => false
  | .migrationEnd .. => false
  | .frameRetirement .. => false
  | .pageReclaim .. => false
  | .patrolScrub .. => false
  | .coreQuarantine .. => false
  | .matrixWithdrawal .. => false
  | .clusterWithdrawal .. => false
  | .memoryCoreWithdrawal .. => false
  | .powerSample .. => false
  | .counterSample .. => false
  | .counterRead .. => false
  | .counterProgram .. => false
  | .thresholdSet .. => false
  | .thresholdCancel .. => false
  | .topologyRegister .. => false
  | .topologyDeregister .. => false
  | .topologyReadUnit .. => false
  | .topologyReadGrant .. => false
  | .attestRegister .. => false
  | .attestDeregister .. => false
  | .quote .. => false
  | .logRead .. => false
  | .powerServiceRegister .. => false
  | .powerServiceDeregister .. => false
  | .cairnTake .. => false
  | .cairnMark .. => false
  | .cairnManifest .. => false
  | .cowGranuleCopy .. => false
  | .cowPageService .. => false
  | .cairnRestore .. => false
  | .powerFailRestore .. => false
  | .powerFailDiscard .. => false
  | .controlImageWindowExpiry .. => false
  | .powerStep .. => false
  | .powerStepFrame .. => false
  | .powerFailTrap .. => false
  | .packageReset .. => false
  | .resetFrame .. => false
  | .ready .. => false
  | .recoveryImage .. => false
  | .freeze .. => false
  | .freezeRelease .. => false
  | .debugUnlock .. => false
  | .linkModeChange .. => false
  | .linkHeartbeat .. => false
  | .packageLost .. => false
  | .directoryMapUpdate .. => false
  | .connectionOpen .. => false
  | .connectionClose .. => false
  | .launch .. => false
  | .hostMessage .. => false
  | .hostParcel .. => false
  | .hostRetransmit .. => false
  | .grantRequest .. => false
  | .replacementRequest .. => false
  | .replacementActivate .. => false
  | .hubWatchdogWrite .. => false
  | .revert .. => false
  | .replacementCommit .. => false
  | .hintRecordWrite .. => false
  | .exportTableWrite .. => false
  | .imageStoreWrite .. => false
  | .pageParking .. => false

end Sys2Proof
end

