-- ==== Sys2Proof/Decode.lean ====
section
/-! DEFINITION. Reading an instruction word (R227 to R235), in the order of R229, and writing one back. Decoding is total on any
word and refuses by name; fields are read here once, so that the machine never sees a raw encoding. -/

namespace Sys2Proof

/-- Where an instruction is available (R229, step 4): everywhere, on memory cores (DRAM instructions), or where MCMD is. -/
inductive Avail where
  | every
  | memoryCore
  | matrix
  deriving DecidableEq, Repr

/-- Why a word is no instruction (R229): the check that refuses it. Steps 5 and 6 carry where the instruction would be
available, because step 4 comes before them. -/
inductive Reject where
  | zeroOrOnes                  -- step 1, SUB 0x04
  | major                       -- step 2, SUB 0x01
  | function                    -- step 3, SUB 0x02
  | reserved (av : Avail)       -- step 5, SUB 0x03
  | register (av : Avail)       -- step 6, SUB 0x05
  deriving DecidableEq, Repr

/-- What decoding answers. -/
inductive Decoded where
  | ok (i : Instr)
  | bad (r : Reject)
  deriving DecidableEq, Repr

/-- Steps 5 and 6 of R229 for a word whose function is assigned: its fixed fields hold what the table gives, its other
fields hold no reserved value, and its registers are in range. -/
def settle (av : Avail) (fixedOk : Bool) (i : Instr) : Decoded :=
  if fixedOk then
    match i.fieldFault with
    | none => .ok i
    | some .reserved => .bad (.reserved av)
    | some .register => .bad (.register av)
  else .bad (.reserved av)

/-- Major 0x01, ALU (R231, R246): the function code selects the row. -/
def decode01 (d a b : Reg) (fn : BitVec 11) : Decoded :=
  match fn.toNat with
  | 0x000 => settle .every (true) (.add d a b)
  | 0x001 => settle .every (true) (.sub d a b)
  | 0x002 => settle .every (true) (.and d a b)
  | 0x003 => settle .every (true) (.or d a b)
  | 0x004 => settle .every (true) (.xor d a b)
  | 0x005 => settle .every (true) (.andn d a b)
  | 0x006 => settle .every (true) (.orn d a b)
  | 0x007 => settle .every (true) (.xnor d a b)
  | 0x008 => settle .every (true) (.sll d a b)
  | 0x009 => settle .every (true) (.srl d a b)
  | 0x00a => settle .every (true) (.sra d a b)
  | 0x00b => settle .every (true) (.rol d a b)
  | 0x00c => settle .every (true) (.ror d a b)
  | 0x00d => settle .every (true) (.slt d a b)
  | 0x00e => settle .every (true) (.sltu d a b)
  | 0x00f => settle .every (true) (.seq d a b)
  | 0x010 => settle .every (true) (.min d a b)
  | 0x011 => settle .every (true) (.max d a b)
  | 0x012 => settle .every (true) (.minu d a b)
  | 0x013 => settle .every (true) (.maxu d a b)
  | 0x014 => settle .every (true) (.mul d a b)
  | 0x015 => settle .every (true) (.mulh d a b)
  | 0x016 => settle .every (true) (.mulhu d a b)
  | 0x017 => settle .every (true) (.mulhsu d a b)
  | 0x018 => settle .every (true) (.div d a b)
  | 0x019 => settle .every (true) (.divu d a b)
  | 0x01a => settle .every (true) (.rem d a b)
  | 0x01b => settle .every (true) (.remu d a b)
  | 0x01c => settle .every (true) (.cmovz d a b)
  | 0x01d => settle .every (true) (.cmovn d a b)
  | 0x01e => settle .every (true) (.addw d a b)
  | 0x01f => settle .every (true) (.subw d a b)
  | 0x020 => settle .every (b == 0) (.clz d a)
  | 0x021 => settle .every (b == 0) (.ctz d a)
  | 0x022 => settle .every (b == 0) (.popc d a)
  | 0x023 => settle .every (b == 0) (.brev d a)
  | 0x024 => settle .every (b == 0) (.bswap d a)
  | 0x025 => settle .every (b == 0) (.sextb d a)
  | 0x026 => settle .every (b == 0) (.sexth d a)
  | 0x027 => settle .every (b == 0) (.sextw d a)
  | _ => .bad .function

/-- Major 0x03, FP (R232): the function code selects the row. -/
def decode03 (d a b : Reg) (fn : BitVec 11) : Decoded :=
  match (fn.extractLsb' 0 6).toNat with
  | 0x00 => settle .every (true) (.fadd d a b (fn.extractLsb' 9 2) (fn.extractLsb' 6 3))
  | 0x01 => settle .every (true) (.fsub d a b (fn.extractLsb' 9 2) (fn.extractLsb' 6 3))
  | 0x02 => settle .every (true) (.fmul d a b (fn.extractLsb' 9 2) (fn.extractLsb' 6 3))
  | 0x03 => settle .every (true) (.fdiv d a b (fn.extractLsb' 9 2) (fn.extractLsb' 6 3))
  | 0x04 => settle .every (b == 0) (.fsqrt d a (fn.extractLsb' 9 2) (fn.extractLsb' 6 3))
  | 0x05 => settle .every (true) (.fmin d a b (fn.extractLsb' 9 2) (fn.extractLsb' 6 3))
  | 0x06 => settle .every (true) (.fmax d a b (fn.extractLsb' 9 2) (fn.extractLsb' 6 3))
  | 0x07 => settle .every (true) (.fma d a b (fn.extractLsb' 9 2) (fn.extractLsb' 6 3))
  | 0x08 => settle .every (true) (.fms d a b (fn.extractLsb' 9 2) (fn.extractLsb' 6 3))
  | 0x09 => settle .every (true) (.fnma d a b (fn.extractLsb' 9 2) (fn.extractLsb' 6 3))
  | 0x10 => settle .every (fn &&& 0x1c0 == 0) (.feq d a b (fn.extractLsb' 9 2))
  | 0x11 => settle .every (fn &&& 0x1c0 == 0) (.flt d a b (fn.extractLsb' 9 2))
  | 0x12 => settle .every (fn &&& 0x1c0 == 0) (.fle d a b (fn.extractLsb' 9 2))
  | 0x13 => settle .every (b == 0 && fn &&& 0x1c0 == 0) (.fclass d a (fn.extractLsb' 9 2))
  | 0x14 => settle .every (fn &&& 0x1c0 == 0) (.fsgnj d a b (fn.extractLsb' 9 2))
  | 0x15 => settle .every (fn &&& 0x1c0 == 0) (.fsgnjn d a b (fn.extractLsb' 9 2))
  | 0x16 => settle .every (fn &&& 0x1c0 == 0) (.fsgnjx d a b (fn.extractLsb' 9 2))
  | _ => .bad .function

/-- Major 0x04, CVT (R232): the function code selects the row. -/
def decode04 (d a b : Reg) (fn : BitVec 11) : Decoded :=
  settle .every (b == 0) (.cvt d a (fn.extractLsb' 8 3) (fn.extractLsb' 4 4) (fn.extractLsb' 0 4))

/-- Major 0x0e, BFX (R233): the function code selects the row. -/
def decode0E (d a : Reg) (imm : BitVec 16) : Decoded :=
  match (imm.extractLsb' 14 2).toNat with
  | 0x0 => settle .every (imm &&& 0xc0 == 0) (.extu d a (imm.extractLsb' 8 6) (imm.extractLsb' 0 6))
  | 0x1 => settle .every (imm &&& 0xc0 == 0) (.exts d a (imm.extractLsb' 8 6) (imm.extractLsb' 0 6))
  | 0x2 => settle .every (imm &&& 0xc0 == 0) (.ins d a (imm.extractLsb' 8 6) (imm.extractLsb' 0 6))
  | _ => .bad .function

/-- Major 0x0f, SHI (R233): the function code selects the row. -/
def decode0F (d a : Reg) (imm : BitVec 16) : Decoded :=
  match (imm.extractLsb' 8 2).toNat with
  | 0x0 => settle .every (imm &&& 0xfcc0 == 0) (.slli d a (imm.extractLsb' 0 6))
  | 0x1 => settle .every (imm &&& 0xfcc0 == 0) (.srli d a (imm.extractLsb' 0 6))
  | 0x2 => settle .every (imm &&& 0xfcc0 == 0) (.srai d a (imm.extractLsb' 0 6))
  | 0x3 => settle .every (imm &&& 0xfcc0 == 0) (.rori d a (imm.extractLsb' 0 6))
  | _ => .bad .function

/-- Major 0x2e, MCMD (R231): the function code selects the row. -/
def decode2E (d a b : Reg) (fn : BitVec 11) : Decoded :=
  match fn.toNat with
  | 0x000 => settle .matrix (true) (.mcmd d a b)
  | _ => .bad .function

/-- Major 0x2f, COPY (R231): the function code selects the row. -/
def decode2F (d a b : Reg) (fn : BitVec 11) : Decoded :=
  match fn.toNat with
  | 0x000 => settle .every (d == 0 && b == 0) (.copy a)
  | 0x001 => settle .every (b == 0) (.copyNb d a)
  | 0x002 => settle .every (a == 0 && b == 0) (.cqpop d)
  | _ => .bad .function

/-- Major 0x30, COMMONS (R231, R280): the function code selects the row. -/
def decode30 (d a b : Reg) (fn : BitVec 11) : Decoded :=
  match fn.toNat with
  | 0x000 => settle .every (b == 0) (.cld d a)
  | 0x001 => settle .every (true) (.cldGe d a b)
  | 0x002 => settle .every (true) (.cldEq d a b)
  | 0x003 => settle .every (true) (.cldAcq d a b)
  | 0x004 => settle .every (b == 0) (.cver d a)
  | 0x008 => settle .every (b == 0) (.cstB d a)
  | 0x009 => settle .every (b == 0) (.cstH d a)
  | 0x00a => settle .every (b == 0) (.cstW d a)
  | 0x00b => settle .every (b == 0) (.cstD d a)
  | 0x00c => settle .every (b == 0) (.cstNl d a)
  | 0x00d => settle .every (b == 0) (.cstNh d a)
  | 0x00f => settle .every (b == 0) (.cstRel d a)
  | 0x010 => settle .every (true) (.caadd d a b)
  | 0x011 => settle .every (true) (.camin d a b)
  | 0x012 => settle .every (true) (.camax d a b)
  | 0x013 => settle .every (true) (.caminu d a b)
  | 0x014 => settle .every (true) (.camaxu d a b)
  | 0x015 => settle .every (true) (.caand d a b)
  | 0x016 => settle .every (true) (.caor d a b)
  | 0x017 => settle .every (true) (.caxor d a b)
  | 0x018 => settle .every (true) (.caswap d a b)
  | 0x019 => settle .every (true) (.cacas d a b)
  | 0x01a => settle .every (true) (.cafadd d a b)
  | 0x020 | 0x021 | 0x022 | 0x023 => settle .every (true) (.cdefer d a b (fn.extractLsb' 0 2))
  | 0x024 => settle .every (d == 0) (.crecl a b)
  | 0x025 => settle .every (true) (.creclR d a b)
  | 0x028 | 0x029 | 0x02a | 0x02b => settle .every (b == 0) (.carm d a (fn.extractLsb' 0 2))
  | 0x02c => settle .every (b == 0) (.cdisarm d a)
  | _ => .bad .function

/-- Major 0x31, DRAM (R231, R290): the function code selects the row. -/
def decode31 (d a b : Reg) (fn : BitVec 11) : Decoded :=
  match fn.toNat with
  | 0x000 => settle .memoryCore (b == 0) (.dldB d a)
  | 0x001 => settle .memoryCore (b == 0) (.dldH d a)
  | 0x002 => settle .memoryCore (b == 0) (.dldW d a)
  | 0x003 => settle .memoryCore (b == 0) (.dldD d a)
  | 0x008 => settle .memoryCore (b == 0) (.dstB d a)
  | 0x009 => settle .memoryCore (b == 0) (.dstH d a)
  | 0x00a => settle .memoryCore (b == 0) (.dstW d a)
  | 0x00b => settle .memoryCore (b == 0) (.dstD d a)
  | _ => .bad .function

/-- Major 0x32, FENCE (R233): the function code selects the row. -/
def decode32 (d a : Reg) (imm : BitVec 16) : Decoded :=
  match (imm.extractLsb' 12 4).toNat with
  | 0x0 => settle .every (d == 0 && a == 0 && imm &&& 0xfc8 == 0) (.fence (imm.extractLsb' 4 2) (imm.extractLsb' 0 3))
  | 0x1 => settle .every (d == 0 && a == 0 && imm &&& 0xfff == 0) (.efence)
  | _ => .bad .function

/-- Major 0x33, STREAM (R231, R292): the function code selects the row. -/
def decode33 (d a b : Reg) (fn : BitVec 11) : Decoded :=
  match fn.toNat with
  | 0x000 => settle .every (b == 0) (.sbindR d a)
  | 0x001 => settle .every (b == 0) (.sbindW d a)
  | 0x002 => settle .every (a == 0 && b == 0) (.sunbind d)
  | 0x004 => settle .every (b == 0) (.srd d a)
  | 0x005 => settle .every (b == 0) (.swr d a)
  | 0x006 => settle .every (a == 0 && b == 0) (.sclose d)
  | _ => .bad .function

/-- Major 0x34, ACTOR (R231, R297): the function code selects the row. -/
def decode34 (d a b : Reg) (fn : BitVec 11) : Decoded :=
  match fn.toNat with
  | 0x000 | 0x001 | 0x002 | 0x003 => settle .every (a == 0) (.recv d b (fn.extractLsb' 0 2))
  | 0x004 | 0x005 | 0x006 | 0x007 => settle .every (d == 0) (.send a b (fn.extractLsb' 0 2))
  | 0x008 | 0x009 | 0x00a | 0x00b => settle .every (true) (.sendNb d a b (fn.extractLsb' 0 2))
  | 0x00c | 0x00d | 0x00e | 0x00f => settle .every (true) (.sendi d a b (fn.extractLsb' 0 2))
  | 0x010 | 0x011 | 0x012 | 0x013 => settle .every (true) (.give d a b (fn.extractLsb' 0 2))
  | 0x014 => settle .every (b == 0) (.ralloc d a)
  | 0x015 => settle .every (d == 0 && b == 0) (.rfree a)
  | 0x016 => settle .every (b == 0) (.spawn d a)
  | 0x018 => settle .every (d == 0 && b == 0) (.link a)
  | 0x019 => settle .every (d == 0 && b == 0) (.unlink a)
  | 0x01a => settle .every (b == 0) (.monitor d a)
  | 0x01b => settle .every (d == 0 && b == 0) (.demon a)
  | 0x01c => settle .every (b == 0) (.trapex d a)
  | 0x01d => settle .every (d == 0 && b == 0) (.kill a)
  | 0x01e => settle .every (d == 0) (.exit a b)
  | 0x020 => settle .every (d == 0 && a == 0 && b == 0) (.retire)
  | 0x021 => settle .every (d == 0 && b == 0) (.rets a)
  | 0x022 => settle .every (d == 0 && a == 0 && b == 0) (.yield)
  | 0x024 => settle .every (d == 0 && b == 0) (.tmset a)
  | 0x025 => settle .every (a == 0 && b == 0) (.tmcan d)
  | 0x028 => if b.getLsbD 3 then settle .every (b &&& 0x10 == 0) (.wixG d a (b.extractLsb' 0 3)) else settle .every (b &&& 0x10 == 0) (.wix d a (b.extractLsb' 0 3))
  | 0x02c => settle .every (b == 0) (.mtm d a)
  | 0x02d => settle .every (b == 0) (.mfm d a)
  | 0x02e => if b.getLsbD 0 then settle .every (a == 0 && b &&& 0x1e == 0) (.vtmlIn d) else settle .every (d == 0 && b &&& 0x1e == 0) (.vtml a)
  | 0x02f => if b.getLsbD 0 then settle .every (a == 0 && b &&& 0x1e == 0) (.vtmhIn d) else settle .every (d == 0 && b &&& 0x1e == 0) (.vtmh a)
  | 0x030 => settle .every (b == 0) (.mfs d a)
  | 0x038 => settle .every (b == 0) (.supset d a)
  | 0x039 => settle .every (b == 0) (.supdel d a)
  | 0x040 => settle .every (d == 0) (.pkill a b)
  | 0x044 | 0x045 | 0x046 | 0x047 => settle .every (d == 0) (.psend a b (fn.extractLsb' 0 2))
  | _ => .bad .function

/-- Major 0x35, CREG (R233): the function code selects the row. -/
def decode35 (d a : Reg) (imm : BitVec 16) : Decoded :=
  match (imm.extractLsb' 8 8).toNat with
  | 0x0 => settle .every (a == 0) (.mfcr d (imm.extractLsb' 0 8))
  | 0x1 =>
    match (imm.extractLsb' 0 8).toNat with
    | 0x4 => settle .every (d == 0) (.statusWrite a)
    | 0x5 => settle .every (d == 0) (.fpctlWrite a)
    | 0x7 => settle .every (d == 0) (.eperrWrite a)
    | 0x8 => settle .every (d == 0) (.vlenWrite a)
    | 0x13 => settle .every (d == 0) (.hmaskWrite a)
    | 0x16 => settle .every (d == 0) (.timerWrite a)
    | _ => settle .every (d == 0) (.mtcr a (imm.extractLsb' 0 8))
  | _ => .bad .function

/-- Major 0x37, WAITC (R234): the function code selects the row. -/
def decode37 (d a : Reg) (imm : BitVec 16) : Decoded :=
  settle .every (d.extractLsb' 3 2 == 0) (.waitc (d.extractLsb' 0 3 ++ a.extractLsb' 2 3) (a.extractLsb' 0 2 ++ imm.extractLsb' 12 4) (imm.extractLsb' 6 6) (imm.extractLsb' 0 6))

/-- Major 0x38, VINT (R235): the function code selects the row. -/
def decode38 (d a b : Reg) (fn : BitVec 11) : Decoded :=
  match (fn.extractLsb' 0 4).toNat with
  | 0x00 => settle .every (true) (.vadd d a b (fn.extractLsb' 8 3) (fn.extractLsb' 7 1) (fn.extractLsb' 6 1) (fn.extractLsb' 4 2))
  | 0x01 => settle .every (true) (.vsub d a b (fn.extractLsb' 8 3) (fn.extractLsb' 7 1) (fn.extractLsb' 6 1) (fn.extractLsb' 4 2))
  | 0x02 => settle .every (true) (.vmul d a b (fn.extractLsb' 8 3) (fn.extractLsb' 7 1) (fn.extractLsb' 6 1) (fn.extractLsb' 4 2))
  | 0x03 => settle .every (true) (.vmulh d a b (fn.extractLsb' 8 3) (fn.extractLsb' 7 1) (fn.extractLsb' 6 1) (fn.extractLsb' 4 2))
  | 0x04 => settle .every (true) (.vmin d a b (fn.extractLsb' 8 3) (fn.extractLsb' 7 1) (fn.extractLsb' 6 1) (fn.extractLsb' 4 2))
  | 0x05 => settle .every (true) (.vmax d a b (fn.extractLsb' 8 3) (fn.extractLsb' 7 1) (fn.extractLsb' 6 1) (fn.extractLsb' 4 2))
  | 0x06 => settle .every (true) (.vminu d a b (fn.extractLsb' 8 3) (fn.extractLsb' 7 1) (fn.extractLsb' 6 1) (fn.extractLsb' 4 2))
  | 0x07 => settle .every (true) (.vmaxu d a b (fn.extractLsb' 8 3) (fn.extractLsb' 7 1) (fn.extractLsb' 6 1) (fn.extractLsb' 4 2))
  | 0x08 => settle .every (true) (.vand d a b (fn.extractLsb' 8 3) (fn.extractLsb' 7 1) (fn.extractLsb' 6 1) (fn.extractLsb' 4 2))
  | 0x09 => settle .every (true) (.vor d a b (fn.extractLsb' 8 3) (fn.extractLsb' 7 1) (fn.extractLsb' 6 1) (fn.extractLsb' 4 2))
  | 0x0a => settle .every (true) (.vxor d a b (fn.extractLsb' 8 3) (fn.extractLsb' 7 1) (fn.extractLsb' 6 1) (fn.extractLsb' 4 2))
  | 0x0b => settle .every (true) (.vsll d a b (fn.extractLsb' 8 3) (fn.extractLsb' 7 1) (fn.extractLsb' 6 1) (fn.extractLsb' 4 2))
  | 0x0c => settle .every (true) (.vsrl d a b (fn.extractLsb' 8 3) (fn.extractLsb' 7 1) (fn.extractLsb' 6 1) (fn.extractLsb' 4 2))
  | 0x0d => settle .every (true) (.vsra d a b (fn.extractLsb' 8 3) (fn.extractLsb' 7 1) (fn.extractLsb' 6 1) (fn.extractLsb' 4 2))
  | 0x0e => settle .every (true) (.vadds d a b (fn.extractLsb' 8 3) (fn.extractLsb' 7 1) (fn.extractLsb' 6 1) (fn.extractLsb' 4 2))
  | 0x0f => settle .every (true) (.vsubs d a b (fn.extractLsb' 8 3) (fn.extractLsb' 7 1) (fn.extractLsb' 6 1) (fn.extractLsb' 4 2))
  | _ => .bad .function

/-- Major 0x39, VFP (R235): the function code selects the row. -/
def decode39 (d a b : Reg) (fn : BitVec 11) : Decoded :=
  match (fn.extractLsb' 0 4).toNat with
  | 0x00 => settle .every (true) (.vfadd d a b (fn.extractLsb' 8 3) (fn.extractLsb' 7 1) (fn.extractLsb' 6 1) (fn.extractLsb' 4 2))
  | 0x01 => settle .every (true) (.vfsub d a b (fn.extractLsb' 8 3) (fn.extractLsb' 7 1) (fn.extractLsb' 6 1) (fn.extractLsb' 4 2))
  | 0x02 => settle .every (true) (.vfmul d a b (fn.extractLsb' 8 3) (fn.extractLsb' 7 1) (fn.extractLsb' 6 1) (fn.extractLsb' 4 2))
  | 0x03 => settle .every (true) (.vfdiv d a b (fn.extractLsb' 8 3) (fn.extractLsb' 7 1) (fn.extractLsb' 6 1) (fn.extractLsb' 4 2))
  | 0x04 => settle .every (b == 0) (.vfsqrt d a (fn.extractLsb' 8 3) (fn.extractLsb' 7 1) (fn.extractLsb' 6 1) (fn.extractLsb' 4 2))
  | 0x05 => settle .every (true) (.vfmin d a b (fn.extractLsb' 8 3) (fn.extractLsb' 7 1) (fn.extractLsb' 6 1) (fn.extractLsb' 4 2))
  | 0x06 => settle .every (true) (.vfmax d a b (fn.extractLsb' 8 3) (fn.extractLsb' 7 1) (fn.extractLsb' 6 1) (fn.extractLsb' 4 2))
  | 0x07 => settle .every (true) (.vfma d a b (fn.extractLsb' 8 3) (fn.extractLsb' 7 1) (fn.extractLsb' 6 1) (fn.extractLsb' 4 2))
  | 0x08 => settle .every (true) (.vfeq d a b (fn.extractLsb' 8 3) (fn.extractLsb' 7 1) (fn.extractLsb' 6 1) (fn.extractLsb' 4 2))
  | 0x09 => settle .every (true) (.vflt d a b (fn.extractLsb' 8 3) (fn.extractLsb' 7 1) (fn.extractLsb' 6 1) (fn.extractLsb' 4 2))
  | 0x0a => settle .every (true) (.vfle d a b (fn.extractLsb' 8 3) (fn.extractLsb' 7 1) (fn.extractLsb' 6 1) (fn.extractLsb' 4 2))
  | 0x0b => settle .every (b == 0 && fn &&& 0x40 == 0) (.vfsum d a (fn.extractLsb' 8 3) (fn.extractLsb' 7 1) (fn.extractLsb' 4 2))
  | _ => .bad .function

/-- Major 0x3a, VRED (R235): the function code selects the row. -/
def decode3A (d a b : Reg) (fn : BitVec 11) : Decoded :=
  match (fn.extractLsb' 0 4).toNat with
  | 0x00 => settle .every (true) (.vceq d a b (fn.extractLsb' 8 3) (fn.extractLsb' 7 1) (fn.extractLsb' 6 1) (fn.extractLsb' 4 2))
  | 0x01 => settle .every (true) (.vclt d a b (fn.extractLsb' 8 3) (fn.extractLsb' 7 1) (fn.extractLsb' 6 1) (fn.extractLsb' 4 2))
  | 0x02 => settle .every (true) (.vcltu d a b (fn.extractLsb' 8 3) (fn.extractLsb' 7 1) (fn.extractLsb' 6 1) (fn.extractLsb' 4 2))
  | 0x03 => settle .every (b == 0 && fn &&& 0x40 == 0) (.vsum d a (fn.extractLsb' 8 3) (fn.extractLsb' 7 1) (fn.extractLsb' 4 2))
  | 0x04 => settle .every (b == 0 && fn &&& 0x40 == 0) (.vrmin d a (fn.extractLsb' 8 3) (fn.extractLsb' 7 1) (fn.extractLsb' 4 2))
  | 0x05 => settle .every (b == 0 && fn &&& 0x40 == 0) (.vrmax d a (fn.extractLsb' 8 3) (fn.extractLsb' 7 1) (fn.extractLsb' 4 2))
  | 0x06 => settle .every (b == 0 && fn &&& 0x40 == 0) (.vrminu d a (fn.extractLsb' 8 3) (fn.extractLsb' 7 1) (fn.extractLsb' 4 2))
  | 0x07 => settle .every (b == 0 && fn &&& 0x40 == 0) (.vrmaxu d a (fn.extractLsb' 8 3) (fn.extractLsb' 7 1) (fn.extractLsb' 4 2))
  | 0x08 => settle .every (fn &&& 0x30 == 0) (.vmand d a b (fn.extractLsb' 8 3) (fn.extractLsb' 7 1) (fn.extractLsb' 6 1))
  | 0x09 => settle .every (fn &&& 0x30 == 0) (.vmor d a b (fn.extractLsb' 8 3) (fn.extractLsb' 7 1) (fn.extractLsb' 6 1))
  | 0x0a => settle .every (fn &&& 0x30 == 0) (.vmxor d a b (fn.extractLsb' 8 3) (fn.extractLsb' 7 1) (fn.extractLsb' 6 1))
  | 0x0b => settle .every (b == 0 && fn &&& 0x30 == 0) (.vmnot d a (fn.extractLsb' 8 3) (fn.extractLsb' 7 1) (fn.extractLsb' 6 1))
  | 0x0c => settle .every (b == 0 && fn &&& 0x70 == 0) (.vmpop d a (fn.extractLsb' 8 3) (fn.extractLsb' 7 1))
  | _ => .bad .function

/-- Major 0x3b, VPERM (R235): the function code selects the row. -/
def decode3B (d a b : Reg) (fn : BitVec 11) : Decoded :=
  match (fn.extractLsb' 0 4).toNat with
  | 0x00 => settle .every (b == 0) (.vmov d a (fn.extractLsb' 8 3) (fn.extractLsb' 7 1) (fn.extractLsb' 6 1) (fn.extractLsb' 4 2))
  | 0x01 => settle .every (true) (.vsplat d a b (fn.extractLsb' 8 3) (fn.extractLsb' 7 1) (fn.extractLsb' 6 1) (fn.extractLsb' 4 2))
  | 0x02 => settle .every (fn &&& 0x740 == 0) (.vext d a b (fn.extractLsb' 7 1) (fn.extractLsb' 4 2))
  | 0x03 => settle .every (fn &&& 0x7c0 == 0) (.vins d a b (fn.extractLsb' 4 2))
  | 0x04 => settle .every (true) (.vperm d a b (fn.extractLsb' 8 3) (fn.extractLsb' 7 1) (fn.extractLsb' 6 1) (fn.extractLsb' 4 2))
  | 0x05 => settle .every (true) (.vslup d a b (fn.extractLsb' 8 3) (fn.extractLsb' 7 1) (fn.extractLsb' 6 1) (fn.extractLsb' 4 2))
  | 0x06 => settle .every (true) (.vsldn d a b (fn.extractLsb' 8 3) (fn.extractLsb' 7 1) (fn.extractLsb' 6 1) (fn.extractLsb' 4 2))
  | 0x07 => settle .every (true) (.vzip d a b (fn.extractLsb' 8 3) (fn.extractLsb' 7 1) (fn.extractLsb' 6 1) (fn.extractLsb' 4 2))
  | 0x08 => settle .every (true) (.vuzp d a b (fn.extractLsb' 8 3) (fn.extractLsb' 7 1) (fn.extractLsb' 6 1) (fn.extractLsb' 4 2))
  | 0x09 => settle .every (fn &&& 0x40 == 0) (.vsel d a b (fn.extractLsb' 8 3) (fn.extractLsb' 7 1) (fn.extractLsb' 4 2))
  | _ => .bad .function

/-- Major 0x3c, VMEM (R235): the function code selects the row. -/
noncomputable def decode3C (d a b : Reg) (fn : BitVec 11) : Decoded :=
  match (fn.extractLsb' 0 4).toNat with
  | 0x00 => settle .every (b == 0) (.vld d a (fn.extractLsb' 8 3) (fn.extractLsb' 7 1) (fn.extractLsb' 6 1) (fn.extractLsb' 4 2))
  | 0x01 => settle .every (b == 0 && fn &&& 0xc0 == 0) (.vst d a (fn.extractLsb' 8 3) (fn.extractLsb' 4 2))
  | 0x02 => settle .every (true) (.vlds d a b (fn.extractLsb' 8 3) (fn.extractLsb' 7 1) (fn.extractLsb' 6 1) (fn.extractLsb' 4 2))
  | 0x03 => settle .every (fn &&& 0xc0 == 0) (.vsts d a b (fn.extractLsb' 8 3) (fn.extractLsb' 4 2))
  | 0x04 => settle .every (true) (.vldg d a b (fn.extractLsb' 8 3) (fn.extractLsb' 7 1) (fn.extractLsb' 6 1) (fn.extractLsb' 4 2))
  | 0x05 => settle .every (fn &&& 0xc0 == 0) (.vstg d a b (fn.extractLsb' 8 3) (fn.extractLsb' 4 2))
  | 0x06 => settle .every (b == 0) (.vcld d a (fn.extractLsb' 8 3) (fn.extractLsb' 7 1) (fn.extractLsb' 6 1) (fn.extractLsb' 4 2))
  | 0x07 => settle .every (b == 0 && fn &&& 0x7e0 == 32) (.vcadd d a (fn.extractLsb' 4 1))
  | 0x08 => settle .memoryCore (b == 0) (.vdld d a (fn.extractLsb' 8 3) (fn.extractLsb' 7 1) (fn.extractLsb' 6 1) (fn.extractLsb' 4 2))
  | 0x09 => settle .memoryCore (b == 0 && fn &&& 0xc0 == 0) (.vdst d a (fn.extractLsb' 8 3) (fn.extractLsb' 4 2))
  | _ => .bad .function

/-- Major 0x3d, VQ (R235): the function code selects the row. -/
noncomputable def decode3D (d a b : Reg) (fn : BitVec 11) : Decoded :=
  match (fn.extractLsb' 0 4).toNat with
  | 0x00 => settle .every (b == 0 && fn &&& 0x7d0 == 0) (.vqntE4 d a (fn.extractLsb' 5 1))
  | 0x01 => settle .every (b == 0 && fn &&& 0x7d0 == 0) (.vqntE5 d a (fn.extractLsb' 5 1))
  | 0x02 => settle .every (fn &&& 0x7d0 == 0) (.vqntC4 d a b (fn.extractLsb' 5 1))
  | 0x04 => settle .every (b == 0 && fn &&& 0x7d0 == 0) (.vdqE4 d a (fn.extractLsb' 5 1))
  | 0x05 => settle .every (b == 0 && fn &&& 0x7d0 == 0) (.vdqE5 d a (fn.extractLsb' 5 1))
  | 0x06 => settle .every (fn &&& 0x7d0 == 0) (.vdqC4 d a b (fn.extractLsb' 5 1))
  | _ => .bad .function

/-- Steps 2 to 6 of R229: the major opcode selects the format and the table (R230). -/
noncomputable def decodeMajor (op : BitVec 6) (d a b : Reg) (fn : BitVec 11) : Decoded :=
  let imm : BitVec 16 := b ++ fn
  match op.toNat with
  | 0x01 => decode01 d a b fn
  | 0x03 => decode03 d a b fn
  | 0x04 => decode04 d a b fn
  | 0x08 => settle .every (true) (.addi d a imm)
  | 0x09 => settle .every (true) (.andi d a imm)
  | 0x0a => settle .every (true) (.ori d a imm)
  | 0x0b => settle .every (true) (.xori d a imm)
  | 0x0c => settle .every (true) (.slti d a imm)
  | 0x0d => settle .every (true) (.sltiu d a imm)
  | 0x0e => decode0E d a imm
  | 0x0f => decode0F d a imm
  | 0x10 => settle .every (a == 0) (.lui d imm)
  | 0x11 => settle .every (true) (.sloi d a imm)
  | 0x18 => settle .every (true) (.beq d a imm)
  | 0x19 => settle .every (true) (.bne d a imm)
  | 0x1a => settle .every (true) (.blt d a imm)
  | 0x1b => settle .every (true) (.bge d a imm)
  | 0x1c => settle .every (true) (.bltu d a imm)
  | 0x1d => settle .every (true) (.bgeu d a imm)
  | 0x1e => settle .every (a == 0) (.jal d imm)
  | 0x1f => settle .every (true) (.jalr d a imm)
  | 0x20 => settle .every (true) (.lb d a imm)
  | 0x21 => settle .every (true) (.lbu d a imm)
  | 0x22 => settle .every (true) (.lh d a imm)
  | 0x23 => settle .every (true) (.lhu d a imm)
  | 0x24 => settle .every (true) (.lw d a imm)
  | 0x25 => settle .every (true) (.lwu d a imm)
  | 0x26 => settle .every (true) (.ld d a imm)
  | 0x28 => settle .every (true) (.sb d a imm)
  | 0x29 => settle .every (true) (.sh d a imm)
  | 0x2a => settle .every (true) (.sw d a imm)
  | 0x2b => settle .every (true) (.sd d a imm)
  | 0x2c => settle .every (true) (.sn d a (imm.extractLsb' 1 15) (imm.extractLsb' 0 1))
  | 0x2e => decode2E d a b fn
  | 0x2f => decode2F d a b fn
  | 0x30 => decode30 d a b fn
  | 0x31 => decode31 d a b fn
  | 0x32 => decode32 d a imm
  | 0x33 => decode33 d a b fn
  | 0x34 => decode34 d a b fn
  | 0x35 => decode35 d a imm
  | 0x36 => settle .every (d == 0 && a == 0) (.breakTrap imm)
  | 0x37 => decode37 d a imm
  | 0x38 => decode38 d a b fn
  | 0x39 => decode39 d a b fn
  | 0x3a => decode3A d a b fn
  | 0x3b => decode3B d a b fn
  | 0x3c => decode3C d a b fn
  | 0x3d => decode3D d a b fn
  | _ => .bad .major

/-- The instruction that a word stands for, or the check of R229 that refuses it. -/
noncomputable def decode (w : W32) : Decoded :=
  if w = 0 ∨ w = BitVec.allOnes 32 then .bad .zeroOrOnes
  else decodeMajor (w.extractLsb' 26 6) (w.extractLsb' 21 5) (w.extractLsb' 16 5) (w.extractLsb' 11 5) (w.extractLsb' 0 11)

/-- A word in the register or the vector format (R227): OP, D, A, B and the low 11 bits. -/
def rWord (op : BitVec 6) (d a b : Reg) (fn : BitVec 11) : W32 := op ++ d ++ a ++ b ++ fn

/-- A word in the immediate, store or branch format (R227): OP, two register fields and 16 bits. -/
def iWord (op : BitVec 6) (d a : Reg) (imm : BitVec 16) : W32 := op ++ d ++ a ++ imm

/-- The word of an instruction, from the encoding tables of R227 to R235; an event has none. -/
def encode : Instr → Option W32
  | .add d a b => some (rWord 0x01 d a b (0 : BitVec 11))
  | .sub d a b => some (rWord 0x01 d a b (1 : BitVec 11))
  | .and d a b => some (rWord 0x01 d a b (2 : BitVec 11))
  | .or d a b => some (rWord 0x01 d a b (3 : BitVec 11))
  | .xor d a b => some (rWord 0x01 d a b (4 : BitVec 11))
  | .andn d a b => some (rWord 0x01 d a b (5 : BitVec 11))
  | .orn d a b => some (rWord 0x01 d a b (6 : BitVec 11))
  | .xnor d a b => some (rWord 0x01 d a b (7 : BitVec 11))
  | .sll d a b => some (rWord 0x01 d a b (8 : BitVec 11))
  | .srl d a b => some (rWord 0x01 d a b (9 : BitVec 11))
  | .sra d a b => some (rWord 0x01 d a b (10 : BitVec 11))
  | .rol d a b => some (rWord 0x01 d a b (11 : BitVec 11))
  | .ror d a b => some (rWord 0x01 d a b (12 : BitVec 11))
  | .slt d a b => some (rWord 0x01 d a b (13 : BitVec 11))
  | .sltu d a b => some (rWord 0x01 d a b (14 : BitVec 11))
  | .seq d a b => some (rWord 0x01 d a b (15 : BitVec 11))
  | .min d a b => some (rWord 0x01 d a b (16 : BitVec 11))
  | .max d a b => some (rWord 0x01 d a b (17 : BitVec 11))
  | .minu d a b => some (rWord 0x01 d a b (18 : BitVec 11))
  | .maxu d a b => some (rWord 0x01 d a b (19 : BitVec 11))
  | .mul d a b => some (rWord 0x01 d a b (20 : BitVec 11))
  | .mulh d a b => some (rWord 0x01 d a b (21 : BitVec 11))
  | .mulhu d a b => some (rWord 0x01 d a b (22 : BitVec 11))
  | .mulhsu d a b => some (rWord 0x01 d a b (23 : BitVec 11))
  | .div d a b => some (rWord 0x01 d a b (24 : BitVec 11))
  | .divu d a b => some (rWord 0x01 d a b (25 : BitVec 11))
  | .rem d a b => some (rWord 0x01 d a b (26 : BitVec 11))
  | .remu d a b => some (rWord 0x01 d a b (27 : BitVec 11))
  | .cmovz d a b => some (rWord 0x01 d a b (28 : BitVec 11))
  | .cmovn d a b => some (rWord 0x01 d a b (29 : BitVec 11))
  | .addw d a b => some (rWord 0x01 d a b (30 : BitVec 11))
  | .subw d a b => some (rWord 0x01 d a b (31 : BitVec 11))
  | .clz d a => some (rWord 0x01 d a (0 : BitVec 5) (32 : BitVec 11))
  | .ctz d a => some (rWord 0x01 d a (0 : BitVec 5) (33 : BitVec 11))
  | .popc d a => some (rWord 0x01 d a (0 : BitVec 5) (34 : BitVec 11))
  | .brev d a => some (rWord 0x01 d a (0 : BitVec 5) (35 : BitVec 11))
  | .bswap d a => some (rWord 0x01 d a (0 : BitVec 5) (36 : BitVec 11))
  | .sextb d a => some (rWord 0x01 d a (0 : BitVec 5) (37 : BitVec 11))
  | .sexth d a => some (rWord 0x01 d a (0 : BitVec 5) (38 : BitVec 11))
  | .sextw d a => some (rWord 0x01 d a (0 : BitVec 5) (39 : BitVec 11))
  | .addi d a i => some (iWord 0x08 d a i)
  | .andi d a i => some (iWord 0x09 d a i)
  | .ori d a i => some (iWord 0x0a d a i)
  | .xori d a i => some (iWord 0x0b d a i)
  | .slti d a i => some (iWord 0x0c d a i)
  | .sltiu d a i => some (iWord 0x0d d a i)
  | .extu d a l p => some (iWord 0x0e d a ((0 : BitVec 2) ++ l ++ (0 : BitVec 2) ++ p))
  | .exts d a l p => some (iWord 0x0e d a ((1 : BitVec 2) ++ l ++ (0 : BitVec 2) ++ p))
  | .ins d a l p => some (iWord 0x0e d a ((2 : BitVec 2) ++ l ++ (0 : BitVec 2) ++ p))
  | .slli d a n => some (iWord 0x0f d a ((0 : BitVec 10) ++ n))
  | .srli d a n => some (iWord 0x0f d a ((4 : BitVec 10) ++ n))
  | .srai d a n => some (iWord 0x0f d a ((8 : BitVec 10) ++ n))
  | .rori d a n => some (iWord 0x0f d a ((12 : BitVec 10) ++ n))
  | .lui d i => some (iWord 0x10 d 0 i)
  | .sloi d a i => some (iWord 0x11 d a i)
  | .fadd d a b f m => some (rWord 0x03 d a b (f ++ m ++ (0 : BitVec 6)))
  | .fsub d a b f m => some (rWord 0x03 d a b (f ++ m ++ (1 : BitVec 6)))
  | .fmul d a b f m => some (rWord 0x03 d a b (f ++ m ++ (2 : BitVec 6)))
  | .fdiv d a b f m => some (rWord 0x03 d a b (f ++ m ++ (3 : BitVec 6)))
  | .fsqrt d a f m => some (rWord 0x03 d a (0 : BitVec 5) (f ++ m ++ (4 : BitVec 6)))
  | .fmin d a b f m => some (rWord 0x03 d a b (f ++ m ++ (5 : BitVec 6)))
  | .fmax d a b f m => some (rWord 0x03 d a b (f ++ m ++ (6 : BitVec 6)))
  | .fma d a b f m => some (rWord 0x03 d a b (f ++ m ++ (7 : BitVec 6)))
  | .fms d a b f m => some (rWord 0x03 d a b (f ++ m ++ (8 : BitVec 6)))
  | .fnma d a b f m => some (rWord 0x03 d a b (f ++ m ++ (9 : BitVec 6)))
  | .feq d a b f => some (rWord 0x03 d a b (f ++ (16 : BitVec 9)))
  | .flt d a b f => some (rWord 0x03 d a b (f ++ (17 : BitVec 9)))
  | .fle d a b f => some (rWord 0x03 d a b (f ++ (18 : BitVec 9)))
  | .fclass d a f => some (rWord 0x03 d a (0 : BitVec 5) (f ++ (19 : BitVec 9)))
  | .fsgnj d a b f => some (rWord 0x03 d a b (f ++ (20 : BitVec 9)))
  | .fsgnjn d a b f => some (rWord 0x03 d a b (f ++ (21 : BitVec 9)))
  | .fsgnjx d a b f => some (rWord 0x03 d a b (f ++ (22 : BitVec 9)))
  | .cvt d a m t f => some (rWord 0x04 d a (0 : BitVec 5) (m ++ t ++ f))
  | .beq p q o => some (iWord 0x18 p q o)
  | .bne p q o => some (iWord 0x19 p q o)
  | .blt p q o => some (iWord 0x1a p q o)
  | .bge p q o => some (iWord 0x1b p q o)
  | .bltu p q o => some (iWord 0x1c p q o)
  | .bgeu p q o => some (iWord 0x1d p q o)
  | .jal d i => some (iWord 0x1e d 0 i)
  | .jalr d a i => some (iWord 0x1f d a i)
  | .codeEndTrap => none
  | .lb d a o => some (iWord 0x20 d a o)
  | .lbu d a o => some (iWord 0x21 d a o)
  | .lh d a o => some (iWord 0x22 d a o)
  | .lhu d a o => some (iWord 0x23 d a o)
  | .lw d a o => some (iWord 0x24 d a o)
  | .lwu d a o => some (iWord 0x25 d a o)
  | .ld d a o => some (iWord 0x26 d a o)
  | .sb t a o => some (iWord 0x28 t a o)
  | .sh t a o => some (iWord 0x29 t a o)
  | .sw t a o => some (iWord 0x2a t a o)
  | .sd t a o => some (iWord 0x2b t a o)
  | .sn t a o h => some (iWord 0x2c t a (o ++ h))
  | .cld d a => some (rWord 0x30 d a (0 : BitVec 5) (0 : BitVec 11))
  | .cldGe d a b => some (rWord 0x30 d a b (1 : BitVec 11))
  | .cldEq d a b => some (rWord 0x30 d a b (2 : BitVec 11))
  | .cldAcq d a b => some (rWord 0x30 d a b (3 : BitVec 11))
  | .cver d a => some (rWord 0x30 d a (0 : BitVec 5) (4 : BitVec 11))
  | .cstB t a => some (rWord 0x30 t a (0 : BitVec 5) (8 : BitVec 11))
  | .cstH t a => some (rWord 0x30 t a (0 : BitVec 5) (9 : BitVec 11))
  | .cstW t a => some (rWord 0x30 t a (0 : BitVec 5) (10 : BitVec 11))
  | .cstD t a => some (rWord 0x30 t a (0 : BitVec 5) (11 : BitVec 11))
  | .cstNl t a => some (rWord 0x30 t a (0 : BitVec 5) (12 : BitVec 11))
  | .cstNh t a => some (rWord 0x30 t a (0 : BitVec 5) (13 : BitVec 11))
  | .cstRel t a => some (rWord 0x30 t a (0 : BitVec 5) (15 : BitVec 11))
  | .caadd d a b => some (rWord 0x30 d a b (16 : BitVec 11))
  | .camin d a b => some (rWord 0x30 d a b (17 : BitVec 11))
  | .camax d a b => some (rWord 0x30 d a b (18 : BitVec 11))
  | .caminu d a b => some (rWord 0x30 d a b (19 : BitVec 11))
  | .camaxu d a b => some (rWord 0x30 d a b (20 : BitVec 11))
  | .caand d a b => some (rWord 0x30 d a b (21 : BitVec 11))
  | .caor d a b => some (rWord 0x30 d a b (22 : BitVec 11))
  | .caxor d a b => some (rWord 0x30 d a b (23 : BitVec 11))
  | .caswap d a b => some (rWord 0x30 d a b (24 : BitVec 11))
  | .cacas d a b => some (rWord 0x30 d a b (25 : BitVec 11))
  | .cafadd d a b => some (rWord 0x30 d a b (26 : BitVec 11))
  | .cdefer d a b c => some (rWord 0x30 d a b ((8 : BitVec 9) ++ c))
  | .crecl a b => some (rWord 0x30 0 a b (36 : BitVec 11))
  | .creclR d a b => some (rWord 0x30 d a b (37 : BitVec 11))
  | .carm d a c => some (rWord 0x30 d a (0 : BitVec 5) ((10 : BitVec 9) ++ c))
  | .cdisarm d a => some (rWord 0x30 d a (0 : BitVec 5) (44 : BitVec 11))
  | .dldB d a => some (rWord 0x31 d a (0 : BitVec 5) (0 : BitVec 11))
  | .dldH d a => some (rWord 0x31 d a (0 : BitVec 5) (1 : BitVec 11))
  | .dldW d a => some (rWord 0x31 d a (0 : BitVec 5) (2 : BitVec 11))
  | .dldD d a => some (rWord 0x31 d a (0 : BitVec 5) (3 : BitVec 11))
  | .dstB t a => some (rWord 0x31 t a (0 : BitVec 5) (8 : BitVec 11))
  | .dstH t a => some (rWord 0x31 t a (0 : BitVec 5) (9 : BitVec 11))
  | .dstW t a => some (rWord 0x31 t a (0 : BitVec 5) (10 : BitVec 11))
  | .dstD t a => some (rWord 0x31 t a (0 : BitVec 5) (11 : BitVec 11))
  | .fence s c => some (iWord 0x32 0 0 ((0 : BitVec 10) ++ s ++ (0 : BitVec 1) ++ c))
  | .efence => some (iWord 0x32 0 0 (4096 : BitVec 16))
  | .sbindR d a => some (rWord 0x33 d a (0 : BitVec 5) (0 : BitVec 11))
  | .sbindW d a => some (rWord 0x33 d a (0 : BitVec 5) (1 : BitVec 11))
  | .sunbind d => some (rWord 0x33 d 0 (0 : BitVec 5) (2 : BitVec 11))
  | .srd d a => some (rWord 0x33 d a (0 : BitVec 5) (4 : BitVec 11))
  | .swr d a => some (rWord 0x33 d a (0 : BitVec 5) (5 : BitVec 11))
  | .sclose d => some (rWord 0x33 d 0 (0 : BitVec 5) (6 : BitVec 11))
  | .waitc l s p m => some (iWord 0x37 ((0 : BitVec 2) ++ l.extractLsb' 3 3) (l.extractLsb' 0 3 ++ s.extractLsb' 4 2) (s.extractLsb' 0 4 ++ p ++ m))
  | .mcmd d a b => some (rWord 0x2e d a b (0 : BitVec 11))
  | .copy a => some (rWord 0x2f 0 a (0 : BitVec 5) (0 : BitVec 11))
  | .copyNb d a => some (rWord 0x2f d a (0 : BitVec 5) (1 : BitVec 11))
  | .cqpop d => some (rWord 0x2f d 0 (0 : BitVec 5) (2 : BitVec 11))
  | .recv d b c => some (rWord 0x34 d 0 b ((0 : BitVec 9) ++ c))
  | .send a b c => some (rWord 0x34 0 a b ((1 : BitVec 9) ++ c))
  | .sendNb d a b c => some (rWord 0x34 d a b ((2 : BitVec 9) ++ c))
  | .sendi d a b c => some (rWord 0x34 d a b ((3 : BitVec 9) ++ c))
  | .give d a b c => some (rWord 0x34 d a b ((4 : BitVec 9) ++ c))
  | .ralloc d a => some (rWord 0x34 d a (0 : BitVec 5) (20 : BitVec 11))
  | .rfree a => some (rWord 0x34 0 a (0 : BitVec 5) (21 : BitVec 11))
  | .spawn d a => some (rWord 0x34 d a (0 : BitVec 5) (22 : BitVec 11))
  | .link a => some (rWord 0x34 0 a (0 : BitVec 5) (24 : BitVec 11))
  | .unlink a => some (rWord 0x34 0 a (0 : BitVec 5) (25 : BitVec 11))
  | .monitor d a => some (rWord 0x34 d a (0 : BitVec 5) (26 : BitVec 11))
  | .demon a => some (rWord 0x34 0 a (0 : BitVec 5) (27 : BitVec 11))
  | .trapex d a => some (rWord 0x34 d a (0 : BitVec 5) (28 : BitVec 11))
  | .kill a => some (rWord 0x34 0 a (0 : BitVec 5) (29 : BitVec 11))
  | .exit a b => some (rWord 0x34 0 a b (30 : BitVec 11))
  | .retire => some (rWord 0x34 0 0 (0 : BitVec 5) (32 : BitVec 11))
  | .rets a => some (rWord 0x34 0 a (0 : BitVec 5) (33 : BitVec 11))
  | .yield => some (rWord 0x34 0 0 (0 : BitVec 5) (34 : BitVec 11))
  | .tmset a => some (rWord 0x34 0 a (0 : BitVec 5) (36 : BitVec 11))
  | .tmcan d => some (rWord 0x34 d 0 (0 : BitVec 5) (37 : BitVec 11))
  | .wix d a k => some (rWord 0x34 d a ((0 : BitVec 2) ++ k) (40 : BitVec 11))
  | .wixG d a l => some (rWord 0x34 d a ((1 : BitVec 2) ++ l) (40 : BitVec 11))
  | .mtm d a => some (rWord 0x34 d a (0 : BitVec 5) (44 : BitVec 11))
  | .mfm d a => some (rWord 0x34 d a (0 : BitVec 5) (45 : BitVec 11))
  | .vtml a => some (rWord 0x34 0 a (0 : BitVec 5) (46 : BitVec 11))
  | .vtmlIn d => some (rWord 0x34 d 0 (1 : BitVec 5) (46 : BitVec 11))
  | .vtmh a => some (rWord 0x34 0 a (0 : BitVec 5) (47 : BitVec 11))
  | .vtmhIn d => some (rWord 0x34 d 0 (1 : BitVec 5) (47 : BitVec 11))
  | .mfs d a => some (rWord 0x34 d a (0 : BitVec 5) (48 : BitVec 11))
  | .supset d a => some (rWord 0x34 d a (0 : BitVec 5) (56 : BitVec 11))
  | .supdel d a => some (rWord 0x34 d a (0 : BitVec 5) (57 : BitVec 11))
  | .pkill a b => some (rWord 0x34 0 a b (64 : BitVec 11))
  | .psend a b c => some (rWord 0x34 0 a b ((17 : BitVec 9) ++ c))
  | .mfcr d r => some (iWord 0x35 d 0 ((0 : BitVec 8) ++ r))
  | .mtcr a r => some (iWord 0x35 0 a ((1 : BitVec 8) ++ r))
  | .statusWrite a => some (iWord 0x35 0 a (260 : BitVec 16))
  | .fpctlWrite a => some (iWord 0x35 0 a (261 : BitVec 16))
  | .eperrWrite a => some (iWord 0x35 0 a (263 : BitVec 16))
  | .vlenWrite a => some (iWord 0x35 0 a (264 : BitVec 16))
  | .hmaskWrite a => some (iWord 0x35 0 a (275 : BitVec 16))
  | .timerWrite a => some (iWord 0x35 0 a (278 : BitVec 16))
  | .breakTrap i => some (iWord 0x36 0 0 i)
  | .vadd d a b s t m w => some (rWord 0x38 d a b (s ++ t ++ m ++ w ++ (0 : BitVec 4)))
  | .vsub d a b s t m w => some (rWord 0x38 d a b (s ++ t ++ m ++ w ++ (1 : BitVec 4)))
  | .vmul d a b s t m w => some (rWord 0x38 d a b (s ++ t ++ m ++ w ++ (2 : BitVec 4)))
  | .vmulh d a b s t m w => some (rWord 0x38 d a b (s ++ t ++ m ++ w ++ (3 : BitVec 4)))
  | .vmin d a b s t m w => some (rWord 0x38 d a b (s ++ t ++ m ++ w ++ (4 : BitVec 4)))
  | .vmax d a b s t m w => some (rWord 0x38 d a b (s ++ t ++ m ++ w ++ (5 : BitVec 4)))
  | .vminu d a b s t m w => some (rWord 0x38 d a b (s ++ t ++ m ++ w ++ (6 : BitVec 4)))
  | .vmaxu d a b s t m w => some (rWord 0x38 d a b (s ++ t ++ m ++ w ++ (7 : BitVec 4)))
  | .vand d a b s t m w => some (rWord 0x38 d a b (s ++ t ++ m ++ w ++ (8 : BitVec 4)))
  | .vor d a b s t m w => some (rWord 0x38 d a b (s ++ t ++ m ++ w ++ (9 : BitVec 4)))
  | .vxor d a b s t m w => some (rWord 0x38 d a b (s ++ t ++ m ++ w ++ (10 : BitVec 4)))
  | .vsll d a b s t m w => some (rWord 0x38 d a b (s ++ t ++ m ++ w ++ (11 : BitVec 4)))
  | .vsrl d a b s t m w => some (rWord 0x38 d a b (s ++ t ++ m ++ w ++ (12 : BitVec 4)))
  | .vsra d a b s t m w => some (rWord 0x38 d a b (s ++ t ++ m ++ w ++ (13 : BitVec 4)))
  | .vadds d a b s t m w => some (rWord 0x38 d a b (s ++ t ++ m ++ w ++ (14 : BitVec 4)))
  | .vsubs d a b s t m w => some (rWord 0x38 d a b (s ++ t ++ m ++ w ++ (15 : BitVec 4)))
  | .vfadd d a b s t m w => some (rWord 0x39 d a b (s ++ t ++ m ++ w ++ (0 : BitVec 4)))
  | .vfsub d a b s t m w => some (rWord 0x39 d a b (s ++ t ++ m ++ w ++ (1 : BitVec 4)))
  | .vfmul d a b s t m w => some (rWord 0x39 d a b (s ++ t ++ m ++ w ++ (2 : BitVec 4)))
  | .vfdiv d a b s t m w => some (rWord 0x39 d a b (s ++ t ++ m ++ w ++ (3 : BitVec 4)))
  | .vfsqrt d a s t m w => some (rWord 0x39 d a (0 : BitVec 5) (s ++ t ++ m ++ w ++ (4 : BitVec 4)))
  | .vfmin d a b s t m w => some (rWord 0x39 d a b (s ++ t ++ m ++ w ++ (5 : BitVec 4)))
  | .vfmax d a b s t m w => some (rWord 0x39 d a b (s ++ t ++ m ++ w ++ (6 : BitVec 4)))
  | .vfma d a b s t m w => some (rWord 0x39 d a b (s ++ t ++ m ++ w ++ (7 : BitVec 4)))
  | .vfeq d a b s t m w => some (rWord 0x39 d a b (s ++ t ++ m ++ w ++ (8 : BitVec 4)))
  | .vflt d a b s t m w => some (rWord 0x39 d a b (s ++ t ++ m ++ w ++ (9 : BitVec 4)))
  | .vfle d a b s t m w => some (rWord 0x39 d a b (s ++ t ++ m ++ w ++ (10 : BitVec 4)))
  | .vfsum d a s t w => some (rWord 0x39 d a (0 : BitVec 5) (s ++ t ++ (0 : BitVec 1) ++ w ++ (11 : BitVec 4)))
  | .vceq d a b s t m w => some (rWord 0x3a d a b (s ++ t ++ m ++ w ++ (0 : BitVec 4)))
  | .vclt d a b s t m w => some (rWord 0x3a d a b (s ++ t ++ m ++ w ++ (1 : BitVec 4)))
  | .vcltu d a b s t m w => some (rWord 0x3a d a b (s ++ t ++ m ++ w ++ (2 : BitVec 4)))
  | .vsum d a s t w => some (rWord 0x3a d a (0 : BitVec 5) (s ++ t ++ (0 : BitVec 1) ++ w ++ (3 : BitVec 4)))
  | .vrmin d a s t w => some (rWord 0x3a d a (0 : BitVec 5) (s ++ t ++ (0 : BitVec 1) ++ w ++ (4 : BitVec 4)))
  | .vrmax d a s t w => some (rWord 0x3a d a (0 : BitVec 5) (s ++ t ++ (0 : BitVec 1) ++ w ++ (5 : BitVec 4)))
  | .vrminu d a s t w => some (rWord 0x3a d a (0 : BitVec 5) (s ++ t ++ (0 : BitVec 1) ++ w ++ (6 : BitVec 4)))
  | .vrmaxu d a s t w => some (rWord 0x3a d a (0 : BitVec 5) (s ++ t ++ (0 : BitVec 1) ++ w ++ (7 : BitVec 4)))
  | .vmand d a b s t m => some (rWord 0x3a d a b (s ++ t ++ m ++ (8 : BitVec 6)))
  | .vmor d a b s t m => some (rWord 0x3a d a b (s ++ t ++ m ++ (9 : BitVec 6)))
  | .vmxor d a b s t m => some (rWord 0x3a d a b (s ++ t ++ m ++ (10 : BitVec 6)))
  | .vmnot d a s t m => some (rWord 0x3a d a (0 : BitVec 5) (s ++ t ++ m ++ (11 : BitVec 6)))
  | .vmpop d a s t => some (rWord 0x3a d a (0 : BitVec 5) (s ++ t ++ (12 : BitVec 7)))
  | .vmov d a s t m w => some (rWord 0x3b d a (0 : BitVec 5) (s ++ t ++ m ++ w ++ (0 : BitVec 4)))
  | .vsplat d a k s t m w => some (rWord 0x3b d a k (s ++ t ++ m ++ w ++ (1 : BitVec 4)))
  | .vext d a k t w => some (rWord 0x3b d a k ((0 : BitVec 3) ++ t ++ (0 : BitVec 1) ++ w ++ (2 : BitVec 4)))
  | .vins d a k w => some (rWord 0x3b d a k ((0 : BitVec 5) ++ w ++ (3 : BitVec 4)))
  | .vperm d a b s t m w => some (rWord 0x3b d a b (s ++ t ++ m ++ w ++ (4 : BitVec 4)))
  | .vslup d a k s t m w => some (rWord 0x3b d a k (s ++ t ++ m ++ w ++ (5 : BitVec 4)))
  | .vsldn d a k s t m w => some (rWord 0x3b d a k (s ++ t ++ m ++ w ++ (6 : BitVec 4)))
  | .vzip d a b s t m w => some (rWord 0x3b d a b (s ++ t ++ m ++ w ++ (7 : BitVec 4)))
  | .vuzp d a b s t m w => some (rWord 0x3b d a b (s ++ t ++ m ++ w ++ (8 : BitVec 4)))
  | .vsel d a b s t w => some (rWord 0x3b d a b (s ++ t ++ (0 : BitVec 1) ++ w ++ (9 : BitVec 4)))
  | .vld d a s t m w => some (rWord 0x3c d a (0 : BitVec 5) (s ++ t ++ m ++ w ++ (0 : BitVec 4)))
  | .vst d a s w => some (rWord 0x3c d a (0 : BitVec 5) (s ++ (0 : BitVec 2) ++ w ++ (1 : BitVec 4)))
  | .vlds d a b s t m w => some (rWord 0x3c d a b (s ++ t ++ m ++ w ++ (2 : BitVec 4)))
  | .vsts d a b s w => some (rWord 0x3c d a b (s ++ (0 : BitVec 2) ++ w ++ (3 : BitVec 4)))
  | .vldg d a b s t m w => some (rWord 0x3c d a b (s ++ t ++ m ++ w ++ (4 : BitVec 4)))
  | .vstg d a b s w => some (rWord 0x3c d a b (s ++ (0 : BitVec 2) ++ w ++ (5 : BitVec 4)))
  | .vcld d a s t m w => some (rWord 0x3c d a (0 : BitVec 5) (s ++ t ++ m ++ w ++ (6 : BitVec 4)))
  | .vcadd d a w => some (rWord 0x3c d a (0 : BitVec 5) ((1 : BitVec 6) ++ w ++ (7 : BitVec 4)))
  | .vdld d a s t m w => some (rWord 0x3c d a (0 : BitVec 5) (s ++ t ++ m ++ w ++ (8 : BitVec 4)))
  | .vdst d a s w => some (rWord 0x3c d a (0 : BitVec 5) (s ++ (0 : BitVec 2) ++ w ++ (9 : BitVec 4)))
  | .vqntE4 d a w => some (rWord 0x3d d a (0 : BitVec 5) ((0 : BitVec 5) ++ w ++ (0 : BitVec 5)))
  | .vqntE5 d a w => some (rWord 0x3d d a (0 : BitVec 5) ((0 : BitVec 5) ++ w ++ (1 : BitVec 5)))
  | .vqntC4 d a b w => some (rWord 0x3d d a b ((0 : BitVec 5) ++ w ++ (2 : BitVec 5)))
  | .vdqE4 d a w => some (rWord 0x3d d a (0 : BitVec 5) ((0 : BitVec 5) ++ w ++ (4 : BitVec 5)))
  | .vdqE5 d a w => some (rWord 0x3d d a (0 : BitVec 5) ((0 : BitVec 5) ++ w ++ (5 : BitVec 5)))
  | .vdqC4 d a b w => some (rWord 0x3d d a b ((0 : BitVec 5) ++ w ++ (6 : BitVec 5)))
  | .msync .. => none
  | .mclr .. => none
  | .mloadcb .. => none
  | .mringConfigure .. => none
  | .mringAdvance .. => none
  | .mchkCompare .. => none
  | .mchkNoCompare .. => none
  | .mmove .. => none
  | .mscale .. => none
  | .maddacc .. => none
  | .mstore .. => none
  | .mdrain .. => none
  | .mloadacc .. => none
  | .mmaBf16 .. => none
  | .mmaFp16 .. => none
  | .mmaE4e4 .. => none
  | .mmaE4e5 .. => none
  | .mmaE5e4 .. => none
  | .mmaE5e5 .. => none
  | .mmaC4c4 .. => none
  | .mmaC4e4 .. => none
  | .mmaE4c4 .. => none
  | .mmaS8s8 .. => none
  | .mmaN8s8 .. => none
  | .mdrainDelivery .. => none
  | .copyDramToRegion .. => none
  | .copyRegionToDram .. => none
  | .parcelHandOver .. => none
  | .slabScatter .. => none
  | .gather .. => none
  | .ringFeed .. => none
  | .ringFeedPublish .. => none
  | .streamRequest .. => none
  | .commonsBulkRead .. => none
  | .commonsBulkWrite .. => none
  | .fillRegion .. => none
  | .fillGlobal .. => none
  | .copyStart .. => none
  | .copyCompletion .. => none
  | .copyHostTimeout .. => none
  | .copyTicketTimeout .. => none
  | .firingStart .. => none
  | .gateOpen .. => none
  | .priorityAgeing .. => none
  | .watchdogExpiry .. => none
  | .timerExpiry .. => none
  | .preemptionRequest .. => none
  | .preemptionSave .. => none
  | .preemptionWithdraw .. => none
  | .resumption .. => none
  | .deferredTrap .. => none
  | .checkerReexecution .. => none
  | .loadLevelling .. => none
  | .spawnRelease .. => none
  | .spawnStart .. => none
  | .stewardFeed .. => none
  | .actorLoadComplete .. => none
  | .messageArrival .. => none
  | .sendAnswer .. => none
  | .messageBusyResend .. => none
  | .deliveryTimeout .. => none
  | .messageResend .. => none
  | .messageIndeterminate .. => none
  | .signalArrival .. => none
  | .exitArrival .. => none
  | .downArrival .. => none
  | .childExitArrival .. => none
  | .bellwetherRestart .. => none
  | .killArrival .. => none
  | .death .. => none
  | .deathReclaim .. => none
  | .peerLinkRequest .. => none
  | .parcelReservation .. => none
  | .parcelArrival .. => none
  | .accessAtOwner .. => none
  | .accessAnswer .. => none
  | .accessBusyResend .. => none
  | .accessRetry .. => none
  | .accessIndeterminate .. => none
  | .plbRefill .. => none
  | .faultTicket .. => none
  | .replayNotice .. => none
  | .replayAnswer .. => none
  | .ticketTimeout .. => none
  | .firstMapping .. => none
  | .shootdown .. => none
  | .directoryCollapse .. => none
  | .replicaDrop .. => none
  | .collapseComplete .. => none
  | .migrationBegin .. => none
  | .migrationEnd .. => none
  | .frameRetirement .. => none
  | .pageReclaim .. => none
  | .patrolScrub .. => none
  | .coreQuarantine .. => none
  | .matrixWithdrawal .. => none
  | .clusterWithdrawal .. => none
  | .memoryCoreWithdrawal .. => none
  | .powerSample .. => none
  | .counterSample .. => none
  | .counterRead .. => none
  | .counterProgram .. => none
  | .thresholdSet .. => none
  | .thresholdCancel .. => none
  | .topologyRegister .. => none
  | .topologyDeregister .. => none
  | .topologyReadUnit .. => none
  | .topologyReadGrant .. => none
  | .attestRegister .. => none
  | .attestDeregister .. => none
  | .quote .. => none
  | .logRead .. => none
  | .powerServiceRegister .. => none
  | .powerServiceDeregister .. => none
  | .cairnTake .. => none
  | .cairnMark .. => none
  | .cairnManifest .. => none
  | .cowGranuleCopy .. => none
  | .cowPageService .. => none
  | .cairnRestore .. => none
  | .powerFailRestore .. => none
  | .powerFailDiscard .. => none
  | .controlImageWindowExpiry .. => none
  | .powerStep .. => none
  | .powerStepFrame .. => none
  | .powerFailTrap .. => none
  | .packageReset .. => none
  | .resetFrame .. => none
  | .ready .. => none
  | .recoveryImage .. => none
  | .freeze .. => none
  | .freezeRelease .. => none
  | .debugUnlock .. => none
  | .linkModeChange .. => none
  | .linkHeartbeat .. => none
  | .packageLost .. => none
  | .directoryMapUpdate .. => none
  | .connectionOpen .. => none
  | .connectionClose .. => none
  | .launch .. => none
  | .hostMessage .. => none
  | .hostParcel .. => none
  | .hostRetransmit .. => none
  | .grantRequest .. => none
  | .replacementRequest .. => none
  | .replacementActivate .. => none
  | .hubWatchdogWrite .. => none
  | .revert .. => none
  | .replacementCommit .. => none
  | .hintRecordWrite .. => none
  | .exportTableWrite .. => none
  | .imageStoreWrite .. => none
  | .pageParking .. => none

/-- The instruction that this decoder reads from an instruction whose first `nbits` bits are `w`, numbered as the table numbers
them: an instruction is one 32-bit word (R227), little-endian in memory (R9), so bit 0 of `w` is bit 0 of the word. -/
noncomputable def decodeTableWord (_nbits w : Nat) : Option Instr :=
  match decode (BitVec.ofNat 32 w) with
  | .ok i => some i
  | .bad _ => none

end Sys2Proof
end

