-- ==== Sys2Proof/Machine/Fetch.lean ====
section
/-! DEFINITION. Fetching an instruction (R227, R259) and what a word that is no instruction does (R229). -/

namespace Sys2Proof.Machine

/-- The word at the program counter of the issuing thread set; none beyond the end of its code region. -/
def State.fetch (s : State) : Option W32 :=
  if s.me.inCode s.th.slot s.th.pc then some (s.me.wordAt s.th.pc) else none

/-- Whether the instructions of an availability class may execute for the issuing firing (R229 step 4): DRAM instructions on
memory cores only, MCMD on compute cores with STATUS.MXDECL set (R70). -/
def State.available (s : State) (av : Avail) : Bool :=
  match av with
  | .every => true
  | .memoryCore => coreIsMem s.cur
  | .matrix => !coreIsMem s.cur && s.th.status.getLsbD 2

/-- The sub-cause of ILLEGAL for a word that decoding refuses (R229). -/
def State.rejectSub (s : State) (r : Reject) : Nat :=
  match r with
  | .zeroOrOnes => 0x04
  | .major => 0x01
  | .function => 0x02
  | .reserved av => if s.available av then 0x03 else 0x06
  | .register av => if s.available av then 0x05 else 0x06

/-- CODE_END_TRAP (R259): The thread set traps REGION_DENY 0x05 where the sequential address lies beyond its code region's
end. -/
def evCodeEndTrap (s : State) : Option State :=
  if s.th.busy && !s.me.inCode s.th.slot s.th.pc then
    some (s.onMe fun k => k.takeTrap k.tset
      { reason := rRegionDeny, sub := 0x05, detail := BitVec.ofNat 32 (k.actor s.th.slot).code, va := s.th.pc, pc := s.th.pc,
        word := false })
  else none

/-- The meaning of CODE_END_TRAP. -/
def execCodeEndTrap (s : State) : Answer := .next ((evCodeEndTrap s).getD s)

/-- A word that is no instruction traps ILLEGAL (R229). -/
def State.reject (s : State) (r : Reject) : Answer := s.illegal (s.rejectSub r)

end Sys2Proof.Machine
end

