-- ==== Sys2Proof/Machine/Scalar.lean ====
section
/-! DEFINITION. The scalar integer instructions: ALU, immediate, bit-field and shift families (R244 to R250). -/

namespace Sys2Proof.Machine

/-- Bits 127:64 of the product of two 128-bit extensions (R246). -/
def highProduct (a b : BitVec 128) : W64 := (a * b).extractLsb' 64 64

/-- Signed quotient (R247): all ones for a zero divisor; −2^63 by −1 wraps to −2^63. -/
def divSigned (a b : W64) : W64 := if b = 0 then BitVec.allOnes 64 else a.sdiv b
/-- Unsigned quotient (R247). -/
def divUnsigned (a b : W64) : W64 := if b = 0 then BitVec.allOnes 64 else a / b
/-- Signed remainder with the sign of the dividend (R247). -/
def remSigned (a b : W64) : W64 := if b = 0 then a else a.srem b
/-- Unsigned remainder (R247). -/
def remUnsigned (a b : W64) : W64 := if b = 0 then a else a % b

/-- The shift amount, bits 5:0 (R246). -/
def amount (b : W64) : Nat := b.toNat % 64

/-- Leading zero bits (R246). -/
def leadingZeros (a : W64) : Nat := if a = 0 then 64 else 63 - Nat.log2 a.toNat
/-- Trailing zero bits (R246). -/
def trailingZeros (a : W64) : Nat := ((List.range 64).find? fun i => a.getLsbD i).getD 64
/-- One bits (R246). -/
def oneBits (a : W64) : Nat := (List.range 64).countP fun i => a.getLsbD i
/-- Byte i moved to byte 7 − i (R246). -/
def byteSwap (a : W64) : W64 := BitVec.ofNat 64 (ofBytes (toBytes 8 a.toNat).reverse)

/-- `SExt(16, IMM)` (R248). -/
def simm (i : BitVec 16) : W64 := i.signExtend 64
/-- IMM read as unsigned (R248). -/
def uimm (i : BitVec 16) : W64 := i.zeroExtend 64

/-- The field of EXTU and EXTS (R249), `len1` being LEN − 1. -/
def field (a : W64) (len1 pos : BitVec 6) : Nat := (a.toNat >>> pos.toNat) % 2 ^ (len1.toNat + 1)
/-- The mask of INS (R249). -/
def insMask (len1 pos : BitVec 6) : W64 := BitVec.ofNat 64 ((2 ^ (len1.toNat + 1) - 1) <<< pos.toNat)

/-- ADD (R246): Writes the sum of x[A] and x[B] modulo 2^64 to x[D]. -/
def execAdd (d a b : Reg) (s : State) : Answer :=
  alu2 d a b (fun x y => x + y) s

/-- SUB (R246): Writes x[A] minus x[B] modulo 2^64 to x[D]. -/
def execSub (d a b : Reg) (s : State) : Answer :=
  alu2 d a b (fun x y => x - y) s

/-- AND (R246): Bitwise and of x[A] and x[B]. -/
def execAnd (d a b : Reg) (s : State) : Answer :=
  alu2 d a b (fun x y => x &&& y) s

/-- OR (R246): Bitwise or of x[A] and x[B]. -/
def execOr (d a b : Reg) (s : State) : Answer :=
  alu2 d a b (fun x y => x ||| y) s

/-- XOR (R246): Bitwise xor of x[A] and x[B]. -/
def execXor (d a b : Reg) (s : State) : Answer :=
  alu2 d a b (fun x y => x ^^^ y) s

/-- ANDN (R246): x[A] and not x[B]. -/
def execAndn (d a b : Reg) (s : State) : Answer :=
  alu2 d a b (fun x y => x &&& ~~~y) s

/-- ORN (R246): x[A] or not x[B]. -/
def execOrn (d a b : Reg) (s : State) : Answer :=
  alu2 d a b (fun x y => x ||| ~~~y) s

/-- XNOR (R246): Not of x[A] xor x[B]. -/
def execXnor (d a b : Reg) (s : State) : Answer :=
  alu2 d a b (fun x y => ~~~(x ^^^ y)) s

/-- SLL (R246): Shifts x[A] left by x[B] bits 5:0. -/
def execSll (d a b : Reg) (s : State) : Answer :=
  alu2 d a b (fun x y => x <<< amount y) s

/-- SRL (R246): Shifts x[A] right logically by x[B] bits 5:0. -/
def execSrl (d a b : Reg) (s : State) : Answer :=
  alu2 d a b (fun x y => x >>> amount y) s

/-- SRA (R246): Shifts x[A] right arithmetically by x[B] bits 5:0. -/
def execSra (d a b : Reg) (s : State) : Answer :=
  alu2 d a b (fun x y => x.sshiftRight (amount y)) s

/-- ROL (R246): Rotates x[A] left by x[B] bits 5:0. -/
def execRol (d a b : Reg) (s : State) : Answer :=
  alu2 d a b (fun x y => x.rotateLeft (amount y)) s

/-- ROR (R246): Rotates x[A] right by x[B] bits 5:0. -/
def execRor (d a b : Reg) (s : State) : Answer :=
  alu2 d a b (fun x y => x.rotateRight (amount y)) s

/-- SLT (R246): Writes 1 when x[A] is less than x[B] signed, else 0. -/
def execSlt (d a b : Reg) (s : State) : Answer :=
  alu2 d a b (fun x y => ofBool64 (x.slt y)) s

/-- SLTU (R246): Writes 1 when x[A] is less than x[B] unsigned, else 0. -/
def execSltu (d a b : Reg) (s : State) : Answer :=
  alu2 d a b (fun x y => ofBool64 (x.ult y)) s

/-- SEQ (R246): Writes 1 when x[A] equals x[B], else 0. -/
def execSeq (d a b : Reg) (s : State) : Answer :=
  alu2 d a b (fun x y => ofBool64 (x == y)) s

/-- MIN (R246): Signed minimum of x[A] and x[B]. -/
def execMin (d a b : Reg) (s : State) : Answer :=
  alu2 d a b (fun x y => if x.slt y then x else y) s

/-- MAX (R246): Signed maximum of x[A] and x[B]. -/
def execMax (d a b : Reg) (s : State) : Answer :=
  alu2 d a b (fun x y => if x.slt y then y else x) s

/-- MINU (R246): Unsigned minimum of x[A] and x[B]. -/
def execMinu (d a b : Reg) (s : State) : Answer :=
  alu2 d a b (fun x y => if x.ult y then x else y) s

/-- MAXU (R246): Unsigned maximum of x[A] and x[B]. -/
def execMaxu (d a b : Reg) (s : State) : Answer :=
  alu2 d a b (fun x y => if x.ult y then y else x) s

/-- MUL (R246): Low 64 bits of the product of x[A] and x[B]. -/
def execMul (d a b : Reg) (s : State) : Answer :=
  alu2 d a b (fun x y => x * y) s

/-- MULH (R246): High 64 bits of the signed product. -/
def execMulh (d a b : Reg) (s : State) : Answer :=
  alu2 d a b (fun x y => highProduct (x.signExtend 128) (y.signExtend 128)) s

/-- MULHU (R246): High 64 bits of the unsigned product. -/
def execMulhu (d a b : Reg) (s : State) : Answer :=
  alu2 d a b (fun x y => highProduct (x.zeroExtend 128) (y.zeroExtend 128)) s

/-- MULHSU (R246): High 64 bits of signed x[A] times unsigned x[B]. -/
def execMulhsu (d a b : Reg) (s : State) : Answer :=
  alu2 d a b (fun x y => highProduct (x.signExtend 128) (y.zeroExtend 128)) s

/-- DIV (R247): Signed quotient truncated toward zero after a divider stall, never trapping. -/
def execDiv (d a b : Reg) (s : State) : Answer :=
  alu2 d a b divSigned s

/-- DIVU (R247): Unsigned quotient after a divider stall. -/
def execDivu (d a b : Reg) (s : State) : Answer :=
  alu2 d a b divUnsigned s

/-- REM (R247): Signed remainder with the dividend's sign after a divider stall. -/
def execRem (d a b : Reg) (s : State) : Answer :=
  alu2 d a b remSigned s

/-- REMU (R247): Unsigned remainder after a divider stall. -/
def execRemu (d a b : Reg) (s : State) : Answer :=
  alu2 d a b remUnsigned s

/-- CMOVZ (R246): Writes x[A] when x[B] is zero, else keeps x[D]. -/
def execCmovz (d a b : Reg) (s : State) : Answer :=
  alu3 d a b (fun x y z => if y = 0 then x else z) s

/-- CMOVN (R246): Writes x[A] when x[B] is nonzero, else keeps x[D]. -/
def execCmovn (d a b : Reg) (s : State) : Answer :=
  alu3 d a b (fun x y z => if y = 0 then z else x) s

/-- ADDW (R246): Sign-extended 32-bit sum. -/
def execAddw (d a b : Reg) (s : State) : Answer :=
  alu2 d a b (fun x y => sext64 32 (x + y).toNat) s

/-- SUBW (R246): Sign-extended 32-bit difference. -/
def execSubw (d a b : Reg) (s : State) : Answer :=
  alu2 d a b (fun x y => sext64 32 (x - y).toNat) s

/-- CLZ (R246): Counts leading zero bits of x[A]. -/
def execClz (d a : Reg) (s : State) : Answer :=
  alu1 d a (fun x => BitVec.ofNat 64 (leadingZeros x)) s

/-- CTZ (R246): Counts trailing zero bits of x[A]. -/
def execCtz (d a : Reg) (s : State) : Answer :=
  alu1 d a (fun x => BitVec.ofNat 64 (trailingZeros x)) s

/-- POPC (R246): Counts one bits of x[A]. -/
def execPopc (d a : Reg) (s : State) : Answer :=
  alu1 d a (fun x => BitVec.ofNat 64 (oneBits x)) s

/-- BREV (R246): Reverses the bit order of x[A]. -/
def execBrev (d a : Reg) (s : State) : Answer :=
  alu1 d a (fun x => x.reverse) s

/-- BSWAP (R246): Reverses the byte order of x[A]. -/
def execBswap (d a : Reg) (s : State) : Answer :=
  alu1 d a (fun x => byteSwap x) s

/-- SEXTB (R246): Sign-extends byte 0 of x[A]. -/
def execSextb (d a : Reg) (s : State) : Answer :=
  alu1 d a (fun x => sext64 8 x.toNat) s

/-- SEXTH (R246): Sign-extends halfword 0 of x[A]. -/
def execSexth (d a : Reg) (s : State) : Answer :=
  alu1 d a (fun x => sext64 16 x.toNat) s

/-- SEXTW (R246): Sign-extends word 0 of x[A]. -/
def execSextw (d a : Reg) (s : State) : Answer :=
  alu1 d a (fun x => sext64 32 x.toNat) s

/-- ADDI (R248): Adds the sign-extended immediate to x[A]. -/
def execAddi (d a : Reg) (i : BitVec 16) (s : State) : Answer :=
  alu1 d a (fun x => x + simm i) s

/-- ANDI (R248): Ands x[A] with the sign-extended immediate. -/
def execAndi (d a : Reg) (i : BitVec 16) (s : State) : Answer :=
  alu1 d a (fun x => x &&& simm i) s

/-- ORI (R248): Ors x[A] with the zero-extended immediate. -/
def execOri (d a : Reg) (i : BitVec 16) (s : State) : Answer :=
  alu1 d a (fun x => x ||| uimm i) s

/-- XORI (R248): Xors x[A] with the zero-extended immediate. -/
def execXori (d a : Reg) (i : BitVec 16) (s : State) : Answer :=
  alu1 d a (fun x => x ^^^ uimm i) s

/-- SLTI (R248): Signed compare of x[A] against the immediate. -/
def execSlti (d a : Reg) (i : BitVec 16) (s : State) : Answer :=
  alu1 d a (fun x => ofBool64 (x.slt (simm i))) s

/-- SLTIU (R248): Unsigned compare of x[A] against the sign-extended immediate. -/
def execSltiu (d a : Reg) (i : BitVec 16) (s : State) : Answer :=
  alu1 d a (fun x => ofBool64 (x.ult (simm i))) s

/-- EXTU (R249): Extracts a bit field of x[A] zero-extended. -/
def execExtu (d a : Reg) (l p : BitVec 6) (s : State) : Answer :=
  alu1 d a (fun x => BitVec.ofNat 64 (field x l p)) s

/-- EXTS (R249): Extracts a bit field of x[A] sign-extended. -/
def execExts (d a : Reg) (l p : BitVec 6) (s : State) : Answer :=
  alu1 d a (fun x => sext64 (l.toNat + 1) (field x l p)) s

/-- INS (R249): Inserts low bits of x[A] into a field of x[D]. -/
def execIns (d a : Reg) (l p : BitVec 6) (s : State) : Answer :=
  alu3 d a a (fun x _ z => (z &&& ~~~insMask l p) ||| ((x <<< p.toNat) &&& insMask l p)) s

/-- SLLI (R250): Shifts x[A] left by an immediate amount. -/
def execSlli (d a : Reg) (n : BitVec 6) (s : State) : Answer :=
  alu1 d a (fun x => x <<< n.toNat) s

/-- SRLI (R250): Shifts x[A] right logically by an immediate amount. -/
def execSrli (d a : Reg) (n : BitVec 6) (s : State) : Answer :=
  alu1 d a (fun x => x >>> n.toNat) s

/-- SRAI (R250): Shifts x[A] right arithmetically by an immediate amount. -/
def execSrai (d a : Reg) (n : BitVec 6) (s : State) : Answer :=
  alu1 d a (fun x => x.sshiftRight n.toNat) s

/-- RORI (R250): Rotates x[A] right by an immediate amount. -/
def execRori (d a : Reg) (n : BitVec 6) (s : State) : Answer :=
  alu1 d a (fun x => x.rotateRight n.toNat) s

/-- LUI (R248): Writes the immediate shifted left 16, sign-extended from 32 bits. -/
def execLui (d : Reg) (i : BitVec 16) (s : State) : Answer :=
  s.withX [d] fun _ => s.finish (·.writeX d (sext64 32 (i.toNat * 65536)))

/-- SLOI (R248): Shifts x[A] left 16 and ors in the immediate. -/
def execSloi (d a : Reg) (i : BitVec 16) (s : State) : Answer :=
  alu1 d a (fun x => (x <<< 16) ||| uimm i) s

end Sys2Proof.Machine
end

