-- ==== Sys2Proof/Machine/Fp.lean ====
section
/-! DEFINITION. Scalar floating point and conversions (R251 to R255), branches and jumps (R256 to R258). -/

namespace Sys2Proof.Machine

/-- A floating-point result of some source registers: they and the destination are present; flags are set even when the
destination is x0 (R244, R251). -/
def fpOp (d : Reg) (rs : List Reg) (s : State) (f : Thread → Nat × FFlags) : Answer :=
  s.withX (d :: rs) fun t => s.finish fun u => (u.writeX d (BitVec.ofNat 64 (f t).1)).addFlags (f t).2

/-- The number in a register under a format. -/
def Thread.num (t : Thread) (f : FFmt) (r : Reg) : Num := f.read (f.operand (t.readX r))

/-- A comparison: 0 or 1 in all 64 bits (R253). -/
def fpCompare (d a b : Reg) (fmt : BitVec 2) (s : State) (f : FFmt → Nat → Nat → Bool × FFlags) : Answer :=
  fpOp d [a, b] s fun t =>
    let r := f (scalarFmt fmt) ((scalarFmt fmt).operand (t.readX a)) ((scalarFmt fmt).operand (t.readX b))
    (if r.1 then 1 else 0, r.2)

/-- A sign injection: A with a sign made from the signs of A and B (R253). -/
def fpSign (d a b : Reg) (fmt : BitVec 2) (s : State) (f : Bool → Bool → Bool) : Answer :=
  fpOp d [a, b] s fun t =>
    let g := scalarFmt fmt
    let x := g.operand (t.readX a)
    let y := g.operand (t.readX b)
    (x % g.signBit + g.zero (f (x.testBit (g.eb + g.fb)) (y.testBit (g.eb + g.fb))), {})

/-- FADD (R252): Floating-point addition rounded once under the selected mode. -/
def execFadd (d a b : Reg) (f : BitVec 2) (m : BitVec 3) (s : State) : Answer :=
  fpOp d [a, b] s fun t =>
    (scalarFmt f).addNum (t.rounding m) (t.num (scalarFmt f) a) (t.num (scalarFmt f) b)

/-- FSUB (R252): Floating-point subtraction rounded once. -/
def execFsub (d a b : Reg) (f : BitVec 2) (m : BitVec 3) (s : State) : Answer :=
  fpOp d [a, b] s fun t =>
    (scalarFmt f).addNum (t.rounding m) (t.num (scalarFmt f) a) (t.num (scalarFmt f) b).neg

/-- FMUL (R252): Floating-point multiplication rounded once. -/
def execFmul (d a b : Reg) (f : BitVec 2) (m : BitVec 3) (s : State) : Answer :=
  fpOp d [a, b] s fun t =>
    (scalarFmt f).mulNum (t.rounding m) (t.num (scalarFmt f) a) (t.num (scalarFmt f) b)

/-- FDIV (R252): Floating-point division rounded once after a divider stall. -/
def execFdiv (d a b : Reg) (f : BitVec 2) (m : BitVec 3) (s : State) : Answer :=
  fpOp d [a, b] s fun t =>
    (scalarFmt f).divNum (t.rounding m) (t.num (scalarFmt f) a) (t.num (scalarFmt f) b)

/-- FSQRT (R252): Floating-point square root rounded once after a divider stall. -/
def execFsqrt (d a : Reg) (f : BitVec 2) (m : BitVec 3) (s : State) : Answer :=
  fpOp d [a] s fun t => (scalarFmt f).sqrtNum (t.rounding m) (t.num (scalarFmt f) a)

/-- FMIN (R253): Lesser of two floating-point values, ordering -0 below +0. -/
def execFmin (d a b : Reg) (f : BitVec 2) (_m : BitVec 3) (s : State) : Answer :=
  fpOp d [a, b] s fun t =>
    (scalarFmt f).minMax false ((scalarFmt f).operand (t.readX a)) ((scalarFmt f).operand (t.readX b))

/-- FMAX (R253): Greater of two floating-point values. -/
def execFmax (d a b : Reg) (f : BitVec 2) (_m : BitVec 3) (s : State) : Answer :=
  fpOp d [a, b] s fun t =>
    (scalarFmt f).minMax true ((scalarFmt f).operand (t.readX a)) ((scalarFmt f).operand (t.readX b))

/-- FMA (R252): Fused A times B plus D with one rounding. -/
def execFma (d a b : Reg) (f : BitVec 2) (m : BitVec 3) (s : State) : Answer :=
  fpOp d [a, b] s fun t =>
    (scalarFmt f).fmaNum (t.rounding m) false false (t.num (scalarFmt f) a) (t.num (scalarFmt f) b) (t.num (scalarFmt f) d)

/-- FMS (R252): Fused A times B minus D with one rounding. -/
def execFms (d a b : Reg) (f : BitVec 2) (m : BitVec 3) (s : State) : Answer :=
  fpOp d [a, b] s fun t =>
    (scalarFmt f).fmaNum (t.rounding m) false true (t.num (scalarFmt f) a) (t.num (scalarFmt f) b) (t.num (scalarFmt f) d)

/-- FNMA (R252): Fused minus A times B plus D with one rounding. -/
def execFnma (d a b : Reg) (f : BitVec 2) (m : BitVec 3) (s : State) : Answer :=
  fpOp d [a, b] s fun t =>
    (scalarFmt f).fmaNum (t.rounding m) true false (t.num (scalarFmt f) a) (t.num (scalarFmt f) b) (t.num (scalarFmt f) d)

/-- FEQ (R253): Writes 1 when the operands are equal. -/
def execFeq (d a b : Reg) (f : BitVec 2) (s : State) : Answer :=
  fpCompare d a b f s FFmt.feq

/-- FLT (R253): Writes 1 when A is less than B. -/
def execFlt (d a b : Reg) (f : BitVec 2) (s : State) : Answer :=
  fpCompare d a b f s FFmt.flt

/-- FLE (R253): Writes 1 when A is at most B. -/
def execFle (d a b : Reg) (f : BitVec 2) (s : State) : Answer :=
  fpCompare d a b f s FFmt.fle

/-- FCLASS (R253): Writes the one-hot class mask of A. -/
def execFclass (d a : Reg) (f : BitVec 2) (s : State) : Answer :=
  fpOp d [a] s fun t => ((scalarFmt f).fclass ((scalarFmt f).operand (t.readX a)), {})

/-- FSGNJ (R253): A with the sign of B. -/
def execFsgnj (d a b : Reg) (f : BitVec 2) (s : State) : Answer :=
  fpSign d a b f s fun _ y => y

/-- FSGNJN (R253): A with the inverted sign of B. -/
def execFsgnjn (d a b : Reg) (f : BitVec 2) (s : State) : Answer :=
  fpSign d a b f s fun _ y => !y

/-- FSGNJX (R253): A with its sign xored with B's sign. -/
def execFsgnjx (d a b : Reg) (f : BitVec 2) (s : State) : Answer :=
  fpSign d a b f s fun x y => x != y

/-! ## Conversions -/

/-- The IEEE format of a CVT type code below 4 (R232). -/
def cvtIeee (c : BitVec 4) : FFmt :=
  match c.toNat with
  | 0 => .fp64
  | 1 => .fp32
  | 2 => .fp16
  | _ => .bf16

/-- The narrow format of a CVT type code 4 or 5 (R232). -/
def cvtNarrow (c : BitVec 4) : NFmt := if c = 4 then .e4 else .e5

/-- Whether an integer type code is signed (R232). -/
def cvtSigned (c : BitVec 4) : Bool := decide (c.toNat < 12)
/-- Width of an integer type code (R232). -/
def cvtWidth (c : BitVec 4) : Nat := 8 * 2 ^ (c.toNat % 4)

/-- The value that an integer source type reads from a register (R254). -/
def intSource (c : BitVec 4) (x : W64) : Int :=
  if cvtSigned c then signed (cvtWidth c) x.toNat else (x.toNat % 2 ^ cvtWidth c : Nat)

/-- A permitted conversion (R223, R254, R255): the register result, FPCTL flags and QNTFLAGS flags. -/
def cvtValue (to_ src : BitVec 4) (rm : Nat) (x : W64) : W64 × FFlags × QFlags :=
  if WellFormed.isInt src then
    let r := ofInt (cvtIeee to_) rm (intSource src x)
    (BitVec.ofNat 64 r.1, r.2, {})
  else if WellFormed.isN8 src then
    (BitVec.ofNat 64 ((cvtNarrow src).toIeee (cvtIeee to_) (x.toNat % 256)), {}, {})
  else
    let c := (cvtIeee src).operand x
    if WellFormed.isInt to_ then
      let r := toInt (cvtIeee src) rm (cvtSigned to_) (cvtWidth to_) c
      (BitVec.ofInt 64 r.1, r.2.1, { sat := r.2.2 })
    else if WellFormed.isN8 to_ then
      let r := (cvtNarrow to_).ofIeee (cvtIeee src) c
      (BitVec.ofNat 64 r.1, {}, { sat := r.2.1, nan := r.2.2.1, inf := r.2.2.2 })
    else
      let r := convert (cvtIeee src) (cvtIeee to_) rm c
      (BitVec.ofNat 64 r.1, r.2, {})

/-- CVT (R254): Converts x[A] between the element types named by TO and FROM. -/
def execCvt (d a : Reg) (m : BitVec 3) (t f : BitVec 4) (s : State) : Answer :=
  s.withX [d, a] fun th =>
    let r := cvtValue t f (th.rounding m) (th.readX a)
    s.finish fun u => ((u.writeX d r.1).addFlags r.2.1).addQnt r.2.2

/-! ## Branches and jumps -/

/-- The target of a branch or JAL (R256, R257): modulo 2^20. -/
def relTarget (pc : W64) (off : BitVec 16) : W64 := (pc + (simm off <<< 2)) &&& 0xFFFFF

/-- Whether a target lies in the firing's code region (R258). -/
def State.inCode (s : State) (t : W64) : Bool := (s.me.regions.get {} s.self.code).covers t.toNat

/-- The trap of a target outside the code region (R258). -/
def State.badTarget (s : State) (t : W64) : Answer :=
  match s.me.findRegion s.th.slot t.toNat with
  | some (i, _) => s.trap rRegionDeny 0x04 i t
  | none => s.trap rRegionDeny 0x01 0xFFFFFFFF t

/-- Goes to a target, checked before anything is written (R258). -/
def State.jump (s : State) (t : W64) (f : Thread → Thread) : Answer :=
  if s.inCode t then .next (s.onTh fun u => { f u with pc := t }) else s.badTarget t

/-- A conditional branch (R256). -/
def branch (p q : Reg) (off : BitVec 16) (s : State) (taken : W64 → W64 → Bool) : Answer :=
  s.withX [p, q] fun t =>
    if taken (t.readX p) (t.readX q) then s.jump (relTarget t.pc off) id else s.finish id

/-- BEQ (R256): Branches when x[P] equals x[Q]. -/
def execBeq (p q : Reg) (o : BitVec 16) (s : State) : Answer :=
  branch p q o s fun x y => x == y

/-- BNE (R256): Branches when x[P] differs from x[Q]. -/
def execBne (p q : Reg) (o : BitVec 16) (s : State) : Answer :=
  branch p q o s fun x y => x != y

/-- BLT (R256): Branches when x[P] is less than x[Q] signed. -/
def execBlt (p q : Reg) (o : BitVec 16) (s : State) : Answer :=
  branch p q o s fun x y => x.slt y

/-- BGE (R256): Branches when x[P] is at least x[Q] signed. -/
def execBge (p q : Reg) (o : BitVec 16) (s : State) : Answer :=
  branch p q o s fun x y => !x.slt y

/-- BLTU (R256): Branches when x[P] is less than x[Q] unsigned. -/
def execBltu (p q : Reg) (o : BitVec 16) (s : State) : Answer :=
  branch p q o s fun x y => x.ult y

/-- BGEU (R256): Branches when x[P] is at least x[Q] unsigned. -/
def execBgeu (p q : Reg) (o : BitVec 16) (s : State) : Answer :=
  branch p q o s fun x y => !x.ult y

/-- JAL (R257): Jumps pc-relative and writes pc+4 to x[D]. -/
def execJal (d : Reg) (i : BitVec 16) (s : State) : Answer :=
  s.withX [d] fun t => s.jump (relTarget t.pc i) (·.writeX d (t.pc + 4))

/-- JALR (R257): Jumps to x[A] plus the immediate and writes pc+4 to x[D]. -/
def execJalr (d a : Reg) (i : BitVec 16) (s : State) : Answer :=
  s.withX [a, d] fun t =>
    let target := (t.readX a + simm i) &&& 0xFFFFF
    if target.toNat % 4 ≠ 0 then s.trap rMisalign 0 4 target
    else s.jump target (·.writeX d (t.pc + 4))

end Sys2Proof.Machine
end

