-- ==== Sys2Proof/Machine/Succession.lean ====
section
/-! DEFINITION. Succession: RETS (R45 to R48, R77, R78, R166 to R169, R310). -/

namespace Sys2Proof.Machine

/-! ## The inheritance mask (R166) -/

/-- What an inheritance mask keeps. -/
structure Keep where
  x : BitVec 32
  v : BitVec 32
  name : Bool
  cring : Bool
  mbox : Bool
  rings : BitVec 4
  accs : BitVec 8
  regs : BitVec 256
  newWi : Nat
  deriving DecidableEq, Repr

/-- The registers that no mask keeps: x0, x10, x11 and x12 (R77). -/
def neverKept : BitVec 32 := 0x1C01

/-- The mask that m0 to m7 hold. -/
def Keep.ofMsg (m : Vector W64 8) : Keep :=
  { x := m[0].setWidth 32 &&& ~~~neverKept, v := m[1].setWidth 32, name := m[2].getLsbD 14, cring := m[2].getLsbD 13,
    mbox := m[2].getLsbD 12, rings := BitVec.ofNat 4 (bits m[2].toNat 11 8), accs := m[2].setWidth 8,
    regs := m[6] ++ m[5] ++ m[4] ++ m[3], newWi := bits m[7].toNat 47 0 }

/-- Whether the reserved fields of a mask are zero. -/
def keepReserved (m : Vector W64 8) : Bool :=
  decide (m[0].toNat < 2 ^ 32) && decide (m[1].toNat < 2 ^ 32) && decide (m[2].toNat < 2 ^ 15) && decide (m[7].toNat < 2 ^ 48)

/-- The ring of an actor that a region-table entry belongs to. -/
def Actor.ringOf (a : Actor) (i : Nat) : Option Nat := [0, 1, 2, 3].find? fun r => (a.ring r).valid && (a.ring r).ridx == i

/-- Whether an entry follows a field of the mask other than RKEEP. -/
def Actor.ownField (a : Actor) (i : Nat) : Bool := i == a.code || i == a.mbox || i == a.cring || (a.ringOf i).isSome

/-- Step 1 of R167. -/
def Core.maskOk (k : Core) (slot : Nat) (m : Vector W64 8) : Bool :=
  let a := k.actor slot
  let kp := Keep.ofMsg m
  keepReserved m &&
    (List.range 256).all (fun i =>
      !kp.regs.getLsbD i || a.ownField i || (decide (i < 248) && (k.region i).valid && (k.region i).owner == slot)) &&
    (List.range 4).all fun r => !kp.rings.getLsbD r || (a.ring r).valid

/-- Whether an accumulator with a value passes to the successor: it is kept, and the actor has declared it. -/
def Actor.keepsAcc (a : Actor) (kp : Keep) (i : Nat) : Bool := kp.accs.getLsbD i && a.accDecl.getLsbD i

/-- Step 4 of R167: the first kept accumulator that the successor does not declare, or declares in another format. -/
def Actor.badAcc (a : Actor) (kp : Keep) (img : Image) : Option (Nat × Nat) :=
  (List.range 8).findSome? fun i =>
    if !kp.accs.getLsbD i then none
    else if !img.accDecl.getLsbD i then some (0x03, i)
    else if a.accDecl.getLsbD i && img.accFmt.getLsbD i != a.accFmt.getLsbD i then some (0x02, i)
    else none

/-- Step 5 of R167: the first kept ring whose shape the successor does not declare. -/
def Actor.badRing (a : Actor) (kp : Keep) (img : Image) : Option Nat :=
  (List.range 4).find? fun r =>
    kp.rings.getLsbD r &&
      match img.rings[r]? with
      | none => true
      | some d => !(d.rows == (a.ring r).rows && d.rowb == (a.ring r).rowb && d.depth == (a.ring r).depth)

/-! ## Room (R168) -/

/-- Whether a live region of the actor is kept. -/
def Actor.keepsRegion (a : Actor) (kp : Keep) (i : Nat) : Bool :=
  if i = a.code then false
  else if i = a.mbox then kp.mbox
  else if i = a.cring then kp.cring
  else
    match a.ringOf i with
    | some r => kp.rings.getLsbD r
    | none => kp.regs.getLsbD i

/-- The live regions of the actor that are not kept. -/
def Core.losesRegion (k : Core) (slot : Nat) (kp : Keep) (i : Nat) : Bool :=
  (k.regions.get {} i).liveOf slot && !(k.actor slot).keepsRegion kp i

/-- Uninherited regions are scrubbed and freed (R169). -/
def Core.vacate (k : Core) (slot : Nat) (kp : Keep) : Core :=
  k.regions.foldl (fun k1 p => if k.losesRegion slot kp p.1 then (k1.dropRegion p.1).scrub p.2.base p.2.size else k1) k

/-- The declaration of the successor that a kept region fills. -/
def Image.fills (img : Image) (e : RegEntry) : Option RegDecl :=
  if e.decl < 15 then (img.regions[e.decl]?).bind fun r => if r.kind = e.kind then some r else none else none

/-- Whether a region follows RKEEP. -/
def Core.plainRegion (k : Core) (slot i : Nat) : Bool :=
  (k.regions.get {} i).liveOf slot && !(k.actor slot).ownField i

/-- Kept regions are trimmed to their declarations and take their rights; those that fill none take DECL 15. -/
def Core.trim (k : Core) (slot : Nat) (img : Image) : Core :=
  k.regions.foldl (fun k1 p =>
    if !k.plainRegion slot p.1 then k1
    else
      match img.fills p.2 with
      | none => k1.onRegion p.1 fun e => { e with decl := 15 }
      | some r =>
        let k2 := if p.2.size > r.size then k1.scrub (p.2.base + r.size) (p.2.size - r.size) else k1
        k2.onRegion p.1 fun e => { e with size := Min.min e.size r.size, rd := r.rd, wr := r.wr }) k

/-- The kept region that fills a declaration. -/
def Core.filler (k : Core) (slot d : Nat) : Option (Nat × RegEntry) :=
  k.regions.find? fun p => k.plainRegion slot p.1 && p.2.decl == d

/-- A kept region that is smaller than its declaration grows in place, its tail reading zero. -/
def Core.grow (k : Core) (slot : Nat) (r : RegDecl) (d : Nat) : Option Core :=
  match k.filler slot d with
  | none => some k
  | some (i, e) =>
    if e.size ≥ r.size then some k
    else if k.runFree (e.base + e.size) (r.size - e.size) then
      some ((k.scrub (e.base + e.size) (r.size - e.size)).onRegion i fun e => { e with size := r.size })
    else none

/-- Kept regions grow in ascending declaration order: the core, or the declaration that finds no room. -/
def Core.growAll (k : Core) (slot : Nat) : List (RegDecl × Nat) → Except Nat Core
  | [] => .ok k
  | (r, d) :: rest =>
    match k.grow slot r d with
    | none => .error d
    | some k1 => k1.growAll slot rest

/-- What a successor needs room for once the kept parts stand. -/
def Core.restNeeds (k : Core) (slot : Nat) (kp : Keep) (img : Image) : List Need :=
  (img.needs slot).filter fun n =>
    if n.what < 15 then (k.filler slot n.what).isNone
    else if n.what = 17 then !kp.mbox
    else if n.what = 18 then !kp.cring
    else n.what = 16 || !kp.rings.getLsbD (n.what - 20)

/-- Step 6 of R167: the core as the commit will leave its regions, with the entries of what is new, or what finds no room. -/
def Core.makeRoom (k : Core) (slot : Nat) (kp : Keep) (img : Image) : Except Nat (List (Nat × Nat) × Core) :=
  let k1 := (k.vacate slot kp).trim slot img
  match k1.growAll slot img.regions.zipIdx with
  | .error d => .error d
  | .ok k2 =>
    match k2.allocAll (k2.restNeeds slot kp img) with
    | .error w => .error w
    | .ok (l, k3) =>
      let k4 : Core := { k3 with sups := k3.sups.filter fun p => p.2.slot != slot }
      if k4.freeSups.length < img.rules.length then .error 19 else .ok (l, k4)

/-! ## The commit (R45, R48, R77, R169) -/

/-- Whether a tile command of the predecessor is abandoned: it names an accumulator or a ring that is not inherited. -/
def Actor.losesCmd (a : Actor) (kp : Keep) (c : V256) : Bool :=
  (cmdAccs c).any (fun i => !a.keepsAcc kp i) || (cmdRings c).any fun r => !kp.rings.getLsbD r

/-- The registers that the successor's first firing finds (R77). -/
def Thread.bequeath (t : Thread) (kp : Keep) (fid : Nat) : Inherit :=
  { x := Vector.ofFn fun i => if kp.x.getLsbD i.val then t.x[i] else 0
    v := Vector.ofFn fun i => if kp.v.getLsbD i.val then t.v[i] else 0
    xp := t.xp ||| ~~~kp.x, vp := t.vp ||| ~~~kp.v, xkeep := kp.x, vkeep := kp.v, fid := fid }

/-- An access in flight passes to the successor's first firing (R77): a destination that is not inherited loses its value. -/
def Access.bequeath (a : Access) (kp : Keep) (fid : Nat) : Access :=
  let kept := fun (r : Nat) => if a.destV then kp.v.getLsbD (r % 32) else kp.x.getLsbD (r % 32)
  { a with fid := fid, drop1 := !kept a.dest, drop2 := a.destV && !kept (a.dest + 1) }

/-- The slot as the commit leaves it, but for its name. -/
def Actor.succeed (a : Actor) (kp : Keep) (img : Image) (l : List (Nat × Nat)) (t : Thread) (fid : Nat) (gate : Bool) : Actor :=
  let b := a.withImage img l
  { b with
    state := if gate then .gated else .idle
    gateName := if gate then a.name else 0
    mbox := if kp.mbox then a.mbox else indexOfNeed l 17
    cring := if kp.cring then a.cring else indexOfNeed l 18
    crDepth := if kp.cring then a.crDepth else img.crDepth
    crHead := if kp.cring then a.crHead else 0
    crCnt := if kp.cring then a.crCnt else 0
    rings := Vector.ofFn fun r =>
      if kp.rings.getLsbD r.val then a.ring r.val
      else ((img.rings[r.val]?).map fun d => d.ring (indexOfNeed l (20 + r.val))).getD {}
    acc := a.acc.filter fun e => a.keepsAcc kp (e.1 / 256)
    accUnchk := BitVec.ofNat 8 (packNat 1 ((List.range 8).map fun i => if a.keepsAcc kp i && a.accUnchk.getLsbD i then 1 else 0))
    hmask := 0, timer := 0, chkoff := false, popcnt := 0, inherit := some (t.bequeath kp fid), succ := true
    heldFault := t.deferred, heldErr := 0 }

/-- The core as the commit leaves it (R168, R169), from the core with room made. -/
def State.succeedCore (s : State) (k : Core) (slot : Nat) (t : Thread) (kp : Keep) (img : Image) (l : List (Nat × Nat)) (gate : Bool) :
    Core :=
  let k1 := s.loadCode k img (indexOfNeed l 16)
  let k2 := img.regions.zipIdx.foldl (fun k r => if (l.any (·.1 == r.2)) then s.loadInit k img r.1 (indexOfNeed l r.2) else k) k1
  let k3 := (k2.onActor slot fun a => a.succeed kp img l t s.serial gate).loadRules img slot (flockOf (k.actor slot).name)
  let k4 := if kp.mbox then k3 else k3.initMailbox slot img.depths
  let r := k4.anyRunnable slot
  let now := s.now s.cur
  let k5 := k4.onActor slot fun a =>
    { a with runnable := r, ready := if r then now else a.ready, agedAt := if r then now else a.agedAt }
  { k5 with accs := k5.accs.map fun a => if a.slot = slot ∧ a.fid = t.fid ∧ !a.orphan then a.bequeath kp s.serial else a }

/-- The requests and tile commands that a succession cuts short, and the MDRAINs of others into regions that are not inherited (R169). The
engines acknowledge within the commit, so that no entry keeps PEND (log 75). -/
def State.cutShort (s0 : State) (slot : Nat) (kp : Keep) : State :=
  let s := s0.stopDrains s0.cur (s0.me.actor slot).name (s0.me.actor slot).incarn (s0.me.losesRegion slot kp)
  let k := s.me
  let lost := fun (w : Vector W64 4) => k.regions.any fun p => k.losesRegion slot kp p.1 && namesRegion k slot p.1 w
  let s1 := s.onMe fun k =>
    ({ k with fifo := k.fifo.map fun r => if r.slot = slot ∧ r.parcel = none ∧ lost r.w then { r with cancelled := true } else r }
      : Core).abandon slot ((k.actor slot).losesCmd kp)
  s1.onEngine (engineOf s.cur) fun g =>
    { g with active := g.active.map fun j =>
        if j.core = s.cur ∧ j.slot = slot ∧ j.parcel = none ∧ (j.phase = .running ∨ j.phase = .filled) ∧ lost j.w then
          { j with phase := .ended 2 0 } else j }

/-- What an actor has under way at engines and in the network belongs to the actor under its new name (R122, R169): its copies, its MDRAINs
and its parcels. -/
def Payload.bequeath (p : Payload) (core slot : Nat) (old new : W64) : Payload :=
  match p with
  | .drain d => if d.core = core ∧ d.slot = slot ∧ d.name = old then .drain { d with name := new, inc := 0 } else p
  | .parcel q => if q.giverCore = core ∧ q.giver = old ∧ q.giverEntry.isSome then .parcel { q with giver := new, giverInc := 0 } else p
  | q => q

/-- The operations of an actor in flight pass to its new name. -/
def State.bequeath (s : State) (core slot : Nat) (old new : W64) : State :=
  let s1 := s.onCore core fun k =>
    { k with
      accs := k.accs.map fun a => if a.slot = slot ∧ !a.orphan then { a with name := new, inc := 0 } else a
      fifo := k.fifo.map fun r => if r.slot = slot ∧ r.name = old then { r with name := new } else r }
  let s2 := s1.onEngine (engineOf core) fun g =>
    { g with active := g.active.map fun j => if j.core = core ∧ j.slot = slot ∧ j.name = old then { j with name := new } else j }
  { s2 with net := s2.net.map fun p => (p.1, { p.2 with pay := p.2.pay.bequeath core slot old new }) }

/-- A packet's restart or held start, once a supervisor has taken another name. -/
def Payload.reparent (p : Payload) (old new : W64) : Payload :=
  match p with
  | .restart r => if r.supv = old then .restart { r with supv := new } else p
  | .feed e c => if e.supv = old then .feed { e with supv := new } c else p
  | q => q

/-- The children of an actor that takes a new name remain its children, and its restart scopes remain its own (R169). -/
def State.reparent (s : State) (old new : W64) : State :=
  { s with
    dir := s.dir.map fun p => if p.2.supv = old then (p.1, { p.2 with supv := new }) else p
    scopes := s.scopes.map fun c =>
      if c.supv = old then
        { c with supv := new, supvInc := 0, trigger := { c.trigger with dst := new, inc := 0 }
                 members := c.members.map fun r => { r with supv := new } }
      else c
    net := s.net.map fun p => (p.1, { p.2 with pay := p.2.pay.reparent old new })
    cores := s.cores.map fun p =>
      (p.1, { p.2 with spawns := p.2.spawns.map fun e => if e.supv = old then { e with supv := new } else e }) }

/-- The old name ends with SUCCEEDED and the new one is entered live under the same supervisor, with the actor's children
(R46, R162, R169). -/
def State.renamed (s : State) (slot : Nat) (kp : Keep) (img : Image) : State :=
  if kp.name then s
  else
    let a := s.actor s.cur slot
    let new := BitVec.ofNat 64 (flockOf a.name * 2 ^ 48 + kp.newWi)
    let supv := ((s.dirEntry a.name).map (·.supv)).getD 0
    let s1 := s.exitOf s.cur slot supv { name := a.name, inc := a.incarn, reason := rSucceeded, sub := 0, detail := 0 }
    let d : DirEntry := { name := new, inc := 0, state := 1, pkg := 0, die := 0, kind := 0, cidx := 0, slot := slot, supv := supv,
                          rrec := s1.serial }
    let rec_ : RestartRec := { image := BitVec.ofNat 64 img.ga, digest := s.measure img, msg := body8 [0, 0, a.name], sender := a.name
                               sinc := a.incarn }
    let s2 := { (s1.freeName a.name).setDir (d.at s.cur slot) with rrecs := s1.rrecs.put s1.serial rec_, serial := s1.serial + 1 }
    ((s2.reparent a.name new).bequeath s.cur slot a.name new).onActor s.cur slot fun a =>
      { a with name := new, incarn := 0, trapexit := false, fires := 0, traps := 0 }

/-- The commit of a RETS. -/
def State.commitRets (s : State) (kp : Keep) (img : Image) (l : List (Nat × Nat)) (k : Core) (t : Thread) : State :=
  let gate := ((s.flock (flockOf (k.actor t.slot).name)).map (·.gate)).getD false
  let s1 : State := { s.setCore s.cur (s.succeedCore k t.slot (t.land 1) kp img l gate) with serial := s.serial + 1 }
  s1.renamed t.slot kp img

/-- The trap of a successor that does not fit (R77, R167, R168). -/
def State.succShape (s : State) (sub detail : Nat) : Answer := s.trap rSuccShape sub detail

/-- Steps 6 and 7 of R167 and the commit. -/
def State.retsRoom (s : State) (t : Thread) (kp : Keep) (img : Image) : Answer :=
  let cut := (s.cutShort t.slot kp).letGoAll s.cur t.fid t.st
  let k := cut.me.endFiring s.me.tset (s.now s.cur) .idle
  match k.makeRoom t.slot kp img with
  | .error w => s.succShape 0x01 w
  | .ok (l, k1) =>
    if kp.name then .next (cut.commitRets kp img l k1 t)
    else
      let new := BitVec.ofNat 64 (flockOf s.self.name * 2 ^ 48 + kp.newWi)
      if !validIndex (s.widths s.self.name) kp.newWi then s.illegal 0x03
      else
        match (s.dirEntry new).map (·.state) with
        | none => .next (cut.commitRets kp img l k1 t)
        | some 2 => s.stall
        | some _ => s.illegal 0x03

/-- RETS (R310): Ends the firing by succession into a new image under an inheritance mask. No execute right is checked here or anywhere
(log 88). -/
def execRets (a : Reg) (s : State) : Answer :=
  s.withX [a] fun t =>
    let ga := t.readX a
    let kp := Keep.ofMsg t.m
    if !s.me.maskOk t.slot t.m then s.illegal 0x03
    else if !(gaValid ga.toNat && gaClass ga.toNat == 2) then s.trap rPlbDeny 0x01 0 ga (gaf := true)
    else
      match s.image ga.toNat (flockOf s.self.name) with
      | none => s.trap rIllegal 0x03 0 ga (gaf := true)
      | some img =>
        match s.errorTrap with
        | some r => r
        | none =>
          match s.self.badAcc kp img with
          | some (sub, i) => s.succShape sub i
          | none =>
            match s.self.badRing kp img with
            | some r => s.succShape 0x04 r
            | none => s.retsRoom t kp img

end Sys2Proof.Machine
end

