-- ==== Sys2Proof/Machine/Vector.lean ====
section
/-! DEFINITION. The vector instructions on registers: integer and floating-point lanes, reductions, mask logic, lane moves
(R262 to R270) and block quantisation (R275). -/

namespace Sys2Proof.Machine

/-! ## Integer lanes -/

/-- A lane shifted right with its sign (R264). -/
def sraLane (w a n : Nat) : Nat := wrapInt w (signed w a >>> n)

/-- A lane-by-lane saturating result: QNT_SAT is set when an active lane clamps (R264). -/
def vecSat (d a b : Reg) (msel : BitVec 3) (tp mp : BitVec 1) (w : Nat) (f : Int → Int → Int) (s : State) : Answer :=
  s.withV [a, b, d] [] msel fun t =>
    let r := fun i => satInt true w (f (signed w (lane w (t.readV a) i)) (signed w (lane w (t.readV b) i)))
    s.finish fun u =>
      (u.writeV d (t.lanes msel tp mp w (t.readV d) fun i => wrapInt w (r i).1)).addQnt
        { sat := (t.activeLanes msel w).any fun i => (r i).2 }

/-- VADD (R264): Lane-wise wrapping integer add. -/
def execVadd (d a b : Reg) (q : BitVec 3) (t m : BitVec 1) (w : BitVec 2) (s : State) : Answer :=
  vec2 d a b q t m (laneWidth w) (fun x y => x + y) s

/-- VSUB (R264): Lane-wise wrapping integer subtract. -/
def execVsub (d a b : Reg) (q : BitVec 3) (t m : BitVec 1) (w : BitVec 2) (s : State) : Answer :=
  vec2 d a b q t m (laneWidth w) (fun x y => x + (2 ^ laneWidth w - y)) s

/-- VMUL (R264): Lane-wise low product. -/
def execVmul (d a b : Reg) (q : BitVec 3) (t m : BitVec 1) (w : BitVec 2) (s : State) : Answer :=
  vec2 d a b q t m (laneWidth w) (fun x y => x * y) s

/-- VMULH (R264): Lane-wise signed high product. -/
def execVmulh (d a b : Reg) (q : BitVec 3) (t m : BitVec 1) (w : BitVec 2) (s : State) : Answer :=
  vec2 d a b q t m (laneWidth w) (fun x y => wrapInt (laneWidth w) ((signed (laneWidth w) x * signed (laneWidth w) y) >>> laneWidth w)) s

/-- VMIN (R264): Lane-wise signed minimum. -/
def execVmin (d a b : Reg) (q : BitVec 3) (t m : BitVec 1) (w : BitVec 2) (s : State) : Answer :=
  vec2 d a b q t m (laneWidth w) (fun x y => if signed (laneWidth w) x < signed (laneWidth w) y then x else y) s

/-- VMAX (R264): Lane-wise signed maximum. -/
def execVmax (d a b : Reg) (q : BitVec 3) (t m : BitVec 1) (w : BitVec 2) (s : State) : Answer :=
  vec2 d a b q t m (laneWidth w) (fun x y => if signed (laneWidth w) x < signed (laneWidth w) y then y else x) s

/-- VMINU (R264): Lane-wise unsigned minimum. -/
def execVminu (d a b : Reg) (q : BitVec 3) (t m : BitVec 1) (w : BitVec 2) (s : State) : Answer :=
  vec2 d a b q t m (laneWidth w) (fun x y => if x < y then x else y) s

/-- VMAXU (R264): Lane-wise unsigned maximum. -/
def execVmaxu (d a b : Reg) (q : BitVec 3) (t m : BitVec 1) (w : BitVec 2) (s : State) : Answer :=
  vec2 d a b q t m (laneWidth w) (fun x y => if x < y then y else x) s

/-- VAND (R264): Lane-wise and. -/
def execVand (d a b : Reg) (q : BitVec 3) (t m : BitVec 1) (w : BitVec 2) (s : State) : Answer :=
  vec2 d a b q t m (laneWidth w) (fun x y => x &&& y) s

/-- VOR (R264): Lane-wise or. -/
def execVor (d a b : Reg) (q : BitVec 3) (t m : BitVec 1) (w : BitVec 2) (s : State) : Answer :=
  vec2 d a b q t m (laneWidth w) (fun x y => x ||| y) s

/-- VXOR (R264): Lane-wise xor. -/
def execVxor (d a b : Reg) (q : BitVec 3) (t m : BitVec 1) (w : BitVec 2) (s : State) : Answer :=
  vec2 d a b q t m (laneWidth w) (fun x y => x ^^^ y) s

/-- VSLL (R264): Lane-wise left shift. -/
def execVsll (d a b : Reg) (q : BitVec 3) (t m : BitVec 1) (w : BitVec 2) (s : State) : Answer :=
  vec2 d a b q t m (laneWidth w) (fun x y => x <<< (y % laneWidth w)) s

/-- VSRL (R264): Lane-wise logical right shift. -/
def execVsrl (d a b : Reg) (q : BitVec 3) (t m : BitVec 1) (w : BitVec 2) (s : State) : Answer :=
  vec2 d a b q t m (laneWidth w) (fun x y => x >>> (y % laneWidth w)) s

/-- VSRA (R264): Lane-wise arithmetic right shift. -/
def execVsra (d a b : Reg) (q : BitVec 3) (t m : BitVec 1) (w : BitVec 2) (s : State) : Answer :=
  vec2 d a b q t m (laneWidth w) (fun x y => sraLane (laneWidth w) x (y % laneWidth w)) s

/-- VADDS (R264): Lane-wise saturating signed add. -/
def execVadds (d a b : Reg) (q : BitVec 3) (t m : BitVec 1) (w : BitVec 2) (s : State) : Answer :=
  vecSat d a b q t m (laneWidth w) (fun x y => x + y) s

/-- VSUBS (R264): Lane-wise saturating signed subtract. -/
def execVsubs (d a b : Reg) (q : BitVec 3) (t m : BitVec 1) (w : BitVec 2) (s : State) : Answer :=
  vecSat d a b q t m (laneWidth w) (fun x y => x - y) s

/-! ## Floating-point lanes -/

/-- A lane-by-lane floating-point result: the flags are the union over the active lanes (R265). -/
def vecFp (d : Reg) (rs : List Reg) (msel : BitVec 3) (tp mp : BitVec 1) (w : BitVec 2) (s : State)
    (f : Thread → Nat → Nat × FFlags) : Answer :=
  s.withV (d :: rs) [] msel fun t =>
    let fm := laneFmt w
    s.finish fun u =>
      (u.writeV d (t.lanes msel tp mp fm.width (t.readV d) fun i => (f t i).1)).addFlags
        ((t.activeLanes msel fm.width).foldl (fun fl i => fl.or (f t i).2) {})

/-- The number in a lane. -/
def Thread.laneNum (t : Thread) (w : BitVec 2) (r : Reg) (i : Nat) : Num :=
  (laneFmt w).read (lane (laneFmt w).width (t.readV r) i)

/-- A floating-point comparison into a mask (R267), with the flags of the active lanes. -/
def vecFpCompare (d a b : Reg) (msel : BitVec 3) (tp mp : BitVec 1) (w : BitVec 2) (s : State)
    (f : FFmt → Nat → Nat → Bool × FFlags) : Answer :=
  s.withV [a, b, d] [] msel fun t =>
    let fm := laneFmt w
    let r := fun i => f fm (lane fm.width (t.readV a) i) (lane fm.width (t.readV b) i)
    s.finish fun u =>
      (u.writeV d (t.maskResult msel tp mp (256 / fm.width) (t.readV d) fun i => (r i).1)).addFlags
        ((t.activeLanes msel fm.width).foldl (fun fl i => fl.or (r i).2) {})

/-- VFADD (R265): Lane-wise floating-point add. -/
def execVfadd (d a b : Reg) (q : BitVec 3) (t m : BitVec 1) (w : BitVec 2) (s : State) : Answer :=
  vecFp d [a, b] q t m w s fun th i =>
    (laneFmt w).addNum th.rm (th.laneNum w a i) (th.laneNum w b i)

/-- VFSUB (R265): Lane-wise floating-point subtract. -/
def execVfsub (d a b : Reg) (q : BitVec 3) (t m : BitVec 1) (w : BitVec 2) (s : State) : Answer :=
  vecFp d [a, b] q t m w s fun th i =>
    (laneFmt w).addNum th.rm (th.laneNum w a i) (th.laneNum w b i).neg

/-- VFMUL (R265): Lane-wise floating-point multiply. -/
def execVfmul (d a b : Reg) (q : BitVec 3) (t m : BitVec 1) (w : BitVec 2) (s : State) : Answer :=
  vecFp d [a, b] q t m w s fun th i =>
    (laneFmt w).mulNum th.rm (th.laneNum w a i) (th.laneNum w b i)

/-- VFDIV (R265): Lane-wise floating-point divide. -/
def execVfdiv (d a b : Reg) (q : BitVec 3) (t m : BitVec 1) (w : BitVec 2) (s : State) : Answer :=
  vecFp d [a, b] q t m w s fun th i =>
    (laneFmt w).divNum th.rm (th.laneNum w a i) (th.laneNum w b i)

/-- VFSQRT (R265): Lane-wise floating-point square root. -/
def execVfsqrt (d a : Reg) (q : BitVec 3) (t m : BitVec 1) (w : BitVec 2) (s : State) : Answer :=
  vecFp d [a] q t m w s fun th i => (laneFmt w).sqrtNum th.rm (th.laneNum w a i)

/-- VFMIN (R265): Lane-wise floating-point minimum. -/
def execVfmin (d a b : Reg) (q : BitVec 3) (t m : BitVec 1) (w : BitVec 2) (s : State) : Answer :=
  vecFp d [a, b] q t m w s fun th i =>
    (laneFmt w).minMax false (lane (laneFmt w).width (th.readV a) i) (lane (laneFmt w).width (th.readV b) i)

/-- VFMAX (R265): Lane-wise floating-point maximum. -/
def execVfmax (d a b : Reg) (q : BitVec 3) (t m : BitVec 1) (w : BitVec 2) (s : State) : Answer :=
  vecFp d [a, b] q t m w s fun th i =>
    (laneFmt w).minMax true (lane (laneFmt w).width (th.readV a) i) (lane (laneFmt w).width (th.readV b) i)

/-- VFMA (R265): Lane-wise fused multiply-add into v[D]. -/
def execVfma (d a b : Reg) (q : BitVec 3) (t m : BitVec 1) (w : BitVec 2) (s : State) : Answer :=
  vecFp d [a, b] q t m w s fun th i =>
    (laneFmt w).fmaNum th.rm false false (th.laneNum w a i) (th.laneNum w b i) (th.laneNum w d i)

/-- VFEQ (R267): Floating-point equality as a mask result. -/
def execVfeq (d a b : Reg) (q : BitVec 3) (t m : BitVec 1) (w : BitVec 2) (s : State) : Answer :=
  vecFpCompare d a b q t m w s FFmt.feq

/-- VFLT (R267): Floating-point less-than as a mask result. -/
def execVflt (d a b : Reg) (q : BitVec 3) (t m : BitVec 1) (w : BitVec 2) (s : State) : Answer :=
  vecFpCompare d a b q t m w s FFmt.flt

/-- VFLE (R267): Floating-point less-or-equal as a mask result. -/
def execVfle (d a b : Reg) (q : BitVec 3) (t m : BitVec 1) (w : BitVec 2) (s : State) : Answer :=
  vecFpCompare d a b q t m w s FFmt.fle

/-- `Add` of two tree places (R266): an absent place is passed over exactly; two values are added and rounded once. -/
def treeAdd (f : FFmt) (rm : Nat) (x y : Option Nat) (fl : FFlags) : Option Nat × FFlags :=
  match x, y with
  | none, y => (y, fl)
  | some x, none => (some x, fl)
  | some x, some y =>
    let r := f.addNum rm (f.read x) (f.read y)
    (some r.1, fl.or r.2)

/-- One level of the tree: neighbours are added in order. -/
def treeLevel (f : FFmt) (rm : Nat) : List (Option Nat) → FFlags → List (Option Nat) × FFlags
  | x :: y :: rest, fl =>
    let r := treeAdd f rm x y fl
    let rs := treeLevel f rm rest r.2
    (r.1 :: rs.1, rs.2)
  | l, fl => (l, fl)

/-- The pairwise tree of R266 over `2^n` places. -/
def treeSum (f : FFmt) (rm : Nat) : Nat → List (Option Nat) → FFlags → Option Nat × FFlags
  | 0, l, fl => (l.headD none, fl)
  | n + 1, l, fl =>
    let r := treeLevel f rm l fl
    treeSum f rm n r.1 r.2

/-- VFSUM (R266): Sums active lanes in a fixed pairwise tree into lane 0. -/
def execVfsum (d a : Reg) (q : BitVec 3) (t : BitVec 1) (w : BitVec 2) (s : State) : Answer :=
  s.withV [a, d] [] q fun th =>
    let f := laneFmt w
    let n := 256 / f.width
    let places := (List.range n).map fun i => if th.active q n i then some (lane f.width (th.readV a) i) else none
    let r := treeSum f th.rm (Nat.log2 n) places {}
    s.finish fun u => (u.writeV d (laneZero f.width t (th.readV d) (r.1.getD 0))).addFlags r.2

/-! ## Comparisons, reductions, mask logic -/

/-- An integer comparison into a mask (R267). -/
def vecCompare (d a b : Reg) (msel : BitVec 3) (tp mp : BitVec 1) (w : Nat) (f : Nat → Nat → Bool) (s : State) : Answer :=
  s.withV [a, b, d] [] msel fun t =>
    s.finish (·.writeV d (t.maskResult msel tp mp (256 / w) (t.readV d) fun i => f (lane w (t.readV a) i) (lane w (t.readV b) i)))

/-- A reduction of the active lanes into lane 0 (R268). -/
def vecReduce (d a : Reg) (msel : BitVec 3) (tp : BitVec 1) (w : Nat) (init : Nat) (f : Nat → Nat → Nat) (s : State) : Answer :=
  s.withV [a, d] [] msel fun t =>
    s.finish (·.writeV d (laneZero w tp (t.readV d) ((t.activeLanes msel w).foldl (fun x i => f x (lane w (t.readV a) i)) init)))

/-- Mask logic on bit positions 0 to 31 (R269). -/
def maskLogic (d : Reg) (rs : List Reg) (msel : BitVec 3) (tp mp : BitVec 1) (s : State) (f : Thread → Nat → Bool) : Answer :=
  s.withV (d :: rs) [] msel fun t => s.finish (·.writeV d (t.maskResult msel tp mp 32 (t.readV d) (f t)))

/-- VCEQ (R267): Integer equality as a mask result. -/
def execVceq (d a b : Reg) (q : BitVec 3) (t m : BitVec 1) (w : BitVec 2) (s : State) : Answer :=
  vecCompare d a b q t m (laneWidth w) (fun x y => decide (x = y)) s

/-- VCLT (R267): Signed less-than as a mask result. -/
def execVclt (d a b : Reg) (q : BitVec 3) (t m : BitVec 1) (w : BitVec 2) (s : State) : Answer :=
  vecCompare d a b q t m (laneWidth w) (fun x y => decide (signed (laneWidth w) x < signed (laneWidth w) y)) s

/-- VCLTU (R267): Unsigned less-than as a mask result. -/
def execVcltu (d a b : Reg) (q : BitVec 3) (t m : BitVec 1) (w : BitVec 2) (s : State) : Answer :=
  vecCompare d a b q t m (laneWidth w) (fun x y => decide (x < y)) s

/-- VSUM (R268): Sum of active lanes into lane 0 at width 64. -/
def execVsum (d a : Reg) (q : BitVec 3) (t : BitVec 1) (w : BitVec 2) (s : State) : Answer :=
  s.withV [a, d] [] q fun th =>
    let sum : Int := (th.activeLanes q (laneWidth w)).foldl (fun x i => x + signed (laneWidth w) (lane (laneWidth w) (th.readV a) i)) 0
    s.finish (·.writeV d (laneZero 64 t (th.readV d) (wrapInt 64 sum)))

/-- VRMIN (R268): Signed minimum of active lanes. -/
def execVrmin (d a : Reg) (q : BitVec 3) (t : BitVec 1) (w : BitVec 2) (s : State) : Answer :=
  vecReduce d a q t (laneWidth w) (2 ^ (laneWidth w - 1) - 1)
    (fun x y => if signed (laneWidth w) y < signed (laneWidth w) x then y else x) s

/-- VRMAX (R268): Signed maximum of active lanes. -/
def execVrmax (d a : Reg) (q : BitVec 3) (t : BitVec 1) (w : BitVec 2) (s : State) : Answer :=
  vecReduce d a q t (laneWidth w) (2 ^ (laneWidth w - 1))
    (fun x y => if signed (laneWidth w) x < signed (laneWidth w) y then y else x) s

/-- VRMINU (R268): Unsigned minimum of active lanes. -/
def execVrminu (d a : Reg) (q : BitVec 3) (t : BitVec 1) (w : BitVec 2) (s : State) : Answer :=
  vecReduce d a q t (laneWidth w) (2 ^ laneWidth w - 1) (fun x y => Min.min x y) s

/-- VRMAXU (R268): Unsigned maximum of active lanes. -/
def execVrmaxu (d a : Reg) (q : BitVec 3) (t : BitVec 1) (w : BitVec 2) (s : State) : Answer :=
  vecReduce d a q t (laneWidth w) 0 (fun x y => Max.max x y) s

/-- VMAND (R269): Mask and. -/
def execVmand (d a b : Reg) (q : BitVec 3) (t m : BitVec 1) (s : State) : Answer :=
  maskLogic d [a, b] q t m s fun th i => (th.readV a).getLsbD i && (th.readV b).getLsbD i

/-- VMOR (R269): Mask or. -/
def execVmor (d a b : Reg) (q : BitVec 3) (t m : BitVec 1) (s : State) : Answer :=
  maskLogic d [a, b] q t m s fun th i => (th.readV a).getLsbD i || (th.readV b).getLsbD i

/-- VMXOR (R269): Mask xor. -/
def execVmxor (d a b : Reg) (q : BitVec 3) (t m : BitVec 1) (s : State) : Answer :=
  maskLogic d [a, b] q t m s fun th i => (th.readV a).getLsbD i != (th.readV b).getLsbD i

/-- VMNOT (R269): Mask not. -/
def execVmnot (d a : Reg) (q : BitVec 3) (t m : BitVec 1) (s : State) : Answer :=
  maskLogic d [a] q t m s fun th i => !(th.readV a).getLsbD i

/-- VMPOP (R269): Counts set active mask positions. -/
def execVmpop (d a : Reg) (q : BitVec 3) (t : BitVec 1) (s : State) : Answer :=
  s.withV [a, d] [] q fun th =>
    let n := (List.range 32).countP fun i => th.active q 32 i && (th.readV a).getLsbD i
    s.finish (·.writeV d (laneZero 64 t (th.readV d) n))

/-! ## Lane moves -/

/-- A lane-by-lane move from some registers (R270). -/
def vecMove (d : Reg) (rs : List Reg) (msel : BitVec 3) (tp mp : BitVec 1) (w : BitVec 2) (s : State)
    (f : Thread → Nat → Nat) : Answer :=
  s.withV (d :: rs) [] msel fun t => s.finish (·.writeV d (t.lanes msel tp mp (laneWidth w) (t.readV d) (f t)))

/-- VMOV (R270): Copies active lanes. -/
def execVmov (d a : Reg) (q : BitVec 3) (t m : BitVec 1) (w : BitVec 2) (s : State) : Answer :=
  vecMove d [a] q t m w s fun th i => lane (laneWidth w) (th.readV a) i

/-- VSPLAT (R270): Broadcasts lane k to active lanes. -/
def execVsplat (d a k : Reg) (q : BitVec 3) (t m : BitVec 1) (w : BitVec 2) (s : State) : Answer :=
  vecMove d [a] q t m w s fun th _ => lane (laneWidth w) (th.readV a) k.toNat

/-- VEXT (R270): Extracts lane k into lane 0. -/
def execVext (d a k : Reg) (t : BitVec 1) (w : BitVec 2) (s : State) : Answer :=
  s.withV [a, d] [] 0 fun th =>
    s.finish (·.writeV d (laneZero (laneWidth w) t (th.readV d) (lane (laneWidth w) (th.readV a) k.toNat)))

/-- VINS (R270): Inserts lane 0 of v[A] into lane k. -/
def execVins (d a k : Reg) (w : BitVec 2) (s : State) : Answer :=
  s.withV [a, d] [] 0 fun th =>
    s.finish (·.writeV d (pack (laneWidth w) ((List.range (256 / laneWidth w)).map fun i =>
      if i = k.toNat then lane (laneWidth w) (th.readV a) 0 else lane (laneWidth w) (th.readV d) i)))

/-- VPERM (R270): Permutes lanes by an index vector. -/
def execVperm (d a b : Reg) (q : BitVec 3) (t m : BitVec 1) (w : BitVec 2) (s : State) : Answer :=
  vecMove d [a, b] q t m w s fun th i =>
    let j := lane (laneWidth w) (th.readV b) i
    if j < 256 / laneWidth w then lane (laneWidth w) (th.readV a) j else 0

/-- VSLUP (R270): Slides lanes up by k. -/
def execVslup (d a k : Reg) (q : BitVec 3) (t m : BitVec 1) (w : BitVec 2) (s : State) : Answer :=
  vecMove d [a] q t m w s fun th i => if i ≥ k.toNat then lane (laneWidth w) (th.readV a) (i - k.toNat) else 0

/-- VSLDN (R270): Slides lanes down by k. -/
def execVsldn (d a k : Reg) (q : BitVec 3) (t m : BitVec 1) (w : BitVec 2) (s : State) : Answer :=
  vecMove d [a] q t m w s fun th i =>
    if i + k.toNat < 256 / laneWidth w then lane (laneWidth w) (th.readV a) (i + k.toNat) else 0

/-- VZIP (R270): Interleaves the low halves of two registers. -/
def execVzip (d a b : Reg) (q : BitVec 3) (t m : BitVec 1) (w : BitVec 2) (s : State) : Answer :=
  vecMove d [a, b] q t m w s fun th i =>
    if i % 2 = 0 then lane (laneWidth w) (th.readV a) (i / 2) else lane (laneWidth w) (th.readV b) (i / 2)

/-- VUZP (R270): Gathers the even lanes of two registers. -/
def execVuzp (d a b : Reg) (q : BitVec 3) (t m : BitVec 1) (w : BitVec 2) (s : State) : Answer :=
  vecMove d [a, b] q t m w s fun th i =>
    if 2 * i < 256 / laneWidth w then lane (laneWidth w) (th.readV a) (2 * i)
    else lane (laneWidth w) (th.readV b) (2 * i - 256 / laneWidth w)

/-- VSEL (R270): Selects lanes from two registers by mask. -/
def execVsel (d a b : Reg) (q : BitVec 3) (t : BitVec 1) (w : BitVec 2) (s : State) : Answer :=
  s.withV [a, b, d] [] q fun th =>
    s.finish (·.writeV d (pack (laneWidth w) ((List.range (256 / laneWidth w)).map fun i =>
      if i ≥ th.bound (256 / laneWidth w) then (if t = 1 then 0 else lane (laneWidth w) (th.readV d) i)
      else if th.maskBit q i then lane (laneWidth w) (th.readV a) i else lane (laneWidth w) (th.readV b) i)))

/-! ## Block quantisation -/

/-- The IEEE format of a VQ instruction: W = 0 BF16, W = 2 FP32 (R275). -/
def vqFmt (w : BitVec 1) : FFmt := if w = 0 then .bf16 else .fp32

/-- The first `n` elements of the group at a register (R275). -/
def Thread.groupElems (t : Thread) (w : BitVec 1) (r : Reg) (n : Nat) : List Num :=
  let per := 256 / (vqFmt w).width
  (List.range n).map fun j => (vqFmt w).read (lane (vqFmt w).width (t.readV (r + BitVec.ofNat 5 (j / per))) (j % per))

/-- Writes the 32 elements of a group (R275). -/
def Thread.writeGroup (t : Thread) (w : BitVec 1) (r : Reg) (elems : List Nat) : Thread :=
  let per := 256 / (vqFmt w).width
  (List.range (WellFormed.groupLen w)).foldl (fun u i =>
    u.writeV (r + BitVec.ofNat 5 i) (pack (vqFmt w).width ((List.range per).map fun j => elems.getD (i * per + j) 0))) t

/-- VQNT of a block of VLEN elements (R275): codes of `cw` bits to v[D], the scale to v[D + 1]; with VLEN 0 nothing at all. -/
def quantise (d a : Reg) (w : BitVec 1) (cw : Nat) (rs : List Reg) (f : Thread → QFmt) (s : State) : Answer :=
  s.withV (regGroup a (WellFormed.groupLen w) ++ [d, d + 1] ++ rs) [] 0 fun t =>
    let n := t.vlen.toNat
    if n = 0 then s.finish id
    else
      match f t with
      | .c4 cb =>
        if cbValid cb then
          let r := quantBlock (.c4 cb) (t.groupElems w a n)
          s.finish fun u => ((u.writeV d (pack cw r.2.1)).writeV (d + 1) (BitVec.ofNat 256 r.1)).addQnt r.2.2
        else s.illegal 0x03
      | .n g =>
        let r := quantBlock (.n g) (t.groupElems w a n)
        s.finish fun u => ((u.writeV d (pack cw r.2.1)).writeV (d + 1) (BitVec.ofNat 256 r.1)).addQnt r.2.2

/-- VDQ of a block of VLEN elements (R225, R275): codes in v[A], scale in byte 0 of v[A + 1]; elements at or above VLEN are
written zero. -/
def dequantise (d a : Reg) (w : BitVec 1) (cw : Nat) (rs : List Reg) (valid : Thread → Bool) (decode : Thread → Nat → Num)
    (s : State) : Answer :=
  s.withV (regGroup d (WellFormed.groupLen w) ++ [a, a + 1] ++ rs) [] 0 fun t =>
    let n := t.vlen.toNat
    if n = 0 then s.finish id
    else if !valid t then s.illegal 0x03
    else
      let sc := lane 8 (t.readV (a + 1)) 0
      s.finish fun u => u.writeGroup w d ((List.range n).map fun j =>
        dequant (vqFmt w) sc (decode t (lane cw (t.readV a) j)))

/-- VQNT_E4 (R275): Quantises a block to N8E4 codes and an S8 scale. -/
def execVqntE4 (d a : Reg) (w : BitVec 1) (s : State) : Answer :=
  quantise d a w 8 [] (fun _ => .n .e4) s

/-- VQNT_E5 (R275): Quantises a block to N8E5 codes and an S8 scale. -/
def execVqntE5 (d a : Reg) (w : BitVec 1) (s : State) : Answer :=
  quantise d a w 8 [] (fun _ => .n .e5) s

/-- VQNT_C4 (R275): Quantises a block to C4 codes with a codebook. -/
def execVqntC4 (d a b : Reg) (w : BitVec 1) (s : State) : Answer :=
  quantise d a w 4 [b] (fun t => .c4 (t.readV b)) s

/-- VDQ_E4 (R275): Dequantises N8E4 codes under their scale. -/
def execVdqE4 (d a : Reg) (w : BitVec 1) (s : State) : Answer :=
  dequantise d a w 8 [] (fun _ => true) (fun _ c => NFmt.e4.read c) s

/-- VDQ_E5 (R275): Dequantises N8E5 codes under their scale. -/
def execVdqE5 (d a : Reg) (w : BitVec 1) (s : State) : Answer :=
  dequantise d a w 8 [] (fun _ => true) (fun _ c => NFmt.e5.read c) s

/-- VDQ_C4 (R275): Dequantises C4 codes with a codebook. -/
def execVdqC4 (d a b : Reg) (w : BitVec 1) (s : State) : Answer :=
  dequantise d a w 4 [b] (fun t => cbValid (t.readV b)) (fun t c => cbValue (t.readV b) c) s

end Sys2Proof.Machine
end

