-- ==== Sys2Proof/Machine/Dispatch.lean ====
section
/-! DEFINITION. The dispatch: one arm per row of the table, each one call of that row's meaning. -/

namespace Sys2Proof.Machine

def exec (i : Instr) (s : State) : Host.Outcome State Fault Refusal :=
  match i with
  | .add d a b => Sys2Proof.Machine.execAdd d a b s
  | .sub d a b => Sys2Proof.Machine.execSub d a b s
  | .and d a b => Sys2Proof.Machine.execAnd d a b s
  | .or d a b => Sys2Proof.Machine.execOr d a b s
  | .xor d a b => Sys2Proof.Machine.execXor d a b s
  | .andn d a b => Sys2Proof.Machine.execAndn d a b s
  | .orn d a b => Sys2Proof.Machine.execOrn d a b s
  | .xnor d a b => Sys2Proof.Machine.execXnor d a b s
  | .sll d a b => Sys2Proof.Machine.execSll d a b s
  | .srl d a b => Sys2Proof.Machine.execSrl d a b s
  | .sra d a b => Sys2Proof.Machine.execSra d a b s
  | .rol d a b => Sys2Proof.Machine.execRol d a b s
  | .ror d a b => Sys2Proof.Machine.execRor d a b s
  | .slt d a b => Sys2Proof.Machine.execSlt d a b s
  | .sltu d a b => Sys2Proof.Machine.execSltu d a b s
  | .seq d a b => Sys2Proof.Machine.execSeq d a b s
  | .min d a b => Sys2Proof.Machine.execMin d a b s
  | .max d a b => Sys2Proof.Machine.execMax d a b s
  | .minu d a b => Sys2Proof.Machine.execMinu d a b s
  | .maxu d a b => Sys2Proof.Machine.execMaxu d a b s
  | .mul d a b => Sys2Proof.Machine.execMul d a b s
  | .mulh d a b => Sys2Proof.Machine.execMulh d a b s
  | .mulhu d a b => Sys2Proof.Machine.execMulhu d a b s
  | .mulhsu d a b => Sys2Proof.Machine.execMulhsu d a b s
  | .div d a b => Sys2Proof.Machine.execDiv d a b s
  | .divu d a b => Sys2Proof.Machine.execDivu d a b s
  | .rem d a b => Sys2Proof.Machine.execRem d a b s
  | .remu d a b => Sys2Proof.Machine.execRemu d a b s
  | .cmovz d a b => Sys2Proof.Machine.execCmovz d a b s
  | .cmovn d a b => Sys2Proof.Machine.execCmovn d a b s
  | .addw d a b => Sys2Proof.Machine.execAddw d a b s
  | .subw d a b => Sys2Proof.Machine.execSubw d a b s
  | .clz d a => Sys2Proof.Machine.execClz d a s
  | .ctz d a => Sys2Proof.Machine.execCtz d a s
  | .popc d a => Sys2Proof.Machine.execPopc d a s
  | .brev d a => Sys2Proof.Machine.execBrev d a s
  | .bswap d a => Sys2Proof.Machine.execBswap d a s
  | .sextb d a => Sys2Proof.Machine.execSextb d a s
  | .sexth d a => Sys2Proof.Machine.execSexth d a s
  | .sextw d a => Sys2Proof.Machine.execSextw d a s
  | .addi d a imm => Sys2Proof.Machine.execAddi d a imm s
  | .andi d a imm => Sys2Proof.Machine.execAndi d a imm s
  | .ori d a imm => Sys2Proof.Machine.execOri d a imm s
  | .xori d a imm => Sys2Proof.Machine.execXori d a imm s
  | .slti d a imm => Sys2Proof.Machine.execSlti d a imm s
  | .sltiu d a imm => Sys2Proof.Machine.execSltiu d a imm s
  | .extu d a l p => Sys2Proof.Machine.execExtu d a l p s
  | .exts d a l p => Sys2Proof.Machine.execExts d a l p s
  | .ins d a l p => Sys2Proof.Machine.execIns d a l p s
  | .slli d a n => Sys2Proof.Machine.execSlli d a n s
  | .srli d a n => Sys2Proof.Machine.execSrli d a n s
  | .srai d a n => Sys2Proof.Machine.execSrai d a n s
  | .rori d a n => Sys2Proof.Machine.execRori d a n s
  | .lui d imm => Sys2Proof.Machine.execLui d imm s
  | .sloi d a imm => Sys2Proof.Machine.execSloi d a imm s
  | .fadd d a b f m => Sys2Proof.Machine.execFadd d a b f m s
  | .fsub d a b f m => Sys2Proof.Machine.execFsub d a b f m s
  | .fmul d a b f m => Sys2Proof.Machine.execFmul d a b f m s
  | .fdiv d a b f m => Sys2Proof.Machine.execFdiv d a b f m s
  | .fsqrt d a f m => Sys2Proof.Machine.execFsqrt d a f m s
  | .fmin d a b f m => Sys2Proof.Machine.execFmin d a b f m s
  | .fmax d a b f m => Sys2Proof.Machine.execFmax d a b f m s
  | .fma d a b f m => Sys2Proof.Machine.execFma d a b f m s
  | .fms d a b f m => Sys2Proof.Machine.execFms d a b f m s
  | .fnma d a b f m => Sys2Proof.Machine.execFnma d a b f m s
  | .feq d a b f => Sys2Proof.Machine.execFeq d a b f s
  | .flt d a b f => Sys2Proof.Machine.execFlt d a b f s
  | .fle d a b f => Sys2Proof.Machine.execFle d a b f s
  | .fclass d a f => Sys2Proof.Machine.execFclass d a f s
  | .fsgnj d a b f => Sys2Proof.Machine.execFsgnj d a b f s
  | .fsgnjn d a b f => Sys2Proof.Machine.execFsgnjn d a b f s
  | .fsgnjx d a b f => Sys2Proof.Machine.execFsgnjx d a b f s
  | .cvt d a m t f => Sys2Proof.Machine.execCvt d a m t f s
  | .beq p q o => Sys2Proof.Machine.execBeq p q o s
  | .bne p q o => Sys2Proof.Machine.execBne p q o s
  | .blt p q o => Sys2Proof.Machine.execBlt p q o s
  | .bge p q o => Sys2Proof.Machine.execBge p q o s
  | .bltu p q o => Sys2Proof.Machine.execBltu p q o s
  | .bgeu p q o => Sys2Proof.Machine.execBgeu p q o s
  | .jal d imm => Sys2Proof.Machine.execJal d imm s
  | .jalr d a imm => Sys2Proof.Machine.execJalr d a imm s
  | .codeEndTrap => Sys2Proof.Machine.execCodeEndTrap s
  | .lb d a o => Sys2Proof.Machine.execLb d a o s
  | .lbu d a o => Sys2Proof.Machine.execLbu d a o s
  | .lh d a o => Sys2Proof.Machine.execLh d a o s
  | .lhu d a o => Sys2Proof.Machine.execLhu d a o s
  | .lw d a o => Sys2Proof.Machine.execLw d a o s
  | .lwu d a o => Sys2Proof.Machine.execLwu d a o s
  | .ld d a o => Sys2Proof.Machine.execLd d a o s
  | .sb t a o => Sys2Proof.Machine.execSb t a o s
  | .sh t a o => Sys2Proof.Machine.execSh t a o s
  | .sw t a o => Sys2Proof.Machine.execSw t a o s
  | .sd t a o => Sys2Proof.Machine.execSd t a o s
  | .sn t a o h => Sys2Proof.Machine.execSn t a o h s
  | .cld d a => Sys2Proof.Machine.execCld d a s
  | .cldGe d a b => Sys2Proof.Machine.execCldGe d a b s
  | .cldEq d a b => Sys2Proof.Machine.execCldEq d a b s
  | .cldAcq d a b => Sys2Proof.Machine.execCldAcq d a b s
  | .cver d a => Sys2Proof.Machine.execCver d a s
  | .cstB t a => Sys2Proof.Machine.execCstB t a s
  | .cstH t a => Sys2Proof.Machine.execCstH t a s
  | .cstW t a => Sys2Proof.Machine.execCstW t a s
  | .cstD t a => Sys2Proof.Machine.execCstD t a s
  | .cstNl t a => Sys2Proof.Machine.execCstNl t a s
  | .cstNh t a => Sys2Proof.Machine.execCstNh t a s
  | .cstRel t a => Sys2Proof.Machine.execCstRel t a s
  | .caadd d a b => Sys2Proof.Machine.execCaadd d a b s
  | .camin d a b => Sys2Proof.Machine.execCamin d a b s
  | .camax d a b => Sys2Proof.Machine.execCamax d a b s
  | .caminu d a b => Sys2Proof.Machine.execCaminu d a b s
  | .camaxu d a b => Sys2Proof.Machine.execCamaxu d a b s
  | .caand d a b => Sys2Proof.Machine.execCaand d a b s
  | .caor d a b => Sys2Proof.Machine.execCaor d a b s
  | .caxor d a b => Sys2Proof.Machine.execCaxor d a b s
  | .caswap d a b => Sys2Proof.Machine.execCaswap d a b s
  | .cacas d a b => Sys2Proof.Machine.execCacas d a b s
  | .cafadd d a b => Sys2Proof.Machine.execCafadd d a b s
  | .cdefer d a b c => Sys2Proof.Machine.execCdefer d a b c s
  | .crecl a b => Sys2Proof.Machine.execCrecl a b s
  | .creclR d a b => Sys2Proof.Machine.execCreclR d a b s
  | .carm d a c => Sys2Proof.Machine.execCarm d a c s
  | .cdisarm d a => Sys2Proof.Machine.execCdisarm d a s
  | .dldB d a => Sys2Proof.Machine.execDldB d a s
  | .dldH d a => Sys2Proof.Machine.execDldH d a s
  | .dldW d a => Sys2Proof.Machine.execDldW d a s
  | .dldD d a => Sys2Proof.Machine.execDldD d a s
  | .dstB t a => Sys2Proof.Machine.execDstB t a s
  | .dstH t a => Sys2Proof.Machine.execDstH t a s
  | .dstW t a => Sys2Proof.Machine.execDstW t a s
  | .dstD t a => Sys2Proof.Machine.execDstD t a s
  | .fence q c => Sys2Proof.Machine.execFence q c s
  | .efence => Sys2Proof.Machine.execEfence s
  | .sbindR d a => Sys2Proof.Machine.execSbindR d a s
  | .sbindW d a => Sys2Proof.Machine.execSbindW d a s
  | .sunbind d => Sys2Proof.Machine.execSunbind d s
  | .srd d a => Sys2Proof.Machine.execSrd d a s
  | .swr d a => Sys2Proof.Machine.execSwr d a s
  | .sclose d => Sys2Proof.Machine.execSclose d s
  | .waitc l q p m => Sys2Proof.Machine.execWaitc l q p m s
  | .mcmd d a b => Sys2Proof.Machine.execMcmd d a b s
  | .copy a => Sys2Proof.Machine.execCopy a s
  | .copyNb d a => Sys2Proof.Machine.execCopyNb d a s
  | .cqpop d => Sys2Proof.Machine.execCqpop d s
  | .recv d b c => Sys2Proof.Machine.execRecv d b c s
  | .send a b c => Sys2Proof.Machine.execSend a b c s
  | .sendNb d a b c => Sys2Proof.Machine.execSendNb d a b c s
  | .sendi d a b c => Sys2Proof.Machine.execSendi d a b c s
  | .give d a b c => Sys2Proof.Machine.execGive d a b c s
  | .ralloc d a => Sys2Proof.Machine.execRalloc d a s
  | .rfree a => Sys2Proof.Machine.execRfree a s
  | .spawn d a => Sys2Proof.Machine.execSpawn d a s
  | .link a => Sys2Proof.Machine.execLink a s
  | .unlink a => Sys2Proof.Machine.execUnlink a s
  | .monitor d a => Sys2Proof.Machine.execMonitor d a s
  | .demon a => Sys2Proof.Machine.execDemon a s
  | .trapex d a => Sys2Proof.Machine.execTrapex d a s
  | .kill a => Sys2Proof.Machine.execKill a s
  | .exit a b => Sys2Proof.Machine.execExit a b s
  | .retire => Sys2Proof.Machine.execRetire s
  | .rets a => Sys2Proof.Machine.execRets a s
  | .yield => Sys2Proof.Machine.execYield s
  | .tmset a => Sys2Proof.Machine.execTmset a s
  | .tmcan d => Sys2Proof.Machine.execTmcan d s
  | .wix d a k => Sys2Proof.Machine.execWix d a k s
  | .wixG d a l => Sys2Proof.Machine.execWixG d a l s
  | .mtm d a => Sys2Proof.Machine.execMtm d a s
  | .mfm d a => Sys2Proof.Machine.execMfm d a s
  | .vtml a => Sys2Proof.Machine.execVtml a s
  | .vtmlIn d => Sys2Proof.Machine.execVtmlIn d s
  | .vtmh a => Sys2Proof.Machine.execVtmh a s
  | .vtmhIn d => Sys2Proof.Machine.execVtmhIn d s
  | .mfs d a => Sys2Proof.Machine.execMfs d a s
  | .supset d a => Sys2Proof.Machine.execSupset d a s
  | .supdel d a => Sys2Proof.Machine.execSupdel d a s
  | .pkill a b => Sys2Proof.Machine.execPkill a b s
  | .psend a b c => Sys2Proof.Machine.execPsend a b c s
  | .mfcr d r => Sys2Proof.Machine.execMfcr d r s
  | .mtcr a r => Sys2Proof.Machine.execMtcr a r s
  | .statusWrite a => Sys2Proof.Machine.execStatusWrite a s
  | .fpctlWrite a => Sys2Proof.Machine.execFpctlWrite a s
  | .eperrWrite a => Sys2Proof.Machine.execEperrWrite a s
  | .vlenWrite a => Sys2Proof.Machine.execVlenWrite a s
  | .hmaskWrite a => Sys2Proof.Machine.execHmaskWrite a s
  | .timerWrite a => Sys2Proof.Machine.execTimerWrite a s
  | .breakTrap imm => Sys2Proof.Machine.execBreakTrap imm s
  | .vadd d a b q t m w => Sys2Proof.Machine.execVadd d a b q t m w s
  | .vsub d a b q t m w => Sys2Proof.Machine.execVsub d a b q t m w s
  | .vmul d a b q t m w => Sys2Proof.Machine.execVmul d a b q t m w s
  | .vmulh d a b q t m w => Sys2Proof.Machine.execVmulh d a b q t m w s
  | .vmin d a b q t m w => Sys2Proof.Machine.execVmin d a b q t m w s
  | .vmax d a b q t m w => Sys2Proof.Machine.execVmax d a b q t m w s
  | .vminu d a b q t m w => Sys2Proof.Machine.execVminu d a b q t m w s
  | .vmaxu d a b q t m w => Sys2Proof.Machine.execVmaxu d a b q t m w s
  | .vand d a b q t m w => Sys2Proof.Machine.execVand d a b q t m w s
  | .vor d a b q t m w => Sys2Proof.Machine.execVor d a b q t m w s
  | .vxor d a b q t m w => Sys2Proof.Machine.execVxor d a b q t m w s
  | .vsll d a b q t m w => Sys2Proof.Machine.execVsll d a b q t m w s
  | .vsrl d a b q t m w => Sys2Proof.Machine.execVsrl d a b q t m w s
  | .vsra d a b q t m w => Sys2Proof.Machine.execVsra d a b q t m w s
  | .vadds d a b q t m w => Sys2Proof.Machine.execVadds d a b q t m w s
  | .vsubs d a b q t m w => Sys2Proof.Machine.execVsubs d a b q t m w s
  | .vfadd d a b q t m w => Sys2Proof.Machine.execVfadd d a b q t m w s
  | .vfsub d a b q t m w => Sys2Proof.Machine.execVfsub d a b q t m w s
  | .vfmul d a b q t m w => Sys2Proof.Machine.execVfmul d a b q t m w s
  | .vfdiv d a b q t m w => Sys2Proof.Machine.execVfdiv d a b q t m w s
  | .vfsqrt d a q t m w => Sys2Proof.Machine.execVfsqrt d a q t m w s
  | .vfmin d a b q t m w => Sys2Proof.Machine.execVfmin d a b q t m w s
  | .vfmax d a b q t m w => Sys2Proof.Machine.execVfmax d a b q t m w s
  | .vfma d a b q t m w => Sys2Proof.Machine.execVfma d a b q t m w s
  | .vfeq d a b q t m w => Sys2Proof.Machine.execVfeq d a b q t m w s
  | .vflt d a b q t m w => Sys2Proof.Machine.execVflt d a b q t m w s
  | .vfle d a b q t m w => Sys2Proof.Machine.execVfle d a b q t m w s
  | .vfsum d a q t w => Sys2Proof.Machine.execVfsum d a q t w s
  | .vceq d a b q t m w => Sys2Proof.Machine.execVceq d a b q t m w s
  | .vclt d a b q t m w => Sys2Proof.Machine.execVclt d a b q t m w s
  | .vcltu d a b q t m w => Sys2Proof.Machine.execVcltu d a b q t m w s
  | .vsum d a q t w => Sys2Proof.Machine.execVsum d a q t w s
  | .vrmin d a q t w => Sys2Proof.Machine.execVrmin d a q t w s
  | .vrmax d a q t w => Sys2Proof.Machine.execVrmax d a q t w s
  | .vrminu d a q t w => Sys2Proof.Machine.execVrminu d a q t w s
  | .vrmaxu d a q t w => Sys2Proof.Machine.execVrmaxu d a q t w s
  | .vmand d a b q t m => Sys2Proof.Machine.execVmand d a b q t m s
  | .vmor d a b q t m => Sys2Proof.Machine.execVmor d a b q t m s
  | .vmxor d a b q t m => Sys2Proof.Machine.execVmxor d a b q t m s
  | .vmnot d a q t m => Sys2Proof.Machine.execVmnot d a q t m s
  | .vmpop d a q t => Sys2Proof.Machine.execVmpop d a q t s
  | .vmov d a q t m w => Sys2Proof.Machine.execVmov d a q t m w s
  | .vsplat d a k q t m w => Sys2Proof.Machine.execVsplat d a k q t m w s
  | .vext d a k t w => Sys2Proof.Machine.execVext d a k t w s
  | .vins d a k w => Sys2Proof.Machine.execVins d a k w s
  | .vperm d a b q t m w => Sys2Proof.Machine.execVperm d a b q t m w s
  | .vslup d a k q t m w => Sys2Proof.Machine.execVslup d a k q t m w s
  | .vsldn d a k q t m w => Sys2Proof.Machine.execVsldn d a k q t m w s
  | .vzip d a b q t m w => Sys2Proof.Machine.execVzip d a b q t m w s
  | .vuzp d a b q t m w => Sys2Proof.Machine.execVuzp d a b q t m w s
  | .vsel d a b q t w => Sys2Proof.Machine.execVsel d a b q t w s
  | .vld d a q t m w => Sys2Proof.Machine.execVld d a q t m w s
  | .vst d a q w => Sys2Proof.Machine.execVst d a q w s
  | .vlds d a b q t m w => Sys2Proof.Machine.execVlds d a b q t m w s
  | .vsts d a b q w => Sys2Proof.Machine.execVsts d a b q w s
  | .vldg d a b q t m w => Sys2Proof.Machine.execVldg d a b q t m w s
  | .vstg d a b q w => Sys2Proof.Machine.execVstg d a b q w s
  | .vcld d a q t m w => Sys2Proof.Machine.execVcld d a q t m w s
  | .vcadd d a w => Sys2Proof.Machine.execVcadd d a w s
  | .vdld d a q t m w => Sys2Proof.Machine.execVdld d a q t m w s
  | .vdst d a q w => Sys2Proof.Machine.execVdst d a q w s
  | .vqntE4 d a w => Sys2Proof.Machine.execVqntE4 d a w s
  | .vqntE5 d a w => Sys2Proof.Machine.execVqntE5 d a w s
  | .vqntC4 d a b w => Sys2Proof.Machine.execVqntC4 d a b w s
  | .vdqE4 d a w => Sys2Proof.Machine.execVdqE4 d a w s
  | .vdqE5 d a w => Sys2Proof.Machine.execVdqE5 d a w s
  | .vdqC4 d a b w => Sys2Proof.Machine.execVdqC4 d a b w s
  | .msync core => Sys2Proof.Machine.execMsync core s
  | .mclr core => Sys2Proof.Machine.execMclr core s
  | .mloadcb core => Sys2Proof.Machine.execMloadcb core s
  | .mringConfigure core => Sys2Proof.Machine.execMringConfigure core s
  | .mringAdvance core => Sys2Proof.Machine.execMringAdvance core s
  | .mchkCompare core => Sys2Proof.Machine.execMchkCompare core s
  | .mchkNoCompare core => Sys2Proof.Machine.execMchkNoCompare core s
  | .mmove core => Sys2Proof.Machine.execMmove core s
  | .mscale core => Sys2Proof.Machine.execMscale core s
  | .maddacc core => Sys2Proof.Machine.execMaddacc core s
  | .mstore core => Sys2Proof.Machine.execMstore core s
  | .mdrain core => Sys2Proof.Machine.execMdrain core s
  | .mloadacc core => Sys2Proof.Machine.execMloadacc core s
  | .mmaBf16 core badRuns => Sys2Proof.Machine.execMmaBf16 core badRuns s
  | .mmaFp16 core badRuns => Sys2Proof.Machine.execMmaFp16 core badRuns s
  | .mmaE4e4 core badRuns => Sys2Proof.Machine.execMmaE4e4 core badRuns s
  | .mmaE4e5 core badRuns => Sys2Proof.Machine.execMmaE4e5 core badRuns s
  | .mmaE5e4 core badRuns => Sys2Proof.Machine.execMmaE5e4 core badRuns s
  | .mmaE5e5 core badRuns => Sys2Proof.Machine.execMmaE5e5 core badRuns s
  | .mmaC4c4 core badRuns => Sys2Proof.Machine.execMmaC4c4 core badRuns s
  | .mmaC4e4 core badRuns => Sys2Proof.Machine.execMmaC4e4 core badRuns s
  | .mmaE4c4 core badRuns => Sys2Proof.Machine.execMmaE4c4 core badRuns s
  | .mmaS8s8 core badRuns => Sys2Proof.Machine.execMmaS8s8 core badRuns s
  | .mmaN8s8 core badRuns => Sys2Proof.Machine.execMmaN8s8 core badRuns s
  | .mdrainDelivery n => Sys2Proof.Machine.execMdrainDelivery n s
  | .copyDramToRegion eng id => Sys2Proof.Machine.execCopyDramToRegion eng id s
  | .copyRegionToDram eng id => Sys2Proof.Machine.execCopyRegionToDram eng id s
  | .parcelHandOver n => Sys2Proof.Machine.execParcelHandOver n s
  | .slabScatter eng id => Sys2Proof.Machine.execSlabScatter eng id s
  | .gather eng id => Sys2Proof.Machine.execGather eng id s
  | .ringFeed eng id => Sys2Proof.Machine.execRingFeed eng id s
  | .ringFeedPublish eng id => Sys2Proof.Machine.execRingFeedPublish eng id s
  | .streamRequest eng id => Sys2Proof.Machine.execStreamRequest eng id s
  | .commonsBulkRead eng id => Sys2Proof.Machine.execCommonsBulkRead eng id s
  | .commonsBulkWrite eng id => Sys2Proof.Machine.execCommonsBulkWrite eng id s
  | .fillRegion eng id => Sys2Proof.Machine.execFillRegion eng id s
  | .fillGlobal eng id => Sys2Proof.Machine.execFillGlobal eng id s
  | .copyStart eng => Sys2Proof.Machine.execCopyStart eng s
  | .copyCompletion eng id => Sys2Proof.Machine.execCopyCompletion eng id s
  | .copyHostTimeout eng id => Sys2Proof.Machine.execCopyHostTimeout eng id s
  | .copyTicketTimeout eng id => Sys2Proof.Machine.execCopyTicketTimeout eng id s
  | .firingStart core => Sys2Proof.Machine.execFiringStart core s
  | .gateOpen core slot => Sys2Proof.Machine.execGateOpen core slot s
  | .priorityAgeing core slot => Sys2Proof.Machine.execPriorityAgeing core slot s
  | .watchdogExpiry core ts => Sys2Proof.Machine.execWatchdogExpiry core ts s
  | .timerExpiry core slot => Sys2Proof.Machine.execTimerExpiry core slot s
  | .preemptionRequest core src => Sys2Proof.Machine.execPreemptionRequest core src s
  | .preemptionSave core ts => Sys2Proof.Machine.execPreemptionSave core ts s
  | .preemptionWithdraw core src => Sys2Proof.Machine.execPreemptionWithdraw core src s
  | .resumption core => Sys2Proof.Machine.execResumption core s
  | .deferredTrap core ts => Sys2Proof.Machine.execDeferredTrap core ts s
  | .checkerReexecution core ts agrees => Sys2Proof.Machine.execCheckerReexecution core ts agrees s
  | .loadLevelling pkg => Sys2Proof.Machine.execLoadLevelling pkg s
  | .spawnRelease core id => Sys2Proof.Machine.execSpawnRelease core id s
  | .spawnStart core => Sys2Proof.Machine.execSpawnStart core s
  | .stewardFeed n => Sys2Proof.Machine.execStewardFeed n s
  | .actorLoadComplete core slot => Sys2Proof.Machine.execActorLoadComplete core slot s
  | .messageArrival n => Sys2Proof.Machine.execMessageArrival n s
  | .sendAnswer n => Sys2Proof.Machine.execSendAnswer n s
  | .messageBusyResend n => Sys2Proof.Machine.execMessageBusyResend n s
  | .deliveryTimeout n => Sys2Proof.Machine.execDeliveryTimeout n s
  | .messageResend n => Sys2Proof.Machine.execMessageResend n s
  | .messageIndeterminate n => Sys2Proof.Machine.execMessageIndeterminate n s
  | .signalArrival n => Sys2Proof.Machine.execSignalArrival n s
  | .exitArrival n => Sys2Proof.Machine.execExitArrival n s
  | .downArrival n => Sys2Proof.Machine.execDownArrival n s
  | .childExitArrival n => Sys2Proof.Machine.execChildExitArrival n s
  | .bellwetherRestart n => Sys2Proof.Machine.execBellwetherRestart n s
  | .killArrival n => Sys2Proof.Machine.execKillArrival n s
  | .death core slot => Sys2Proof.Machine.execDeath core slot s
  | .deathReclaim core slot => Sys2Proof.Machine.execDeathReclaim core slot s
  | .peerLinkRequest n => Sys2Proof.Machine.execPeerLinkRequest n s
  | .parcelReservation n => Sys2Proof.Machine.execParcelReservation n s
  | .parcelArrival n => Sys2Proof.Machine.execParcelArrival n s
  | .accessAtOwner core id => Sys2Proof.Machine.execAccessAtOwner core id s
  | .accessAnswer core id => Sys2Proof.Machine.execAccessAnswer core id s
  | .accessBusyResend core id => Sys2Proof.Machine.execAccessBusyResend core id s
  | .accessRetry core id => Sys2Proof.Machine.execAccessRetry core id s
  | .accessIndeterminate core id => Sys2Proof.Machine.execAccessIndeterminate core id s
  | .plbRefill core ga => Sys2Proof.Machine.execPlbRefill core ga s
  | .faultTicket core id => Sys2Proof.Machine.execFaultTicket core id s
  | .replayNotice n => Sys2Proof.Machine.execReplayNotice n s
  | .replayAnswer core id => Sys2Proof.Machine.execReplayAnswer core id s
  | .ticketTimeout core id => Sys2Proof.Machine.execTicketTimeout core id s
  | .firstMapping owner page => Sys2Proof.Machine.execFirstMapping owner page s
  | .shootdown n => Sys2Proof.Machine.execShootdown n s
  | .directoryCollapse n => Sys2Proof.Machine.execDirectoryCollapse n s
  | .replicaDrop n => Sys2Proof.Machine.execReplicaDrop n s
  | .collapseComplete n => Sys2Proof.Machine.execCollapseComplete n s
  | .migrationBegin page newOwner => Sys2Proof.Machine.execMigrationBegin page newOwner s
  | .migrationEnd page => Sys2Proof.Machine.execMigrationEnd page s
  | .frameRetirement owner page copied => Sys2Proof.Machine.execFrameRetirement owner page copied s
  | .pageReclaim page => Sys2Proof.Machine.execPageReclaim page s
  | .patrolScrub owner page offset found => Sys2Proof.Machine.execPatrolScrub owner page offset found s
  | .coreQuarantine core => Sys2Proof.Machine.execCoreQuarantine core s
  | .matrixWithdrawal core => Sys2Proof.Machine.execMatrixWithdrawal core s
  | .clusterWithdrawal eng => Sys2Proof.Machine.execClusterWithdrawal eng s
  | .memoryCoreWithdrawal core => Sys2Proof.Machine.execMemoryCoreWithdrawal core s
  | .powerSample pkg readings => Sys2Proof.Machine.execPowerSample pkg readings s
  | .counterSample pkg => Sys2Proof.Machine.execCounterSample pkg s
  | .counterRead n => Sys2Proof.Machine.execCounterRead n s
  | .counterProgram n => Sys2Proof.Machine.execCounterProgram n s
  | .thresholdSet n => Sys2Proof.Machine.execThresholdSet n s
  | .thresholdCancel n => Sys2Proof.Machine.execThresholdCancel n s
  | .topologyRegister n => Sys2Proof.Machine.execTopologyRegister n s
  | .topologyDeregister n => Sys2Proof.Machine.execTopologyDeregister n s
  | .topologyReadUnit n => Sys2Proof.Machine.execTopologyReadUnit n s
  | .topologyReadGrant n => Sys2Proof.Machine.execTopologyReadGrant n s
  | .attestRegister n => Sys2Proof.Machine.execAttestRegister n s
  | .attestDeregister n => Sys2Proof.Machine.execAttestDeregister n s
  | .quote n => Sys2Proof.Machine.execQuote n s
  | .logRead n => Sys2Proof.Machine.execLogRead n s
  | .powerServiceRegister n => Sys2Proof.Machine.execPowerServiceRegister n s
  | .powerServiceDeregister n => Sys2Proof.Machine.execPowerServiceDeregister n s
  | .cairnTake n => Sys2Proof.Machine.execCairnTake n s
  | .cairnMark pkg dom => Sys2Proof.Machine.execCairnMark pkg dom s
  | .cairnManifest pkg dom => Sys2Proof.Machine.execCairnManifest pkg dom s
  | .cowGranuleCopy core granule => Sys2Proof.Machine.execCowGranuleCopy core granule s
  | .cowPageService owner page => Sys2Proof.Machine.execCowPageService owner page s
  | .cairnRestore n => Sys2Proof.Machine.execCairnRestore n s
  | .powerFailRestore n => Sys2Proof.Machine.execPowerFailRestore n s
  | .powerFailDiscard n => Sys2Proof.Machine.execPowerFailDiscard n s
  | .controlImageWindowExpiry pkg => Sys2Proof.Machine.execControlImageWindowExpiry pkg s
  | .powerStep pkg pins => Sys2Proof.Machine.execPowerStep pkg pins s
  | .powerStepFrame pkg hd arg => Sys2Proof.Machine.execPowerStepFrame pkg hd arg s
  | .powerFailTrap pkg => Sys2Proof.Machine.execPowerFailTrap pkg s
  | .packageReset pkg => Sys2Proof.Machine.execPackageReset pkg s
  | .resetFrame pkg hd => Sys2Proof.Machine.execResetFrame pkg hd s
  | .ready pkg => Sys2Proof.Machine.execReady pkg s
  | .recoveryImage pkg img => Sys2Proof.Machine.execRecoveryImage pkg img s
  | .freeze pkg => Sys2Proof.Machine.execFreeze pkg s
  | .freezeRelease pkg => Sys2Proof.Machine.execFreezeRelease pkg s
  | .debugUnlock pkg token signed => Sys2Proof.Machine.execDebugUnlock pkg token signed s
  | .linkModeChange pkg port mode => Sys2Proof.Machine.execLinkModeChange pkg port mode s
  | .linkHeartbeat pkg port answered => Sys2Proof.Machine.execLinkHeartbeat pkg port answered s
  | .packageLost lost => Sys2Proof.Machine.execPackageLost lost s
  | .directoryMapUpdate lost => Sys2Proof.Machine.execDirectoryMapUpdate lost s
  | .connectionOpen pkg conn dom => Sys2Proof.Machine.execConnectionOpen pkg conn dom s
  | .connectionClose pkg conn byHost => Sys2Proof.Machine.execConnectionClose pkg conn byHost s
  | .launch pkg hd hdr flock => Sys2Proof.Machine.execLaunch pkg hd hdr flock s
  | .hostMessage pkg hd dst arg msg => Sys2Proof.Machine.execHostMessage pkg hd dst arg msg s
  | .hostParcel pkg hd dst arg tag body => Sys2Proof.Machine.execHostParcel pkg hd dst arg tag body s
  | .hostRetransmit pkg conn => Sys2Proof.Machine.execHostRetransmit pkg conn s
  | .grantRequest pkg hd dom die cluster adds => Sys2Proof.Machine.execGrantRequest pkg hd dom die cluster adds s
  | .replacementRequest pkg dom img => Sys2Proof.Machine.execReplacementRequest pkg dom img s
  | .replacementActivate pkg => Sys2Proof.Machine.execReplacementActivate pkg s
  | .hubWatchdogWrite pkg => Sys2Proof.Machine.execHubWatchdogWrite pkg s
  | .revert pkg => Sys2Proof.Machine.execRevert pkg s
  | .replacementCommit pkg => Sys2Proof.Machine.execReplacementCommit pkg s
  | .hintRecordWrite cls range dwords => Sys2Proof.Machine.execHintRecordWrite cls range dwords s
  | .exportTableWrite pkg range dom rights present => Sys2Proof.Machine.execExportTableWrite pkg range dom rights present s
  | .imageStoreWrite ga body => Sys2Proof.Machine.execImageStoreWrite ga body s
  | .pageParking owner page => Sys2Proof.Machine.execPageParking owner page s

end Sys2Proof.Machine
end

