-- ==== Sys2Proof/Machine/Place.lean ====
section
/-! DEFINITION. Placing one instruction word where the next step fetches (log 13). -/

namespace Sys2Proof.Machine

/-- The slot-0 actor whose firing runs a placed word: an idle actor's entry made firing on thread set 0, with region-table entry
0 as its code region. -/
def Actor.placed : Actor := { state := .firing, code := 0, runnable := true }

/-- A core whose thread set 0 runs a firing at the start of one granule of code that holds a word at local address 0, with no
other firing. -/
def Core.place (k : Core) (w : W32) : Core :=
  { k with
    mem := k.mem.writeN 0 (toBytes 4 w.toNat)
    regions := k.regions.put 0 { valid := true, base := 0, size := 1, kind := kCode, rd := true }
    slots := k.slots.put 0 Actor.placed
    threads := #v[{ busy := true, wdogleft := 67108864 }, {}, {}, {}]
    gone := false
    tset := 0 }

/-- The pod with a word placed at compute core 0 of package 0, and nothing else that the next step would do first. -/
def State.place (s : State) (w : W32) : State :=
  { (s.onPkg 0 fun p => { p with frozen := false, halted := false, lost := false }).onCore 0 (·.place w) with
    cur := 0, agenda := [.issue 0 0] }

end Sys2Proof.Machine
end

