-- ==== Sys2Proof/Machine/Site.lean ====
section
/-! DEFINITION. Where an event takes place (R388): while a package is frozen no state of it changes, so nothing takes place there. -/

namespace Sys2Proof.Machine

/-- The package of the actor of a name. -/
def State.namePkg (s : State) (name : W64) : List Nat :=
  match s.dirEntry name with
  | some e => [e.pkg]
  | none => []

/-- The packages where what travels is acted on. -/
def State.payloadPkgs (s : State) : Payload → List Nat
  | .message m _ _ => s.namePkg m.dst
  | .sendAnswer core _ _ _ => [corePkg core]
  | .signal g => s.namePkg g.dst
  | .kill dst .. => s.namePkg dst
  | .linkReq r => s.namePkg r.peer
  | .parcel p =>
    (if p.body.isEmpty then [corePkg p.giverCore] else []) ++
      (match p.phase with
        | .reserved => [corePkg p.rcore]
        | .queued | .asking | .busy => s.namePkg p.dst)
  | .drain d => corePkg d.core :: s.namePkg d.dst
  | .notice _ _ _ _ _ clusters => (clusters.take 1).map engPkg
  | .shootdown .. => (s.pkgs.filter fun p => !p.2.lost).map (·.1)
  | .collapse _ page _ => [s.dirPackage (s.rangeSlot (gaRange (page * 65536)))]
  | .drop owner .. => [ownerPkg owner]
  | .collapseDone owner .. => [ownerPkg owner]
  | .feed _ core => [corePkg core]
  | .restart r => if (s.pkg (corePkg r.core)).lost then [] else [corePkg r.core]

/-- The packages where a packet is acted on. -/
def State.packetPkgs (s : State) (n : Nat) : List Nat :=
  match s.packet n with
  | some p => s.payloadPkgs p.pay
  | none => []

/-- The packages of an access's core and of its owner. -/
def State.accessPkgs (s : State) (core id : Nat) : List Nat :=
  corePkg core :: match (s.core core).accs.find? (·.id == id) with
    | some a => [ownerPkg a.owner]
    | none => []

/-- The package of a page's home. -/
def State.homePkg (s : State) (page : Nat) : List Nat :=
  match (s.hintOf page).bind Hint.home with
  | some o => [ownerPkg o]
  | none => []

/-- The packages of the live children of a supervisor, which its death or its restart scope kills; a package that takes no part any more holds none. -/
def State.childPkgs (s : State) (supv : W64) : List Nat :=
  ((s.dir.map (·.2)).filter fun e => e.supv == supv && e.state == 1 && !(s.pkg e.pkg).away).map (·.pkg)

/-- The packages where an event takes place. -/
def State.eventPkgs (s : State) (i : Instr) : List Nat :=
  match i with
  | .msync c | .mclr c | .mloadcb c | .mringConfigure c | .mringAdvance c | .mchkCompare c | .mchkNoCompare c | .mmove c | .mscale c
  | .maddacc c | .mstore c | .mdrain c | .mloadacc c | .mmaBf16 c _ | .mmaFp16 c _ | .mmaE4e4 c _ | .mmaE4e5 c _ | .mmaE5e4 c _
  | .mmaE5e5 c _ | .mmaC4c4 c _ | .mmaC4e4 c _ | .mmaE4c4 c _ | .mmaS8s8 c _ | .mmaN8s8 c _ | .firingStart c | .gateOpen c _
  | .priorityAgeing c _ | .watchdogExpiry c _ | .timerExpiry c _ | .preemptionRequest c _ | .preemptionSave c _ | .preemptionWithdraw c _
  | .resumption c | .deferredTrap c _ | .checkerReexecution c _ _ | .spawnRelease c _ | .spawnStart c | .actorLoadComplete c _
  | .deathReclaim c _ | .accessAnswer c _ | .accessBusyResend c _ | .accessRetry c _ | .accessIndeterminate c _ | .plbRefill c _
  | .faultTicket c _ | .replayAnswer c _ | .ticketTimeout c _ | .coreQuarantine c | .matrixWithdrawal c | .memoryCoreWithdrawal c
  | .cowGranuleCopy c _ => [corePkg c]
  | .accessAtOwner c id => s.accessPkgs c id
  | .death c i => corePkg c :: s.childPkgs (s.actor c i).name
  | .childExitArrival n => s.packetPkgs n ++ match (s.packet n).map (·.pay) with
    | some (.signal g) => s.childPkgs g.dst
    | _ => []
  | .copyDramToRegion e _ | .copyRegionToDram e _ | .slabScatter e _ | .gather e _ | .ringFeed e _ | .ringFeedPublish e _
  | .streamRequest e _ | .commonsBulkRead e _ | .commonsBulkWrite e _ | .fillRegion e _ | .fillGlobal e _ | .copyStart e
  | .copyCompletion e _ | .copyHostTimeout e _ | .copyTicketTimeout e _ | .clusterWithdrawal e => [engPkg e]
  | .mdrainDelivery n | .parcelHandOver n | .stewardFeed n | .messageArrival n | .sendAnswer n | .messageBusyResend n | .deliveryTimeout n
  | .messageResend n | .messageIndeterminate n | .signalArrival n | .exitArrival n | .downArrival n
  | .bellwetherRestart n | .killArrival n | .peerLinkRequest n | .parcelReservation n | .parcelArrival n | .replayNotice n | .shootdown n
  | .directoryCollapse n | .replicaDrop n | .collapseComplete n | .counterRead n | .counterProgram n | .thresholdSet n
  | .thresholdCancel n | .topologyRegister n | .topologyDeregister n | .topologyReadUnit n | .topologyReadGrant n | .attestRegister n
  | .attestDeregister n | .quote n | .logRead n | .powerServiceRegister n | .powerServiceDeregister n | .cairnTake n | .cairnRestore n
  | .powerFailRestore n | .powerFailDiscard n => s.packetPkgs n
  | .firstMapping o _ | .frameRetirement o _ _ | .patrolScrub o _ _ _ | .cowPageService o _ | .pageParking o _ => [ownerPkg o]
  | .migrationBegin page o => ownerPkg o :: s.homePkg page
  | .migrationEnd page | .pageReclaim page => s.homePkg page
  | .loadLevelling p | .powerSample p _ | .counterSample p | .cairnMark p _ | .cairnManifest p _ | .controlImageWindowExpiry p
  | .powerStep p _ | .powerStepFrame p _ _ | .powerFailTrap p | .packageReset p | .resetFrame p _ | .ready p | .recoveryImage p _
  | .freeze p | .debugUnlock p _ _ | .linkModeChange p _ _ | .linkHeartbeat p _ _ | .connectionOpen p _ _
  | .connectionClose p _ _ | .launch p _ _ _ | .hostMessage p _ _ _ _ | .hostParcel p _ _ _ _ _ | .hostRetransmit p _
  | .grantRequest p _ _ _ _ _ | .replacementRequest p _ _ | .replacementActivate p | .hubWatchdogWrite p | .revert p
  | .replacementCommit p | .exportTableWrite p _ _ _ _ => [p]
  | .hintRecordWrite _ range _ => [s.dirPackage (s.rangeSlot range)]
  | _ => []

/-- The package of the owner that an access of a core names. -/
def State.ownerFrom (s : State) (core id : Nat) : Option Nat := ((s.core core).accs.find? (·.id == id)).map fun a => ownerPkg a.owner

/-- The package that what an event acts on comes from. -/
def State.eventFrom (s : State) (i : Instr) : Option Nat :=
  match i with
  | .accessAtOwner c _ => some (corePkg c)
  | .accessAnswer c id | .faultTicket c id | .replayAnswer c id => s.ownerFrom c id
  | .plbRefill _ ga => if gaClass ga < 3 then some (s.dirPackage (s.rangeSlot (gaRange ga))) else none
  | .mdrainDelivery n | .parcelHandOver n | .stewardFeed n | .messageArrival n | .sendAnswer n | .messageBusyResend n | .messageResend n
  | .signalArrival n | .exitArrival n | .downArrival n | .childExitArrival n | .bellwetherRestart n | .killArrival n | .peerLinkRequest n | .parcelReservation n
  | .parcelArrival n | .replayNotice n | .directoryCollapse n | .replicaDrop n | .collapseComplete n => (s.packet n).map (·.src)
  | _ => none

/-- Whether the directory answers for the names and ranges that an event reads it for: until the map names another package, a read that goes
to a lost one goes unanswered (R378). -/
def State.directoryServes (s : State) (i : Instr) : Bool :=
  let name := fun (n : W64) => s.slotServed (s.nameSlot n)
  let page := fun (p : Nat) => s.slotServed (s.rangeSlot (gaRange (p * 65536)))
  match i with
  | .faultTicket c id | .replayAnswer c id => (s.core c).accs.all fun a => a.id != id || page (a.ga / 65536)
  | .messageArrival n | .signalArrival n | .exitArrival n | .downArrival n | .childExitArrival n | .killArrival n | .peerLinkRequest n
  | .parcelReservation n | .mdrainDelivery n | .replayNotice n | .bellwetherRestart n =>
    match s.packet n with
    | some q =>
      match q.pay with
      | .message m _ _ => name m.dst
      | .signal g => name g.dst
      | .kill dst .. => name dst
      | .linkReq r => name r.peer
      | .parcel p => name p.dst
      | .drain d => name d.dst
      | .restart r => name r.name
      | .notice _ _ p _ _ _ => page p
      | _ => true
    | none => true
  | .migrationBegin p _ | .migrationEnd p | .pageReclaim p | .firstMapping _ p => page p
  | _ => true

/-- The packages whose own hardware an event is an act of: a packet is acted on where its receiver is found, and the owner of an access only
answers. -/
def State.eventSites (s : State) (i : Instr) : List Nat :=
  match i with
  | .packageReset _ | .ready _ | .recoveryImage .. | .freeze _ | .powerStep .. | .debugUnlock .. => []
  | .accessAtOwner c _ | .death c _ => [corePkg c]
  | _ => if (s.eventFrom i).isSome && (match i with | .accessAnswer .. | .faultTicket .. | .replayAnswer .. | .plbRefill .. => false | _ => true) then []
    else s.eventPkgs i

/-- Whether an event can take place: none of the packages that it takes place in is frozen (R388) or has lost its fabric (R386), nothing is done by a
package that is lost (R377), links carry what it acts on (R376), and the directory answers (R378). -/
def State.awake (s : State) (i : Instr) : Bool :=
  let ps := s.eventPkgs i
  (ps.all fun p => !(s.pkg p).frozen) && (match i with | .packageReset _ => true | _ => ps.all fun p => !(s.pkg p).fabricStopped) && ((s.eventSites i).all fun p => !(s.pkg p).away) && ((s.eventFrom i).all fun q => ps.all fun p => s.linked q p || (s.pkg p).lost) && s.directoryServes i

end Sys2Proof.Machine
end

