-- ==== Sys2Proof/Machine/Events.lean ====
section
/-! DEFINITION. Which events of the device can take place in a state, and the order in which those that nothing outside the pod has to bring
about do (log 1). -/

namespace Sys2Proof.Machine

/-- Whether an event can take place: its conditions hold, and it changes something. -/
def fires (i : Instr) (s : State) : Bool :=
  match i with
  | .msync core => (evMsync core s).isSome
  | .mclr core => (evMclr core s).isSome
  | .mloadcb core => (evMloadcb core s).isSome
  | .mringConfigure core => (evMringConfigure core s).isSome
  | .mringAdvance core => (evMringAdvance core s).isSome
  | .mchkCompare core => (evMchkCompare core s).isSome
  | .mchkNoCompare core => (evMchkNoCompare core s).isSome
  | .mmove core => (evMmove core s).isSome
  | .mscale core => (evMscale core s).isSome
  | .maddacc core => (evMaddacc core s).isSome
  | .mstore core => (evMstore core s).isSome
  | .mdrain core => (evMdrain core s).isSome
  | .mloadacc core => (evMloadacc core s).isSome
  | .mmaBf16 core badRuns => (evMmaBf16 core badRuns s).isSome
  | .mmaFp16 core badRuns => (evMmaFp16 core badRuns s).isSome
  | .mmaE4e4 core badRuns => (evMmaE4e4 core badRuns s).isSome
  | .mmaE4e5 core badRuns => (evMmaE4e5 core badRuns s).isSome
  | .mmaE5e4 core badRuns => (evMmaE5e4 core badRuns s).isSome
  | .mmaE5e5 core badRuns => (evMmaE5e5 core badRuns s).isSome
  | .mmaC4c4 core badRuns => (evMmaC4c4 core badRuns s).isSome
  | .mmaC4e4 core badRuns => (evMmaC4e4 core badRuns s).isSome
  | .mmaE4c4 core badRuns => (evMmaE4c4 core badRuns s).isSome
  | .mmaS8s8 core badRuns => (evMmaS8s8 core badRuns s).isSome
  | .mmaN8s8 core badRuns => (evMmaN8s8 core badRuns s).isSome
  | .mdrainDelivery n => (evMdrainDelivery n s).isSome
  | .copyDramToRegion eng id => (evCopyDramToRegion eng id s).isSome
  | .copyRegionToDram eng id => (evCopyRegionToDram eng id s).isSome
  | .parcelHandOver n => (evParcelHandOver n s).isSome
  | .slabScatter eng id => (evSlabScatter eng id s).isSome
  | .gather eng id => (evGather eng id s).isSome
  | .ringFeed eng id => (evRingFeed eng id s).isSome
  | .ringFeedPublish eng id => (evRingFeedPublish eng id s).isSome
  | .streamRequest eng id => (evStreamRequest eng id s).isSome
  | .commonsBulkRead eng id => (evCommonsBulkRead eng id s).isSome
  | .commonsBulkWrite eng id => (evCommonsBulkWrite eng id s).isSome
  | .fillRegion eng id => (evFillRegion eng id s).isSome
  | .fillGlobal eng id => (evFillGlobal eng id s).isSome
  | .copyStart eng => (evCopyStart eng s).isSome
  | .copyCompletion eng id => (evCopyCompletion eng id s).isSome
  | .copyHostTimeout eng id => (evCopyHostTimeout eng id s).isSome
  | .copyTicketTimeout eng id => (evCopyTicketTimeout eng id s).isSome
  | .firingStart core => (evFiringStart core s).isSome
  | .gateOpen core slot => (evGateOpen core slot s).isSome
  | .priorityAgeing core slot => (evPriorityAgeing core slot s).isSome
  | .watchdogExpiry core ts => (evWatchdogExpiry core ts s).isSome
  | .timerExpiry core slot => (evTimerExpiry core slot s).isSome
  | .preemptionRequest core src => (evPreemptionRequest core src s).isSome
  | .preemptionSave core ts => (evPreemptionSave core ts s).isSome
  | .preemptionWithdraw core src => (evPreemptionWithdraw core src s).isSome
  | .resumption core => (evResumption core s).isSome
  | .deferredTrap core ts => (evDeferredTrap core ts s).isSome
  | .checkerReexecution core ts agrees => (evCheckerReexecution core ts agrees s).isSome
  | .loadLevelling pkg => (evLoadLevelling pkg s).isSome
  | .spawnRelease core id => (evSpawnRelease core id s).isSome
  | .spawnStart core => (evSpawnStart core s).isSome
  | .stewardFeed n => (evStewardFeed n s).isSome
  | .actorLoadComplete core slot => (evActorLoadComplete core slot s).isSome
  | .messageArrival n => (evMessageArrival n s).isSome
  | .sendAnswer n => (evSendAnswer n s).isSome
  | .messageBusyResend n => (evMessageBusyResend n s).isSome
  | .deliveryTimeout n => (evDeliveryTimeout n s).isSome
  | .messageResend n => (evMessageResend n s).isSome
  | .messageIndeterminate n => (evMessageIndeterminate n s).isSome
  | .signalArrival n => (evSignalArrival n s).isSome
  | .exitArrival n => (evExitArrival n s).isSome
  | .downArrival n => (evDownArrival n s).isSome
  | .childExitArrival n => (evChildExitArrival n s).isSome
  | .bellwetherRestart n => (evBellwetherRestart n s).isSome
  | .killArrival n => (evKillArrival n s).isSome
  | .death core slot => (evDeath core slot s).isSome
  | .deathReclaim core slot => (evDeathReclaim core slot s).isSome
  | .peerLinkRequest n => (evPeerLinkRequest n s).isSome
  | .parcelReservation n => (evParcelReservation n s).isSome
  | .parcelArrival n => (evParcelArrival n s).isSome
  | .accessAtOwner core id => (evAccessAtOwner core id s).isSome
  | .accessAnswer core id => (evAccessAnswer core id s).isSome
  | .accessBusyResend core id => (evAccessBusyResend core id s).isSome
  | .accessRetry core id => (evAccessRetry core id s).isSome
  | .accessIndeterminate core id => (evAccessIndeterminate core id s).isSome
  | .plbRefill core ga => (evPlbRefill core ga s).isSome
  | .faultTicket core id => (evFaultTicket core id s).isSome
  | .replayNotice n => (evReplayNotice n s).isSome
  | .replayAnswer core id => (evReplayAnswer core id s).isSome
  | .ticketTimeout core id => (evTicketTimeout core id s).isSome
  | .firstMapping owner page => (evFirstMapping owner page s).isSome
  | .shootdown n => (evShootdown n s).isSome
  | .directoryCollapse n => (evDirectoryCollapse n s).isSome
  | .replicaDrop n => (evReplicaDrop n s).isSome
  | .collapseComplete n => (evCollapseComplete n s).isSome
  | .migrationBegin page newOwner => (evMigrationBegin page newOwner s).isSome
  | .migrationEnd page => (evMigrationEnd page s).isSome
  | .frameRetirement owner page copied => (evFrameRetirement owner page copied s).isSome
  | .pageReclaim page => (evPageReclaim page s).isSome
  | .patrolScrub owner page offset found => (evPatrolScrub owner page offset found s).isSome
  | .coreQuarantine core => (evCoreQuarantine core s).isSome
  | .matrixWithdrawal core => (evMatrixWithdrawal core s).isSome
  | .clusterWithdrawal eng => (evClusterWithdrawal eng s).isSome
  | .memoryCoreWithdrawal core => (evMemoryCoreWithdrawal core s).isSome
  | .powerSample pkg readings => (evPowerSample pkg readings s).isSome
  | .counterSample pkg => (evCounterSample pkg s).isSome
  | .counterRead n => (evCounterRead n s).isSome
  | .counterProgram n => (evCounterProgram n s).isSome
  | .thresholdSet n => (evThresholdSet n s).isSome
  | .thresholdCancel n => (evThresholdCancel n s).isSome
  | .topologyRegister n => (evTopologyRegister n s).isSome
  | .topologyDeregister n => (evTopologyDeregister n s).isSome
  | .topologyReadUnit n => (evTopologyReadUnit n s).isSome
  | .topologyReadGrant n => (evTopologyReadGrant n s).isSome
  | .attestRegister n => (evAttestRegister n s).isSome
  | .attestDeregister n => (evAttestDeregister n s).isSome
  | .quote n => (evQuote n s).isSome
  | .logRead n => (evLogRead n s).isSome
  | .powerServiceRegister n => (evPowerServiceRegister n s).isSome
  | .powerServiceDeregister n => (evPowerServiceDeregister n s).isSome
  | .cairnTake n => (evCairnTake n s).isSome
  | .cairnMark pkg dom => (evCairnMark pkg dom s).isSome
  | .cairnManifest pkg dom => (evCairnManifest pkg dom s).isSome
  | .cowGranuleCopy core granule => (evCowGranuleCopy core granule s).isSome
  | .cowPageService owner page => (evCowPageService owner page s).isSome
  | .cairnRestore n => (evCairnRestore n s).isSome
  | .powerFailRestore n => (evPowerFailRestore n s).isSome
  | .powerFailDiscard n => (evPowerFailDiscard n s).isSome
  | .controlImageWindowExpiry pkg => (evControlImageWindowExpiry pkg s).isSome
  | .powerStep pkg pins => (evPowerStep pkg pins s).isSome
  | .powerStepFrame pkg hd arg => (evPowerStepFrame pkg hd arg s).isSome
  | .powerFailTrap pkg => (evPowerFailTrap pkg s).isSome
  | .packageReset pkg => (evPackageReset pkg s).isSome
  | .resetFrame pkg hd => (evResetFrame pkg hd s).isSome
  | .ready pkg => (evReady pkg s).isSome
  | .recoveryImage pkg img => (evRecoveryImage pkg img s).isSome
  | .freeze pkg => (evFreeze pkg s).isSome
  | .freezeRelease pkg => (evFreezeRelease pkg s).isSome
  | .debugUnlock pkg token signed => (evDebugUnlock pkg token signed s).isSome
  | .linkModeChange pkg port mode => (evLinkModeChange pkg port mode s).isSome
  | .linkHeartbeat pkg port answered => (evLinkHeartbeat pkg port answered s).isSome
  | .packageLost lost => (evPackageLost lost s).isSome
  | .directoryMapUpdate lost => (evDirectoryMapUpdate lost s).isSome
  | .connectionOpen pkg conn dom => (evConnectionOpen pkg conn dom s).isSome
  | .connectionClose pkg conn byHost => (evConnectionClose pkg conn byHost s).isSome
  | .launch pkg hd hdr flock => (evLaunch pkg hd hdr flock s).isSome
  | .hostMessage pkg hd dst arg msg => (evHostMessage pkg hd dst arg msg s).isSome
  | .hostParcel pkg hd dst arg tag body => (evHostParcel pkg hd dst arg tag body s).isSome
  | .hostRetransmit pkg conn => (evHostRetransmit pkg conn s).isSome
  | .grantRequest pkg hd dom die cluster adds => (evGrantRequest pkg hd dom die cluster adds s).isSome
  | .replacementRequest pkg dom img => (evReplacementRequest pkg dom img s).isSome
  | .replacementActivate pkg => (evReplacementActivate pkg s).isSome
  | .hubWatchdogWrite pkg => (evHubWatchdogWrite pkg s).isSome
  | .revert pkg => (evRevert pkg s).isSome
  | .replacementCommit pkg => (evReplacementCommit pkg s).isSome
  | .hintRecordWrite cls range dwords => (evHintRecordWrite cls range dwords s).isSome
  | .exportTableWrite pkg range dom rights present => (evExportTableWrite pkg range dom rights present s).isSome
  | .imageStoreWrite ga body => (evImageStoreWrite ga body s).isSome
  | .pageParking owner page => (evPageParking owner page s).isSome
  | .add .. | .sub .. | .and .. | .or .. | .xor .. | .andn .. | .orn .. | .xnor .. | .sll .. | .srl .. | .sra ..
  | .rol .. | .ror .. | .slt .. | .sltu .. | .seq .. | .min .. | .max .. | .minu .. | .maxu .. | .mul .. | .mulh ..
  | .mulhu .. | .mulhsu .. | .div .. | .divu .. | .rem .. | .remu .. | .cmovz .. | .cmovn .. | .addw .. | .subw ..
  | .clz .. | .ctz .. | .popc .. | .brev .. | .bswap .. | .sextb .. | .sexth .. | .sextw .. | .addi .. | .andi ..
  | .ori .. | .xori .. | .slti .. | .sltiu .. | .extu .. | .exts .. | .ins .. | .slli .. | .srli .. | .srai ..
  | .rori .. | .lui .. | .sloi .. | .fadd .. | .fsub .. | .fmul .. | .fdiv .. | .fsqrt .. | .fmin .. | .fmax ..
  | .fma .. | .fms .. | .fnma .. | .feq .. | .flt .. | .fle .. | .fclass .. | .fsgnj .. | .fsgnjn .. | .fsgnjx ..
  | .cvt .. | .beq .. | .bne .. | .blt .. | .bge .. | .bltu .. | .bgeu .. | .jal .. | .jalr .. | .codeEndTrap | .lb ..
  | .lbu .. | .lh .. | .lhu .. | .lw .. | .lwu .. | .ld .. | .sb .. | .sh .. | .sw .. | .sd .. | .sn .. | .cld ..
  | .cldGe .. | .cldEq .. | .cldAcq .. | .cver .. | .cstB .. | .cstH .. | .cstW .. | .cstD .. | .cstNl .. | .cstNh ..
  | .cstRel .. | .caadd .. | .camin .. | .camax .. | .caminu .. | .camaxu .. | .caand .. | .caor .. | .caxor ..
  | .caswap .. | .cacas .. | .cafadd .. | .cdefer .. | .crecl .. | .creclR .. | .carm .. | .cdisarm .. | .dldB ..
  | .dldH .. | .dldW .. | .dldD .. | .dstB .. | .dstH .. | .dstW .. | .dstD .. | .fence .. | .efence | .sbindR ..
  | .sbindW .. | .sunbind .. | .srd .. | .swr .. | .sclose .. | .waitc .. | .mcmd .. | .copy .. | .copyNb .. | .cqpop ..
  | .recv .. | .send .. | .sendNb .. | .sendi .. | .give .. | .ralloc .. | .rfree .. | .spawn .. | .link .. | .unlink ..
  | .monitor .. | .demon .. | .trapex .. | .kill .. | .exit .. | .retire | .rets .. | .yield | .tmset .. | .tmcan ..
  | .wix .. | .wixG .. | .mtm .. | .mfm .. | .vtml .. | .vtmlIn .. | .vtmh .. | .vtmhIn .. | .mfs .. | .supset ..
  | .supdel .. | .pkill .. | .psend .. | .mfcr .. | .mtcr .. | .statusWrite .. | .fpctlWrite .. | .eperrWrite ..
  | .vlenWrite .. | .hmaskWrite .. | .timerWrite .. | .breakTrap .. | .vadd .. | .vsub .. | .vmul .. | .vmulh ..
  | .vmin .. | .vmax .. | .vminu .. | .vmaxu .. | .vand .. | .vor .. | .vxor .. | .vsll .. | .vsrl .. | .vsra ..
  | .vadds .. | .vsubs .. | .vfadd .. | .vfsub .. | .vfmul .. | .vfdiv .. | .vfsqrt .. | .vfmin .. | .vfmax ..
  | .vfma .. | .vfeq .. | .vflt .. | .vfle .. | .vfsum .. | .vceq .. | .vclt .. | .vcltu .. | .vsum .. | .vrmin ..
  | .vrmax .. | .vrminu .. | .vrmaxu .. | .vmand .. | .vmor .. | .vmxor .. | .vmnot .. | .vmpop .. | .vmov ..
  | .vsplat .. | .vext .. | .vins .. | .vperm .. | .vslup .. | .vsldn .. | .vzip .. | .vuzp .. | .vsel .. | .vld ..
  | .vst .. | .vlds .. | .vsts .. | .vldg .. | .vstg .. | .vcld .. | .vcadd .. | .vdld .. | .vdst .. | .vqntE4 ..
  | .vqntE5 .. | .vqntC4 .. | .vdqE4 .. | .vdqE5 .. | .vdqC4 .. => false

/-! ## Events that wait in a packet -/

/-- The request that a message to a device service is (R207, R387, R399, R404, R408). -/
noncomputable def requestEvent (service code n : Nat) : List Instr :=
  match service, code with
  | 3, 1 => [.counterRead n]
  | 3, 2 => [.counterProgram n]
  | 3, 3 => [.thresholdSet n]
  | 3, 4 => [.thresholdCancel n]
  | 4, 1 => [.topologyRegister n]
  | 4, 2 => [.topologyDeregister n]
  | 4, 3 => [.topologyReadUnit n]
  | 4, 4 => [.topologyReadGrant n]
  | 5, 1 => [.attestRegister n]
  | 5, 2 => [.attestDeregister n]
  | 5, 3 => [.quote n]
  | 5, 4 => [.logRead n]
  | 6, 1 => [.powerServiceRegister n]
  | 6, 2 => [.powerServiceDeregister n]
  | 7, 1 => [.cairnTake n]
  | 7, 2 => [.cairnRestore n]
  | 7, 3 => [.powerFailRestore n]
  | 7, 4 => [.powerFailDiscard n]
  | _, _ => []

/-- What can become of a packet. -/
noncomputable def packetEvents (n : Nat) (p : Packet) : List Instr :=
  match p.pay with
  | .message m _ _ =>
    if m.isRequest then requestEvent m.dst.toNat m.code n
    else [.messageArrival n, .deliveryTimeout n, .messageBusyResend n, .messageResend n, .messageIndeterminate n]
  | .sendAnswer .. => [.sendAnswer n]
  | .signal _ => [.signalArrival n, .exitArrival n, .downArrival n, .childExitArrival n]
  | .kill .. => [.killArrival n, .deliveryTimeout n, .messageBusyResend n]
  | .linkReq _ => [.peerLinkRequest n]
  | .parcel _ => [.parcelReservation n, .parcelHandOver n, .parcelArrival n, .deliveryTimeout n, .messageBusyResend n]
  | .drain _ => [.mdrainDelivery n, .deliveryTimeout n, .messageBusyResend n]
  | .notice .. => [.replayNotice n]
  | .shootdown .. => [.shootdown n]
  | .collapse .. => [.directoryCollapse n]
  | .drop .. => [.replicaDrop n]
  | .collapseDone .. => [.collapseComplete n]
  | .feed .. => [.stewardFeed n]
  | .restart _ => [.bellwetherRestart n]

/-! ## Events of units -/

/-- Events of a thread set: a deferred trap, the watchdog, a pre-emption. -/
noncomputable def threadEvents (c ts : Nat) : List Instr := [.deferredTrap c ts, .watchdogExpiry c ts, .preemptionSave c ts]

/-- Events of an actor-table slot. -/
noncomputable def slotEvents (c i : Nat) : List Instr :=
  [.death c i, .deathReclaim c i, .actorLoadComplete c i, .timerExpiry c i, .gateOpen c i, .priorityAgeing c i]

/-- Events of an access. -/
noncomputable def accessEvents (c id : Nat) : List Instr :=
  [.accessAtOwner c id, .accessAnswer c id, .faultTicket c id, .replayAnswer c id, .accessBusyResend c id, .ticketTimeout c id,
    .accessIndeterminate c id]

/-- The event of the command at the head of a matrix queue: each kind fires for its own commands only. A command's checksum reruns agree
unless the agenda says otherwise. -/
noncomputable def tileEvents (c : Nat) : List Instr :=
  [.msync c, .mclr c, .mloadcb c, .mringConfigure c, .mringAdvance c, .mchkCompare c, .mchkNoCompare c, .mmove c, .mscale c, .maddacc c, .mstore c,
    .mdrain c, .mloadacc c, .mmaBf16 c 0, .mmaFp16 c 0, .mmaE4e4 c 0, .mmaE4e5 c 0, .mmaE5e4 c 0, .mmaE5e5 c 0, .mmaC4c4 c 0, .mmaC4e4 c 0,
    .mmaE4c4 c 0, .mmaS8s8 c 0, .mmaN8s8 c 0]

/-- The pre-emption requests that the power controller and a cut bring to a core that holds actors, and those that they withdraw (R195). -/
noncomputable def State.holdEvents (s : State) (c : Nat) (k : Core) : List Instr :=
  if k.slots.isEmpty then []
  else
    let cuts := (s.pkgs.flatMap fun p => p.2.cairns).map fun x => HoldSource.cairn x.domain.toNat
    ((HoldSource.power (s.cceil c) :: cuts).map fun h => .preemptionRequest c h) ++ (k.holds.filter fun h => match h with
      | .power _ | .cairn _ => true
      | .slot _ | .tenant _ | .yielded _ => false).map fun h => .preemptionWithdraw c h

/-- Events of a core. -/
noncomputable def State.coreEvents (s : State) (c : Nat) (k : Core) : List Instr :=
  threadEvents c 0 ++ threadEvents c 1 ++ threadEvents c 2 ++ threadEvents c 3 ++ s.holdEvents c k ++ k.slots.flatMap (fun p => slotEvents c p.1) ++
    k.accs.flatMap (fun a => accessEvents c a.id) ++ (k.refills.map fun r => .plbRefill c (r.cls * 2 ^ 54 + r.range * 2 ^ 21)) ++
    (if k.mq.isEmpty then [] else tileEvents c) ++ (k.spawns.map fun e => .spawnRelease c e.id) ++ [.spawnStart c, .resumption c, .firingStart c] ++
    (if k.mxFails.length < 2 then [] else [.matrixWithdrawal c]) ++ k.cow.map fun g => .cowGranuleCopy c g

/-- Events of a request in an active place of a copy engine. -/
noncomputable def jobEvents (e id : Nat) : List Instr :=
  [.copyCompletion e id, .ringFeedPublish e id, .copyDramToRegion e id, .copyRegionToDram e id, .commonsBulkRead e id, .commonsBulkWrite e id,
    .gather e id, .ringFeed e id, .fillRegion e id, .fillGlobal e id, .slabScatter e id, .streamRequest e id, .copyTicketTimeout e id, .copyHostTimeout e id]

/-- Events of an owner: first mappings, copy-on-write services and retirements. -/
noncomputable def ownerEvents (o : Nat) (w : Owner) : List Instr :=
  (w.svcs.filter fun v => v.code == tAbsent).map (fun v => .firstMapping o v.page) ++
    w.homes.flatMap fun h => if h.2.fstate = .cow then [.cowPageService o h.1]
      else if h.2.corrected.length ≥ 8 then [.frameRetirement o h.1 true] else []

/-- Events of a package. A new image is started once its blob is exported, and a watchdog that it no longer writes reverts it 10 ms after the last
write (R396); a package that has been silent for 188,000 cycles is lost (R377). -/
noncomputable def State.packageEvents (s : State) (p : Nat) (q : Package) : List Instr :=
  [.counterSample p, .loadLevelling p, .controlImageWindowExpiry p, .replacementCommit p, .ready p] ++
    (match q.repl with
      | some r =>
        if r.phase = .probation ∧ r.wrote + 9400000 ≤ s.wall then [.revert p]
        else if r.phase = .quiesced then [.replacementActivate p, .revert p] else []
      | none => []) ++ (if s.pkgs.any fun x => decide (x.2.silent.get 0 p ≥ 188000) then [.packageLost p] else []) ++
    q.cairns.flatMap (fun c => [.cairnMark p c.domain.toNat, .cairnManifest p c.domain.toNat]) ++ q.conns.map (fun c => .hostRetransmit p c.1) ++
    if q.lost || !s.bare.isEmpty then [.directoryMapUpdate p] else []

/-- Every event that units and packets of the pod could bring about by themselves, in the order in which one is chosen. -/
noncomputable def State.candidates (s : State) : List Instr :=
  s.cores.flatMap (fun c => s.coreEvents c.1 c.2) ++ s.net.flatMap (fun p => packetEvents p.1 p.2) ++
    (s.engines.map (·.1) ++ (s.cores.filter fun c => !c.2.fifo.isEmpty).map fun c => engineOf c.1).eraseDups.flatMap (fun e =>
      .copyStart e :: (s.engine e).active.flatMap fun j => jobEvents e j.id) ++
    s.owners.flatMap (fun o => ownerEvents o.1 o.2) ++ (s.migrations.map fun m => .migrationEnd m.page) ++
    s.pkgs.flatMap fun p => s.packageEvents p.1 p.2

/-- The first event that the pod brings about by itself. -/
noncomputable def State.dueEvent (s : State) : Option Instr := s.candidates.find? fun i => fires i s && s.awake i

end Sys2Proof.Machine
end

