-- ==== Sys2Proof/Machine/Turn.lean ====
section
/-! DEFINITION. What the pod does next (log 1). -/

namespace Sys2Proof.Machine

/-- What the next step does: an event, an instruction of a thread set, a soft error, or nothing but the passing of time. -/
inductive Next where
  | event (i : Instr)
  | issue (core : Nat) (tset : Fin 4)
  | error (e : SoftError)
  | idle
  deriving DecidableEq, Repr

/-- Whether a thread set can issue: it holds a firing that no pre-emption request covers (R196), or it stands at a trap that is taken first. -/
def Core.canIssue (k : Core) (i : Fin 4) : Bool := (k.thread i).busy && (!(k.thread i).stopping || k.trapsHere i)

/-- The thread set that a core issues from (R33): the current one until it stalls, then the next in round-robin order. A divider stall (R245) is
not among the stalls that R33 lists: no other set issues during it (log 121). -/
def Core.pick (k : Core) : Option (Fin 4) :=
  if k.canIssue k.tset && !(k.thread k.tset).stalled then some k.tset
  else [k.tset + 1, k.tset + 2, k.tset + 3, k.tset].find? k.canIssue

/-- The cores in the order in which they take turns (log 1): those after the one that issued last, then those before it. -/
def State.coreOrder (s : State) : List Nat :=
  let ks := s.cores.map (·.1)
  ks.filter (fun c => decide (s.cur < c)) ++ ks.filter (fun c => decide (c ≤ s.cur))

/-- Whether a core may issue at all: it takes part, and its package's clocks run. -/
def State.coreRuns (s : State) (c : Nat) : Bool := s.coreLive c && (s.pkg (corePkg c)).runs

/-- The next instruction turn. -/
def State.nextIssue (s : State) : Next :=
  (s.coreOrder.findSome? fun c =>
    if s.coreRuns c then (s.core c).pick.map (Next.issue c) else none).getD .idle

/-- Whether an agenda entry is an event: an instruction word comes from its thread set's code region only. -/
def isEvent (i : Instr) : Bool := (encode i).isNone

/-! ## The passing of cycles -/

/-- End-to-end heartbeats (R377): a package that runs and is linked answers those of every other; where it does not, the cycles are counted. While
a fabric image is quiesced it sends none (R393), nor before step 4 of bring-up (R418). -/
def State.listen (s : State) (n : Nat) : State :=
  if s.npkg < 2 then s
  else
    { s with pkgs := s.pkgs.mapVals fun p x =>
        if x.runs && decide (4 ≤ x.bringUp) && !x.quiesced 3 then
          { x with silent := s.pkgs.foldl (fun (m : SMap Nat) q =>
              if q.1 = p then m else if q.2.runs && decide (4 ≤ q.2.bringUp) && s.linked p q.1 then m.del q.1 else m.put q.1 (m.get 0 q.1 + n)) x.silent }
        else x }

/-- `n` cycles pass, with what their passing brings about. -/
def State.pass (s : State) (n : Nat) : State := if n = 0 then s else (s.tick n).listen n

/-! ## What a cycle forces

The spec ties some events to a cycle: a watchdog to the end of its time (R40, R245), a timer to its deadline (R69), an effective priority to each
65,536 cycles (R35), the sampling of loads to each multiple of 8,192 (R43). -/

/-- What must take place at a core in the present cycle. -/
noncomputable def Core.dueNow (k : Core) (c now : Nat) : Option Instr :=
  match ([0, 1, 2, 3] : List (Fin 4)).find? fun i => (k.thread i).busy && decide ((k.thread i).wdogleft = 0) with
  | some i => some (.watchdogExpiry c i)
  | none => k.slots.findSome? fun p =>
      if p.2.timerDue now then some (.timerExpiry c p.1) else if k.agesAt p.1 now then some (.priorityAgeing c p.1) else none

/-- The first event that the present cycle forces. -/
noncomputable def State.forced (s : State) : Option Instr :=
  match s.cores.findSome? fun c => if (s.pkg (corePkg c.1)).runs then c.2.dueNow c.1 (s.now c.1) else none with
  | some i => some i
  | none => s.pkgs.findSome? fun p => if s.levels p.1 && s.hasSpawns p.1 then some (.loadLevelling p.1) else none

/-- The cycles to each thing that will be forced at a core. -/
def Core.dueIn (k : Core) (now : Nat) : List Nat :=
  ((k.threads.toList.filter (·.busy)).map fun t => t.wdogleft.toNat) ++ k.slots.flatMap fun p =>
    (if p.2.state.mortal && p.2.timer.getLsbD 63 then [Max.max 1 (bits p.2.timer.toNat 62 0 - now)] else []) ++
      if k.waitsItsTurn p.1 && decide (p.2.eprio > 0) then [Max.max 1 (p.2.agedAt + 65536 - now)] else []

/-- The cycles to each thing that will be forced in the pod. -/
def State.dueIn (s : State) : List Nat :=
  (s.cores.flatMap fun c => if (s.pkg (corePkg c.1)).runs then c.2.dueIn (s.now c.1) else []) ++
    s.pkgs.filterMap fun p => if p.2.runs && s.hasSpawns p.1 then some (8192 - p.2.cycle % 8192) else none

/-! ## The order within a cycle

Registers receive their values first (R62), then selection reads the counts of the cycle before (R181, R194), then a core issues one instruction,
and then everything else arrives (R31, R53, R178). A CHILD_EXIT is handled by the rules as they stood before an instruction of its cycle (R314). -/

/-- The core whose supervision table a CHILD_EXIT is handled by. -/
def State.childExitCore (s : State) (n : Nat) : Option Nat :=
  (s.signalAt n).bind fun g => (s.liveActor g.dst).map (·.1)

/-- The cycles that must pass before a turn. -/
def State.leastFor (s : State) (t : Turn) : Nat :=
  let one := fun (b : Bool) => if b then 1 else 0
  match t with
  | .issue c _ => one (s.settled || s.issuers.contains c)
  | .event (.firingStart c) => one (s.settled || s.issuers.contains c || s.started.contains c)
  | .event (.accessAnswer c _) => one (s.issuers.contains c)
  | .event (.childExitArrival n) => one ((s.childExitCore n).any s.issuers.contains)
  | .event _ | .error _ => 0

/-- The cycles that must pass before the next step. -/
def State.least (s : State) : Nat := (s.agenda.head?.map s.leastFor).getD 1

/-- What an event leaves behind of its place in the cycle. -/
def State.tookPlace (s : State) (i : Instr) : State :=
  match i with
  | .firingStart c => { s with started := c :: s.started }
  | .accessAnswer .. => s
  | _ => { s with settled := true }

/-- The cycles that the next step takes (log 2): the first of the list, or 1; but never fewer than must pass, and never beyond a cycle that
forces something, whose rest then stays in the list. -/
noncomputable def State.elapse (s : State) : State :=
  if s.forced.isSome then s
  else
    match s.delays with
    | [] => s.pass 1
    | d :: ds =>
      let n := Max.max d s.least
      let m := s.dueIn.foldl Min.min n
      let t := s.pass m
      { t with delays := if t.forced.isSome then (n - m) :: ds else ds }

/-! ## The next turn -/

/-- The package that an error befalls. -/
def SoftError.pkg : SoftError → Nat
  | .coreWord core _ => corePkg core
  | .copyBuffer engine _ => engPkg engine
  | .router p => p

/-- What the next step does (log 1): what the present cycle forces, else the head of the agenda, else the first event of the device that can
take place, else an instruction. The thread set of an issue is the one that R33 gives. -/
noncomputable def State.nextTurn (s : State) : Next :=
  match s.forced with
  | some i => .event i
  | none =>
    match s.agenda with
    | .event i :: _ => if isEvent i && s.awake i then .event i else .idle
    | .issue c t :: _ => if s.coreRuns c && (s.core c).pick == some t then .issue c t else .idle
    | .error e :: _ => if (s.pkg e.pkg).frozen then .idle else .error e
    | [] =>
      match s.dueEvent with
      | some i => .event i
      | none => s.nextIssue

/-- The state in which the next turn is taken: the turn leaves the agenda, unless the cycle forces another one before it. -/
noncomputable def State.takeTurn (s : State) : State := { s with agenda := if s.forced.isSome then s.agenda else s.agenda.drop 1 }

end Sys2Proof.Machine
end

