-- ==== Sys2Proof/Machine/Step.lean ====
section
/-! DEFINITION. One step of the pod. -/

namespace Sys2Proof.Machine

/-- The core and thread set that issue, marked as no longer stalled. -/
def State.select (s : State) (c : Nat) (i : Fin 4) : State :=
  { s with cur := c }.onCore c fun k => { k with tset := i }.onThread i fun t => { t with stalled := false, waitX := 0, waitV := 0 }

/-- The counting of an instruction that has issued in a state `u` (R204). -/
def counted (u : State) : Host.Outcome State Fault Refusal → Host.Outcome State Fault Refusal
  | .next s => .next (u.issued s)
  | .fault f => .fault f
  | .refused r => .refused r

/-- A word issues: the instruction that it decodes to, or the trap of a word that is none (R229). -/
noncomputable def State.runWord (s : State) (w : W32) : Host.Outcome State Fault Refusal :=
  counted s (match decode w with
    | .ok i => exec i s
    | .bad r => s.reject r)

/-- What the selected thread set does: its next word is fetched, decoded and executed; where there is no word, it traps (R259). A deferred fault
is taken first, at this instruction boundary (R63). Where the word lies in a bank word with an uncorrectable error, the error is recorded
(R83) and the word that is fetched is a free value (log 91). -/
noncomputable def State.run (s : State) : Host.Outcome State Fault Refusal :=
  if s.th.deferred.isSome then exec (.deferredTrap s.cur s.me.tset.val) s
  else
    match s.fetch with
    | none => exec .codeEndTrap s
    | some w =>
      match s.me.badRun s.th.pc.toNat 4 with
      | none => s.runWord w
      | some v => ({ s.readError (some v) with serial := s.serial + 1 } : State).runWord (Config.badWord s.serial)

/-- Whether two cores hold the same bytes in a granule. -/
def Core.sameGranule (k q : Core) (g : Nat) : Bool := (k.mem.filter fun c => c.1 / 1024 == g) == q.mem.filter fun c => c.1 / 1024 == g

/-- The granules marked by a Cairn take that a next state has written and not copied (R410): their cores and numbers. -/
def State.cowClash (s t : State) : List (Nat × Nat) :=
  s.cores.flatMap fun c =>
    (c.2.cow.filter fun g => (t.core c.1).cow.contains g && !c.2.sameGranule (t.core c.1) g).map fun g => (c.1, g)

/-- A write of any agent to a marked granule waits at its bank until the engine has copied the granule (R410): the copy takes the step, and what would
have written comes again after it. -/
def State.heedCow (s : State) : Host.Outcome State Fault Refusal → Host.Outcome State Fault Refusal
  | .next t =>
    let l := s.cowClash t
    .next (if l.isEmpty then t else l.foldl (fun s p => s.onCore p.1 fun k => { k with cow := k.cow.filter (· != p.2) }) s)
  | .fault f => .fault f
  | .refused r => .refused r

/-- One step: cycles pass, then one event takes place, one thread set issues one instruction,
a soft error befalls a memory, or nothing happens. -/
noncomputable def step (s : State) : Host.Outcome State Fault Refusal :=
  let s1 := s.elapse
  let s2 := s1.takeTurn
  match s1.nextTurn with
  | .idle => .next s2
  | .event i => s2.heedCow (exec i (s2.tookPlace i))
  | .error e => .next (s2.softError e)
  | .issue c t => if s2.coreExists c then s2.heedCow (({ s2 with issuers := c :: s2.issuers } : State).select c t).run else .fault .noCore

/-- The state in which the next step fetches and runs a word, as the first instruction of a firing (log 13). An instruction is
one word (R227), so only its low 32 bits are placed. -/
def State.withFetchWord (s : State) (_nbits w : Nat) : State := s.place (BitVec.ofNat 32 w)

end Sys2Proof.Machine
end

