-- ==== Sys2Proof/Safety.lean ====
section
/-! DEFINITION. What counts as a safe run, and the well-formedness of a state that claims are stated with. -/

namespace Sys2Proof.Machine

/-- A step that neither faults nor is refused. -/
def Safe (r : Answer) : Prop := ∃ t, r = .next t

/-- Every memory of the pod (the core memories and the global memory) is in canonical form. -/
def State.MemOk (s : State) : Prop := s.gmem.wf = true ∧ ∀ p ∈ s.cores, p.2.mem.wf = true

/-- A step of the pod, if it is one. -/
noncomputable def State.after (s : State) : Option State :=
  match step s with
  | .next t => some t
  | .fault _ => none
  | .refused _ => none

end Sys2Proof.Machine
end

