-- ==== Sys2Proof/Certificates/Slice0/Obligations.lean ====
section
/-! DEFINITION. The statements about the model, and the few words they are said with. -/

namespace Sys2Proof.Claims

open Sys2Proof.Machine

/-- A scalar register of the issuing thread set. -/
abbrev X (s : State) (r : Reg) : W64 := s.th.readX r

/-- A vector register of the issuing thread set. -/
abbrev V (s : State) (r : Reg) : V256 := s.th.readV r

/-- `s` after an instruction that writes one scalar register and goes on: nothing else changes. -/
def wroteX (s : State) (d : Reg) (v : W64) : State := s.onTh fun t => (t.writeX d v).nextPc

/-- `s` after an instruction that writes one scalar register and ORs accrued exception flags into FPCTL. -/
def wroteFp (s : State) (d : Reg) (r : Nat × FFlags) : State :=
  s.onTh fun t => ((t.writeX d (BitVec.ofNat 64 r.1)).addFlags r.2).nextPc

/-- `s` after an instruction that writes one vector register and goes on. -/
def wroteV (s : State) (d : Reg) (v : V256) : State := s.onTh fun t => (t.writeV d v).nextPc

/-- `s` after an instruction that changes no register and goes on. -/
def wentOn (s : State) : State := s.onTh fun t => t.nextPc

/-- `s` with the program counter of the issuing thread set elsewhere. -/
def wentTo (s : State) (pc : W64) : State := s.onTh fun t => { t with pc := pc }

/-- What a local store leaves of a core whose words hold no error: the bytes at their places, everything else as it was. -/
def stored (s : State) (e : RegEntry) (va : Nat) (bs : List Byte) : State :=
  s.onMe fun k => { k with mem := k.mem.writeMap e.place va bs }

/-- Lane `i` of a vector register at width `w` (R57). -/
def Ln (w : Nat) (v : V256) (i : Nat) : BitVec w := v.extractLsb' (w * i) w

/-- The element width that a width code names (R235). -/
def wid (c : BitVec 2) : Nat := 8 * 2 ^ c.toNat

/-- The floating-point format that a width code names (R265). -/
def vfmt (c : BitVec 2) : FFmt := if c = 0 then .bf16 else if c = 1 then .fp16 else if c = 2 then .fp32 else .fp64

/-- The mask bit of a position (R58): MSEL 1 to 4 name v0 to v3, 5 and 6 the complements of v0 and v1, 0 no mask. -/
def maskOn (s : State) (q : BitVec 3) (i : Nat) : Bool :=
  if q = 1 then (V s 0).getLsbD i else if q = 2 then (V s 1).getLsbD i else if q = 3 then (V s 2).getLsbD i
  else if q = 4 then (V s 3).getLsbD i else if q = 5 then !(V s 0).getLsbD i else if q = 6 then !(V s 1).getLsbD i else true

/-- A position below the bound min(VLEN, L) whose mask bit is 1 (R58, R262). -/
def active (s : State) (q : BitVec 3) (l i : Nat) : Prop := i < Min.min s.th.vlen.toNat l ∧ maskOn s q i = true

/-- The vector registers that an instruction names and its mask register are present. -/
def hereV (s : State) (rs : List Reg) (q : BitVec 3) : Prop :=
  (∀ r ∈ rs, s.th.hereV r = true) ∧ (q = 1 ∨ q = 5 → s.th.hereV 0 = true) ∧ (q = 2 ∨ q = 6 → s.th.hereV 1 = true) ∧
    (q = 3 → s.th.hereV 2 = true) ∧ (q = 4 → s.th.hereV 3 = true)

/-- R263: a register written lane by lane: active lanes from the operation, tail lanes by TP, masked-off lanes by MP. -/
def LaneWise (s : State) (d : Reg) (q : BitVec 3) (tp mp : BitVec 1) (w : Nat) (v : V256) (op : Nat → BitVec w) : Prop :=
  ∀ i, i < 256 / w → Ln w v i =
    if Min.min s.th.vlen.toNat (256 / w) ≤ i then (if tp = 1 then 0 else Ln w (V s d) i)
    else if maskOn s q i then op i else if mp = 1 then 0 else Ln w (V s d) i

/-- R267, R269: a register written as a mask over `l` positions. -/
def MaskWise (s : State) (d : Reg) (q : BitVec 3) (tp mp : BitVec 1) (l : Nat) (v : V256) (op : Nat → Bool) : Prop :=
  ∀ i, i < 256 → v.getLsbD i =
    if Min.min s.th.vlen.toNat l ≤ i then (if tp = 1 then false else (V s d).getLsbD i)
    else if maskOn s q i then op i else if mp = 1 then false else (V s d).getLsbD i

/-- R268, R270: a result in lane 0 with every other lane a tail lane. -/
def LaneZero (s : State) (d : Reg) (tp : BitVec 1) (w : Nat) (v : V256) (r : BitVec w) : Prop :=
  Ln w v 0 = r ∧ ∀ i, 0 < i → i < 256 / w → Ln w v i = if tp = 1 then 0 else Ln w (V s d) i

/-- The union of the flags that the active lanes of an operation raise (R265). -/
def FlagUnion (s : State) (q : BitVec 3) (l : Nat) (fl : FFlags) (op : Nat → FFlags) : Prop :=
  ∀ g ∈ [FFlags.nv, FFlags.dz, FFlags.of, FFlags.uf, FFlags.nx], (g fl = true ↔ ∃ i, active s q l i ∧ g (op i) = true)

/-- `s` after a vector instruction that also ORs flags into FPCTL. -/
def wroteVf (s : State) (d : Reg) (v : V256) (fl : FFlags) : State := s.onTh fun t => ((t.writeV d v).addFlags fl).nextPc

/-- The pairwise tree of R266 over `2 ^ n` places from place `i`: an absent place is passed over, two values are added. -/
def tree (f : FFmt) (rm : Nat) (place : Nat → Option Nat) : Nat → Nat → Option Nat × FFlags
  | 0, i => (place i, {})
  | n + 1, i =>
    let a := tree f rm place n i
    let b := tree f rm place n (i + 2 ^ n)
    match a.1, b.1 with
    | none, _ => (b.1, a.2.or b.2)
    | _, none => (a.1, a.2.or b.2)
    | some x, some y =>
      let r := f.addNum rm (f.read x) (f.read y)
      (some r.1, (a.2.or b.2).or r.2)

/-- What a commons or DRAM instruction needs and asks for: the x registers, v registers and mask that must be present, and the access with
its operation, the bytes it is aligned to, the class it needs, its captured operands, its channel and its first destination. -/
structure Asking where
  i : Instr
  xs : List Reg
  vs : List Reg := []
  q : BitVec 3 := 0
  ask : Ask

/-- R283 to R288: the scalar commons instructions. D of a store is its data register. -/
def asks (d a b : Reg) (c : BitVec 2) (s : State) : List Asking :=
  let ga := (X s a).toNat
  let ld : Instr → AccOp → Asking := fun i op => { i := i, xs := [d, a], ask := { op := op, ga := ga, size := 8, dest := d.toNat } }
  let ldv : Instr → AccOp → Nat → List W64 → Asking := fun i op n ops =>
    { i := i, xs := [d, a, b], ask := { op := op, ga := ga, size := n, ops := ops, dest := d.toNat } }
  let st : Instr → AccOp → Nat → Asking := fun i op n => { i := i, xs := [d, a], ask := { op := op, ga := ga, size := n, ops := [X s d] } }
  let v : List W64 := [X s b]
  [ld (.cld d a) .load, ldv (.cldGe d a b) .loadGe 8 v, ldv (.cldEq d a b) .loadEq 8 v, ldv (.cldAcq d a b) .loadAcq 8 v,
    ld (.cver d a) .ver, st (.cstB d a) .storeB 1, st (.cstH d a) .storeH 2, st (.cstW d a) .storeW 4, st (.cstD d a) .storeD 8,
    st (.cstNl d a) .storeNl 1, st (.cstNh d a) .storeNh 1, st (.cstRel d a) .storeRel 8,
    ldv (.caadd d a b) (.atom .add) 8 v, ldv (.camin d a b) (.atom .min) 8 v, ldv (.camax d a b) (.atom .max) 8 v,
    ldv (.caminu d a b) (.atom .minu) 8 v, ldv (.camaxu d a b) (.atom .maxu) 8 v, ldv (.caand d a b) (.atom .and) 8 v,
    ldv (.caor d a b) (.atom .or) 8 v, ldv (.caxor d a b) (.atom .xor) 8 v, ldv (.caswap d a b) (.atom .swap) 8 v,
    ldv (.cacas d a b) (.atom .cas) 8 [X s b, X s d], ldv (.cafadd d a b) (.atom .fadd) 4 v,
    { i := .cdefer d a b c, xs := [d, a, b], ask := { op := .defer, ga := ga, size := 8, ops := [X s d, X s b], chan := c.toNat } },
    { i := .crecl a b, xs := [a, b], ask := { op := .recl, ga := ga, size := 8, ops := v } }, ld (.cdisarm d a) .disarm,
    { i := .carm d a c, xs := [d, d + 1, d + 2, a]
      ask := { op := .arm, ga := ga, size := 8, ops := [X s d, X s (d + 1), X s (d + 2)], chan := c.toNat } }]

/-- The four doublewords of a vector register, the low one first. -/
def words4 (v : V256) : List W64 := [Ln 64 v 0, Ln 64 v 1, Ln 64 v 2, Ln 64 v 3]

/-- R289 to R291: the vector forms of the commons and the instructions of memory cores. A vector load captures which bits it takes from
memory and what R263 gives the others. -/
noncomputable def vasks (d a : Reg) (q : BitVec 3) (t m : BitVec 1) (w : BitVec 2) (h : BitVec 1) (s : State) : List Asking :=
  let ga := (X s a).toNat
  let full := words4 (s.th.lanes q 1 1 (wid w) 0 fun _ => 2 ^ wid w - 1)
  let plan := full ++ words4 (s.th.lanes q t m (wid w) (V s d) fun _ => 0)
  let ld : Instr → Nat → Asking := fun i n => { i := i, xs := [d, a], ask := { op := .dld n, ga := ga, size := n, cls := 0, dest := d.toNat } }
  let st : Instr → Nat → Asking := fun i n => { i := i, xs := [d, a], ask := { op := .dst n, ga := ga, size := n, cls := 0, ops := [X s d] } }
  [{ i := .vcld d a q t m w, xs := [a], vs := [d], q := q
     ask := { op := .vload, ga := ga, size := 32, ops := plan, destV := true, dest := d.toNat } },
    { i := .vcadd d a h, xs := [a], vs := [d, d + 1]
      ask := { op := .vadd, ga := ga, size := 64, ops := words4 (V s d) ++ words4 (V s (d + 1)), chan := h.toNat, destV := true
               dest := d.toNat } },
    ld (.dldB d a) 1, ld (.dldH d a) 2, ld (.dldW d a) 4, ld (.dldD d a) 8, st (.dstB d a) 1, st (.dstH d a) 2, st (.dstW d a) 4,
    st (.dstD d a) 8,
    { i := .vdld d a q t m w, xs := [a], vs := [d], q := q
      ask := { op := .dld 32, ga := ga, size := 32, cls := 0, ops := plan, destV := true, dest := d.toNat } },
    { i := .vdst d a q w, xs := [a], vs := [d], q := q
      ask := { op := .dst 32, ga := ga, size := 32, cls := 0, ops := words4 (V s d) ++ full } }]

/-- The registers that an access names are present, and no acquire of the firing is outstanding. -/
def Asking.may (p : Asking) (s : State) : Prop :=
  s.th.hereXs p.xs = true ∧ hereV s p.vs p.q ∧ s.me.acquiring s.th.fid = false

/-- A packet that the issuing core puts under way. -/
def posted (s : State) (pay : Payload) : Packet := { src := s.cur / 65536, born := s.cycle (s.cur / 65536), pay := pay }

/-- A DELIVERY signal under way (R170, R420): to the actor that answers for a refused message or parcel, about its addressee. -/
def delivered (t : State) (n : Nat) (dst : W64) (reason : Nat) (subject : W64) (detail : Nat) : Prop :=
  ∃ p g, t.packet n = some p ∧ p.pay = .signal g ∧ g.dst = dst ∧ g.kind = 4 ∧ g.reason = reason ∧ g.subject = subject ∧
    g.detail = BitVec.ofNat 64 detail

/-- A signal under way whose words 0 and 1 and DETAIL are given: its addressee, KIND, reason, SUB and subject. -/
def signalled (t : State) (n : Nat) (dst : W64) (kind reason sub : Nat) (subject : W64) : Prop :=
  ∃ p g, t.packet n = some p ∧ p.pay = .signal g ∧ g.dst = dst ∧ g.kind = kind ∧ g.reason = reason ∧ g.sub = sub ∧ g.subject = subject

/-- A message that finds its actor at once (R156, R302): in reach, live by the directory, in its slot under the name and the incarnation
named, and no cut of its domain under way. -/
def finds (s : State) (m : Msg) (c i : Nat) : Prop :=
  s.reaches m.domain m.everyDomain m.dst = true ∧ isService m.dst = false ∧ isGateway m.dst = false ∧
    s.slotServed (s.nameSlot m.dst) = true ∧ (∃ e, s.dirEntry m.dst = some e ∧ e.state = 1 ∧ e.core = c ∧ e.slot = i) ∧
    (s.actor c i).name = m.dst ∧ (s.actor c i).state.accepts = true ∧ (m.named = true → (s.actor c i).incarn = m.inc) ∧
    s.cut (s.actor c i).domain = false ∧ (s.pkg (c / 65536)).runs = true

end Sys2Proof.Claims

open Sys2Proof Sys2Proof.Machine Sys2Proof.Claims

/-- R56, R60: what the words that the statements use leave alone: they touch the issuing thread set only; the written register
takes the value, x0 stays 0; a written register is present; no other register, no thread set, no core, no byte of memory changes. -/
def Obligations.RegisterFrame : Prop :=
  ∀ (s : State) (d : Reg) (v pc : W64) (u : V256) (f : Nat × FFlags) (fl : FFlags),
    let lonely : State → Prop := fun t => t = { s with cores := t.cores } ∧ (∀ c, c ≠ s.cur → t.core c = s.core c) ∧
      t.me = { s.me with threads := t.me.threads } ∧ (∀ i, i ≠ s.me.tset → t.me.thread i = s.me.thread i) ∧
      t.gmem = s.gmem ∧ ∀ c a, (t.core c).mem.read a = (s.core c).mem.read a
    let took : State → Reg → W64 → Prop := fun t e w => ∀ r, X t r = (if r = 0 then 0 else if r = e then w else X s r) ∧
      t.th.hereX r = (decide (r = e) || s.th.hereX r)
    let tookV : State → Reg → V256 → Prop := fun t e w => ∀ r, V t r = (if r = e then w else V s r) ∧
      t.th.hereV r = (decide (r = e) || s.th.hereV r)
    (lonely (wroteX s d v) ∧ took (wroteX s d v) d v ∧
      (wroteX s d v).th = { s.th with x := (wroteX s d v).th.x, xp := (wroteX s d v).th.xp, pc := s.th.pc + 4 }) ∧
    (lonely (wroteFp s d f) ∧ took (wroteFp s d f) d (BitVec.ofNat 64 f.1) ∧
      (wroteFp s d f).th = { s.th with
        x := (wroteFp s d f).th.x, xp := (wroteFp s d f).th.xp, fpctl := s.th.fpctl ||| f.2.word, pc := s.th.pc + 4 }) ∧
    (lonely (wroteV s d u) ∧ tookV (wroteV s d u) d u ∧
      (wroteV s d u).th = { s.th with v := (wroteV s d u).th.v, vp := (wroteV s d u).th.vp, pc := s.th.pc + 4 }) ∧
    (lonely (wroteVf s d u fl) ∧ tookV (wroteVf s d u fl) d u ∧
      (wroteVf s d u fl).th = { s.th with
        v := (wroteVf s d u fl).th.v, vp := (wroteVf s d u fl).th.vp, fpctl := s.th.fpctl ||| fl.word, pc := s.th.pc + 4 }) ∧
    (lonely (wentOn s) ∧ (wentOn s).th = { s.th with pc := s.th.pc + 4 }) ∧
    (lonely (wentTo s pc) ∧ (wentTo s pc).th = { s.th with pc := pc })

/-- Decoding and encoding agree: the word of a well-formed instruction decodes to it, with every operand. -/
def Obligations.DecodeEncode : Prop := ∀ (i : Instr) (w : W32), i.WellFormed = true → encode i = some w → decode w = .ok i

/-- Every word that decodes is the word of the instruction it stands for, and that instruction is well formed: no word is accepted with a
bit that its instruction does not hold. -/
def Obligations.EncodeDecode : Prop := ∀ (i : Instr) (w : W32), decode w = .ok i → i.WellFormed = true ∧ encode i = some w

/-- R227, R230, R231, R235, R236, R243: words that the spec writes out, and the two that are never instructions (R229). -/
def Obligations.DecodeWords : Prop :=
  decode 0x04A63800#32 = .ok (.add 5 6 7) ∧
  decode 0x64A0FFFD#32 = .ok (.bne 5 0 0xFFFD) ∧
  decode 0xE4642AA0#32 = .ok (.vfadd 3 4 5 2 1 0 2) ∧
  decode 0xD2800000#32 = .ok (.recv 20 0 0) ∧
  decode 0xD0A0002D#32 = .ok (.mfm 5 0) ∧
  decode 0xD007002C#32 = .ok (.mtm 0 7) ∧
  decode 0xD0080005#32 = .ok (.send 8 0 1) ∧
  decode 0xD0000020#32 = .ok .retire ∧
  decode 0#32 = .bad .zeroOrOnes ∧ decode 0xFFFFFFFF#32 = .bad .zeroOrOnes

/-- R33, R63, R83, R227, R229, R259 and log 1: a step lets the cycles of its turn pass and then runs what the turn names. Where it names a thread
set, no deferred fault is due and the code region holds a word at the program counter: the instruction that those four bytes decode to, as exec
gives it, and the counting of R204 after it; a word that decodes to none traps as R229 says; where an uncorrectable error lies under the word, the
error is recorded and the word that runs is a free value (log 91); beyond the code region's end the thread set traps. Where the turn is an event,
the event. An event that the present cycle forces, a watchdog, a timer, an effective priority or the sampling of loads, comes first. A turn of
the agenda is taken where its core runs and the thread set is the one that R33 gives: the current one until it stalls, and then the next that can
issue. What would write a granule that a Cairn take has marked waits, and the granule is copied instead (R410). The order of turns and their cycles
are the model's choice (logs 1 and 2). -/
def Obligations.StepRunsDecoded : Prop :=
  ∀ (s : State) (c : Nat) (t : Fin 4) (w : W32) (i : Instr) (r : Reject) (rest : List Turn) (v : W64),
    let s1 := s.elapse
    let s2 := s1.takeTurn
    let u := ({ s2 with issuers := c :: s2.issuers } : State).select c t
    let e := u.me.region u.self.code
    let within : Prop := e.base * 1024 ≤ u.th.pc.toNat ∧ u.th.pc.toNat + 4 ≤ (e.base + e.size) * 1024
    let holds : Prop := within ∧ ∀ j, j < 4 → u.me.mem.read (u.th.pc.toNat + j) = w.extractLsb' (8 * j) 8
    let sound : Prop := u.me.badRun u.th.pc.toNat 4 = none
    let turn : Prop := s1.nextTurn = .issue c t ∧ s2.coreExists c = true ∧ u.th.deferred = none
    let u' : State := { u.readError (some v) with serial := u.serial + 1 }
    let k := s1.core c
    let ready : Fin 4 → Prop := fun j => (k.thread j).busy = true ∧ (k.thread j).stopping = false
    let runs : Prop := s1.coreLive c = true ∧ (s1.pkg (c / 65536)).runs = true
    (turn → holds → sound → decode w = .ok i → step s = s2.heedCow (counted u (exec i u))) ∧
    (turn → holds → sound → decode w = .bad r → step s = s2.heedCow (counted u (u.illegal (u.rejectSub r)))) ∧
    (turn → within → u.me.badRun u.th.pc.toNat 4 = some v → step s = s2.heedCow (counted u' (match decode (Config.badWord u.serial) with
      | .ok i => exec i u'
      | .bad r => u'.illegal (u'.rejectSub r)))) ∧
    (turn → ¬within → step s = s2.heedCow (exec .codeEndTrap u)) ∧
    (s1.nextTurn = .issue c t → s2.coreExists c = true → u.th.deferred.isSome = true → step s = s2.heedCow (exec (.deferredTrap c t) u)) ∧
    (s1.nextTurn = .event i → step s = s2.heedCow (exec i (s2.tookPlace i))) ∧
    (s1.forced = some i → s1.nextTurn = .event i ∧ s2.agenda = s1.agenda) ∧
    (s1.forced = none → s2.agenda = s1.agenda.drop 1) ∧
    (s1.forced = none → s.agenda = .event i :: rest → encode i = none → s1.awake i = true → s1.nextTurn = .event i) ∧
    (s1.forced = none → s.agenda = .issue c t :: rest → runs → k.tset = t → ready t → (k.thread t).stalled = false → s1.nextTurn = .issue c t) ∧
    (s1.forced = none → s.agenda = .issue c t :: rest → runs → (k.thread k.tset).stalled = true → t = k.tset + 1 → ready t → s1.nextTurn = .issue c t) ∧
    (∀ y, counted u (.next y) = .next (u.issued y)) ∧
    (∀ y, (∀ d ∈ s2.cores, ∀ g ∈ d.2.cow, g ∈ (y.core d.1).cow → d.2.sameGranule (y.core d.1) g = true) → s2.heedCow (.next y) = .next y) ∧
    (∀ y d g, (d, s2.core d) ∈ s2.cores → g ∈ (s2.core d).cow → g ∈ (y.core d).cow → (s2.core d).sameGranule (y.core d) g = false →
      ∃ z, s2.heedCow (.next y) = .next z ∧ g ∉ (z.core d).cow ∧ z.gmem = s2.gmem ∧ ∀ e, (z.core e).mem = (s2.core e).mem)

/-- R67, R83, R84, R102, R210, R400, R417: what the spec says a package reset leaves: every core's memory zero and without error, the save
areas in the region table, every bank empty, no hint record, no name, no flock, every slot free, nothing in flight, CYCLE 0, the frame cap 15,
ENERGY and RSTDIE 0, the host port not ready. -/
def Obligations.ResetState : Prop :=
  (∀ c a, (State.reset.core c).mem.read a = 0 ∧ (State.reset.core c).bad = []) ∧
  (∀ w, State.reset.word w = {}) ∧ (∀ b, State.reset.bank b = {}) ∧
  (∀ name, State.reset.dirEntry name = none) ∧ (∀ p, State.reset.hintOf p = none) ∧ (∀ n, State.reset.flock n = none) ∧
  (∀ c i, (State.reset.core c).actor i = {} ∧ ((State.reset.core c).actor i).state = .free) ∧
  (∀ k, k < 8 → ∀ c, (State.reset.core c).region (248 + k) = { valid := true, base := 368 + 2 * k, size := 2, kind := kSave }) ∧
  State.reset.net = [] ∧ State.reset.cycle 0 = 0 ∧ (State.reset.pkg 0).isReady = false ∧ (State.reset.pkg 0).frameCap = 15 ∧
  (∀ i : Fin 4, ((State.reset.pkg 0).dies[i]).energy = 0 ∧ ((State.reset.pkg 0).dies[i]).rstdie = 0)

/-- Every memory of the reset state is in canonical form. The form is the model's own, by which equal memories are equal data. -/
def Obligations.ResetMemory : Prop := State.reset.MemOk

/-- Every step keeps every memory in canonical form: no address is listed twice or out of order, and none with the value that an unlisted address
reads as. The form is the model's own, by which equal memories are equal data. -/
def Obligations.StepKeepsMemory : Prop := ∀ s t : State, s.MemOk → step s = .next t → t.MemOk
/-- R246, R247: each integer instruction of two registers completes when its registers are present, with the value of its row; nothing
but x[D], its presence bit and the program counter changes (`wroteX`). -/
def Obligations.AluResults : Prop :=
  ∀ (d a b : Reg) (s : State), s.th.hereXs [a, b, d] = true →
    ∀ p ∈ [((.add d a b : Instr), X s a + X s b), (.sub d a b, X s a - X s b), (.and d a b, X s a &&& X s b),
        (.or d a b, X s a ||| X s b), (.xor d a b, X s a ^^^ X s b), (.andn d a b, X s a &&& ~~~X s b),
        (.orn d a b, X s a ||| ~~~X s b), (.xnor d a b, ~~~(X s a ^^^ X s b)),
        (.sll d a b, X s a <<< ((X s b).toNat % 64)), (.srl d a b, X s a >>> ((X s b).toNat % 64)),
        (.sra d a b, (X s a).sshiftRight ((X s b).toNat % 64)), (.rol d a b, (X s a).rotateLeft ((X s b).toNat % 64)),
        (.ror d a b, (X s a).rotateRight ((X s b).toNat % 64)),
        (.slt d a b, if (X s a).slt (X s b) then 1 else 0), (.sltu d a b, if (X s a).ult (X s b) then 1 else 0),
        (.seq d a b, if X s a = X s b then 1 else 0),
        (.min d a b, if (X s a).slt (X s b) then X s a else X s b), (.max d a b, if (X s a).slt (X s b) then X s b else X s a),
        (.minu d a b, if (X s a).ult (X s b) then X s a else X s b), (.maxu d a b, if (X s a).ult (X s b) then X s b else X s a),
        (.mul d a b, X s a * X s b),
        (.mulh d a b, BitVec.extractLsb' 64 64 ((X s a).signExtend 128 * (X s b).signExtend 128)),
        (.mulhu d a b, BitVec.extractLsb' 64 64 ((X s a).zeroExtend 128 * (X s b).zeroExtend 128)),
        (.mulhsu d a b, BitVec.extractLsb' 64 64 ((X s a).signExtend 128 * (X s b).zeroExtend 128)),
        (.div d a b, if X s b = 0 then -1 else (X s a).sdiv (X s b)), (.divu d a b, if X s b = 0 then -1 else X s a / X s b),
        (.rem d a b, if X s b = 0 then X s a else (X s a).srem (X s b)), (.remu d a b, if X s b = 0 then X s a else X s a % X s b),
        (.cmovz d a b, if X s b = 0 then X s a else X s d), (.cmovn d a b, if X s b = 0 then X s d else X s a),
        (.addw d a b, ((X s a + X s b).setWidth 32).signExtend 64), (.subw d a b, ((X s a - X s b).setWidth 32).signExtend 64)],
      exec p.1 s = .next (wroteX s d p.2)

/-- R246: each integer instruction of one register completes when its registers are present, with the value of its row. -/
def Sys2Proof.Claims.UnaryResults : Prop :=
  ∀ (d a : Reg) (s : State), s.th.hereXs [a, d] = true →
    (∃ n : Nat, exec (.clz d a) s = .next (wroteX s d (BitVec.ofNat 64 n)) ∧ n ≤ 64 ∧ (∀ i, 64 - n ≤ i → (X s a).getLsbD i = false) ∧
      (n < 64 → (X s a).getLsbD (63 - n) = true)) ∧
    (∃ n : Nat, exec (.ctz d a) s = .next (wroteX s d (BitVec.ofNat 64 n)) ∧ n ≤ 64 ∧ (∀ i, i < n → (X s a).getLsbD i = false) ∧
      (n < 64 → (X s a).getLsbD n = true)) ∧
    exec (.popc d a) s = .next (wroteX s d (BitVec.ofNat 64 ((List.range 64).countP fun i => (X s a).getLsbD i))) ∧
    (∃ v : W64, exec (.brev d a) s = .next (wroteX s d v) ∧ ∀ i, i < 64 → v.getLsbD i = (X s a).getLsbD (63 - i)) ∧
    (∃ v : W64, exec (.bswap d a) s = .next (wroteX s d v) ∧
      ∀ i, i < 8 → BitVec.extractLsb' (8 * i) 8 v = BitVec.extractLsb' (8 * (7 - i)) 8 (X s a)) ∧
    exec (.sextb d a) s = .next (wroteX s d (((X s a).setWidth 8).signExtend 64)) ∧
    exec (.sexth d a) s = .next (wroteX s d (((X s a).setWidth 16).signExtend 64)) ∧
    exec (.sextw d a) s = .next (wroteX s d (((X s a).setWidth 32).signExtend 64))

/-- R248 to R250: each immediate, bit-field and immediate-shift instruction completes when its registers are present, with the value
of its row. L is LEN − 1. -/
def Sys2Proof.Claims.ImmediateResults : Prop :=
  ∀ (d a : Reg) (i : BitVec 16) (l p n : BitVec 6) (s : State), s.th.hereXs [a, d] = true →
    (∀ q ∈ [((.addi d a i : Instr), X s a + i.signExtend 64), (.andi d a i, X s a &&& i.signExtend 64),
        (.ori d a i, X s a ||| i.zeroExtend 64), (.xori d a i, X s a ^^^ i.zeroExtend 64),
        (.slti d a i, if (X s a).slt (i.signExtend 64) then 1 else 0), (.sltiu d a i, if (X s a).ult (i.signExtend 64) then 1 else 0),
        (.sloi d a i, (X s a <<< 16) ||| i.zeroExtend 64), (.lui d i, ((i ++ 0#16 : BitVec 32)).signExtend 64),
        (.slli d a n, X s a <<< n.toNat), (.srli d a n, X s a >>> n.toNat), (.srai d a n, (X s a).sshiftRight n.toNat),
        (.rori d a n, (X s a).rotateRight n.toNat)],
      exec q.1 s = .next (wroteX s d q.2)) ∧
    (∃ v : W64, exec (.extu d a l p) s = .next (wroteX s d v) ∧
      ∀ j, v.getLsbD j = (decide (j ≤ l.toNat) && (X s a).getLsbD (p.toNat + j))) ∧
    (∃ v : W64, exec (.exts d a l p) s = .next (wroteX s d v) ∧
      ∀ j, j < 64 → v.getLsbD j = (X s a).getLsbD (p.toNat + Min.min j l.toNat)) ∧
    (∃ v : W64, exec (.ins d a l p) s = .next (wroteX s d v) ∧
      ∀ j, j < 64 → v.getLsbD j =
        if p.toNat ≤ j ∧ j ≤ p.toNat + l.toNat then (X s a).getLsbD (j - p.toNat) else (X s d).getLsbD j)

/-- R246, R248 to R250: the integer instructions of one register, and the immediate, bit-field and immediate-shift instructions. -/
def Obligations.UnaryAndImmediateResults : Prop := Claims.UnaryResults ∧ Claims.ImmediateResults


/-- R251, R252: each floating-point sum, product, quotient, root and fused form completes when its registers are present, with its
operands read under the format, the result written to x[D] and its flags ORed into FPCTL; nothing else changes (`wroteFp`). The numbers
come from the operations of `RoundedOnce` and `ExactOperands`. -/
def Obligations.FloatResults : Prop :=
  ∀ (d a b : Reg) (f : BitVec 2) (m : BitVec 3) (s : State), s.th.hereXs [d, a, b] = true →
    let g : FFmt := if f = 0 then .fp32 else .fp64
    let r : Nat := if m = 7 then (s.th.fpctl &&& 7).toNat else m.toNat
    let n : Reg → Machine.Num := fun x => g.read ((X s x).toNat % 2 ^ g.width)
    ∀ p ∈ [((.fadd d a b f m : Instr), g.addNum r (n a) (n b)), (.fsub d a b f m, g.addNum r (n a) (n b).neg),
        (.fmul d a b f m, g.mulNum r (n a) (n b)), (.fdiv d a b f m, g.divNum r (n a) (n b)),
        (.fma d a b f m, g.fmaNum r false false (n a) (n b) (n d)), (.fms d a b f m, g.fmaNum r false true (n a) (n b) (n d)),
        (.fnma d a b f m, g.fmaNum r true false (n a) (n b) (n d))] ++
        (if a = b then [(.fsqrt d a f m, g.sqrtNum r (n a))] else []),
      exec p.1 s = .next (wroteFp s d p.2)

/-- R253: minimum, maximum, comparisons, class and sign injection complete when their registers are present; only the low bits that the
format fills are read, comparisons give 0 or 1 in all 64 bits, and sign injections raise no flag. -/
def Obligations.FloatSelections : Prop :=
  ∀ (d a b : Reg) (f : BitVec 2) (m : BitVec 3) (s : State), s.th.hereXs [d, a, b] = true →
    let g : FFmt := if f = 0 then .fp32 else .fp64
    let x : Nat := (X s a).toNat % 2 ^ g.width
    let y : Nat := (X s b).toNat % 2 ^ g.width
    let u := g.read x
    let v := g.read y
    let h : Nat := 2 ^ (g.width - 1)
    let sig : FFlags := { nv := u.isSNan || v.isSNan }
    let one : Bool → Nat := fun c => if c then 1 else 0
    let less : Bool := u.lt v || (u.eqv v && decide (h ≤ x))
    (∀ p ∈ [((.fmin d a b f m : Instr), if less then x else y), (.fmax d a b f m, if less then y else x)],
      exec p.1 s = .next (wroteFp s d (if u.isNan && v.isNan then g.nan else if u.isNan then y else if v.isNan then x else p.2, sig))) ∧
    exec (.feq d a b f) s = .next (wroteFp s d (one (u.eqv v), sig)) ∧
    exec (.flt d a b f) s = .next (wroteFp s d (one (u.lt v), { nv := u.isNan || v.isNan })) ∧
    exec (.fle d a b f) s = .next (wroteFp s d (one (u.lt v || u.eqv v), { nv := u.isNan || v.isNan })) ∧
    exec (.fsgnj d a b f) s = .next (wroteFp s d (x % h + h * (y / h), {})) ∧
    exec (.fsgnjn d a b f) s = .next (wroteFp s d (x % h + h * (1 - y / h), {})) ∧
    exec (.fsgnjx d a b f) s = .next (wroteFp s d (x % h + h * ((x / h + y / h) % 2), {})) ∧
    (a = b → exec (.fclass d a f) s = .next (wroteFp s d (2 ^ (match u with
      | .inf n => if n then 0 else 7
      | .nan q => if q then 8 else 9
      | .fin n k _ => if k = 0 then (if n then 3 else 4) else if k < 2 ^ g.fb then (if n then 2 else 5) else (if n then 1 else 6)), {})))

/-- R213, R214: a magnitude is rounded once. The rounded number is the multiple of the unit next to the exact one that the mode names,
and a result that no overflow replaces reads back as exactly that multiple; the unit is that of the format's precision, or of its least
subnormal. A magnitude beyond the largest finite one is an infinity in modes 0 and 4 (log 112), and in the others as R213 says where its rounding
overflows. Underflow is an inexact result that lies below the least normal one once it is rounded with its full precision. -/
def Sys2Proof.Claims.RoundedOnce : Prop :=
  (∀ (rm : Nat) (neg : Bool) (m : Nat) (e q : Int),
    let v : ℚ := (m : ℚ) * 2 ^ e
    let r : ℚ := (roundTo rm neg m e q : ℚ) * 2 ^ q
    |r - v| < 2 ^ q ∧ (inexact m e q = true ↔ r ≠ v) ∧
    (rm = 0 ∨ rm = 4 → 2 * |r - v| ≤ 2 ^ q) ∧
    (rm = 0 → 2 * |r - v| = 2 ^ q → roundTo rm neg m e q % 2 = 0) ∧
    (rm = 4 → 2 * |r - v| = 2 ^ q → v < r) ∧
    (rm = 1 → r ≤ v) ∧ (rm = 2 → if neg then r ≤ v else v ≤ r) ∧ (rm = 3 → if neg then v ≤ r else r ≤ v)) ∧
  (∀ f ∈ [FFmt.fp64, FFmt.fp32, FFmt.fp16, FFmt.bf16], ∀ (rm : Nat) (neg : Bool) (m : Nat) (e : Int), m ≠ 0 →
    let q : Int := Max.max (e + Nat.log2 m - f.fb) (1 - f.bias - f.fb)
    let r : ℚ := (roundTo rm neg m e q : ℚ) * 2 ^ q
    let beyond : Prop := (rm = 0 ∨ rm = 4) ∧ (2 : ℚ) ^ (f.bias + 1) - 2 ^ ((f.bias : Int) - f.fb) < (m : ℚ) * 2 ^ e
    let p : Int := e + Nat.log2 m - f.fb
    ((f.round rm neg m e).2.of = true ↔ (2 : ℚ) ^ (f.bias + 1) ≤ r) ∧
    ((f.round rm neg m e).2.uf = true ↔
      (f.round rm neg m e).2.nx = true ∧ (roundTo rm neg m e p : ℚ) * 2 ^ p < (2 : ℚ) ^ (1 - (f.bias : Int))) ∧
    ((f.round rm neg m e).2.of = true → (f.round rm neg m e).2.nx = true ∧
      (rm = 1 → (f.round rm neg m e).1 = f.maxFinite neg) ∧
      (rm = 2 → (f.round rm neg m e).1 = if neg then f.maxFinite true else f.inf false) ∧
      (rm = 3 → (f.round rm neg m e).1 = if neg then f.inf true else f.maxFinite false)) ∧
    (beyond → (f.round rm neg m e).1 = f.inf neg ∧ (f.round rm neg m e).2.nx = true) ∧
    ((f.round rm neg m e).2.of = false → ¬beyond →
      (∃ (m' : Nat) (e' : Int), f.read (f.round rm neg m e).1 = .fin neg m' e' ∧ (m' : ℚ) * 2 ^ e' = r) ∧
      ((f.round rm neg m e).2.nx = true ↔ r ≠ (m : ℚ) * 2 ^ e)))

/-- R213, R252: a sum, product or fused result of finite numbers is the exact value rounded once, an exact zero apart; a quotient
or a root rounds a number with at least three bits beyond the precision, whose upper part is the exact quotient or root cut off, and whose last bit
tells whether anything was cut off. -/
def Sys2Proof.Claims.ExactOperands : Prop :=
  ∀ (f : FFmt) (rm : Nat) (n n' : Bool) (m m' : Nat) (e e' : Int),
    let val : Bool → Nat → Int → ℚ := fun neg k x => (if neg then -1 else 1) * (k : ℚ) * 2 ^ x
    (∃ (z : Bool) (k : Nat) (x : Int), val z k x = val n m e + val n' m' e' ∧
      (val z k x ≠ 0 → f.addNum rm (.fin n m e) (.fin n' m' e') = f.round rm z k x) ∧
      (val z k x = 0 → f.addNum rm (.fin n m e) (.fin n' m' e') =
        (f.zero (if m = 0 ∧ m' = 0 ∧ n = n' then n else decide (rm = 3)), {}))) ∧
    (∃ (z : Bool) (k : Nat) (x : Int), val z k x = val n m e * val n' m' e' ∧ z = (n != n') ∧
      f.mulNum rm (.fin n m e) (.fin n' m' e') = f.round rm z k x) ∧
    (∀ (p q : Bool) (d : Machine.Num), d.isNan = false → ∃ (z : Bool) (k : Nat) (x : Int),
      val z k x = (if p then -1 else 1) * (val n m e * val n' m' e') ∧ z = ((n != n') != p) ∧
      f.fmaNum rm p q (.fin n m e) (.fin n' m' e') d = f.addNum rm (.fin z k x) (if q then d.neg else d)) ∧
    (m' ≠ 0 → m ≠ 0 → ∃ (k : Nat) (x : Int), f.divNum rm (.fin n m e) (.fin n' m' e') = f.round rm (n != n') k x ∧
      2 ^ (f.fb + 3) ≤ k ∧
      (∀ c : Nat, (c : ℚ) * 2 ^ (x + 1) ≤ (m : ℚ) * 2 ^ e / ((m' : ℚ) * 2 ^ e') ↔ c ≤ k / 2) ∧
      (k % 2 = 0 ↔ (k : ℚ) * 2 ^ x = (m : ℚ) * 2 ^ e / ((m' : ℚ) * 2 ^ e'))) ∧
    (m ≠ 0 → ∃ (k : Nat) (x : Int), f.sqrtNum rm (.fin false m e) = f.round rm false k x ∧ 2 ^ (f.fb + 3) ≤ k ∧
      (∀ c : Nat, ((c : ℚ) * 2 ^ (x + 1)) ^ 2 ≤ (m : ℚ) * 2 ^ e ↔ c ≤ k / 2) ∧ (k % 2 = 0 ↔ ((k : ℚ) * 2 ^ x) ^ 2 = (m : ℚ) * 2 ^ e))

/-- R213 to R215, R252: NaN and infinite operands, and division by zero: the canonical NaN, with NV where an operand is signalling or the operation
has no value; an exact infinity or zero without a flag; DZ for a finite number over zero. -/
def Sys2Proof.Claims.SpecialOperands : Prop :=
  ∀ (f : FFmt) (rm : Nat) (a b d : Machine.Num) (n n' : Bool) (m : Nat) (e : Int),
    let sig : FFlags := { nv := a.isSNan || b.isSNan }
    let bad : Nat × FFlags := (f.nan, { nv := true })
    (a.isNan = true ∨ b.isNan = true → f.addNum rm a b = (f.nan, sig) ∧ f.mulNum rm a b = (f.nan, sig) ∧ f.divNum rm a b = (f.nan, sig) ∧
      ∀ p q, f.fmaNum rm p q a b d = (f.nan, { nv := a.isSNan || b.isSNan || d.isSNan })) ∧
    (∀ g, f.sqrtNum rm (.nan g) = (f.nan, { nv := g })) ∧
    f.addNum rm (.inf n) (.inf n') = (if n = n' then (f.inf n, {}) else bad) ∧
    f.addNum rm (.inf n) (.fin n' m e) = (f.inf n, {}) ∧ f.addNum rm (.fin n' m e) (.inf n) = (f.inf n, {}) ∧
    f.mulNum rm (.inf n) (.inf n') = (f.inf (n != n'), {}) ∧
    f.mulNum rm (.inf n) (.fin n' m e) = (if m = 0 then bad else (f.inf (n != n'), {})) ∧
    f.mulNum rm (.fin n m e) (.inf n') = (if m = 0 then bad else (f.inf (n != n'), {})) ∧
    f.divNum rm (.inf n) (.inf n') = bad ∧ f.divNum rm (.inf n) (.fin n' m e) = (f.inf (n != n'), {}) ∧
    f.divNum rm (.fin n m e) (.inf n') = (f.zero (n != n'), {}) ∧
    (∀ e', f.divNum rm (.fin n m e) (.fin n' 0 e') = if m = 0 then bad else (f.inf (n != n'), { dz := true })) ∧
    f.sqrtNum rm (.inf n) = (if n then bad else (f.inf false, {})) ∧ f.sqrtNum rm (.fin n 0 e) = (f.zero n, {}) ∧
    (m ≠ 0 → f.sqrtNum rm (.fin true m e) = bad) ∧
    (∀ p q, f.fmaNum rm p q (.inf n) (.fin n' 0 e) d = bad ∧ f.fmaNum rm p q (.fin n 0 e) (.inf n') d = bad) ∧
    (∀ p q g m' e', f.fmaNum rm p q (.fin n m e) (.fin n' m' e') (.nan g) = (f.nan, { nv := g })) ∧
    (∀ p q, m ≠ 0 → d.isNan = false → ∀ r, r = f.addNum rm (.inf ((n != n') != p)) (if q then d.neg else d) →
      f.fmaNum rm p q (.inf n) (.fin n' m e) d = r ∧ f.fmaNum rm p q (.fin n m e) (.inf n') d = r)

/-- R213 to R215, R252: rounding once, what is rounded, and the operands that no rounding meets. -/
def Obligations.RoundedOnceExactly : Prop := Claims.RoundedOnce ∧ Claims.ExactOperands ∧ Claims.SpecialOperands

/-- R254, R255, R223: a permitted CVT completes when its registers are present, with the value and the flags of its conversion. -/
def Sys2Proof.Claims.Conversions : Prop :=
  ∀ (d a : Reg) (m : BitVec 3) (t f : BitVec 4) (s : State), s.th.hereXs [d, a] = true →
    let rm : Nat := if m = 7 then (s.th.fpctl &&& 7).toNat else m.toNat
    let x := (X s a).toNat
    let ieee : BitVec 4 → FFmt := fun c => if c = 0 then .fp64 else if c = 1 then .fp32 else if c = 2 then .fp16 else .bf16
    let narrow : BitVec 4 → NFmt := fun c => if c = 4 then .e4 else .e5
    let wide : BitVec 4 → Nat := fun c => 8 * 2 ^ (c.toNat % 4)
    let out : W64 → FFlags → QFlags → State := fun v fl q =>
      s.onTh fun u => (((u.writeX d v).addFlags fl).addQnt q).nextPc
    (t.toNat < 4 → f.toNat < 4 → t ≠ f → exec (.cvt d a m t f) s =
      .next (out (BitVec.ofNat 64 (convert (ieee f) (ieee t) rm (x % 2 ^ (ieee f).width)).1)
        (convert (ieee f) (ieee t) rm (x % 2 ^ (ieee f).width)).2 {})) ∧
    (t.toNat < 4 → 8 ≤ f.toNat → exec (.cvt d a m t f) s =
      let v : Int := if f.toNat < 12 then signed (wide f) x else (x % 2 ^ wide f : Nat)
      .next (out (BitVec.ofNat 64 (ofInt (ieee t) rm v).1) (ofInt (ieee t) rm v).2 {})) ∧
    (8 ≤ t.toNat → f.toNat < 4 → exec (.cvt d a m t f) s =
      let r := toInt (ieee f) rm (decide (t.toNat < 12)) (wide t) (x % 2 ^ (ieee f).width)
      .next (out (BitVec.ofInt 64 r.1) r.2.1 { sat := r.2.2 })) ∧
    (t.toNat = 4 ∨ t.toNat = 5 → f.toNat < 4 → exec (.cvt d a m t f) s =
      let r := (narrow t).ofIeee (ieee f) (x % 2 ^ (ieee f).width)
      .next (out (BitVec.ofNat 64 r.1) {} { sat := r.2.1, nan := r.2.2.1, inf := r.2.2.2 })) ∧
    (t.toNat < 4 → f.toNat = 4 ∨ f.toNat = 5 → exec (.cvt d a m t f) s =
      .next (out (BitVec.ofNat 64 ((narrow f).toIeee (ieee t) (x % 256))) {} {}))

/-- R222, R223, R255: a conversion into an integer type rounds the value once and clamps it to the type: a NaN gives 0 and NV, a value
beyond the type its nearest limit, NV and QNT_SAT, any other value itself, with NX when it was no integer. -/
def Sys2Proof.Claims.IntegerConversions : Prop :=
  ∀ (f : FFmt) (rm : Nat) (sg : Bool) (w : Nat) (c : Nat), 0 < w →
    let lo : Int := if sg then -(2 ^ (w - 1)) else 0
    let hi : Int := if sg then 2 ^ (w - 1) - 1 else 2 ^ w - 1
    (lo ≤ (toInt f rm sg w c).1 ∧ (toInt f rm sg w c).1 ≤ hi) ∧
    (∀ q, f.read c = .nan q → toInt f rm sg w c = (0, { nv := true }, false)) ∧
    (∀ n, f.read c = .inf n → toInt f rm sg w c = (if n then lo else hi, { nv := true }, true)) ∧
    (∀ n m e, f.read c = .fin n m e → let r : Int := (if n then -1 else 1) * (roundTo rm n m e 0 : Int)
      (lo ≤ r → r ≤ hi → (toInt f rm sg w c).1 = r ∧
        ((toInt f rm sg w c).2.1 = { nx := decide ((m : ℚ) * 2 ^ e ≠ (roundTo rm n m e 0 : ℚ)) }) ∧ (toInt f rm sg w c).2.2 = false) ∧
      (r < lo → toInt f rm sg w c = (lo, { nv := true }, true)) ∧ (hi < r → toInt f rm sg w c = (hi, { nv := true }, true)))

/-- R222, R223, R254, R255: conversions of every permitted pair, and the values of those into integers. -/
def Obligations.AllConversions : Prop := Claims.Conversions ∧ Claims.IntegerConversions

/-- R71: what taking a trap leaves, field by field, whenever the actor has a trap handler and none is running: CAUSE from IMP, GAF, the
reason, the sub-cause and DETAIL, FAULTVA, FAULTPC, FAULTINS, STATUS.INTRAP, the handler's entry as the program counter, and TRAPS; the
registers, presence bits, FPCTL, QNTFLAGS, VLEN and the other bits of STATUS stay, and so do the other thread sets and all of memory. -/
def Sys2Proof.Claims.TrapEntered : Prop :=
  ∀ (s : State) (reason sub det : Nat) (va : W64) (gaf : Bool) (entry : Nat), s.self.trapEntry = some entry → s.th.inTrap = false →
    reason ≠ 0x22 → reason ≠ 0x02 → reason ≠ 0x21 → reason < 256 → sub < 256 →
    ∃ t, s.trap reason sub det va gaf = .next t ∧
      t.th.cause = BitVec.ofNat 64 ((if gaf then 2 ^ 62 else 0) + reason * 2 ^ 40 + sub * 2 ^ 32 + det % 2 ^ 32) ∧
      t.th.faultva = va ∧ t.th.faultpc = s.th.pc ∧ t.th.faultins = s.me.wordAt s.th.pc ∧
      t.th.status.getLsbD 0 = true ∧ (∀ i, i ≠ 0 → t.th.status.getLsbD i = s.th.status.getLsbD i) ∧
      t.th.pc = BitVec.ofNat 64 ((s.me.regions.get {} s.self.code).base * 1024 + entry) ∧
      (∀ r, X t r = X s r ∧ V t r = V s r ∧ t.th.hereX r = s.th.hereX r ∧ t.th.hereV r = s.th.hereV r) ∧
      t.th.m = s.th.m ∧ t.th.st = s.th.st ∧ t.th.fpctl = s.th.fpctl ∧ t.th.qnt = s.th.qnt ∧ t.th.eperr = s.th.eperr ∧
      t.th.vlen = s.th.vlen ∧ t.self.traps = (if s.self.traps = 0xFFFF then s.self.traps else s.self.traps + 1) ∧
      t.self.state = s.self.state ∧ t.me.mem = s.me.mem ∧ t.gmem = s.gmem ∧
      (∀ j, j ≠ s.me.tset → t.me.thread j = s.me.thread j) ∧ (∀ c, c ≠ s.cur → t.core c = s.core c)

/-- R49, R71: a trap of an actor without a trap handler, a second trap while a handler runs, and WATCHDOG, KILLED and CORE_FAULT end the
actor instead: its slot is dying with the reason, the sub-cause and DETAIL, and its thread set holds no firing. -/
def Sys2Proof.Claims.TrapKills : Prop :=
  ∀ (s : State) (reason sub det : Nat) (va : W64) (gaf : Bool), s.self.state = .firing → s.self.tsetf = s.me.tset.val →
    s.self.trapEntry = none ∨ s.th.inTrap = true ∨ reason = 0x22 ∨ reason = 0x02 ∨ reason = 0x21 →
    ∃ t, s.trap reason sub det va gaf = .next t ∧ t.self.state = .dying ∧
      t.self.dying = some { reason := reason, sub := sub, detail := BitVec.ofNat 64 (det % 2 ^ 32) } ∧ t.th.busy = false ∧
      t.me.mem = s.me.mem ∧ t.gmem = s.gmem ∧ (∀ c, c ≠ s.cur → t.core c = s.core c) ∧
      (∀ j, j ≠ s.th.slot → t.me.actor j = s.me.actor j)

/-- R49, R71: a trap enters the handler of the actor, or ends the actor. -/
def Obligations.TrapsTaken : Prop := Claims.TrapEntered ∧ Claims.TrapKills

/-- R229, R259, R316: BREAK traps BREAK with its immediate as DETAIL; at an address beyond the end of the code region, where no word is
fetched, the thread set traps REGION_DENY 0x05 with FAULTINS zero; and a step whose word is no instruction traps ILLEGAL with the
sub-cause of the first check that fails. That DETAIL of the code region's end is the region's index is the model's reading (log 78). -/
def Obligations.TrapInstructions : Prop :=
  (∀ (i : BitVec 16) (s : State) (entry : Nat), s.self.trapEntry = some entry → s.th.inTrap = false → ∃ t, exec (.breakTrap i) s = .next t ∧
    t.th.cause = BitVec.ofNat 64 (0x19 * 2 ^ 40 + i.toNat) ∧ t.th.faultva = 0 ∧ t.th.faultpc = s.th.pc ∧
    t.th.faultins = s.me.wordAt s.th.pc ∧ t.th.inTrap = true ∧
    t.th.pc = BitVec.ofNat 64 ((s.me.regions.get {} s.self.code).base * 1024 + entry)) ∧
  (∀ (i : BitVec 16) (s : State), s.self.state = .firing → s.self.tsetf = s.me.tset.val → s.th.inTrap = true →
    ∃ t d, exec (.breakTrap i) s = .next t ∧ t.self.state = .dying ∧ t.self.dying = some d ∧ d.reason = 0x19) ∧
  (∀ (s : State) (entry : Nat), s.th.busy = true → s.self.trapEntry = some entry → s.th.inTrap = false →
    ¬((s.me.region s.self.code).base * 1024 ≤ s.th.pc.toNat ∧
      s.th.pc.toNat + 4 ≤ ((s.me.region s.self.code).base + (s.me.region s.self.code).size) * 1024) →
    ∃ t, exec .codeEndTrap s = .next t ∧ t.th.cause = BitVec.ofNat 64 (0x13 * 2 ^ 40 + 5 * 2 ^ 32 + s.self.code % 2 ^ 32) ∧
      t.th.faultva = s.th.pc ∧ t.th.faultpc = s.th.pc ∧ t.th.faultins = 0 ∧
      t.th.pc = BitVec.ofNat 64 ((s.me.regions.get {} s.self.code).base * 1024 + entry)) ∧
  (∀ (s : State) (r : Reject), s.th.deferred = none → (∃ w, s.fetch = some w ∧ decode w = .bad r) → s.me.badRun s.th.pc.toNat 4 = none →
    s.run = counted s (s.trap 0x10 (match r with
      | .zeroOrOnes => 4
      | .major => 1
      | .function => 2
      | .reserved av => if s.available av then 3 else 6
      | .register av => if s.available av then 5 else 6) 0))

/-- R256, R258: a conditional branch completes when its registers are present: where its condition holds and its target lies in the
firing's code region it goes there, and where the condition does not hold it goes on; nothing else changes. -/
def Sys2Proof.Claims.Branches : Prop :=
  ∀ (p q : Reg) (o : BitVec 16) (s : State), s.th.hereXs [p, q] = true →
    let target : W64 := (s.th.pc + (o.signExtend 64 <<< 2)) &&& 0xFFFFF
    let e := s.me.regions.get {} s.self.code
    ∀ i ∈ [((.beq p q o : Instr), decide (X s p = X s q)), (.bne p q o, decide (X s p ≠ X s q)),
        (.blt p q o, (X s p).slt (X s q)), (.bge p q o, (X s q).sle (X s p)),
        (.bltu p q o, decide ((X s p).toNat < (X s q).toNat)), (.bgeu p q o, decide ((X s q).toNat ≤ (X s p).toNat))],
      (i.2 = false → exec i.1 s = .next (wentOn s)) ∧
      (i.2 = true → e.base * 1024 ≤ target.toNat → target.toNat < (e.base + e.size) * 1024 →
        exec i.1 s = .next (wentTo s target)) ∧
      (i.2 = true → ¬(e.base * 1024 ≤ target.toNat ∧ target.toNat < (e.base + e.size) * 1024) → exec i.1 s = s.badTarget target)

/-- R257, R258: a jump completes when its registers are present and its target lies in the code region: the address of the next
instruction goes to x[D], by the registers as they stood before; a target that is no multiple of 4 traps MISALIGN, one outside the region
REGION_DENY with sub-cause 0x04 where a live region of the actor covers it and 0x01 where none does, and then x[D] is not written. -/
def Sys2Proof.Claims.Jumps : Prop :=
  ∀ (d a : Reg) (i : BitVec 16) (s : State), s.th.hereXs [a, d] = true →
    let e := s.me.regions.get {} s.self.code
    let inside : W64 → Prop := fun t => e.base * 1024 ≤ t.toNat ∧ t.toNat < (e.base + e.size) * 1024
    let jal : W64 := (s.th.pc + (i.signExtend 64 <<< 2)) &&& 0xFFFFF
    let jalr : W64 := (X s a + i.signExtend 64) &&& 0xFFFFF
    (inside jal → exec (.jal d i) s = .next (s.onTh fun t => { t.writeX d (t.pc + 4) with pc := jal })) ∧
    (¬inside jal → exec (.jal d i) s = s.badTarget jal) ∧
    (jalr.toNat % 4 = 0 → inside jalr → exec (.jalr d a i) s = .next (s.onTh fun t => { t.writeX d (t.pc + 4) with pc := jalr })) ∧
    (jalr.toNat % 4 = 0 → ¬inside jalr → exec (.jalr d a i) s = s.badTarget jalr) ∧
    (jalr.toNat % 4 ≠ 0 → exec (.jalr d a i) s = s.trap 0x14 0 4 jalr) ∧
    (∀ t : W64, (∀ p ∈ s.me.regions, p.2.liveOf s.th.slot = true → p.2.covers t.toNat = false) → s.badTarget t = s.trap 0x13 1 0xFFFFFFFF t) ∧
    (∀ (t : W64) n g, s.me.findRegion s.th.slot t.toNat = some (n, g) → s.badTarget t = s.trap 0x13 4 n t)

/-- R256 to R258: branches and jumps, and the checks of their targets. -/
def Obligations.BranchesAndJumps : Prop := Claims.Branches ∧ Claims.Jumps

/-- R67, R70, R315: MFCR completes when its destination is present, with the value of each control register that R67 numbers, and CHANCNT notes the
errors of the channel descriptors that it reads (R83); any other
number below 0xC0 traps ILLEGAL 0x07, and from 0xC0 on PRIV 0x02 where STATUS.PRIV is 0 and ILLEGAL 0x07 where it is 1. -/
def Obligations.ControlReads : Prop :=
  ∀ (d : Reg) (s : State), s.th.hereXs [d] = true →
    let t := s.th
    let a := s.self
    let noted := s.onMe fun k => (((k.noteChan t.slot 0).noteChan t.slot 1).noteChan t.slot 2).noteChan t.slot 3
    (∀ p ∈ [((0x00 : BitVec 8), t.cause), (0x01, t.faultva), (0x02, t.faultpc), (0x03, t.faultins.zeroExtend 64), (0x04, t.status),
        (0x05, t.fpctl), (0x06, t.qnt), (0x07, t.eperr), (0x08, t.vlen.zeroExtend 64),
        (0x09, BitVec.ofNat 64 (a.cl + a.cs * 2 ^ 8 + a.cp * 2 ^ 16 + a.mt * 2 ^ 24)), (0x0A, t.sendleft.zeroExtend 64),
        (0x0B, t.wdogleft.zeroExtend 64), (0x10, a.name), (0x11, a.incarn.zeroExtend 64), (0x12, a.domain.zeroExtend 64),
        (0x13, a.hmask.zeroExtend 64),
        (0x15, s.me.accstat t.slot), (0x16, a.timer), (0x18, s.me.ringWord t.slot 0), (0x19, s.me.ringWord t.slot 1),
        (0x1A, s.me.ringWord t.slot 2), (0x1B, s.me.ringWord t.slot 3), (0x20, BitVec.ofNat 64 s.me.tset.val),
        (0x21, BitVec.ofNat 64 (s.cur % 65536)), (0x22, s.caps s.cur), (0x23, BitVec.ofNat 64 (s.cycle (s.cur / 65536))),
        (0x24, BitVec.ofNat 64 (s.cceil s.cur))],
      exec (.mfcr d p.1) s = .next (wroteX s d p.2)) ∧
    exec (.mfcr d 0x14) s = .next (wroteX noted d (BitVec.ofNat 64 (s.me.waiting t.slot 0 + s.me.waiting t.slot 1 * 2 ^ 8 +
      s.me.waiting t.slot 2 * 2 ^ 16 + s.me.waiting t.slot 3 * 2 ^ 24))) ∧
    (s.me.bad = [] → noted.me = s.me) ∧
    (∀ r : BitVec 8, s.creg r.toNat = none →
      exec (.mfcr d r) s = if 0xC0 ≤ r.toNat ∧ t.status.getLsbD 1 = false then s.trap 0x11 2 else s.trap 0x10 7) ∧
    (∀ r : BitVec 8, s.creg r.toNat = none ↔ r.toNat ∉ List.range 0x0C ++ [0x10, 0x11, 0x12, 0x13, 0x14, 0x15, 0x16, 0x18, 0x19, 0x1A, 0x1B,
      0x20, 0x21, 0x22, 0x23, 0x24])

/-- R68, R312, R315: each write of a control register completes when its source is present, and changes only what the register's row
says: CAUSE and QNTFLAGS keep their reserved bits zero, STATUS can only lose INTRAP, EPERR is cleared by zero alone. A rounding mode above
4 in FPCTL and a VLEN above 32 trap ILLEGAL 0x03 and write nothing; a timer
that is due expires first; a number
that names no register to write traps as a read of an unassigned one. -/
def Obligations.ControlWrites : Prop :=
  ∀ (a : Reg) (s : State), s.th.hereXs [a] = true →
    let v := X s a
    let wrote : (Thread → Thread) → Answer := fun f => .next (s.onTh fun t => (f t).nextPc)
    let self : (Actor → Actor) → Answer := fun f => .next (wentOn (s.onSelf f))
    let due := s.self.timerDue (s.now s.cur)
    let late := s.onMe fun n => n.expireTimer s.cur s.th.slot (s.now s.cur)
    exec (.mtcr a 0x00) s = wrote (fun t => { t with cause := v &&& 0xC000FFFFFFFFFFFF }) ∧
    exec (.mtcr a 0x01) s = wrote (fun t => { t with faultva := v }) ∧
    exec (.mtcr a 0x02) s = wrote (fun t => { t with faultpc := v }) ∧
    exec (.mtcr a 0x06) s = wrote (fun t => { t with qnt := v &&& 7 }) ∧
    (∀ r : BitVec 8, r ∉ [0x00, 0x01, 0x02, 0x04, 0x05, 0x06, 0x07, 0x08, 0x13, 0x16] →
      exec (.mtcr a r) s = if 0xC0 ≤ r.toNat ∧ s.th.status.getLsbD 1 = false then s.trap 0x11 2 else s.trap 0x10 7) ∧
    exec (.statusWrite a) s = wrote (fun t => { t with status := if v.getLsbD 0 then t.status else t.status &&& ~~~1 }) ∧
    ((v &&& 7).toNat ≤ 4 → exec (.fpctlWrite a) s = wrote (fun t => { t with fpctl := v &&& 0xFF })) ∧
    (4 < (v &&& 7).toNat → exec (.fpctlWrite a) s = s.trap 0x10 3) ∧
    exec (.eperrWrite a) s = wrote (fun t => { t with eperr := if v = 0 then 0 else t.eperr }) ∧
    (v.toNat % 64 ≤ 32 → exec (.vlenWrite a) s = wrote (fun t => { t with vlen := v.setWidth 6 })) ∧
    (32 < v.toNat % 64 → exec (.vlenWrite a) s = s.trap 0x10 3) ∧
    exec (.hmaskWrite a) s = self (fun n => { n with hmask := v.setWidth 4 }) ∧
    (due = false → exec (.timerWrite a) s = self (fun n => { n with timer := v, timerAt := s.now s.cur })) ∧
    (due = false → exec (.tmset a) s = self (fun n => { n with timer := v ||| 0x8000000000000000, timerAt := s.now s.cur })) ∧
    (due = true → late.th.busy = true →
      exec (.timerWrite a) s = .next (wentOn (late.onSelf fun n => { n with timer := v, timerAt := s.now s.cur })) ∧
      exec (.tmset a) s = .next (wentOn (late.onSelf fun n => { n with timer := v ||| 0x8000000000000000, timerAt := s.now s.cur })))

/-- R298, R312, R313: moves between register files, TMCAN and the work-index instructions complete when their registers are present; each lane i
of a vector move pairs with message register i, or i + 4, and a field of a work index lies above the widths that follow it. A timer
that is due expires before TMCAN, which then finds none (R312). A field beyond the flock's is the model's reading (log 71). -/
def Obligations.Moves : Prop :=
  ∀ (d a : Reg) (k : BitVec 3) (s : State),
    let xd : Prop := s.th.hereXs [d] = true
    let xa : Prop := s.th.hereXs [a] = true
    let xad : Prop := s.th.hereXs [a, d] = true
    let vd : Prop := s.th.hereV d = true
    let va : Prop := s.th.hereV a = true
    let ws := s.widths s.self.name
    let w := indexOf (X s a)
    let due := s.self.timerDue (s.now s.cur)
    let late := s.onMe fun n => n.expireTimer s.cur s.th.slot (s.now s.cur)
    (xa → exec (.mtm d a) s = .next (s.onTh fun t => (t.writeM (d.setWidth 3) (X s a)).nextPc)) ∧
    (xd → exec (.mfm d a) s = .next (wroteX s d (s.th.readM (a.setWidth 3)))) ∧
    (xd → exec (.mfs d a) s = .next (wroteX s d s.th.st[a.toNat % 4])) ∧
    (va → ∃ t, exec (.vtml a) s = .next (s.onTh fun _ => t.nextPc) ∧ (∃ m, t = { s.th with m := m }) ∧
      ∀ i : BitVec 3, t.readM i = if i.toNat < 4 then BitVec.extractLsb' (64 * i.toNat) 64 (V s a) else s.th.readM i) ∧
    (va → ∃ t, exec (.vtmh a) s = .next (s.onTh fun _ => t.nextPc) ∧ (∃ m, t = { s.th with m := m }) ∧
      ∀ i : BitVec 3, t.readM i = if 4 ≤ i.toNat then BitVec.extractLsb' (64 * (i.toNat - 4)) 64 (V s a) else s.th.readM i) ∧
    (vd → exec (.vtmlIn d) s = .next (wroteV s d (s.th.readM 3 ++ s.th.readM 2 ++ s.th.readM 1 ++ s.th.readM 0))) ∧
    (vd → exec (.vtmhIn d) s = .next (wroteV s d (s.th.readM 7 ++ s.th.readM 6 ++ s.th.readM 5 ++ s.th.readM 4))) ∧
    (xd → due = true → late.th.busy = true → late.self.timer.getLsbD 63 = false →
      exec (.tmcan d) s = .next (wroteX (late.onSelf fun n => { n with timer := n.timer &&& 0x7FFFFFFFFFFFFFFF }) d 0)) ∧
    (xd → due = false → exec (.tmcan d) s = .next (wroteX (s.onSelf fun n => { n with timer := n.timer &&& 0x7FFFFFFFFFFFFFFF }) d
      (if s.self.timer.getLsbD 63 then 1 else 0))) ∧
    (xad → exec (.wix d a k) s = .next (wroteX s d (BitVec.ofNat 64 (if h : k.toNat < ws.length then
      w / 2 ^ (ws.drop (k.toNat + 1)).sum % 2 ^ ws[k.toNat] else 0)))) ∧
    (xad → exec (.wixG d a k) s = .next (wroteX s d (BitVec.ofNat 64 (w / 2 ^ (ws.drop k.toNat).sum))))

/-- R86, R88: how a load or store of the actor in a slot is checked, in order: the save areas, the region that covers the address, its
end, its kind and its rights. -/
def Obligations.LocalChecks : Prop :=
  ∀ (k : Core) (slot a n : Nat) (store : Bool),
    (0x5C000 ≤ a → a ≤ 0x5FFFF → k.checkLocal slot a n store = .error (4, 248 + (a - 0x5C000) / 0x800)) ∧
    (¬(0x5C000 ≤ a ∧ a ≤ 0x5FFFF) →
      ((∀ p ∈ k.regions, ¬(p.2.valid = true ∧ p.2.tomb = false ∧ p.2.owner = slot ∧ p.2.base * 1024 ≤ a ∧
          a < (p.2.base + p.2.size) * 1024)) →
        ((∀ p ∈ k.regions, ¬(p.2.valid = true ∧ p.2.tomb = true ∧ p.2.owner = slot ∧ p.2.base * 1024 ≤ a ∧
          a < (p.2.base + p.2.size) * 1024)) → k.checkLocal slot a n store = .error (1, 0xFFFFFFFF)) ∧
        (∀ i e, k.findTomb slot a = some (i, e) → k.checkLocal slot a n store = .error (2, i))) ∧
      (∀ i e, k.findRegion slot a = some (i, e) →
        ((e.base + e.size) * 1024 < a + n → k.checkLocal slot a n store = .error (5, i)) ∧
        (a + n ≤ (e.base + e.size) * 1024 →
          let kinds : List Nat := if store then [0, 3] else [0, 1, 3, 4]
          (e.kind ∉ kinds → k.checkLocal slot a n store = .error (4, i)) ∧
          (e.kind ∈ kinds → (if store then e.wr else e.rd) = false → k.checkLocal slot a n store = .error (3, i)) ∧
          (e.kind ∈ kinds → (if store then e.wr else e.rd) = true → k.checkLocal slot a n store = .ok e))))

/-- R89: the placement of a skewed region is a one-to-one map of the region onto itself, and a region without skew keeps every byte at its
address. -/
def Obligations.SkewPlacement : Prop :=
  ∀ (e : RegEntry), (e.skew = true → 0 < e.pitch) →
    (∀ a, e.covers a = true → e.covers (e.place a) = true) ∧
    (∀ a b, e.covers a = true → e.covers b = true → e.place a = e.place b → a = b) ∧
    (∀ b, e.covers b = true → ∃ a, e.covers a = true ∧ e.place a = b) ∧
    (e.skew = false → ∀ a, e.place a = a)

/-- R277 to R279, R72, R83: each local load completes when its registers are present, no acquire of the firing is outstanding, its address
(modulo 2^20) is aligned and permitted and no bank word that it reads is bad: x[D] takes the bytes from the address upward, little-endian and
extended as its row says, and nothing else changes. A bad bank word gives zero and an entry in EPERR; a misaligned address traps MISALIGN with
the width as DETAIL, and one that is not permitted REGION_DENY with the check's sub-cause and DETAIL. EPERR.ADDR in a skew-mode region is the
model's reading (log 17). -/
def Obligations.LocalLoads : Prop :=
  ∀ (d a : Reg) (o : BitVec 16) (s : State), s.th.hereXs [a, d] = true → s.me.acquiring s.th.fid = false →
    let va : Nat := (((X s a).toNat + o.toInt) % 2 ^ 20).toNat
    ∀ p ∈ [((.lb d a o : Instr), 1, fun (v : Nat) => (BitVec.ofNat 8 v).signExtend 64), (.lbu d a o, 1, fun v => BitVec.ofNat 64 v),
        (.lh d a o, 2, fun v => (BitVec.ofNat 16 v).signExtend 64), (.lhu d a o, 2, fun v => BitVec.ofNat 64 v),
        (.lw d a o, 4, fun v => (BitVec.ofNat 32 v).signExtend 64), (.lwu d a o, 4, fun v => BitVec.ofNat 64 v),
        (.ld d a o, 8, fun v => BitVec.ofNat 64 v)],
      (va % p.2.1 ≠ 0 → exec p.1 s = s.trap 0x14 0 p.2.1 (BitVec.ofNat 64 va)) ∧
      (va % p.2.1 = 0 → ∀ r, s.me.checkLocal s.th.slot va p.2.1 false = .error r →
        exec p.1 s = s.trap 0x13 r.1 r.2 (BitVec.ofNat 64 va)) ∧
      (va % p.2.1 = 0 → ∀ e, s.me.checkLocal s.th.slot va p.2.1 false = .ok e →
        ((∀ j < p.2.1, e.place (va + j) / 8 ∉ s.me.bad) → exec p.1 s = .next (wroteX s d (p.2.2
          (((List.range p.2.1).map fun j => (s.me.mem.read (e.place (va + j))).toNat * 256 ^ j).sum)))) ∧
        (∀ w, s.me.badWord e va p.2.1 = some w → exec p.1 s =
          .next (wroteX (s.onMe fun k => k.recordErr s.th.slot 0 (BitVec.ofNat 64 (w * 8))) d 0)))

/-- R277 to R279, R72, R83: each local store completes when its registers are present, no acquire is outstanding, its address is aligned
and permitted, the core's memory holds no bad word and no granule that a Cairn take has marked: the low bytes of x[T], or the byte with
one nibble replaced, take their places, and the thread set goes on. A misaligned or forbidden address traps as for a load. A store into a marked
granule stalls (R410). Into a bad bank word, one that writes it in part writes nothing and records the error, and one that writes it whole repairs
it. -/
def Sys2Proof.Claims.LocalStores : Prop :=
  ∀ (t a : Reg) (o : BitVec 16) (q : BitVec 15) (h : BitVec 1) (s : State), s.th.hereXs [a, t] = true → s.me.acquiring s.th.fid = false →
    let va : Int → Nat := fun x => (((X s a).toNat + x) % 2 ^ 20).toNat
    let v := (X s t).toNat
    ∀ p ∈ [((.sb t a o : Instr), 1, va o.toInt, fun (_ : Nat) => v), (.sh t a o, 2, va o.toInt, fun _ => v),
        (.sw t a o, 4, va o.toInt, fun _ => v), (.sd t a o, 8, va o.toInt, fun _ => v),
        (.sn t a q h, 1, va q.toInt, fun old => if h = 1 then v % 16 * 16 + old % 16 else old / 16 * 16 + v % 16)],
      let x := p.2.2.1
      (x % p.2.1 ≠ 0 → exec p.1 s = s.trap 0x14 0 p.2.1 (BitVec.ofNat 64 x)) ∧
      (x % p.2.1 = 0 → ∀ r, s.me.checkLocal s.th.slot x p.2.1 true = .error r →
        exec p.1 s = s.trap 0x13 r.1 r.2 (BitVec.ofNat 64 x)) ∧
      (x % p.2.1 = 0 → ∀ e, s.me.checkLocal s.th.slot x p.2.1 true = .ok e → s.me.bad = [] → s.me.cow = [] →
        exec p.1 s = .next (wentOn (Claims.stored s e x
          ((List.range p.2.1).map fun j => BitVec.ofNat 8 (p.2.2.2 (s.me.mem.read (e.place x)).toNat / 256 ^ j))))) ∧
      (x % p.2.1 = 0 → ∀ e, s.me.checkLocal s.th.slot x p.2.1 true = .ok e → (∃ j < p.2.1, e.place (x + j) / 1024 ∈ s.me.cow) →
        exec p.1 s = s.stall) ∧
      (x % p.2.1 = 0 → ∀ e, s.me.checkLocal s.th.slot x p.2.1 true = .ok e → s.me.cow = [] →
        (∀ j < p.2.1, e.place (x + j) = e.place x + j) → e.place x % 8 + p.2.1 ≤ 8 → e.place x / 8 ∈ s.me.bad →
        (p.2.1 < 8 → exec p.1 s =
          .next (wentOn (s.onMe fun k => k.recordErr s.th.slot 0 (BitVec.ofNat 64 (e.place x / 8 * 8))))) ∧
        (p.2.1 = 8 → ∃ M : Memory, exec p.1 s =
            .next (wentOn (s.onMe fun k => { k with mem := M, bad := k.bad.filter (· ≠ e.place x / 8) })) ∧
          (∀ j < 8, M.read (e.place x + j) = BitVec.ofNat 8 (v / 256 ^ j)) ∧
          ∀ b, ¬(e.place x ≤ b ∧ b < e.place x + 8) → M.read b = s.me.mem.read b))

/-- R9, R83, R89: the frame of a local store: every byte of core memory outside the bytes stored to reads as before, the bytes stored to
read as what was stored, and the registers of every thread set, the other cores and the global memory stay. -/
def Sys2Proof.Claims.StoreFrame : Prop :=
  ∀ (s : State) (e : RegEntry) (va : Nat) (bs : List Byte), (e.skew = true → 0 < e.pitch) → e.covers va = true →
    va + bs.length ≤ (e.base + e.size) * 1024 →
    let t := wentOn (Claims.stored s e va bs)
    (∀ b, (∀ j < bs.length, b ≠ e.place (va + j)) → t.me.mem.read b = s.me.mem.read b) ∧
    (∀ (j : Nat) (h : j < bs.length), t.me.mem.read (e.place (va + j)) = bs[j]) ∧
    (∀ r, X t r = X s r ∧ V t r = V s r ∧ t.th.hereX r = s.th.hereX r ∧ t.th.hereV r = s.th.hereV r) ∧ t.th.pc = s.th.pc + 4 ∧
    t.th.status = s.th.status ∧ t.th.fpctl = s.th.fpctl ∧ t.th.qnt = s.th.qnt ∧ t.th.eperr = s.th.eperr ∧ t.th.m = s.th.m ∧
    t.th.cause = s.th.cause ∧ t.self = s.self ∧ t.gmem = s.gmem ∧ t.words = s.words ∧ (∀ c, c ≠ s.cur → t.core c = s.core c) ∧
    (∀ j, j ≠ s.me.tset → t.me.thread j = s.me.thread j)

/-- R9, R72, R83, R89, R277 to R279: local stores, and what they leave alone. -/
def Obligations.StoresAndFrame : Prop := Claims.LocalStores ∧ Claims.StoreFrame

/-- R262 to R264: each integer lane instruction completes when its registers and its mask are present, with its row's result in every
active lane; the saturating forms set QNT_SAT when an active lane clamps. Nothing else changes (`wroteV`). -/
def Obligations.VectorIntegers : Prop :=
  ∀ (d a b : Reg) (q : BitVec 3) (t m : BitVec 1) (c : BitVec 2) (s : State), hereV s [a, b, d] q →
    let w := wid c
    let x : Nat → BitVec w := Ln w (V s a)
    let y : Nat → BitVec w := Ln w (V s b)
    (∀ p ∈ [((.vadd d a b q t m c : Instr), fun i => x i + y i), (.vsub d a b q t m c, fun i => x i - y i),
        (.vmul d a b q t m c, fun i => x i * y i),
        (.vmulh d a b q t m c, fun i => ((x i).signExtend (2 * w) * (y i).signExtend (2 * w)).extractLsb' w w),
        (.vmin d a b q t m c, fun i => if (x i).slt (y i) then x i else y i),
        (.vmax d a b q t m c, fun i => if (x i).slt (y i) then y i else x i),
        (.vminu d a b q t m c, fun i => if (x i).ult (y i) then x i else y i),
        (.vmaxu d a b q t m c, fun i => if (x i).ult (y i) then y i else x i),
        (.vand d a b q t m c, fun i => x i &&& y i), (.vor d a b q t m c, fun i => x i ||| y i),
        (.vxor d a b q t m c, fun i => x i ^^^ y i), (.vsll d a b q t m c, fun i => x i <<< ((y i).toNat % w)),
        (.vsrl d a b q t m c, fun i => x i >>> ((y i).toNat % w)),
        (.vsra d a b q t m c, fun i => (x i).sshiftRight ((y i).toNat % w))],
      ∃ v, exec p.1 s = .next (wroteV s d v) ∧ LaneWise s d q t m w v p.2) ∧
    (∀ p ∈ [((.vadds d a b q t m c : Instr), fun i => (x i).toInt + (y i).toInt),
        (.vsubs d a b q t m c, fun i => (x i).toInt - (y i).toInt)],
      ∃ v sat, exec p.1 s = .next (s.onTh fun u => ((u.writeV d v).addQnt { sat := sat }).nextPc) ∧
        LaneWise s d q t m w v (fun i => BitVec.ofInt w (Max.max (-(2 ^ (w - 1))) (Min.min (2 ^ (w - 1) - 1) (p.2 i)))) ∧
        (sat = true ↔ ∃ i, active s q (256 / w) i ∧ (p.2 i < -(2 ^ (w - 1)) ∨ 2 ^ (w - 1) ≤ p.2 i)))

/-- R262, R263, R265, R267: each floating-point lane instruction completes when its registers and its mask are present: active lanes take
the scalar operation of the lane's format under FPCTL.RM, comparisons write a mask, and FPCTL takes the union of the active lanes'
flags. -/
def Obligations.VectorFloats : Prop :=
  ∀ (d a b : Reg) (q : BitVec 3) (t m : BitVec 1) (c : BitVec 2) (s : State), hereV s [d, a, b] q →
    let f := vfmt c
    let rm := (s.th.fpctl &&& 7).toNat
    let x : Nat → Nat := fun i => (Ln f.width (V s a) i).toNat
    let y : Nat → Nat := fun i => (Ln f.width (V s b) i).toNat
    let z : Nat → Nat := fun i => (Ln f.width (V s d) i).toNat
    (∀ p ∈ [((.vfadd d a b q t m c : Instr), fun i => f.addNum rm (f.read (x i)) (f.read (y i))),
        (.vfsub d a b q t m c, fun i => f.addNum rm (f.read (x i)) (f.read (y i)).neg),
        (.vfmul d a b q t m c, fun i => f.mulNum rm (f.read (x i)) (f.read (y i))),
        (.vfdiv d a b q t m c, fun i => f.divNum rm (f.read (x i)) (f.read (y i))),
        (.vfsqrt d a q t m c, fun i => f.sqrtNum rm (f.read (x i))),
        (.vfmin d a b q t m c, fun i => f.minMax false (x i) (y i)), (.vfmax d a b q t m c, fun i => f.minMax true (x i) (y i)),
        (.vfma d a b q t m c, fun i => f.fmaNum rm false false (f.read (x i)) (f.read (y i)) (f.read (z i)))],
      ∃ v fl, exec p.1 s = .next (wroteVf s d v fl) ∧ LaneWise s d q t m f.width v (fun i => BitVec.ofNat _ (p.2 i).1) ∧
        FlagUnion s q (256 / f.width) fl (fun i => (p.2 i).2)) ∧
    (∀ p ∈ [((.vfeq d a b q t m c : Instr), fun i => f.feq (x i) (y i)), (.vflt d a b q t m c, fun i => f.flt (x i) (y i)),
        (.vfle d a b q t m c, fun i => f.fle (x i) (y i))],
      ∃ v fl, exec p.1 s = .next (wroteVf s d v fl) ∧ MaskWise s d q t m (256 / f.width) v (fun i => (p.2 i).1) ∧
        FlagUnion s q (256 / f.width) fl (fun i => (p.2 i).2)) ∧
    (∃ v fl, exec (.vfsum d a q t c) s = .next (wroteVf s d v fl) ∧
      let r := tree f rm (fun i => if i < Min.min s.th.vlen.toNat (256 / f.width) ∧ maskOn s q i = true then some (x i) else none)
        (if c = 3 then 2 else if c = 2 then 3 else 4) 0
      LaneZero s d t f.width v (BitVec.ofNat _ (r.1.getD 0)) ∧ fl = r.2)

/-- R267 to R269: integer comparisons and mask logic write masks; reductions write lane 0 from the active lanes, or their row's value
where no lane is active. -/
def Sys2Proof.Claims.VectorMasks : Prop :=
  ∀ (d a b : Reg) (q : BitVec 3) (t m : BitVec 1) (c : BitVec 2) (s : State), hereV s [a, b, d] q →
    let w := wid c
    let x : Nat → BitVec w := Ln w (V s a)
    let y : Nat → BitVec w := Ln w (V s b)
    let on : Nat → Prop := active s q (256 / w)
    (∀ p ∈ [((.vceq d a b q t m c : Instr), fun i => decide (x i = y i)), (.vclt d a b q t m c, fun i => (x i).slt (y i)),
        (.vcltu d a b q t m c, fun i => (x i).ult (y i))],
      ∃ v, exec p.1 s = .next (wroteV s d v) ∧ MaskWise s d q t m (256 / w) v p.2) ∧
    (∀ p ∈ [((.vmand d a b q t m : Instr), fun i => (V s a).getLsbD i && (V s b).getLsbD i),
        (.vmor d a b q t m, fun i => (V s a).getLsbD i || (V s b).getLsbD i),
        (.vmxor d a b q t m, fun i => (V s a).getLsbD i != (V s b).getLsbD i), (.vmnot d a q t m, fun i => !(V s a).getLsbD i)],
      ∃ v, exec p.1 s = .next (wroteV s d v) ∧ MaskWise s d q t m 32 v p.2) ∧
    (∃ v, exec (.vmpop d a q t) s = .next (wroteV s d v) ∧ LaneZero s d t 64 v (BitVec.ofNat 64
      ((List.range 32).countP fun i => decide (i < s.th.vlen.toNat) && maskOn s q i && (V s a).getLsbD i))) ∧
    (∃ v, exec (.vsum d a q t c) s = .next (wroteV s d v) ∧ LaneZero s d t 64 v (BitVec.ofInt 64
      (((List.range (256 / w)).map fun i => if i < s.th.vlen.toNat ∧ maskOn s q i = true then (x i).toInt else 0).sum))) ∧
    (∀ p ∈ [((.vrmin d a q t c : Instr), fun (u v : BitVec w) => u.sle v, BitVec.ofInt w (2 ^ (w - 1) - 1)),
        (.vrmax d a q t c, fun u v => v.sle u, BitVec.ofInt w (-(2 ^ (w - 1)))),
        (.vrminu d a q t c, fun u v => u.ule v, BitVec.ofInt w (2 ^ w - 1)), (.vrmaxu d a q t c, fun u v => v.ule u, 0)],
      ∃ v r, exec p.1 s = .next (wroteV s d v) ∧ LaneZero s d t w v r ∧ (∀ i, on i → p.2.1 r (x i) = true) ∧
        ((∃ i, on i) → ∃ i, on i ∧ r = x i) ∧ ((¬∃ i, on i) → r = p.2.2))

/-- R270: each lane move completes when its registers and its mask are present, with its row's lanes. -/
def Sys2Proof.Claims.VectorMoves : Prop :=
  ∀ (d a b k : Reg) (q : BitVec 3) (t m : BitVec 1) (c : BitVec 2) (s : State), hereV s [d, a, b] q →
    let w := wid c
    let l := 256 / w
    let n := k.toNat
    let x : Nat → BitVec w := Ln w (V s a)
    let y : Nat → BitVec w := Ln w (V s b)
    (∀ p ∈ [((.vmov d a q t m c : Instr), x), (.vsplat d a k q t m c, fun _ => x n),
        (.vperm d a b q t m c, fun i => if (y i).toNat < l then x (y i).toNat else 0),
        (.vslup d a k q t m c, fun i => if n ≤ i then x (i - n) else 0), (.vsldn d a k q t m c, fun i => if i + n < l then x (i + n) else 0),
        (.vzip d a b q t m c, fun i => if i % 2 = 0 then x (i / 2) else y (i / 2)),
        (.vuzp d a b q t m c, fun i => if 2 * i < l then x (2 * i) else y (2 * i - l))],
      ∃ v, exec p.1 s = .next (wroteV s d v) ∧ LaneWise s d q t m w v p.2) ∧
    (∃ v, exec (.vsel d a b q t c) s = .next (wroteV s d v) ∧
      LaneWise s d 0 t 0 w v (fun i => if maskOn s q i then x i else y i)) ∧
    (∃ v, exec (.vext d a k t c) s = .next (wroteV s d v) ∧ LaneZero s d t w v (x n)) ∧
    (∃ v, exec (.vins d a k c) s = .next (wroteV s d v) ∧ ∀ i, i < l → Ln w v i = if i = n then x 0 else Ln w (V s d) i)

/-- R267 to R270: masks, reductions and lane moves. -/
def Obligations.VectorMasksAndMoves : Prop := Claims.VectorMasks ∧ Claims.VectorMoves

/-- R271 to R273, R86: each local vector load and store completes when its registers and its mask are present, no acquire is outstanding
and every active lane is aligned and permitted: a load writes its active lanes from memory, a store its active lanes to memory in
ascending order, so that the highest lane that names a byte gives it, and every other byte of memory keeps its value. A load gives zero in the lanes
whose bytes lie in a bad bank word and records the lowest such word; a store into a granule that a Cairn take has marked stalls (R410); a lane of a
store that lies in a bad bank word without filling it is not written, and the error is recorded (R83). -/
def Sys2Proof.Claims.VectorLocal : Prop :=
  ∀ (d a b : Reg) (q : BitVec 3) (t m : BitVec 1) (c : BitVec 2) (s : State), s.me.acquiring s.th.fid = false →
    let w := wid c
    let n := w / 8
    let on : Nat → Prop := active s q (256 / w)
    let low : Int → Nat := fun x => (x % 2 ^ 20).toNat
    ∀ p ∈ [((.vld d a q t m c : Instr), (.vst d a q c : Instr), fun (i : Nat) => low ((X s a).toNat + i * n), true, [a], [d]),
        (.vlds d a b q t m c, .vsts d a b q c, fun i => low ((X s a).toNat + i * (X s b).toInt), false, [a, b], [d]),
        (.vldg d a b q t m c, .vstg d a b q c, fun i => low ((X s a).toNat + (Ln w (V s b) i).toNat * n), false, [a], [d, b])],
      s.th.hereXs p.2.2.2.2.1 = true → hereV s p.2.2.2.2.2 q →
      let addr := p.2.2.1
      (if p.2.2.2.1 then (∃ i, on i) → (X s a).toNat % 8 = 0 else ∀ i, on i → addr i % n = 0) →
      (∀ R : Nat → RegEntry, (∀ i, on i → s.me.checkLocal s.th.slot (addr i) n false = .ok (R i)) →
        (∀ i, on i → ∀ j < n, (R i).place (addr i + j) / 8 ∉ s.me.bad) →
        ∃ v, exec p.1 s = .next (wroteV s d v) ∧ LaneWise s d q t m w v (fun i => BitVec.ofNat w
          (((List.range n).map fun j => (s.me.mem.read ((R i).place (addr i + j))).toNat * 256 ^ j).sum))) ∧
      (∀ R : Nat → RegEntry, (∀ i, on i → s.me.checkLocal s.th.slot (addr i) n true = .ok (R i)) → s.me.bad = [] → s.me.cow = [] →
        ∃ M, exec p.2.1 s = .next (wentOn (s.onMe fun k => { k with mem := M })) ∧
          (∀ x, (∀ i, on i → ∀ j < n, x ≠ (R i).place (addr i + j)) → M.read x = s.me.mem.read x) ∧
          (∀ i, on i → ∀ j < n, (∀ i', on i' → i < i' → ∀ j' < n, (R i').place (addr i' + j') ≠ (R i).place (addr i + j)) →
            M.read ((R i).place (addr i + j)) = (V s d).extractLsb' (w * i + 8 * j) 8)) ∧
      (∀ R : Nat → RegEntry, (∀ i, on i → s.me.checkLocal s.th.slot (addr i) n false = .ok (R i)) →
        (∀ i, on i → ∀ j < n, (R i).place (addr i + j) / 8 = (R i).place (addr i) / 8) →
        ∀ W, (∃ i, on i ∧ (R i).place (addr i) / 8 = W) → W ∈ s.me.bad →
          (∀ i, on i → (R i).place (addr i) / 8 ∈ s.me.bad → W ≤ (R i).place (addr i) / 8) →
          ∃ v, exec p.1 s = .next (wroteV (s.onMe fun k => k.recordErr s.th.slot 0 (BitVec.ofNat 64 (W * 8))) d v) ∧
            LaneWise s d q t m w v (fun i => if (R i).place (addr i) / 8 ∈ s.me.bad then 0 else BitVec.ofNat w
              (((List.range n).map fun j => (s.me.mem.read ((R i).place (addr i + j))).toNat * 256 ^ j).sum))) ∧
      (∀ R : Nat → RegEntry, (∀ i, on i → s.me.checkLocal s.th.slot (addr i) n true = .ok (R i)) →
        (∃ i, on i ∧ ∃ j < n, (R i).place (addr i + j) / 1024 ∈ s.me.cow) → exec p.2.1 s = s.stall) ∧
      (∀ (R : Nat → RegEntry) (l : Nat), (∀ i, on i → s.me.checkLocal s.th.slot (addr i) n true = .ok (R i)) → s.me.cow = [] → on l →
        (∀ i, on i → i = l) → n < 8 → (∀ j < n, (R l).place (addr l + j) / 8 = (R l).place (addr l) / 8) →
        (R l).place (addr l) / 8 ∈ s.me.bad → exec p.2.1 s =
          .next (wentOn (s.onMe fun k => k.recordErr s.th.slot 0 (BitVec.ofNat 64 ((R l).place (addr l) / 8 * 8)))))

/-- R272: before any lane is accessed every active lane is checked, first for alignment and then for permission, and within one check the
lowest failing lane decides the trap; a trapping load writes no lane and a trapping store no byte, since the trap is all that happens. -/
def Sys2Proof.Claims.VectorLocalTraps : Prop :=
  ∀ (d a b : Reg) (q : BitVec 3) (t m : BitVec 1) (c : BitVec 2) (s : State), s.me.acquiring s.th.fid = false →
    let w := wid c
    let n := w / 8
    let on : Nat → Prop := active s q (256 / w)
    let low : Int → Nat := fun x => (x % 2 ^ 20).toNat
    let unit : Nat → Nat := fun i => low ((X s a).toNat + i * n)
    let strided : Nat → Nat := fun i => low ((X s a).toNat + i * (X s b).toInt)
    let indexed : Nat → Nat := fun i => low ((X s a).toNat + (Ln w (V s b) i).toNat * n)
    (s.th.hereXs [a] = true → hereV s [d] q → (∃ i, on i) → (X s a).toNat % 8 ≠ 0 → ∀ i ∈ [(.vld d a q t m c : Instr), .vst d a q c],
      exec i s = s.trap 0x14 0 32 (BitVec.ofNat 64 (low (X s a).toNat))) ∧
    (∀ p ∈ [((.vlds d a b q t m c : Instr), strided, [a, b], [d]), (.vsts d a b q c, strided, [a, b], [d]),
        (.vldg d a b q t m c, indexed, [a], [d, b]), (.vstg d a b q c, indexed, [a], [d, b])],
      s.th.hereXs p.2.2.1 = true → hereV s p.2.2.2 q → ∀ i, on i → p.2.1 i % n ≠ 0 → (∀ j, on j → j < i → p.2.1 j % n = 0) → exec p.1 s = s.trap 0x14 0 n (BitVec.ofNat 64 (p.2.1 i))) ∧
    (∀ p ∈ [((.vld d a q t m c : Instr), unit, true, false, [a], [d]), (.vst d a q c, unit, true, true, [a], [d]),
        (.vlds d a b q t m c, strided, false, false, [a, b], [d]), (.vsts d a b q c, strided, false, true, [a, b], [d]),
        (.vldg d a b q t m c, indexed, false, false, [a], [d, b]), (.vstg d a b q c, indexed, false, true, [a], [d, b])],
      s.th.hereXs p.2.2.2.2.1 = true → hereV s p.2.2.2.2.2 q →
      (if p.2.2.1 then (X s a).toNat % 8 = 0 else ∀ i, on i → p.2.1 i % n = 0) →
      ∀ i r, on i → s.me.checkLocal s.th.slot (p.2.1 i) n p.2.2.2.1 = .error r →
        (∀ j, on j → j < i → ∃ e, s.me.checkLocal s.th.slot (p.2.1 j) n p.2.2.2.1 = .ok e) →
        exec p.1 s = s.trap 0x13 r.1 r.2 (BitVec.ofNat 64 (p.2.1 i)))

/-- R86, R271 to R273: local vector loads and stores, and their traps. -/
def Obligations.VectorLocalAccesses : Prop := Claims.VectorLocal ∧ Claims.VectorLocalTraps

/-- The first `n` elements of the group at a register, of FP32 or BF16 numbers (R275). -/
def Claims.elems (s : State) (w : BitVec 1) (r : Reg) (n : Nat) : List Machine.Num :=
  (List.range n).map fun j =>
    if w = 0 then FFmt.bf16.read (Claims.Ln 16 (V s (r + BitVec.ofNat 5 (j / 16))) (j % 16)).toNat
    else FFmt.fp32.read (Claims.Ln 32 (V s (r + BitVec.ofNat 5 (j / 8))) (j % 8)).toNat

/-- R275: quantising and dequantising a block of VLEN elements completes when the registers named are present. With VLEN 0 nothing is
written; a codebook that is not valid traps ILLEGAL 0x03; else VQNT writes the codes of `QuantBlock` to v[D], the scale to byte 0 of
v[D + 1] and its flags to QNTFLAGS, and VDQ writes each element of the group, zero from VLEN on. -/
def Sys2Proof.Claims.BlockForms : Prop :=
  ∀ (d a b : Reg) (w : BitVec 1) (s : State),
    let n := s.th.vlen.toNat
    let g := if w = 0 then 2 else 4
    let group : Reg → List Reg := fun r => (List.range g).map fun i => r + BitVec.ofNat 5 i
    let xs := Claims.elems s w a n
    let put : Nat × List Nat × QFlags → Nat → State := fun r cw =>
      s.onTh fun u => (((u.writeV d (pack cw r.2.1)).writeV (d + 1) (BitVec.ofNat 256 r.1)).addQnt r.2.2).nextPc
    let sc := ((V s (a + 1)).setWidth 8).toNat
    (hereV s (group a ++ [d, d + 1, b]) 0 →
      (n = 0 → ∀ i ∈ [(.vqntE4 d a w : Instr), .vqntE5 d a w, .vqntC4 d a b w], exec i s = .next (wentOn s)) ∧
      (0 < n → exec (.vqntE4 d a w) s = .next (put (quantBlock (.n .e4) xs) 8)) ∧
      (0 < n → exec (.vqntE5 d a w) s = .next (put (quantBlock (.n .e5) xs) 8)) ∧
      (0 < n → cbValid (V s b) = true → exec (.vqntC4 d a b w) s = .next (put (quantBlock (.c4 (V s b)) xs) 4)) ∧
      (0 < n → cbValid (V s b) = false → exec (.vqntC4 d a b w) s = s.trap 0x10 3)) ∧
    (hereV s (group d ++ [a, a + 1, b]) 0 →
      (n = 0 → ∀ i ∈ [(.vdqE4 d a w : Instr), .vdqE5 d a w, .vdqC4 d a b w], exec i s = .next (wentOn s)) ∧
      (∀ p ∈ [((.vdqE4 d a w : Instr), 8, NFmt.e4.read), (.vdqE5 d a w, 8, NFmt.e5.read), (.vdqC4 d a b w, 4, cbValue (V s b))],
        0 < n → (p.2.1 = 4 → cbValid (V s b) = true) →
        exec p.1 s = .next (s.onTh fun u => (u.writeGroup w d ((List.range n).map fun j =>
          dequant (if w = 0 then .bf16 else .fp32) sc (p.2.2 (Claims.Ln p.2.1 (V s a) j).toNat))).nextPc)) ∧
      (0 < n → cbValid (V s b) = false → exec (.vdqC4 d a b w) s = s.trap 0x10 3))

/-- R217, R219, R224: the scale of a block without NaN is the least power of two under which the greatest magnitude fits the format, held
between 2^−127 and 2^127, and 1 for a block of zeros; every finite element takes a code nearest to it under that scale; an infinite one
takes the largest code of its sign and sets QNT_INF. A NaN gives scale 0xFF, zero codes and QNT_NAN. -/
def Sys2Proof.Claims.BlockScales : Prop :=
  ∀ (f : NFmt) (xs : List Machine.Num),
    let val : Machine.Num → ℚ := fun x => ((x.dyadic.n : ℚ)) * 2 ^ x.dyadic.e
    let top : ℚ := match f with
      | .e4 => 448
      | .e5 => 57344
    let r := quantBlock (.n f) xs
    (xs.any Num.isNan = true → r.1 = 0xFF ∧ r.2.1 = xs.map (fun _ => 0) ∧ r.2.2 = { nan := true }) ∧
    (xs.any Num.isNan = false →
      r.1 ≤ 254 ∧ r.2.1.length = xs.length ∧
      ((∀ x ∈ xs, x.isFinite = true → val x = 0) → r.1 = 127) ∧
      (∀ x ∈ xs, x.isFinite = true → r.1 < 254 → |val x| ≤ top * 2 ^ ((r.1 : Int) - 127)) ∧
      ((∃ x ∈ xs, x.isFinite = true ∧ val x ≠ 0) → 0 < r.1 → ∃ x ∈ xs, x.isFinite = true ∧ top * 2 ^ ((r.1 : Int) - 128) < |val x|) ∧
      (∀ (i : Nat) (h : i < xs.length), xs[i].isFinite = true → |val xs[i]| ≤ top * 2 ^ ((r.1 : Int) - 127) →
        ∀ c < 256, (f.read c).isFinite = true →
          |val xs[i] / 2 ^ ((r.1 : Int) - 127) - val (f.read (r.2.1.getD i 0))| ≤ |val xs[i] / 2 ^ ((r.1 : Int) - 127) - val (f.read c)|) ∧
      (∀ (i : Nat) (h : i < xs.length) (n : Bool), xs[i] = .inf n → r.2.1.getD i 0 = match f with
        | .e4 => if n then 0xFE else 0x7E
        | .e5 => if n then 0xFB else 0x7B) ∧
      (r.2.2.inf = true ↔ ∃ n, Num.inf n ∈ xs))

/-- R218 to R220, R224: the same for a block quantised by a valid codebook. A finite element takes the lowest index whose entry is nearest to it, and
QNT_SAT tells that one lies beyond the entries of its sign, or where none has its sign beyond all; an infinite one takes the lowest index of greatest
magnitude among the entries of its sign, or where none has it among all. -/
def Sys2Proof.Claims.BlockCodebooks : Prop :=
  ∀ (cb : V256) (xs : List Machine.Num) (top : ℚ), cbValid cb = true →
    let val : Machine.Num → ℚ := fun x => ((x.dyadic.n : ℚ)) * 2 ^ x.dyadic.e
    let ent : Nat → ℚ := fun i => val (FFmt.bf16.read (Claims.Ln 16 cb i).toNat)
    let minus : Nat → Bool := fun i => (Claims.Ln 16 cb i).getLsbD 15
    let of : Bool → Nat → Prop := fun n i => i < 16 ∧ (minus i = n ∨ ∀ j < 16, minus j ≠ n)
    let r := quantBlock (.c4 cb) xs
    let q : Machine.Num → ℚ := fun x => val x / 2 ^ ((r.1 : Int) - 127)
    (∀ i < 16, |ent i| ≤ top) → (∃ i < 16, |ent i| = top) →
    (xs.any Num.isNan = true → r.1 = 0xFF ∧ r.2.2 = { nan := true } ∧ ∃ z < 16, r.2.1 = xs.map (fun _ => z) ∧
      (∀ j < 16, |ent z| ≤ |ent j|) ∧ ∀ j < z, |ent z| < |ent j|) ∧
    (xs.any Num.isNan = false →
      r.1 ≤ 254 ∧ r.2.1.length = xs.length ∧
      ((∀ x ∈ xs, x.isFinite = true → val x = 0) → r.1 = 127) ∧
      (∀ x ∈ xs, x.isFinite = true → r.1 < 254 → |val x| ≤ top * 2 ^ ((r.1 : Int) - 127)) ∧
      ((∃ x ∈ xs, x.isFinite = true ∧ val x ≠ 0) → 0 < r.1 → ∃ x ∈ xs, x.isFinite = true ∧ top * 2 ^ ((r.1 : Int) - 128) < |val x|) ∧
      (∀ (i : Nat) (h : i < xs.length), xs[i].isFinite = true → let c := r.2.1.getD i 0
        c < 16 ∧ (∀ j < 16, |q xs[i] - ent c| ≤ |q xs[i] - ent j|) ∧ ∀ j < c, |q xs[i] - ent c| < |q xs[i] - ent j|) ∧
      (∀ (i : Nat) (h : i < xs.length) (n : Bool), xs[i] = .inf n → let c := r.2.1.getD i 0
        of n c ∧ (∀ j, of n j → |ent j| ≤ |ent c|) ∧ ∀ j < c, of n j → |ent j| < |ent c|) ∧
      (r.2.2.sat = true ↔ ∃ n m e, Num.fin n m e ∈ xs ∧ ∀ j, of n j → |ent j| < |q (.fin n m e)|) ∧
      (r.2.2.inf = true ↔ ∃ n, Num.inf n ∈ xs))

/-- R217 to R220, R224, R275: the forms of quantising and dequantising, and the scale and codes of a block. -/
def Obligations.BlockQuantization : Prop := Claims.BlockForms ∧ Claims.BlockScales ∧ Claims.BlockCodebooks

/-- R281, R142, R198: a commons or DRAM instruction whose address is aligned, of its class and granted, whose counter has room and whose
core has a place for it, completes: one access with its captured operands stands at the core, its outstanding-operation counter has
risen, the presence bits of its destination are clear, no register and no memory has changed, and the thread set goes on. The access is
held behind a ticket of the actor on its page, waits for its release condition, or has left for its owner. -/
def Sys2Proof.Claims.AccessIssues : Prop :=
  ∀ (d a b : Reg) (q : BitVec 3) (u m h : BitVec 1) (w c : BitVec 2) (s : State),
    ∀ p ∈ asks d a b c s ++ vasks d a q u m w h s, ∀ o, p.may s → (p.ask.cls = 0 → coreIsMem s.cur = true) →
      p.ask.ga % p.ask.size = 0 → p.ask.ga < 2 ^ 56 → gaClass p.ask.ga = p.ask.cls →
      s.me.ownerAt s.self.domain p.ask.ga p.ask.op.reads p.ask.op.writes = .owner o → (p.ask.cls = 0 → o = memOwner s.cur) →
      (if p.ask.op.countsLoad then s.self.cl else s.self.cs) < 63 → s.canLaunch [p.ask] o = true →
      ∃ t, exec p.i s = .next t ∧ t.th.pc = s.th.pc + 4 ∧ (∀ r, X t r = X s r ∧ V t r = V s r) ∧
        (∀ r, t.th.hereX r = (s.th.hereX r && !(!p.ask.destV && decide (r ≠ 0) && decide (r.toNat = p.ask.dest)))) ∧
        (∀ r, t.th.hereV r = (s.th.hereV r && !(p.ask.destV && (decide (r.toNat = p.ask.dest) ||
          (decide (p.ask.op = .vadd) && decide (r = d + 1)))))) ∧
        (if p.ask.op.countsLoad then t.self = { s.self with cl := s.self.cl + 1 } else t.self = { s.self with cs := s.self.cs + 1 }) ∧
        (∃ x ∈ t.me.accs, x.id = s.me.next ∧ x.op = p.ask.op ∧ x.ga = p.ask.ga ∧ x.ops = p.ask.ops ∧ x.chan = p.ask.chan ∧ x.dest = p.ask.dest ∧
          x.destV = p.ask.destV ∧ x.slot = s.th.slot ∧ x.name = s.self.name ∧ x.owner = o ∧ x.pc = s.th.pc ∧
          ((∀ y ∈ s.me.accs, y.id < s.me.next) → x.phase = if s.me.holdsPage s.th.slot (p.ask.ga / 65536) then .held
            else if s.me.waitsAt (bankOf o p.ask.ga) = true ∨
              (p.ask.op = .storeRel ∧ s.me.released s.th.slot s.me.next (fun _ => true) = false) then .waiting else .sent)) ∧
        t.me.mem = s.me.mem ∧ t.gmem = s.gmem ∧ t.words = s.words ∧ (∀ k, k ≠ s.cur → t.core k = s.core k)

/-- R72, R106, R135, R142, R229, R281: where such an instruction does not issue. A misaligned address traps MISALIGN with the width, an address
of another class PLB_DENY 0x01, a page that the domain may not reach so PLB_DENY with the sub-cause, each with CAUSE.GAF = 1 and before anything
else happens; a full counter, or no room in the issue buffer, the ticket table or below the limit of its bank, stalls it; a page whose record the core
does not hold stalls it until a refill has brought one; a DRAM page of another home ends the access at once with a deferred PLB_DENY 0x01; and off a
memory core a DRAM instruction traps ILLEGAL 0x06. When an access takes its sequence number is the model's reading (log 18). -/
def Sys2Proof.Claims.AccessTraps : Prop :=
  ∀ (d a b : Reg) (q : BitVec 3) (u m h : BitVec 1) (w c : BitVec 2) (s : State),
    (∀ p ∈ asks d a b c s ++ vasks d a q u m w h s, p.may s → (p.ask.cls = 0 → coreIsMem s.cur = true) →
      (p.ask.ga % p.ask.size ≠ 0 → exec p.i s = s.trap 0x14 0 p.ask.size (X s a) true) ∧
      (p.ask.ga % p.ask.size = 0 → ¬(p.ask.ga < 2 ^ 56 ∧ gaClass p.ask.ga = p.ask.cls) → exec p.i s = s.trap 0x12 1 0 (X s a) true) ∧
      (p.ask.ga % p.ask.size = 0 → p.ask.ga < 2 ^ 56 → gaClass p.ask.ga = p.ask.cls →
        (∀ sub, s.me.ownerAt s.self.domain p.ask.ga p.ask.op.reads p.ask.op.writes = .deny sub →
          exec p.i s = (s.onMe (·.dropRefill s.self.domain p.ask.ga)).trap 0x12 sub 0 (X s a) true) ∧
        (∀ o, s.me.ownerAt s.self.domain p.ask.ga p.ask.op.reads p.ask.op.writes = .owner o → (p.ask.cls = 0 → o = memOwner s.cur) →
          63 ≤ (if p.ask.op.countsLoad then s.self.cl else s.self.cs) →
          exec p.i s = .next (s.onTh fun t => { t with stalled := true })) ∧
        (∀ o, s.me.ownerAt s.self.domain p.ask.ga p.ask.op.reads p.ask.op.writes = .owner o → (p.ask.cls = 0 → o = memOwner s.cur) →
          s.canLaunch [p.ask] o = false → exec p.i s = .next (s.onTh fun t => { t with stalled := true })) ∧
        (s.me.ownerAt s.self.domain p.ask.ga p.ask.op.reads p.ask.op.writes = .refill →
          exec p.i s = .next ((s.onMe (·.askRefill s.self.domain p.ask.ga)).onTh fun t => { t with stalled := true })) ∧
        (∀ o, p.ask.cls = 0 → s.me.ownerAt s.self.domain p.ask.ga p.ask.op.reads p.ask.op.writes = .owner o → o ≠ memOwner s.cur → s.th.busy = true →
          (if p.ask.op.countsLoad then s.self.cl else s.self.cs) < 63 → s.me.bufferUse < 128 →
          ∃ t, exec p.i s = .next t ∧ t.th.pc = s.th.pc + 4 ∧ t.me.accs = s.me.accs ∧ t.me.mem = s.me.mem ∧ t.gmem = s.gmem ∧
            (s.self.state = .firing → s.self.tsetf = s.me.tset.val → s.th.deferred = none → ∃ f, t.th.deferred = some f ∧
              f.cause = BitVec.ofNat 64 (2 ^ 63 + 2 ^ 62 + 0x12 * 2 ^ 40 + 2 ^ 32) ∧ f.pc = s.th.pc ∧ f.va = X s a)))) ∧
    (coreIsMem s.cur = false → ∀ p ∈ vasks d a q u m w h s, p.ask.cls = 0 → exec p.i s = s.trap 0x10 6)

/-- R72, R106, R135, R142, R198, R229, R281: commons and DRAM instructions, issued or trapping. -/
def Obligations.Accesses : Prop := Claims.AccessIssues ∧ Claims.AccessTraps

/-- R287: CRECL.R over part of one page that starts in one bank's block of 64 bytes and stays in it issues one access, as the other commons
instructions do; over no word at all it completes at once and counts nothing. -/
def Sys2Proof.Claims.RangeReclaims : Prop :=
  ∀ (d a b : Reg) (s : State) (o : Nat), s.th.hereXs [d, a, b] = true → s.me.acquiring s.th.fid = false →
    (X s a).toNat % 8 = 0 → (X s a).toNat < 2 ^ 56 → gaClass (X s a).toNat = 1 →
    s.me.ownerAt s.self.domain (X s a).toNat true true = .owner o → ownerIsBank o = true → s.self.cl < 63 → s.self.cs < 63 →
    let n := (X s d).toNat % 2 ^ 14
    (n = 0 → exec (.creclR d a b) s = .next (wentOn (s.onMe (·.plbTouch s.self.domain (X s a).toNat)))) ∧
    (0 < n → (X s a).toNat % 64 + 8 * n ≤ 64 →
      s.canLaunch [{ op := .reclRange, ga := (X s a).toNat, size := 8, ops := [X s b, X s d, X s a] }] o = true →
      ∃ t, exec (.creclR d a b) s = .next t ∧ t.th.pc = s.th.pc + 4 ∧ t.me.mem = s.me.mem ∧ t.gmem = s.gmem ∧ (∀ r, X t r = X s r) ∧
        ∃ x ∈ t.me.accs, x.id = s.me.next ∧ x.op = .reclRange ∧ x.ga = (X s a).toNat ∧ x.ops = [X s b, X s d, X s a] ∧ x.owner = o)

/-- R116, R294, R295: FENCE, EFENCE and WAITC complete where what they name has been performed, changing nothing but the program counter, and
stall where it has not; EFENCE raises a data error that EPERR records, as DATA_ERROR with its SRCMEM and address. A copy that names a region or
ring of the actor lies within every scope, and every copy within pod scope; a fill of global memory lies where its addresses do; MSYNC and MCHK
name no place. Which of a copy's places count is the model's reading (log 48). WAITC with a CS immediate of 0 also waits for ticketed stores and atomics still awaiting replay (R118). -/
def Sys2Proof.Claims.Fences : Prop :=
  ∀ (q : BitVec 2) (c : BitVec 3) (l k p m : BitVec 6) (s : State),
    let mine : Access → Prop := fun x => x.slot = s.th.slot ∧ x.orphan = false
    let within : Nat → Access → Prop := fun n x => match n with
      | 0 => False
      | 1 => coreIsMem s.cur = true ∧ x.owner = memOwner s.cur
      | 2 => x.owner / 512 = s.cur / 65536
      | _ => True
    let done : BitVec 3 → Nat → Prop := fun c n =>
      (c.getLsbD 0 = true → ∀ x ∈ s.me.accs, mine x → within n x → x.performed = true) ∧ 
        (c.getLsbD 1 = true → s.self.cp ≤ s.copiesOutside s.cur s.th.slot n) ∧
        (c.getLsbD 2 = true → s.self.mt ≤ if 3 ≤ n then 0 else
          (s.me.mq.filter fun x => decide (x.slot = s.th.slot) && (decide (cmdOpc x.cmd = 1) || decide (cmdOpc x.cmd = 5))).length)
    let stalls : Answer := .next (s.onTh fun t => { t with stalled := true })
    let low : Prop := s.self.cl ≤ l.toNat ∧ s.self.cs ≤ k.toNat ∧ s.self.cp ≤ p.toNat ∧ s.self.mt ≤ m.toNat ∧
      (k = 0 → ∀ x ∈ s.me.accs, mine x → x.op.writes = true → x.entry = false)
    (∀ core slot, s.copiesOutside core slot 3 = 0) ∧
    (∀ j n, j.kind ∈ [1, 2, 5, 6, 7, 8, 9] ∨ (j.kind = 10 ∧ j.kspec = 0) → s.copyInScope j n = true) ∧
    (∀ j n, n < 3 → j.kind = 10 → j.kspec = 1 → (s.copyInScope j n = true ↔
      ∃ p ∈ j.pieces {}, s.gaInScope j.core n (s.actor j.core j.slot).domain p.ga = true)) ∧
    (done c q.toNat → exec (.fence q c) s = .next (wentOn s)) ∧ (¬done c q.toNat → exec (.fence q c) s = stalls) ∧
    (done 7 3 → (∀ x ∈ s.me.accs, ¬mine x) → s.th.eperr.getLsbD 63 = false → exec .efence s = .next (wentOn s)) ∧
    (done 7 3 → (∀ x ∈ s.me.accs, ¬mine x) → s.th.eperr.getLsbD 63 = true →
      exec .efence s = s.trap 0x20 (s.th.eperr.toNat / 2 ^ 59 % 8) 0 (s.th.eperr &&& 0x3FFFFFFFFFFFFF)
        (decide (s.th.eperr.toNat / 2 ^ 59 % 8 ≠ 0))) ∧
    (¬(done 7 3 ∧ ∀ x ∈ s.me.accs, ¬mine x) → exec .efence s = stalls) ∧
    ((low → exec (.waitc l k p m) s = .next (wentOn s)) ∧ (¬low → exec (.waitc l k p m) s = stalls))

/-- R116, R287, R294, R295: reclaiming a range, and the instructions that wait for others. -/
def Obligations.ReclaimsAndFences : Prop := Claims.RangeReclaims ∧ Claims.Fences

/-- R65, R292, R293: the stream instructions complete when their registers are present and the stream lets them: a binding goes to its
s register with HEAD 0 and, for writing, all its words free; a read takes the word at HEAD and a write stores one there, and both step HEAD
and CNT; the word read reaches its register, which is not present until then, when the next cycle begins (R60, log 90); SCLOSE closes, SUNBIND clears. An unbound register, or one of the other direction, traps ILLEGAL 0x05, the end of a closed stream
STREAM_CLOSED; and a stream that is empty, or full, stalls. -/
def Obligations.Streams : Prop :=
  ∀ (d a : Reg) (s : State), s.me.acquiring s.th.fid = false →
    let xd : Prop := s.th.hereXs [d] = true
    let xa : Prop := s.th.hereXs [a] = true
    let i := (X s a).toNat % 256
    let e := s.me.regions.get {} i
    let sd : Fin 4 := Fin.ofNat 4 d.toNat
    let sa : Fin 4 := Fin.ofNat 4 a.toNat
    let vd := s.th.st[sd]
    let va := s.th.st[sa]
    let mk : Bool → Bool → Nat → Nat → Nat → W64 := fun w c r h n =>
      BitVec.ofNat 64 (2 ^ 63 + (if w then 2 ^ 62 else 0) + (if c then 2 ^ 61 else 0) + r * 2 ^ 48 + h * 2 ^ 16 + n)
    let step : W64 → RegEntry → W64 := fun v g =>
      mk (v.getLsbD 62) (v.getLsbD 61) (v.toNat / 2 ^ 48 % 256) ((v.toNat / 2 ^ 16 % 2 ^ 16 + 1) % (128 * g.size)) (v.toNat % 2 ^ 16 - 1)
    let put : Fin 4 → W64 → Thread → Thread := fun j v t => ({ t with st := t.st.set j v } : Thread).nextPc
    let ra := s.me.regions.get {} (va.toNat / 2 ^ 48 % 256)
    let rd := s.me.regions.get {} (vd.toNat / 2 ^ 48 % 256)
    let pa := ra.base * 1024 + 8 * (va.toNat / 2 ^ 16 % 2 ^ 16)
    let pd := rd.base * 1024 + 8 * (vd.toNat / 2 ^ 16 % 2 ^ 16)
    (xa → e.valid = true → e.owner = s.th.slot → e.tomb = false → e.kind = 6 →
      (∀ j : Fin 4, j ≠ sd → ¬(s.th.st[j].getLsbD 63 = true ∧ s.th.st[j].toNat / 2 ^ 48 % 256 = i)) →
      (∃ t, exec (.sbindR d a) s = .next t ∧ t.cores = (s.onTh (put sd (mk false false i 0 0))).cores ∧ t.gmem = s.gmem) ∧
      (∃ t, exec (.sbindW d a) s = .next t ∧ t.cores = (s.onTh (put sd (mk true false i 0 (128 * e.size)))).cores ∧ t.gmem = s.gmem)) ∧
    (xa → e.valid = false ∨ e.owner ≠ s.th.slot → ∀ x ∈ [(.sbindR d a : Instr), .sbindW d a], exec x s = s.trap 0x13 1 i) ∧
    (vd.getLsbD 63 = false → exec (.sunbind d) s = .next (s.onTh (put sd 0))) ∧
    (vd.getLsbD 63 = true → ∃ t, exec (.sunbind d) s = .next t ∧ t.th = put sd 0 s.th ∧ t.cores = (s.onTh (put sd 0)).cores) ∧
    (xd → va.getLsbD 63 = false ∨ va.getLsbD 62 = true → exec (.srd d a) s = s.trap 0x10 5) ∧
    (xd → va.getLsbD 63 = true → va.getLsbD 62 = false → va.toNat % 2 ^ 16 = 0 → exec (.srd d a) s =
      if va.getLsbD 61 then s.trap 0x15 0 sa.val else .next (s.onTh fun t => { t with stalled := true })) ∧
    (xd → va.getLsbD 63 = true → va.getLsbD 62 = false → va.toNat % 2 ^ 16 ≠ 0 → (∀ j < 8, ra.place (pa + j) / 8 ∉ s.me.bad) →
      exec (.srd d a) s = .next (s.onTh fun t => put sa (step va ra) { t.clearX d with landing := some (d, BitVec.ofNat 64
        (((List.range 8).map fun j => (s.me.mem.read (ra.place (pa + j))).toNat * 256 ^ j).sum)) })) ∧
    (∀ (t : Thread) n v, 0 < n → t.landing = some (d, v) → t.land n = { t.writeX d v with landing := none }) ∧
    (xa → vd.getLsbD 63 = false ∨ vd.getLsbD 62 = false → exec (.swr d a) s = s.trap 0x10 5) ∧
    (xa → vd.getLsbD 63 = true → vd.getLsbD 62 = true → vd.getLsbD 61 = true → exec (.swr d a) s = s.trap 0x15 0 sd.val) ∧
    (xa → vd.getLsbD 63 = true → vd.getLsbD 62 = true → vd.getLsbD 61 = false → vd.toNat % 2 ^ 16 = 0 →
      exec (.swr d a) s = .next (s.onTh fun t => { t with stalled := true })) ∧
    (xa → vd.getLsbD 63 = true → vd.getLsbD 62 = true → vd.getLsbD 61 = false → vd.toNat % 2 ^ 16 ≠ 0 → s.me.bad = [] → s.me.cow = [] →
      let bs : List Byte := (List.range 8).map fun j => BitVec.ofNat 8 ((X s a).toNat / 256 ^ j)
      exec (.swr d a) s = .next ((s.onMe fun k => { k with mem := k.mem.writeMap rd.place pd bs }).onTh (put sd (step vd rd)))) ∧
    (vd.getLsbD 63 = false → exec (.sclose d) s = s.trap 0x10 5) ∧
    (vd.getLsbD 63 = true → exec (.sclose d) s = .next (s.onTh (put sd (mk (vd.getLsbD 62) true (vd.toNat / 2 ^ 48 % 256)
      (vd.toNat / 2 ^ 16 % 2 ^ 16) (if vd.getLsbD 62 then vd.toNat % 2 ^ 16 else 0)))))

/-- R191, R318, R337, R338: COPY, COPY_NB, CQPOP and MCMD complete when their registers are present and their queue has room: a request
with the four words from x[A] joins the copy FIFO and CP rises; a record leaves the completion ring into v[D], or v[D] takes zero, as it does where the record holds an
uncorrectable error; on a completion
channel other than c3 a record counts in POPCNT, and none is given beyond the handler's USE; a checked command joins the matrix queue with its scales,
MT rises and so does QPOP of each ring it pops. Otherwise COPY stalls, COPY_NB reports 1, and MCMD stalls: at 32 commands, at an MT of 63, and until
a ring holds a tile for it. A local range of a command is checked as a load or store of its size is. An older CLD.ACQ of the firing holds COPY and
MCMD, and not CQPOP. -/
def Obligations.QueueInstructions : Prop :=
  ∀ (d a b : Reg) (s : State),
    let unheld : Prop := s.me.acquiring s.th.fid = false
    let here : Prop := s.th.hereXs [a, a + 1, a + 2, a + 3] = true
    let hereD : Prop := s.th.hereXs [d, a, a + 1, a + 2, a + 3] = true
    let req : CopyReq := { id := s.me.next, w := #v[X s a, X s (a + 1), X s (a + 2), X s (a + 3)], slot := s.th.slot, name := s.self.name,
                           tset := s.me.tset, fid := s.th.fid }
    let pushed : State := s.onMe fun k =>
      ({ k with fifo := k.fifo ++ [req], next := k.next + 1 } : Core).onActor s.th.slot fun n => { n with cp := n.cp + 1 }
    let stalls : Answer := .next (s.onTh fun t => { t with stalled := true })
    let given : Nat := s.self.popcnt.toNat / 16 ^ s.self.cchan % 16
    let use : Nat := ((s.self.handlers[s.self.handler]?).bind fun h => h.use[s.self.cchan]?).getD 0
    let nothing : Prop := s.self.crCnt = 0 ∨ (s.self.cchan ≠ 3 ∧ use ≤ given)
    let c := V s a
    let even : Nat → Nat → Prop := fun va e => va % e = 0 ∧ (cmdOpc c = 3 ∨ cmdPitch c % e = 0)
    let ranged : Nat → Prop := fun i => cmdRange c = none ∧ i = 0 ∨ ∃ va n e st g h, cmdRange c = some (va, n, e, st) ∧ even va e ∧
      s.me.checkLocal s.th.slot va n st = .ok g ∧ s.me.findRegion s.th.slot va = some (i, h) ∧ (g.kind = 0 ∨ g.kind = 3)
    (unheld → s.self.cp < 63 → s.me.fifo.length < 16 →
      (here → exec (.copy a) s = .next (wentOn pushed)) ∧ (hereD → exec (.copyNb d a) s = .next (wroteX pushed d 0))) ∧
    (unheld → 63 ≤ s.self.cp → (here → exec (.copy a) s = stalls) ∧ (hereD → exec (.copyNb d a) s = stalls)) ∧
    (unheld → s.self.cp < 63 → 16 ≤ s.me.fifo.length →
      (here → exec (.copy a) s = stalls) ∧ (hereD → exec (.copyNb d a) s = .next (wroteX s d 1))) ∧
    (s.me.acquiring s.th.fid = true → (here → exec (.copy a) s = stalls) ∧ (hereD → exec (.copyNb d a) s = stalls) ∧
      (coreIsMem s.cur = false → s.th.status.getLsbD 2 = true → s.th.hereV a = true → s.th.hereXs [d, b] = true →
        exec (.mcmd d a b) s = stalls)) ∧
    (s.th.hereV d = true → nothing → exec (.cqpop d) s = .next (wroteV s d 0)) ∧
    (s.th.hereV d = true → ¬nothing → ∀ v, s.me.badRun (s.me.recordAt s.th.slot s.self.crHead) 32 = some v →
      ∃ t, exec (.cqpop d) s = .next t ∧ V t d = 0 ∧ t.th.pc = s.th.pc + 4 ∧
        (s.self.state = .firing → s.self.tsetf = s.me.tset.val → t.th.eperr.getLsbD 63 = true)) ∧
    (s.th.hereV d = true → ¬nothing → s.me.badRun (s.me.recordAt s.th.slot s.self.crHead) 32 = none →
      ∃ t, exec (.cqpop d) s = .next t ∧
      V t d = BitVec.ofNat 256 (((List.range 32).map fun j => (s.me.mem.read
        ((s.me.regions.get {} s.self.cring).base * 1024 + 32 * s.self.crHead + j)).toNat * 256 ^ j).sum) ∧
      t.self.crCnt = s.self.crCnt - 1 ∧ t.self.crHead = (s.self.crHead + 1) % s.self.crDepth ∧ t.me.mem = s.me.mem ∧
      (s.self.cchan = 3 → t.self.popcnt = s.self.popcnt) ∧
      (s.self.cchan < 3 → given < 15 → t.self.popcnt.toNat / 16 ^ s.self.cchan % 16 = given + 1) ∧
      (∀ r, X t r = X s r) ∧ (∀ r, r ≠ d → V t r = V s r) ∧ t.th.pc = s.th.pc + 4) ∧
    (coreIsMem s.cur = true ∨ s.th.status.getLsbD 2 = false → exec (.mcmd d a b) s = s.trap 0x10 6) ∧
    (unheld → coreIsMem s.cur = false → s.th.status.getLsbD 2 = true → s.th.hereV a = true → s.th.hereXs [d, b] = true →
      (∀ sub i, s.me.cmdCheck s.self (V s a) = some (sub, i) → exec (.mcmd d a b) s = s.trap 0x18 sub (cmdDetail (V s a) i)) ∧
      (∀ va n e st, s.me.cmdCheck s.self c = none → cmdRange c = some (va, n, e, st) →
        (¬even va e → exec (.mcmd d a b) s = s.trap 0x14 0 e (BitVec.ofNat 64 va)) ∧
        (∀ x, even va e → s.me.checkLocal s.th.slot va n st = .error x →
          exec (.mcmd d a b) s = s.trap 0x13 x.1 x.2 (BitVec.ofNat 64 va)) ∧
        (∀ g i h, even va e → s.me.checkLocal s.th.slot va n st = .ok g → s.me.findRegion s.th.slot va = some (i, h) → ¬(g.kind = 0 ∨ g.kind = 3) →
          exec (.mcmd d a b) s = s.trap 0x13 4 i (BitVec.ofNat 64 va))) ∧
      (∀ i, s.me.cmdCheck s.self c = none → ranged i →
        32 ≤ s.me.mq.length ∨ 63 ≤ s.self.mt ∨ (∃ r ∈ cmdReads c, (s.self.ring r).cnt ≤ (s.self.ring r).qpop) →
        exec (.mcmd d a b) s = stalls) ∧
      (∀ i, s.me.cmdCheck s.self c = none → ranged i → s.me.mq.length < 32 → s.self.mt < 63 →
        (∀ r ∈ cmdReads (V s a), (s.self.ring r).qpop < (s.self.ring r).cnt) →
        let e : TileCmd := { cmd := V s a, sca := X s d, scb := X s b, slot := s.th.slot, tset := s.me.tset, ridx := i
                             born := (s.me.regions.get {} i).born, order := s.me.next, pc := s.th.pc }
        ∃ t, exec (.mcmd d a b) s = .next t ∧ t.me.mq = s.me.mq ++ [e] ∧
          t.self.mt = s.self.mt + 1 ∧ (∀ r < 4, (t.self.ring r).qpop = (s.self.ring r).qpop + (cmdPops (V s a)).count r) ∧ t.th.pc = s.th.pc + 4 ∧ (∀ r, X t r = X s r ∧ V t r = V s r) ∧ t.me.mem = s.me.mem))

/-- R64, R179, R301: the sending instructions complete when their registers are present: while SENDLEFT is not 0 the message stands in the
core's send allowance and is under way, with the sender's name, incarnation and domain, and SENDLEFT falls by 1; at 0 SEND_NB writes 1 and
the others trap SEND_LIMIT with the handler's PROD. PSEND traps PRIV 0x01 in a firing without privilege. -/
def Obligations.Sends : Prop :=
  ∀ (d a b : Reg) (c : BitVec 2) (s : State), s.th.hereXs [a, b, d] = true →
    let msg : BitVec 8 → Bool → BitVec 3 → Bool → Vector W64 8 → Msg := fun inc named kind every body =>
      { dst := X s a, inc := inc, named := named, chan := c.toNat, kind := kind, sinc := s.self.incarn, sender := s.self.name,
        domain := s.self.domain, everyDomain := every, body := body }
    let mb : BitVec 8 := (X s b).setWidth 8
    let nb := (X s b).getLsbD 8
    let all : List (Instr × Msg) := [(.send a b c, msg mb nb 0 false s.th.m), (.sendNb d a b c, msg mb nb 0 false s.th.m),
      (.sendi d a b c, msg 0 false 1 false #v[X s d, X s b, 0, 0, 0, 0, 0, 0]), (.psend a b c, msg mb nb 0 true s.th.m)]
    (∀ p ∈ all, (p.2.everyDomain = true → s.th.status.getLsbD 1 = true) → s.th.sendleft ≠ 0 →
      ∃ t e, exec p.1 s = .next t ∧ t.th.sendleft = s.th.sendleft - 1 ∧ t.th.pc = s.th.pc + 4 ∧ t.th.m = s.th.m ∧
        t.me.sends = s.me.sends ++ [e] ∧ e.msg = p.2 ∧ e.id = s.me.next ∧ e.slot = s.th.slot ∧ e.fid = s.th.fid ∧ e.phase = .waiting ∧
        t.packet s.serial = some (posted s (.message p.2 (.entry s.cur s.me.next) none)) ∧
        (∀ r, X t r = if p.1 = .sendNb d a b c ∧ r = d then 0 else X s r) ∧ (∀ r, V t r = V s r) ∧ t.me.mem = s.me.mem ∧
        t.gmem = s.gmem ∧ t.self = s.self) ∧
    (s.th.sendleft = 0 → exec (.send a b c) s = s.trap 0x1A 0 s.self.prodOf ∧ exec (.sendi d a b c) s = s.trap 0x1A 0 s.self.prodOf ∧
      exec (.sendNb d a b c) s = .next (wroteX s d 1)) ∧
    (s.th.status.getLsbD 1 = false → exec (.psend a b c) s = s.trap 0x11 1)

/-- R31, R177, R299, R300: RECV completes when its registers are present: from the completion channel, from a channel that has given the
handler's USE and from an empty one it writes 0 to both; else it takes the oldest message of the channel into m0 to m7 with its header
and sender, and the channel and POPCNT count it. Where the message lies over an uncorrectable error, EPERR records one (R83). -/
def Obligations.Receives : Prop :=
  ∀ (d b : Reg) (c : BitVec 2) (s : State), s.th.hereXs [d, b] = true →
    let i := c.toNat
    let ch := s.me.chan s.th.slot i
    let given : Nat := s.self.popcnt.toNat / 16 ^ i % 16
    let use : Nat := ((s.self.handlers[s.self.handler]?).bind fun h => h.use[i]?).getD 0
    let empty : Prop := (s.self.cchan ≠ 3 ∧ i = s.self.cchan) ∨ use ≤ given ∨ ch.cnt = 0
    let at_ : Nat := s.me.mailbox s.th.slot + 64 + 80 * (ch.base + ch.head % ch.cap)
    let word : Nat → W64 := fun n => BitVec.ofNat 64 (((List.range 8).map fun j => (s.me.mem.read (at_ + 8 * n + j)).toNat * 256 ^ j).sum)
    (empty → exec (.recv d b c) s = .next (s.onTh fun t => ((t.writeX d 0).writeX b 0).nextPc)) ∧
    (¬empty → ∀ v, s.me.headBad s.th.slot i = some v → ∃ t, exec (.recv d b c) s = .next t ∧ t.th.pc = s.th.pc + 4 ∧
      (s.self.state = .firing → s.self.tsetf = s.me.tset.val → t.th.eperr.getLsbD 63 = true)) ∧
    (¬empty → 0 < ch.cap → ch.cap ≤ 256 → s.me.headBad s.th.slot i = none → ∃ t, exec (.recv d b c) s = .next t ∧
      (∀ j : Fin 8, t.th.m[j] = word (2 + j.val)) ∧ (∀ r, X t r = if r = 0 then 0 else if r = b then word 1 else if r = d then word 0 else X s r) ∧
      t.th.pc = s.th.pc + 4 ∧ t.me.chan s.th.slot i = { ch with head := (ch.head + 1) % ch.cap, cnt := ch.cnt - 1 } ∧
      (given < 15 → t.self.popcnt.toNat / 16 ^ i % 16 = given + 1) ∧ (∀ r, V t r = V s r) ∧ t.gmem = s.gmem ∧
      (∀ x, ¬(s.me.mailbox s.th.slot + 16 * i ≤ x ∧ x < s.me.mailbox s.th.slot + 16 * i + 8) → t.me.mem.read x = s.me.mem.read x))

/-- R174, R175, R299: a message placed in an empty channel is the one that the next receive finds at its head: its header, its sender and
its eight words. -/
def Obligations.PlacedIsReceived : Prop :=
  ∀ (k : Core) (slot now : Nat) (m : Msg), m.chan < 4 → (k.chan slot m.chan).cnt = 0 → 0 < (k.chan slot m.chan).cap →
    (k.chan slot m.chan).cap ≤ 256 → (k.chan slot m.chan).head < (k.chan slot m.chan).cap →
    let t := k.placeMsg slot now m
    t.headEntry slot m.chan = (BitVec.ofNat 64 (2 ^ 63 + m.kind.toNat * 2 ^ 60 + m.chan * 2 ^ 58 + m.sinc.toNat * 2 ^ 48 + now % 2 ^ 32),
      m.sender, m.body) ∧
    (t.chan slot m.chan).cnt = 1 ∧ (t.chan slot m.chan).head = (k.chan slot m.chan).head ∧
    (∀ c, c < 4 → c ≠ m.chan → t.chan slot c = k.chan slot c)

/-- R88, R303 to R305, R153: RALLOC, RFREE and GIVE complete when their registers are present and nothing holds the region back: RALLOC
writes the index and base of a fresh zeroed region of the actor, or why there is none; RFREE makes the entry invalid and its granules
zero, and stops the MDRAINs of other actors into it, once no copy, feed, tile command or MDRAIN of its own names it; GIVE takes the region from its owner and sends a parcel that describes it, unless an older CLD.ACQ of the firing holds it. An index that is no entry of the actor traps REGION_DENY
0x01, a region of another kind or bound to a stream register 0x04, and one that was given away 0x02 in GIVE; RFREE of a tombstone frees the entry. -/
def Obligations.RegionInstructions : Prop :=
  ∀ (d a b : Reg) (c : BitVec 2) (s : State), s.th.hereXs [a, b, d] = true →
    let unheld : Prop := s.me.acquiring s.th.fid = false
    let v := (X s a).toNat
    let size := v % 512
    let ok : Prop := v < 2 ^ 21 ∧ 1 ≤ size ∧ size ≤ 368 ∧ (v / 512 % 8 = 0 ∨ v / 512 % 8 = 6) ∧
      (v.testBit 14 = true ↔ v / 2 ^ 15 % 64 ≠ 0)
    let fail : Nat → W64 := fun n => BitVec.ofNat 64 (2 ^ 63 + n * 2 ^ 40)
    let i := (X s b).toNat % 256
    let ia := v % 256
    let e := s.me.region i
    let ea := s.me.region ia
    let aims : Drain → Prop := fun g => g.dst = s.self.name ∧ g.name ≠ s.self.name ∧ g.tridx = ia
    let stalls : Answer := .next (s.onTh fun t => { t with stalled := true })
    let zero : State → RegEntry → Prop := fun t g => ∀ x, g.base * 1024 ≤ x → x < (g.base + g.size) * 1024 → t.me.mem.read x = 0
    (¬ok → exec (.ralloc d a) s = .next (wroteX s d (fail 3))) ∧
    (ok → s.me.freeEntry = none → exec (.ralloc d a) s = .next (wroteX s d (fail 1))) ∧
    (ok → ∀ n, s.me.freeEntry = some n → s.me.findRun size = none → exec (.ralloc d a) s = .next (wroteX s d (fail 2))) ∧
    (ok → ∀ n p, s.me.freeEntry = some n → s.me.findRun size = some p → ∃ t, exec (.ralloc d a) s = .next t ∧
      t.me.regions.get {} n = ({ valid := true, base := p, size := size, owner := s.th.slot, kind := v / 512 % 8, rd := v.testBit 12,
                                 wr := v.testBit 13, skew := v.testBit 14, pitch := v / 2 ^ 15 % 64, decl := 15
                                 born := s.me.next } : RegEntry) ∧
      zero t (t.me.regions.get {} n) ∧ (∀ r, X t r = if r = 0 then 0 else if r = d then BitVec.ofNat 64 (n * 2 ^ 32 + p * 1024) else X s r) ∧
      t.th.pc = s.th.pc + 4 ∧ (∀ j, j ≠ n → t.me.regions.get {} j = s.me.regions.get {} j) ∧
      (∀ x, ¬(p * 1024 ≤ x ∧ x < (p + size) * 1024) → t.me.mem.read x = s.me.mem.read x)) ∧
    (248 ≤ ia ∨ ea.valid = false ∨ ea.owner ≠ s.th.slot → exec (.rfree a) s = s.trap 0x13 1 ia) ∧
    (ia < 248 → ea.valid = true → ea.owner = s.th.slot → ea.tomb = false → ea.kind = 0 ∨ ea.kind = 6 → s.th.bindsRegion ia = false →
      s.me.queuedNames s.th.slot ia = false → s.activeNames s.cur s.th.slot ia = false → s.me.tileNames s.th.slot ia = false →
      s.drainsInto s.cur s.th.slot ia = false →
      ∃ t, exec (.rfree a) s = .next t ∧ t.me.regions.get {} ia = {} ∧ zero t ea ∧ t.th.pc = s.th.pc + 4 ∧ (∀ r, X t r = X s r) ∧
        (∀ n p g, n < s.serial → s.packet n = some p → p.pay = .drain g → aims g → t.packet n = none) ∧
        ((∀ p ∈ s.net, ∀ g, p.2.pay = .drain g → ¬aims g) →
          ∀ x, ¬(ea.base * 1024 ≤ x ∧ x < (ea.base + ea.size) * 1024) → t.me.mem.read x = s.me.mem.read x)) ∧
    (ia < 248 → ea.valid = true → ea.owner = s.th.slot → ea.tomb = false → (¬(ea.kind = 0 ∨ ea.kind = 6) ∨ s.th.bindsRegion ia = true) →
      exec (.rfree a) s = s.trap 0x13 4 ia) ∧
    (ia < 248 → ea.valid = true → ea.owner = s.th.slot → ea.tomb = false → ea.kind = 0 ∨ ea.kind = 6 → s.th.bindsRegion ia = false →
      (s.me.queuedNames s.th.slot ia = true ∨ s.activeNames s.cur s.th.slot ia = true ∨ s.me.tileNames s.th.slot ia = true ∨
        s.drainsInto s.cur s.th.slot ia = true) → exec (.rfree a) s = stalls) ∧
    (ia < 248 → ea.valid = true → ea.owner = s.th.slot → ea.tomb = true → (ea.pend = true → exec (.rfree a) s = stalls) ∧
      (ea.pend = false → ∃ t, exec (.rfree a) s = .next t ∧ t.me.regions.get {} ia = {} ∧ t.me.mem = s.me.mem ∧ t.th.pc = s.th.pc + 4)) ∧
    (unheld → i < 248 → e.valid = true → e.owner = s.th.slot → e.tomb = false → (¬(e.kind = 0 ∨ e.kind = 6) ∨ s.th.bindsRegion i = true) →
      exec (.give d a b c) s = s.trap 0x13 4 i) ∧
    (unheld → i < 248 → e.valid = true → e.owner = s.th.slot → e.tomb = false → e.kind = 0 ∨ e.kind = 6 → s.th.bindsRegion i = false →
      (s.activeNames s.cur s.th.slot i = true ∨ (s.isHere (X s a) = false ∧ 16 ≤ s.me.fifo.length)) → exec (.give d a b c) s = stalls) ∧
    (unheld → 248 ≤ i ∨ e.valid = false ∨ e.owner ≠ s.th.slot → exec (.give d a b c) s = s.trap 0x13 1 i) ∧
    (unheld → i < 248 → e.valid = true → e.owner = s.th.slot → e.tomb = true → exec (.give d a b c) s = s.trap 0x13 2 i) ∧
    (unheld → i < 248 → e.valid = true → e.owner = s.th.slot → e.tomb = false → e.kind = 0 ∨ e.kind = 6 → s.th.bindsRegion i = false →
      s.activeNames s.cur s.th.slot i = false → s.isHere (X s a) = true ∨ s.me.fifo.length < 16 →
      ∃ t g, exec (.give d a b c) s = .next t ∧ t.packet s.serial = some (posted s (.parcel g)) ∧ g.giver = s.self.name ∧ g.dst = X s a ∧ g.tag = X s d ∧ g.chan = c.toNat ∧ g.base = e.base ∧
        g.size = e.size ∧ g.kind = e.kind ∧ g.sameCore = s.isHere (X s a) ∧ (t.me.region i).tomb = true ∧
        ((t.me.region i).owner = if s.isHere (X s a) then 64 else s.th.slot) ∧ t.th.pc = s.th.pc + 4 ∧ (∀ r, X t r = X s r) ∧
        t.me.mem = s.me.mem)

/-- R41, R158, R306 to R308, R314: SPAWN, LINK, UNLINK, MONITOR, DEMON, TRAPEX, SUPSET and SUPDEL complete when their registers are present, with
the results and the entries that their rules give. The order of two refusals of one instruction is the model's reading (log 79). -/
def Obligations.TieInstructions : Prop :=
  ∀ (d a : Reg) (s : State), s.th.hereXs [a, d] = true →
    let w := (X s a).toNat % 2 ^ 48
    let peer := X s a
    let own : Nat := s.self.name.toNat / 2 ^ 48
    let ws := s.widths s.self.name
    let tied : Bool := s.me.links.any fun p => p.2.kind == 1 && p.2.slot == s.th.slot && p.2.peer == peer
    let n := (X s a).toNat % 16
    let r := RuleDecl.ofWords (s.th.m[0]).toNat (s.th.m[1]).toNat (s.th.m[2]).toNat
    let flock := if r.flock = 0 then own else r.flock
    let mine : Prop := r.flock = 0 ∨ (s.flock r.flock).map (·.domain) = some s.self.domain
    (¬(w < 2 ^ ws.sum ∧ w ≠ 2 ^ 48 - 1) → exec (.spawn d a) s = .next (wroteX s d 2)) ∧
    (w < 2 ^ ws.sum → w ≠ 2 ^ 48 - 1 → 32 ≤ s.me.spawns.length → exec (.spawn d a) s = .next (wroteX s d 1)) ∧
    (w < 2 ^ ws.sum → w ≠ 2 ^ 48 - 1 → s.me.spawns.length < 32 → ∃ e : Spawn,
      exec (.spawn d a) s = .next (wroteX (s.onMe fun k => { k with spawns := k.spawns ++ [e], next := k.next + 1 }) d 0) ∧
      e.name = BitVec.ofNat 64 (own * 2 ^ 48 + w) ∧ e.msg = s.th.m ∧ e.sender = s.self.name ∧ e.sinc = s.self.incarn ∧ e.rst = false ∧
      e.filled = false ∧ e.supv = ((s.dirEntry s.self.name).map (·.supv)).getD 0) ∧
    (peer = s.self.name ∨ tied = true → exec (.link a) s = .next (wentOn s)) ∧
    (peer ≠ s.self.name → tied = false → s.me.freeLink = none → ∃ t, exec (.link a) s = .next t ∧ t.me.links = s.me.links ∧
      t.th.pc = s.th.pc + 4 ∧ ∃ g, t.packet s.serial = some g ∧ ∃ x, g.pay = .signal x ∧ x.dst = s.self.name ∧ x.kind = 4 ∧
        x.reason = 0x32 ∧ x.subject = peer ∧ x.detail = 8) ∧
    (peer ≠ s.self.name → tied = false → ∀ j, s.me.freeLink = some j → (s.reach s.self.domain false peer).lives = true →
      ∃ t, exec (.link a) s = .next t ∧ t.th.pc = s.th.pc + 4 ∧ t.me.links = s.me.links.put j
          { kind := 1, slot := s.th.slot, ref := 0, peer := peer, pinc := s.liveInc peer } ∧
        ∃ g, t.packet s.serial = some g ∧ ∃ q, g.pay = .linkReq q ∧ q.op = .link ∧ q.peer = peer ∧ q.asker = s.self.name) ∧
    (tied = true → ∃ t, exec (.unlink a) s = .next t ∧ t.th.pc = s.th.pc + 4 ∧
      (∀ p ∈ t.me.links, ¬(p.2.kind = 1 ∧ p.2.slot = s.th.slot ∧ p.2.peer = peer)) ∧
      ∃ g, t.packet s.serial = some g ∧ ∃ q, g.pay = .linkReq q ∧ q.op = .unlink ∧ q.peer = peer) ∧
    (tied = false → exec (.unlink a) s = .next (wentOn s)) ∧
    (s.me.freeLink = none → exec (.monitor d a) s = .next (wroteX s d 0)) ∧
    (∀ j, s.me.freeLink = some j → (s.reach s.self.domain false peer).lives = true → ∃ t ref,
      exec (.monitor d a) s = .next t ∧ ref = BitVec.ofNat 16 (s.me.newRef s.th.slot 256 s.self.lastRef.toNat) ∧ t.self.lastRef = ref ∧
      (d ≠ 0 → X t d = ref.zeroExtend 64) ∧ t.th.pc = s.th.pc + 4 ∧
      t.me.links = s.me.links.put j { kind := 2, slot := s.th.slot, ref := ref, peer := peer, pinc := s.liveInc peer }) ∧
    (∀ p, s.me.links.find? (fun p => p.2.kind == 2 && p.2.slot == s.th.slot && p.2.ref == (X s a).setWidth 16) = some p →
      ∃ t, exec (.demon a) s = .next t ∧ t.th.pc = s.th.pc + 4 ∧
        (∀ e ∈ t.me.links, ¬(e.2.kind = 2 ∧ e.2.slot = s.th.slot ∧ e.2.ref = (X s a).setWidth 16)) ∧
        ∃ g, t.packet s.serial = some g ∧ ∃ q, g.pay = .linkReq q ∧ q.op = .demonitor ∧ q.peer = p.2.peer) ∧
    exec (.trapex d a) s = .next (wroteX (s.onSelf fun x => { x with trapexit := (X s a).getLsbD 0 }) d (if s.self.trapexit then 1 else 0)) ∧
    (¬(r.strat < 3 ∧ r.mode < 3 ∧ r.lo ≤ r.hi ∧ mine) → exec (.supset d a) s = .next (wroteX s d 2)) ∧
    (r.strat < 3 → r.mode < 3 → r.lo ≤ r.hi → mine → ∀ j, (s.me.ruleAt s.th.slot n).or s.me.freeSups.head? = some j →
      let e : SupEntry := { slot := s.th.slot, rule := n, flock := flock, lo := r.lo, hi := r.hi, mode := r.mode, strat := r.strat,
                            maxr := r.maxr, window := r.window, stamps := [] }
      exec (.supset d a) s = .next (wroteX (s.onMe fun k => { k with sups := k.sups.put j e }) d 0)) ∧
    (s.me.ruleAt s.th.slot n = none → exec (.supdel d a) s = .next (wroteX s d 1)) ∧
    (∀ j, s.me.ruleAt s.th.slot n = some j → exec (.supdel d a) s =
      .next (wroteX (s.onMe fun k => { k with sups := k.sups.del j }) d 0))

/-- R39, R49, R171, R297, R309 to R311: KILL and PKILL of another actor put a Kill under way, of the issuer end it; EXIT ends the issuer
with the reason it gives; RETIRE ends the firing and leaves its thread set empty and its actor idle, unless EPERR records an error, which traps
DATA_ERROR; YIELD stops the firing where another
handler could run on a full core, and else only goes on. PKILL traps PRIV 0x01 without privilege, and reasons that R171 does not assign
trap ILLEGAL 0x03. -/
def Sys2Proof.Claims.EndInstructions : Prop :=
  ∀ (a b : Reg) (s : State), s.th.hereXs [a, b] = true →
    let ra := (X s a).toNat % 256
    let rb := (X s b).toNat % 256
    let died : Nat → W64 → State → Prop := fun reason det t => t.self.state = .dying ∧
      t.self.dying = some { reason := reason, sub := 0, detail := det } ∧ t.self.popcnt = 0 ∧ (∀ j, j ≠ s.th.slot → t.me.actor j = s.me.actor j)
    let sent : Bool → Nat → State → Prop := fun every reason t => t.th.pc = s.th.pc + 4 ∧ t.me.mem = s.me.mem ∧
      t.packet s.serial = some (posted s (.kill (X s a) s.self.name s.self.incarn s.self.domain every reason (s.cycle (s.cur / 65536)) false))
    let noTraps : Prop := s.th.eperr.getLsbD 63 = false
    (X s a ≠ s.self.name → ∃ t, exec (.kill a) s = .next t ∧ sent false 2 t) ∧
    (X s a = s.self.name → s.self.state = .firing → ∃ t, exec (.kill a) s = .next t ∧ died 2 0 t) ∧
    (s.th.status.getLsbD 1 = false → exec (.pkill a b) s = s.trap 0x11 1) ∧
    (s.th.status.getLsbD 1 = true → rb = 2 ∨ rb = 0x40 → X s a ≠ s.self.name → ∃ t, exec (.pkill a b) s = .next t ∧ sent true rb t) ∧
    (s.th.status.getLsbD 1 = true → rb = 2 ∨ rb = 0x40 → X s a = s.self.name → s.self.state = .firing →
      ∃ t, exec (.pkill a b) s = .next t ∧ died rb 0 t) ∧
    (s.th.status.getLsbD 1 = true → ¬(rb = 2 ∨ rb = 0x40) → exec (.pkill a b) s = s.trap 0x10 3) ∧
    (reasonAssigned ra = true → ra ≠ 1 → s.self.state = .firing → ∃ t, exec (.exit a b) s = .next t ∧ died ra (X s b) t) ∧
    (reasonAssigned ra = false ∨ ra = 1 → exec (.exit a b) s = s.trap 0x10 3) ∧
    (0 < s.self.cl → exec .retire s = .next (s.onTh fun t => { t with stalled := true })) ∧
    (s.self.cl = 0 → s.th.eperr.getLsbD 63 = true → exec .retire s = s.trap 0x20 (s.th.eperr.toNat / 2 ^ 59 % 8) 0
      (s.th.eperr &&& 0x3FFFFFFFFFFFFF) (decide (s.th.eperr.toNat / 2 ^ 59 % 8 ≠ 0))) ∧
    (s.self.cl = 0 → noTraps → ∃ t, exec .retire s = .next t ∧ t.me.thread s.me.tset = {} ∧ (t.me.actor s.th.slot).state = .idle ∧
      (t.me.actor s.th.slot).popcnt = 0 ∧ (t.me.actor s.th.slot).heldFault = s.th.deferred ∧
      (∀ j, j ≠ s.me.tset → t.me.thread j = s.me.thread j) ∧ (∀ c, c ≠ s.cur → t.core c = s.core c) ∧ t.gmem = s.gmem) ∧
    (s.me.idleSet = none → s.me.firings < 8 → s.me.othersReady (s.cceil s.cur) s.th.slot = true → exec .yield s =
      .next ((s.onMe fun k => { k with holds := k.holds ++ [.yielded s.th.slot] }).onTh fun t => ({ t with stopping := true } : Thread).nextPc)) ∧
    (s.me.idleSet ≠ none ∨ 8 ≤ s.me.firings ∨ s.me.othersReady (s.cceil s.cur) s.th.slot = false → exec .yield s = .next (wentOn s))

/-- R45 to R48, R77, R167, R310: RETS commits where the mask, the image and the room permit it: the firing has ended, its slot holds the
successor under the same name, ready to be selected with STATUS.SUCC, with no timer, no handler mask and no item popped. A mask that step 1 of
R167 refuses traps ILLEGAL 0x03, an address outside class 2 PLB_DENY 0x01, an address of no image ILLEGAL 0x03 with GAF, a recorded data error
DATA_ERROR. Without the name kept, the successor takes the new name with incarnation 0 and the old name is free; a new work index that no member can
have, or a name that is live or pending, traps ILLEGAL 0x03, and an exiting one is waited for. When cut copies end at RETS is the model's reading
(log 75). -/
def Sys2Proof.Claims.Successions : Prop :=
  ∀ (a : Reg) (s : State), s.th.hereXs [a] = true →
    let ga := (X s a).toNat
    let kp := Keep.ofMsg s.th.m
    let ok := s.me.maskOk s.th.slot s.th.m
    let ws := s.widths s.self.name
    let new : W64 := BitVec.ofNat 64 (s.self.name.toNat / 2 ^ 48 * 2 ^ 48 + kp.newWi)
    let cut := (s.cutShort s.th.slot kp).letGoAll s.cur s.th.fid s.th.st
    (ok = false → exec (.rets a) s = s.trap 0x10 3) ∧
    (ok = true → ¬(ga < 2 ^ 56 ∧ gaClass ga = 2) → exec (.rets a) s = s.trap 0x12 1 0 (X s a) true) ∧
    (ok = true → ga < 2 ^ 56 → gaClass ga = 2 → s.image ga (s.self.name.toNat / 2 ^ 48) = none →
      exec (.rets a) s = s.trap 0x10 3 0 (X s a) true) ∧
    (∀ img, ok = true → ga < 2 ^ 56 → gaClass ga = 2 → s.image ga (s.self.name.toNat / 2 ^ 48) = some img →
      (s.th.eperr.getLsbD 63 = true → exec (.rets a) s = s.trap 0x20 (s.th.eperr.toNat / 2 ^ 59 % 8) 0
        (s.th.eperr &&& 0x3FFFFFFFFFFFFF) (decide (s.th.eperr.toNat / 2 ^ 59 % 8 ≠ 0)))) ∧
    (∀ img, ok = true → ga < 2 ^ 56 → gaClass ga = 2 → s.image ga (s.self.name.toNat / 2 ^ 48) = some img →
      s.th.eperr.getLsbD 63 = false →
      (∀ sub i, s.self.badAcc kp img = some (sub, i) → exec (.rets a) s = s.trap 0x17 sub i) ∧
      (∀ r, s.self.badAcc kp img = none → s.self.badRing kp img = some r → exec (.rets a) s = s.trap 0x17 4 r) ∧
      (s.self.badAcc kp img = none → s.self.badRing kp img = none →
        (∀ w, (cut.me.endFiring s.me.tset (s.now s.cur) .idle).makeRoom s.th.slot kp img = .error w →
          exec (.rets a) s = s.trap 0x17 1 w) ∧
        (∀ l k, (cut.me.endFiring s.me.tset (s.now s.cur) .idle).makeRoom s.th.slot kp img = .ok (l, k) → kp.name = true →
          ∃ t, exec (.rets a) s = .next t ∧ t.me.thread s.me.tset = {} ∧
            (let n := t.me.actor s.th.slot
             n.name = (k.actor s.th.slot).name ∧ (n.state = .idle ∨ n.state = .gated) ∧ n.succ = true ∧ n.timer = 0 ∧ n.hmask = 0 ∧
               n.popcnt = 0 ∧ n.inherit.isSome = true)) ∧
        (∀ l k, (cut.me.endFiring s.me.tset (s.now s.cur) .idle).makeRoom s.th.slot kp img = .ok (l, k) → kp.name = false →
          (¬(kp.newWi < 2 ^ ws.sum ∧ kp.newWi ≠ 2 ^ 48 - 1) → exec (.rets a) s = s.trap 0x10 3) ∧
          (kp.newWi < 2 ^ ws.sum → kp.newWi ≠ 2 ^ 48 - 1 → ∀ e, s.dirEntry new = some e →
            exec (.rets a) s = if e.state = 2 then .next (s.onTh fun t => { t with stalled := true }) else s.trap 0x10 3) ∧
          (kp.newWi < 2 ^ ws.sum → kp.newWi ≠ 2 ^ 48 - 1 → s.dirEntry new = none → ∃ t, exec (.rets a) s = .next t ∧
            (t.actor s.cur s.th.slot).name = new ∧ (t.actor s.cur s.th.slot).incarn = 0 ∧ (t.actor s.cur s.th.slot).succ = true ∧
            (t.actor s.cur s.th.slot).trapexit = false ∧ (∃ e, t.dirEntry new = some e ∧ e.state = 1 ∧ e.inc = 0) ∧
            ((k.actor s.th.slot).name ≠ new → t.dirEntry (k.actor s.th.slot).name = none)))))

/-- R39, R45 to R49, R77, R167, R171, R297, R309 to R311: the instructions that end a firing or an actor, and succession. -/
def Obligations.EndsAndSuccessions : Prop := Claims.EndInstructions ∧ Claims.Successions

/-- R321, R329 to R334: each tile command at the head of a core's matrix queue completes: it leaves the queue, MT falls (for MDRAIN when
its closing message has been placed), and it has its row's effect on the accumulators, rings, codebook slots or memory of its actor. -/
def Sys2Proof.Claims.TileCommands : Prop :=
  ∀ (core : Nat) (c : TileCmd) (rest : List TileCmd) (s : State), (s.core core).mq = c :: rest → (s.core core).bad = [] →
    let k := s.core core
    let n := k.actor c.slot
    let i := cmdAcc c.cmd
    let j := cmdSrc c.cmd
    let g := cmdRing c.cmd
    let e := k.regions.get {} c.ridx
    let at_ : Nat → W32 := fun x => n.acc.get 0 x
    let done : Nat → Instr → (Core → Prop) → Prop := fun opc ev f => cmdOpc c.cmd = opc →
      ∃ t, exec ev s = .next t ∧ (t.core core).mq = rest ∧ ((t.core core).actor c.slot).mt = (if opc = 0x0B then n.mt else n.mt - 1) ∧
        t.gmem = s.gmem ∧ (∀ x, x ≠ core → t.core x = s.core x) ∧ f (t.core core)
    let sets : (Nat → Nat → Nat) → Core → Prop := fun f q =>
      (∀ x y, x < 16 → y < 16 → (q.actor c.slot).accAt i x y = f x y % 2 ^ 32) ∧
        (∀ m, ¬(256 * i ≤ m ∧ m < 256 * i + 256) → (q.actor c.slot).acc.get 0 m = at_ m) ∧ q.mem = k.mem
    let kept : Core → Prop := fun q => (q.actor c.slot).acc = n.acc ∧ q.mem = k.mem
    (s.draining n.name = false → done 1 (.msync core) kept) ∧
    done 2 (.mclr core) (fun q => sets (fun _ _ => 0) q ∧ (q.actor c.slot).accUnchk.getLsbD i = false) ∧
    (e.liveOf c.slot = true → e.born = c.born → done 3 (.mloadcb core) fun q =>
      let cb : V256 := BitVec.ofNat 256 (((List.range 32).map fun b =>
        (k.mem.read (e.place (cmdAddr c.cmd + b))).toNat * 256 ^ b).sum)
      kept q ∧ (q.actor c.slot).cbs[i]? = some (Codebook.load cb)) ∧
    (cmdRop c.cmd = 0 → (n.ring g).cnt = 0 → (n.ring g).feed = 0 → (n.ring g).qpop = 0 → done 4 (.mringConfigure core) fun q =>
      kept q ∧ (q.actor c.slot).ring g = { n.ring g with rows := cmdDw c.cmd 1 % 32, rowb := cmdDw c.cmd 1 / 32 % 16,
                                                         depth := cmdDw c.cmd 1 / 512 % 128, head := 0, tail := 0 }) ∧
    (cmdRop c.cmd = 1 → (n.ring g).cnt < (n.ring g).depth → (n.ring g).feed = 0 → done 4 (.mringAdvance core) fun q =>
      kept q ∧ (q.actor c.slot).ring g = { n.ring g with tail := ((n.ring g).tail + 1) % (n.ring g).depth, cnt := (n.ring g).cnt + 1 }) ∧
    (cmdMode c.cmd = 0 → done 5 (.mchkCompare core) fun q => kept q ∧ (q.actor c.slot).chkoff = false) ∧
    (cmdMode c.cmd = 1 → done 5 (.mchkNoCompare core) fun q => kept q ∧ (q.actor c.slot).chkoff = true) ∧
    done 6 (.mmove core) (sets fun x y => n.accAt j x y) ∧
    done 8 (.mscale core) (sets fun x y =>
      (FFmt.fp32.mulNum rneIeee (FFmt.fp32.read (n.accAt i x y)) (FFmt.fp32.read (cmdDw c.cmd 1 % 2 ^ 32))).1) ∧
    done 9 (.maddacc core) (sets fun x y => if n.accInt i then n.accAt i x y + n.accAt j x y
      else (FFmt.fp32.addNum rneIeee (FFmt.fp32.read (n.accAt i x y)) (FFmt.fp32.read (n.accAt j x y))).1) ∧
    (e.liveOf c.slot = true → e.born = c.born → done 10 (.mstore core) fun q => (q.actor c.slot).acc = n.acc ∧
      q.mem = (List.range (cmdM c.cmd)).foldl (fun (m : Memory) x => m.writeMap e.place (cmdAddr c.cmd + x * cmdPitch c.cmd)
        ((List.range (cmdN c.cmd)).flatMap fun y => toBytes (fmtBytes (cmdFmt c.cmd)) (convOut (cmdFmt c.cmd) (n.accAt i x y)))) k.mem) ∧
    (e.liveOf c.slot = true → e.born = c.born → done 12 (.mloadacc core) (sets fun x y =>
      if x < cmdM c.cmd ∧ y < cmdN c.cmd then ((List.range 4).map fun b =>
        (k.mem.read (e.place (cmdAddr c.cmd + x * cmdPitch c.cmd + 4 * y + b))).toNat * 256 ^ b).sum else n.accAt i x y)) ∧
    (cmdOpc c.cmd = 11 → ∃ t, exec (.mdrain core) s = .next t ∧ (t.core core).mq = rest ∧ kept (t.core core) ∧
      ((t.core core).actor c.slot).mt = n.mt ∧ t.packet s.serial = some { src := core / 65536, born := s.cycle (core / 65536),
                                                                          pay := .drain (k.drainOf c core (s.now core)) })

/-- R188, R320, R331, R333: a command on a local range whose region its actor no longer holds, its index given to another
since or not, and a ring command that the ring's state does not
permit, have no effect: the command leaves the queue and its fault, TILE_CMD 0x06 or 0x08 with the region or ring in DETAIL, is deferred to its
actor. What a gateway answers an MDRAIN is the model's reading (log 80). -/
def Sys2Proof.Claims.TileFaults : Prop :=
  ∀ (core : Nat) (c : TileCmd) (rest : List TileCmd) (s : State), (s.core core).mq = c :: rest →
    let k := s.core core
    let g := (k.actor c.slot).ring (cmdRing c.cmd)
    let faulted : Nat → Nat → State := fun sub x => s.setCore core (k.faultCmd c sub x)
    ((k.regions.get {} c.ridx).liveOf c.slot = false ∨ (k.regions.get {} c.ridx).born ≠ c.born →
      ∀ p ∈ [((.mloadcb core : Instr), 3), (.mstore core, 10), (.mloadacc core, 12)], cmdOpc c.cmd = p.2 →
        exec p.1 s = .next (faulted 6 c.ridx)) ∧
    (cmdOpc c.cmd = 4 → cmdRop c.cmd = 0 → g.cnt ≠ 0 ∨ g.feed ≠ 0 ∨ g.qpop ≠ 0 →
      exec (.mringConfigure core) s = .next (faulted 8 (cmdRing c.cmd))) ∧
    (cmdOpc c.cmd = 4 → cmdRop c.cmd = 1 → g.depth ≤ g.cnt ∨ g.feed ≠ 0 →
      exec (.mringAdvance core) s = .next (faulted 8 (cmdRing c.cmd))) ∧
    (∀ sub x, (k.actor c.slot).state = .firing → (k.actor c.slot).tsetf < 4 → (k.thread (Fin.ofNat 4 (k.actor c.slot).tsetf)).deferred = none →
      let t := faulted sub x
      ((t.core core).thread (Fin.ofNat 4 (k.actor c.slot).tsetf)).deferred = some
        { cause := BitVec.ofNat 64 (2 ^ 63 + 0x18 * 2 ^ 40 + sub * 2 ^ 32 + (cmdOpc c.cmd + x % 256 * 256)), va := 0, pc := c.pc,
          age := c.order } ∧ (t.core core).mem = k.mem ∧ ∀ m ∈ (t.core core).mq, m.slot ≠ c.slot)

/-- R188, R320, R321, R329 to R334: tile commands other than multiply-accumulate ones, and those that fault. -/
def Obligations.TileCommandsAndFaults : Prop := Claims.TileCommands ∧ Claims.TileFaults

/-- R323 to R328: each multiply-accumulate command at the head of a queue completes, with no bank word in error: the command leaves the queue
and a ring named for it pops one tile. Where it is not compared, or its checksums pass, every element of the accumulator within M and N takes
the dot product of its rows, wrapped for integers and rounded group by group for floats; where it is compared and they do not pass, or the
matrix unit goes wrong in both runs, the accumulator keeps its value. For s8 operands, the elements are the signed bytes at their places in
the tiles. How many runs the matrix unit gets wrong is an argument (log 20). -/
def Sys2Proof.Claims.MultiplyAccumulates : Prop :=
  ∀ (core : Nat) (c : TileCmd) (rest : List TileCmd) (s : State), (s.core core).mq = c :: rest → (s.core core).bad = [] →
    let k := s.core core
    let n := k.actor c.slot
    let i := cmdAcc c.cmd
    (∀ (bad : Nat), ∀ ev ∈ [((0x10 : Nat), (.mmaBf16 core bad : Instr)), (0x11, .mmaFp16 core bad), (0x20, .mmaE4e4 core bad), (0x21, .mmaE4e5 core bad),
        (0x22, .mmaE5e4 core bad), (0x23, .mmaE5e5 core bad), (0x30, .mmaC4c4 core bad), (0x31, .mmaC4e4 core bad), (0x32, .mmaE4c4 core bad),
        (0x38, .mmaS8s8 core bad), (0x39, .mmaN8s8 core bad)], cmdOpc c.cmd = ev.1 →
      ∀ p xs ys, mmaOp ev.1 = some p → k.mmaOperands c p = .ok (xs, ys) →
        let compared := mmaCompared n c.cmd p xs ys (mmaResult n c.cmd p xs ys)
        ∃ t, exec ev.2 s = .next t ∧ (t.core core).mq = rest ∧ ((t.core core).actor c.slot).mt = n.mt - 1 ∧
          (compared = true → (mmaPasses n c.cmd p xs ys (mmaResult n c.cmd p xs ys) = false ∨ 1 < bad) →
            ((t.core core).actor c.slot).acc = n.acc) ∧
          ((compared = true → mmaPasses n c.cmd p xs ys (mmaResult n c.cmd p xs ys) = true ∧ bad ≤ 1) →
            ∀ x y (hx : x < xs.length) (hy : y < ys.length), x < 16 → y < 16 → ((t.core core).actor c.slot).accAt i x y =
            (if 0x38 ≤ ev.1 then dotInt (cmdOvw c.cmd) (n.accAt i x y) xs[x] ys[y]
              else dotFloat p.group (cmdOvw c.cmd) (n.accAt i x y) xs[x] ys[y]) % 2 ^ 32) ∧
          xs.length = cmdM c.cmd ∧ ys.length = cmdN c.cmd ∧
          (∀ r < 4, ((t.core core).actor c.slot).ring r = if r ∈ cmdPops c.cmd then
            { n.ring r with head := ((n.ring r).head + 1) % (n.ring r).depth, cnt := (n.ring r).cnt - 1, qpop := (n.ring r).qpop - 1 }
            else n.ring r) ∧
          (n.state ≠ .preempted → (t.core core).mem = k.mem) ∧ t.gmem = s.gmem ∧ ∀ x, x ≠ core → t.core x = s.core x) ∧
    (cmdOpc c.cmd = 0x38 → (cmdDw c.cmd 0).testBit 11 = false → (cmdDw c.cmd 0).testBit 12 = false →
      let byte : Ring → Nat → Nat → Nat → Int := fun g h row z =>
        ((k.mem.read ((k.regions.get {} g.ridx).place ((k.regions.get {} g.ridx).base * 1024 + g.head * (g.rows * g.rowb * 32) +
          (shOffset h + row * shRstr h g + z * shEstr h)))).toInt)
      ∃ t, exec (.mmaS8s8 core 0) s = .next t ∧ ∀ x y, x < cmdM c.cmd → y < cmdN c.cmd →
        (((t.core core).actor c.slot).acc.get 0 (256 * i + 16 * x + y)) = BitVec.ofInt 32
          ((if cmdOvw c.cmd then 0 else (n.acc.get 0 (256 * i + 16 * x + y)).toInt) + ((List.range (cmdK c.cmd)).map fun z =>
            byte (n.ring (cmdRingA c.cmd)) (cmdShape c.cmd false) x z * byte (n.ring (cmdRingB c.cmd)) (cmdShape c.cmd true) y z).sum))

/-- R325: the sum of a dot group is exact and rounded once: with every product finite, the FP32 pattern is that of the exact sum rounded to
nearest even, or a zero that is negative only when every product is. The number of runs that fail is an argument (logs 9 and 20). -/
def Sys2Proof.Claims.GroupSums : Prop :=
  ∀ (ps : List (Bool × Nat × Int)),
    let val : Bool × Nat × Int → ℚ := fun p => (if p.1 then -1 else 1) * (p.2.1 : ℚ) * 2 ^ p.2.2
    let r := groupSum (ps.map fun p => some (Machine.Num.fin p.1 p.2.1 p.2.2))
    ((ps.map val).sum = 0 → r = if ps.all fun p => p.1 then 0x80000000 else 0) ∧
    ((ps.map val).sum ≠ 0 → (∀ p ∈ ps, p.2.2 ≤ 10 ^ 6) → ∃ (neg : Bool) (m : Nat) (e : Int), val (neg, m, e) = (ps.map val).sum ∧
      r = (FFmt.fp32.round rneIeee neg m e).1)

/-- R323 to R328: multiply-accumulate commands, and the sums of their groups. -/
def Obligations.MultiplyAccumulateSums : Prop := Claims.MultiplyAccumulates ∧ Claims.GroupSums

/-- R34: the selection logic chooses an eligible handler, and no other eligible handler of the core comes before it in the order effective
priority, energy class, ready time, slot, handler; where some handler is eligible, it chooses one. -/
def Obligations.BestSelected : Prop :=
  (∀ (k : Core) (ceil j n : Nat) (a : Actor) (h : Handler), (j, a) ∈ k.slots → (k.actor j).handlers[n]? = some h →
    k.eligible ceil j n h = true → ∃ p, k.select ceil = some p) ∧
  ∀ (k : Core) (ceil : Nat) (p : Pick), k.select ceil = some p →
    (∃ h, (k.actor p.slot).handlers[p.handler]? = some h ∧ k.eligible ceil p.slot p.handler h = true ∧ p.eclass = h.eclass) ∧
    p.eprio = (k.actor p.slot).eprio ∧ p.ready = (k.actor p.slot).ready ∧
    ∀ j a n h, (j, a) ∈ k.slots → (k.actor j).handlers[n]? = some h → k.eligible ceil j n h = true →
      ¬([(k.actor j).eprio, h.eclass, (k.actor j).ready, j, n] < [p.eprio, p.eclass, p.ready, p.slot, p.handler])

/-- R35, R37, R40, R43, R47, R63, R67, R69, R70, R76, R382: the events of firings take place where their rules say so: a firing starts on an idle
thread set with its entry address, REQ, handler number and own name in x10 to x12, every other register zero and present and VLEN 32; waiting
lowers an effective priority number by one per 65,536 cycles; a watchdog at zero ends the actor with WATCHDOG; a timer whose deadline has come
places TIMER on c3 and is disarmed; a gate opens when every actor of the group has executed RETS and is shut until then; a deferred fault becomes the trap of its firing; a checker's
re-execution counts a recovery or ends the actor with CORE_FAULT; load levelling runs once in each cycle that is a multiple of 8,192, and a core whose
least-loaded neighbour has a load lower by two or more ships it the last of its waiting spawns: at most four, half the difference and the room there.
Whether a re-execution agrees is an argument (log 9). -/
def Obligations.FiringEvents : Prop :=
  ∀ (core slot : Nat) (i : Fin 4) (s : State),
    let k := s.core core
    let a := k.actor slot
    let u := k.thread i
    let now := s.cycle (core / 65536)
    let shut : Prop := ∃ p ∈ s.dir, s.gateMates p.2.name a.gateName = true ∧
      (p.2.state = 3 ∨ p.2.state = 1 ∧ ∃ m, s.liveActor p.2.name = some m ∧ (s.actor m.1 m.2).state ≠ .gated)
    (∀ p h, s.coreLive core = true → (s.pkg (core / 65536)).runs = true → k.firings < 8 → k.resumable = none → k.idleSet = some i →
      k.select (s.cceil core) = some p → (k.actor p.slot).handlers[p.handler]? = some h →
      ∃ t, exec (.firingStart core) s = .next t ∧
        let n := k.actor p.slot
        let v := (t.core core).thread i
        let m := (t.core core).actor p.slot
        v.busy = true ∧ v.slot = p.slot ∧ v.handler = p.handler ∧ v.pc = BitVec.ofNat 64 ((k.regions.get {} n.code).base * 1024 + h.entry) ∧
        v.inTrap = false ∧ v.isPriv = n.priv ∧ v.status.getLsbD 2 = n.mxdecl ∧ v.status.getLsbD 3 = n.succ ∧ v.vlen = 32 ∧
        v.sendleft = BitVec.ofNat 7 h.prod ∧ v.eperr = n.heldErr ∧ v.deferred = n.heldFault ∧
        v.wdogleft = BitVec.ofNat 32 (if n.wdog = 0 then 2 ^ 26 else n.wdog * 2 ^ 16) ∧
        v.readX 10 = h.req.zeroExtend 64 ∧ v.readX 11 = BitVec.ofNat 64 p.handler ∧ v.readX 12 = n.name ∧
        (n.inherit = none → (∀ r : Reg, r ≠ 10 → r ≠ 11 → r ≠ 12 → v.readX r = 0) ∧ ∀ r : Reg, v.readV r = 0 ∧ v.hereX r = true ∧ v.hereV r = true) ∧
        m.state = .firing ∧ m.tsetf = i.val ∧ m.popcnt = 0 ∧ m.fires = n.fires + 1 ∧ m.eprio = n.prio) ∧
    (a.state = .idle → a.runnable = true → 0 < a.eprio → a.agedAt + 65536 ≤ now → exec (.priorityAgeing core slot) s =
      .next (s.onActor core slot fun a => { a with eprio := a.eprio - 1, agedAt := a.agedAt + 65536 })) ∧
    (a.state = .preempted → k.held slot = false → 0 < a.eprio → a.agedAt + 65536 ≤ now → exec (.priorityAgeing core slot) s =
      .next (s.onActor core slot fun a => { a with eprio := a.eprio - 1, agedAt := a.agedAt + 65536 })) ∧
    (u.busy = true → u.wdogleft = 0 → u.slot = slot → a.state = .firing → a.tsetf = i.val → ∃ t, exec (.watchdogExpiry core i.val) s = .next t ∧
      (t.actor core slot).state = .dying ∧ (t.actor core slot).dying = some { reason := 0x22, sub := 0, detail := 0 } ∧
      ((t.core core).thread i).busy = false ∧ ∀ j, j ≠ slot → t.actor core j = s.actor core j) ∧
    (a.state.mortal = true → a.timer.getLsbD 63 = true → a.timer.toNat % 2 ^ 63 ≤ now → a.timerAt ≠ now →
      exec (.timerExpiry core slot) s =
        .next (s.onCore core fun k => (k.onActor slot fun a => { a with timer := a.timer &&& ~~~(1#64 <<< 63) }).placeSignal slot now
          { dst := a.name, inc := a.incarn, kind := 5, reason := 0x30, sub := 0, ref := 0, subject := a.name, origpkg := core / 65536
            origdie := coreDie core, sinc := a.incarn, detail := 0, stamp := BitVec.ofNat 64 now })) ∧
    ((a.state = .gated → ¬shut → ∃ t, exec (.gateOpen core slot) s = .next t ∧ (t.actor core slot).state = .idle ∧
        ∀ m ∈ s.gateWaiters a.gateName, (s.actor m.1 m.2).state = .gated → (t.actor m.1 m.2).state = .idle) ∧
      (a.state = .gated → shut → exec (.gateOpen core slot) s = .next s)) ∧
    (∀ d, u.busy = true → u.deferred = some d → exec (.deferredTrap core i.val) s =
      .next (s.onCore core fun k => (k.onThread i fun t => { t with deferred := none }).takeTrap i
        { reason := d.cause.toNat / 2 ^ 40 % 2 ^ 8, sub := d.cause.toNat / 2 ^ 32 % 2 ^ 8, detail := d.cause.setWidth 32, va := d.va
          gaf := d.cause.getLsbD 62, imp := true, pc := d.pc })) ∧
    (s.coreLive core = true → u.busy = true → u.stopping = false → (k.recovs.filter fun t => decide (now < t + 2 ^ 24)).length < 15 →
      ∃ t, exec (.checkerReexecution core i.val true) s = .next t ∧ (t.core core).slots = k.slots ∧ (t.core core).threads = k.threads ∧
        (t.core core).mem = k.mem ∧ (t.core core).recovs = now :: k.recovs.filter fun t => decide (now < t + 2 ^ 24)) ∧
    (s.coreLive core = true → u.busy = true → u.stopping = false → u.slot = slot → a.state = .firing → coreIsMem core = false → ∃ t,
      exec (.checkerReexecution core i.val false) s = .next t ∧ (t.core core).gone = true ∧ (t.actor core slot).state = .dying ∧
      (t.actor core slot).dying = some { reason := 0x21, sub := 0, detail := 0 }) ∧
    (∀ pkg, (s.pkg pkg).runs = true → (s.pkg pkg).cycle % 8192 = 0 → (s.pkg pkg).levelled ≠ (s.pkg pkg).cycle / 8192 →
      ∃ t, exec (.loadLevelling pkg) s = .next t ∧
        (t.pkg pkg).levelled = (s.pkg pkg).cycle / 8192 ∧ t.gmem = s.gmem ∧ t.net = s.net ∧ (∀ c, (t.core c).slots = (s.core c).slots) ∧
        ∀ c d, c / 65536 = pkg → coreIsMem c = false → s.coreLive c = true → d ∈ neighbours c → s.coreLive d = true →
          (∀ e ∈ neighbours c, e ≠ d → s.coreLive e = true → (s.core d).load < (s.core e).load) → (s.core d).load + 2 ≤ (s.core c).load →
          (∀ e, e ≠ c → (s.core e).shippable = []) →
          let l := (s.core c).shippable
          let n := Min.min (Min.min (Min.min 4 (((s.core c).load - (s.core d).load) / 2)) l.length) (32 - (s.core d).spawns.length)
          let out := l.drop (l.length - n)
          (t.core c).spawns = (s.core c).spawns.filter (fun e => !out.any (·.id == e.id)) ∧
            (t.core d).spawns.map (fun e => { e with id := 0 }) = ((s.core d).spawns ++ out).map fun e => { e with id := 0 })

/-- R75, R76, R182, R195 to R197: a pre-emption request that its source makes stands with the core and stops exactly the firings that it covers;
the save puts a stopped firing's context into a save area and frees its thread set, with the value of a stream read of the last cycle; withdrawing
removes one request, and leaves a power request for the classes above the new ceiling; and the resumption of a firing finds again the registers,
their presence, the program counter, the status, the counts and every other word that was saved; a register that is not present is saved as 0.
A firing that stands at a trap traps before it is saved (R73, R317). The model's readings: several requests of one source for one slot (log 14), the
value of a stream read that lands with the save (log 90), the firing whose last request is withdrawn before its save, which issues on (log 96), and
the save area, the lowest that is free (log 115). -/
def Obligations.Preemptions : Prop :=
  ∀ (core slot : Nat) (i : Fin 4) (src : HoldSource) (s : State),
    let k := s.core core
    let u := k.thread i
    let w := u.land 1
    (s.wantsHold core src = true → (src ∈ k.holds → holdRepeats src = true) → s.coreLive core = true →
      ∃ t, exec (.preemptionRequest core src) s = .next t ∧ (t.core core).holds = k.holds ++ [src] ∧ (t.core core).slots = k.slots ∧
        ∀ j, (((t.core core).thread j).busy = true → ((t.core core).thread j).stopping = (t.core core).held ((t.core core).thread j).slot) ∧
          ((t.core core).thread j).x = (k.thread j).x ∧ ((t.core core).thread j).pc = (k.thread j).pc) ∧
    (s.dropsHold core src = true → src ∈ k.holds → ∃ t, exec (.preemptionWithdraw core src) s = .next t ∧
      ((∀ c, src ≠ .power c) → (t.core core).holds = k.holds.erase src) ∧
      (∀ c, src = .power c → (t.core core).holds = k.holds.erase src ++
        (if s.cceil core < 3 ∧ .power (s.cceil core) ∉ k.holds.erase src then [.power (s.cceil core)] else [])) ∧
      ∀ j, ((t.core core).thread j).busy = true → ((t.core core).thread j).stopping = (t.core core).held ((t.core core).thread j).slot) ∧
    (∀ m, k.freeSave = some m → u.busy = true → u.stopping = true → k.trapsHere i = false → (∀ c ∈ k.mq, c.slot ≠ u.slot) →
      ∃ t, exec (.preemptionSave core i.val) s = .next t ∧ (t.core core).thread i = {} ∧ (t.actor core u.slot).state = .preempted ∧
        (t.actor core u.slot).save = m ∧ m < 8 ∧ (t.core core).mem.read64 (0x5C000 + 0x800 * m) = u.pc ∧
        (∀ r : Fin 32, 0 < r.val → (t.core core).mem.read64 (0x5C000 + 0x800 * m + 8 * r.val) = if w.xp.getLsbD r.val then w.x[r] else 0) ∧
        (t.core core).mem.read64 (0x5C000 + 0x800 * m + 0x578) = u.status ∧
        (t.core core).mem.read64 (0x5C000 + 0x800 * m + 0x570) = (k.actor u.slot).opcnt ∧
        (∀ x, ¬(0x5C000 + 0x800 * m ≤ x ∧ x < 0x5C800 + 0x800 * m) → (t.core core).mem.read x = k.mem.read x) ∧
        ∀ j, j ≠ i → (t.core core).thread j = k.thread j) ∧
    (s.coreLive core = true → (s.pkg (core / 65536)).runs = true → k.idleSet = some i → k.resumable = some slot →
      ∃ t, exec (.resumption core) s = .next t ∧ (t.actor core slot).state = .firing ∧ (t.actor core slot).tsetf = i.val ∧
        (let v := (t.core core).thread i
         v.busy = true ∧ v.slot = slot ∧ v.pc = k.readWord (0x5C000 + 0x800 * (k.actor slot).save) ∧
          ∀ r : Fin 32, 0 < r.val → v.x[r] = k.readWord (0x5C000 + 0x800 * (k.actor slot).save + 8 * r.val)) ∧
        (t.actor core slot).cl = (k.mem.read64 (0x5C000 + 0x800 * (k.actor slot).save + 0x570)).toNat % 64 ∧
        (t.core core).mem = k.mem ∧ ∀ j, j ≠ slot → t.actor core j = s.actor core j) ∧
    (∀ m, m < 8 → u.slot = slot → (k.actor slot).fid = u.fid → (k.actor slot).handler = u.handler → u.busy = true → u.stopping = true →
      u.stalled = false → u.waitX = 0 → u.waitV = 0 →
      let q := k.saveContext i m
      let v := q.loadContext (q.actor slot) slot
      (∀ r, v.readX r = if w.hereX r then w.readX r else 0) ∧ (∀ r, v.readV r = if w.hereV r then w.readV r else 0) ∧
        { v with x := w.x, v := w.v, stopping := true } = w) ∧
    (u.busy = true → u.stopping = true → (u.deferred.isSome = true ∨ k.inCode u.slot u.pc = false) →
      exec (.preemptionSave core i.val) s = .next s)

/-- R21, R26, R151, R155, R162, R163, R183, R184, R306: the events by which actors come to be take place where their rules say so: a reserved
spawn whose release condition holds is filled and its name entered pending with a restart record, or refused with OVERFLOW, code 6 for a name in
use and 7 for a flock without room; the first entry of a spawn list that has been released starts where its core has a slot and room, live and
loading; the steward places an actor on the core that its grant gives now, in a slot where one and room are free, else in the spawn list; a loaded actor becomes idle; and Bellwether brings a measured image back under the next
incarnation, or gives the name up where the name does not wait for that restart, or record, image or measurement is missing. The core and slot of
a start, the image of a spawn and the number of a restart record are the model's choices and readings (logs 32, 34 to 38); what MAXLIVE counts is
log 87, the sender's incarnation in a restart record log 99. -/
def Obligations.SpawnEvents : Prop :=
  ∀ (core slot n : Nat) (s : State),
    let k := s.core core
    (∀ e f, k.spawns.find? (·.id == n) = some e → e.filled = false → k.spawnReleased e = true → s.flock (flockOf e.name) = some f →
      (s.dirEntry e.name = none → f.maxlive = 0 ∨ s.flockLive (flockOf e.name) < f.maxlive → ∃ t, exec (.spawnRelease core n) s = .next t ∧
        (t.core core).spawns = (k.spawns.filter (·.id != n)) ++ [{ e with filled := true }] ∧
        (∃ d, t.dirEntry e.name = some d ∧ d.state = 3 ∧ d.name = e.name ∧ d.supv = e.supv ∧ d.rrec = s.serial) ∧
        (∃ r, t.rrecs.find s.serial = some r ∧ r.image = f.image ∧ r.msg = e.msg ∧ r.sender = e.sender ∧ r.sinc = e.sinc)) ∧
      (∀ c, (c = 6 ∧ (s.dirEntry e.name).isSome = true) ∨
          (c = 7 ∧ s.dirEntry e.name = none ∧ f.maxlive ≠ 0 ∧ f.maxlive ≤ s.flockLive (flockOf e.name)) →
        ∃ t p g, exec (.spawnRelease core n) s = .next t ∧ (t.core core).spawns = k.spawns.filter (·.id != n) ∧
          t.packet s.serial = some p ∧ p.pay = .signal g ∧ g.dst = e.sender ∧ g.kind = 4 ∧ g.reason = 0x32 ∧ g.subject = e.name ∧
          g.detail.toNat = c)) ∧
    (∀ e f img l k1, k.spawns.find? (·.filled) = some e → e.rst = false → s.coreLive core = true →
      s.flock (flockOf e.name) = some f → s.image f.image.toNat (flockOf e.name) = some img → k.freeSlot = some slot →
      k.allocAll (img.needs slot) = .ok (l, k1) → img.rules.length ≤ k.freeSups.length → ∃ t, exec (.spawnStart core) s = .next t ∧
        (t.core core).spawns = k.spawns.filter (·.id != e.id) ∧
        (let a := t.actor core slot
         a.state = .loading ∧ a.name = e.name ∧ a.incarn = e.inc ∧ a.domain = f.domain ∧ a.prio = f.prio ∧ a.wdog = f.wdog ∧
          a.handlers = img.handlers ∧ a.trapEntry = img.trapEntry ∧ a.cl = 0 ∧ a.cs = 0 ∧ a.cp = 0 ∧ a.mt = 0 ∧ a.timer = 0 ∧ a.hmask = 0) ∧
        (∀ d, s.dirEntry e.name = some d → d.name = e.name → ∃ d', t.dirEntry e.name = some d' ∧ d'.state = 1 ∧ d'.inc = e.inc ∧ d'.slot = slot ∧
          d'.pkg = core / 65536) ∧ t.gmem = s.gmem) ∧
    (∀ p e x, s.packet n = some p → p.pay = .feed e x → (s.pkg p.src).quiesced 2 = false → s.stewardPlace p.src e.name = some core →
      (∀ t1, e.rst = false → s.startActor core e (s.spawnImage e) = some t1 →
        ∃ t, exec (.stewardFeed n) s = .next t ∧ t.packet n = none ∧ t.cores = t1.cores ∧ t.dir = t1.dir) ∧
      ((e.rst = true ∨ s.startActor core e (s.spawnImage e) = none) → k.spawns.length < 32 →
        (∀ q ∈ s.net, q.1 < n → ∀ e' y, q.2.pay = .feed e' y → q.2.src = p.src → s.stewardPlace p.src e'.name ≠ some core) →
        ∃ t, exec (.stewardFeed n) s = .next t ∧ t.packet n = none ∧ (t.core core).spawns = k.spawns ++ [{ e with id := k.next }] ∧
          ∀ c, c ≠ core → t.core c = s.core c)) ∧
    ((s.actor core slot).state = .loading → ∃ t, exec (.actorLoadComplete core slot) s = .next t ∧ (t.actor core slot).state = .idle ∧
      ((t.actor core slot).runnable = true ↔ k.anyRunnable slot = true) ∧ ∀ j, j ≠ slot → t.actor core j = s.actor core j) ∧
    (∀ p r, s.packet n = some p → p.pay = .restart r → (s.pkg p.src).runs = true →
      (∀ q ∈ s.net, q.1 < n → ∀ x, q.2.pay = .restart x → ¬(x.core / 16384 = r.core / 16384)) →
      (∀ d, s.dirEntry r.name = some d → ¬(d.state = 3 ∧ d.rrec = r.rrec)) ∨ s.rrecs.find r.rrec = none ∨
        (∃ d x, s.dirEntry r.name = some d ∧ d.state = 3 ∧ d.rrec = r.rrec ∧ s.rrecs.find r.rrec = some x ∧
          ∀ img, s.image x.image.toNat (flockOf r.name) = some img → s.measure img ≠ x.digest) →
      exec (.bellwetherRestart n) s = .next ((s.take n).refuseRestart r)) ∧
    (∀ p r d x img l k1, s.packet n = some p → p.pay = .restart r → (s.pkg p.src).runs = true →
      (∀ q ∈ s.net, q.1 < n → ∀ y, q.2.pay = .restart y → ¬(y.core / 16384 = r.core / 16384)) → r.core = core →
      s.dirEntry r.name = some d → d.name = r.name → d.state = 3 → d.rrec = r.rrec → s.rrecs.find r.rrec = some x → s.image x.image.toNat (flockOf r.name) = some img →
      s.measure img = x.digest → s.coreLive core = true → (k.mxLost = false ∨ img.mxdecl = false) → (∃ f, s.flock (flockOf r.name) = some f) →
      r.revive = [] → s.scopes = [] → k.freeSlot = some slot → k.allocAll (img.needs slot) = .ok (l, k1) → img.rules.length ≤ k.freeSups.length →
      ∃ t, exec (.bellwetherRestart n) s = .next t ∧ t.packet n = none ∧ (t.actor core slot).state = .loading ∧
        (t.actor core slot).name = r.name ∧ (t.actor core slot).incarn = r.inc + 1 ∧
        ∃ d', t.dirEntry r.name = some d' ∧ d'.state = 1 ∧ d'.inc = r.inc + 1 ∧ d'.slot = slot)

/-- R115, R156, R175, R179, R180, R374: the events of messages take place where their rules say so: a message that may leave and finds its actor,
with nothing of its core before it, is placed at the tail of its channel, or refused with OVERFLOW where the channel has no place, and the answer
goes back; so does one that has left, in its turn; one behind a busy answer is answered busy, and one that comes early waits in the reorder store
where that has room; a placed answer returns the entry of the send allowance, a refusal returns it and sends DELIVERY, a stale one sends again by
the directory, and one to a message that its entry has replaced changes nothing; across packages a message without an answer is resent once after 18,800 cycles and given up as INDETERMINATE after 47,000; what a
pending name has made wait is resent every 256 cycles and given up with TIMEOUT after 2^20. When an entry leaves is free (log 103); packets are
not lost one by one (log 23). -/
def Obligations.MessageEvents : Prop :=
  ∀ (n c id c2 i : Nat) (p : Packet) (m : Msg) (via : Via) (since : Option Nat) (e : SendEntry) (s : State),
    s.packet n = some p →
    let k := s.core c
    let now := s.cycle (c / 65536)
    let mine : Prop := p.pay = .message m (.entry c id) since ∧ k.sends.find? (·.id == id) = some e
    let others : List SendEntry := k.sends.filter fun e => e.id != id
    let first : Prop := (∀ f ∈ k.sends, f.id = id → f = e) ∧ ∀ f ∈ k.sends, f.slot = e.slot → f.order < e.order → f.phase ≠ .waiting
    let landed : Prop := ∃ t, exec (.messageArrival n) s = .next t ∧
      let full := (s.core c2).chanFull i e.msg.chan
      let q := if full then s.core c2 else (s.core c2).placeMsg i (s.now c2) e.msg
      (t.core c2).mem = q.mem ∧ (t.core c2).slots = q.slots ∧
      ∃ f g, (t.core c).sends.find? (·.id == id) = some f ∧ f.phase = .sent ∧ f.core = c2 ∧ f.msg = e.msg ∧ t.packet s.serial = some g ∧
        g.pay = .sendAnswer c id f.tag (if full then .overflow 0 (s.actor c2 i).incarn else .placed)
    (p.pay = .message m via none → m.isRequest = false → (∀ x y, via ≠ .entry x y) → s.hostWaits n m.sender m.dst m.chan false = false →
      finds s m c2 i →
      ((s.core c2).chanFull i m.chan = false → exec (.messageArrival n) s =
        .next (((s.onCore c2 fun q => q.placeMsg i (s.now c2) m).take n).viaPlaced via)) ∧
      ((s.core c2).chanFull i m.chan = true → exec (.messageArrival n) s =
        .next ((s.take n).viaRefused (c2 / 65536) (coreDie c2) m via 0x32 0 (s.actor c2 i).incarn))) ∧
    (mine → m.isRequest = false → first → e.phase = .waiting → k.mayLeave e = true → k.cached e.msg.dst = none → finds s e.msg c2 i →
      k.staysBehind e c2 = false → s.behindStale c e = false → (∀ f ∈ k.sends, f.id ≠ id → f.dest.isSome = true → f.core = c2 → f.phase = .sent ∨ f.phase = .resent) →
      c2 / 65536 = c / 65536 → landed) ∧
    (mine → m.isRequest = false → first → e.phase = .flying ∨ e.phase = .stored → e.dest = some i → e.core = c2 → (s.pkg (c2 / 65536)).runs = true →
      (k.early e = false → finds s e.msg c2 i → (e.tag.isSome = true → (s.core c2).tagsFull (s.now c2) = false) → landed) ∧
      (k.behindBusy e = true → exec (.messageArrival n) s = .next (s.busySend c e)) ∧
      (k.early e = true → k.behindBusy e = false → e.phase = .flying → exec (.messageArrival n) s =
        .next (if s.storeUse (c2 / 16) < 64 then s.onSend c e.id fun f => { f with phase := .stored } else s.busySend c e))) ∧
    (∀ tag a, p.pay = .sendAnswer c id tag a → (∀ f ∈ k.sends, f.id = id → f.tag ≠ tag) → exec (.sendAnswer n) s = .next (s.take n)) ∧
    (∀ a, p.pay = .sendAnswer c id e.tag a → k.sends.find? (·.id == id) = some e →
      (a = .placed → ∃ t, exec (.sendAnswer n) s = .next t ∧ (t.core c).sends = others ∧ t.packet n = none ∧ t.serial = s.serial) ∧
      (∀ inc, a = .noproc inc → n < s.serial → ∃ t, exec (.sendAnswer n) s = .next t ∧ (t.core c).sends = others ∧ t.packet n = none ∧
        delivered t s.serial e.msg.sender 0x33 e.msg.dst (e.msg.chan * 256 + (e.msg.body[0]).toNat % 2 ^ 32 * 2 ^ 32)) ∧
      (∀ inc, a = .overflow 0 inc → n < s.serial → ∃ t, exec (.sendAnswer n) s = .next t ∧ (t.core c).sends = others ∧ t.packet n = none ∧
        delivered t s.serial e.msg.sender 0x32 e.msg.dst (e.msg.chan * 256 + (e.msg.body[0]).toNat % 2 ^ 32 * 2 ^ 32)) ∧
      (a = .stale → ∃ t, exec (.sendAnswer n) s = .next t ∧ t.packet n = none ∧ (t.core c).cached e.msg.dst = none ∧
        (t.core c).sends = k.sends.map fun f => if f.id = id then
          { f with phase := .waiting, busySince := none, dest := none, tag := none, rerouted := true } else f)) ∧
    (mine → e.unanswered = true → e.tag.isSome = true → e.resent = false → e.firstAt + 18800 ≤ now → exec (.messageResend n) s =
      .next (s.onCore c fun k => { k with sends := k.sends.map fun f => if f.id = e.id then
        { f with phase := if f.phase = .sent then .resent else f.phase, resent := true } else f })) ∧
    (mine → e.unanswered = true → e.tag.isSome = true → e.firstAt + 47000 ≤ now → ∃ t,
      exec (.messageIndeterminate n) s = .next t ∧ (t.core c).sends = others ∧
      delivered t s.serial e.msg.sender 0x34 e.msg.dst (e.msg.chan * 256 + (e.msg.body[0]).toNat % 2 ^ 32 * 2 ^ 32)) ∧
    (mine → e.phase = .busy → e.lastAt + 256 ≤ now → exec (.messageBusyResend n) s =
      .next (s.onCore c fun k => { k with sends := k.sends.map fun f => if f.id = id then { f with phase := .waiting, lastAt := now } else f })) ∧
    (mine → e.phase = .busy → e.busySince.getD e.lastAt + 2 ^ 20 ≤ now → ∃ t, exec (.deliveryTimeout n) s = .next t ∧
      (t.core c).sends = others ∧
      delivered t s.serial e.msg.sender 0x30 e.msg.dst (e.msg.chan * 256 + (e.msg.body[0]).toNat % 2 ^ 32 * 2 ^ 32)) ∧
    (∀ dst killer kinc dom every reason first, p.pay = .kill dst killer kinc dom every reason first true →
      (p.born + 256 ≤ s.cycle p.src → exec (.messageBusyResend n) s = .next { s with
        net := s.net.put n { p with born := s.cycle p.src, pay := .kill dst killer kinc dom every reason first false } }) ∧
      (first + 2 ^ 20 ≤ s.cycle p.src → ∃ t, exec (.deliveryTimeout n) s = .next t ∧ delivered t s.serial killer 0x30 dst 0))

/-- R87, R88, R153, R305, R334: the events of parcels and MDRAINs: the receiver's core reserves an entry, granules and a place, or refuses with
code 1, 2 or 3; the engine copies the giver's granules; and the arrival makes the entry the receiver's, frees the giver's granules and places the
notice. An MDRAIN whose target region passes its checks writes its rows there and places its closing message; one that finds no place, or a
region that fails the checks, is refused with code 1 or 9, and MT falls either way. Parcels to a gateway and some fields of refusals are the
model's readings (logs 11, 78 and 80). -/
def Obligations.ParcelEvents : Prop :=
  ∀ (n c i : Nat) (q : Packet) (s : State), s.packet n = some q → n < s.serial →
    let k := s.core c
    let a := k.actor i
    (∀ p, q.pay = .parcel p → p.phase = .asking → s.hostWaits n p.giver p.dst p.chan true = false → s.reachMailbox p.domain p.dst = .actor c i → p.sameCore = false →
      (k.chanFull i p.chan = true → ∃ t, exec (.parcelReservation n) s = .next t ∧ t.packet n = none ∧
        delivered t s.serial p.giver 0x32 p.dst (1 + p.chan * 256)) ∧
      (∀ j, k.chanFull i p.chan = false → k.freeEntry = some j → k.findRun p.size = none → ∃ t, exec (.parcelReservation n) s = .next t ∧
        t.packet n = none ∧ delivered t s.serial p.giver 0x32 p.dst (3 + p.chan * 256)) ∧
      (k.chanFull i p.chan = false → k.freeEntry = none → ∃ t, exec (.parcelReservation n) s = .next t ∧
        t.packet n = none ∧ delivered t s.serial p.giver 0x32 p.dst (2 + p.chan * 256)) ∧
      (∀ j b, k.chanFull i p.chan = false → k.freeEntry = some j → k.findRun p.size = some b → ∃ t, exec (.parcelReservation n) s = .next t ∧
        (t.core c).regions.get {} j = ({ valid := true, tomb := true, pend := true, base := b, size := p.size, owner := 64, kind := p.kind
                                         rd := p.rd, wr := p.wr, skew := p.skew, pitch := p.pitch, decl := 15, born := k.next } : RegEntry) ∧
        (t.actor c i).resv = a.resv.setIfInBounds p.chan (a.resv[p.chan]?.getD 0 + 1) ∧
        t.packet n = some { q with pay := .parcel { p with phase := .reserved, rcore := c, rslot := i, rinc := a.incarn, rentry := j, rbox := k.boxBorn i } })) ∧
    (∀ p, q.pay = .parcel p → p.phase = .reserved → p.copied = false → p.sameCore = false → isGateway p.dst = false → p.rcore = c →
      let b := ((s.core c).region p.rentry).base
      ∃ t, exec (.parcelHandOver n) s = .next t ∧
        (∀ x, x < (s.parcelBytes p).length → (t.core c).mem.read (b * 1024 + x) = (s.parcelBytes p).getD x 0) ∧
        (∀ x, ¬(b * 1024 ≤ x ∧ x < b * 1024 + Max.max (p.size * 1024) (s.parcelBytes p).length) → (t.core c).mem.read x = k.mem.read x) ∧
        t.packet n = some { q with pay := .parcel { p with copied := true } }) ∧
    (∀ p, q.pay = .parcel p → p.phase = .reserved → p.copied = true → p.sameCore = false → isGateway p.dst = false → p.rcore = c →
      p.rslot = i → p.rentry < 248 → p.giverCore ≠ c → a.name = p.dst → a.incarn = p.rinc → a.state.accepts = true →
      ∃ t, exec (.parcelArrival n) s = .next t ∧ t.packet n = none ∧
        (let e := (t.core c).regions.get {} p.rentry
         e.owner = i ∧ e.tomb = false ∧ e.pend = false ∧ e.decl = 15 ∧ e.base = (k.regions.get {} p.rentry).base) ∧
        (t.core c).mem = (k.takeParcel p (s.now c)).mem ∧ (t.core p.giverCore) = (s.core p.giverCore).releaseGiven p) ∧
    (∀ d, q.pay = .drain d → d.busy = false → (s.engine (engineOf d.core)).gone = false → (s.pkg (d.core / 65536)).runs = true →
      let ends : State → Prop := fun t => exec (.mdrainDelivery n) s = .next t ∧ t.packet n = none ∧
        (s.jobLives d.core d.slot d.name = true → (t.actor d.core d.slot).mt = (s.actor d.core d.slot).mt - 1)
      (s.reachMailbox d.domain d.dst = .nobody → ∃ t, ends t ∧
        delivered t s.serial d.name 0x33 d.dst (d.chan * 256 + d.off % 2 ^ 32 * 2 ^ 32)) ∧
      (s.reachMailbox d.domain d.dst = .actor c i →
      let e := k.region d.tridx
      let ok : Prop := e.liveOf i = true ∧ e.kind = 0 ∧ e.wr = true ∧ d.off % d.esize = 0 ∧ d.pitch % d.esize = 0 ∧
        d.off + ((d.m - 1) * d.pitch + d.n * d.esize) ≤ e.size * 1024
      (k.chanFull i d.chan = true → ∃ t, ends t ∧
        delivered t s.serial d.name 0x32 d.dst (1 + d.chan * 256 + d.off % 2 ^ 32 * 2 ^ 32)) ∧
      (k.chanFull i d.chan = false → ¬ok → ∃ t, ends t ∧
        delivered t s.serial d.name 0x32 d.dst (9 + d.chan * 256 + d.off % 2 ^ 32 * 2 ^ 32)) ∧
      (k.chanFull i d.chan = false → ok → k.bad = [] → ∃ t, ends t ∧
        (d.core ≠ c ∨ (s.actor d.core d.slot).state ≠ .preempted → (t.core c).mem = (({ k with mem := (d.rows.zipIdx.foldl (fun (m : Memory) row =>
          m.writeMap e.place (e.base * 1024 + d.off + row.2 * d.pitch) row.1) k.mem) } : Core).placeEntry i d.chan (s.now c)
            (BitVec.ofNat 64 (2 ^ 63 + 5 * 2 ^ 60 + d.chan * 2 ^ 58 + d.inc.toNat * 2 ^ 48 + s.now c % 2 ^ 32)) d.name d.words).mem))))

/-- R176: a signal on c3: a second TIMER is dropped; a DEVICE with the reason of a waiting one takes its place, DETAIL and stamp only; a
signal that finds c3 full ends the actor with OVERFLOW, DETAIL 3; any other is placed at the tail. That places reserved for parcels count in `full`
is log 78, what a bank word in error among them reads as log 91. -/
def Obligations.SignalPlacement : Prop :=
  ∀ (k : Core) (slot now : Nat) (g : Signal),
    let q := if g.kind = 5 ∨ g.kind = 6 then k.noteSignals slot else k
    let d := q.chan slot 3
    let full : Prop := (k.chan slot 3).cap ≤ (k.chan slot 3).cnt + (q.actor slot).resv[3]
    let at_ : Nat → Nat := fun n => q.mailbox slot + 64 + 80 * (d.base + (d.head + n) % d.cap)
    let word : Nat → Nat → Nat := fun n w => (q.metaWord (at_ n + 8 * w)).toNat
    let same : Nat → Prop := fun n => word n 0 / 2 ^ 60 % 8 = 6 ∧ word n 2 / 2 ^ 56 % 256 = g.kind ∧ (g.kind = 6 → word n 2 / 2 ^ 48 % 256 = g.reason)
    (g.kind = 5 → (∃ n, n < d.cnt ∧ same n) → k.placeSignal slot now g = q) ∧
    (∀ n, g.kind = 6 → n < d.cnt → same n → (∀ m, m < n → ¬same m) → k.placeSignal slot now g =
      q.writeWords (at_ n + 40) (toBytes 8 g.detail.toNat ++ toBytes 8 g.stamp.toNat)) ∧
    ((g.kind = 5 ∨ g.kind = 6 → ∀ n, n < d.cnt → ¬same n) →
      (full → k.placeSignal slot now g = q.die slot 0x32 0 3) ∧
      (¬full → k.placeSignal slot now g = q.placeEntry slot 3 now (BitVec.ofNat 64 (2 ^ 63 + 6 * 2 ^ 60 + 3 * 2 ^ 58 + now % 2 ^ 32)) 0
        (body8 [BitVec.ofNat 64 (g.kind * 2 ^ 56 + g.reason * 2 ^ 48 + g.sub * 2 ^ 40 + g.ref.toNat * 2 ^ 16), g.subject,
          BitVec.ofNat 64 (g.origpkg * 2 ^ 20 + g.origdie * 2 ^ 18 + g.sinc.toNat), g.detail, g.stamp])))

/-- R157, R158, R160, R165, R170, R307 to R309, R421: the arrivals of signals, Kills and link requests: one for nobody, or for another
incarnation, is dropped; DELIVERY, TIMER, DEVICE and DOWN are placed on c3; an EXIT takes the link entry for the incarnation that ended away and is
placed, dropped or ends the actor with LINKED; a CHILD_EXIT of a child that a restart scope ended is placed with SUB 4; one that no rule restarts, for its
mode (ALWAYS, ABNORMAL, NEVER) or reason, with SUB 1; one that a SOLE rule restarts is stamped and sent to Bellwether; under GROUP and TAIL the live siblings
of the scope are killed and waited for; one beyond the rule's limit is placed with SUB 3 and ends the supervisor with RESTART_LIMIT; a Kill ends a live
actor, waits while its domain is being cut, and is refused NOPROC where there is none; a link request writes the far entry at the incarnation that it was
asked of. When a CHILD_EXIT with action 0 goes out is the model's reading (log 82). -/
def Obligations.Arrivals : Prop :=
  ∀ (n c i : Nat) (p : Packet) (s : State), s.packet n = some p → n < s.serial →
    let k := s.core c
    let a := k.actor i
    (∀ g, p.pay = .signal g →
      let heard : Prop := s.who g.dst = .actor c i ∧ a.incarn = g.inc ∧ (s.pkg (c / 65536)).runs = true ∧ s.cut a.domain = false
      let linked : Prop := g.linkAnswer = true ∨ ∃ l ∈ k.links, l.2.kind = 1 ∧ l.2.slot = i ∧ l.2.peer = g.subject ∧ l.2.pinc = g.sinc
      let unlinked : State → Prop := fun t => (t.core c).links = k.links.filter fun l =>
        !(l.2.kind == 1 && l.2.slot == i && l.2.peer == g.subject && (g.linkAnswer || l.2.pinc == g.sinc))
      let rule := k.ruleOf i g.subject
      let event : Instr := if g.kind = 1 then .exitArrival n else if g.kind = 2 then .downArrival n else .signalArrival n
      ((g.kind ∈ [1, 2, 4, 5, 6]) → s.who g.dst = .nobody → exec event s = .next (s.take n)) ∧
      ((g.kind ∈ [1, 2, 4, 5, 6]) → s.who g.dst = .actor c i → a.incarn ≠ g.inc → exec event s = .next (s.take n)) ∧
      (g.kind ∈ [4, 5, 6] → heard → exec (.signalArrival n) s = .next ((s.take n).onCore c fun q => q.placeSignal i (s.now c) g)) ∧
      (g.kind = 2 → heard → exec (.downArrival n) s = .next (((s.take n).onCore c fun q => { q with
        links := q.links.filter fun l => !(l.2.kind == 2 && l.2.slot == i && l.2.peer == g.subject && l.2.ref == g.ref) }).onCore c
          fun q => q.placeSignal i (s.now c) g)) ∧
      (g.kind = 1 → heard → ¬linked → exec (.exitArrival n) s = .next (s.take n)) ∧
      (g.kind = 1 → heard → linked → a.trapexit = true → ∃ t, exec (.exitArrival n) s = .next t ∧ unlinked t ∧
        (t.core c).mem = (k.placeSignal i (s.now c) g).mem) ∧
      (g.kind = 1 → heard → linked → a.trapexit = false → 2 ≤ g.reason → ∃ t, exec (.exitArrival n) s = .next t ∧ unlinked t ∧
        (t.actor c i).state = .dying ∧ (t.actor c i).dying = some { reason := 3, sub := 0, detail := BitVec.ofNat 64 g.reason }) ∧
      (g.kind = 1 → heard → linked → a.trapexit = false → g.reason < 2 → ∃ t, exec (.exitArrival n) s = .next t ∧ unlinked t ∧
        (t.core c).slots = k.slots ∧ (t.core c).mem = k.mem) ∧
      (g.kind = 3 → heard → s.inScope g.dst g.subject = false → rule = none → exec (.childExitArrival n) s =
        .next (((s.take n).giveUp g).onCore c fun q => q.placeSignal i (s.now c) { g with sub := 1 })) ∧
      (g.kind = 3 → heard → s.inScope g.dst g.subject = true → ∃ t, exec (.childExitArrival n) s = .next t ∧
        t.inScope g.dst g.subject = false ∧ t.core c = k.placeSignal i (s.now c) { g with sub := 4 }) ∧
      (∀ x r, g.kind = 3 → heard → s.inScope g.dst g.subject = false → rule = some (x, r) →
        let recent := (r.stamps.filter fun st => decide ((s.now c + 2 ^ 32 - st) % 2 ^ 32 < r.window)).length
        let again : Prop := g.reason ≠ 1 ∧ (r.mode = 0 ∨ r.mode = 1 ∧ g.reason ≠ 0)
        let sups := k.sups.put x { r with stamps := (s.now c % 2 ^ 32 :: r.stamps).take 16 }
        let sibs := (s.childrenOf g.dst).filter fun e => e.name != g.subject &&
          ((({ k with sups := sups } : Core).ruleOf i e.name).map fun q => q.2.rule) == some r.rule && s.supGroup e.name == s.supGroup g.subject &&
          (r.strat == 1 || decide (indexOf g.subject < indexOf e.name))
        (again → recent < r.maxr → r.strat = 0 → ∃ t m q, exec (.childExitArrival n) s = .next t ∧ (t.core c).sups = sups ∧ (t.core c).mem = k.mem ∧
          t.packet s.serial = some m ∧ m.pay = .restart q ∧ q.name = g.subject ∧ q.inc = g.sinc ∧ q.supv = g.dst ∧ q.core = g.core) ∧
        (again → recent < r.maxr → r.strat ≠ 0 → ∃ t, exec (.childExitArrival n) s = .next t ∧
          (∀ e ∈ sibs, (s.actor e.core e.slot).state.mortal = true → (t.actor e.core e.slot).state = .dying ∧
            (t.actor e.core e.slot).dying = some { reason := 2, sub := 0, detail := 0 }) ∧
          (sibs ≠ [] → ∃ sc ∈ t.scopes, sc.supv = g.dst ∧ sc.waiting = sibs.map (·.name) ∧ sc.trigger.subject = g.subject ∧
            ∀ nm, (∃ q ∈ sc.members, q.name = nm) ↔ nm = g.subject ∨ ∃ e ∈ sibs, e.name = nm)) ∧
        (again → r.maxr ≤ recent → a.state.mortal = true → ∃ t, exec (.childExitArrival n) s = .next t ∧ (t.actor c i).state = .dying ∧
          ((k.chan i 3).cnt + a.resv[3] < (k.chan i 3).cap → (t.actor c i).dying = some { reason := 0x43, sub := 0, detail := 0 } ∧
            (t.core c).mem = (k.placeSignal i (s.now c) { g with sub := 3 }).mem)) ∧
        (¬again → exec (.childExitArrival n) s =
          .next (((s.take n).giveUp g).onCore c fun q => q.placeSignal i (s.now c) { g with sub := 1 })))) ∧
    (∀ dst killer kinc dom every reason first, p.pay = .kill dst killer kinc dom every reason first false →
      (s.reach dom every dst = .actor c i → s.cut a.domain = false → exec (.killArrival n) s = .next ((s.take n).onCore c fun q => q.die i reason 0 0)) ∧
      (s.reach dom every dst = .nobody → ∃ t, exec (.killArrival n) s = .next t ∧ t.packet n = none ∧ delivered t s.serial killer 0x33 dst 0) ∧
      (s.reach dom every dst = .pending ∨ s.reach dom every dst = .actor c i ∧ s.cut a.domain = true → ∃ t q, exec (.killArrival n) s = .next t ∧ t.packet n = some q ∧
        q.pay = .kill dst killer kinc dom every reason first true ∧ t.cores = s.cores)) ∧
    (∀ r, p.pay = .linkReq r →
      let asker := s.actor r.askerCore r.askerSlot
      let lives : Prop := asker.name = r.asker ∧ asker.incarn = r.askerInc ∧ asker.state.accepts = true
      let kind : Nat := if r.op = .link then 1 else 3
      (∀ j, r.op = .link ∨ r.op = .monitor → lives → s.reach r.domain false r.peer = .actor c i → a.incarn = r.pinc → k.freeLink = some j →
        (r.op = .link → ∀ l ∈ k.links, ¬(l.2.kind = 1 ∧ l.2.slot = i ∧ l.2.peer = r.asker ∧ l.2.pinc = r.askerInc)) → exec (.peerLinkRequest n) s =
          .next ((s.take n).onCore c fun q => { q with
            links := q.links.put j { kind := kind, slot := i, ref := r.ref, peer := r.asker, pinc := r.askerInc } })) ∧
      (r.op = .link ∨ r.op = .monitor → lives →
        s.reach r.domain false r.peer = .nobody ∨ s.reach r.domain false r.peer = .actor c i ∧ a.incarn ≠ r.pinc → ∃ t, exec (.peerLinkRequest n) s = .next t ∧
        t.packet n = none ∧ signalled t s.serial r.asker (if r.op = .link then 1 else 2) 0x33 0 r.peer) ∧
      (r.op = .link ∨ r.op = .monitor → ¬lives → exec (.peerLinkRequest n) s = .next (s.take n)) ∧
      (r.op = .unlink → s.who r.peer = .actor c i → exec (.peerLinkRequest n) s = .next ((s.take n).onCore c fun q =>
        { q with links := q.links.filter fun l => !(l.2.kind == 1 && l.2.slot == i && l.2.peer == r.asker) })))

/-- R49, R50, R79, R145, R153, R161, R164, R420: a death in steps: first the name is exiting, the actor's outstanding-operation counters are
zero, and its tickets are gone or go on for nobody; then, once nothing of it is under way, its regions are scrubbed, its slot is free with its
rules and links, its name is free where no restart follows and pending where one does, EXIT goes to each linked peer, DOWN to each watcher and CHILD_EXIT to
its supervisor. What a death does to held accesses is the model's reading (log 81). -/
def Obligations.Deaths : Prop :=
  ∀ (core slot : Nat) (d : Death) (s : State),
    let k := s.core core
    let a := k.actor slot
    a.state = .dying → a.dying = some d →
    (d.begun = false → ∃ t, exec (.death core slot) s = .next t ∧
      (let n := t.actor core slot
       n.state = .dying ∧ n.cl = 0 ∧ n.cs = 0 ∧ n.cp = 0 ∧ n.mt = 0 ∧ n.crResv = 0 ∧ ∃ x, n.dying = some { d with begun := true, ended := x }) ∧
      (∀ x ∈ (t.core core).accs, x.slot = slot → x.orphan = true) ∧ (∀ x ∈ (t.core core).fifo, x.slot ≠ slot) ∧
      (∀ x ∈ (t.core core).mq, x.slot ≠ slot) ∧ t.gmem = s.gmem ∧
      (∀ e, s.dirEntry a.name = some e → e.name = a.name → e.state = 1 → e.core = core → e.slot = slot →
        t.dirEntry a.name = some { e with state := 2 })) ∧
    (d.begun = true → s.quiet core slot d = true → ∃ t, exec (.deathReclaim core slot) s = .next t ∧
      t.actor core slot = {} ∧ (∀ p ∈ (t.core core).regions, p.2.valid = true → p.2.owner ≠ slot) ∧
      (∀ p ∈ k.regions, p.2.valid = true → p.2.tomb = false → p.2.owner = slot →
        ∀ x, p.2.base * 1024 ≤ x → x < (p.2.base + p.2.size) * 1024 → (t.core core).mem.read x = 0) ∧
      (∀ p ∈ (t.core core).sups, p.2.slot ≠ slot) ∧ (∀ p ∈ (t.core core).links, p.2.slot ≠ slot) ∧
      (∀ l ∈ k.links, l.2.slot = slot → l.2.kind = 1 → ∃ n, signalled t n l.2.peer 1 d.reason d.sub a.name) ∧
      (∀ l ∈ k.links, l.2.slot = slot → l.2.kind = 3 → ∃ n, signalled t n l.2.peer 2 d.reason d.sub a.name) ∧
      (∀ e, s.dirEntry a.name = some e → e.supv ≠ 0 → s.endedBySupv e.supv a.name = false → ∃ n, signalled t n e.supv 3 d.reason d.sub a.name) ∧
      (∀ e, s.dirEntry a.name = some e → e.name = a.name → e.state = 2 → e.core = core → e.slot = slot →
        (s.restartFollows e.supv a.name d.reason = false → t.dirEntry a.name = none) ∧
        (s.restartFollows e.supv a.name d.reason = true → t.dirEntry a.name = some { e with state := 3, ended := d.ended })))

/-- R92 to R101, R283 to R289: what a commons bank does with one access: a load answers the word's value and version, or the poison; a versioned
load answers, lodges a wait or answers busy, and finds an earlier version in the shadow store or is refused VERSION_GONE; a store changes exactly
its bits, makes the next version, pushes the old one where it is not before FLOOR and ends the waits it serves; an atomic writes its result and answers the old value; CRECL
raises the floor; places that a bank has reserved for the pages migrating to it are not given out (R124);
CARM arms a word once, is refused with DELIVERY, code 5 for an armed word and 4 for a full bank, and the atomic that makes an armed word zero disarms it and sends its message. Reach and refusals of
bank messages, deferrals served at once and versions of poisoned words are the model's readings (logs 15, 29, 33, 73 and 79). -/
def Obligations.BankOperations : Prop :=
  ∀ (o core : Nat) (a : Access) (s : State), (s.core core).accs.find? (·.id == a.id) = some a →
    let w := a.ga / 8
    let c := s.word w
    let b := s.bank (bankOf o a.ga)
    let t := s.applyAtBank o core a
    let ans : Option AccAnswer := ((t.core core).accs.find? (·.id == a.id)).bind fun x => if x.phase = .answered then x.answer else none
    let bt := t.bank (bankOf o a.ga)
    let x := a.ops.headD 0
    let y := (a.ops[1]?).getD 0
    let v : BitVec 16 := x.setWidth 16
    let ge : BitVec 16 → BitVec 16 → Prop := fun p q => (p - q).toNat < 2 ^ 15
    let room := s.reservedAt (bankOf o a.ga)
    let now : AccAnswer := if c.poison then .dataError 1 (BitVec.ofNat 64 a.ga) else .value [if c.hasval then c.data else 0] c.ver
    let lo := a.ga % 8 * 8
    let made : W64 → Bool → Prop := fun d whole =>
      t.word w = { c with data := d, ver := c.ver + 1, hasval := true, poison := c.poison && !whole } ∧
      (∀ u, u ≠ w → t.word u = s.word u) ∧
      (c.hasval = true → ge c.ver c.floor → b.shadow.length < 4096 → bt.shadow = b.shadow ++ [⟨w, c.ver, c.data⟩]) ∧
      (¬(c.hasval = true ∧ ge c.ver c.floor) → bt.shadow = b.shadow) ∧
      bt.conts = b.conts.filter fun q => !(q.word == w && q.servedBy (c.ver + 1))
    let bitsOf : Nat → Nat → W64 → Prop := fun l n d => ∀ j, j < 64 → d.getLsbD j = if l ≤ j ∧ j < l + n then x.getLsbD (j - l) else c.data.getLsbD j
    let older : W64 := if a.op = .atom .fadd then BitVec.ofNat 64 (c.data.toNat / 2 ^ (a.ga / 4 % 2 * 32) % 2 ^ 32) else c.data
    let signedLt : W64 → W64 → Prop := fun p q => p.toInt < q.toInt
    (a.op = .load → ans = some now ∧ t.words = s.words) ∧
    (a.op = .loadGe ∨ a.op = .loadAcq → ge c.ver v → c.hasval = true → ans = some now ∧ t.words = s.words) ∧
    (a.op = .loadGe ∨ a.op = .loadAcq → ¬(ge c.ver v ∧ c.hasval = true) →
      (b.conts.length + room.1 < 2048 → bt.conts = b.conts ++ [⟨w, v, .wait core a.id false (decide (a.op = .loadAcq))⟩] ∧
        ∃ q, (t.core core).accs.find? (·.id == a.id) = some q ∧ q.phase = .lodged) ∧
      (2048 ≤ b.conts.length + room.1 → ∃ q, (t.core core).accs.find? (·.id == a.id) = some q ∧ q.phase = .busy)) ∧
    (a.op = .loadEq → v = c.ver → ans = some now ∧ t.words = s.words) ∧
    (a.op = .loadEq → v ≠ c.ver → ge v c.ver → b.conts.length + room.1 < 2048 →
      bt.conts = b.conts ++ [⟨w, v, .wait core a.id true false⟩] ∧ ∃ q, (t.core core).accs.find? (·.id == a.id) = some q ∧ q.phase = .lodged) ∧
    (a.op = .loadEq → ¬ge v c.ver → ∀ e, ge v c.floor → b.shadow.find? (fun e => e.word == w && e.ver == v) = some e →
      ans = some (.value [e.val] v)) ∧
    (a.op = .loadEq → ¬ge v c.ver → ¬ge v c.floor → ans = some (.fault 0x16 0 (v.zeroExtend 64))) ∧
    (a.op = .ver → ∃ m, ans = some (.value [m] c.ver) ∧ m.setWidth 16 = c.ver ∧ m.extractLsb' 32 16 = c.floor ∧ m.getLsbD 63 = c.hasval ∧
      (m.extractLsb' 48 2).toNat = if c.poison then 3 else if b.conts.any (·.word == w) then 2 else if c.hasval then 1 else 0) ∧
    (∀ p ∈ [(AccOp.storeB, lo, 8), (.storeH, lo, 16), (.storeW, lo, 32), (.storeNl, lo, 4), (.storeNh, lo + 4, 4), (.storeD, 0, 64),
        (.storeRel, 0, 64)], a.op = p.1 → a.ga % (Max.max 1 (p.2.2 / 8)) = 0 →
      ans = some (.value [] 0) ∧ ∃ d, made d (p.1 = .storeD ∨ p.1 = .storeRel) ∧ bitsOf p.2.1 p.2.2 d) ∧
    (∀ op, a.op = .atom op → c.poison = true → ans = some (.dataError 1 (BitVec.ofNat 64 a.ga)) ∧ t.words = s.words) ∧
    (∀ op, a.op = .atom op → c.poison = false → ans = some (.value [older] c.ver)) ∧
    (c.poison = false → ∀ p ∈ [(AtomOp.add, c.data + x), (.and, c.data &&& x), (.or, c.data ||| x), (.xor, c.data ^^^ x), (.swap, x),
        (.minu, if x.toNat < c.data.toNat then x else c.data), (.maxu, if c.data.toNat < x.toNat then x else c.data)],
      a.op = .atom p.1 → made p.2 true) ∧
    (c.poison = false → (a.op = .atom .min → ∃ d, made d true ∧ (d = x ∨ d = c.data) ∧ ¬signedLt x d ∧ ¬signedLt c.data d) ∧
      (a.op = .atom .max → ∃ d, made d true ∧ (d = x ∨ d = c.data) ∧ ¬signedLt d x ∧ ¬signedLt d c.data) ∧
      (a.op = .atom .cas → if c.data = y then made x true else t.words = s.words)) ∧
    (a.op = .recl → (v ≠ c.ver → ge v c.ver → t.word w = { c with floor := c.ver }) ∧
      (v = c.ver ∨ ¬ge v c.ver → t.word w = { c with floor := if (v - c.floor).toNat < 2 ^ 15 then v else c.floor }) ∧ ans = some (.value [] 0)) ∧
    (a.op = .arm → b.trigs.length + room.2 < 32 → (∀ g ∈ b.trigs, g.word ≠ w) → ans = some (.value [] 0) ∧
      bt.trigs = b.trigs ++ [⟨w, x, a.chan, y, (a.ops[2]?).getD 0, a.name, a.inc, a.domain⟩]) ∧
    (∀ d, a.op = .arm → d = 5 ∧ (∃ g ∈ b.trigs, g.word = w) ∨ d = 4 ∧ 32 ≤ b.trigs.length + room.2 ∧ (∀ g ∈ b.trigs, g.word ≠ w) →
      ans = some (.value [] 0) ∧ t.banks = s.banks ∧ delivered t s.serial a.name 0x32 x (d + a.chan * 256 + y.toNat % 2 ^ 32 * 2 ^ 32)) ∧
    (∀ g, a.op = .atom .add → c.poison = false → c.data ≠ 0 → c.data + x = 0 → b.trigs.find? (·.word == w) = some g →
      bt.trigs = b.trigs.filter (·.word != w) ∧ ∃ n p m via, t.packet n = some p ∧ p.pay = .message m via none ∧ m.dst = g.target ∧
        m.chan = g.chan ∧ m.kind = 4 ∧ m.sender = g.armer ∧
        m.body = body8 [g.p0, g.p1, BitVec.ofNat 64 (w * 8), (c.ver + 1).zeroExtend 64]) ∧
    (a.op = .defer → ge c.ver (y.setWidth 16) → c.hasval = true → c.poison = false → ans = some (.value [] 0) ∧ t.words = s.words ∧
      ∃ p m via, t.packet s.serial = some p ∧ p.pay = .message m via none ∧ m.dst = x ∧ m.chan = a.chan ∧ m.kind = 3 ∧
        m.body = body8 [c.data, BitVec.ofNat 64 (w * 8), c.ver.zeroExtend 64, y >>> 16])

/-- R104, R123 to R125, R135, R137 to R145, R148, R149, R282, R290, R291, R375: the life of an access after issue: in its turn at its owner it is
performed, or answered by the state of its page with a ticket and its code, LOST or PLB_DENY; behind an access of its page that met a ticket it is
held with its core; out of its turn it is answered busy behind a busy one, or waits in the reorder store of the bank; its answer writes the destination and ends it; busy ones are
resent after 256 cycles, tagged ones once after 18,800 and given up as INDETERMINATE after 47,000, a wait never once it has been reported lodged; a ticket stands in the table until its notice,
and ends the actor after 2^20 cycles; a refill fills the PLB or finds no record. An access without any record, and what is held behind
a ticket, are the model's readings (logs 28 and 101). -/
def Obligations.AccessEvents : Prop :=
  ∀ (core id : Nat) (a : Access) (s : State), (s.core core).accs.find? (·.id == id) = some a →
    let k := s.core core
    let o := a.owner
    let page := a.ga / 65536
    let now := s.cycle (core / 65536)
    let home := (s.owner o).homes.find page
    let came : Prop := (a.phase = .sent ∨ a.phase = .stored) ∧ (s.pkg (core / 65536)).lost = false
    let there : Prop := came ∧ (s.pkg (o / 512)).lost = false ∧ (s.pkg (o / 512)).halted = false
    let turn : Prop := (k.headAt (bankOf o a.ga)).map (·.id) = some id
    let arrived : Prop := there ∧ k.behindTicket a = false ∧ a.tag = none ∧ turn
    let n := k.actor a.slot
    let entry : Access → Access := fun b =>
      { b with entry := true, tag := none, since := now, parked := decide (n.state ≠ .firing), tset := if n.state = .firing then n.tsetf else b.tset }
    let stateIs : FState → Prop := fun f => ∃ e, home = some e ∧ e.fstate = f
    let answers : AccAnswer → Prop := fun v => exec (.accessAtOwner core id) s = .next (s.answer core id v)
    let tickets : Nat → Prop := fun code => (s.owner o).svcs.find? (·.page == page) = none → (s.owner o).svcs.length < 64 →
      ∃ t, exec (.accessAtOwner core id) s = .next t ∧
        (t.owner o).svcs = (s.owner o).svcs ++ [{ page := page, tkt := (s.owner o).nextTkt, code := code, subs := [engineOf core] }] ∧
        ((t.core core).accs.find? (·.id == id)).bind (·.answer) = some (.ticket code (s.owner o).nextTkt 0)
    (arrived → stateIs .mapped → exec (.accessAtOwner core id) s = .next (s.perform o core a)) ∧
    (arrived → stateIs .replica ∨ stateIs .cow → s.treatedAsWrite a = false → exec (.accessAtOwner core id) s = .next (s.perform o core a)) ∧
    (arrived → stateIs .replica → s.treatedAsWrite a = true → tickets 4) ∧ (arrived → stateIs .cow → s.treatedAsWrite a = true → tickets 5) ∧
    (arrived → stateIs .migrating → tickets 3) ∧ (arrived → stateIs .absent ∨ stateIs .parked → tickets 1) ∧
    (arrived → home = none → (s.hintOf page).bind Hint.home = some o → (s.owner o).gone = false → tickets 1) ∧
    (arrived → stateIs .lost → answers .lost) ∧
    (∀ h, arrived → (∃ e, home = some e ∧ e.fstate = .moved ∧ e.newOwner = h) ∨ home = none ∧ (s.hintOf page).bind Hint.home = some h ∧ h ≠ o →
      (s.collapsing o page = false ∨ s.treatedAsWrite a = false → answers (if ownerIsBank o then .ticket 2 0 h else .fault 0x12 1 0)) ∧
      (∀ v, s.treatedAsWrite a = true → (s.owner o).svcs.find? (·.page == page) = some v → v.code = 4 → ∃ t,
        exec (.accessAtOwner core id) s = .next t ∧ ((t.core core).accs.find? (·.id == id)).bind (·.answer) = some (.ticket 4 v.tkt 0))) ∧
    (arrived → home = none → (s.hintOf page).bind Hint.home = none → answers (.fault 0x12 1 0)) ∧
    (came → (s.pkg (o / 512)).lost = true → answers .lost) ∧
    (there → k.behindTicket a = true → exec (.accessAtOwner core id) s =
      .next (s.onAcc core id fun b => { b with phase := .held, entry := true, tag := none })) ∧
    (there → k.behindTicket a = false → ¬turn →
      (k.busyBefore a = true ∨ (a.phase = .sent ∧ 256 ≤ s.storedAt (bankOf o a.ga)) → exec (.accessAtOwner core id) s =
        .next ((s.answerBusy core id).countOwner o 0x63 (some a.domain))) ∧
      (k.busyBefore a = false → a.phase = .sent → s.storedAt (bankOf o a.ga) < 256 → exec (.accessAtOwner core id) s =
        .next (s.onAcc core id fun b => { b with phase := .stored }))) ∧
    (∀ x ver i, a.phase = .answered → a.answer = some (.value [x] ver) → a.replay = false → a.orphan = false → a.destV = false →
      a.drop1 = false → k.threadOf a.fid = some i → a.group = 0 → ∃ t, exec (.accessAnswer core id) s = .next t ∧
        (t.core core).thread i = (k.thread i).writeX (BitVec.ofNat 5 a.dest) x ∧ (t.core core).accs = k.accs.filter (·.id != id) ∧
        t.actor core a.slot = if a.uncounted then n else if a.op.countsLoad then { n with cl := n.cl - 1 } else { n with cs := n.cs - 1 }) ∧
    (∀ v, a.phase = .answered → a.answer = some v → (∃ l n, v = .value l n) ∨ (∃ m x, v = .dataError m x) ∨ (∃ r m x, v = .fault r m x) ∨ v = .lost →
      (a.replay = false → exec (.accessAnswer core id) s = .next (s.onCore core fun k => k.actOn a v)) ∧
      (a.replay = true → exec (.replayAnswer core id) s = .next ((s.onCore core fun k => k.actOn a v).sendHeld core a.slot page))) ∧
    (a.phase = .busy → a.lastAt + 256 ≤ now → exec (.accessBusyResend core id) s =
      .next (s.onAcc core id fun b => { b with phase := .sent })) ∧
    (a.phase = .sent ∨ a.phase = .stored → a.tag.isSome = true → a.resent = false → a.firstAt + 18800 ≤ now → exec (.accessRetry core id) s =
      .next (s.onAcc core id fun b => { b with resent := true })) ∧
    (∀ n, a.phase = .sent ∨ a.phase = .stored ∨ a.phase = .busy ∨ a.phase = .answered → a.tag = some n → a.waited = false → a.firstAt + 47000 ≤ now →
      exec (.accessIndeterminate core id) s = .next (s.onCore core fun k => k.faultAccess a 0x34 0 (BitVec.ofNat 64 n))) ∧
    (a.waited = true → exec (.accessIndeterminate core id) s = .next s) ∧
    (∀ code tkt q, a.phase = .answered → a.answer = some (.ticket code tkt q) → a.orphan = false → code ≠ 2 → ∃ t, exec (.faultTicket core id) s = .next t ∧
      (t.core core).accs = k.accs.map fun b => if b.id = id then
        { entry b with phase := .ticketed, tkt := tkt, tktOwner := o, code := code, replay := false } else b) ∧
    (∀ tkt q, a.phase = .answered → a.answer = some (.ticket 2 tkt q) → a.orphan = false →
      let moved : Access → Access := fun b => { entry b with tkt := tkt, tktOwner := o, code := 2 }
      exec (.faultTicket core id) s = .next ((((s.countCore core 0x06 (some a.domain)).onAcc core id moved).replayTo core (moved a)
        (some q) true).sendHeld core a.slot page)) ∧
    (a.phase = .ticketed → a.orphan = false → a.since + 2 ^ 20 ≤ now → exec (.ticketTimeout core id) s =
      .next (s.onCore core fun k => k.die a.slot 0x31 0 0)) ∧
    (∀ n p ow tkt pg holder status e rest, s.packet n = some p → p.pay = .notice ow tkt pg holder status (e :: rest) → ∃ t, exec (.replayNotice n) s = .next t ∧
        (rest = [] → t.packet n = none) ∧
        ∀ c ∈ clusterCores e, ∀ x ∈ (t.core c).accs, ¬(x.phase = .ticketed ∧ x.tktOwner = ow ∧ x.tkt = tkt)) ∧
    (∀ ga r, k.refills.find? (fun r => !r.failed && r.cls == gaClass ga && r.range == gaRange ga) = some r →
      s.slotServed (s.rangeSlot r.range) = true →
      let s1 := s.firstTouch core r.cls r.range
      (∀ e, s1.refilled core r.domain r.cls r.range = some e → ∃ t, exec (.plbRefill core ga) s = .next t ∧
        (t.core core).plb.head? = some e ∧ r ∉ (t.core core).refills) ∧
      (s1.refilled core r.domain r.cls r.range = none → ∃ t, exec (.plbRefill core ga) s = .next t ∧ (t.core core).plb = k.plb ∧
        { r with failed := true } ∈ (t.core core).refills))

/-- R188, R192, R193, R339 to R348: the events of a copy engine: each burst that has been performed
moves its bytes and counts them, one that fails ends the request with its FCODE, one under way moves on a stage, and the last one ends it; a filled ring tile is published; the record of an ended request goes to the tail of the completion ring, CP
falls and the place is free; a request to the host ends with 0x0E after 940,000 cycles, a ticket with 0x12 after 2^20. -/
def Sys2Proof.Claims.CopyEvents : Prop :=
  ∀ (eng id : Nat) (j : Job) (s : State), (s.engine eng).active.find? (·.id == id) = some j → j.parcel = none →
    let k := s.core j.core
    let a := k.actor j.slot
    let dom := a.domain
    let runs : Prop := (s.pkg (eng / 256)).runs = true ∧ j.phase = .running ∧ s.jobLives j.core j.slot j.name = true ∧ (s.engine eng).gone = false
    let job : State → Option Job := fun t => (t.engine eng).active.find? (·.id == id)
    let moved : Nat → Nat → Nat → State → Prop := fun i n total t => ∃ q, job t = some q ∧ q.bytes = j.bytes + n ∧ q.done = i :: j.done ∧
      q.phase = if total ≤ j.done.length + 1 then (if j.kind = 6 then .filled else if j.refused = [] then .ended 0 0 else .ended 1 0x0F)
        else .running
    let failed : Nat → W64 → State → Prop := fun fc addr t => ∃ q, job t = some q ∧ q.faddr = addr ∧ q.bytes = j.bytes ∧
      (if j.kind = 6 then q.phase = .filled ∧ q.fcode = fc else q.phase = .ended 1 fc)
    let landed : RegEntry → Nat → List Byte → State → Prop := fun r va bs t => (t.core j.core).mem = k.mem.writeMap r.place va bs
    let reads : Instr → RegEntry → List Piece → Prop := fun ev r ps => ∀ p i, j.nextPiece ps = some (p, i) →
      (k.cowHit r (r.base * 1024 + p.off) p.n = true → exec ev s = .next s) ∧ (k.cowHit r (r.base * 1024 + p.off) p.n = false →
      (∀ s1 data, s.burstRun eng j p i false [] false = some (.done s1 data false) → k.bad = [] →
        ∃ t, exec ev s = .next t ∧ moved i p.n ps.length t ∧ landed r (r.base * 1024 + p.off) data t ∧ t.gmem = s.gmem) ∧
      (∀ fc s1, s.burstRun eng j p i false [] false = some (.fail fc s1) → ∃ t, exec ev s = .next t ∧ failed fc (BitVec.ofNat 64 p.ga) t ∧
        t.gmem = s.gmem ∧ (t.core j.core).mem = k.mem) ∧
      (∀ s1, s.burstRun eng j p i false [] false = some (.wait s1) → exec ev s = .next s1) ∧
      (s.burstRun eng j p i false [] false = none → exec ev s = .next s))
    let writes : Instr → (Piece → List Byte) → List Piece → Prop := fun ev bs ps => ∀ p i, j.nextPiece ps = some (p, i) →
      (∀ s1 data, s.burstRun eng j p i true (bs p) false = some (.done s1 data false) → ∃ t, exec ev s = .next t ∧ moved i p.n ps.length t ∧
        t.gmem = s1.gmem ∧ t.words = s1.words) ∧
      (∀ fc s1, s.burstRun eng j p i true (bs p) false = some (.fail fc s1) → ∃ t, exec ev s = .next t ∧ failed fc (BitVec.ofNat 64 p.ga) t ∧
        t.gmem = s.gmem) ∧
      (∀ s1, s.burstRun eng j p i true (bs p) false = some (.wait s1) → exec ev s = .next s1) ∧
      (s.burstRun eng j p i true (bs p) false = none → exec ev s = .next s)
    let r := k.region j.ridx
    let ps := j.pieces {}
    let g := a.ring j.kspec
    let at_ : Piece → List Byte := fun p => (List.range p.n).map fun x => k.mem.read (r.place (r.base * 1024 + p.off + x))
    let pat : Nat → List Byte := fun n => (List.range (n / 8)).flatMap fun _ => toBytes 8 (j.w[2]).toNat
    (runs → (j.kind = 1 → reads (.copyDramToRegion eng id) r ps) ∧ (j.kind = 8 → reads (.commonsBulkRead eng id) r ps) ∧
      (j.kind = 5 → reads (.gather eng id) r ps) ∧ (j.kind = 6 → reads (.ringFeed eng id) (k.region g.ridx) (j.pieces g)) ∧
      (k.bad = [] → (j.kind = 2 → writes (.copyRegionToDram eng id) at_ ps) ∧ (j.kind = 9 → writes (.commonsBulkWrite eng id) at_ ps)) ∧
      (j.kind = 10 → j.kspec = 1 → writes (.fillGlobal eng id) (fun p => pat p.n) ps) ∧
      (j.kind = 10 → j.kspec = 0 → k.bad = [] → ∀ p i, j.nextPiece ps = some (p, i) → k.cowHit r (r.base * 1024 + p.off) p.n = false → ∃ t, exec (.fillRegion eng id) s = .next t ∧
        moved i p.n ps.length t ∧ landed r (r.base * 1024 + p.off) (pat p.n) t ∧ t.gmem = s.gmem)) ∧
    (∀ p i, runs → j.kind = 4 → j.refused = [] → j.nextPiece ps = some (p, i) →
      let wl := (((s.flock (j.name.toNat / 2 ^ 48)).map (·.widths)).getD []).getLastD 48
      let wide := j.f 2 57 52 + 1
      let name : W64 := BitVec.ofNat 64 (j.name.toNat / 2 ^ 48 * 2 ^ 48 + (j.f 2 47 0 + p.target / wide * 2 ^ wl + p.target % wide) % 2 ^ 48)
      (∀ c x e, s.reach dom false name = .actor c x → s.slabRegion j c x p.target = some e →
        (p.n = 0 → ∃ t, exec (.slabScatter eng id) s = .next t ∧ moved i 0 ps.length t ∧ t.cores = s.cores) ∧
        (∀ s1 data, p.n ≠ 0 → (s.core c).cowHit e (e.base * 1024 + p.off) p.n = false →
          s.burstRun eng j p i false [] false = some (.done s1 data false) → (s.core c).bad = [] →
          ∃ t, exec (.slabScatter eng id) s = .next t ∧ moved i p.n ps.length t ∧
            (t.core c).mem = (s.core c).mem.writeMap e.place (e.base * 1024 + p.off) data)) ∧
      (s.reach dom false name = .nobody ∨ (∃ c x, s.reach dom false name = .actor c x ∧ s.slabRegion j c x p.target = none) →
        ∃ t q, exec (.slabScatter eng id) s = .next t ∧ t.cores = s.cores ∧ job t = some q ∧ q.refused = [name] ∧ q.faddr = name ∧ q.detail = 1 ∧
          q.bytes = j.bytes ∧ q.done = i :: j.done ∧ q.phase = if ps.length ≤ j.done.length + 1 then .ended 1 0x0F else .running)) ∧
    (∀ v, runs → j.kind = 7 → j.ghost = none → k.bindingOf j = some v →
      let cnt := v.toNat % 2 ^ 16
      let head := v.toNat / 2 ^ 16 % 2 ^ 16
      let n := r.size * 128
      let here := r.base * 1024 + 8 * ((head + cnt) % n)
      let word : Piece := { ga := (j.w[1]).toNat + j.bytes, n := 8, off := 0 }
      let last := decide (j.f 2 31 0 ≤ j.bytes + 8)
      let stops : Prop := ∃ t q, exec (.streamRequest eng id) s = .next t ∧ job t = some q ∧ q.phase = .ended 3 0
      let counted : Fin 4 → Bool → State → Prop := fun x closed t => exec (.streamRequest eng id) s = .next t ∧
        (∃ q, job t = some q ∧ q.bytes = j.bytes + 8 ∧ q.phase = if last = true then .ended 0 0 else .running) ∧
        ((t.core j.core).thread x).st[sIndex (BitVec.ofNat 5 j.kspec)] = sMake (v.getLsbD 62) closed (v.toNat / 2 ^ 48 % 2 ^ 8) head (cnt + 1)
      (v.getLsbD 62 = false → v.getLsbD 61 = true → stops) ∧
      (v.getLsbD 62 = false → v.getLsbD 61 = false → n ≤ cnt → exec (.streamRequest eng id) s = .next s) ∧
      (∀ x s1 data, j.bytes % 8 = 0 → v.getLsbD 62 = false → v.getLsbD 61 = false → cnt < n → k.cowHit r here 8 = false → k.bad = [] → k.threadOf j.fid = some x →
        s.burstRun eng j word (j.bytes / 8) false [] false = some (.done s1 data false) → ∃ t, counted x last t ∧ landed r here data t) ∧
      (v.getLsbD 62 = true → n ≤ cnt → (v.getLsbD 61 = true → stops) ∧ (v.getLsbD 61 = false → exec (.streamRequest eng id) s = .next s)) ∧
      (∀ x s1 data, j.bytes % 8 = 0 → v.getLsbD 62 = true → cnt < n → k.bad = [] → k.threadOf j.fid = some x →
        s.burstRun eng j word (j.bytes / 8) true (k.readIn r here 8) false = some (.done s1 data false) →
        ∃ t, counted x (v.getLsbD 61) t ∧ t.gmem = s1.gmem ∧ t.words = s1.words)) ∧
    (j.phase = .filled → (∀ q ∈ (s.engine eng).active, q.core = j.core → q.slot = j.slot → q.kind = 6 → q.kspec = j.kspec → j.id ≤ q.id) →
      j.kspec < 4 → ∃ t, exec (.ringFeedPublish eng id) s = .next t ∧ (∃ q, job t = some q ∧ q.phase = if j.fcode = 0 then .ended 0 0 else .ended 1 j.fcode) ∧
        (t.actor j.core j.slot).ring j.kspec = { g with tail := (g.tail + 1) % g.depth, cnt := g.cnt + 1, feed := g.feed - 1 }) ∧
    (∀ status fcode, j.phase = .ended status fcode → s.jobLives j.core j.slot j.name = true → ∃ t, exec (.copyCompletion eng id) s = .next t ∧
      (let n := t.actor j.core j.slot
       n.cp = a.cp - 1 ∧ n.crCnt = a.crCnt + 1 ∧ n.crResv = a.crResv - 1) ∧ (t.engine eng).active = (s.engine eng).active.filter (·.id != id) ∧
      let bad : Bool := status == 1
      let m := k.mem.writeN (k.regionBase a.cring + 32 * ((a.crHead + a.crCnt) % a.crDepth)) (([
        BitVec.ofNat 64 (2 ^ 63 + j.kind * 2 ^ 56 + status * 2 ^ 52 + (if bad then fcode * 2 ^ 40 else 0) +
          (if bad && j.localAddr then 2 ^ 34 else 0) + j.tset % 4 * 2 ^ 32 + reqTag j.w[0]),
        BitVec.ofNat 64 j.bytes, if bad then j.faddr else 0,
        BitVec.ofNat 64 ((if bad then j.detail.toNat * 2 ^ 32 else 0) + s.now j.core % 2 ^ 32)] : List W64).flatMap fun v => toBytes 8 v.toNat)
      (t.core j.core).mem = if a.state = .preempted then m.write64 (0x5C000 + 0x800 * a.save + 0x570) (t.actor j.core j.slot).opcnt else m) ∧
    (∀ b, runs → j.bursts.find? (fun b => b.host && decide (b.phase = .sent) && decide (b.firstAt + 940000 ≤ s.now j.core)) = some b → ∃ t,
      exec (.copyHostTimeout eng id) s = .next t ∧ failed 0x0E (BitVec.ofNat 64 b.ga) t) ∧
    (∀ b, runs → j.bursts.find? (fun b => decide (b.phase = .ticketed) && decide (b.since + 2 ^ 20 ≤ s.now j.core)) = some b → ∃ t,
      exec (.copyTicketTimeout eng id) s = .next t ∧ failed 0x12 (BitVec.ofNat 64 b.ga) t)

/-- R97, R107, R123, R125, R138, R340, R347, R348: the stages of a burst of a request: one that the class, the rights or the lack of a record refuses
fails with its FCODE; on a mapped page of the engine's package it is performed at once, with the bytes it reads or writes; to another package it
leaves with a tag, is sent again once after 18,800 cycles and fails with 0x11 when no answer has come after 47,000; to the host it leaves and waits;
an absent page gives it a ticket, with the operands it has captured, and it stays until the notice; while the engine's table is full it pauses; a refill that
goes unanswered keeps it back; one that has its answer is over. -/
def Sys2Proof.Claims.BurstsRun : Prop :=
  ∀ (eng : Nat) (j : Job) (p : Piece) (i : Nat) (write : Bool) (data : List Byte) (s : State),
    let run := s.burstRun eng j p i write data false
    let go := s.burstGo eng j p.ga write
    let b0 : Burst := { ga := p.ga, idx := i, write := write, data := data }
    let now := s.now j.core
    let new : Prop := (∀ b ∈ j.bursts, b.idx ≠ i) ∧ (p.ga < 2 ^ 57 → s.plbWaits eng (s.actor j.core j.slot).domain p.ga = false)
    let here : Nat → State → Prop := fun o s1 => o / 512 = eng / 256 ∧ (s1.pkg (o / 512)).lost = false ∧ (s1.pkg (o / 512)).runs = true
    let notes : Burst → State → State → Prop := fun b s1 s2 => ∀ q, (s1.engine eng).active.find? (·.id == j.id) = some q →
      ∃ q2, (s2.engine eng).active.find? (·.id == j.id) = some q2 ∧ q2.bursts = (q.bursts.filter fun x => x.idx != i) ++ [b]
    ((∀ b ∈ j.bursts, b.idx ≠ i) → p.ga < 2 ^ 57 → s.plbWaits eng (s.actor j.core j.slot).domain p.ga = true → run = none) ∧
    (∀ fc s1, new → go = .fail fc s1 → run = some (.fail fc s1)) ∧
    (∀ o s1, new → go = .go (some o) s1 → here o s1 → s1.pageAt o (p.ga / 65536) = .held .mapped → ∃ s2 d bad, run = some (.done s2 d bad) ∧
      (write = false → d = (s1.burstRead (some o) p.ga p.n).1 ∧ bad = (s1.burstRead (some o) p.ga p.n).2 ∧ s2.gmem = s.gmem ∧ s2.words = s.words) ∧
      (write = true → bad = false ∧ (ownerIsBank o = false → s2.gmem = s.gmem.writeN p.ga data) ∧
        (ownerIsBank o = true → ∀ x, x < data.length / 8 →
          (s2.word (p.ga / 8 + x)).data = BitVec.ofNat 64 (ofBytes ((data.drop (8 * x)).take 8)) ∧
            (s2.word (p.ga / 8 + x)).hasval = true ∧ (s2.word (p.ga / 8 + x)).ver = (s.word (p.ga / 8 + x)).ver + 1))) ∧
    (∀ o s1, new → go = .go (some o) s1 → o / 512 ≠ eng / 256 → ∃ s2, run = some (.wait s2) ∧
      (s2.engine eng).tag = ((s1.engine eng).tag + 1) % 2 ^ 32 ∧
      notes { b0 with phase := .sent, owner := o, tag := some (s1.engine eng).tag, firstAt := now } s1 s2) ∧
    (∀ s1, new → go = .go none s1 → ∃ s2, run = some (.wait s2) ∧ notes { b0 with phase := .sent, host := true, firstAt := now } s1 s2) ∧
    (∀ o s1, new → go = .go (some o) s1 → here o s1 → s1.pageAt o (p.ga / 65536) = .held .absent → gaClass p.ga ≠ 2 →
      (64 ≤ (s1.engine eng).tickets → ∃ s2, run = some (.wait s2) ∧ notes { b0 with phase := .paused } s1 s2) ∧
      ((s1.engine eng).tickets < 64 → (s1.owner o).svcs.find? (·.page == p.ga / 65536) = none → (s1.owner o).svcs.length < 64 →
      ∃ s2, run = some (.wait s2) ∧ (s2.owner o).svcs = (s1.owner o).svcs ++
        [{ page := p.ga / 65536, tkt := (s1.owner o).nextTkt, code := 1, subs := [eng] }] ∧
        notes { b0 with phase := .ticketed, entry := true, tkt := (s1.owner o).nextTkt, owner := o, code := 1, since := s1.now j.core } s1 s2)) ∧
    (∀ b, j.bursts.find? (fun b => b.idx == i) = some b →
      (b.phase = .ticketed → run = none) ∧ (b.phase = .paused → 64 ≤ (s.engine eng).tickets → run = none) ∧
      (b.phase = .sent → b.host = true → now < b.firstAt + 940000 → ∃ s2 d bad, run = some (.done s2 d bad) ∧
        (b.write = false → d = (s.burstRead none b.ga p.n).1) ∧ (b.write = true → s2.gmem = s.gmem.writeN b.ga b.data)) ∧
      (b.phase = .answered ∨ b.phase = .busy ∨ (b.phase = .sent ∧ b.host = false) → b.tag.isSome = true → b.firstAt + 47000 ≤ now →
        run = some (.fail 0x11 s)) ∧
      (b.phase = .sent → b.host = false → b.tag.isSome = true → b.resent = false → b.firstAt + 18800 ≤ now → now < b.firstAt + 47000 →
        run = some (.wait (s.putBurst eng j.id { b with resent := true }))) ∧
      (b.phase = .answered → ¬(b.tag.isSome = true ∧ b.firstAt + 47000 ≤ now) → run = some (.done (s.dropBurst eng j.id i) b.data b.bad)))

/-- R192, R193, R341: an engine starts the next request in its round whose record has room and whose core has fewer than four places: it leaves
the FIFO for a place, a record is reserved, and where a check fails it has ended with its FCODE, FADDR, LOCAL and DETAIL; one that passes is
running, or is done where it has nothing to move. -/
def Sys2Proof.Claims.CopyStarts : Prop :=
  ∀ (eng c : Nat) (r : CopyReq) (rest : List CopyReq) (s : State), let g := s.engine eng
    g.gone = false → g.active.length < 16 → (s.pkg (eng / 256)).runs = true →
    (s.copyOrder eng).find? (fun x => (s.canStart eng x).isSome) = some c → (s.core c).fifo = r :: rest → r.parcel = none →
    let a := (s.core c).actor r.slot
    let j : Job := { id := g.next, core := c, slot := r.slot, name := r.name, tset := r.tset, fid := r.fid, w := r.w, startAt := s.now c }
    (a.crCnt + a.crResv < a.crDepth) ∧ ∃ t, exec (.copyStart eng) s = .next t ∧ (t.core c).fifo = rest ∧
      (t.actor c r.slot).crResv = a.crResv + 1 ∧
      ((∀ q ∈ g.active, q.id ≠ g.next) → ∃ q, (t.engine eng).active.find? (·.id == g.next) = some q ∧ q.core = c ∧ q.slot = r.slot ∧ q.w = r.w ∧
        q.bytes = 0 ∧ (r.cancelled = true → q.phase = .ended 2 0) ∧
        (r.cancelled = false → (∀ f, s.copyCheck j = some f →
            q.phase = .ended 1 f.fcode ∧ q.faddr = f.faddr ∧ q.localAddr = f.localAddr ∧ q.detail = f.detail) ∧
          (s.copyCheck j = none →
            (j.kind ∈ [1, 2, 8, 9, 10] → q.phase = if j.f 3 31 0 = 0 then .ended 0 0 else .running) ∧
            (j.kind = 4 → 0 < j.f 3 43 24 → q.phase = .running) ∧
            (j.kind = 5 → ((s.core c).gatherList j).2 = false → q.phase = if j.f 3 15 0 = 0 ∨ j.f 3 31 16 = 0 then .ended 0 0 else .running) ∧
            (j.kind = 6 → q.phase = .running ∧ ((t.actor c r.slot).ring j.kspec).feed = (a.ring j.kspec).feed + 1) ∧
            (j.kind = 7 → j.f 2 31 0 ≠ 0 → q.phase = .running)))) ∧
      t.gmem = s.gmem ∧ (reqKind r.w[0] ≠ 7 → (t.core c).mem = (s.core c).mem)

/-- R340 to R345: the checks before any access, in the order of their codes: an unused kind (0x01), reserved fields (0x02), the region or a gather's
list: not the actor's (0x03), of another kind (0x04), without the right (0x05), too short (0x06); a misaligned field (0x07), a ring not there or
full (0x0C), and a stream register that does not bind the region or is closed (0x0D). What FADDR holds for 0x06, the right that a stream request
needs and which of two regions is named are the model's (log 72). -/
def Sys2Proof.Claims.CopyChecks : Prop :=
  ∀ (j : Job) (s : State),
    let k := s.core j.core
    let f := j.f
    let i := j.ridx
    let e := k.region i
    let wl := (((s.flock (j.name.toNat / 2 ^ 48)).map (·.widths)).getD []).getLastD 48
    let fields := (((s.flock (j.name.toNat / 2 ^ 48)).map (·.widths)).getD []).length
    let gives : Option Refused → Prop := fun r => s.copyCheck j = r
    let unused : Prop := j.kind = 0 ∨ j.kind = 3 ∨ 11 ≤ j.kind
    let reserved : Prop := f 0 47 16 ≠ 0 ∨ (j.kind = 4 ∨ j.kind = 6 ∨ j.kind = 10 ∧ j.kspec = 1) ∧ i ≠ 0 ∨
      j.kind ∈ [1, 2, 8, 9] ∧ (j.kspec ≠ 0 ∨ f 2 63 20 ≠ 0 ∨ f 3 63 32 ≠ 0) ∨
      j.kind = 10 ∧ (2 ≤ j.kspec ∨ f 3 63 32 ≠ 0 ∨ j.kspec = 0 ∧ f 1 63 20 ≠ 0) ∨
      j.kind = 4 ∧ (j.kspec ≠ 0 ∨ f 2 51 48 = 15 ∨ 2 ^ wl < f 2 57 52 + 1 ∨ f 2 63 58 ≠ 0 ∧ fields = 1) ∨ j.kind = 5 ∧ (j.kspec ≠ 0 ∨ f 2 63 40 ≠ 0) ∨
      j.kind = 6 ∧ (4 ≤ j.kspec ∨ f 2 63 16 ≠ 0 ∨ f 3 63 0 ≠ 0) ∨ j.kind = 7 ∧ (4 ≤ j.kspec ∨ f 2 63 32 ≠ 0 ∨ f 3 63 0 ≠ 0)
    let at_ : Nat → Nat → Nat → RegEntry → Option Refused := fun code n off e =>
      some { fcode := code, faddr := BitVec.ofNat 64 (e.base * 1024 + off), localAddr := true, detail := BitVec.ofNat 32 n }
    let region : Nat → Bool → Nat → Nat → Option Refused := fun kind may off n =>
      if i < 248 ∧ e.liveOf j.slot = false then some { fcode := 3, detail := BitVec.ofNat 32 i }
      else if e.kind ≠ kind then at_ 4 i 0 e else if may = false then at_ 5 i 0 e
      else if 0 < n ∧ e.size * 1024 < off + n then at_ 6 i off e else none
    let list : Option Refused :=
      match k.findRegion j.slot (f 2 19 0) with
      | none => some { fcode := 3, faddr := BitVec.ofNat 64 (f 2 19 0), localAddr := true, detail := 0xFFFFFFFF }
      | some (m, q) =>
        if q.kind ≠ 0 then at_ 4 m 0 q else if q.rd = false then at_ 5 m 0 q
        else if (q.base + q.size) * 1024 < f 2 19 0 + 4 * f 3 15 0 then
          some { fcode := 6, faddr := BitVec.ofNat 64 (f 2 19 0), localAddr := true, detail := BitVec.ofNat 32 m } else none
    let aligned : List (Nat × Nat × Option Bool × Nat) → Option Refused := fun l => (l.find? fun x => decide (x.1 % x.2.1 ≠ 0)).map fun x =>
      { fcode := 7, faddr := if x.2.2.1.isSome then BitVec.ofNat 64 x.1 else 0, localAddr := x.2.2.1.getD false, detail := BitVec.ofNat 32 x.2.2.2 }
    let w1 : Nat × Nat × Option Bool × Nat := ((j.w[1]).toNat, 8, some false, 1)
    let len : Nat × Nat × Option Bool × Nat := (f 3 31 0, 8, none, 3)
    let g := (k.actor j.slot).ring j.kspec
    let bound : W64 → Prop := fun v => v.getLsbD 63 = true ∧ v.toNat / 2 ^ 48 % 2 ^ 8 = i
    (unused → gives (some { fcode := 1 })) ∧ (¬unused → reserved → gives (some { fcode := 2 })) ∧
    (¬unused → ¬reserved →
      (j.kind ∈ [1, 2, 8, 9] → gives ((region 0 (if j.kind = 1 ∨ j.kind = 8 then e.wr else e.rd) (f 2 19 0) (f 3 31 0)).or
        (aligned [w1, (f 2 19 0, 8, none, 2), len]))) ∧
      (j.kind = 10 → j.kspec = 0 → gives ((region 0 e.wr (f 1 19 0) (f 3 31 0)).or (aligned [(f 1 19 0, 8, none, 1), len]))) ∧
      (j.kind = 10 → j.kspec = 1 → gives (aligned [w1, len])) ∧
      (j.kind = 4 → gives (aligned [w1, (f 3 63 44, 8, none, 3), (f 3 43 24, 8, none, 3)])) ∧
      (j.kind = 5 → gives (match region 0 e.wr (f 2 39 20) (f 3 15 0 * f 3 31 16), list with
        | none, none => aligned [w1, (f 2 19 0, 4, some true, 2), (f 2 39 20, 8, none, 2), (f 3 31 16, 8, none, 3), (f 3 63 32, 8, none, 3)]
        | some x, none => some x
        | none, some y => some y
        | some x, some y => some (if y.fcode < x.fcode then y else x))) ∧
      (j.kind = 6 → gives ((aligned [w1, (f 2 15 0, 8, none, 2)]).or
        (if g.valid = false ∨ g.depth ≤ g.cnt + g.feed then some { fcode := 0x0C, detail := BitVec.ofNat 32 j.kspec } else none))) ∧
      (∀ v, j.kind = 7 → k.bindingOf j = some v → bound v → gives ((region kStream (if v.getLsbD 62 then e.rd else e.wr) 0 0).or
        ((aligned [w1, (f 2 31 0, 8, none, 2)]).or (if v.getLsbD 61 then some { fcode := 0x0D, detail := BitVec.ofNat 32 j.kspec } else none)))) ∧
      (j.kind = 7 → (∀ v, k.bindingOf j = some v → ¬bound v) → gives ((region kStream true 0 0).or
        ((aligned [w1, (f 2 31 0, 8, none, 2)]).or (some { fcode := 0x0D, detail := BitVec.ofNat 32 j.kspec })))))

/-- R188, R192, R193, R339 to R348: copy requests, from their checks and their start to their record; where the words of R340 leave a field of a refused
request open, the model's reading is log 72. -/
def Obligations.CopyServed : Prop := Claims.CopyEvents ∧ Claims.BurstsRun ∧ Claims.CopyStarts ∧ Claims.CopyChecks

/-- R102, R105, R107, R108, R124, R129, R130, R136, R137, R146 to R148, R384, R410, R419: the events of pages: a first mapping takes a free frame
that reads zero and posts the replay notice; a shootdown leaves no PLB entry of the range; a page that was lost at another owner stays so; a collapse splits the record, sends a drop to each
live replica owner and ends at the home, mapped there, with the notice last; a migrating page is answered so at both owners and then held by the new one alone,
with its waits, or goes on at the old one as it was; a retired frame joins the bad-frame list, its page copied or lost; a reclaimed page leaves its owners; a scrub records what it finds; the management firmware writes records, exports
and images, and no record whose replica owners are not all live. Several moments and lists of these events are the model's readings and choices (logs 21, 22, 47 and 53 to 60, 74); what a scrub finds
is an argument (log 9). -/
def Obligations.PageEvents : Prop :=
  ∀ (o page n : Nat) (s : State),
    let w := s.owner o
    let e := w.homes.get {} page
    let inOwner : State → Nat → HomeEntry := fun t q => (t.owner q).homes.get {} page
    let noticed : State → Nat → Nat → Prop := fun t holder status => ∀ v, w.svcs.find? (·.page == page) = some v →
      (∀ x ∈ (t.owner o).svcs, x.page ≠ page) ∧ ∃ m p, t.packet m = some p ∧ p.pay = .notice o v.tkt page holder status v.clusters
    let firmware : Nat → Prop := fun range => (s.pkg (s.dirPackage (s.rangeSlot range))).quiesced 1 = false
    (∀ h f v s1, w.svcs.find? (fun v => v.page == page && v.code == 1) = some v → s.hintOf page = some h → s.freeFrame o = some f →
      gaClass (page * 65536) < 2 → s.bindKey o h.domain = some s1 → h.home = some o → s.ownerLive o = true → s.pageAt o page = .held .absent → h.duplicated page = false →
      s.lostElsewhere o page = false →
      ∃ t, exec (.firstMapping o page) s = .next t ∧ noticed t o 0 ∧ (inOwner t o).fstate = .mapped ∧ (inOwner t o).frame = f ∧
        (inOwner t o).keyslot = (if ownerIsBank o then 0 else s1.keyslot (o / 512) h.domain) ∧
        (if ownerIsBank o then ∀ x, x / 8192 = page → t.word x = {} else ∀ x, x / 65536 = page → t.gmem.read x = 0)) ∧
    (∀ h f v, w.svcs.find? (fun v => v.page == page && v.code == 1) = some v → s.hintOf page = some h → s.freeFrame o = some f →
      s.lostElsewhere o page = true → ∃ t, exec (.firstMapping o page) s = .next t ∧ noticed t o 1 ∧ (inOwner t o).fstate = .lost) ∧
    (∀ p cls range, s.packet n = some p → p.pay = .shootdown cls range → ∃ t, exec (.shootdown n) s = .next t ∧ t.packet n = none ∧
      (∀ c, ∀ x ∈ (t.core c).plb, ¬(x.cls = cls ∧ x.range = range)) ∧ ∀ g, ∀ x ∈ (t.engine g).plb, ¬(x.cls = cls ∧ x.range = range)) ∧
    (∀ p tkt h home, s.packet n = some p → p.pay = .collapse o page tkt → s.hintOf page = some h → h.policy = 3 → h.home = some home →
      ∃ t, exec (.directoryCollapse n) s = .next t ∧
        t.hintOf page = some { h with split := true, gen := h.gen + 1
                                      spmap := if h.mu then h.spmap ||| (1#32 <<< (page % 32)) else BitVec.allOnes 32 } ∧
        ∀ q ∈ h.replicas, q ≠ home → s.ownerLive q = true → ∃ m r pages first, t.packet m = some r ∧ r.pay = .drop q home pages first ∧
          page ∈ pages) ∧
    (∀ p home pages first, s.packet n = some p → p.pay = .drop o home pages first → w.moved.length + pages.length ≤ 1024 → page ∈ pages →
      e.fstate = .replica ∨ e.fstate = .cow ∨ e.fstate = .migrating → ∃ t, exec (.replicaDrop n) s = .next t ∧ t.packet n = none ∧ t.pageAt o page = .elsewhere home ∧
        (s.collapsing o page = true → ∀ v ∈ w.svcs, v.page = page → v ∈ (t.owner o).svcs)) ∧
    (∀ p tkt home drops, s.packet n = some p → p.pay = .collapseDone o page tkt home drops → n < s.serial →
      (∀ d ∈ drops, s.packet d = none) → ∃ t, exec (.collapseComplete n) s = .next t ∧ t.packet n = none ∧
        noticed t (((s.hintOf page).bind Hint.home).getD home) 0 ∧
        ∀ h q x, s.hintOf page = some h → h.home = some q → h.duplicated page = false → s.dropping page = false →
          (s.owner q).homes.find page = some x → x.fstate = .replica → (inOwner t q).fstate = .mapped) ∧
    (∀ h q f s1, s.hintOf page = some h → h.home = some o → gaClass (page * 65536) < 2 → s.bindKey q h.domain = some s1 → h.policy = 2 → (h.nkeep = 0 ∨ q / 512 ∈ h.kept) → s.movedRoom o page = true →
      s.rangeMigrations page = [] → s.pageAt o page = .held .mapped ∨ s.pageAt o page = .held .parked → o ≠ q → ownerIsBank o = ownerIsBank q → s.ownerLive q = true →
      s.canReserve o q page = true → s.freeFrame q = some f → ∃ t, exec (.migrationBegin page q) s = .next t ∧
        (inOwner t o).fstate = .migrating ∧ (inOwner t o).prior = e.fstate ∧ (inOwner t q).fstate = .migrating ∧ (inOwner t q).frame = f ∧
        t.migrations = s.migrations ++ [⟨page, o, q⟩] ∧ t.banks = s.banks) ∧
    (∀ m q, s.migrations.find? (fun m => m.page == page && decide (s.pageAt m.oldOwner page = .held .migrating)) = some m → m.oldOwner = o →
      m.newOwner = q → o ≠ q → w.moved.length < 1024 →
      let goes : Prop := ∃ h, s.hintOf page = some h ∧ (h.home = some q ∨ h.home = some o ∧ s.mayMove h page o q = true)
      (goes → ∃ t, exec (.migrationEnd page) s = .next t ∧ t.pageAt o page = .elsewhere q ∧ (inOwner t q).fstate = .mapped ∧ noticed t q 0 ∧
        ∀ i < 4, (t.bank (q * 4 + i)).conts = (s.bank (q * 4 + i)).conts ++ (s.bank (o * 4 + i)).conts.filter (fun x => x.word / 8192 == page) ∧
          ∀ x ∈ (t.bank (o * 4 + i)).conts, x.word / 8192 ≠ page) ∧
      (¬goes → ∃ t, exec (.migrationEnd page) s = .next t ∧ (inOwner t o).fstate = e.prior ∧ (t.owner q).homes.find page = none)) ∧
    (∀ f, w.homes.find page = some e → 8 ≤ e.corrected.length → s.freeFrame o = some f → s.ownerLive o = true → s.migrations = [] →
      (e.fstate = .mapped ∨ e.fstate = .replica → ∀ b, ∃ t, exec (.frameRetirement o page b) s = .next t ∧
        (inOwner t o).fstate = .migrating ∧ (inOwner t o).prior = e.fstate) ∧
      (e.fstate = .migrating → s.badPage page = false → ∃ t, exec (.frameRetirement o page true) s = .next t ∧ (inOwner t o).fstate = e.prior ∧
        (inOwner t o).frame = f ∧ (inOwner t o).corrected = [] ∧ noticed t o 0 ∧ badEntry o e.frame ∈ (t.pkg (o / 512)).badFrames) ∧
      (e.fstate = .migrating → ∃ t, exec (.frameRetirement o page false) s = .next t ∧ (inOwner t o).fstate = .lost ∧ noticed t o 1 ∧
        badEntry o e.frame ∈ (t.pkg (o / 512)).badFrames)) ∧
    (s.holders page = [o] → s.pageAt o page = .held .mapped → (∀ v ∈ w.svcs, v.page ≠ page) → ∃ t, exec (.pageReclaim page) s = .next t ∧
      (t.owner o).homes.find page = none ∧ (ownerIsBank o = true → (∀ x, x / 8192 = page → t.word x = {}) ∧
        ∀ i < 4, ∀ x ∈ (t.bank (o * 4 + i)).conts, x.word / 8192 ≠ page)) ∧
    (∀ off, w.homes.find page = some e → e.fstate = .mapped → off < 65536 → s.ownerLive o = true →
      let word := page * 8192 + off / 8
      exec (.patrolScrub o page off .clean) s = .next s ∧
      (∃ t, exec (.patrolScrub o page off .uncorrectable) s = .next t ∧
        if ownerIsBank o then t.word word = { s.word word with poison := true } else word ∈ t.gbad) ∧
      (ownerIsBank o = false → ∃ t, exec (.patrolScrub o page off .corrected) s = .next t ∧ word % 8192 ∈ (inOwner t o).corrected ∧
        (inOwner t o).corrected.length ≤ e.corrected.length + 1) ∧
      (ownerIsBank o = true → ∃ t, exec (.patrolScrub o page off .metadata) s = .next t ∧ (t.word word).poison = true ∧
        (t.word word).data = (s.word word).data)) ∧
    (ownerIsBank o = true → s.pageAt o page = .held .mapped → s.ownerLive o = true →
      (∀ i < 4, (∀ x ∈ (s.bank (o * 4 + i)).conts, x.word / 8192 ≠ page) ∧ ∀ x ∈ (s.bank (o * 4 + i)).trigs, x.word / 8192 ≠ page) →
      exec (.pageParking o page) s = .next ((s.leaveFrame o e).onHome o page fun e => { e with fstate := .parked, corrected := [] })) ∧
    (s.pageAt o page = .held .cow → s.ownerLive o = true → ∃ t, exec (.cowPageService o page) s = .next t ∧ (inOwner t o).fstate = e.back ∧
      noticed t o 0) ∧
    (∀ c g, g ∈ (s.core c).cow → exec (.cowGranuleCopy c g) s = .next (s.onCore c fun k => { k with cow := k.cow.filter (· != g) })) ∧
    (∀ cls range d0 d1 d2, cls < 2 → range < 2 ^ 33 → firmware range → (d0 : W64).extractLsb' 32 2 = 0 → (d0.extractLsb' 34 3).toNat ≤ 4 →
      (d2 : W64).extractLsb' 0 42 = 0 → d0.extractLsb' 37 3 ≠ 3 → d0.extractLsb' 48 2 = 3 → s.hints.find (cls * 2 ^ 33 + range) = none →
      ∃ t h, exec (.hintRecordWrite cls range [d0, d1, d2, 0]) s = .next t ∧ t.hints.find (cls * 2 ^ 33 + range) = some h ∧ h.tier = 3 ∧
        h.policy = (d0.extractLsb' 37 3).toNat ∧ h.domain = d2.extractLsb' 48 16 ∧ h.orights = d2.extractLsb' 45 3 ∧
        h.grights = d2.extractLsb' 42 3 ∧ h.gen = (d1 : W64).extractLsb' 48 16 ∧ h.mu = d0.getLsbD 41 ∧ h.nkeep = (d0.extractLsb' 34 3).toNat) ∧
    (∀ cls range l h, cls < 3 → range < 2 ^ 33 → firmware range → l ≠ [] → s.hints.find (cls * 2 ^ 33 + range) = none →
      Hint.ofWords l (BitVec.ofNat 16 (((l[1]?).getD 0).toNat / 2 ^ 48)) = some h → h.suits cls = true → h.home.all s.ownerExists = true →
      ((h.policy = 3 → ∀ q ∈ h.replicas, s.ownerLive q = true) → ∃ t, exec (.hintRecordWrite cls range l) s = .next t ∧
        t.hints.find (cls * 2 ^ 33 + range) = some h) ∧
      (h.policy = 3 → ∀ q ∈ h.replicas, s.ownerLive q = false → exec (.hintRecordWrite cls range l) s = .next s)) ∧
    (∀ cls range, cls < 3 → range < 2 ^ 33 → firmware range → (s.hints.find (cls * 2 ^ 33 + range)).isSome = true → ∃ t,
      exec (.hintRecordWrite cls range []) s = .next t ∧ t.hints.find (cls * 2 ^ 33 + range) = none ∧
      ∃ m p, t.packet m = some p ∧ p.pay = .shootdown cls range) ∧
    (∀ pkg range dom rights, (s.pkgs.find pkg).isSome = true → range < 2 ^ 33 → rights < 4 → (s.pkg pkg).quiesced 1 = false →
      ((∃ c ∈ (s.pkg pkg).conns, c.2.domain = BitVec.ofNat 16 dom) → ∃ t, exec (.exportTableWrite pkg range dom rights true) s = .next t ∧
        (t.pkg pkg).exports.find range = some ⟨BitVec.ofNat 16 dom, BitVec.ofNat 2 rights⟩) ∧
      (((s.pkg pkg).exports.find range).isSome = true → ∃ t, exec (.exportTableWrite pkg range dom rights false) s = .next t ∧
        (t.pkg pkg).exports.find range = none ∧ ∃ m p, t.packet m = some p ∧ p.pay = .shootdown 3 range)) ∧
    (∀ ga body, body ≠ [] → gaClass ga = 2 → gaClass (ga + (body.length - 1)) = 2 → ga + (body.length - 1) < 2 ^ 56 →
      let last := (ga + (body.length - 1)) / 65536
      (∀ p, ga / 65536 ≤ p → p ≤ last → ∃ q, (s.hintOf p).bind Hint.home = some q ∧ ownerIsBank q = false ∧ (s.pkg (q / 512)).quiesced 1 = false ∧
        (p ∈ s.placed ∨ ga / 65536 = last ∧ (s.freeFrame q).isSome = true)) → ∃ t,
      exec (.imageStoreWrite ga body) s = .next t ∧ (∀ i (h : i < body.length), t.gmem.read (ga + i) = body[i]) ∧
      ∀ x, x < ga ∨ ga + body.length ≤ x → t.gmem.read x =
        if x / 65536 = ga / 65536 ∧ ga / 65536 ∉ s.placed then 0 else s.gmem.read x)

/-- R383, R386, R390: what fails goes: a quarantined core takes part no more and each of its actors dies with CORE_LOST; a core without its
matrix unit ends the actors that declare it; a withdrawn memory core's pages are lost; a withdrawn cluster goes with its cores, its engine and
its frames, and leaves every grant. Where pages of a withdrawn cluster go, and when units are withdrawn, are the model's readings (logs 61 and
62). -/
def Obligations.Withdrawals : Prop :=
  ∀ (core eng : Nat) (s : State),
    let lost : State → Nat → Nat → Prop := fun t c i => (t.actor c i).state = .dying ∧
      (t.actor c i).dying = some { reason := 0x40, sub := 0, detail := 0 }
    (coreIsMem core = false → s.coreLive core = true → ∃ t, exec (.coreQuarantine core) s = .next t ∧ (t.core core).gone = true ∧
      ∀ p ∈ (s.core core).slots, (s.actor core p.1).state.mortal = true → lost t core p.1) ∧
    (coreIsMem core = false → s.coreLive core = true → (s.core core).mxLost = false → s.matrixFails core = true → ∃ t,
      exec (.matrixWithdrawal core) s = .next t ∧ (t.core core).mxLost = true ∧ (t.core core).gone = (s.core core).gone ∧
      (∀ p ∈ (s.core core).slots, p.2.mxdecl = true → (s.actor core p.1).state.mortal = true → lost t core p.1) ∧
      ∀ i, (∀ p ∈ (s.core core).slots, p.1 = i → p.2.mxdecl = false) → t.actor core i = s.actor core i) ∧
    (coreIsMem core = true → s.coreLive core = true → s.migrations = [] →
      let o := memOwner core
      (∀ p ∈ (s.owner o).homes, s.farReplica o p.1 = false) → ∃ t, exec (.memoryCoreWithdrawal core) s = .next t ∧
        (t.core core).gone = true ∧ (t.owner o).gone = true ∧
        (∀ p ∈ (s.owner o).homes, p.2.fstate = .mapped → ((t.owner o).homes.get {} p.1).fstate = .lost) ∧
        ∀ p ∈ (s.core core).slots, (s.actor core p.1).state.mortal = true → lost t core p.1) ∧
    ((s.pkgs.find (eng / 256)).isSome = true → (s.pkg (eng / 256)).lost = false → (s.pkg (eng / 256)).halted = false →
      (s.engine eng).gone = false → ∃ t,
      exec (.clusterWithdrawal eng) s = .next t ∧ (t.engine eng).gone = true ∧ (t.owner (bankOwner eng)).gone = true ∧
      (t.pkg (eng / 256)).lostClusters = (s.pkg (eng / 256)).lostClusters ++ [eng % 256] ∧
      (∀ g ∈ (t.pkg (eng / 256)).grants, eng % 256 ∉ g.2.clusters) ∧
      ∀ i, i < 16 → s.coreLive (computeKey (eng / 256) (engDie eng) (16 * engCluster eng + i)) = true →
        (t.core (computeKey (eng / 256) (engDie eng) (16 * engCluster eng + i))).gone = true)

/-- R207: the requests of the counter service. Every request answers a status on the requester's c0: a permitted counter is read with CYCLE, and a
performance counter is programmed to count from 0; a threshold takes the lowest free number and is cancelled by it. Status 1 is a counter, code or
threshold not permitted, 2 no free number, 3 an operand out of range. The layouts of identities and select words are the model's choices (log 41), and so is
that the lowest free number is given (log 115); which T is out of range is its reading (log 119). -/
def Claims.CounterRequests (n pkg : Nat) (m : Msg) (s s1 : State) : Prop :=
  let answers : State → List W64 → Answer := fun t ws => .next (t.reply pkg m ws)
  let lowest : Nat → Prop := fun i => i < 1024 ∧ (s1.pkg pkg).thresholds.find i = none ∧
    ∀ j, j < i → ((s1.pkg pkg).thresholds.find j).isSome = true
  let id := m.body[1]
  (s.request n 3 1 = some (m, pkg, s1) →
    (s1.named pkg m id = none → exec (.counterRead n) s = answers s1 [1]) ∧
    (∀ r, s1.named pkg m id = some r →
      exec (.counterRead n) s = answers s1 [0, BitVec.ofInt 64 (s1.counterValue r), BitVec.ofNat 64 (s1.cycle pkg)])) ∧
  (s.request n 3 2 = some (m, pkg, s1) →
    let w := m.body[2]
    let st := s1.programStatus m (counterRef id) w
    (st ≠ 0 → exec (.counterProgram n) s = answers s1 [BitVec.ofNat 64 st]) ∧
    (∀ c i, counterRef id = some (.corePmc c i) → i < 4 → st = 0 → exec (.counterProgram n) s = answers (s1.onCore c fun k => { k with
      pmcs := k.pmcs.setIfInBounds i { en := w.getLsbD 25, dfilt := w.getLsbD 24, domain := w.extractLsb' 8 16, event := w.toNat % 256
                                       count := 0 } }) [0]) ∧
    (∀ e i, counterRef id = some (.enginePmc e i) → i < 2 → st = 0 → exec (.counterProgram n) s = answers (s1.onEngine e fun g => { g with
      pmcs := g.pmcs.setIfInBounds i { en := w.getLsbD 25, dfilt := w.getLsbD 24, domain := w.extractLsb' 8 16, event := w.toNat % 256
                                       count := 0 } }) [0]) ∧
    (∀ o i, counterRef id = some (.ownerPmc o i) → i < 2 → st = 0 → exec (.counterProgram n) s = answers (s1.onOwner o fun q => { q with
      pmcs := q.pmcs.setIfInBounds i { en := w.getLsbD 25, dfilt := w.getLsbD 24, domain := w.extractLsb' 8 16, event := w.toNat % 256
                                       count := 0 } }) [0])) ∧
  (s.request n 3 3 = some (m, pkg, s1) →
    (s1.named pkg m id = none → exec (.thresholdSet n) s = answers s1 [1]) ∧
    (∀ r, s1.named pkg m id = some r → thresholdBad m = true → exec (.thresholdSet n) s = answers s1 [3]) ∧
    (∀ r, s1.named pkg m id = some r → thresholdBad m = false → (∀ j, j < 1024 → ((s1.pkg pkg).thresholds.find j).isSome = true) →
      exec (.thresholdSet n) s = answers s1 [2]) ∧
    (∀ r i, s1.named pkg m id = some r → thresholdBad m = false → lowest i → ∃ h, exec (.thresholdSet n) s =
      answers (s1.onPkg pkg fun p => { p with thresholds := p.thresholds.put i h }) [0, BitVec.ofNat 64 i] ∧ h.ident = id ∧
        h.t = (m.body[2]).toNat ∧ h.hp = (m.body[3]).toNat ∧ h.period = (m.body[4]).getLsbD 0 ∧ h.target = m.body[5] ∧
        h.chan = (m.body[6]).toNat % 4 ∧ h.domain = m.domain)) ∧
  (s.request n 3 4 = some (m, pkg, s1) →
    ((s1.pkg pkg).thresholds.find id.toNat = none → exec (.thresholdCancel n) s = answers s1 [3]) ∧
    (∀ h, (s1.pkg pkg).thresholds.find id.toNat = some h → m.domain = 0 ∨ h.domain = m.domain → exec (.thresholdCancel n) s =
      answers (s1.onPkg pkg fun p => { p with thresholds := p.thresholds.del id.toNat }) [0]) ∧
    (∀ h, (s1.pkg pkg).thresholds.find id.toNat = some h → m.domain ≠ 0 → h.domain ≠ m.domain →
      exec (.thresholdCancel n) s = answers s1 [1]))

/-- R162, R207, R387, R390, R392, R399, R404: the device services: a request whose message may leave is taken with a placed answer to its
sender's entry; registering writes the sender down once, up to the limit of its domain, deregistering takes it off; the topology service tells a
unit's state and the live clusters of the grant; a quote and a log reading leave as parcels where the asker has room; each answers its status on
c0. The requests of the counter service answer so too
(their layouts are log 41, the lowest free number of a threshold log 115). Which package serves, where registrations are kept, the signatures of a quote and that UNIT
of a read-unit request counts compute cores are the model's readings and choices (logs 6, 40, 52 and 107). -/
def Obligations.Services : Prop :=
  ∀ (n pkg : Nat) (m : Msg) (s s1 : State),
    let replies : State → List W64 → Answer := fun t ws => .next (t.post pkg (.message
      { dst := m.sender, inc := 0, named := false, chan := 0, kind := 0, sinc := 0, sender := m.dst, domain := 0, everyDomain := true
        body := body8 ws } (.free m.dst 0 3) none))
    let p := s1.pkg pkg
    let fresh : List Registration → Nat → Prop := fun l lim => (∀ r ∈ l, r.name ≠ m.sender) ∧ (l.filter fun r => r.domain == m.domain).length < lim
    let full : List Registration → Nat → Prop := fun l lim => (∀ r ∈ l, r.name ≠ m.sender) ∧ lim ≤ (l.filter fun r => r.domain == m.domain).length
    let me : Registration := { name := m.sender, domain := m.domain }
    let room : Nat → Prop := fun bytes => (∃ g x, s1.who m.sender = .gateway g x) ∨
      ∃ c i, s1.who m.sender = .actor c i ∧ (s1.core c).chanFull i ((m.body[7]).toNat % 4) = false ∧
        (s1.core c).freeEntry.isSome = true ∧ ((s1.core c).findRun (Max.max 1 ((bytes + 1023) / 1024))).isSome = true
    let sent : List Byte → State → Prop := fun b t => ∃ q g, t.packet s1.serial = some q ∧ q.pay = .parcel g ∧ g.body = b ∧ g.dst = m.sender ∧
      g.chan = (m.body[7]).toNat % 4 ∧ g.giver = 5 ∧ g.kind = 0 ∧ g.giverEntry = none
    Claims.CounterRequests n pkg m s s1 ∧
    (∀ svc code q via since, s.packet n = some q → q.pay = .message m via since → m.dst = svc → isService svc = true → m.isRequest = true →
      m.code = code → (s.pkg q.src).runs = true →
      ((∀ c id, via ≠ .entry c id) → s.request n svc code = some (m, q.src, s.take n)) ∧
      (∀ c id e, via = .entry c id → (s.core c).sends.find? (·.id == id) = some e → e.msg = m → e.phase = .waiting →
        (∀ f ∈ (s.core c).sends, f.id = id → f = e) →
        (∀ f ∈ (s.core c).sends, f.slot = e.slot → f.order < e.order → f.phase ≠ .waiting) → (s.core c).mayLeave e = true →
        let f : SendEntry := { e with phase := .flying, core := c, dest := none, tag := none, firstAt := s.now c, left := true }
        s.request n svc code = some (m, q.src, (s.onSend c id fun _ => f).answerSend c f .placed))) ∧
    (s.request n 4 1 = some (m, pkg, s1) →
      (fresh p.topoRegs 16 → exec (.topologyRegister n) s = replies (s1.onPkg pkg fun p => { p with topoRegs := p.topoRegs ++ [me] }) [0]) ∧
      (full p.topoRegs 16 → exec (.topologyRegister n) s = replies s1 [2])) ∧
    (s.request n 5 1 = some (m, pkg, s1) →
      (fresh p.attRegs 4 → exec (.attestRegister n) s = replies (s1.onPkg pkg fun p => { p with attRegs := p.attRegs ++ [me] }) [0]) ∧
      (full p.attRegs 4 → exec (.attestRegister n) s = replies s1 [2])) ∧
    (s.request n 6 1 = some (m, pkg, s1) →
      (fresh p.powRegs 16 → exec (.powerServiceRegister n) s = replies (s1.onPkg pkg fun p => { p with powRegs := p.powRegs ++ [me] }) [0]) ∧
      (full p.powRegs 16 → exec (.powerServiceRegister n) s = replies s1 [2])) ∧
    (s.request n 4 2 = some (m, pkg, s1) → exec (.topologyDeregister n) s =
      replies (s1.onPkg pkg fun p => { p with topoRegs := p.topoRegs.filter fun r => r.name != m.sender }) [0]) ∧
    (s.request n 5 2 = some (m, pkg, s1) → exec (.attestDeregister n) s =
      replies (s1.onPkg pkg fun p => { p with attRegs := p.attRegs.filter fun r => r.name != m.sender }) [0]) ∧
    (s.request n 6 2 = some (m, pkg, s1) → exec (.powerServiceDeregister n) s =
      replies (s1.onPkg pkg fun p => { p with powRegs := p.powRegs.filter fun r => r.name != m.sender }) [0]) ∧
    (s.request n 4 3 = some (m, pkg, s1) →
      let d := (m.body[1]).toNat
      let c := computeKey (d / 2 ^ 52) (d / 2 ^ 50 % 4) (d / 2 ^ 36 % 2 ^ 12)
      let absent : Prop := 1024 ≤ d / 2 ^ 36 % 2 ^ 12 ∨ s1.coreExists c = false ∨ (s1.pkg (corePkg c)).lost = true
      (absent → exec (.topologyReadUnit n) s = replies s1 [0, 3]) ∧
      (¬absent → exec (.topologyReadUnit n) s = replies s1 [0, if (s1.core c).gone then 2 else if (s1.core c).mxLost then 1 else 0])) ∧
    (s.request n 4 4 = some (m, pkg, s1) → ∃ w0 w1 w2 w3 w4, exec (.topologyReadGrant n) s = replies s1 [0, w0, w1, w2, w3, w4] ∧
      (∀ d, d < 64 → (w0.getLsbD d = true ↔ d < 4 ∧ (m.domain = 0 ∨ d ∈ (p.grants.get {} m.domain.toNat).dies))) ∧
      ∀ c d, c < 64 → d < 4 →
        (([w1, w2, w3, w4].getD d 0).getLsbD c = true ↔
          (m.domain = 0 ∨ d * 64 + c ∈ (p.grants.get {} m.domain.toNat).clusters) ∧ d * 64 + c ∉ p.lostClusters)) ∧
    (s.request n 5 3 = some (m, pkg, s1) → (p.quote pkg m).length = 17408 ∧
      (room 17408 → ∃ t, exec (.quote n) s = .next t ∧ sent (p.quote pkg m) t) ∧ (¬room 17408 → exec (.quote n) s = replies s1 [1])) ∧
    (s.request n 5 4 = some (m, pkg, s1) →
      let b := ((p.log.zipIdx.drop (m.body[1]).toNat).take 256).flatMap fun x =>
        toBytes 8 (x.1.fw * 2 ^ 60 + x.1.event * 2 ^ 56 + x.1.mv * 2 ^ 48 + x.1.schema % 2 ^ 16 * 2 ^ 32 + x.2 % 2 ^ 32) ++ toBytes 8 x.1.cycle ++
          toBytes 48 x.1.digest.toNat
      (room b.length → ∃ t, exec (.logRead n) s = .next t ∧ sent b t) ∧ (¬room b.length → exec (.logRead n) s = replies s1 [1]))

/-- R206, R208, R400, R405: where samples, power steps and the power-fail trap of a package take place: a sample of the counters once per
microsecond; a power sample once per microsecond, of five readings that keep the bounds of R401; a step at any reading of the four pins, once per
microsecond, or a power-step frame that the host port takes; each accepted step is told of with SUB 0x01, the first sample at or below the new cap with
SUB 0x02; the power-fail trap while the package runs. -/
def Claims.PowerCompletes (pkg conn : Nat) (c : Conn) (s s1 : State) : Prop :=
  let p := s.pkg pkg
  let here : Prop := (s.pkgs.find pkg).isSome = true ∧ p.runs = true
  let told : State → Nat → Nat → List Registration → Prop := fun t sub detail rs => ∀ r ∈ rs, ∃ n q g, t.packet n = some q ∧ q.pay = .signal g ∧
    g.dst = r.name ∧ g.kind = 6 ∧ g.reason = 0x50 ∧ g.sub = sub ∧ g.detail = BitVec.ofNat 64 detail
  (here → p.counted < s.wall / 940 → ∃ t, exec (.counterSample pkg) s = .next t ∧ (t.pkg pkg).counted = s.wall / 940) ∧
  (∀ rs : List Reading, here → 2 ≤ p.bringUp → rs.length = 5 → p.sampled < s.wall / 940 → p.keepsPower s.wall rs = true →
    ∃ t, exec (.powerSample pkg rs) s = .next t ∧ (t.pkg pkg).sampled = s.wall / 940 ∧
      (t.pkg pkg).hub.energy = p.hub.energy + BitVec.ofNat 64 (rs.getD 4 ⟨0, 0, 0⟩).energy) ∧
  (∀ pins, here → 2 ≤ p.bringUp → pins < 16 → s.wall / 940 ≠ p.pinAt → ∃ t, exec (.powerStep pkg pins) s = .next t ∧ (t.pkg pkg).pinLast = pins ∧
    (t.pkg pkg).pinAt = s.wall / 940 ∧ (t.pkg pkg).pinCap = if p.pinLast = pins ∧ p.pinAt + 1 = s.wall / 940 then pins else p.pinCap) ∧
  (∀ (hd : FrameHead) (arg : W64), hd.conn = conn → s.frameIn pkg 0 hd 1 = some (c, s1) →
    (c.domain ≠ 0 ∨ 16 ≤ arg.toNat → exec (.powerStepFrame pkg hd arg) s = .next s1) ∧
    (c.domain = 0 → arg.toNat < 16 → ∃ t, exec (.powerStepFrame pkg hd arg) s = .next t ∧ (t.pkg pkg).frameCap = arg.toNat ∧
      ((t.pkg pkg).capNumber ≠ (s1.pkg pkg).capNumber → told t 1 ((t.pkg pkg).capNumber * 2 ^ 60 + (s1.pkg pkg).capNumber * 2 ^ 56 + 2 ^ 55) (s1.pkg pkg).powRegs))) ∧
  (∀ pins, here → 2 ≤ p.bringUp → pins < 16 → s.wall / 940 ≠ p.pinAt → ∀ t, exec (.powerStep pkg pins) s = .next t → (t.pkg pkg).capNumber ≠ p.capNumber →
    told t 1 ((t.pkg pkg).capNumber * 2 ^ 60 + p.capNumber * 2 ^ 56) p.powRegs ∧
      (t.pkg pkg).step = some ((t.pkg pkg).capNumber, p.capNumber, false, s.wall)) ∧
  (∀ (rs : List Reading) k prev fr at_, here → 2 ≤ p.bringUp → rs.length = 5 → p.sampled < s.wall / 940 → p.keepsPower s.wall rs = true →
    (∀ r ∈ rs, r.temp < 840) → p.step = some (k, prev, fr, at_) → ∀ t, exec (.powerSample pkg rs) s = .next t →
      let total := (rs.map fun r => r.power % 2 ^ 16).sum
      (total ≤ 700 + 140 * k → (t.pkg pkg).step = none ∧
        told t 2 (k * 2 ^ 60 + prev * 2 ^ 56 + (if fr then 2 ^ 55 else 0) + (s.wall - at_) / 940 % 2 ^ 32) p.powRegs) ∧
      (700 + 140 * k < total → (t.pkg pkg).step = p.step)) ∧
  (here → ∃ t, exec (.powerFailTrap pkg) s = .next t ∧ (t.pkg pkg).halted = true)

/-- R205 to R210, R400 to R402, R404 to R406, R416: counters and power: a permitted counter is read with CYCLE and programmed to count from 0; a
threshold takes the lowest free number and is cancelled by it; a sample of the counters comes once per microsecond; a power sample updates
ENERGY, POWER and TEMP of each die, lowers CCEIL and the first knob above its floor where POWER exceeds the budget, raises the last knob below full where CCEIL
rises, and at 105 degrees takes the power-fail trap; a step takes two equal pin samples 1 us apart, or a frame of domain 0, and is told of (R404); the power-fail
trap stops all work, writes the image of a package that has done step 5 of its bring-up and halts the package.
The layouts of identities and select words, the count of merged crossings, pin samples and the mailboxes of the image are the model's choices and
readings (logs 41, 44, 50, 51 and 68), and so is the lowest free threshold number (log 115); readings of sensors are arguments (log 9). -/
def Obligations.CountersAndPower : Prop :=
  ∀ (n pkg conn : Nat) (m : Msg) (c : Conn) (s s1 : State),
    Claims.CounterRequests n pkg m s s1 ∧ Claims.PowerCompletes pkg conn c s s1 ∧
    let p := s.pkg pkg
    let here : Prop := (s.pkgs.find pkg).isSome = true ∧ p.runs = true
    (here → p.counted < s.wall / 940 → p.thresholds = [] → exec (.counterSample pkg) s =
      .next (s.onPkg pkg fun p => { p with counted := s.wall / 940 })) ∧
    (∀ i h r, here → p.counted < s.wall / 940 → p.thresholds = [(i, h)] → counterRef h.ident = some r → identKind h.ident < 4 →
      (s.pkgs.find r.pkg).isSome = true → (s.pkg r.pkg).lost = false →
      h.period = false → h.armed = true → h.merged = 0 → (h.t : Int) ≤ s.counterValue r → h.t < 2 ^ 64 → h.lastNotice = none →
      ∃ t q x via, exec (.counterSample pkg) s = .next t ∧ t.packet s.serial = some q ∧ q.pay = .message x via none ∧ x.dst = h.target ∧
        x.chan = h.chan ∧ x.sender = 3 ∧
        x.body = body8 [BitVec.ofNat 64 (2 ^ 48 + i % 2 ^ 16 * 2 ^ 32 + 1), BitVec.ofInt 64 (s.counterValue r), BitVec.ofNat 64 h.t, h.ident,
          BitVec.ofNat 64 (s.cycle pkg), BitVec.ofNat 64 h.lost] ∧
        ∃ g, (t.pkg pkg).thresholds.find i = some g ∧ g.armed = false) ∧
    (∀ rs : List Reading, here → 2 ≤ p.bringUp → rs.length = 5 → p.sampled < s.wall / 940 → p.keepsPower s.wall rs = true → p.step = none →
      p.hasLinks = false → (∀ r ∈ rs, r.temp < 840) → exec (.powerSample pkg rs) s = .next (s.onPkg pkg fun p => p.sampled1 s.wall (s.draining1 pkg) rs)) ∧
    (∀ (rs : List Reading) (i : Fin 4) (r : Reading), here → 2 ≤ p.bringUp → rs.length = 5 → p.sampled < s.wall / 940 → p.keepsPower s.wall rs = true →
      rs[i.val]? = some r → ∃ t, exec (.powerSample pkg rs) s = .next t ∧
      let d := p.dies[i]
      let e := (t.pkg pkg).dies[i]
      e.energy = d.energy + BitVec.ofNat 64 r.energy ∧ e.power = r.power % 2 ^ 16 ∧ e.temp = BitVec.ofInt 16 r.temp ∧
        (d.budget < r.power % 2 ^ 16 → e.cceil = d.cceil - 1 ∧ e.calm = 0) ∧
        (10 * (r.power % 2 ^ 16) ≤ 9 * d.budget → d.calm < 9 → e.cceil = d.cceil ∧ e.calm = d.calm + 1) ∧
        (10 * (r.power % 2 ^ 16) ≤ 9 * d.budget → d.calm = 9 → e.cceil = Min.min 3 (d.cceil + 1) ∧ e.calm = 0) ∧
        (let knob := fun x => d.knobs.getD x 0
         let floor : Nat → Nat := fun x => if x = 0 ∧ s.draining1 pkg i.val = true then 8 else 1
         let top : Nat → Nat := fun x => if x < 2 then 8 else 4
         d.knobs.length = 7 → ∀ x, x < 7 →
          (d.budget < r.power % 2 ^ 16 →
            (floor x < knob x ∧ (∀ y, y < x → knob y ≤ floor y) → e.knobs.getD x 0 = knob x - 1) ∧
            (¬(floor x < knob x ∧ ∀ y, y < x → knob y ≤ floor y) → e.knobs.getD x 0 = knob x)) ∧
          (10 * (r.power % 2 ^ 16) ≤ 9 * d.budget → d.calm = 9 →
            (knob x < top x ∧ (∀ y, x < y → y < 7 → top y ≤ knob y) → e.knobs.getD x 0 = knob x + 1) ∧
            (¬(knob x < top x ∧ ∀ y, x < y → y < 7 → top y ≤ knob y) → e.knobs.getD x 0 = knob x)) ∧
          (r.power % 2 ^ 16 ≤ d.budget → ¬(10 * (r.power % 2 ^ 16) ≤ 9 * d.budget ∧ 9 ≤ d.calm) → e.knobs = d.knobs)) ∧
        ((∃ x ∈ rs, 840 ≤ x.temp) → (t.pkg pkg).thermtrip = true ∧ (t.pkg pkg).halted = true)) ∧
    (∀ (rs : List Reading) (r : Reading), here → 2 ≤ p.bringUp → rs.length = 5 → p.sampled < s.wall / 940 → p.keepsPower s.wall rs = true → rs[4]? = some r →
      p.hub.budget < r.power % 2 ^ 16 → ∀ v, p.hub.knobs = [v] → ∃ t, exec (.powerSample pkg rs) s = .next t ∧
        (t.pkg pkg).hub.knobs = [if 4 < v then v - 4 else v]) ∧
    (∀ pins, here → 2 ≤ p.bringUp → pins < 16 → p.pinLast = pins → p.pinAt + 1 = s.wall / 940 → ∃ t, exec (.powerStep pkg pins) s = .next t ∧
      (t.pkg pkg).capNumber = Min.min pins p.frameCap ∧
        ((t.pkg pkg).capNumber ≠ p.capNumber →
          (t.pkg pkg).hub.budget = 160 ∧ ∀ i : Fin 4, ((t.pkg pkg).dies[i]).budget = (capOf (t.pkg pkg).capNumber - 160) / 4)) ∧
    (here → ∃ t, exec (.powerFailTrap pkg) s = .next t ∧ (t.pkg pkg).halted = true ∧
      (5 ≤ p.bringUp → ∃ img, (t.pkg pkg).flashImage = some img ∧ img.pkg = pkg ∧ img.cycle = s.cycle pkg) ∧
      (p.bringUp < 5 → (t.pkg pkg).flashImage = p.flashImage) ∧ (∀ c, corePkg c = pkg → ∀ i, (t.core c).thread i = {}) ∧
      (∀ c, corePkg c = pkg → (t.core c).mq = [] ∧ (t.core c).fifo = [] ∧ (t.core c).sends = []) ∧ (∀ c, corePkg c ≠ pkg → t.core c = s.core c) ∧
      (∀ e, engPkg e = pkg → (t.engine e).active = []) ∧ t.gmem = s.gmem)

/-- R407 to R413: a take is refused where one is under way or its destination is wrong, else it begins while no firmware is quiesced; once the domain
is quiet its granules and pages are marked, or the take ends for want of room; the shards go out one after another, each with its header and digest, and
the manifest with its commit doubleword follows them, the bodies being the free values of log 43; a restore reads the manifest and its shards and answers 6,
3, 4 or 5, or creates what they hold where the domain is idle; the control-plane image is restored, discarded, or dropped 60 s after boot. Which actors
keep a domain busy, what a Cairn covers and what a restored region holds are the model's readings (logs 43, 46, 69 and 70), and so are status 2 for a
misaligned or unfit destination and status 6 for a domain already decided (log 122). -/
def Obligations.CairnEvents : Prop :=
  ∀ (n pkg dom : Nat) (m : Msg) (s s1 : State),
    let chan : Nat := (m.body[7]).toNat % 4
    let replies : State → W64 → Nat → List W64 → Answer := fun t asker ch ws => .next (t.post pkg (.message
      { dst := asker, inc := 0, named := false, chan := ch, kind := 0, sinc := 0, sender := 7, domain := 0, everyDomain := true
        body := body8 ws } (.free 7 0 3) none))
    let answered : State → W64 → Nat → List W64 → Prop := fun t asker ch ws => ∃ i q x via, t.packet i = some q ∧ q.pay = .message x via none ∧
      x.dst = asker ∧ x.chan = ch ∧ x.sender = 7 ∧ x.body = body8 ws
    let d : BitVec 16 := if m.domain = 0 then (m.body[5]).setWidth 16 else m.domain
    let dest := (m.body[1]).toNat
    let room := (m.body[2]).toNat
    let busy : Prop := ∃ q p c, (q, p) ∈ s1.pkgs ∧ c ∈ p.cairns ∧ c.domain = d
    let bad : Prop := gaValid dest = false ∨ (gaClass dest ≠ 0 ∧ gaClass dest ≠ 3) ∨ dest % 64 ≠ 0 ∨
      ∃ c, (s1.pkg pkg).lastCairn d = some c ∧ dest < c.dest + c.length ∧ c.dest < dest + room
    let w := s1.pkg pkg
    let noImage : Prop := w.window = none ∨ d ∈ w.decided ∨ w.flashImage = none
    (s.request n 7 1 = some (m, pkg, s1) →
      (busy → exec (.cairnTake n) s = replies s1 m.sender chan [1]) ∧
      (¬busy → bad → exec (.cairnTake n) s = replies s1 m.sender chan [2]) ∧
      (¬busy → ¬bad → (∀ q p, (q, p) ∈ s1.pkgs → p.lost = false → p.quiescing = false) → ∃ t c, exec (.cairnTake n) s = .next t ∧ (t.pkg pkg).cairns = w.cairns ++ [c] ∧ c.domain = d ∧
        c.id = (m.body[4]).toNat % 2 ^ 32 ∧ c.step = m.body[3] ∧ c.dest = dest ∧ c.room = room ∧ c.chan = chan ∧ c.asker = m.sender ∧
        c.phase = .quiesce ∧ c.serial = s1.serial ∧ c.sent = 0)) ∧
    (∀ c, dom < 2 ^ 16 → (s.pkg pkg).cairns = [c] → c.domain = BitVec.ofNat 16 dom → c.phase = .quiesce → (s.pkg pkg).runs = true →
      (∀ k ∈ s.coresOf c.domain, s.quietCore k c.domain = true) → s.quietNet c.domain = true →
      (c.room < (s.snapshot c).length → exec (.cairnMark pkg dom) s =
        replies (s.onPkg pkg fun p => { p with cairns := [] }) c.asker c.chan [2]) ∧
      ((s.snapshot c).length ≤ c.room → ∃ t x, exec (.cairnMark pkg dom) s = .next t ∧ (t.pkg pkg).cairns = [x] ∧ x = s.snapshot c ∧ x.phase = .stream ∧
        x.domain = c.domain ∧ x.dest = c.dest ∧ x.serial = c.serial ∧ t.gmem = s.gmem ∧
        (∀ k ∈ s.coresOf c.domain, ∀ g ∈ (s.core k).granulesOf c.domain, g ∈ (t.core k).cow) ∧
        ((s.heldPages c.domain).Nodup → ∀ o page, (o, page) ∈ s.heldPages c.domain →
          ((t.owner o).homes.get {} page).fstate = .cow ∧
            ((t.owner o).homes.get {} page).back = ((s.owner o).homes.get {} page).fstate))) ∧
    (∀ c, dom < 2 ^ 16 → (s.pkg pkg).cairns = [c] → c.domain = BitVec.ofNat 16 dom → c.phase = .stream → (s.pkg pkg).runs = true →
      let shards := c.cores.length + c.pages.length + 1
      let header : Nat → Nat → List Byte → List Byte := fun index kind body => toBytes 4 c.id ++ toBytes 8 c.step.toNat ++ toBytes 4 index ++
        toBytes 4 kind ++ toBytes 4 body.length ++ toBytes 48 (sha384 body).toNat ++ List.replicate 56 0
      let kind : Nat → Nat := fun i => if i < c.cores.length then 0 else match c.pages[i - c.cores.length]? with
        | some p => if gaClass (p.page * 65536) = 1 then 1 else 2
        | none => 3
      let entries := (List.range shards).flatMap fun i => toBytes 4 i ++ toBytes 8 (c.place i) ++ toBytes 4 (c.body i).length ++
        toBytes 48 (sha384 (c.body i)).toNat
      let manifest := entries ++ toBytes 8 0x434149524E000001
      let puts : Nat → List Byte → State → Prop := fun a l t => (∀ i, i < l.length → t.gmem.read (a + i) = l.getD i 0) ∧
        ∀ x, x < a ∨ a + l.length ≤ x → t.gmem.read x = s.gmem.read x
      (c.sent < shards → ∃ t, exec (.cairnManifest pkg dom) s = .next t ∧ (t.pkg pkg).cairns = [{ c with sent := c.sent + 1 }] ∧
        (t.pkg pkg).committed = (s.pkg pkg).committed ∧ puts (c.place c.sent) (header c.sent (kind c.sent) (c.body c.sent) ++ c.body c.sent) t ∧
        ∀ k, c.cores[c.sent]? = some k → ∀ p ∈ k.regions, p.2.tomb = false → ∀ i, i < p.2.size → p.2.base + i ∉ (t.core k.core).cow) ∧
      (shards ≤ c.sent → ∃ t, exec (.cairnManifest pkg dom) s = .next t ∧ (t.pkg pkg).cairns = [] ∧ c ∈ (t.pkg pkg).committed ∧
        (∀ x ∈ (t.pkg pkg).committed, x.domain = c.domain → x = c) ∧ puts (c.place shards) (header shards 15 manifest ++ manifest) t ∧
        answered t c.asker c.chan [0, BitVec.ofNat 64 shards, BitVec.ofNat 64 (c.place shards - c.dest + 128 + 64 * shards + 8),
          BitVec.ofNat 64 (c.place shards)])) ∧
    (s.request n 7 2 = some (m, pkg, s1) → w.quiesced 1 = false → w.quiesced 2 = false →
      let field : List Byte → Nat → Nat → Nat := fun bs at_ n => ofBytes ((bs.drop at_).take n)
      let held : ManifestEntry → Nat := fun e => field (s1.gmem.readN e.ga 128) 4 8
      (gaValid dest = false ∨ field (s1.gmem.readN dest 128) 16 4 ≠ 15 → exec (.cairnRestore n) s = replies s1 m.sender chan [6]) ∧
      (∀ h body es, s1.manifestAt dest = some (h, body, es) →
        let wrong := es.filter fun e => held e != field h 4 8
        (∀ e rest, wrong = e :: rest → exec (.cairnRestore n) s =
          replies s1 m.sender chan [3, BitVec.ofNat 64 e.index, BitVec.ofNat 64 (held e), BitVec.ofNat 64 wrong.length]) ∧
        (wrong = [] → field h 24 48 ≠ (sha384 body).toNat → exec (.cairnRestore n) s =
          replies s1 m.sender chan [4, BitVec.ofNat 64 (field h 12 4)]) ∧
        (wrong = [] → field h 24 48 = (sha384 body).toNat → ∀ e, es.find? s1.shardFails = some e → exec (.cairnRestore n) s =
          replies s1 m.sender chan [4, BitVec.ofNat 64 e.index])) ∧
      ∀ c, s1.readCairn dest d = .ok c →
        let busy : Prop := s1.domainBusy m.sender d c.flocks = true
        (busy → exec (.cairnRestore n) s = replies s1 m.sender chan [5]) ∧
        (∀ k i a, ¬busy → c.cores = [k] → c.pages = [] → k.slots = [(i, a)] → k.accs = [] → k.sends = [] → s1.fits k.core k = true →
          ∃ t, exec (.cairnRestore n) s = .next t ∧ t.actor k.core i = a ∧ (∀ r e, k.regions = [(r, e)] → (t.core k.core).region r = e) ∧
            (∀ x b, k.mem = [(x, b)] → (t.core k.core).mem.read x = b) ∧ answered t m.sender chan [0])) ∧
    (s.request n 7 3 = some (m, pkg, s1) → w.quiesced 1 = false → w.quiesced 2 = false →
      (noImage → exec (.powerFailRestore n) s = replies s1 m.sender chan [6]) ∧
      ∀ i, w.window.isSome = true → d ∉ w.decided → w.flashImage = some i →
        (s1.domainBusy m.sender d (i.flocks.filter fun f => f.2.domain == d) = true →
          exec (.powerFailRestore n) s = replies s1 m.sender chan [5]) ∧
        (∀ k j a, s1.domainBusy m.sender d (i.flocks.filter fun f => f.2.domain == d) = false → (∀ x ∈ i.cairns, x.1 ≠ d) → i.shards d = [k] →
          k.slots = [(j, a)] → k.regions = [] → a.cp = 0 → s1.fits k.core k = true →
          ∃ t b x, exec (.powerFailRestore n) s = .next t ∧ t.actor k.core j = b ∧
            (k.accs = [] → b = { a with cl := 0, cs := 0, mt := 0, timer := b.timer }) ∧ b.cl = 0 ∧ b.cs = 0 ∧ b.mt = 0 ∧ b.timer.getLsbD 63 = a.timer.getLsbD 63 ∧
            ((b.timer.toNat % 2 ^ 63 : Nat) : Int) = (((a.timer.toNat % 2 ^ 63 : Nat) : Int) + (s1.cycle pkg : Int) - i.cycle) % 2 ^ 63 ∧
            d ∈ (t.pkg pkg).decided ∧ signalled t x a.name 6 0x50 4 a.name ∧ answered t m.sender chan [0])) ∧
    (s.request n 7 4 = some (m, pkg, s1) →
      (noImage → exec (.powerFailDiscard n) s = replies s1 m.sender chan [6]) ∧
      (¬noImage → exec (.powerFailDiscard n) s =
        replies (s1.onPkg pkg fun p => { p with decided := p.decided ++ [d] }) m.sender chan [0])) ∧
    (∀ at_, (s.pkg pkg).window = some at_ → at_ + 56400000000 ≤ s.wall → exec (.controlImageWindowExpiry pkg) s =
      .next (s.onPkg pkg fun p => { p with window := none, flashImage := none, decided := [] }))

/-- R388, R391, R394 to R397, R416 to R418: where the events of bring-up, of FREEZE and debug and of live replacement take place. A package that
the pod has is reset by RESET_N once two samples 1 us apart agree, by power-on after a halt, or by a reset frame of domain 0; each step of bring-up
takes place once the image that it needs runs, and READY once no firmware waits for an image; such an image is taken with its signatures and an SVN of
16 bits that reaches the floor; FREEZE is taken, and its release, once two samples agree; a signed token is taken before READY; a replacement
moves on from each of its stages as R394 to R397 say. -/
def Claims.FirmwareCompletes (pkg conn : Nat) (c : Conn) (s s1 : State) : Prop :=
  let p := s.pkg pkg
  let here : Prop := (s.pkgs.find pkg).isSome = true ∧ p.runs = true
  let now := s.wall / 940
  let fresh : State → Prop := fun t => (t.pkg pkg).isReady = false ∧ (t.pkg pkg).cycle = 0 ∧ (t.pkg pkg).bringUp = 0
  let agrees : Nat → Prop := fun pin => ∃ u, p.pins.find pin = some u ∧ u + 1 = now
  let first : Nat → Prop := fun pin => p.pins.find pin = none ∨ ∃ u, p.pins.find pin = some u ∧ u + 1 < now
  let clocked : Prop := (s.pkgs.find pkg).isSome = true ∧ p.frozen = false ∧ p.halted = false ∧ p.fabricStopped = false ∧ p.away = false
  let runs : Fin 3 → Prop := fun i => p.fw[i].running.isSome = true
  ((s.pkgs.find pkg).isSome = true → p.bringUp ≠ 0 →
    (p.halted = true ∨ agrees 0 → ∃ t, exec (.packageReset pkg) s = .next t ∧ fresh t) ∧
    (p.halted = false → first 0 → exec (.packageReset pkg) s = .next (s.onPkg pkg fun p => { p with pins := p.pins.put 0 now }))) ∧
  (∀ (hd : FrameHead), hd.conn = conn → s.frameIn pkg 0 hd 1 = some (c, s1) →
    (c.domain ≠ 0 → exec (.resetFrame pkg hd) s = .next s1) ∧
    (c.domain = 0 → (s1.pkgs.find pkg).isSome = true → ∃ t, exec (.resetFrame pkg hd) s = .next t ∧ fresh t)) ∧
  (clocked →
    (p.bringUp = 0 ∨ p.bringUp = 1 ∧ runs 0 ∨ p.bringUp = 2 ∨ p.bringUp = 3 ∧ (p.hasLinks = true → runs 2) ∨ p.bringUp = 4 ∧ runs 1 ∨ p.bringUp = 5 →
      ∃ t, exec (.ready pkg) s = .next t ∧ (t.pkg pkg).bringUp = p.bringUp + 1) ∧
    (p.bringUp = 1 ∧ ¬runs 0 ∨ p.bringUp = 3 ∧ p.hasLinks = true ∧ ¬runs 2 ∨ p.bringUp = 4 ∧ ¬runs 1 → exec (.ready pkg) s = .next s) ∧
    (p.bringUp = 6 → p.isReady = false → p.loader.recovery = false → (∀ i : Fin 3, p.fw[i].recovery = false) →
      ∃ t, exec (.ready pkg) s = .next t ∧ (t.pkg pkg).isReady = true)) ∧
  (∀ (img : FwImage) (i : Fin 3), here → img.fw = i.val + 1 → p.fw[i].recovery = true → img.signed = true → p.fw[i].floor ≤ img.svn →
    img.svn < 2 ^ 16 → img.schema < 2 ^ 16 → ∃ t, exec (.recoveryImage pkg img) s = .next t ∧ (t.pkg pkg).fw[i].recovery = false) ∧
  ((s.pkgs.find pkg).isSome = true → p.frozen = false → agrees 2 → ∃ t, exec (.freeze pkg) s = .next t ∧ (t.pkg pkg).frozen = true) ∧
  ((s.pkgs.find pkg).isSome = true → p.frozen = true → agrees 3 → ∃ t, exec (.freezeRelease pkg) s = .next t ∧ (t.pkg pkg).frozen = false) ∧
  (∀ token, here → p.isReady = false → p.debug = false → ∃ t, exec (.debugUnlock pkg token true) s = .next t ∧ (t.pkg pkg).debug = true) ∧
  (∀ (img : FwImage) (i : Fin 3) old, here → img.fw = i.val + 1 → p.fw[i].running = some old → p.repl = none → p.log.length < 4096 →
    p.answers 0 = true → img.body.length ≤ 2 ^ 26 → img.signed = true → p.fw[i].floor ≤ img.svn → img.svn < 2 ^ 16 → img.schema < 2 ^ 16 →
    img.schema = old.schema ∨ img.schema = old.schema + 1 →
    ∃ t r, exec (.replacementRequest pkg 0 img) s = .next t ∧ (t.pkg pkg).repl = some r ∧ r.fw = img.fw ∧ r.phase = .staged) ∧
  (∀ r : Replacement, here → p.repl = some r →
    (r.phase = .staged → s.atQuiesce pkg r.fw = true →
      ∃ t x, exec (.replacementActivate pkg) s = .next t ∧ (t.pkg pkg).repl = some x ∧ x.phase = .quiesced) ∧
    (r.phase = .quiesced → s.wall ≤ r.since + (if r.fw = 1 then 940000 else if r.fw = 2 then 1880000 else 37600) →
      ∃ t x, exec (.replacementActivate pkg) s = .next t ∧ (t.pkg pkg).repl = some x ∧ x.phase = .probation) ∧
    (r.phase = .probation → s.wall < r.wrote + 9400000 →
      ∃ t x, exec (.hubWatchdogWrite pkg) s = .next t ∧ (t.pkg pkg).repl = some x ∧ x.wrote = s.wall) ∧
    (r.phase = .probation ∨ r.phase = .quiesced → ∃ t, exec (.revert pkg) s = .next t ∧ (t.pkg pkg).repl = none) ∧
    (r.phase = .probation → s.wall < r.wrote + 9400000 → r.since + 1880000000 ≤ s.wall →
      ∃ t x, exec (.replacementCommit pkg) s = .next t ∧ (t.pkg pkg).repl = some x ∧ x.phase = .committing) ∧
    (r.phase = .committing → ∃ t, exec (.replacementCommit pkg) s = .next t ∧ (t.pkg pkg).repl = none))

/-- R22 to R24, R376 to R381, R390, R402, R421: ports, lost packages and the host port: a port takes the modes that its own mode and the link-lane
knob allow, and a notice goes out; a heartbeat comes every 10 us, and eight missed ones take the port down; a package that every other one
finds lost is lost: its names become free, each actor linked to one of its actors gets an EXIT, and nothing that it had under way to others arrives;
directory slots pass to the mirror's holder, and then the mirrors are made again; in recovery mode the host port takes frames of class 0 only; a frame
is taken where the port is open, on a connection that exists, in PSN order; a connection's gateway actor
comes and goes with it; a launch is refused by the first code that applies, else its initial actors are pending and the flock number is answered;
messages and parcels of the host leave from its gateway actor (ARG as in log 30); a frame unacknowledged for 50 us is sent again; a grant changes by
a cluster or a die. While a firmware that an event needs is quiesced it does not take place (R393). The requests of bring-up and replacement that
the host makes take place as R391 to R397 and R417 say. ARG of frames, what a frame acknowledges, the units of a grant request and what a lost
package leaves are the model's choices and readings (logs 30, 42, 63, 66 to 68, 102, 106 and 108), and so is which code answers a launch that several
of them refuse (log 113). -/
def Obligations.HostEvents : Prop :=
  ∀ (pkg conn : Nat) (s s1 : State) (c : Conn),
    let p := s.pkg pkg
    let here : Prop := (s.pkgs.find pkg).isSome = true ∧ p.runs = true
    let gw : W64 := BitVec.ofNat 64 (0xFFFF * 2 ^ 48 + conn)
    let portOf : State → Fin 16 → Port := fun t i => (t.pkg pkg).ports[i]
    let still : Prop := ∀ q pq, (q, pq) ∈ s.pkgs → pq.lost = false → pq.quiesced 3 = false ∧ pq.frozen = false
    let member : Nat → Package → Prop := fun q pq => (q, pq) ∈ s.pkgs ∧ q ≠ pkg ∧ pq.lost = false ∧ pq.halted = false
    let finds : Nat → Nat → Prop := fun q l => s.linked q l = false ∨ (s.pkg l).fabricStopped = true ∨ 188000 ≤ (s.pkg q).silent.get 0 l
    Claims.FirmwareCompletes pkg conn c s s1 ∧
    (∀ (i : Fin 16) m, here → p.form ≠ 3 → 4 ≤ p.bringUp →
      let mode := (portOf s i).mode
      let low : Prop := p.hub.knobs.headD 8 < 8
      let may : Prop := match m with
        | .full => mode ≠ .full ∧ ¬low
        | .erasure => mode = .full
        | .narrow => mode = .full ∨ mode = .erasure ∨ mode = .down ∧ low
        | .down => mode ≠ .down
      (may → ∃ t, exec (.linkModeChange pkg i m) s = .next t ∧ (portOf t i).mode = m ∧
        (m = .full → (portOf t i).lanes = 8) ∧ (m = .erasure → (portOf t i).lanes = 7) ∧ (m = .down → (portOf t i).lanes < 4) ∧
        (∀ j, j ≠ i → portOf t j = portOf s j) ∧ ∀ q pq r, (q, pq) ∈ s.pkgs → r ∈ pq.topoRegs → p.holdsGrant r.domain = true →
          ∃ n, signalled t n r.name 6 rTopology 5 r.name) ∧
      (¬may → exec (.linkModeChange pkg i m) s = .next s)) ∧
    (∀ (i : Fin 16), here → p.form ≠ 3 → (portOf s i).mode ≠ .down → (portOf s i).beat + 9400 ≤ s.wall →
      (∃ t, exec (.linkHeartbeat pkg i true) s = .next t ∧ portOf t i = { portOf s i with beat := s.wall, missed := 0 }) ∧
      ((portOf s i).missed < 7 → ∃ t, exec (.linkHeartbeat pkg i false) s = .next t ∧
        portOf t i = { portOf s i with beat := s.wall, missed := (portOf s i).missed + 1 }) ∧
      (7 ≤ (portOf s i).missed → ∃ t, exec (.linkHeartbeat pkg i false) s = .next t ∧ (portOf t i).mode = .down)) ∧
    ((s.pkgs.find pkg).isSome = true → p.lost = false → 2 ≤ s.npkg →
      (∃ q pq, member q pq ∧ pq.frozen = false ∧ pq.fabricStopped = false) →
      (∀ q pq, member q pq → pq.frozen = false → pq.fabricStopped = false → pq.quiesced 3 = false ∧ finds q pkg ∧
        ∀ r pr, member r pr → pr.frozen = true ∨ pr.fabricStopped = true → finds q r) →
      ∃ t, exec (.packageLost pkg) s = .next t ∧ (t.pkg pkg).lost = true ∧
        (∀ name e, s.dirEntry name = some e → e.name = name → e.pkg = pkg → t.dirEntry name = none) ∧
        (∀ n q, (n, q) ∈ t.net → n < s.serial → (∃ m v b, q.pay = .message m v b) ∨ (∃ g, q.pay = .signal g) → q.src ≠ pkg) ∧
        ∀ k i l e, corePkg k ≠ pkg → (s.pkg (corePkg k)).frozen = false → (i, l) ∈ (s.core k).links → l.kind = 1 → s.dirEntry l.peer = some e → e.pkg = pkg →
          ∃ n, signalled t n (s.actor k l.slot).name 1 0x41 0 l.peer) ∧
    ((∀ q i, still → p.lost = true → q < s.npkg → s.dirPackage q = pkg → i < s.npkg →
        (s.pkg (s.dirPackage ((q + 1 + i) % s.npkg))).lost = false →
        (∀ j, j < i → (s.pkg (s.dirPackage ((q + 1 + j) % s.npkg))).lost = true) → ∃ t, exec (.directoryMapUpdate pkg) s = .next t ∧
          t.dirPackage q = s.dirPackage ((q + 1 + i) % s.npkg) ∧ q ∈ t.bare ∧ ∀ r, s.dirPackage r ≠ pkg → t.dirPackage r = s.dirPackage r) ∧
      (still → p.lost = false ∨ (∀ q, q < s.npkg → s.dirPackage q ≠ pkg) → s.bare ≠ [] → ∃ t, exec (.directoryMapUpdate pkg) s = .next t ∧
        t.bare = [] ∧ t.dirMap = s.dirMap) ∧
      (¬still → exec (.directoryMapUpdate pkg) s = .next s)) ∧
    (∀ cls (hd : FrameHead) frames, hd.conn = conn → here → (cls = 0 → p.recovering = true ∨ p.isReady = true) →
      (cls ≠ 0 → p.recovering = false ∧ p.isReady = true) → (cls = 0 → p.quiesced 1 = false) →
      (cls = 1 → p.quiesced 2 = false) → p.conns.find conn = some c →
      (hd.ver = 1 → hd.psn.toNat = c.psnIn → ∃ left, s.frameIn pkg cls hd frames = some (c, s.onPkg pkg fun p =>
          { p with conns := p.conns.put conn { c with psnIn := (c.psnIn + frames) % 2 ^ 32, unacked := left } }) ∧
        (hd.flags.getLsbD 0 = false ∨ (∀ f ∈ c.unacked, f.psn ≠ hd.ackn.toNat) → left = c.unacked) ∧
        ∀ a f b, hd.flags.getLsbD 0 = true → c.unacked = a ++ f :: b → (∀ x ∈ a, x.psn ≠ hd.ackn.toNat) → f.psn = hd.ackn.toNat → left = b) ∧
      (hd.ver ≠ 1 ∨ hd.psn.toNat ≠ c.psnIn → s.frameIn pkg cls hd frames = none)) ∧
    (∀ cls (hd : FrameHead) frames, cls ≠ 0 → p.recovering = true ∨ p.isReady = false → s.frameIn pkg cls hd frames = none) ∧
    (∀ dom, here → p.recovering = true ∨ p.isReady = true → p.quiesced 1 = false → conn < 2 ^ 32 → dom < 2 ^ 16 → p.conns.find conn = none → s.dirEntry gw = none →
      ∃ t e, exec (.connectionOpen pkg conn dom) s = .next t ∧ (t.pkg pkg).conns.find conn = some { domain := BitVec.ofNat 16 dom } ∧
        t.dirEntry gw = some e ∧ e.name = gw ∧ e.state = 1 ∧ e.pkg = pkg ∧ e.die = 3 ∧ e.kind = 1 ∧ e.cidx = 1023) ∧
    (∀ byHost, p.conns.find conn = some c → p.runs = true → p.quiesced 1 = false → ∃ t, exec (.connectionClose pkg conn byHost) s = .next t ∧
      (t.pkg pkg).conns.find conn = none ∧ t.dirEntry gw = none ∧
      ∀ l ∈ p.gwLinks, l.gateway = gw → l.kind = 1 → ∃ n, signalled t n l.peer 1 (if byHost then 0 else 2) 0 gw) ∧
    (∀ (hd : FrameHead) (hdr : List W64) flock, hd.conn = conn → s.frameIn pkg 1 hd 1 = some (c, s1) → hdr.length = 8 →
      let d := fun (i : Nat) => (hdr.getD i 0).toNat
      let f := Flock.ofHeader d gw pkg conn
      let refused : Nat → Prop := fun k =>
        if k = 1 then d 0 / 2 ^ 56 ≠ 1 ∨ d 0 / 2 ^ 32 % 2 ^ 9 ≠ 0 ∨ 2 ^ 36 ≤ d 2 ∨ 2 ^ 48 ≤ d 3 ∨ 2 ^ 32 ≤ d 6 ∨ d 7 ≠ 0
        else if k = 2 then f.nfield = 0 ∨ 6 < f.nfield ∨ f.nfield < f.place ∨ f.nfield < f.supvl ∨ f.nfield < f.succl ∨ 0 ∈ f.widths ∨
          (∃ i, f.nfield ≤ i ∧ i < 6 ∧ d 2 / 2 ^ (30 - 6 * i) % 64 ≠ 0) ∨ 48 < f.widths.sum
        else if k = 3 then f.init = 0 ∨ 2 ^ f.widths.sum < f.init ∨ (f.widths.sum = 48 ∧ 2 ^ 48 - 1 < f.init)
        else if k = 4 then s1.image f.image.toNat 1 = none
        else if k = 5 then f.domain ≠ c.domain
        else if k = 6 then f.supv ≠ 0 ∧ s1.liveSupervisor f.supv f.domain = false
        else if k = 7 then f.maxlive ≠ 0 ∧ f.maxlive < f.init
        else k = 8 ∧ ((s1.pkg pkg).liveGrant f.domain = [] ∨ flock = 0)
      (∀ k, 1 ≤ k → k ≤ 8 → refused k → (∀ j, 1 ≤ j → j < k → ¬refused j) →
        exec (.launch pkg hd hdr flock) s = .next (s1.replyOut pkg conn 1 1 (BitVec.ofNat 64 k) [])) ∧
      ((∀ k, 1 ≤ k → k ≤ 8 → ¬refused k) → flock < 0xFFFF → s1.flockLive flock = 0 →
        ∃ t x g, exec (.launch pkg hd hdr flock) s = .next t ∧ t.flocks.find flock = some f ∧
          (∀ i, i < f.init → ∃ e, t.dirEntry (BitVec.ofNat 64 (flock * 2 ^ 48 + i)) = some e ∧ e.state = 3 ∧ e.supv = f.supv) ∧
          (t.pkg pkg).conns.find conn = some x ∧ x.unacked.getLast? = some g ∧ g.cls = 1 ∧ g.flags = 3 ∧ g.arg = BitVec.ofNat 64 (flock * 2 ^ 48))) ∧
    (∀ (hd : FrameHead) dst arg msg, hd.conn = conn → s.frameIn pkg 2 hd 1 = some (c, s1) → ∃ t q m via, exec (.hostMessage pkg hd dst arg msg) s = .next t ∧
      t.packet s1.serial = some q ∧ q.pay = .message m via none ∧ m.dst = dst ∧ m.chan = arg.toNat % 4 ∧ m.kind = 0 ∧ m.sender = gw ∧
      m.domain = c.domain ∧ m.body = body8 msg) ∧
    (∀ (hd : FrameHead) dst arg tag body, hd.conn = conn → body ≠ [] → s.frameIn pkg 3 hd ((body.length + 8191) / 8192) = some (c, s1) →
      ∃ t q x, exec (.hostParcel pkg hd dst arg tag body) s = .next t ∧ t.packet s1.serial = some q ∧ q.pay = .parcel x ∧ x.dst = dst ∧
        x.chan = arg.toNat % 4 ∧ x.tag = tag ∧ x.giver = gw ∧ x.domain = c.domain ∧ x.body = body) ∧
    (∀ f fs, p.conns.find conn = some c → c.unacked = f :: fs → f.sentAt + 47000 ≤ s.wall → p.runs = true →
      exec (.hostRetransmit pkg conn) s = .next (s.onPkg pkg fun p =>
        { p with conns := p.conns.put conn { c with unacked := { f with sentAt := s.wall } :: fs } })) ∧
    (∀ (hd : FrameHead) dom die cl, hd.conn = conn → s.frameIn pkg 0 hd 1 = some (c, s1) →
      let units : List Nat := if cl < 64 then [die * 64 + cl] else (List.range 64).map (die * 64 + ·)
      let g := (s1.pkg pkg).grants.get {} dom
      let now : State → Grant := fun t => (t.pkg pkg).grants.get {} dom
      let may : Prop := c.domain = 0 ∧ dom ≠ 0 ∧ dom < 2 ^ 16 ∧ die < 4
      let told : State → Prop := fun t => ∀ q pq r, (q, pq) ∈ s1.pkgs → r ∈ pq.topoRegs → r.domain = BitVec.ofNat 16 dom →
        ∃ n, signalled t n r.name 6 rTopology 6 r.name
      (∀ adds, ¬may → exec (.grantRequest pkg hd dom die cl adds) s = .next s1) ∧
      (may → die ∉ g.dies ∨ (∃ u ∈ units, u ∉ g.clusters ∧ u ∉ (s1.pkg pkg).lostClusters) → ∃ t,
        exec (.grantRequest pkg hd dom die cl true) s = .next t ∧ (∀ d, d ∈ (now t).dies ↔ d ∈ g.dies ∨ d = die) ∧
        (∀ u, u ∈ (now t).clusters ↔ u ∈ g.clusters ∨ u ∈ units ∧ u ∉ (s1.pkg pkg).lostClusters) ∧ told t) ∧
      (may → (∃ u ∈ units, s1.holdsOn pkg (BitVec.ofNat 16 dom) u = true) → exec (.grantRequest pkg hd dom die cl false) s = .next s1) ∧
      (may → (∃ u ∈ units, u ∈ g.clusters) → (∀ u ∈ units, s1.holdsOn pkg (BitVec.ofNat 16 dom) u = false) → ∃ t,
        exec (.grantRequest pkg hd dom die cl false) s = .next t ∧ (∀ u, u ∈ (now t).clusters ↔ u ∈ g.clusters ∧ u ∉ units) ∧
        (∀ d, d ∈ (now t).dies ↔ d ∈ g.dies ∧ (cl < 64 ∨ d ≠ die)) ∧ told t))

/-- R388, R391 to R397, R417: firmware and bring-up: a package reset leaves the fused and flash-held things and clears cores and volatile memory; then
the steps of bring-up come in order: the loader is verified and measured, and after it each image whose SVN reaches its floor starts; key slot 0 is
bound and the budgets of the cap are set; the ports train; a valid image in flash starts its window; READY opens the port. An image sent in recovery
mode starts; FREEZE stops and its release restarts the package, after two samples that agree; a signed token unlocks the TAP before READY; a replacement is staged, activated, kept alive, reverted or committed, each
start extending its register. A replacement goes through its stages: staged, quiesced, in probation, and committing, while flash holds none of it; a revert
tells how many journal entries were skipped. The contents of
flash, results of signature checks, what other packages see of a reset, blobs and journals, and several steps of a replacement are the model's
choices and readings (logs 5, 9, 64, 65, 98, 109 and 110). -/
def Obligations.FirmwareEvents : Prop :=
  ∀ (pkg conn : Nat) (s s1 : State) (c : Conn),
    let p := s.pkg pkg
    let here : Prop := (s.pkgs.find pkg).isSome = true ∧ p.runs = true
    let fwIs : State → Fin 3 → FwState := fun t i => (t.pkg pkg).fw[i]
    let mvIs : State → Fin 5 → List (BitVec 384) := fun t i => (t.pkg pkg).mv[i]
    let logged : State → Nat → Nat → Nat → Nat → BitVec 384 → Prop := fun t fw event mv schema h =>
      p.log.length < 4096 → (t.pkg pkg).log = p.log ++ [⟨fw, event, mv, schema, p.cycle, h⟩]
    let agrees : Nat → Prop := fun pin => ∃ u, p.pins.find pin = some u ∧ u + 1 = s.wall / 940
    Claims.FirmwareCompletes pkg conn c s s1 ∧
    ((s.pkgs.find pkg).isSome = true → p.bringUp ≠ 0 → p.halted = true ∨ agrees 0 → ∃ t, exec (.packageReset pkg) s = .next t ∧
      let q := t.pkg pkg
      q.isReady = false ∧ q.conns = [] ∧ q.cycle = 0 ∧ q.bringUp = 0 ∧ q.runs = false ∧ q.flashImage = p.flashImage ∧ q.window = none ∧
      q.log = [] ∧ (∀ j, mvIs t j = []) ∧ q.loader.flash = p.loader.flash ∧ q.loader.running = none ∧
      (∀ i : Fin 3, (fwIs t i).flash = (fwIs s i).flash ∧ (fwIs t i).floor = (fwIs s i).floor ∧ (fwIs t i).running = none) ∧
      (∀ k, corePkg k = pkg → t.core k = {}) ∧
      (s.npkg < 2 → p.badFrames.length ≤ 2048 → q.badFrames = p.badFrames) ∧
      (s.npkg < 2 → ∀ a, t.gmem.read a = if gaClass a = 3 then s.gmem.read a else 0)) ∧
    ((s.pkgs.find pkg).isSome = true → p.frozen = false → p.halted = false → p.fabricStopped = false → p.away = false →
      (p.bringUp = 0 → ∃ t, exec (.ready pkg) s = .next t ∧
        let q := t.pkg pkg
        let good : FwState → FwSlot → Prop := fun f x => f.flash = some x ∧ x.signed = true ∧ f.floor ≤ x.svn
        q.bringUp = 1 ∧
        (∀ x, good p.loader x → q.loader.running = some x ∧ (p.log = [] → q.log.head? = some ⟨0, 0, 0, x.schema, p.cycle, x.digest⟩) ∧
          ∀ i : Fin 3, (∀ y, good (fwIs s i) y → (fwIs t i).running = some y ∧ (fwIs t i).recovery = false) ∧
            ((∀ y, ¬good (fwIs s i) y) → (fwIs t i).running = none ∧ (fwIs t i).recovery = true ∧ q.alert = true)) ∧
        ((∀ x, ¬good p.loader x) → q.loader.running = none ∧ q.loader.recovery = true ∧ q.alert = true ∧ q.fw = p.fw)) ∧
      (p.bringUp = 1 → (fwIs s 0).running.isSome = true → ∃ t, exec (.ready pkg) s = .next t ∧ (t.pkg pkg).keys = [(0, 0)] ∧
        (t.pkg pkg).hub.budget = 160 ∧ ∀ i : Fin 4, ((t.pkg pkg).dies[i]).budget = (700 + 140 * Min.min p.pinCap p.frameCap - 160) / 4) ∧
      (p.bringUp = 3 → p.form ≠ 3 → (fwIs s 2).running.isSome = true → ∃ t, exec (.ready pkg) s = .next t ∧ (t.pkg pkg).lost = false ∧
        ∀ i : Fin 16, (t.pkg pkg).ports[i] = { beat := s.wall }) ∧
      (p.bringUp = 5 → exec (.ready pkg) s = .next (s.onPkg pkg fun p =>
        { p with bringUp := 6, window := if p.flashImage.any ControlImage.valid then some s.wall else none })) ∧
      (p.bringUp = 6 → p.isReady = false → p.loader.recovery = false → (∀ i : Fin 3, (fwIs s i).recovery = false) →
        exec (.ready pkg) s = .next (s.onPkg pkg fun p => { p with isReady := true }))) ∧
    (∀ img : FwImage, here → img.fw = 0 → p.loader.recovery = true → img.signed = true → p.loader.floor ≤ img.svn → img.svn < 2 ^ 16 →
      img.schema < 2 ^ 16 → ∃ t, exec (.recoveryImage pkg img) s = .next t ∧
        (t.pkg pkg).loader.running = some { schema := img.schema, svn := img.svn, digest := sha384 img.body } ∧
        (t.pkg pkg).loader.recovery = false ∧ ∀ i : Fin 3, ∀ x, (fwIs s i).flash = some x → x.signed = true → (fwIs s i).floor ≤ x.svn →
          (fwIs t i).running = some x) ∧
    (∀ (img : FwImage) (i : Fin 3), here → img.fw = i.val + 1 → (fwIs s i).recovery = true → img.signed = true →
      (fwIs s i).floor ≤ img.svn → img.svn < 2 ^ 16 → img.schema < 2 ^ 16 → ∃ t, exec (.recoveryImage pkg img) s = .next t ∧
        (fwIs t i).running = some { schema := img.schema, svn := img.svn, digest := sha384 img.body } ∧ (fwIs t i).recovery = false ∧
        mvIs t 4 = mvIs s 4 ++ [sha384 img.body] ∧ logged t img.fw 5 4 img.schema (sha384 img.body)) ∧
    ((s.pkgs.find pkg).isSome = true → p.frozen = false →
      (agrees 2 → ∃ t, exec (.freeze pkg) s = .next t ∧ t.pkg pkg = { p with pins := p.pins.del 2, frozen := true }) ∧
      (p.pins.find 2 = none → exec (.freeze pkg) s = .next (s.onPkg pkg fun p => { p with pins := p.pins.put 2 (s.wall / 940) }))) ∧
    (p.frozen = true →
      (agrees 3 → ∃ t, exec (.freezeRelease pkg) s = .next t ∧ t.pkg pkg = { p with pins := p.pins.del 3, frozen := false }) ∧
      (p.pins.find 3 = none → exec (.freezeRelease pkg) s = .next (s.onPkg pkg fun p => { p with pins := p.pins.put 3 (s.wall / 940) }))) ∧
    (∀ token, here → p.isReady = false → p.debug = false → exec (.debugUnlock pkg token false) s = .next s ∧
      ∃ t, exec (.debugUnlock pkg token true) s = .next t ∧ (t.pkg pkg).debug = true ∧ mvIs t 4 = mvIs s 4 ++ [sha384 token] ∧
        logged t 4 4 4 0 (sha384 token)) ∧
    (∀ (img : FwImage) (i : Fin 3) old, img.fw = i.val + 1 → (fwIs s i).running = some old →
      let may : Prop := p.runs = true ∧ (p.recovering = true ∨ p.isReady = true) ∧ p.repl = none ∧ p.log.length < 4096 ∧ img.body.length ≤ 2 ^ 26 ∧ img.signed = true ∧
        (fwIs s i).floor ≤ img.svn ∧ img.svn < 2 ^ 16 ∧ img.schema < 2 ^ 16 ∧ (img.schema = old.schema ∨ img.schema = old.schema + 1)
      (may → exec (.replacementRequest pkg 0 img) s = .next (s.onPkg pkg fun p =>
        { p with repl := some ({ fw := img.fw, new := { schema := img.schema, svn := img.svn, digest := sha384 img.body }
                                 old := old } : Replacement) })) ∧
      (∀ dom, ¬may ∨ dom ≠ 0 → exec (.replacementRequest pkg dom img) s = .next s)) ∧
    (∀ (r : Replacement) (i : Fin 3), p.repl = some r → r.fw = i.val + 1 → p.runs = true →
      (r.phase = .staged →
        (s.atQuiesce pkg r.fw = true → ∃ b : Blob, b.schema = r.old.schema ∧ exec (.replacementActivate pkg) s = .next (s.onPkg pkg fun p =>
          { p with repl := some { r with phase := .quiesced, since := s.wall, blob := some b, grants := p.grants } })) ∧
        (s.atQuiesce pkg r.fw = false → exec (.replacementActivate pkg) s = .next s)) ∧
      (r.phase = .quiesced →
        let bound := if r.fw = 1 then 940000 else if r.fw = 2 then 1880000 else 37600
        (r.since + bound < s.wall → exec (.replacementActivate pkg) s = .next s) ∧
        (s.wall ≤ r.since + bound → ∃ t x, exec (.replacementActivate pkg) s = .next t ∧ (fwIs t i).running = some r.new ∧
          (t.pkg pkg).repl = some x ∧ x.phase = .probation ∧ x.since = s.wall ∧ x.wrote = s.wall ∧ x.old = r.old ∧ x.grants = r.grants ∧
          x.journal = r.journal ∧ logged t r.fw 1 r.fw r.new.schema r.new.digest ∧
          ∀ j : Fin 5, mvIs t j = if j.val = r.fw then mvIs s j ++ [r.new.digest] else mvIs s j)) ∧
      (r.phase = .probation ∨ r.phase = .quiesced → ∃ t, exec (.revert pkg) s = .next t ∧ (fwIs t i).running = some r.old ∧
        (t.pkg pkg).repl = none ∧ logged t r.fw 2 r.fw r.old.schema r.old.digest ∧
        (∀ j : Fin 5, mvIs t j = if j.val = r.fw then mvIs s j ++ [r.old.digest] else mvIs s j) ∧
        (∀ q pq a, (q, pq) ∈ s.pkgs → a ∈ pq.attRegs → ∃ n y g, t.packet n = some y ∧ y.pay = .signal g ∧ g.dst = a.name ∧ g.kind = 6 ∧
          g.reason = rMeasure ∧ g.sub = 2 ∧
          g.detail.toNat % 2 ^ 16 = (r.journal.countP fun k => decide (r.old.schema < k.schema)) % 2 ^ 16) ∧
        (r.fw ≠ 1 → (t.pkg pkg).grants = p.grants) ∧ (r.fw = 1 → r.journal = [] → p.lostClusters = [] → (t.pkg pkg).grants = r.grants)) ∧
      (r.phase = .probation →
        (s.wall < r.wrote + 9400000 → exec (.hubWatchdogWrite pkg) s =
          .next (s.onPkg pkg fun p => { p with repl := some { r with wrote := s.wall } })) ∧
        (r.wrote + 9400000 ≤ s.wall → exec (.hubWatchdogWrite pkg) s = .next s ∧ exec (.replacementCommit pkg) s = .next s) ∧
        (s.wall < r.wrote + 9400000 → r.since + 1880000000 ≤ s.wall → ∃ t, exec (.replacementCommit pkg) s = .next t ∧
          (fwIs t i).flash = none ∧ (t.pkg pkg).repl = some { r with phase := .committing } ∧ (t.pkg pkg).log = p.log)) ∧
      (r.phase = .committing → ∃ t, exec (.replacementCommit pkg) s = .next t ∧ (fwIs t i).flash = some r.new ∧
        (fwIs t i).running = (fwIs s i).running ∧ (t.pkg pkg).repl = none ∧
        let raises : Bool := decide ((fwIs s i).floor < r.new.svn) && Config.floorAsked r.new.digest
        (fwIs t i).floor = (if raises then r.new.svn else (fwIs s i).floor) ∧
        (p.log.length < 4096 → (t.pkg pkg).log.take (p.log.length + 1) = p.log ++ [⟨r.fw, 3, r.fw, r.new.schema, p.cycle, r.new.digest⟩]) ∧
        (t.pkg pkg).log.length ≤ p.log.length + (if raises then 2 else 1) ∧
        ∀ j : Fin 5, mvIs t j = if raises ∧ j = 4 then mvIs s 4 ++ [Config.floorDigest r.new.digest] else mvIs s j))
end

