-- ==== Sys2Proof/Laws/Map.lean ====
section
/-! SUPPORT. Sparse tables and memories: reading after writing, and that every write keeps the canonical form. -/

namespace Sys2Proof.Machine

variable {α : Type}

/-! ## Reading after writing -/

@[simp] theorem SMap.get_put_same (d : α) (m : SMap α) (k : Nat) (v : α) : SMap.get d (SMap.put m k v) k = v := by
  induction m with
  | nil => simp [SMap.put, SMap.get]
  | cons p m ih =>
    obtain ⟨j, w⟩ := p
    simp only [SMap.put]
    split
    · simp [SMap.get]
    · split
      · simp [SMap.get]
      · rename_i h
        simp [SMap.get, h, ih]

theorem SMap.get_put_ne (d : α) (m : SMap α) {k j : Nat} (v : α) (h : j ≠ k) : SMap.get d (SMap.put m k v) j = SMap.get d m j := by
  induction m with
  | nil => simp [SMap.put, SMap.get, Ne.symm h]
  | cons p m ih =>
    obtain ⟨i, w⟩ := p
    simp only [SMap.put]
    split
    · simp [SMap.get, Ne.symm h]
    · split
      · rename_i hi
        subst hi
        simp [SMap.get, Ne.symm h]
      · simp [SMap.get, ih]

@[simp] theorem SMap.find_put_same (m : SMap α) (k : Nat) (v : α) : SMap.find (SMap.put m k v) k = some v := by
  induction m with
  | nil => simp [SMap.put, SMap.find]
  | cons p m ih =>
    obtain ⟨j, w⟩ := p
    simp only [SMap.put]
    split
    · simp [SMap.find]
    · split
      · simp [SMap.find]
      · rename_i h
        simp [SMap.find, h, ih]

theorem SMap.find_put_ne (m : SMap α) {k j : Nat} (v : α) (h : j ≠ k) : SMap.find (SMap.put m k v) j = SMap.find m j := by
  induction m with
  | nil => simp [SMap.put, SMap.find, Ne.symm h]
  | cons p m ih =>
    obtain ⟨i, w⟩ := p
    simp only [SMap.put]
    split
    · simp [SMap.find, Ne.symm h]
    · split
      · rename_i hi
        subst hi
        simp [SMap.find, Ne.symm h]
      · simp [SMap.find, ih]

@[simp] theorem SMap.get_del_same (d : α) (m : SMap α) (k : Nat) : SMap.get d (SMap.del m k) k = d := by
  induction m with
  | nil => rfl
  | cons p m ih =>
    obtain ⟨j, w⟩ := p
    simp only [SMap.del]
    split
    · exact ih
    · rename_i h
      simp [SMap.get, h, ih]

theorem SMap.get_del_ne (d : α) (m : SMap α) {k j : Nat} (h : j ≠ k) : SMap.get d (SMap.del m k) j = SMap.get d m j := by
  induction m with
  | nil => rfl
  | cons p m ih =>
    obtain ⟨i, w⟩ := p
    simp only [SMap.del]
    split
    · rename_i hi
      subst hi
      simp [SMap.get, Ne.symm h, ih]
    · simp [SMap.get, ih]

theorem SMap.get_set [DecidableEq α] (d : α) (m : SMap α) (k j : Nat) (v : α) :
    SMap.get d (SMap.set d m k v) j = if j = k then v else SMap.get d m j := by
  unfold SMap.set
  split
  · rename_i hv
    split
    · rename_i hj
      subst hj
      rw [SMap.get_del_same, hv]
    · rename_i hj
      exact SMap.get_del_ne d m hj
  · split
    · rename_i hj
      subst hj
      exact SMap.get_put_same d m j v
    · rename_i hj
      exact SMap.get_put_ne d m v hj

/-! ## Bytes -/

theorem Memory.read_write (m : Memory) (a b : Nat) (v : Byte) : (m.write a v).read b = if b = a then v else m.read b :=
  SMap.get_set 0 m a b v

/-- A store of bytes leaves every byte outside them alone. -/
theorem Memory.read_writeMap_off (place : Nat → Nat) (b : Nat) (bs : List Byte) (m : Memory) (a : Nat)
    (h : ∀ i < bs.length, place (a + i) ≠ b) : (m.writeMap place a bs).read b = m.read b := by
  induction bs generalizing m a with
  | nil => rfl
  | cons c cs ih =>
    simp only [Memory.writeMap]
    rw [ih]
    · rw [Memory.read_write, if_neg]
      exact fun e => h 0 (by simp) (by simpa using e.symm)
    · intro i hi
      have := h (i + 1) (by simpa using hi)
      rwa [show a + 1 + i = a + (i + 1) by omega]

theorem Memory.read_writeN_off (m : Memory) (a b : Nat) (bs : List Byte) (h : b < a ∨ a + bs.length ≤ b) :
    (m.writeN a bs).read b = m.read b :=
  Memory.read_writeMap_off id b bs m a (by intro i hi; simp; omega)

/-- A store of consecutive bytes is read back byte by byte. -/
theorem Memory.read_writeN_on (m : Memory) (a i : Nat) (bs : List Byte) (h : i < bs.length) :
    (m.writeN a bs).read (a + i) = bs[i] := by
  unfold Memory.writeN
  induction bs generalizing m a i with
  | nil => simp at h
  | cons c cs ih =>
    simp only [Memory.writeMap, id]
    cases i with
    | zero =>
      rw [Memory.read_writeMap_off id _ cs _ _ (by intro j hj; simp; omega), Memory.read_write]
      simp
    | succ i =>
      have := ih (m.write a c) (a + 1) i (by simpa using h)
      rw [show a + (i + 1) = a + 1 + i by omega]
      simpa using this

/-! ## The canonical form -/

/-- Every key of a table is above a bound, and its keys rise strictly. -/
def SMap.above (b : Nat) : SMap α → Prop
  | [] => True
  | (k, _) :: m => b ≤ k ∧ SMap.above (k + 1) m

theorem SMap.above_mono {b c : Nat} (h : b ≤ c) : {m : SMap α} → m.above c → m.above b
  | [], _ => trivial
  | (_, _) :: _, ⟨h1, h2⟩ => ⟨Nat.le_trans h h1, h2⟩

theorem SMap.sorted_cons (p : Nat × α) (m : SMap α) : SMap.sorted (p :: m) = true ↔ SMap.above (p.1 + 1) m := by
  induction m generalizing p with
  | nil => simp [SMap.sorted, SMap.above]
  | cons q m ih =>
    obtain ⟨j, v⟩ := p
    obtain ⟨k, w⟩ := q
    simp only [SMap.sorted, Bool.and_eq_true, decide_eq_true_eq, SMap.above, ih]
    exact Iff.rfl

theorem SMap.sorted_iff (m : SMap α) : m.sorted = true ↔ m.above 0 := by
  cases m with
  | nil => simp [SMap.sorted, SMap.above]
  | cons p m =>
    obtain ⟨k, v⟩ := p
    rw [SMap.sorted_cons]
    simp [SMap.above]

theorem SMap.above_put {b : Nat} {m : SMap α} (h : m.above b) {k : Nat} (hk : b ≤ k) (v : α) : (m.put k v).above b := by
  induction m generalizing b with
  | nil => exact ⟨hk, trivial⟩
  | cons p m ih =>
    obtain ⟨j, w⟩ := p
    obtain ⟨h1, h2⟩ := h
    simp only [SMap.put]
    split
    · rename_i hj
      exact ⟨hk, hj, h2⟩
    · split
      · rename_i he
        subst he
        exact ⟨h1, h2⟩
      · exact ⟨h1, ih h2 (by omega)⟩

theorem SMap.above_del {b : Nat} {m : SMap α} (h : m.above b) (k : Nat) : (m.del k).above b := by
  induction m generalizing b with
  | nil => trivial
  | cons p m ih =>
    obtain ⟨j, w⟩ := p
    obtain ⟨h1, h2⟩ := h
    simp only [SMap.del]
    split
    · exact ih (SMap.above_mono (by omega) h2)
    · exact ⟨h1, ih h2⟩

theorem SMap.above_filter {b : Nat} {m : SMap α} (h : m.above b) (p : Nat × α → Bool) : SMap.above b (m.filter p) := by
  induction m generalizing b with
  | nil => trivial
  | cons q m ih =>
    obtain ⟨j, w⟩ := q
    obtain ⟨h1, h2⟩ := h
    rw [List.filter_cons]
    split
    · exact ⟨h1, ih h2⟩
    · exact SMap.above_mono (by omega) (ih h2)

theorem SMap.mem_put {m : SMap α} {k : Nat} {v : α} {q : Nat × α} (h : q ∈ m.put k v) : q ∈ m ∨ q = (k, v) := by
  induction m with
  | nil => simpa [SMap.put] using h
  | cons p m ih =>
    obtain ⟨j, w⟩ := p
    simp only [SMap.put] at h
    split at h
    · rcases List.mem_cons.mp h with h | h
      · exact .inr h
      · exact .inl h
    · split at h
      · rcases List.mem_cons.mp h with h | h
        · exact .inr h
        · exact .inl (List.mem_cons_of_mem _ h)
      · rcases List.mem_cons.mp h with h | h
        · exact .inl (h ▸ List.mem_cons_self)
        · rcases ih h with h | h
          · exact .inl (List.mem_cons_of_mem _ h)
          · exact .inr h

theorem SMap.mem_del {m : SMap α} {k : Nat} {q : Nat × α} (h : q ∈ m.del k) : q ∈ m := by
  induction m with
  | nil => exact h
  | cons p m ih =>
    obtain ⟨j, w⟩ := p
    simp only [SMap.del] at h
    split at h
    · exact List.mem_cons_of_mem _ (ih h)
    · rcases List.mem_cons.mp h with h | h
      · exact h ▸ List.mem_cons_self
      · exact List.mem_cons_of_mem _ (ih h)

theorem Memory.wf_iff (m : Memory) : m.wf = true ↔ SMap.above 0 m ∧ ∀ c ∈ m, c.2 ≠ 0 := by
  simp [Memory.wf, SMap.sorted_iff]

theorem Memory.wf_nil : Memory.wf [] = true := rfl

theorem Memory.wf_write {m : Memory} (h : m.wf = true) (a : Nat) (b : Byte) : (m.write a b).wf = true := by
  rw [Memory.wf_iff] at *
  obtain ⟨h1, h2⟩ := h
  unfold Memory.write SMap.set
  split
  · exact ⟨SMap.above_del h1 a, fun c hc => h2 c (SMap.mem_del hc)⟩
  · rename_i hb
    refine ⟨SMap.above_put h1 (Nat.zero_le a) b, fun c hc => ?_⟩
    rcases SMap.mem_put hc with hc | hc
    · exact h2 c hc
    · exact hc ▸ hb

theorem Memory.wf_writeMap (place : Nat → Nat) (bs : List Byte) {m : Memory} (h : m.wf = true) (a : Nat) :
    (m.writeMap place a bs).wf = true := by
  induction bs generalizing m a with
  | nil => exact h
  | cons c cs ih => exact ih (Memory.wf_write h (place a) c) (a + 1)

theorem Memory.wf_writeN {m : Memory} (h : m.wf = true) (a : Nat) (bs : List Byte) : (m.writeN a bs).wf = true :=
  Memory.wf_writeMap id bs h a

theorem Memory.wf_write64 {m : Memory} (h : m.wf = true) (a : Nat) (v : W64) : (m.write64 a v).wf = true :=
  Memory.wf_writeN h a _

theorem Memory.wf_filter {m : Memory} (h : m.wf = true) (p : Host.Cell → Bool) : Memory.wf (m.filter p) = true := by
  rw [Memory.wf_iff] at *
  exact ⟨SMap.above_filter h.1 p, fun c hc => h.2 c (List.mem_of_mem_filter hc)⟩

theorem Memory.wf_reset : Memory.wf State.reset.gmem = true := rfl

end Sys2Proof.Machine
end

