-- ==== Sys2Proof/Laws/Cairn.lean ====
section
/-! SUPPORT. What a restore finds where a manifest and its shards stand in memory (R411, R412). -/

namespace Sys2Proof.Machine

/-! ## Runs of bytes -/

theorem Memory.readN_map (m : Memory) (a n : Nat) : m.readN a n = (List.range n).map fun i => m.read (a + i) := by
  unfold Memory.readN
  induction n generalizing a with
  | zero => rfl
  | succ n ih =>
    rw [Memory.readMap, ih, List.range_succ_eq_map]
    simp [Function.comp_def, Nat.add_assoc, Nat.add_comm 1]

theorem Memory.readN_append (m : Memory) (a n k : Nat) : m.readN a (n + k) = m.readN a n ++ m.readN (a + n) k := by
  simp [Memory.readN_map, List.range_add, Nat.add_assoc]

theorem Memory.readN_writeN_on (m : Memory) (a : Nat) (bs : List Byte) : (m.writeN a bs).readN a bs.length = bs := by
  rw [Memory.readN_map]
  refine List.ext_getElem (by simp) fun i h _ => ?_
  simpa using Memory.read_writeN_on m a i bs (by simpa using h)

theorem Memory.readN_writeN_off (m : Memory) (a b n : Nat) (bs : List Byte) (h : b + n ≤ a ∨ a + bs.length ≤ b) :
    (m.writeN a bs).readN b n = m.readN b n := by
  simp only [Memory.readN_map]
  refine List.map_congr_left fun i hi => ?_
  have := List.mem_range.1 hi
  exact Memory.read_writeN_off m a (b + i) bs (by omega)

/-- Bytes read together are read one part after the other. -/
theorem Memory.readN_of_append {m : Memory} {a : Nat} {x y : List Byte} (h : m.readN a (x.length + y.length) = x ++ y) :
    m.readN a x.length = x ∧ m.readN (a + x.length) y.length = y := by
  rw [Memory.readN_append] at h
  exact List.append_inj h (by simp [Memory.readN_map])

/-! ## Fields -/

/-- A field of `k` bytes behind `n` others. -/
theorem headerField_toBytes {x z : List Byte} {n k v : Nat} (h : x.length = n) (hv : v < 256 ^ k) :
    headerField (x ++ (toBytes k v ++ z)) n k = v := by
  subst h
  rw [headerField, List.drop_left, List.take_append_of_le_length (by simp [length_toBytes]), List.take_of_length_le (by simp [length_toBytes]),
    ofBytes_toBytes k v hv]

theorem length_shardHeader (id step index kind length digest : Nat) : (shardHeader id step index kind length digest).length = 128 := by
  simp [shardHeader, length_toBytes]

theorem length_manifestEntry (index ga length digest : Nat) : (manifestEntry index ga length digest).length = 64 := by
  simp [manifestEntry, length_toBytes]

theorem toNat_lt_bytes {n : Nat} (d : BitVec (8 * n)) : d.toNat < 256 ^ n := Nat.lt_of_lt_of_eq d.isLt (Nat.pow_mul 2 8 n)
theorem digest_lt (d : BitVec 384) : d.toNat < 256 ^ 48 := toNat_lt_bytes (n := 48) d

/-- The fields of a header, as a restore reads them. -/
theorem header_fields {id step index kind length digest : Nat} (h0 : id < 2 ^ 32) (h1 : step < 2 ^ 64) (h2 : index < 2 ^ 32) (h3 : kind < 2 ^ 32)
    (h4 : length < 2 ^ 32) (h5 : digest < 256 ^ 48) :
    let b := shardHeader id step index kind length digest
    headerField b 0 4 = id ∧ headerField b 4 8 = step ∧ headerField b 12 4 = index ∧ headerField b 16 4 = kind ∧ headerField b 20 4 = length ∧
      headerField b 24 48 = digest := by
  intro b
  unfold b
  simp only [shardHeader]
  generalize List.replicate 56 (0 : Byte) = pad
  refine ⟨?_, ?_, ?_, ?_, ?_, ?_⟩
  · simpa using headerField_toBytes (x := []) (z := toBytes 8 step ++ (toBytes 4 index ++ (toBytes 4 kind ++ (toBytes 4 length ++
      (toBytes 48 digest ++ pad))))) rfl (show id < 256 ^ 4 from h0)
  · simpa [List.append_assoc] using headerField_toBytes (x := toBytes 4 id) (z := toBytes 4 index ++ (toBytes 4 kind ++ (toBytes 4 length ++
      (toBytes 48 digest ++ pad)))) (by simp [length_toBytes]) (show step < 256 ^ 8 from h1)
  · simpa [List.append_assoc] using headerField_toBytes (x := toBytes 4 id ++ toBytes 8 step) (z := toBytes 4 kind ++ (toBytes 4 length ++
      (toBytes 48 digest ++ pad))) (by simp [length_toBytes]) (show index < 256 ^ 4 from h2)
  · simpa [List.append_assoc] using headerField_toBytes (x := toBytes 4 id ++ toBytes 8 step ++ toBytes 4 index) (z := toBytes 4 length ++
      (toBytes 48 digest ++ pad)) (by simp [length_toBytes]) (show kind < 256 ^ 4 from h3)
  · simpa [List.append_assoc] using headerField_toBytes (x := toBytes 4 id ++ toBytes 8 step ++ toBytes 4 index ++ toBytes 4 kind) (z :=
      toBytes 48 digest ++ pad) (by simp [length_toBytes]) (show length < 256 ^ 4 from h4)
  · simpa [List.append_assoc] using headerField_toBytes (x := toBytes 4 id ++ toBytes 8 step ++ toBytes 4 index ++ toBytes 4 kind ++ toBytes 4 length)
      (z := pad) (by simp [length_toBytes]) h5

/-- A manifest entry, as a restore reads it. -/
theorem entry_ofList {index ga length digest : Nat} (h0 : index < 2 ^ 32) (h1 : ga < 2 ^ 64) (h2 : length < 2 ^ 32) (h3 : digest < 256 ^ 48) :
    ManifestEntry.ofList (manifestEntry index ga length digest) = ⟨index, ga, length, digest⟩ := by
  simp only [ManifestEntry.ofList, manifestEntry, ManifestEntry.mk.injEq]
  refine ⟨?_, ?_, ?_, ?_⟩
  · simpa using headerField_toBytes (x := []) (z := toBytes 8 ga ++ (toBytes 4 length ++ toBytes 48 digest)) rfl (show index < 256 ^ 4 from h0)
  · simpa [List.append_assoc] using headerField_toBytes (x := toBytes 4 index) (z := toBytes 4 length ++ toBytes 48 digest) (by simp [length_toBytes])
      (show ga < 256 ^ 8 from h1)
  · simpa [List.append_assoc] using headerField_toBytes (x := toBytes 4 index ++ toBytes 8 ga) (z := toBytes 48 digest) (by simp [length_toBytes])
      (show length < 256 ^ 4 from h2)
  · simpa [List.append_assoc] using headerField_toBytes (x := toBytes 4 index ++ toBytes 8 ga ++ toBytes 4 length) (z := []) (by simp [length_toBytes])
      h3

/-- One of the runs of equal length that follow one another. -/
theorem drop_take_flatMap {k : Nat} (f : Nat → List Byte) (hf : ∀ i, (f i).length = k) (z : List Byte) (n : Nat) :
    ∀ i, i < n → ((((List.range n).flatMap f) ++ z).drop (k * i)).take k = f i := by
  induction n generalizing f with
  | zero => intro i h; omega
  | succ n ih =>
    intro i h
    rw [List.range_succ_eq_map, List.flatMap_cons, List.append_assoc]
    cases i with
    | zero => simp [← hf 0]
    | succ i =>
      have e : k * (i + 1) = (f 0).length + k * i := by rw [hf 0, Nat.mul_succ]; omega
      rw [e, ← List.drop_drop, List.drop_left, List.flatMap_map]
      exact ih (fun i => f (i + 1)) (fun i => hf _) i (by omega)

theorem length_flatMap_const {k : Nat} (f : Nat → List Byte) (hf : ∀ i, (f i).length = k) (l : List Nat) : (l.flatMap f).length = k * l.length := by
  induction l with
  | nil => simp
  | cons a l ih => simp [hf, ih, Nat.mul_succ]; omega

/-! ## The Cairn -/

theorem Cairn.length_body (c : Cairn) (i : Nat) : (c.body i).length = c.bodyLength i := by simp [Cairn.body]
theorem Cairn.bodyLength_lt (c : Cairn) (i : Nat) : c.bodyLength i < 2 ^ 32 := Nat.mod_lt _ (by decide)
theorem Cairn.length_shard (c : Cairn) (i : Nat) : (c.shard i).length = 128 + c.bodyLength i := by
  simp [Cairn.shard, length_shardHeader, Cairn.length_body]
theorem Cairn.kindOf_lt (c : Cairn) (i : Nat) : c.kindOf i < 2 ^ 32 := by
  unfold Cairn.kindOf
  split
  · decide
  · split
    · split <;> decide
    · decide
theorem Cairn.length_manifestBody (c : Cairn) : c.manifestBody.length = 64 * c.shards + 8 := by
  simp [Cairn.manifestBody, length_flatMap_const _ fun _ => length_manifestEntry .., length_toBytes]
theorem Cairn.place_le (c : Cairn) {i j : Nat} (h : i ≤ j) : c.place i ≤ c.place j := by
  obtain ⟨d, rfl⟩ := Nat.le.dest h
  simp [Cairn.place, List.range_add]

theorem Cairn.place_succ (c : Cairn) (i : Nat) : c.place (i + 1) = c.place i + (128 + c.bodyLength i + 63) / 64 * 64 := by
  simp [Cairn.place, List.range_succ, Nat.add_assoc]
/-- A bound of where a shard lies. -/
theorem Cairn.place_bound (c : Cairn) (i : Nat) : c.place i ≤ c.dest + i * (2 ^ 32 + 192) := by
  induction i with
  | zero => simp [Cairn.place]
  | succ i ih => have := c.bodyLength_lt i; rw [Cairn.place_succ]; omega
/-- Each shard ends before the next one begins. -/
theorem Cairn.place_next (c : Cairn) (i : Nat) : c.place i + (128 + c.bodyLength i) ≤ c.place (i + 1) := by rw [Cairn.place_succ]; omega

/-- The shards of a Cairn and its manifest stand in memory. -/
def Cairn.Stands (c : Cairn) (m : Memory) : Prop :=
  (∀ i, i < c.shards → m.readN (c.place i) (128 + c.bodyLength i) = c.shard i) ∧
    m.readN c.manifestAt (128 + (64 * c.shards + 8)) = c.manifestBytes

/-- Its numbers fit their fields. -/
def Cairn.Fits (c : Cairn) : Prop := c.id < 2 ^ 32 ∧ 64 * c.shards + 8 < 2 ^ 32 ∧ c.manifestAt < 2 ^ 56

theorem State.shardAt_shard {s : State} {c : Cairn} (h : c.Stands s.gmem) (hf : c.Fits) {i : Nat} (hi : i < c.shards) :
    s.shardAt (c.place i) =
      (shardHeader c.id c.step.toNat i (c.kindOf i) (c.bodyLength i) (sha384 (c.body i)).toNat, c.body i) := by
  have hr := h.1 i hi
  rw [Cairn.shard] at hr
  have hl := length_shardHeader c.id c.step.toNat i (c.kindOf i) (c.bodyLength i) (sha384 (c.body i)).toNat
  rw [← hl, ← c.length_body i] at hr
  obtain ⟨h1, h2⟩ := Memory.readN_of_append hr
  rw [length_shardHeader] at h1 h2
  have hn : i < 2 ^ 32 := by have := hf.2.1; omega
  obtain ⟨-, -, -, -, e, -⟩ := header_fields hf.1 c.step.isLt hn (c.kindOf_lt i) (c.bodyLength_lt i) (digest_lt (sha384 (c.body i)))
  rw [c.length_body] at h1 h2
  rw [State.shardAt, h1]
  simp only [e, h2]

/-- A restore reads the manifest that stands at an address. -/
theorem State.manifestAt_stands {s : State} {c : Cairn} (h : c.Stands s.gmem) (hf : c.Fits) :
    s.manifestAt c.manifestAt = some (shardHeader c.id c.step.toNat c.shards 15 (64 * c.shards + 8) (sha384 c.manifestBody).toNat, c.manifestBody,
      (List.range c.shards).map fun i => ⟨i, c.place i, c.bodyLength i, (sha384 (c.body i)).toNat⟩) := by
  have hn : c.shards < 2 ^ 32 := by have := hf.2.1; omega
  have hr := h.2
  rw [Cairn.manifestBytes] at hr
  have hl := length_shardHeader c.id c.step.toNat c.shards 15 (64 * c.shards + 8) (sha384 c.manifestBody).toNat
  rw [← hl, ← c.length_manifestBody] at hr
  obtain ⟨h1, h2⟩ := Memory.readN_of_append hr
  rw [length_shardHeader] at h1 h2
  obtain ⟨-, -, -, k, e, -⟩ := header_fields (kind := 15) hf.1 c.step.isLt hn (by decide) hf.2.1 (digest_lt (sha384 c.manifestBody))
  have hb : s.shardAt c.manifestAt = (shardHeader c.id c.step.toNat c.shards 15 (64 * c.shards + 8) (sha384 c.manifestBody).toNat, c.manifestBody) := by
    rw [State.shardAt, h1]
    rw [c.length_manifestBody] at h2 ⊢
    simp only [e, h2]
  have hd : (64 * c.shards + 8) / 64 = c.shards := by omega
  have hm : (64 * c.shards + 8) % 64 = 8 := by omega
  have hc : headerField c.manifestBody (64 * c.shards) 8 = cairnCommit := by
    have := headerField_toBytes (x := (List.range c.shards).flatMap fun i => manifestEntry i (c.place i) (c.bodyLength i) (sha384 (c.body i)).toNat)
      (z := []) (n := 64 * c.shards) (k := 8) (v := cairnCommit) (by simp [length_flatMap_const _ fun _ => length_manifestEntry ..]) (by decide)
    simpa [Cairn.manifestBody] using this
  have hg : gaValid c.manifestAt = true := by simpa [gaValid] using hf.2.2
  simp only [State.manifestAt, hb, k, c.length_manifestBody, hd, hm, hc, hg]
  simp only [ne_eq, not_true_eq_false, Bool.not_true, Bool.false_eq_true, or_self, if_false, Option.some.injEq, Prod.mk.injEq, true_and]
  refine List.map_congr_left fun i hi => ?_
  have hi := List.mem_range.1 hi
  rw [Cairn.manifestBody, drop_take_flatMap _ (fun _ => length_manifestEntry ..) _ _ i hi]
  have : c.place i ≤ c.manifestAt := c.place_le (by omega)
  exact entry_ofList (by omega) (by have := hf.2.2; omega) (c.bodyLength_lt i) (digest_lt (sha384 (c.body i)))

/-- A restore finds a Cairn of the archive whose shards and manifest stand where it was written. -/
theorem State.readCairn_stands {s : State} {c : Cairn} {l : List Cairn} (h : c.Stands s.gmem) (hf : c.Fits) (ha : s.archive = c :: l) :
    s.readCairn c.manifestAt c.domain = .ok c := by
  have hn : c.shards < 2 ^ 32 := by have := hf.2.1; omega
  obtain ⟨i, t, -, -, -, d⟩ := header_fields (kind := 15) hf.1 c.step.isLt hn (by decide) hf.2.1 (digest_lt (sha384 c.manifestBody))
  have hs : ∀ i, i < c.shards → headerField (s.shardAt (c.place i)).1 4 8 = c.step.toNat ∧
      s.shardFails ⟨i, c.place i, c.bodyLength i, (sha384 (c.body i)).toNat⟩ = false := by
    intro i hi
    obtain ⟨-, t, -, -, -, d⟩ := header_fields (index := i) hf.1 c.step.isLt (by omega) (c.kindOf_lt i) (c.bodyLength_lt i) (digest_lt (sha384 (c.body i)))
    simp only [State.shardFails, State.shardAt_shard h hf hi, t, d, c.length_body]
    simp
  have ho : ((List.range c.shards).map fun i => (⟨i, c.place i, c.bodyLength i, (sha384 (c.body i)).toNat⟩ : ManifestEntry)).filter
      (fun e => headerField (s.shardAt e.ga).1 4 8 != c.step.toNat) = [] := by
    simp only [List.filter_eq_nil_iff, List.mem_map, List.mem_range]
    rintro e ⟨i, hi, rfl⟩
    simp [(hs i hi).1]
  have hx : ((List.range c.shards).map fun i => (⟨i, c.place i, c.bodyLength i, (sha384 (c.body i)).toNat⟩ : ManifestEntry)).find? s.shardFails = none := by
    simp only [List.find?_eq_none, List.mem_map, List.mem_range]
    rintro e ⟨i, hi, rfl⟩
    simp [(hs i hi).2]
  rw [State.readCairn, State.manifestAt_stands h hf]
  simp only [t, d, i, ho, hx, ha]
  simp [Function.comp_def]

end Sys2Proof.Machine
end

