-- ==== Sys2Proof/Laws/Dispatch.lean ====
section
/-! SUPPORT. What the dispatch answers for each instruction: a proof rewrites with these and never unfolds the match. -/

namespace Sys2Proof.Machine

variable (s : State)

@[simp] theorem exec_add {d} {a} {b} : exec (.add d a b) s = execAdd d a b s := rfl
@[simp] theorem exec_sub {d} {a} {b} : exec (.sub d a b) s = execSub d a b s := rfl
@[simp] theorem exec_and {d} {a} {b} : exec (.and d a b) s = execAnd d a b s := rfl
@[simp] theorem exec_or {d} {a} {b} : exec (.or d a b) s = execOr d a b s := rfl
@[simp] theorem exec_xor {d} {a} {b} : exec (.xor d a b) s = execXor d a b s := rfl
@[simp] theorem exec_andn {d} {a} {b} : exec (.andn d a b) s = execAndn d a b s := rfl
@[simp] theorem exec_orn {d} {a} {b} : exec (.orn d a b) s = execOrn d a b s := rfl
@[simp] theorem exec_xnor {d} {a} {b} : exec (.xnor d a b) s = execXnor d a b s := rfl
@[simp] theorem exec_sll {d} {a} {b} : exec (.sll d a b) s = execSll d a b s := rfl
@[simp] theorem exec_srl {d} {a} {b} : exec (.srl d a b) s = execSrl d a b s := rfl
@[simp] theorem exec_sra {d} {a} {b} : exec (.sra d a b) s = execSra d a b s := rfl
@[simp] theorem exec_rol {d} {a} {b} : exec (.rol d a b) s = execRol d a b s := rfl
@[simp] theorem exec_ror {d} {a} {b} : exec (.ror d a b) s = execRor d a b s := rfl
@[simp] theorem exec_slt {d} {a} {b} : exec (.slt d a b) s = execSlt d a b s := rfl
@[simp] theorem exec_sltu {d} {a} {b} : exec (.sltu d a b) s = execSltu d a b s := rfl
@[simp] theorem exec_seq {d} {a} {b} : exec (.seq d a b) s = execSeq d a b s := rfl
@[simp] theorem exec_min {d} {a} {b} : exec (.min d a b) s = execMin d a b s := rfl
@[simp] theorem exec_max {d} {a} {b} : exec (.max d a b) s = execMax d a b s := rfl
@[simp] theorem exec_minu {d} {a} {b} : exec (.minu d a b) s = execMinu d a b s := rfl
@[simp] theorem exec_maxu {d} {a} {b} : exec (.maxu d a b) s = execMaxu d a b s := rfl
@[simp] theorem exec_mul {d} {a} {b} : exec (.mul d a b) s = execMul d a b s := rfl
@[simp] theorem exec_mulh {d} {a} {b} : exec (.mulh d a b) s = execMulh d a b s := rfl
@[simp] theorem exec_mulhu {d} {a} {b} : exec (.mulhu d a b) s = execMulhu d a b s := rfl
@[simp] theorem exec_mulhsu {d} {a} {b} : exec (.mulhsu d a b) s = execMulhsu d a b s := rfl
@[simp] theorem exec_div {d} {a} {b} : exec (.div d a b) s = execDiv d a b s := rfl
@[simp] theorem exec_divu {d} {a} {b} : exec (.divu d a b) s = execDivu d a b s := rfl
@[simp] theorem exec_rem {d} {a} {b} : exec (.rem d a b) s = execRem d a b s := rfl
@[simp] theorem exec_remu {d} {a} {b} : exec (.remu d a b) s = execRemu d a b s := rfl
@[simp] theorem exec_cmovz {d} {a} {b} : exec (.cmovz d a b) s = execCmovz d a b s := rfl
@[simp] theorem exec_cmovn {d} {a} {b} : exec (.cmovn d a b) s = execCmovn d a b s := rfl
@[simp] theorem exec_addw {d} {a} {b} : exec (.addw d a b) s = execAddw d a b s := rfl
@[simp] theorem exec_subw {d} {a} {b} : exec (.subw d a b) s = execSubw d a b s := rfl
@[simp] theorem exec_clz {d} {a} : exec (.clz d a) s = execClz d a s := rfl
@[simp] theorem exec_ctz {d} {a} : exec (.ctz d a) s = execCtz d a s := rfl
@[simp] theorem exec_popc {d} {a} : exec (.popc d a) s = execPopc d a s := rfl
@[simp] theorem exec_brev {d} {a} : exec (.brev d a) s = execBrev d a s := rfl
@[simp] theorem exec_bswap {d} {a} : exec (.bswap d a) s = execBswap d a s := rfl
@[simp] theorem exec_sextb {d} {a} : exec (.sextb d a) s = execSextb d a s := rfl
@[simp] theorem exec_sexth {d} {a} : exec (.sexth d a) s = execSexth d a s := rfl
@[simp] theorem exec_sextw {d} {a} : exec (.sextw d a) s = execSextw d a s := rfl
@[simp] theorem exec_addi {d} {a} {imm} : exec (.addi d a imm) s = execAddi d a imm s := rfl
@[simp] theorem exec_andi {d} {a} {imm} : exec (.andi d a imm) s = execAndi d a imm s := rfl
@[simp] theorem exec_ori {d} {a} {imm} : exec (.ori d a imm) s = execOri d a imm s := rfl
@[simp] theorem exec_xori {d} {a} {imm} : exec (.xori d a imm) s = execXori d a imm s := rfl
@[simp] theorem exec_slti {d} {a} {imm} : exec (.slti d a imm) s = execSlti d a imm s := rfl
@[simp] theorem exec_sltiu {d} {a} {imm} : exec (.sltiu d a imm) s = execSltiu d a imm s := rfl
@[simp] theorem exec_extu {d} {a} {l} {p} : exec (.extu d a l p) s = execExtu d a l p s := rfl
@[simp] theorem exec_exts {d} {a} {l} {p} : exec (.exts d a l p) s = execExts d a l p s := rfl
@[simp] theorem exec_ins {d} {a} {l} {p} : exec (.ins d a l p) s = execIns d a l p s := rfl
@[simp] theorem exec_slli {d} {a} {n} : exec (.slli d a n) s = execSlli d a n s := rfl
@[simp] theorem exec_srli {d} {a} {n} : exec (.srli d a n) s = execSrli d a n s := rfl
@[simp] theorem exec_srai {d} {a} {n} : exec (.srai d a n) s = execSrai d a n s := rfl
@[simp] theorem exec_rori {d} {a} {n} : exec (.rori d a n) s = execRori d a n s := rfl
@[simp] theorem exec_lui {d} {imm} : exec (.lui d imm) s = execLui d imm s := rfl
@[simp] theorem exec_sloi {d} {a} {imm} : exec (.sloi d a imm) s = execSloi d a imm s := rfl
@[simp] theorem exec_fadd {d} {a} {b} {f} {m} : exec (.fadd d a b f m) s = execFadd d a b f m s := rfl
@[simp] theorem exec_fsub {d} {a} {b} {f} {m} : exec (.fsub d a b f m) s = execFsub d a b f m s := rfl
@[simp] theorem exec_fmul {d} {a} {b} {f} {m} : exec (.fmul d a b f m) s = execFmul d a b f m s := rfl
@[simp] theorem exec_fdiv {d} {a} {b} {f} {m} : exec (.fdiv d a b f m) s = execFdiv d a b f m s := rfl
@[simp] theorem exec_fsqrt {d} {a} {f} {m} : exec (.fsqrt d a f m) s = execFsqrt d a f m s := rfl
@[simp] theorem exec_fmin {d} {a} {b} {f} {m} : exec (.fmin d a b f m) s = execFmin d a b f m s := rfl
@[simp] theorem exec_fmax {d} {a} {b} {f} {m} : exec (.fmax d a b f m) s = execFmax d a b f m s := rfl
@[simp] theorem exec_fma {d} {a} {b} {f} {m} : exec (.fma d a b f m) s = execFma d a b f m s := rfl
@[simp] theorem exec_fms {d} {a} {b} {f} {m} : exec (.fms d a b f m) s = execFms d a b f m s := rfl
@[simp] theorem exec_fnma {d} {a} {b} {f} {m} : exec (.fnma d a b f m) s = execFnma d a b f m s := rfl
@[simp] theorem exec_feq {d} {a} {b} {f} : exec (.feq d a b f) s = execFeq d a b f s := rfl
@[simp] theorem exec_flt {d} {a} {b} {f} : exec (.flt d a b f) s = execFlt d a b f s := rfl
@[simp] theorem exec_fle {d} {a} {b} {f} : exec (.fle d a b f) s = execFle d a b f s := rfl
@[simp] theorem exec_fclass {d} {a} {f} : exec (.fclass d a f) s = execFclass d a f s := rfl
@[simp] theorem exec_fsgnj {d} {a} {b} {f} : exec (.fsgnj d a b f) s = execFsgnj d a b f s := rfl
@[simp] theorem exec_fsgnjn {d} {a} {b} {f} : exec (.fsgnjn d a b f) s = execFsgnjn d a b f s := rfl
@[simp] theorem exec_fsgnjx {d} {a} {b} {f} : exec (.fsgnjx d a b f) s = execFsgnjx d a b f s := rfl
@[simp] theorem exec_cvt {d} {a} {m} {t} {f} : exec (.cvt d a m t f) s = execCvt d a m t f s := rfl
@[simp] theorem exec_beq {p} {q} {o} : exec (.beq p q o) s = execBeq p q o s := rfl
@[simp] theorem exec_bne {p} {q} {o} : exec (.bne p q o) s = execBne p q o s := rfl
@[simp] theorem exec_blt {p} {q} {o} : exec (.blt p q o) s = execBlt p q o s := rfl
@[simp] theorem exec_bge {p} {q} {o} : exec (.bge p q o) s = execBge p q o s := rfl
@[simp] theorem exec_bltu {p} {q} {o} : exec (.bltu p q o) s = execBltu p q o s := rfl
@[simp] theorem exec_bgeu {p} {q} {o} : exec (.bgeu p q o) s = execBgeu p q o s := rfl
@[simp] theorem exec_jal {d} {imm} : exec (.jal d imm) s = execJal d imm s := rfl
@[simp] theorem exec_jalr {d} {a} {imm} : exec (.jalr d a imm) s = execJalr d a imm s := rfl
@[simp] theorem exec_codeEndTrap : exec .codeEndTrap s = execCodeEndTrap s := rfl
@[simp] theorem exec_lb {d} {a} {o} : exec (.lb d a o) s = execLb d a o s := rfl
@[simp] theorem exec_lbu {d} {a} {o} : exec (.lbu d a o) s = execLbu d a o s := rfl
@[simp] theorem exec_lh {d} {a} {o} : exec (.lh d a o) s = execLh d a o s := rfl
@[simp] theorem exec_lhu {d} {a} {o} : exec (.lhu d a o) s = execLhu d a o s := rfl
@[simp] theorem exec_lw {d} {a} {o} : exec (.lw d a o) s = execLw d a o s := rfl
@[simp] theorem exec_lwu {d} {a} {o} : exec (.lwu d a o) s = execLwu d a o s := rfl
@[simp] theorem exec_ld {d} {a} {o} : exec (.ld d a o) s = execLd d a o s := rfl
@[simp] theorem exec_sb {t} {a} {o} : exec (.sb t a o) s = execSb t a o s := rfl
@[simp] theorem exec_sh {t} {a} {o} : exec (.sh t a o) s = execSh t a o s := rfl
@[simp] theorem exec_sw {t} {a} {o} : exec (.sw t a o) s = execSw t a o s := rfl
@[simp] theorem exec_sd {t} {a} {o} : exec (.sd t a o) s = execSd t a o s := rfl
@[simp] theorem exec_sn {t} {a} {o} {h} : exec (.sn t a o h) s = execSn t a o h s := rfl
@[simp] theorem exec_cld {d} {a} : exec (.cld d a) s = execCld d a s := rfl
@[simp] theorem exec_cldGe {d} {a} {b} : exec (.cldGe d a b) s = execCldGe d a b s := rfl
@[simp] theorem exec_cldEq {d} {a} {b} : exec (.cldEq d a b) s = execCldEq d a b s := rfl
@[simp] theorem exec_cldAcq {d} {a} {b} : exec (.cldAcq d a b) s = execCldAcq d a b s := rfl
@[simp] theorem exec_cver {d} {a} : exec (.cver d a) s = execCver d a s := rfl
@[simp] theorem exec_cstB {t} {a} : exec (.cstB t a) s = execCstB t a s := rfl
@[simp] theorem exec_cstH {t} {a} : exec (.cstH t a) s = execCstH t a s := rfl
@[simp] theorem exec_cstW {t} {a} : exec (.cstW t a) s = execCstW t a s := rfl
@[simp] theorem exec_cstD {t} {a} : exec (.cstD t a) s = execCstD t a s := rfl
@[simp] theorem exec_cstNl {t} {a} : exec (.cstNl t a) s = execCstNl t a s := rfl
@[simp] theorem exec_cstNh {t} {a} : exec (.cstNh t a) s = execCstNh t a s := rfl
@[simp] theorem exec_cstRel {t} {a} : exec (.cstRel t a) s = execCstRel t a s := rfl
@[simp] theorem exec_caadd {d} {a} {b} : exec (.caadd d a b) s = execCaadd d a b s := rfl
@[simp] theorem exec_camin {d} {a} {b} : exec (.camin d a b) s = execCamin d a b s := rfl
@[simp] theorem exec_camax {d} {a} {b} : exec (.camax d a b) s = execCamax d a b s := rfl
@[simp] theorem exec_caminu {d} {a} {b} : exec (.caminu d a b) s = execCaminu d a b s := rfl
@[simp] theorem exec_camaxu {d} {a} {b} : exec (.camaxu d a b) s = execCamaxu d a b s := rfl
@[simp] theorem exec_caand {d} {a} {b} : exec (.caand d a b) s = execCaand d a b s := rfl
@[simp] theorem exec_caor {d} {a} {b} : exec (.caor d a b) s = execCaor d a b s := rfl
@[simp] theorem exec_caxor {d} {a} {b} : exec (.caxor d a b) s = execCaxor d a b s := rfl
@[simp] theorem exec_caswap {d} {a} {b} : exec (.caswap d a b) s = execCaswap d a b s := rfl
@[simp] theorem exec_cacas {d} {a} {b} : exec (.cacas d a b) s = execCacas d a b s := rfl
@[simp] theorem exec_cafadd {d} {a} {b} : exec (.cafadd d a b) s = execCafadd d a b s := rfl
@[simp] theorem exec_cdefer {d} {a} {b} {c} : exec (.cdefer d a b c) s = execCdefer d a b c s := rfl
@[simp] theorem exec_crecl {a} {b} : exec (.crecl a b) s = execCrecl a b s := rfl
@[simp] theorem exec_creclR {d} {a} {b} : exec (.creclR d a b) s = execCreclR d a b s := rfl
@[simp] theorem exec_carm {d} {a} {c} : exec (.carm d a c) s = execCarm d a c s := rfl
@[simp] theorem exec_cdisarm {d} {a} : exec (.cdisarm d a) s = execCdisarm d a s := rfl
@[simp] theorem exec_dldB {d} {a} : exec (.dldB d a) s = execDldB d a s := rfl
@[simp] theorem exec_dldH {d} {a} : exec (.dldH d a) s = execDldH d a s := rfl
@[simp] theorem exec_dldW {d} {a} : exec (.dldW d a) s = execDldW d a s := rfl
@[simp] theorem exec_dldD {d} {a} : exec (.dldD d a) s = execDldD d a s := rfl
@[simp] theorem exec_dstB {t} {a} : exec (.dstB t a) s = execDstB t a s := rfl
@[simp] theorem exec_dstH {t} {a} : exec (.dstH t a) s = execDstH t a s := rfl
@[simp] theorem exec_dstW {t} {a} : exec (.dstW t a) s = execDstW t a s := rfl
@[simp] theorem exec_dstD {t} {a} : exec (.dstD t a) s = execDstD t a s := rfl
@[simp] theorem exec_fence {q} {c} : exec (.fence q c) s = execFence q c s := rfl
@[simp] theorem exec_efence : exec .efence s = execEfence s := rfl
@[simp] theorem exec_sbindR {d} {a} : exec (.sbindR d a) s = execSbindR d a s := rfl
@[simp] theorem exec_sbindW {d} {a} : exec (.sbindW d a) s = execSbindW d a s := rfl
@[simp] theorem exec_sunbind {d} : exec (.sunbind d) s = execSunbind d s := rfl
@[simp] theorem exec_srd {d} {a} : exec (.srd d a) s = execSrd d a s := rfl
@[simp] theorem exec_swr {d} {a} : exec (.swr d a) s = execSwr d a s := rfl
@[simp] theorem exec_sclose {d} : exec (.sclose d) s = execSclose d s := rfl
@[simp] theorem exec_waitc {l} {q} {p} {m} : exec (.waitc l q p m) s = execWaitc l q p m s := rfl
@[simp] theorem exec_mcmd {d} {a} {b} : exec (.mcmd d a b) s = execMcmd d a b s := rfl
@[simp] theorem exec_copy {a} : exec (.copy a) s = execCopy a s := rfl
@[simp] theorem exec_copyNb {d} {a} : exec (.copyNb d a) s = execCopyNb d a s := rfl
@[simp] theorem exec_cqpop {d} : exec (.cqpop d) s = execCqpop d s := rfl
@[simp] theorem exec_recv {d} {b} {c} : exec (.recv d b c) s = execRecv d b c s := rfl
@[simp] theorem exec_send {a} {b} {c} : exec (.send a b c) s = execSend a b c s := rfl
@[simp] theorem exec_sendNb {d} {a} {b} {c} : exec (.sendNb d a b c) s = execSendNb d a b c s := rfl
@[simp] theorem exec_sendi {d} {a} {b} {c} : exec (.sendi d a b c) s = execSendi d a b c s := rfl
@[simp] theorem exec_give {d} {a} {b} {c} : exec (.give d a b c) s = execGive d a b c s := rfl
@[simp] theorem exec_ralloc {d} {a} : exec (.ralloc d a) s = execRalloc d a s := rfl
@[simp] theorem exec_rfree {a} : exec (.rfree a) s = execRfree a s := rfl
@[simp] theorem exec_spawn {d} {a} : exec (.spawn d a) s = execSpawn d a s := rfl
@[simp] theorem exec_link {a} : exec (.link a) s = execLink a s := rfl
@[simp] theorem exec_unlink {a} : exec (.unlink a) s = execUnlink a s := rfl
@[simp] theorem exec_monitor {d} {a} : exec (.monitor d a) s = execMonitor d a s := rfl
@[simp] theorem exec_demon {a} : exec (.demon a) s = execDemon a s := rfl
@[simp] theorem exec_trapex {d} {a} : exec (.trapex d a) s = execTrapex d a s := rfl
@[simp] theorem exec_kill {a} : exec (.kill a) s = execKill a s := rfl
@[simp] theorem exec_exit {a} {b} : exec (.exit a b) s = execExit a b s := rfl
@[simp] theorem exec_retire : exec .retire s = execRetire s := rfl
@[simp] theorem exec_rets {a} : exec (.rets a) s = execRets a s := rfl
@[simp] theorem exec_yield : exec .yield s = execYield s := rfl
@[simp] theorem exec_tmset {a} : exec (.tmset a) s = execTmset a s := rfl
@[simp] theorem exec_tmcan {d} : exec (.tmcan d) s = execTmcan d s := rfl
@[simp] theorem exec_wix {d} {a} {k} : exec (.wix d a k) s = execWix d a k s := rfl
@[simp] theorem exec_wixG {d} {a} {l} : exec (.wixG d a l) s = execWixG d a l s := rfl
@[simp] theorem exec_mtm {d} {a} : exec (.mtm d a) s = execMtm d a s := rfl
@[simp] theorem exec_mfm {d} {a} : exec (.mfm d a) s = execMfm d a s := rfl
@[simp] theorem exec_vtml {a} : exec (.vtml a) s = execVtml a s := rfl
@[simp] theorem exec_vtmlIn {d} : exec (.vtmlIn d) s = execVtmlIn d s := rfl
@[simp] theorem exec_vtmh {a} : exec (.vtmh a) s = execVtmh a s := rfl
@[simp] theorem exec_vtmhIn {d} : exec (.vtmhIn d) s = execVtmhIn d s := rfl
@[simp] theorem exec_mfs {d} {a} : exec (.mfs d a) s = execMfs d a s := rfl
@[simp] theorem exec_supset {d} {a} : exec (.supset d a) s = execSupset d a s := rfl
@[simp] theorem exec_supdel {d} {a} : exec (.supdel d a) s = execSupdel d a s := rfl
@[simp] theorem exec_pkill {a} {b} : exec (.pkill a b) s = execPkill a b s := rfl
@[simp] theorem exec_psend {a} {b} {c} : exec (.psend a b c) s = execPsend a b c s := rfl
@[simp] theorem exec_mfcr {d} {r} : exec (.mfcr d r) s = execMfcr d r s := rfl
@[simp] theorem exec_mtcr {a} {r} : exec (.mtcr a r) s = execMtcr a r s := rfl
@[simp] theorem exec_statusWrite {a} : exec (.statusWrite a) s = execStatusWrite a s := rfl
@[simp] theorem exec_fpctlWrite {a} : exec (.fpctlWrite a) s = execFpctlWrite a s := rfl
@[simp] theorem exec_eperrWrite {a} : exec (.eperrWrite a) s = execEperrWrite a s := rfl
@[simp] theorem exec_vlenWrite {a} : exec (.vlenWrite a) s = execVlenWrite a s := rfl
@[simp] theorem exec_hmaskWrite {a} : exec (.hmaskWrite a) s = execHmaskWrite a s := rfl
@[simp] theorem exec_timerWrite {a} : exec (.timerWrite a) s = execTimerWrite a s := rfl
@[simp] theorem exec_breakTrap {imm} : exec (.breakTrap imm) s = execBreakTrap imm s := rfl
@[simp] theorem exec_vadd {d} {a} {b} {q} {t} {m} {w} : exec (.vadd d a b q t m w) s = execVadd d a b q t m w s := rfl
@[simp] theorem exec_vsub {d} {a} {b} {q} {t} {m} {w} : exec (.vsub d a b q t m w) s = execVsub d a b q t m w s := rfl
@[simp] theorem exec_vmul {d} {a} {b} {q} {t} {m} {w} : exec (.vmul d a b q t m w) s = execVmul d a b q t m w s := rfl
@[simp] theorem exec_vmulh {d} {a} {b} {q} {t} {m} {w} : exec (.vmulh d a b q t m w) s = execVmulh d a b q t m w s := rfl
@[simp] theorem exec_vmin {d} {a} {b} {q} {t} {m} {w} : exec (.vmin d a b q t m w) s = execVmin d a b q t m w s := rfl
@[simp] theorem exec_vmax {d} {a} {b} {q} {t} {m} {w} : exec (.vmax d a b q t m w) s = execVmax d a b q t m w s := rfl
@[simp] theorem exec_vminu {d} {a} {b} {q} {t} {m} {w} : exec (.vminu d a b q t m w) s = execVminu d a b q t m w s := rfl
@[simp] theorem exec_vmaxu {d} {a} {b} {q} {t} {m} {w} : exec (.vmaxu d a b q t m w) s = execVmaxu d a b q t m w s := rfl
@[simp] theorem exec_vand {d} {a} {b} {q} {t} {m} {w} : exec (.vand d a b q t m w) s = execVand d a b q t m w s := rfl
@[simp] theorem exec_vor {d} {a} {b} {q} {t} {m} {w} : exec (.vor d a b q t m w) s = execVor d a b q t m w s := rfl
@[simp] theorem exec_vxor {d} {a} {b} {q} {t} {m} {w} : exec (.vxor d a b q t m w) s = execVxor d a b q t m w s := rfl
@[simp] theorem exec_vsll {d} {a} {b} {q} {t} {m} {w} : exec (.vsll d a b q t m w) s = execVsll d a b q t m w s := rfl
@[simp] theorem exec_vsrl {d} {a} {b} {q} {t} {m} {w} : exec (.vsrl d a b q t m w) s = execVsrl d a b q t m w s := rfl
@[simp] theorem exec_vsra {d} {a} {b} {q} {t} {m} {w} : exec (.vsra d a b q t m w) s = execVsra d a b q t m w s := rfl
@[simp] theorem exec_vadds {d} {a} {b} {q} {t} {m} {w} : exec (.vadds d a b q t m w) s = execVadds d a b q t m w s := rfl
@[simp] theorem exec_vsubs {d} {a} {b} {q} {t} {m} {w} : exec (.vsubs d a b q t m w) s = execVsubs d a b q t m w s := rfl
@[simp] theorem exec_vfadd {d} {a} {b} {q} {t} {m} {w} : exec (.vfadd d a b q t m w) s = execVfadd d a b q t m w s := rfl
@[simp] theorem exec_vfsub {d} {a} {b} {q} {t} {m} {w} : exec (.vfsub d a b q t m w) s = execVfsub d a b q t m w s := rfl
@[simp] theorem exec_vfmul {d} {a} {b} {q} {t} {m} {w} : exec (.vfmul d a b q t m w) s = execVfmul d a b q t m w s := rfl
@[simp] theorem exec_vfdiv {d} {a} {b} {q} {t} {m} {w} : exec (.vfdiv d a b q t m w) s = execVfdiv d a b q t m w s := rfl
@[simp] theorem exec_vfsqrt {d} {a} {q} {t} {m} {w} : exec (.vfsqrt d a q t m w) s = execVfsqrt d a q t m w s := rfl
@[simp] theorem exec_vfmin {d} {a} {b} {q} {t} {m} {w} : exec (.vfmin d a b q t m w) s = execVfmin d a b q t m w s := rfl
@[simp] theorem exec_vfmax {d} {a} {b} {q} {t} {m} {w} : exec (.vfmax d a b q t m w) s = execVfmax d a b q t m w s := rfl
@[simp] theorem exec_vfma {d} {a} {b} {q} {t} {m} {w} : exec (.vfma d a b q t m w) s = execVfma d a b q t m w s := rfl
@[simp] theorem exec_vfeq {d} {a} {b} {q} {t} {m} {w} : exec (.vfeq d a b q t m w) s = execVfeq d a b q t m w s := rfl
@[simp] theorem exec_vflt {d} {a} {b} {q} {t} {m} {w} : exec (.vflt d a b q t m w) s = execVflt d a b q t m w s := rfl
@[simp] theorem exec_vfle {d} {a} {b} {q} {t} {m} {w} : exec (.vfle d a b q t m w) s = execVfle d a b q t m w s := rfl
@[simp] theorem exec_vfsum {d} {a} {q} {t} {w} : exec (.vfsum d a q t w) s = execVfsum d a q t w s := rfl
@[simp] theorem exec_vceq {d} {a} {b} {q} {t} {m} {w} : exec (.vceq d a b q t m w) s = execVceq d a b q t m w s := rfl
@[simp] theorem exec_vclt {d} {a} {b} {q} {t} {m} {w} : exec (.vclt d a b q t m w) s = execVclt d a b q t m w s := rfl
@[simp] theorem exec_vcltu {d} {a} {b} {q} {t} {m} {w} : exec (.vcltu d a b q t m w) s = execVcltu d a b q t m w s := rfl
@[simp] theorem exec_vsum {d} {a} {q} {t} {w} : exec (.vsum d a q t w) s = execVsum d a q t w s := rfl
@[simp] theorem exec_vrmin {d} {a} {q} {t} {w} : exec (.vrmin d a q t w) s = execVrmin d a q t w s := rfl
@[simp] theorem exec_vrmax {d} {a} {q} {t} {w} : exec (.vrmax d a q t w) s = execVrmax d a q t w s := rfl
@[simp] theorem exec_vrminu {d} {a} {q} {t} {w} : exec (.vrminu d a q t w) s = execVrminu d a q t w s := rfl
@[simp] theorem exec_vrmaxu {d} {a} {q} {t} {w} : exec (.vrmaxu d a q t w) s = execVrmaxu d a q t w s := rfl
@[simp] theorem exec_vmand {d} {a} {b} {q} {t} {m} : exec (.vmand d a b q t m) s = execVmand d a b q t m s := rfl
@[simp] theorem exec_vmor {d} {a} {b} {q} {t} {m} : exec (.vmor d a b q t m) s = execVmor d a b q t m s := rfl
@[simp] theorem exec_vmxor {d} {a} {b} {q} {t} {m} : exec (.vmxor d a b q t m) s = execVmxor d a b q t m s := rfl
@[simp] theorem exec_vmnot {d} {a} {q} {t} {m} : exec (.vmnot d a q t m) s = execVmnot d a q t m s := rfl
@[simp] theorem exec_vmpop {d} {a} {q} {t} : exec (.vmpop d a q t) s = execVmpop d a q t s := rfl
@[simp] theorem exec_vmov {d} {a} {q} {t} {m} {w} : exec (.vmov d a q t m w) s = execVmov d a q t m w s := rfl
@[simp] theorem exec_vsplat {d} {a} {k} {q} {t} {m} {w} : exec (.vsplat d a k q t m w) s = execVsplat d a k q t m w s := rfl
@[simp] theorem exec_vext {d} {a} {k} {t} {w} : exec (.vext d a k t w) s = execVext d a k t w s := rfl
@[simp] theorem exec_vins {d} {a} {k} {w} : exec (.vins d a k w) s = execVins d a k w s := rfl
@[simp] theorem exec_vperm {d} {a} {b} {q} {t} {m} {w} : exec (.vperm d a b q t m w) s = execVperm d a b q t m w s := rfl
@[simp] theorem exec_vslup {d} {a} {k} {q} {t} {m} {w} : exec (.vslup d a k q t m w) s = execVslup d a k q t m w s := rfl
@[simp] theorem exec_vsldn {d} {a} {k} {q} {t} {m} {w} : exec (.vsldn d a k q t m w) s = execVsldn d a k q t m w s := rfl
@[simp] theorem exec_vzip {d} {a} {b} {q} {t} {m} {w} : exec (.vzip d a b q t m w) s = execVzip d a b q t m w s := rfl
@[simp] theorem exec_vuzp {d} {a} {b} {q} {t} {m} {w} : exec (.vuzp d a b q t m w) s = execVuzp d a b q t m w s := rfl
@[simp] theorem exec_vsel {d} {a} {b} {q} {t} {w} : exec (.vsel d a b q t w) s = execVsel d a b q t w s := rfl
@[simp] theorem exec_vld {d} {a} {q} {t} {m} {w} : exec (.vld d a q t m w) s = execVld d a q t m w s := rfl
@[simp] theorem exec_vst {d} {a} {q} {w} : exec (.vst d a q w) s = execVst d a q w s := rfl
@[simp] theorem exec_vlds {d} {a} {b} {q} {t} {m} {w} : exec (.vlds d a b q t m w) s = execVlds d a b q t m w s := rfl
@[simp] theorem exec_vsts {d} {a} {b} {q} {w} : exec (.vsts d a b q w) s = execVsts d a b q w s := rfl
@[simp] theorem exec_vldg {d} {a} {b} {q} {t} {m} {w} : exec (.vldg d a b q t m w) s = execVldg d a b q t m w s := rfl
@[simp] theorem exec_vstg {d} {a} {b} {q} {w} : exec (.vstg d a b q w) s = execVstg d a b q w s := rfl
@[simp] theorem exec_vcld {d} {a} {q} {t} {m} {w} : exec (.vcld d a q t m w) s = execVcld d a q t m w s := rfl
@[simp] theorem exec_vcadd {d} {a} {w} : exec (.vcadd d a w) s = execVcadd d a w s := rfl
@[simp] theorem exec_vdld {d} {a} {q} {t} {m} {w} : exec (.vdld d a q t m w) s = execVdld d a q t m w s := rfl
@[simp] theorem exec_vdst {d} {a} {q} {w} : exec (.vdst d a q w) s = execVdst d a q w s := rfl
@[simp] theorem exec_vqntE4 {d} {a} {w} : exec (.vqntE4 d a w) s = execVqntE4 d a w s := rfl
@[simp] theorem exec_vqntE5 {d} {a} {w} : exec (.vqntE5 d a w) s = execVqntE5 d a w s := rfl
@[simp] theorem exec_vqntC4 {d} {a} {b} {w} : exec (.vqntC4 d a b w) s = execVqntC4 d a b w s := rfl
@[simp] theorem exec_vdqE4 {d} {a} {w} : exec (.vdqE4 d a w) s = execVdqE4 d a w s := rfl
@[simp] theorem exec_vdqE5 {d} {a} {w} : exec (.vdqE5 d a w) s = execVdqE5 d a w s := rfl
@[simp] theorem exec_vdqC4 {d} {a} {b} {w} : exec (.vdqC4 d a b w) s = execVdqC4 d a b w s := rfl
@[simp] theorem exec_msync {core} : exec (.msync core) s = execMsync core s := rfl
@[simp] theorem exec_mclr {core} : exec (.mclr core) s = execMclr core s := rfl
@[simp] theorem exec_mloadcb {core} : exec (.mloadcb core) s = execMloadcb core s := rfl
@[simp] theorem exec_mringConfigure {core} : exec (.mringConfigure core) s = execMringConfigure core s := rfl
@[simp] theorem exec_mringAdvance {core} : exec (.mringAdvance core) s = execMringAdvance core s := rfl
@[simp] theorem exec_mchkCompare {core} : exec (.mchkCompare core) s = execMchkCompare core s := rfl
@[simp] theorem exec_mchkNoCompare {core} : exec (.mchkNoCompare core) s = execMchkNoCompare core s := rfl
@[simp] theorem exec_mmove {core} : exec (.mmove core) s = execMmove core s := rfl
@[simp] theorem exec_mscale {core} : exec (.mscale core) s = execMscale core s := rfl
@[simp] theorem exec_maddacc {core} : exec (.maddacc core) s = execMaddacc core s := rfl
@[simp] theorem exec_mstore {core} : exec (.mstore core) s = execMstore core s := rfl
@[simp] theorem exec_mdrain {core} : exec (.mdrain core) s = execMdrain core s := rfl
@[simp] theorem exec_mloadacc {core} : exec (.mloadacc core) s = execMloadacc core s := rfl
@[simp] theorem exec_mmaBf16 {core} {badRuns} : exec (.mmaBf16 core badRuns) s = execMmaBf16 core badRuns s := rfl
@[simp] theorem exec_mmaFp16 {core} {badRuns} : exec (.mmaFp16 core badRuns) s = execMmaFp16 core badRuns s := rfl
@[simp] theorem exec_mmaE4e4 {core} {badRuns} : exec (.mmaE4e4 core badRuns) s = execMmaE4e4 core badRuns s := rfl
@[simp] theorem exec_mmaE4e5 {core} {badRuns} : exec (.mmaE4e5 core badRuns) s = execMmaE4e5 core badRuns s := rfl
@[simp] theorem exec_mmaE5e4 {core} {badRuns} : exec (.mmaE5e4 core badRuns) s = execMmaE5e4 core badRuns s := rfl
@[simp] theorem exec_mmaE5e5 {core} {badRuns} : exec (.mmaE5e5 core badRuns) s = execMmaE5e5 core badRuns s := rfl
@[simp] theorem exec_mmaC4c4 {core} {badRuns} : exec (.mmaC4c4 core badRuns) s = execMmaC4c4 core badRuns s := rfl
@[simp] theorem exec_mmaC4e4 {core} {badRuns} : exec (.mmaC4e4 core badRuns) s = execMmaC4e4 core badRuns s := rfl
@[simp] theorem exec_mmaE4c4 {core} {badRuns} : exec (.mmaE4c4 core badRuns) s = execMmaE4c4 core badRuns s := rfl
@[simp] theorem exec_mmaS8s8 {core} {badRuns} : exec (.mmaS8s8 core badRuns) s = execMmaS8s8 core badRuns s := rfl
@[simp] theorem exec_mmaN8s8 {core} {badRuns} : exec (.mmaN8s8 core badRuns) s = execMmaN8s8 core badRuns s := rfl
@[simp] theorem exec_mdrainDelivery {n} : exec (.mdrainDelivery n) s = execMdrainDelivery n s := rfl
@[simp] theorem exec_copyDramToRegion {eng} {id} : exec (.copyDramToRegion eng id) s = execCopyDramToRegion eng id s := rfl
@[simp] theorem exec_copyRegionToDram {eng} {id} : exec (.copyRegionToDram eng id) s = execCopyRegionToDram eng id s := rfl
@[simp] theorem exec_parcelHandOver {n} : exec (.parcelHandOver n) s = execParcelHandOver n s := rfl
@[simp] theorem exec_slabScatter {eng} {id} : exec (.slabScatter eng id) s = execSlabScatter eng id s := rfl
@[simp] theorem exec_gather {eng} {id} : exec (.gather eng id) s = execGather eng id s := rfl
@[simp] theorem exec_ringFeed {eng} {id} : exec (.ringFeed eng id) s = execRingFeed eng id s := rfl
@[simp] theorem exec_ringFeedPublish {eng} {id} : exec (.ringFeedPublish eng id) s = execRingFeedPublish eng id s := rfl
@[simp] theorem exec_streamRequest {eng} {id} : exec (.streamRequest eng id) s = execStreamRequest eng id s := rfl
@[simp] theorem exec_commonsBulkRead {eng} {id} : exec (.commonsBulkRead eng id) s = execCommonsBulkRead eng id s := rfl
@[simp] theorem exec_commonsBulkWrite {eng} {id} : exec (.commonsBulkWrite eng id) s = execCommonsBulkWrite eng id s := rfl
@[simp] theorem exec_fillRegion {eng} {id} : exec (.fillRegion eng id) s = execFillRegion eng id s := rfl
@[simp] theorem exec_fillGlobal {eng} {id} : exec (.fillGlobal eng id) s = execFillGlobal eng id s := rfl
@[simp] theorem exec_copyStart {eng} : exec (.copyStart eng) s = execCopyStart eng s := rfl
@[simp] theorem exec_copyCompletion {eng} {id} : exec (.copyCompletion eng id) s = execCopyCompletion eng id s := rfl
@[simp] theorem exec_copyHostTimeout {eng} {id} : exec (.copyHostTimeout eng id) s = execCopyHostTimeout eng id s := rfl
@[simp] theorem exec_copyTicketTimeout {eng} {id} : exec (.copyTicketTimeout eng id) s = execCopyTicketTimeout eng id s := rfl
@[simp] theorem exec_firingStart {core} : exec (.firingStart core) s = execFiringStart core s := rfl
@[simp] theorem exec_gateOpen {core} {slot} : exec (.gateOpen core slot) s = execGateOpen core slot s := rfl
@[simp] theorem exec_priorityAgeing {core} {slot} : exec (.priorityAgeing core slot) s = execPriorityAgeing core slot s := rfl
@[simp] theorem exec_watchdogExpiry {core} {ts} : exec (.watchdogExpiry core ts) s = execWatchdogExpiry core ts s := rfl
@[simp] theorem exec_timerExpiry {core} {slot} : exec (.timerExpiry core slot) s = execTimerExpiry core slot s := rfl
@[simp] theorem exec_preemptionRequest {core} {src} : exec (.preemptionRequest core src) s = execPreemptionRequest core src s := rfl
@[simp] theorem exec_preemptionSave {core} {ts} : exec (.preemptionSave core ts) s = execPreemptionSave core ts s := rfl
@[simp] theorem exec_preemptionWithdraw {core} {src} : exec (.preemptionWithdraw core src) s = execPreemptionWithdraw core src s := rfl
@[simp] theorem exec_resumption {core} : exec (.resumption core) s = execResumption core s := rfl
@[simp] theorem exec_deferredTrap {core} {ts} : exec (.deferredTrap core ts) s = execDeferredTrap core ts s := rfl
@[simp] theorem exec_checkerReexecution {core} {ts} {agrees} : exec (.checkerReexecution core ts agrees) s = execCheckerReexecution core ts agrees s := rfl
@[simp] theorem exec_loadLevelling {pkg} : exec (.loadLevelling pkg) s = execLoadLevelling pkg s := rfl
@[simp] theorem exec_spawnRelease {core} {id} : exec (.spawnRelease core id) s = execSpawnRelease core id s := rfl
@[simp] theorem exec_spawnStart {core} : exec (.spawnStart core) s = execSpawnStart core s := rfl
@[simp] theorem exec_stewardFeed {n} : exec (.stewardFeed n) s = execStewardFeed n s := rfl
@[simp] theorem exec_actorLoadComplete {core} {slot} : exec (.actorLoadComplete core slot) s = execActorLoadComplete core slot s := rfl
@[simp] theorem exec_messageArrival {n} : exec (.messageArrival n) s = execMessageArrival n s := rfl
@[simp] theorem exec_sendAnswer {n} : exec (.sendAnswer n) s = execSendAnswer n s := rfl
@[simp] theorem exec_messageBusyResend {n} : exec (.messageBusyResend n) s = execMessageBusyResend n s := rfl
@[simp] theorem exec_deliveryTimeout {n} : exec (.deliveryTimeout n) s = execDeliveryTimeout n s := rfl
@[simp] theorem exec_messageResend {n} : exec (.messageResend n) s = execMessageResend n s := rfl
@[simp] theorem exec_messageIndeterminate {n} : exec (.messageIndeterminate n) s = execMessageIndeterminate n s := rfl
@[simp] theorem exec_signalArrival {n} : exec (.signalArrival n) s = execSignalArrival n s := rfl
@[simp] theorem exec_exitArrival {n} : exec (.exitArrival n) s = execExitArrival n s := rfl
@[simp] theorem exec_downArrival {n} : exec (.downArrival n) s = execDownArrival n s := rfl
@[simp] theorem exec_childExitArrival {n} : exec (.childExitArrival n) s = execChildExitArrival n s := rfl
@[simp] theorem exec_bellwetherRestart {n} : exec (.bellwetherRestart n) s = execBellwetherRestart n s := rfl
@[simp] theorem exec_killArrival {n} : exec (.killArrival n) s = execKillArrival n s := rfl
@[simp] theorem exec_death {core} {slot} : exec (.death core slot) s = execDeath core slot s := rfl
@[simp] theorem exec_deathReclaim {core} {slot} : exec (.deathReclaim core slot) s = execDeathReclaim core slot s := rfl
@[simp] theorem exec_peerLinkRequest {n} : exec (.peerLinkRequest n) s = execPeerLinkRequest n s := rfl
@[simp] theorem exec_parcelReservation {n} : exec (.parcelReservation n) s = execParcelReservation n s := rfl
@[simp] theorem exec_parcelArrival {n} : exec (.parcelArrival n) s = execParcelArrival n s := rfl
@[simp] theorem exec_accessAtOwner {core} {id} : exec (.accessAtOwner core id) s = execAccessAtOwner core id s := rfl
@[simp] theorem exec_accessAnswer {core} {id} : exec (.accessAnswer core id) s = execAccessAnswer core id s := rfl
@[simp] theorem exec_accessBusyResend {core} {id} : exec (.accessBusyResend core id) s = execAccessBusyResend core id s := rfl
@[simp] theorem exec_accessRetry {core} {id} : exec (.accessRetry core id) s = execAccessRetry core id s := rfl
@[simp] theorem exec_accessIndeterminate {core} {id} : exec (.accessIndeterminate core id) s = execAccessIndeterminate core id s := rfl
@[simp] theorem exec_plbRefill {core} {ga} : exec (.plbRefill core ga) s = execPlbRefill core ga s := rfl
@[simp] theorem exec_faultTicket {core} {id} : exec (.faultTicket core id) s = execFaultTicket core id s := rfl
@[simp] theorem exec_replayNotice {n} : exec (.replayNotice n) s = execReplayNotice n s := rfl
@[simp] theorem exec_replayAnswer {core} {id} : exec (.replayAnswer core id) s = execReplayAnswer core id s := rfl
@[simp] theorem exec_ticketTimeout {core} {id} : exec (.ticketTimeout core id) s = execTicketTimeout core id s := rfl
@[simp] theorem exec_firstMapping {owner} {page} : exec (.firstMapping owner page) s = execFirstMapping owner page s := rfl
@[simp] theorem exec_shootdown {n} : exec (.shootdown n) s = execShootdown n s := rfl
@[simp] theorem exec_directoryCollapse {n} : exec (.directoryCollapse n) s = execDirectoryCollapse n s := rfl
@[simp] theorem exec_replicaDrop {n} : exec (.replicaDrop n) s = execReplicaDrop n s := rfl
@[simp] theorem exec_collapseComplete {n} : exec (.collapseComplete n) s = execCollapseComplete n s := rfl
@[simp] theorem exec_migrationBegin {page} {newOwner} : exec (.migrationBegin page newOwner) s = execMigrationBegin page newOwner s := rfl
@[simp] theorem exec_migrationEnd {page} : exec (.migrationEnd page) s = execMigrationEnd page s := rfl
@[simp] theorem exec_frameRetirement {owner} {page} {copied} : exec (.frameRetirement owner page copied) s = execFrameRetirement owner page copied s := rfl
@[simp] theorem exec_pageReclaim {page} : exec (.pageReclaim page) s = execPageReclaim page s := rfl
@[simp] theorem exec_patrolScrub {owner} {page} {offset} {found} : exec (.patrolScrub owner page offset found) s = execPatrolScrub owner page offset found s := rfl
@[simp] theorem exec_coreQuarantine {core} : exec (.coreQuarantine core) s = execCoreQuarantine core s := rfl
@[simp] theorem exec_matrixWithdrawal {core} : exec (.matrixWithdrawal core) s = execMatrixWithdrawal core s := rfl
@[simp] theorem exec_clusterWithdrawal {eng} : exec (.clusterWithdrawal eng) s = execClusterWithdrawal eng s := rfl
@[simp] theorem exec_memoryCoreWithdrawal {core} : exec (.memoryCoreWithdrawal core) s = execMemoryCoreWithdrawal core s := rfl
@[simp] theorem exec_powerSample {pkg} {readings} : exec (.powerSample pkg readings) s = execPowerSample pkg readings s := rfl
@[simp] theorem exec_counterSample {pkg} : exec (.counterSample pkg) s = execCounterSample pkg s := rfl
@[simp] theorem exec_counterRead {n} : exec (.counterRead n) s = execCounterRead n s := rfl
@[simp] theorem exec_counterProgram {n} : exec (.counterProgram n) s = execCounterProgram n s := rfl
@[simp] theorem exec_thresholdSet {n} : exec (.thresholdSet n) s = execThresholdSet n s := rfl
@[simp] theorem exec_thresholdCancel {n} : exec (.thresholdCancel n) s = execThresholdCancel n s := rfl
@[simp] theorem exec_topologyRegister {n} : exec (.topologyRegister n) s = execTopologyRegister n s := rfl
@[simp] theorem exec_topologyDeregister {n} : exec (.topologyDeregister n) s = execTopologyDeregister n s := rfl
@[simp] theorem exec_topologyReadUnit {n} : exec (.topologyReadUnit n) s = execTopologyReadUnit n s := rfl
@[simp] theorem exec_topologyReadGrant {n} : exec (.topologyReadGrant n) s = execTopologyReadGrant n s := rfl
@[simp] theorem exec_attestRegister {n} : exec (.attestRegister n) s = execAttestRegister n s := rfl
@[simp] theorem exec_attestDeregister {n} : exec (.attestDeregister n) s = execAttestDeregister n s := rfl
@[simp] theorem exec_quote {n} : exec (.quote n) s = execQuote n s := rfl
@[simp] theorem exec_logRead {n} : exec (.logRead n) s = execLogRead n s := rfl
@[simp] theorem exec_powerServiceRegister {n} : exec (.powerServiceRegister n) s = execPowerServiceRegister n s := rfl
@[simp] theorem exec_powerServiceDeregister {n} : exec (.powerServiceDeregister n) s = execPowerServiceDeregister n s := rfl
@[simp] theorem exec_cairnTake {n} : exec (.cairnTake n) s = execCairnTake n s := rfl
@[simp] theorem exec_cairnMark {pkg} {dom} : exec (.cairnMark pkg dom) s = execCairnMark pkg dom s := rfl
@[simp] theorem exec_cairnManifest {pkg} {dom} : exec (.cairnManifest pkg dom) s = execCairnManifest pkg dom s := rfl
@[simp] theorem exec_cowGranuleCopy {core} {granule} : exec (.cowGranuleCopy core granule) s = execCowGranuleCopy core granule s := rfl
@[simp] theorem exec_cowPageService {owner} {page} : exec (.cowPageService owner page) s = execCowPageService owner page s := rfl
@[simp] theorem exec_cairnRestore {n} : exec (.cairnRestore n) s = execCairnRestore n s := rfl
@[simp] theorem exec_powerFailRestore {n} : exec (.powerFailRestore n) s = execPowerFailRestore n s := rfl
@[simp] theorem exec_powerFailDiscard {n} : exec (.powerFailDiscard n) s = execPowerFailDiscard n s := rfl
@[simp] theorem exec_controlImageWindowExpiry {pkg} : exec (.controlImageWindowExpiry pkg) s = execControlImageWindowExpiry pkg s := rfl
@[simp] theorem exec_powerStep {pkg} {pins} : exec (.powerStep pkg pins) s = execPowerStep pkg pins s := rfl
@[simp] theorem exec_powerStepFrame {pkg} {hd} {arg} : exec (.powerStepFrame pkg hd arg) s = execPowerStepFrame pkg hd arg s := rfl
@[simp] theorem exec_powerFailTrap {pkg} : exec (.powerFailTrap pkg) s = execPowerFailTrap pkg s := rfl
@[simp] theorem exec_packageReset {pkg} : exec (.packageReset pkg) s = execPackageReset pkg s := rfl
@[simp] theorem exec_resetFrame {pkg} {hd} : exec (.resetFrame pkg hd) s = execResetFrame pkg hd s := rfl
@[simp] theorem exec_ready {pkg} : exec (.ready pkg) s = execReady pkg s := rfl
@[simp] theorem exec_recoveryImage {pkg} {img} : exec (.recoveryImage pkg img) s = execRecoveryImage pkg img s := rfl
@[simp] theorem exec_freeze {pkg} : exec (.freeze pkg) s = execFreeze pkg s := rfl
@[simp] theorem exec_freezeRelease {pkg} : exec (.freezeRelease pkg) s = execFreezeRelease pkg s := rfl
@[simp] theorem exec_debugUnlock {pkg} {token} {signed} : exec (.debugUnlock pkg token signed) s = execDebugUnlock pkg token signed s := rfl
@[simp] theorem exec_linkModeChange {pkg} {port} {mode} : exec (.linkModeChange pkg port mode) s = execLinkModeChange pkg port mode s := rfl
@[simp] theorem exec_linkHeartbeat {pkg} {port} {answered} : exec (.linkHeartbeat pkg port answered) s = execLinkHeartbeat pkg port answered s := rfl
@[simp] theorem exec_packageLost {lost} : exec (.packageLost lost) s = execPackageLost lost s := rfl
@[simp] theorem exec_directoryMapUpdate {lost} : exec (.directoryMapUpdate lost) s = execDirectoryMapUpdate lost s := rfl
@[simp] theorem exec_connectionOpen {pkg} {conn} {dom} : exec (.connectionOpen pkg conn dom) s = execConnectionOpen pkg conn dom s := rfl
@[simp] theorem exec_connectionClose {pkg} {conn} {byHost} : exec (.connectionClose pkg conn byHost) s = execConnectionClose pkg conn byHost s := rfl
@[simp] theorem exec_launch {pkg} {hd} {hdr} {flock} : exec (.launch pkg hd hdr flock) s = execLaunch pkg hd hdr flock s := rfl
@[simp] theorem exec_hostMessage {pkg} {hd} {dst} {arg} {msg} : exec (.hostMessage pkg hd dst arg msg) s = execHostMessage pkg hd dst arg msg s := rfl
@[simp] theorem exec_hostParcel {pkg} {hd} {dst} {arg} {tag} {body} : exec (.hostParcel pkg hd dst arg tag body) s = execHostParcel pkg hd dst arg tag body s := rfl
@[simp] theorem exec_hostRetransmit {pkg} {conn} : exec (.hostRetransmit pkg conn) s = execHostRetransmit pkg conn s := rfl
@[simp] theorem exec_grantRequest {pkg} {hd} {dom} {die} {cluster} {adds} : exec (.grantRequest pkg hd dom die cluster adds) s = execGrantRequest pkg hd dom die cluster adds s := rfl
@[simp] theorem exec_replacementRequest {pkg} {dom} {img} : exec (.replacementRequest pkg dom img) s = execReplacementRequest pkg dom img s := rfl
@[simp] theorem exec_replacementActivate {pkg} : exec (.replacementActivate pkg) s = execReplacementActivate pkg s := rfl
@[simp] theorem exec_hubWatchdogWrite {pkg} : exec (.hubWatchdogWrite pkg) s = execHubWatchdogWrite pkg s := rfl
@[simp] theorem exec_revert {pkg} : exec (.revert pkg) s = execRevert pkg s := rfl
@[simp] theorem exec_replacementCommit {pkg} : exec (.replacementCommit pkg) s = execReplacementCommit pkg s := rfl
@[simp] theorem exec_hintRecordWrite {cls} {range} {dwords} : exec (.hintRecordWrite cls range dwords) s = execHintRecordWrite cls range dwords s := rfl
@[simp] theorem exec_exportTableWrite {pkg} {range} {dom} {rights} {present} : exec (.exportTableWrite pkg range dom rights present) s = execExportTableWrite pkg range dom rights present s := rfl
@[simp] theorem exec_imageStoreWrite {ga} {body} : exec (.imageStoreWrite ga body) s = execImageStoreWrite ga body s := rfl
@[simp] theorem exec_pageParking {owner} {page} : exec (.pageParking owner page) s = execPageParking owner page s := rfl

end Sys2Proof.Machine
end

