-- ==== Sys2Proof/Laws/Encoding.lean ====
section
/-! SUPPORT. Instruction words: how decoding splits a word that the encoder has made, and the fields of a concatenation. -/

namespace Sys2Proof

/-- A word in the register format as a number. -/
theorem rWord_toNat (op : BitVec 6) (d a b : Reg) (fn : BitVec 11) :
    (rWord op d a b fn).toNat = op.toNat * 2 ^ 26 + d.toNat * 2 ^ 21 + a.toNat * 2 ^ 16 + b.toNat * 2 ^ 11 + fn.toNat := by
  unfold rWord
  have h2 := d.isLt
  have h3 := a.isLt
  have h4 := b.isLt
  have h5 := fn.isLt
  simp only [BitVec.toNat_append]
  rw [← Nat.shiftLeft_add_eq_or_of_lt h2, ← Nat.shiftLeft_add_eq_or_of_lt h3, ← Nat.shiftLeft_add_eq_or_of_lt h4, ← Nat.shiftLeft_add_eq_or_of_lt h5]
  simp only [Nat.shiftLeft_eq]
  omega

/-- Decoding splits a word in the register or the vector format into its fields. -/
theorem decode_rWord (op : BitVec 6) (d a b : Reg) (fn : BitVec 11) (h0 : op ≠ 0) (h1 : op ≠ 63) :
    decode (rWord op d a b fn) = decodeMajor op d a b fn := by
  have e := rWord_toNat op d a b fn
  have i1 := op.isLt; have i2 := d.isLt; have i3 := a.isLt; have i4 := b.isLt; have i5 := fn.isLt
  have n0 : op.toNat ≠ 0 := fun h => h0 (BitVec.eq_of_toNat_eq h)
  have n1 : op.toNat ≠ 63 := fun h => h1 (BitVec.eq_of_toNat_eq h)
  unfold decode
  rw [if_neg]
  · congr 1 <;> (apply BitVec.eq_of_toNat_eq; simp only [BitVec.extractLsb'_toNat, Nat.shiftRight_eq_div_pow, e]; omega)
  · rintro (h | h)
    · have := congrArg BitVec.toNat h; rw [e] at this; simp at this; omega
    · have := congrArg BitVec.toNat h; rw [e] at this; simp at this; omega

/-- The fields B and FN together are the immediate. -/
theorem imm_join (x : BitVec 16) : x.extractLsb' 11 5 ++ x.extractLsb' 0 11 = x := by
  apply BitVec.eq_of_toNat_eq
  have := x.isLt
  rw [BitVec.toNat_append, ← Nat.shiftLeft_add_eq_or_of_lt (x.extractLsb' 0 11).isLt]
  simp only [BitVec.extractLsb'_toNat, Nat.shiftRight_eq_div_pow, Nat.shiftLeft_eq]
  omega

/-- A word in the immediate format is one in the register format. -/
theorem iWord_eq (op : BitVec 6) (d a : Reg) (x : BitVec 16) : iWord op d a x = rWord op d a (x.extractLsb' 11 5) (x.extractLsb' 0 11) := by
  apply BitVec.eq_of_toNat_eq
  rw [rWord_toNat]
  unfold iWord
  have h2 := d.isLt; have h3 := a.isLt; have h4 := x.isLt
  simp only [BitVec.toNat_append]
  rw [← Nat.shiftLeft_add_eq_or_of_lt h2, ← Nat.shiftLeft_add_eq_or_of_lt h3, ← Nat.shiftLeft_add_eq_or_of_lt h4]
  simp only [BitVec.extractLsb'_toNat, Nat.shiftRight_eq_div_pow, Nat.shiftLeft_eq]
  omega

/-- Decoding splits a word in the immediate, store or branch format into its fields. -/
theorem decode_iWord (op : BitVec 6) (d a : Reg) (x : BitVec 16) (h0 : op ≠ 0) (h1 : op ≠ 63) :
    decode (iWord op d a x) = decodeMajor op d a (x.extractLsb' 11 5) (x.extractLsb' 0 11) := by
  rw [iWord_eq, decode_rWord _ _ _ _ _ h0 h1]

/-! ## The major opcodes (R230) -/

theorem decodeMajor_01 (d a b : Reg) (fn : BitVec 11) : decodeMajor 0x01 d a b fn = decode01 d a b fn := rfl
theorem decodeMajor_03 (d a b : Reg) (fn : BitVec 11) : decodeMajor 0x03 d a b fn = decode03 d a b fn := rfl
theorem decodeMajor_04 (d a b : Reg) (fn : BitVec 11) : decodeMajor 0x04 d a b fn = decode04 d a b fn := rfl
theorem decodeMajor_08 (d a b : Reg) (fn : BitVec 11) : decodeMajor 0x08 d a b fn = settle .every (true) (.addi d a (b ++ fn)) := rfl
theorem decodeMajor_09 (d a b : Reg) (fn : BitVec 11) : decodeMajor 0x09 d a b fn = settle .every (true) (.andi d a (b ++ fn)) := rfl
theorem decodeMajor_0a (d a b : Reg) (fn : BitVec 11) : decodeMajor 0x0a d a b fn = settle .every (true) (.ori d a (b ++ fn)) := rfl
theorem decodeMajor_0b (d a b : Reg) (fn : BitVec 11) : decodeMajor 0x0b d a b fn = settle .every (true) (.xori d a (b ++ fn)) := rfl
theorem decodeMajor_0c (d a b : Reg) (fn : BitVec 11) : decodeMajor 0x0c d a b fn = settle .every (true) (.slti d a (b ++ fn)) := rfl
theorem decodeMajor_0d (d a b : Reg) (fn : BitVec 11) : decodeMajor 0x0d d a b fn = settle .every (true) (.sltiu d a (b ++ fn)) := rfl
theorem decodeMajor_0e (d a b : Reg) (fn : BitVec 11) : decodeMajor 0x0e d a b fn = decode0E d a (b ++ fn) := rfl
theorem decodeMajor_0f (d a b : Reg) (fn : BitVec 11) : decodeMajor 0x0f d a b fn = decode0F d a (b ++ fn) := rfl
theorem decodeMajor_10 (d a b : Reg) (fn : BitVec 11) : decodeMajor 0x10 d a b fn = settle .every (a == 0) (.lui d (b ++ fn)) := rfl
theorem decodeMajor_11 (d a b : Reg) (fn : BitVec 11) : decodeMajor 0x11 d a b fn = settle .every (true) (.sloi d a (b ++ fn)) := rfl
theorem decodeMajor_18 (d a b : Reg) (fn : BitVec 11) : decodeMajor 0x18 d a b fn = settle .every (true) (.beq d a (b ++ fn)) := rfl
theorem decodeMajor_19 (d a b : Reg) (fn : BitVec 11) : decodeMajor 0x19 d a b fn = settle .every (true) (.bne d a (b ++ fn)) := rfl
theorem decodeMajor_1a (d a b : Reg) (fn : BitVec 11) : decodeMajor 0x1a d a b fn = settle .every (true) (.blt d a (b ++ fn)) := rfl
theorem decodeMajor_1b (d a b : Reg) (fn : BitVec 11) : decodeMajor 0x1b d a b fn = settle .every (true) (.bge d a (b ++ fn)) := rfl
theorem decodeMajor_1c (d a b : Reg) (fn : BitVec 11) : decodeMajor 0x1c d a b fn = settle .every (true) (.bltu d a (b ++ fn)) := rfl
theorem decodeMajor_1d (d a b : Reg) (fn : BitVec 11) : decodeMajor 0x1d d a b fn = settle .every (true) (.bgeu d a (b ++ fn)) := rfl
theorem decodeMajor_1e (d a b : Reg) (fn : BitVec 11) : decodeMajor 0x1e d a b fn = settle .every (a == 0) (.jal d (b ++ fn)) := rfl
theorem decodeMajor_1f (d a b : Reg) (fn : BitVec 11) : decodeMajor 0x1f d a b fn = settle .every (true) (.jalr d a (b ++ fn)) := rfl
theorem decodeMajor_20 (d a b : Reg) (fn : BitVec 11) : decodeMajor 0x20 d a b fn = settle .every (true) (.lb d a (b ++ fn)) := rfl
theorem decodeMajor_21 (d a b : Reg) (fn : BitVec 11) : decodeMajor 0x21 d a b fn = settle .every (true) (.lbu d a (b ++ fn)) := rfl
theorem decodeMajor_22 (d a b : Reg) (fn : BitVec 11) : decodeMajor 0x22 d a b fn = settle .every (true) (.lh d a (b ++ fn)) := rfl
theorem decodeMajor_23 (d a b : Reg) (fn : BitVec 11) : decodeMajor 0x23 d a b fn = settle .every (true) (.lhu d a (b ++ fn)) := rfl
theorem decodeMajor_24 (d a b : Reg) (fn : BitVec 11) : decodeMajor 0x24 d a b fn = settle .every (true) (.lw d a (b ++ fn)) := rfl
theorem decodeMajor_25 (d a b : Reg) (fn : BitVec 11) : decodeMajor 0x25 d a b fn = settle .every (true) (.lwu d a (b ++ fn)) := rfl
theorem decodeMajor_26 (d a b : Reg) (fn : BitVec 11) : decodeMajor 0x26 d a b fn = settle .every (true) (.ld d a (b ++ fn)) := rfl
theorem decodeMajor_28 (d a b : Reg) (fn : BitVec 11) : decodeMajor 0x28 d a b fn = settle .every (true) (.sb d a (b ++ fn)) := rfl
theorem decodeMajor_29 (d a b : Reg) (fn : BitVec 11) : decodeMajor 0x29 d a b fn = settle .every (true) (.sh d a (b ++ fn)) := rfl
theorem decodeMajor_2a (d a b : Reg) (fn : BitVec 11) : decodeMajor 0x2a d a b fn = settle .every (true) (.sw d a (b ++ fn)) := rfl
theorem decodeMajor_2b (d a b : Reg) (fn : BitVec 11) : decodeMajor 0x2b d a b fn = settle .every (true) (.sd d a (b ++ fn)) := rfl
theorem decodeMajor_2c (d a b : Reg) (fn : BitVec 11) : decodeMajor 0x2c d a b fn = settle .every (true) (.sn d a ((b ++ fn).extractLsb' 1 15) ((b ++ fn).extractLsb' 0 1)) := rfl
theorem decodeMajor_2e (d a b : Reg) (fn : BitVec 11) : decodeMajor 0x2e d a b fn = decode2E d a b fn := rfl
theorem decodeMajor_2f (d a b : Reg) (fn : BitVec 11) : decodeMajor 0x2f d a b fn = decode2F d a b fn := rfl
theorem decodeMajor_30 (d a b : Reg) (fn : BitVec 11) : decodeMajor 0x30 d a b fn = decode30 d a b fn := rfl
theorem decodeMajor_31 (d a b : Reg) (fn : BitVec 11) : decodeMajor 0x31 d a b fn = decode31 d a b fn := rfl
theorem decodeMajor_32 (d a b : Reg) (fn : BitVec 11) : decodeMajor 0x32 d a b fn = decode32 d a (b ++ fn) := rfl
theorem decodeMajor_33 (d a b : Reg) (fn : BitVec 11) : decodeMajor 0x33 d a b fn = decode33 d a b fn := rfl
theorem decodeMajor_34 (d a b : Reg) (fn : BitVec 11) : decodeMajor 0x34 d a b fn = decode34 d a b fn := rfl
theorem decodeMajor_35 (d a b : Reg) (fn : BitVec 11) : decodeMajor 0x35 d a b fn = decode35 d a (b ++ fn) := rfl
theorem decodeMajor_36 (d a b : Reg) (fn : BitVec 11) : decodeMajor 0x36 d a b fn = settle .every (d == 0 && a == 0) (.breakTrap (b ++ fn)) := rfl
theorem decodeMajor_37 (d a b : Reg) (fn : BitVec 11) : decodeMajor 0x37 d a b fn = decode37 d a (b ++ fn) := rfl
theorem decodeMajor_38 (d a b : Reg) (fn : BitVec 11) : decodeMajor 0x38 d a b fn = decode38 d a b fn := rfl
theorem decodeMajor_39 (d a b : Reg) (fn : BitVec 11) : decodeMajor 0x39 d a b fn = decode39 d a b fn := rfl
theorem decodeMajor_3a (d a b : Reg) (fn : BitVec 11) : decodeMajor 0x3a d a b fn = decode3A d a b fn := rfl
theorem decodeMajor_3b (d a b : Reg) (fn : BitVec 11) : decodeMajor 0x3b d a b fn = decode3B d a b fn := rfl
theorem decodeMajor_3c (d a b : Reg) (fn : BitVec 11) : decodeMajor 0x3c d a b fn = decode3C d a b fn := rfl
theorem decodeMajor_3d (d a b : Reg) (fn : BitVec 11) : decodeMajor 0x3d d a b fn = decode3D d a b fn := rfl

/-! ## Fields -/

/-- Steps 5 and 6 of R229 accept a well-formed instruction whose fixed fields hold what they must. -/
theorem settle_ok (av : Avail) {g : Bool} (hg : g = true) {i : Instr} (h : i.WellFormed = true) : settle av g i = .ok i := by
  unfold settle
  rw [if_pos hg]
  unfold Instr.WellFormed at h
  rw [Option.isNone_iff_eq_none.mp h]

/-- A field that lies in the upper part of a word. -/
theorem field_hi {v w : Nat} (x : BitVec v) (y : BitVec w) (i n : Nat) (h : w ≤ i) :
    (x ++ y).extractLsb' i n = x.extractLsb' (i - w) n := by
  apply BitVec.eq_of_getLsbD_eq
  intro j hj
  simp only [BitVec.getLsbD_extractLsb', BitVec.getLsbD_append, hj, decide_true, Bool.true_and]
  rw [if_neg (by omega)]
  congr 1
  omega

/-- A field that lies in the lower part of a word. -/
theorem field_lo {v w : Nat} (x : BitVec v) (y : BitVec w) (i n : Nat) (h : i + n ≤ w) :
    (x ++ y).extractLsb' i n = y.extractLsb' i n := by
  apply BitVec.eq_of_getLsbD_eq
  intro j hj
  simp only [BitVec.getLsbD_extractLsb', BitVec.getLsbD_append, hj, decide_true, Bool.true_and]
  rw [if_pos (by omega)]

/-- A field that is the whole word. -/
theorem field_all {w : Nat} (x : BitVec w) : x.extractLsb' 0 w = x := by
  apply BitVec.eq_of_getLsbD_eq
  intro j hj
  simp [hj]

end Sys2Proof
end

