-- ==== Sys2Proof/Laws/Lanes.lean ====
section
/-! SUPPORT. Lanes: reading a lane of a register made from lanes, and the bits of a register made from bits. -/

namespace Sys2Proof.Machine

theorem packNat_lt (w : Nat) (ls : List Nat) : packNat w ls < 2 ^ (w * ls.length) := by
  induction ls with
  | nil => simp [packNat]
  | cons l ls ih =>
    have h : l % 2 ^ w < 2 ^ w := Nat.mod_lt _ (by positivity)
    simp only [packNat, List.length_cons, Nat.mul_succ, Nat.pow_add]
    calc l % 2 ^ w + 2 ^ w * packNat w ls < 2 ^ w + 2 ^ w * packNat w ls := by omega
      _ = 2 ^ w * (packNat w ls + 1) := by ring
      _ ≤ 2 ^ w * 2 ^ (w * ls.length) := Nat.mul_le_mul_left _ ih
      _ = _ := by ring

/-- Lane `i` of packed lanes. -/
theorem packNat_shift (w : Nat) (ls : List Nat) (i : Nat) (h : i < ls.length) : packNat w ls >>> (w * i) % 2 ^ w = ls[i] % 2 ^ w := by
  induction ls generalizing i with
  | nil => simp at h
  | cons l ls ih =>
    cases i with
    | zero => simp [packNat]
    | succ i =>
      have e : packNat w (l :: ls) >>> w = packNat w ls := by
        rw [packNat, Nat.shiftRight_eq_div_pow, Nat.add_mul_div_left _ _ (by positivity),
          Nat.div_eq_of_lt (Nat.mod_lt _ (by positivity)), Nat.zero_add]
      rw [Nat.mul_succ, Nat.add_comm, Nat.shiftRight_add, e, ih i (by simpa using h)]
      simp

/-- A lane of a packed register is the number packed there. -/
theorem lane_pack (w : Nat) (ls : List Nat) (i : Nat) (hw : w * ls.length ≤ 256) (h : i < ls.length) :
    lane w (pack w ls) i = ls[i] % 2 ^ w := by
  have hl : packNat w ls < 2 ^ 256 := lt_of_lt_of_le (packNat_lt w ls) (Nat.pow_le_pow_right (by decide) hw)
  rw [lane, pack, BitVec.toNat_ofNat, Nat.mod_eq_of_lt hl, packNat_shift w ls i h]

/-- A lane as a bit vector. -/
theorem toNat_extract_lane (w : Nat) (v : V256) (i : Nat) : (v.extractLsb' (w * i) w).toNat = lane w v i := by
  simp [lane]

theorem extract_lane (w : Nat) (v : V256) (i : Nat) : v.extractLsb' (w * i) w = BitVec.ofNat w (lane w v i) := by
  apply BitVec.eq_of_toNat_eq
  rw [toNat_extract_lane, BitVec.toNat_ofNat, lane, Nat.mod_mod]

/-- A lane of a packed register, as a bit vector. -/
theorem extract_pack (w : Nat) (ls : List Nat) (i : Nat) (hw : w * ls.length ≤ 256) (h : i < ls.length) :
    (pack w ls).extractLsb' (w * i) w = BitVec.ofNat w ls[i] := by
  rw [extract_lane, lane_pack w ls i hw h]
  apply BitVec.eq_of_toNat_eq
  simp

/-- A bit of a register made from bits. -/
theorem getLsbD_bits (ls : List Nat) (i : Nat) (hl : ls.length ≤ 256) (h : i < ls.length) (hb : ls[i] < 2) :
    (BitVec.ofNat 256 (packNat 1 ls)).getLsbD i = decide (ls[i] = 1) := by
  have hl' : packNat 1 ls < 2 ^ 256 := lt_of_lt_of_le (packNat_lt 1 ls) (Nat.pow_le_pow_right (by decide) (by omega))
  have e := packNat_shift 1 ls i h
  rw [BitVec.getLsbD_ofNat, Nat.testBit, Nat.and_comm, Nat.and_one_is_mod]
  simp only [Nat.one_mul, pow_one] at e
  rw [e, Nat.mod_eq_of_lt hb]
  simp only [show i < 256 by omega, decide_true, Bool.true_and]
  have : ls[i] = 0 ∨ ls[i] = 1 := by omega
  rcases this with h | h <;> simp [h]

/-- The lanes of a result. -/
theorem extract_lanes (t : Thread) (q : BitVec 3) (tp mp : BitVec 1) (w : Nat) (old : V256) (op : Nat → Nat) (i : Nat)
    (hw : w * (256 / w) ≤ 256) (h : i < 256 / w) :
    (t.lanes q tp mp w old op).extractLsb' (w * i) w = BitVec.ofNat w
      (if i ≥ t.bound (256 / w) then (if tp = 1 then 0 else lane w old i)
       else if t.maskBit q i then op i else if mp = 1 then 0 else lane w old i) := by
  rw [Thread.lanes, extract_pack _ _ _ (by simpa using hw) (by simpa using h)]
  simp

/-- The bits of a mask result. -/
theorem getLsbD_maskResult (t : Thread) (q : BitVec 3) (tp mp : BitVec 1) (l : Nat) (old : V256) (op : Nat → Bool) (i : Nat)
    (h : i < 256) :
    (t.maskResult q tp mp l old op).getLsbD i =
      if i ≥ l ∨ i ≥ t.bound l then (if tp = 1 then false else old.getLsbD i)
      else if t.maskBit q i then op i else if mp = 1 then false else old.getLsbD i := by
  rw [Thread.maskResult, getLsbD_bits _ _ (by simp) (by simpa using h)]
  · simp only [List.getElem_map, List.getElem_range]
    split_ifs <;> simp_all
  · simp only [List.getElem_map, List.getElem_range]
    split_ifs <;> simp

/-- The lanes of a result in lane 0. -/
theorem extract_laneZero (w : Nat) (tp : BitVec 1) (old : V256) (v i : Nat) (hw : w * (256 / w) ≤ 256) (h : i < 256 / w) :
    (laneZero w tp old v).extractLsb' (w * i) w = BitVec.ofNat w (if i = 0 then v else if tp = 1 then 0 else lane w old i) := by
  rw [laneZero, extract_pack _ _ _ (by simpa using hw) (by simpa using h)]
  simp

end Sys2Proof.Machine
end

