-- ==== Sys2Proof/Laws/State.lean ====
section
/-! SUPPORT. One lemma for each field and each update of the state, of a core and of a thread set: what an update does not name it leaves
as it was. -/

namespace Sys2Proof.Machine

/-! ## State.onPkg -/

@[simp] theorem State.onPkg_npkg (s : State) (p : Nat) (f : Package → Package) : (s.onPkg p f).npkg = s.npkg := rfl
@[simp] theorem State.onPkg_cores (s : State) (p : Nat) (f : Package → Package) : (s.onPkg p f).cores = s.cores := rfl
@[simp] theorem State.onPkg_engines (s : State) (p : Nat) (f : Package → Package) : (s.onPkg p f).engines = s.engines := rfl
@[simp] theorem State.onPkg_owners (s : State) (p : Nat) (f : Package → Package) : (s.onPkg p f).owners = s.owners := rfl
@[simp] theorem State.onPkg_banks (s : State) (p : Nat) (f : Package → Package) : (s.onPkg p f).banks = s.banks := rfl
@[simp] theorem State.onPkg_words (s : State) (p : Nat) (f : Package → Package) : (s.onPkg p f).words = s.words := rfl
@[simp] theorem State.onPkg_gmem (s : State) (p : Nat) (f : Package → Package) : (s.onPkg p f).gmem = s.gmem := rfl
@[simp] theorem State.onPkg_gbad (s : State) (p : Nat) (f : Package → Package) : (s.onPkg p f).gbad = s.gbad := rfl
@[simp] theorem State.onPkg_hints (s : State) (p : Nat) (f : Package → Package) : (s.onPkg p f).hints = s.hints := rfl
@[simp] theorem State.onPkg_placed (s : State) (p : Nat) (f : Package → Package) : (s.onPkg p f).placed = s.placed := rfl
@[simp] theorem State.onPkg_dir (s : State) (p : Nat) (f : Package → Package) : (s.onPkg p f).dir = s.dir := rfl
@[simp] theorem State.onPkg_dirMap (s : State) (p : Nat) (f : Package → Package) : (s.onPkg p f).dirMap = s.dirMap := rfl
@[simp] theorem State.onPkg_rrecs (s : State) (p : Nat) (f : Package → Package) : (s.onPkg p f).rrecs = s.rrecs := rfl
@[simp] theorem State.onPkg_flocks (s : State) (p : Nat) (f : Package → Package) : (s.onPkg p f).flocks = s.flocks := rfl
@[simp] theorem State.onPkg_scopes (s : State) (p : Nat) (f : Package → Package) : (s.onPkg p f).scopes = s.scopes := rfl
@[simp] theorem State.onPkg_migrations (s : State) (p : Nat) (f : Package → Package) : (s.onPkg p f).migrations = s.migrations := rfl
@[simp] theorem State.onPkg_archive (s : State) (p : Nat) (f : Package → Package) : (s.onPkg p f).archive = s.archive := rfl
@[simp] theorem State.onPkg_net (s : State) (p : Nat) (f : Package → Package) : (s.onPkg p f).net = s.net := rfl
@[simp] theorem State.onPkg_serial (s : State) (p : Nat) (f : Package → Package) : (s.onPkg p f).serial = s.serial := rfl
@[simp] theorem State.onPkg_agenda (s : State) (p : Nat) (f : Package → Package) : (s.onPkg p f).agenda = s.agenda := rfl
@[simp] theorem State.onPkg_delays (s : State) (p : Nat) (f : Package → Package) : (s.onPkg p f).delays = s.delays := rfl
@[simp] theorem State.onPkg_cur (s : State) (p : Nat) (f : Package → Package) : (s.onPkg p f).cur = s.cur := rfl
@[simp] theorem State.onPkg_bare (s : State) (p : Nat) (f : Package → Package) : (s.onPkg p f).bare = s.bare := rfl
@[simp] theorem State.onPkg_issuers (s : State) (p : Nat) (f : Package → Package) : (s.onPkg p f).issuers = s.issuers := rfl
@[simp] theorem State.onPkg_settled (s : State) (p : Nat) (f : Package → Package) : (s.onPkg p f).settled = s.settled := rfl
@[simp] theorem State.onPkg_started (s : State) (p : Nat) (f : Package → Package) : (s.onPkg p f).started = s.started := rfl
@[simp] theorem State.onPkg_wall (s : State) (p : Nat) (f : Package → Package) : (s.onPkg p f).wall = s.wall := rfl

/-! ## State.setCore -/

@[simp] theorem State.setCore_pkgs (s : State) (c : Nat) (k : Core) : (s.setCore c k).pkgs = s.pkgs := rfl
@[simp] theorem State.setCore_npkg (s : State) (c : Nat) (k : Core) : (s.setCore c k).npkg = s.npkg := rfl
@[simp] theorem State.setCore_engines (s : State) (c : Nat) (k : Core) : (s.setCore c k).engines = s.engines := rfl
@[simp] theorem State.setCore_owners (s : State) (c : Nat) (k : Core) : (s.setCore c k).owners = s.owners := rfl
@[simp] theorem State.setCore_banks (s : State) (c : Nat) (k : Core) : (s.setCore c k).banks = s.banks := rfl
@[simp] theorem State.setCore_words (s : State) (c : Nat) (k : Core) : (s.setCore c k).words = s.words := rfl
@[simp] theorem State.setCore_gmem (s : State) (c : Nat) (k : Core) : (s.setCore c k).gmem = s.gmem := rfl
@[simp] theorem State.setCore_gbad (s : State) (c : Nat) (k : Core) : (s.setCore c k).gbad = s.gbad := rfl
@[simp] theorem State.setCore_hints (s : State) (c : Nat) (k : Core) : (s.setCore c k).hints = s.hints := rfl
@[simp] theorem State.setCore_placed (s : State) (c : Nat) (k : Core) : (s.setCore c k).placed = s.placed := rfl
@[simp] theorem State.setCore_dir (s : State) (c : Nat) (k : Core) : (s.setCore c k).dir = s.dir := rfl
@[simp] theorem State.setCore_dirMap (s : State) (c : Nat) (k : Core) : (s.setCore c k).dirMap = s.dirMap := rfl
@[simp] theorem State.setCore_rrecs (s : State) (c : Nat) (k : Core) : (s.setCore c k).rrecs = s.rrecs := rfl
@[simp] theorem State.setCore_flocks (s : State) (c : Nat) (k : Core) : (s.setCore c k).flocks = s.flocks := rfl
@[simp] theorem State.setCore_scopes (s : State) (c : Nat) (k : Core) : (s.setCore c k).scopes = s.scopes := rfl
@[simp] theorem State.setCore_migrations (s : State) (c : Nat) (k : Core) : (s.setCore c k).migrations = s.migrations := rfl
@[simp] theorem State.setCore_archive (s : State) (c : Nat) (k : Core) : (s.setCore c k).archive = s.archive := rfl
@[simp] theorem State.setCore_net (s : State) (c : Nat) (k : Core) : (s.setCore c k).net = s.net := rfl
@[simp] theorem State.setCore_serial (s : State) (c : Nat) (k : Core) : (s.setCore c k).serial = s.serial := rfl
@[simp] theorem State.setCore_agenda (s : State) (c : Nat) (k : Core) : (s.setCore c k).agenda = s.agenda := rfl
@[simp] theorem State.setCore_delays (s : State) (c : Nat) (k : Core) : (s.setCore c k).delays = s.delays := rfl
@[simp] theorem State.setCore_cur (s : State) (c : Nat) (k : Core) : (s.setCore c k).cur = s.cur := rfl
@[simp] theorem State.setCore_bare (s : State) (c : Nat) (k : Core) : (s.setCore c k).bare = s.bare := rfl
@[simp] theorem State.setCore_issuers (s : State) (c : Nat) (k : Core) : (s.setCore c k).issuers = s.issuers := rfl
@[simp] theorem State.setCore_settled (s : State) (c : Nat) (k : Core) : (s.setCore c k).settled = s.settled := rfl
@[simp] theorem State.setCore_started (s : State) (c : Nat) (k : Core) : (s.setCore c k).started = s.started := rfl
@[simp] theorem State.setCore_wall (s : State) (c : Nat) (k : Core) : (s.setCore c k).wall = s.wall := rfl

/-! ## State.onCore -/

@[simp] theorem State.onCore_pkgs (s : State) (c : Nat) (f : Core → Core) : (s.onCore c f).pkgs = s.pkgs := rfl
@[simp] theorem State.onCore_npkg (s : State) (c : Nat) (f : Core → Core) : (s.onCore c f).npkg = s.npkg := rfl
@[simp] theorem State.onCore_engines (s : State) (c : Nat) (f : Core → Core) : (s.onCore c f).engines = s.engines := rfl
@[simp] theorem State.onCore_owners (s : State) (c : Nat) (f : Core → Core) : (s.onCore c f).owners = s.owners := rfl
@[simp] theorem State.onCore_banks (s : State) (c : Nat) (f : Core → Core) : (s.onCore c f).banks = s.banks := rfl
@[simp] theorem State.onCore_words (s : State) (c : Nat) (f : Core → Core) : (s.onCore c f).words = s.words := rfl
@[simp] theorem State.onCore_gmem (s : State) (c : Nat) (f : Core → Core) : (s.onCore c f).gmem = s.gmem := rfl
@[simp] theorem State.onCore_gbad (s : State) (c : Nat) (f : Core → Core) : (s.onCore c f).gbad = s.gbad := rfl
@[simp] theorem State.onCore_hints (s : State) (c : Nat) (f : Core → Core) : (s.onCore c f).hints = s.hints := rfl
@[simp] theorem State.onCore_placed (s : State) (c : Nat) (f : Core → Core) : (s.onCore c f).placed = s.placed := rfl
@[simp] theorem State.onCore_dir (s : State) (c : Nat) (f : Core → Core) : (s.onCore c f).dir = s.dir := rfl
@[simp] theorem State.onCore_dirMap (s : State) (c : Nat) (f : Core → Core) : (s.onCore c f).dirMap = s.dirMap := rfl
@[simp] theorem State.onCore_rrecs (s : State) (c : Nat) (f : Core → Core) : (s.onCore c f).rrecs = s.rrecs := rfl
@[simp] theorem State.onCore_flocks (s : State) (c : Nat) (f : Core → Core) : (s.onCore c f).flocks = s.flocks := rfl
@[simp] theorem State.onCore_scopes (s : State) (c : Nat) (f : Core → Core) : (s.onCore c f).scopes = s.scopes := rfl
@[simp] theorem State.onCore_migrations (s : State) (c : Nat) (f : Core → Core) : (s.onCore c f).migrations = s.migrations := rfl
@[simp] theorem State.onCore_archive (s : State) (c : Nat) (f : Core → Core) : (s.onCore c f).archive = s.archive := rfl
@[simp] theorem State.onCore_net (s : State) (c : Nat) (f : Core → Core) : (s.onCore c f).net = s.net := rfl
@[simp] theorem State.onCore_serial (s : State) (c : Nat) (f : Core → Core) : (s.onCore c f).serial = s.serial := rfl
@[simp] theorem State.onCore_agenda (s : State) (c : Nat) (f : Core → Core) : (s.onCore c f).agenda = s.agenda := rfl
@[simp] theorem State.onCore_delays (s : State) (c : Nat) (f : Core → Core) : (s.onCore c f).delays = s.delays := rfl
@[simp] theorem State.onCore_cur (s : State) (c : Nat) (f : Core → Core) : (s.onCore c f).cur = s.cur := rfl
@[simp] theorem State.onCore_bare (s : State) (c : Nat) (f : Core → Core) : (s.onCore c f).bare = s.bare := rfl
@[simp] theorem State.onCore_issuers (s : State) (c : Nat) (f : Core → Core) : (s.onCore c f).issuers = s.issuers := rfl
@[simp] theorem State.onCore_settled (s : State) (c : Nat) (f : Core → Core) : (s.onCore c f).settled = s.settled := rfl
@[simp] theorem State.onCore_started (s : State) (c : Nat) (f : Core → Core) : (s.onCore c f).started = s.started := rfl
@[simp] theorem State.onCore_wall (s : State) (c : Nat) (f : Core → Core) : (s.onCore c f).wall = s.wall := rfl

/-! ## State.onActor -/

@[simp] theorem State.onActor_pkgs (s : State) (c i : Nat) (f : Actor → Actor) : (s.onActor c i f).pkgs = s.pkgs := rfl
@[simp] theorem State.onActor_npkg (s : State) (c i : Nat) (f : Actor → Actor) : (s.onActor c i f).npkg = s.npkg := rfl
@[simp] theorem State.onActor_engines (s : State) (c i : Nat) (f : Actor → Actor) : (s.onActor c i f).engines = s.engines := rfl
@[simp] theorem State.onActor_owners (s : State) (c i : Nat) (f : Actor → Actor) : (s.onActor c i f).owners = s.owners := rfl
@[simp] theorem State.onActor_banks (s : State) (c i : Nat) (f : Actor → Actor) : (s.onActor c i f).banks = s.banks := rfl
@[simp] theorem State.onActor_words (s : State) (c i : Nat) (f : Actor → Actor) : (s.onActor c i f).words = s.words := rfl
@[simp] theorem State.onActor_gmem (s : State) (c i : Nat) (f : Actor → Actor) : (s.onActor c i f).gmem = s.gmem := rfl
@[simp] theorem State.onActor_gbad (s : State) (c i : Nat) (f : Actor → Actor) : (s.onActor c i f).gbad = s.gbad := rfl
@[simp] theorem State.onActor_hints (s : State) (c i : Nat) (f : Actor → Actor) : (s.onActor c i f).hints = s.hints := rfl
@[simp] theorem State.onActor_placed (s : State) (c i : Nat) (f : Actor → Actor) : (s.onActor c i f).placed = s.placed := rfl
@[simp] theorem State.onActor_dir (s : State) (c i : Nat) (f : Actor → Actor) : (s.onActor c i f).dir = s.dir := rfl
@[simp] theorem State.onActor_dirMap (s : State) (c i : Nat) (f : Actor → Actor) : (s.onActor c i f).dirMap = s.dirMap := rfl
@[simp] theorem State.onActor_rrecs (s : State) (c i : Nat) (f : Actor → Actor) : (s.onActor c i f).rrecs = s.rrecs := rfl
@[simp] theorem State.onActor_flocks (s : State) (c i : Nat) (f : Actor → Actor) : (s.onActor c i f).flocks = s.flocks := rfl
@[simp] theorem State.onActor_scopes (s : State) (c i : Nat) (f : Actor → Actor) : (s.onActor c i f).scopes = s.scopes := rfl
@[simp] theorem State.onActor_migrations (s : State) (c i : Nat) (f : Actor → Actor) : (s.onActor c i f).migrations = s.migrations := rfl
@[simp] theorem State.onActor_archive (s : State) (c i : Nat) (f : Actor → Actor) : (s.onActor c i f).archive = s.archive := rfl
@[simp] theorem State.onActor_net (s : State) (c i : Nat) (f : Actor → Actor) : (s.onActor c i f).net = s.net := rfl
@[simp] theorem State.onActor_serial (s : State) (c i : Nat) (f : Actor → Actor) : (s.onActor c i f).serial = s.serial := rfl
@[simp] theorem State.onActor_agenda (s : State) (c i : Nat) (f : Actor → Actor) : (s.onActor c i f).agenda = s.agenda := rfl
@[simp] theorem State.onActor_delays (s : State) (c i : Nat) (f : Actor → Actor) : (s.onActor c i f).delays = s.delays := rfl
@[simp] theorem State.onActor_cur (s : State) (c i : Nat) (f : Actor → Actor) : (s.onActor c i f).cur = s.cur := rfl
@[simp] theorem State.onActor_bare (s : State) (c i : Nat) (f : Actor → Actor) : (s.onActor c i f).bare = s.bare := rfl
@[simp] theorem State.onActor_issuers (s : State) (c i : Nat) (f : Actor → Actor) : (s.onActor c i f).issuers = s.issuers := rfl
@[simp] theorem State.onActor_settled (s : State) (c i : Nat) (f : Actor → Actor) : (s.onActor c i f).settled = s.settled := rfl
@[simp] theorem State.onActor_started (s : State) (c i : Nat) (f : Actor → Actor) : (s.onActor c i f).started = s.started := rfl
@[simp] theorem State.onActor_wall (s : State) (c i : Nat) (f : Actor → Actor) : (s.onActor c i f).wall = s.wall := rfl

/-! ## State.onMe -/

@[simp] theorem State.onMe_pkgs (s : State) (f : Core → Core) : (s.onMe f).pkgs = s.pkgs := rfl
@[simp] theorem State.onMe_npkg (s : State) (f : Core → Core) : (s.onMe f).npkg = s.npkg := rfl
@[simp] theorem State.onMe_engines (s : State) (f : Core → Core) : (s.onMe f).engines = s.engines := rfl
@[simp] theorem State.onMe_owners (s : State) (f : Core → Core) : (s.onMe f).owners = s.owners := rfl
@[simp] theorem State.onMe_banks (s : State) (f : Core → Core) : (s.onMe f).banks = s.banks := rfl
@[simp] theorem State.onMe_words (s : State) (f : Core → Core) : (s.onMe f).words = s.words := rfl
@[simp] theorem State.onMe_gmem (s : State) (f : Core → Core) : (s.onMe f).gmem = s.gmem := rfl
@[simp] theorem State.onMe_gbad (s : State) (f : Core → Core) : (s.onMe f).gbad = s.gbad := rfl
@[simp] theorem State.onMe_hints (s : State) (f : Core → Core) : (s.onMe f).hints = s.hints := rfl
@[simp] theorem State.onMe_placed (s : State) (f : Core → Core) : (s.onMe f).placed = s.placed := rfl
@[simp] theorem State.onMe_dir (s : State) (f : Core → Core) : (s.onMe f).dir = s.dir := rfl
@[simp] theorem State.onMe_dirMap (s : State) (f : Core → Core) : (s.onMe f).dirMap = s.dirMap := rfl
@[simp] theorem State.onMe_rrecs (s : State) (f : Core → Core) : (s.onMe f).rrecs = s.rrecs := rfl
@[simp] theorem State.onMe_flocks (s : State) (f : Core → Core) : (s.onMe f).flocks = s.flocks := rfl
@[simp] theorem State.onMe_scopes (s : State) (f : Core → Core) : (s.onMe f).scopes = s.scopes := rfl
@[simp] theorem State.onMe_migrations (s : State) (f : Core → Core) : (s.onMe f).migrations = s.migrations := rfl
@[simp] theorem State.onMe_archive (s : State) (f : Core → Core) : (s.onMe f).archive = s.archive := rfl
@[simp] theorem State.onMe_net (s : State) (f : Core → Core) : (s.onMe f).net = s.net := rfl
@[simp] theorem State.onMe_serial (s : State) (f : Core → Core) : (s.onMe f).serial = s.serial := rfl
@[simp] theorem State.onMe_agenda (s : State) (f : Core → Core) : (s.onMe f).agenda = s.agenda := rfl
@[simp] theorem State.onMe_delays (s : State) (f : Core → Core) : (s.onMe f).delays = s.delays := rfl
@[simp] theorem State.onMe_cur (s : State) (f : Core → Core) : (s.onMe f).cur = s.cur := rfl
@[simp] theorem State.onMe_bare (s : State) (f : Core → Core) : (s.onMe f).bare = s.bare := rfl
@[simp] theorem State.onMe_issuers (s : State) (f : Core → Core) : (s.onMe f).issuers = s.issuers := rfl
@[simp] theorem State.onMe_settled (s : State) (f : Core → Core) : (s.onMe f).settled = s.settled := rfl
@[simp] theorem State.onMe_started (s : State) (f : Core → Core) : (s.onMe f).started = s.started := rfl
@[simp] theorem State.onMe_wall (s : State) (f : Core → Core) : (s.onMe f).wall = s.wall := rfl

/-! ## State.onTh -/

@[simp] theorem State.onTh_pkgs (s : State) (f : Thread → Thread) : (s.onTh f).pkgs = s.pkgs := rfl
@[simp] theorem State.onTh_npkg (s : State) (f : Thread → Thread) : (s.onTh f).npkg = s.npkg := rfl
@[simp] theorem State.onTh_engines (s : State) (f : Thread → Thread) : (s.onTh f).engines = s.engines := rfl
@[simp] theorem State.onTh_owners (s : State) (f : Thread → Thread) : (s.onTh f).owners = s.owners := rfl
@[simp] theorem State.onTh_banks (s : State) (f : Thread → Thread) : (s.onTh f).banks = s.banks := rfl
@[simp] theorem State.onTh_words (s : State) (f : Thread → Thread) : (s.onTh f).words = s.words := rfl
@[simp] theorem State.onTh_gmem (s : State) (f : Thread → Thread) : (s.onTh f).gmem = s.gmem := rfl
@[simp] theorem State.onTh_gbad (s : State) (f : Thread → Thread) : (s.onTh f).gbad = s.gbad := rfl
@[simp] theorem State.onTh_hints (s : State) (f : Thread → Thread) : (s.onTh f).hints = s.hints := rfl
@[simp] theorem State.onTh_placed (s : State) (f : Thread → Thread) : (s.onTh f).placed = s.placed := rfl
@[simp] theorem State.onTh_dir (s : State) (f : Thread → Thread) : (s.onTh f).dir = s.dir := rfl
@[simp] theorem State.onTh_dirMap (s : State) (f : Thread → Thread) : (s.onTh f).dirMap = s.dirMap := rfl
@[simp] theorem State.onTh_rrecs (s : State) (f : Thread → Thread) : (s.onTh f).rrecs = s.rrecs := rfl
@[simp] theorem State.onTh_flocks (s : State) (f : Thread → Thread) : (s.onTh f).flocks = s.flocks := rfl
@[simp] theorem State.onTh_scopes (s : State) (f : Thread → Thread) : (s.onTh f).scopes = s.scopes := rfl
@[simp] theorem State.onTh_migrations (s : State) (f : Thread → Thread) : (s.onTh f).migrations = s.migrations := rfl
@[simp] theorem State.onTh_archive (s : State) (f : Thread → Thread) : (s.onTh f).archive = s.archive := rfl
@[simp] theorem State.onTh_net (s : State) (f : Thread → Thread) : (s.onTh f).net = s.net := rfl
@[simp] theorem State.onTh_serial (s : State) (f : Thread → Thread) : (s.onTh f).serial = s.serial := rfl
@[simp] theorem State.onTh_agenda (s : State) (f : Thread → Thread) : (s.onTh f).agenda = s.agenda := rfl
@[simp] theorem State.onTh_delays (s : State) (f : Thread → Thread) : (s.onTh f).delays = s.delays := rfl
@[simp] theorem State.onTh_cur (s : State) (f : Thread → Thread) : (s.onTh f).cur = s.cur := rfl
@[simp] theorem State.onTh_bare (s : State) (f : Thread → Thread) : (s.onTh f).bare = s.bare := rfl
@[simp] theorem State.onTh_issuers (s : State) (f : Thread → Thread) : (s.onTh f).issuers = s.issuers := rfl
@[simp] theorem State.onTh_settled (s : State) (f : Thread → Thread) : (s.onTh f).settled = s.settled := rfl
@[simp] theorem State.onTh_started (s : State) (f : Thread → Thread) : (s.onTh f).started = s.started := rfl
@[simp] theorem State.onTh_wall (s : State) (f : Thread → Thread) : (s.onTh f).wall = s.wall := rfl

/-! ## State.onSelf -/

@[simp] theorem State.onSelf_pkgs (s : State) (f : Actor → Actor) : (s.onSelf f).pkgs = s.pkgs := rfl
@[simp] theorem State.onSelf_npkg (s : State) (f : Actor → Actor) : (s.onSelf f).npkg = s.npkg := rfl
@[simp] theorem State.onSelf_engines (s : State) (f : Actor → Actor) : (s.onSelf f).engines = s.engines := rfl
@[simp] theorem State.onSelf_owners (s : State) (f : Actor → Actor) : (s.onSelf f).owners = s.owners := rfl
@[simp] theorem State.onSelf_banks (s : State) (f : Actor → Actor) : (s.onSelf f).banks = s.banks := rfl
@[simp] theorem State.onSelf_words (s : State) (f : Actor → Actor) : (s.onSelf f).words = s.words := rfl
@[simp] theorem State.onSelf_gmem (s : State) (f : Actor → Actor) : (s.onSelf f).gmem = s.gmem := rfl
@[simp] theorem State.onSelf_gbad (s : State) (f : Actor → Actor) : (s.onSelf f).gbad = s.gbad := rfl
@[simp] theorem State.onSelf_hints (s : State) (f : Actor → Actor) : (s.onSelf f).hints = s.hints := rfl
@[simp] theorem State.onSelf_placed (s : State) (f : Actor → Actor) : (s.onSelf f).placed = s.placed := rfl
@[simp] theorem State.onSelf_dir (s : State) (f : Actor → Actor) : (s.onSelf f).dir = s.dir := rfl
@[simp] theorem State.onSelf_dirMap (s : State) (f : Actor → Actor) : (s.onSelf f).dirMap = s.dirMap := rfl
@[simp] theorem State.onSelf_rrecs (s : State) (f : Actor → Actor) : (s.onSelf f).rrecs = s.rrecs := rfl
@[simp] theorem State.onSelf_flocks (s : State) (f : Actor → Actor) : (s.onSelf f).flocks = s.flocks := rfl
@[simp] theorem State.onSelf_scopes (s : State) (f : Actor → Actor) : (s.onSelf f).scopes = s.scopes := rfl
@[simp] theorem State.onSelf_migrations (s : State) (f : Actor → Actor) : (s.onSelf f).migrations = s.migrations := rfl
@[simp] theorem State.onSelf_archive (s : State) (f : Actor → Actor) : (s.onSelf f).archive = s.archive := rfl
@[simp] theorem State.onSelf_net (s : State) (f : Actor → Actor) : (s.onSelf f).net = s.net := rfl
@[simp] theorem State.onSelf_serial (s : State) (f : Actor → Actor) : (s.onSelf f).serial = s.serial := rfl
@[simp] theorem State.onSelf_agenda (s : State) (f : Actor → Actor) : (s.onSelf f).agenda = s.agenda := rfl
@[simp] theorem State.onSelf_delays (s : State) (f : Actor → Actor) : (s.onSelf f).delays = s.delays := rfl
@[simp] theorem State.onSelf_cur (s : State) (f : Actor → Actor) : (s.onSelf f).cur = s.cur := rfl
@[simp] theorem State.onSelf_bare (s : State) (f : Actor → Actor) : (s.onSelf f).bare = s.bare := rfl
@[simp] theorem State.onSelf_issuers (s : State) (f : Actor → Actor) : (s.onSelf f).issuers = s.issuers := rfl
@[simp] theorem State.onSelf_settled (s : State) (f : Actor → Actor) : (s.onSelf f).settled = s.settled := rfl
@[simp] theorem State.onSelf_started (s : State) (f : Actor → Actor) : (s.onSelf f).started = s.started := rfl
@[simp] theorem State.onSelf_wall (s : State) (f : Actor → Actor) : (s.onSelf f).wall = s.wall := rfl

/-! ## State.onEngine -/

@[simp] theorem State.onEngine_pkgs (s : State) (e : Nat) (f : Engine → Engine) : (s.onEngine e f).pkgs = s.pkgs := rfl
@[simp] theorem State.onEngine_npkg (s : State) (e : Nat) (f : Engine → Engine) : (s.onEngine e f).npkg = s.npkg := rfl
@[simp] theorem State.onEngine_cores (s : State) (e : Nat) (f : Engine → Engine) : (s.onEngine e f).cores = s.cores := rfl
@[simp] theorem State.onEngine_owners (s : State) (e : Nat) (f : Engine → Engine) : (s.onEngine e f).owners = s.owners := rfl
@[simp] theorem State.onEngine_banks (s : State) (e : Nat) (f : Engine → Engine) : (s.onEngine e f).banks = s.banks := rfl
@[simp] theorem State.onEngine_words (s : State) (e : Nat) (f : Engine → Engine) : (s.onEngine e f).words = s.words := rfl
@[simp] theorem State.onEngine_gmem (s : State) (e : Nat) (f : Engine → Engine) : (s.onEngine e f).gmem = s.gmem := rfl
@[simp] theorem State.onEngine_gbad (s : State) (e : Nat) (f : Engine → Engine) : (s.onEngine e f).gbad = s.gbad := rfl
@[simp] theorem State.onEngine_hints (s : State) (e : Nat) (f : Engine → Engine) : (s.onEngine e f).hints = s.hints := rfl
@[simp] theorem State.onEngine_placed (s : State) (e : Nat) (f : Engine → Engine) : (s.onEngine e f).placed = s.placed := rfl
@[simp] theorem State.onEngine_dir (s : State) (e : Nat) (f : Engine → Engine) : (s.onEngine e f).dir = s.dir := rfl
@[simp] theorem State.onEngine_dirMap (s : State) (e : Nat) (f : Engine → Engine) : (s.onEngine e f).dirMap = s.dirMap := rfl
@[simp] theorem State.onEngine_rrecs (s : State) (e : Nat) (f : Engine → Engine) : (s.onEngine e f).rrecs = s.rrecs := rfl
@[simp] theorem State.onEngine_flocks (s : State) (e : Nat) (f : Engine → Engine) : (s.onEngine e f).flocks = s.flocks := rfl
@[simp] theorem State.onEngine_scopes (s : State) (e : Nat) (f : Engine → Engine) : (s.onEngine e f).scopes = s.scopes := rfl
@[simp] theorem State.onEngine_migrations (s : State) (e : Nat) (f : Engine → Engine) : (s.onEngine e f).migrations = s.migrations := rfl
@[simp] theorem State.onEngine_archive (s : State) (e : Nat) (f : Engine → Engine) : (s.onEngine e f).archive = s.archive := rfl
@[simp] theorem State.onEngine_net (s : State) (e : Nat) (f : Engine → Engine) : (s.onEngine e f).net = s.net := rfl
@[simp] theorem State.onEngine_serial (s : State) (e : Nat) (f : Engine → Engine) : (s.onEngine e f).serial = s.serial := rfl
@[simp] theorem State.onEngine_agenda (s : State) (e : Nat) (f : Engine → Engine) : (s.onEngine e f).agenda = s.agenda := rfl
@[simp] theorem State.onEngine_delays (s : State) (e : Nat) (f : Engine → Engine) : (s.onEngine e f).delays = s.delays := rfl
@[simp] theorem State.onEngine_cur (s : State) (e : Nat) (f : Engine → Engine) : (s.onEngine e f).cur = s.cur := rfl
@[simp] theorem State.onEngine_bare (s : State) (e : Nat) (f : Engine → Engine) : (s.onEngine e f).bare = s.bare := rfl
@[simp] theorem State.onEngine_issuers (s : State) (e : Nat) (f : Engine → Engine) : (s.onEngine e f).issuers = s.issuers := rfl
@[simp] theorem State.onEngine_settled (s : State) (e : Nat) (f : Engine → Engine) : (s.onEngine e f).settled = s.settled := rfl
@[simp] theorem State.onEngine_started (s : State) (e : Nat) (f : Engine → Engine) : (s.onEngine e f).started = s.started := rfl
@[simp] theorem State.onEngine_wall (s : State) (e : Nat) (f : Engine → Engine) : (s.onEngine e f).wall = s.wall := rfl

/-! ## State.onOwner -/

@[simp] theorem State.onOwner_pkgs (s : State) (o : Nat) (f : Owner → Owner) : (s.onOwner o f).pkgs = s.pkgs := rfl
@[simp] theorem State.onOwner_npkg (s : State) (o : Nat) (f : Owner → Owner) : (s.onOwner o f).npkg = s.npkg := rfl
@[simp] theorem State.onOwner_cores (s : State) (o : Nat) (f : Owner → Owner) : (s.onOwner o f).cores = s.cores := rfl
@[simp] theorem State.onOwner_engines (s : State) (o : Nat) (f : Owner → Owner) : (s.onOwner o f).engines = s.engines := rfl
@[simp] theorem State.onOwner_banks (s : State) (o : Nat) (f : Owner → Owner) : (s.onOwner o f).banks = s.banks := rfl
@[simp] theorem State.onOwner_words (s : State) (o : Nat) (f : Owner → Owner) : (s.onOwner o f).words = s.words := rfl
@[simp] theorem State.onOwner_gmem (s : State) (o : Nat) (f : Owner → Owner) : (s.onOwner o f).gmem = s.gmem := rfl
@[simp] theorem State.onOwner_gbad (s : State) (o : Nat) (f : Owner → Owner) : (s.onOwner o f).gbad = s.gbad := rfl
@[simp] theorem State.onOwner_hints (s : State) (o : Nat) (f : Owner → Owner) : (s.onOwner o f).hints = s.hints := rfl
@[simp] theorem State.onOwner_placed (s : State) (o : Nat) (f : Owner → Owner) : (s.onOwner o f).placed = s.placed := rfl
@[simp] theorem State.onOwner_dir (s : State) (o : Nat) (f : Owner → Owner) : (s.onOwner o f).dir = s.dir := rfl
@[simp] theorem State.onOwner_dirMap (s : State) (o : Nat) (f : Owner → Owner) : (s.onOwner o f).dirMap = s.dirMap := rfl
@[simp] theorem State.onOwner_rrecs (s : State) (o : Nat) (f : Owner → Owner) : (s.onOwner o f).rrecs = s.rrecs := rfl
@[simp] theorem State.onOwner_flocks (s : State) (o : Nat) (f : Owner → Owner) : (s.onOwner o f).flocks = s.flocks := rfl
@[simp] theorem State.onOwner_scopes (s : State) (o : Nat) (f : Owner → Owner) : (s.onOwner o f).scopes = s.scopes := rfl
@[simp] theorem State.onOwner_migrations (s : State) (o : Nat) (f : Owner → Owner) : (s.onOwner o f).migrations = s.migrations := rfl
@[simp] theorem State.onOwner_archive (s : State) (o : Nat) (f : Owner → Owner) : (s.onOwner o f).archive = s.archive := rfl
@[simp] theorem State.onOwner_net (s : State) (o : Nat) (f : Owner → Owner) : (s.onOwner o f).net = s.net := rfl
@[simp] theorem State.onOwner_serial (s : State) (o : Nat) (f : Owner → Owner) : (s.onOwner o f).serial = s.serial := rfl
@[simp] theorem State.onOwner_agenda (s : State) (o : Nat) (f : Owner → Owner) : (s.onOwner o f).agenda = s.agenda := rfl
@[simp] theorem State.onOwner_delays (s : State) (o : Nat) (f : Owner → Owner) : (s.onOwner o f).delays = s.delays := rfl
@[simp] theorem State.onOwner_cur (s : State) (o : Nat) (f : Owner → Owner) : (s.onOwner o f).cur = s.cur := rfl
@[simp] theorem State.onOwner_bare (s : State) (o : Nat) (f : Owner → Owner) : (s.onOwner o f).bare = s.bare := rfl
@[simp] theorem State.onOwner_issuers (s : State) (o : Nat) (f : Owner → Owner) : (s.onOwner o f).issuers = s.issuers := rfl
@[simp] theorem State.onOwner_settled (s : State) (o : Nat) (f : Owner → Owner) : (s.onOwner o f).settled = s.settled := rfl
@[simp] theorem State.onOwner_started (s : State) (o : Nat) (f : Owner → Owner) : (s.onOwner o f).started = s.started := rfl
@[simp] theorem State.onOwner_wall (s : State) (o : Nat) (f : Owner → Owner) : (s.onOwner o f).wall = s.wall := rfl

/-! ## State.onBank -/

@[simp] theorem State.onBank_pkgs (s : State) (b : Nat) (f : Bank → Bank) : (s.onBank b f).pkgs = s.pkgs := rfl
@[simp] theorem State.onBank_npkg (s : State) (b : Nat) (f : Bank → Bank) : (s.onBank b f).npkg = s.npkg := rfl
@[simp] theorem State.onBank_cores (s : State) (b : Nat) (f : Bank → Bank) : (s.onBank b f).cores = s.cores := rfl
@[simp] theorem State.onBank_engines (s : State) (b : Nat) (f : Bank → Bank) : (s.onBank b f).engines = s.engines := rfl
@[simp] theorem State.onBank_owners (s : State) (b : Nat) (f : Bank → Bank) : (s.onBank b f).owners = s.owners := rfl
@[simp] theorem State.onBank_words (s : State) (b : Nat) (f : Bank → Bank) : (s.onBank b f).words = s.words := rfl
@[simp] theorem State.onBank_gmem (s : State) (b : Nat) (f : Bank → Bank) : (s.onBank b f).gmem = s.gmem := rfl
@[simp] theorem State.onBank_gbad (s : State) (b : Nat) (f : Bank → Bank) : (s.onBank b f).gbad = s.gbad := rfl
@[simp] theorem State.onBank_hints (s : State) (b : Nat) (f : Bank → Bank) : (s.onBank b f).hints = s.hints := rfl
@[simp] theorem State.onBank_placed (s : State) (b : Nat) (f : Bank → Bank) : (s.onBank b f).placed = s.placed := rfl
@[simp] theorem State.onBank_dir (s : State) (b : Nat) (f : Bank → Bank) : (s.onBank b f).dir = s.dir := rfl
@[simp] theorem State.onBank_dirMap (s : State) (b : Nat) (f : Bank → Bank) : (s.onBank b f).dirMap = s.dirMap := rfl
@[simp] theorem State.onBank_rrecs (s : State) (b : Nat) (f : Bank → Bank) : (s.onBank b f).rrecs = s.rrecs := rfl
@[simp] theorem State.onBank_flocks (s : State) (b : Nat) (f : Bank → Bank) : (s.onBank b f).flocks = s.flocks := rfl
@[simp] theorem State.onBank_scopes (s : State) (b : Nat) (f : Bank → Bank) : (s.onBank b f).scopes = s.scopes := rfl
@[simp] theorem State.onBank_migrations (s : State) (b : Nat) (f : Bank → Bank) : (s.onBank b f).migrations = s.migrations := rfl
@[simp] theorem State.onBank_archive (s : State) (b : Nat) (f : Bank → Bank) : (s.onBank b f).archive = s.archive := rfl
@[simp] theorem State.onBank_net (s : State) (b : Nat) (f : Bank → Bank) : (s.onBank b f).net = s.net := rfl
@[simp] theorem State.onBank_serial (s : State) (b : Nat) (f : Bank → Bank) : (s.onBank b f).serial = s.serial := rfl
@[simp] theorem State.onBank_agenda (s : State) (b : Nat) (f : Bank → Bank) : (s.onBank b f).agenda = s.agenda := rfl
@[simp] theorem State.onBank_delays (s : State) (b : Nat) (f : Bank → Bank) : (s.onBank b f).delays = s.delays := rfl
@[simp] theorem State.onBank_cur (s : State) (b : Nat) (f : Bank → Bank) : (s.onBank b f).cur = s.cur := rfl
@[simp] theorem State.onBank_bare (s : State) (b : Nat) (f : Bank → Bank) : (s.onBank b f).bare = s.bare := rfl
@[simp] theorem State.onBank_issuers (s : State) (b : Nat) (f : Bank → Bank) : (s.onBank b f).issuers = s.issuers := rfl
@[simp] theorem State.onBank_settled (s : State) (b : Nat) (f : Bank → Bank) : (s.onBank b f).settled = s.settled := rfl
@[simp] theorem State.onBank_started (s : State) (b : Nat) (f : Bank → Bank) : (s.onBank b f).started = s.started := rfl
@[simp] theorem State.onBank_wall (s : State) (b : Nat) (f : Bank → Bank) : (s.onBank b f).wall = s.wall := rfl

/-! ## State.setWord -/

@[simp] theorem State.setWord_pkgs (s : State) (w : Nat) (v : CWord) : (s.setWord w v).pkgs = s.pkgs := rfl
@[simp] theorem State.setWord_npkg (s : State) (w : Nat) (v : CWord) : (s.setWord w v).npkg = s.npkg := rfl
@[simp] theorem State.setWord_cores (s : State) (w : Nat) (v : CWord) : (s.setWord w v).cores = s.cores := rfl
@[simp] theorem State.setWord_engines (s : State) (w : Nat) (v : CWord) : (s.setWord w v).engines = s.engines := rfl
@[simp] theorem State.setWord_owners (s : State) (w : Nat) (v : CWord) : (s.setWord w v).owners = s.owners := rfl
@[simp] theorem State.setWord_banks (s : State) (w : Nat) (v : CWord) : (s.setWord w v).banks = s.banks := rfl
@[simp] theorem State.setWord_gmem (s : State) (w : Nat) (v : CWord) : (s.setWord w v).gmem = s.gmem := rfl
@[simp] theorem State.setWord_gbad (s : State) (w : Nat) (v : CWord) : (s.setWord w v).gbad = s.gbad := rfl
@[simp] theorem State.setWord_hints (s : State) (w : Nat) (v : CWord) : (s.setWord w v).hints = s.hints := rfl
@[simp] theorem State.setWord_placed (s : State) (w : Nat) (v : CWord) : (s.setWord w v).placed = s.placed := rfl
@[simp] theorem State.setWord_dir (s : State) (w : Nat) (v : CWord) : (s.setWord w v).dir = s.dir := rfl
@[simp] theorem State.setWord_dirMap (s : State) (w : Nat) (v : CWord) : (s.setWord w v).dirMap = s.dirMap := rfl
@[simp] theorem State.setWord_rrecs (s : State) (w : Nat) (v : CWord) : (s.setWord w v).rrecs = s.rrecs := rfl
@[simp] theorem State.setWord_flocks (s : State) (w : Nat) (v : CWord) : (s.setWord w v).flocks = s.flocks := rfl
@[simp] theorem State.setWord_scopes (s : State) (w : Nat) (v : CWord) : (s.setWord w v).scopes = s.scopes := rfl
@[simp] theorem State.setWord_migrations (s : State) (w : Nat) (v : CWord) : (s.setWord w v).migrations = s.migrations := rfl
@[simp] theorem State.setWord_archive (s : State) (w : Nat) (v : CWord) : (s.setWord w v).archive = s.archive := rfl
@[simp] theorem State.setWord_net (s : State) (w : Nat) (v : CWord) : (s.setWord w v).net = s.net := rfl
@[simp] theorem State.setWord_serial (s : State) (w : Nat) (v : CWord) : (s.setWord w v).serial = s.serial := rfl
@[simp] theorem State.setWord_agenda (s : State) (w : Nat) (v : CWord) : (s.setWord w v).agenda = s.agenda := rfl
@[simp] theorem State.setWord_delays (s : State) (w : Nat) (v : CWord) : (s.setWord w v).delays = s.delays := rfl
@[simp] theorem State.setWord_cur (s : State) (w : Nat) (v : CWord) : (s.setWord w v).cur = s.cur := rfl
@[simp] theorem State.setWord_bare (s : State) (w : Nat) (v : CWord) : (s.setWord w v).bare = s.bare := rfl
@[simp] theorem State.setWord_issuers (s : State) (w : Nat) (v : CWord) : (s.setWord w v).issuers = s.issuers := rfl
@[simp] theorem State.setWord_settled (s : State) (w : Nat) (v : CWord) : (s.setWord w v).settled = s.settled := rfl
@[simp] theorem State.setWord_started (s : State) (w : Nat) (v : CWord) : (s.setWord w v).started = s.started := rfl
@[simp] theorem State.setWord_wall (s : State) (w : Nat) (v : CWord) : (s.setWord w v).wall = s.wall := rfl

/-! ## State.setDir -/

@[simp] theorem State.setDir_pkgs (s : State) (e : DirEntry) : (s.setDir e).pkgs = s.pkgs := rfl
@[simp] theorem State.setDir_npkg (s : State) (e : DirEntry) : (s.setDir e).npkg = s.npkg := rfl
@[simp] theorem State.setDir_cores (s : State) (e : DirEntry) : (s.setDir e).cores = s.cores := rfl
@[simp] theorem State.setDir_engines (s : State) (e : DirEntry) : (s.setDir e).engines = s.engines := rfl
@[simp] theorem State.setDir_owners (s : State) (e : DirEntry) : (s.setDir e).owners = s.owners := rfl
@[simp] theorem State.setDir_banks (s : State) (e : DirEntry) : (s.setDir e).banks = s.banks := rfl
@[simp] theorem State.setDir_words (s : State) (e : DirEntry) : (s.setDir e).words = s.words := rfl
@[simp] theorem State.setDir_gmem (s : State) (e : DirEntry) : (s.setDir e).gmem = s.gmem := rfl
@[simp] theorem State.setDir_gbad (s : State) (e : DirEntry) : (s.setDir e).gbad = s.gbad := rfl
@[simp] theorem State.setDir_hints (s : State) (e : DirEntry) : (s.setDir e).hints = s.hints := rfl
@[simp] theorem State.setDir_placed (s : State) (e : DirEntry) : (s.setDir e).placed = s.placed := rfl
@[simp] theorem State.setDir_dirMap (s : State) (e : DirEntry) : (s.setDir e).dirMap = s.dirMap := rfl
@[simp] theorem State.setDir_rrecs (s : State) (e : DirEntry) : (s.setDir e).rrecs = s.rrecs := rfl
@[simp] theorem State.setDir_flocks (s : State) (e : DirEntry) : (s.setDir e).flocks = s.flocks := rfl
@[simp] theorem State.setDir_scopes (s : State) (e : DirEntry) : (s.setDir e).scopes = s.scopes := rfl
@[simp] theorem State.setDir_migrations (s : State) (e : DirEntry) : (s.setDir e).migrations = s.migrations := rfl
@[simp] theorem State.setDir_archive (s : State) (e : DirEntry) : (s.setDir e).archive = s.archive := rfl
@[simp] theorem State.setDir_net (s : State) (e : DirEntry) : (s.setDir e).net = s.net := rfl
@[simp] theorem State.setDir_serial (s : State) (e : DirEntry) : (s.setDir e).serial = s.serial := rfl
@[simp] theorem State.setDir_agenda (s : State) (e : DirEntry) : (s.setDir e).agenda = s.agenda := rfl
@[simp] theorem State.setDir_delays (s : State) (e : DirEntry) : (s.setDir e).delays = s.delays := rfl
@[simp] theorem State.setDir_cur (s : State) (e : DirEntry) : (s.setDir e).cur = s.cur := rfl
@[simp] theorem State.setDir_bare (s : State) (e : DirEntry) : (s.setDir e).bare = s.bare := rfl
@[simp] theorem State.setDir_issuers (s : State) (e : DirEntry) : (s.setDir e).issuers = s.issuers := rfl
@[simp] theorem State.setDir_settled (s : State) (e : DirEntry) : (s.setDir e).settled = s.settled := rfl
@[simp] theorem State.setDir_started (s : State) (e : DirEntry) : (s.setDir e).started = s.started := rfl
@[simp] theorem State.setDir_wall (s : State) (e : DirEntry) : (s.setDir e).wall = s.wall := rfl

/-! ## State.freeName -/

@[simp] theorem State.freeName_pkgs (s : State) (n : W64) : (s.freeName n).pkgs = (s.cancelThresholds n).pkgs := rfl
@[simp] theorem State.freeName_npkg (s : State) (n : W64) : (s.freeName n).npkg = s.npkg := rfl
@[simp] theorem State.freeName_cores (s : State) (n : W64) : (s.freeName n).cores = s.cores := rfl
@[simp] theorem State.freeName_engines (s : State) (n : W64) : (s.freeName n).engines = s.engines := rfl
@[simp] theorem State.freeName_owners (s : State) (n : W64) : (s.freeName n).owners = s.owners := rfl
@[simp] theorem State.freeName_banks (s : State) (n : W64) : (s.freeName n).banks = s.banks := rfl
@[simp] theorem State.freeName_words (s : State) (n : W64) : (s.freeName n).words = s.words := rfl
@[simp] theorem State.freeName_gmem (s : State) (n : W64) : (s.freeName n).gmem = s.gmem := rfl
@[simp] theorem State.freeName_gbad (s : State) (n : W64) : (s.freeName n).gbad = s.gbad := rfl
@[simp] theorem State.freeName_hints (s : State) (n : W64) : (s.freeName n).hints = s.hints := rfl
@[simp] theorem State.freeName_placed (s : State) (n : W64) : (s.freeName n).placed = s.placed := rfl
@[simp] theorem State.freeName_dirMap (s : State) (n : W64) : (s.freeName n).dirMap = s.dirMap := rfl
@[simp] theorem State.freeName_rrecs (s : State) (n : W64) : (s.freeName n).rrecs = s.rrecs := rfl
@[simp] theorem State.freeName_flocks (s : State) (n : W64) : (s.freeName n).flocks = s.flocks := rfl
@[simp] theorem State.freeName_scopes (s : State) (n : W64) : (s.freeName n).scopes = s.scopes := rfl
@[simp] theorem State.freeName_migrations (s : State) (n : W64) : (s.freeName n).migrations = s.migrations := rfl
@[simp] theorem State.freeName_archive (s : State) (n : W64) : (s.freeName n).archive = s.archive := rfl
@[simp] theorem State.freeName_net (s : State) (n : W64) : (s.freeName n).net = s.net := rfl
@[simp] theorem State.freeName_serial (s : State) (n : W64) : (s.freeName n).serial = s.serial := rfl
@[simp] theorem State.freeName_agenda (s : State) (n : W64) : (s.freeName n).agenda = s.agenda := rfl
@[simp] theorem State.freeName_delays (s : State) (n : W64) : (s.freeName n).delays = s.delays := rfl
@[simp] theorem State.freeName_cur (s : State) (n : W64) : (s.freeName n).cur = s.cur := rfl
@[simp] theorem State.freeName_bare (s : State) (n : W64) : (s.freeName n).bare = s.bare := rfl
@[simp] theorem State.freeName_issuers (s : State) (n : W64) : (s.freeName n).issuers = s.issuers := rfl
@[simp] theorem State.freeName_settled (s : State) (n : W64) : (s.freeName n).settled = s.settled := rfl
@[simp] theorem State.freeName_started (s : State) (n : W64) : (s.freeName n).started = s.started := rfl
@[simp] theorem State.freeName_wall (s : State) (n : W64) : (s.freeName n).wall = s.wall := rfl

/-! ## State.post -/

@[simp] theorem State.post_pkgs (s : State) (src : Nat) (pay : Payload) : (s.post src pay).pkgs = s.pkgs := rfl
@[simp] theorem State.post_npkg (s : State) (src : Nat) (pay : Payload) : (s.post src pay).npkg = s.npkg := rfl
@[simp] theorem State.post_cores (s : State) (src : Nat) (pay : Payload) : (s.post src pay).cores = s.cores := rfl
@[simp] theorem State.post_engines (s : State) (src : Nat) (pay : Payload) : (s.post src pay).engines = s.engines := rfl
@[simp] theorem State.post_owners (s : State) (src : Nat) (pay : Payload) : (s.post src pay).owners = s.owners := rfl
@[simp] theorem State.post_banks (s : State) (src : Nat) (pay : Payload) : (s.post src pay).banks = s.banks := rfl
@[simp] theorem State.post_words (s : State) (src : Nat) (pay : Payload) : (s.post src pay).words = s.words := rfl
@[simp] theorem State.post_gmem (s : State) (src : Nat) (pay : Payload) : (s.post src pay).gmem = s.gmem := rfl
@[simp] theorem State.post_gbad (s : State) (src : Nat) (pay : Payload) : (s.post src pay).gbad = s.gbad := rfl
@[simp] theorem State.post_hints (s : State) (src : Nat) (pay : Payload) : (s.post src pay).hints = s.hints := rfl
@[simp] theorem State.post_placed (s : State) (src : Nat) (pay : Payload) : (s.post src pay).placed = s.placed := rfl
@[simp] theorem State.post_dir (s : State) (src : Nat) (pay : Payload) : (s.post src pay).dir = s.dir := rfl
@[simp] theorem State.post_dirMap (s : State) (src : Nat) (pay : Payload) : (s.post src pay).dirMap = s.dirMap := rfl
@[simp] theorem State.post_rrecs (s : State) (src : Nat) (pay : Payload) : (s.post src pay).rrecs = s.rrecs := rfl
@[simp] theorem State.post_flocks (s : State) (src : Nat) (pay : Payload) : (s.post src pay).flocks = s.flocks := rfl
@[simp] theorem State.post_scopes (s : State) (src : Nat) (pay : Payload) : (s.post src pay).scopes = s.scopes := rfl
@[simp] theorem State.post_migrations (s : State) (src : Nat) (pay : Payload) : (s.post src pay).migrations = s.migrations := rfl
@[simp] theorem State.post_archive (s : State) (src : Nat) (pay : Payload) : (s.post src pay).archive = s.archive := rfl
@[simp] theorem State.post_agenda (s : State) (src : Nat) (pay : Payload) : (s.post src pay).agenda = s.agenda := rfl
@[simp] theorem State.post_delays (s : State) (src : Nat) (pay : Payload) : (s.post src pay).delays = s.delays := rfl
@[simp] theorem State.post_cur (s : State) (src : Nat) (pay : Payload) : (s.post src pay).cur = s.cur := rfl
@[simp] theorem State.post_bare (s : State) (src : Nat) (pay : Payload) : (s.post src pay).bare = s.bare := rfl
@[simp] theorem State.post_issuers (s : State) (src : Nat) (pay : Payload) : (s.post src pay).issuers = s.issuers := rfl
@[simp] theorem State.post_settled (s : State) (src : Nat) (pay : Payload) : (s.post src pay).settled = s.settled := rfl
@[simp] theorem State.post_started (s : State) (src : Nat) (pay : Payload) : (s.post src pay).started = s.started := rfl
@[simp] theorem State.post_wall (s : State) (src : Nat) (pay : Payload) : (s.post src pay).wall = s.wall := rfl

/-! ## State.take -/

@[simp] theorem State.take_pkgs (s : State) (n : Nat) : (s.take n).pkgs = s.pkgs := rfl
@[simp] theorem State.take_npkg (s : State) (n : Nat) : (s.take n).npkg = s.npkg := rfl
@[simp] theorem State.take_cores (s : State) (n : Nat) : (s.take n).cores = s.cores := rfl
@[simp] theorem State.take_engines (s : State) (n : Nat) : (s.take n).engines = s.engines := rfl
@[simp] theorem State.take_owners (s : State) (n : Nat) : (s.take n).owners = s.owners := rfl
@[simp] theorem State.take_banks (s : State) (n : Nat) : (s.take n).banks = s.banks := rfl
@[simp] theorem State.take_words (s : State) (n : Nat) : (s.take n).words = s.words := rfl
@[simp] theorem State.take_gmem (s : State) (n : Nat) : (s.take n).gmem = s.gmem := rfl
@[simp] theorem State.take_gbad (s : State) (n : Nat) : (s.take n).gbad = s.gbad := rfl
@[simp] theorem State.take_hints (s : State) (n : Nat) : (s.take n).hints = s.hints := rfl
@[simp] theorem State.take_placed (s : State) (n : Nat) : (s.take n).placed = s.placed := rfl
@[simp] theorem State.take_dir (s : State) (n : Nat) : (s.take n).dir = s.dir := rfl
@[simp] theorem State.take_dirMap (s : State) (n : Nat) : (s.take n).dirMap = s.dirMap := rfl
@[simp] theorem State.take_rrecs (s : State) (n : Nat) : (s.take n).rrecs = s.rrecs := rfl
@[simp] theorem State.take_flocks (s : State) (n : Nat) : (s.take n).flocks = s.flocks := rfl
@[simp] theorem State.take_scopes (s : State) (n : Nat) : (s.take n).scopes = s.scopes := rfl
@[simp] theorem State.take_migrations (s : State) (n : Nat) : (s.take n).migrations = s.migrations := rfl
@[simp] theorem State.take_archive (s : State) (n : Nat) : (s.take n).archive = s.archive := rfl
@[simp] theorem State.take_serial (s : State) (n : Nat) : (s.take n).serial = s.serial := rfl
@[simp] theorem State.take_agenda (s : State) (n : Nat) : (s.take n).agenda = s.agenda := rfl
@[simp] theorem State.take_delays (s : State) (n : Nat) : (s.take n).delays = s.delays := rfl
@[simp] theorem State.take_cur (s : State) (n : Nat) : (s.take n).cur = s.cur := rfl
@[simp] theorem State.take_bare (s : State) (n : Nat) : (s.take n).bare = s.bare := rfl
@[simp] theorem State.take_issuers (s : State) (n : Nat) : (s.take n).issuers = s.issuers := rfl
@[simp] theorem State.take_settled (s : State) (n : Nat) : (s.take n).settled = s.settled := rfl
@[simp] theorem State.take_started (s : State) (n : Nat) : (s.take n).started = s.started := rfl
@[simp] theorem State.take_wall (s : State) (n : Nat) : (s.take n).wall = s.wall := rfl

/-! ## Core.onActor -/

@[simp] theorem Core.onActor_mem (k : Core) (i : Nat) (f : Actor → Actor) : (k.onActor i f).mem = k.mem := rfl
@[simp] theorem Core.onActor_bad (k : Core) (i : Nat) (f : Actor → Actor) : (k.onActor i f).bad = k.bad := rfl
@[simp] theorem Core.onActor_cow (k : Core) (i : Nat) (f : Actor → Actor) : (k.onActor i f).cow = k.cow := rfl
@[simp] theorem Core.onActor_regions (k : Core) (i : Nat) (f : Actor → Actor) : (k.onActor i f).regions = k.regions := rfl
@[simp] theorem Core.onActor_threads (k : Core) (i : Nat) (f : Actor → Actor) : (k.onActor i f).threads = k.threads := rfl
@[simp] theorem Core.onActor_links (k : Core) (i : Nat) (f : Actor → Actor) : (k.onActor i f).links = k.links := rfl
@[simp] theorem Core.onActor_sups (k : Core) (i : Nat) (f : Actor → Actor) : (k.onActor i f).sups = k.sups := rfl
@[simp] theorem Core.onActor_spawns (k : Core) (i : Nat) (f : Actor → Actor) : (k.onActor i f).spawns = k.spawns := rfl
@[simp] theorem Core.onActor_dirCache (k : Core) (i : Nat) (f : Actor → Actor) : (k.onActor i f).dirCache = k.dirCache := rfl
@[simp] theorem Core.onActor_sends (k : Core) (i : Nat) (f : Actor → Actor) : (k.onActor i f).sends = k.sends := rfl
@[simp] theorem Core.onActor_mq (k : Core) (i : Nat) (f : Actor → Actor) : (k.onActor i f).mq = k.mq := rfl
@[simp] theorem Core.onActor_fifo (k : Core) (i : Nat) (f : Actor → Actor) : (k.onActor i f).fifo = k.fifo := rfl
@[simp] theorem Core.onActor_accs (k : Core) (i : Nat) (f : Actor → Actor) : (k.onActor i f).accs = k.accs := rfl
@[simp] theorem Core.onActor_plb (k : Core) (i : Nat) (f : Actor → Actor) : (k.onActor i f).plb = k.plb := rfl
@[simp] theorem Core.onActor_refills (k : Core) (i : Nat) (f : Actor → Actor) : (k.onActor i f).refills = k.refills := rfl
@[simp] theorem Core.onActor_bankSeq (k : Core) (i : Nat) (f : Actor → Actor) : (k.onActor i f).bankSeq = k.bankSeq := rfl
@[simp] theorem Core.onActor_msgSeq (k : Core) (i : Nat) (f : Actor → Actor) : (k.onActor i f).msgSeq = k.msgSeq := rfl
@[simp] theorem Core.onActor_tagNo (k : Core) (i : Nat) (f : Actor → Actor) : (k.onActor i f).tagNo = k.tagNo := rfl
@[simp] theorem Core.onActor_msgNo (k : Core) (i : Nat) (f : Actor → Actor) : (k.onActor i f).msgNo = k.msgNo := rfl
@[simp] theorem Core.onActor_next (k : Core) (i : Nat) (f : Actor → Actor) : (k.onActor i f).next = k.next := rfl
@[simp] theorem Core.onActor_msgTags (k : Core) (i : Nat) (f : Actor → Actor) : (k.onActor i f).msgTags = k.msgTags := rfl
@[simp] theorem Core.onActor_pmcs (k : Core) (i : Nat) (f : Actor → Actor) : (k.onActor i f).pmcs = k.pmcs := rfl
@[simp] theorem Core.onActor_mxLost (k : Core) (i : Nat) (f : Actor → Actor) : (k.onActor i f).mxLost = k.mxLost := rfl
@[simp] theorem Core.onActor_gone (k : Core) (i : Nat) (f : Actor → Actor) : (k.onActor i f).gone = k.gone := rfl
@[simp] theorem Core.onActor_recovs (k : Core) (i : Nat) (f : Actor → Actor) : (k.onActor i f).recovs = k.recovs := rfl
@[simp] theorem Core.onActor_mxFails (k : Core) (i : Nat) (f : Actor → Actor) : (k.onActor i f).mxFails = k.mxFails := rfl
@[simp] theorem Core.onActor_holds (k : Core) (i : Nat) (f : Actor → Actor) : (k.onActor i f).holds = k.holds := rfl
@[simp] theorem Core.onActor_tset (k : Core) (i : Nat) (f : Actor → Actor) : (k.onActor i f).tset = k.tset := rfl
@[simp] theorem Core.onActor_macs (k : Core) (i : Nat) (f : Actor → Actor) : (k.onActor i f).macs = k.macs := rfl

/-! ## Core.onThread -/

@[simp] theorem Core.onThread_mem (k : Core) (i : Fin 4) (f : Thread → Thread) : (k.onThread i f).mem = k.mem := rfl
@[simp] theorem Core.onThread_bad (k : Core) (i : Fin 4) (f : Thread → Thread) : (k.onThread i f).bad = k.bad := rfl
@[simp] theorem Core.onThread_cow (k : Core) (i : Fin 4) (f : Thread → Thread) : (k.onThread i f).cow = k.cow := rfl
@[simp] theorem Core.onThread_regions (k : Core) (i : Fin 4) (f : Thread → Thread) : (k.onThread i f).regions = k.regions := rfl
@[simp] theorem Core.onThread_slots (k : Core) (i : Fin 4) (f : Thread → Thread) : (k.onThread i f).slots = k.slots := rfl
@[simp] theorem Core.onThread_links (k : Core) (i : Fin 4) (f : Thread → Thread) : (k.onThread i f).links = k.links := rfl
@[simp] theorem Core.onThread_sups (k : Core) (i : Fin 4) (f : Thread → Thread) : (k.onThread i f).sups = k.sups := rfl
@[simp] theorem Core.onThread_spawns (k : Core) (i : Fin 4) (f : Thread → Thread) : (k.onThread i f).spawns = k.spawns := rfl
@[simp] theorem Core.onThread_dirCache (k : Core) (i : Fin 4) (f : Thread → Thread) : (k.onThread i f).dirCache = k.dirCache := rfl
@[simp] theorem Core.onThread_sends (k : Core) (i : Fin 4) (f : Thread → Thread) : (k.onThread i f).sends = k.sends := rfl
@[simp] theorem Core.onThread_mq (k : Core) (i : Fin 4) (f : Thread → Thread) : (k.onThread i f).mq = k.mq := rfl
@[simp] theorem Core.onThread_fifo (k : Core) (i : Fin 4) (f : Thread → Thread) : (k.onThread i f).fifo = k.fifo := rfl
@[simp] theorem Core.onThread_accs (k : Core) (i : Fin 4) (f : Thread → Thread) : (k.onThread i f).accs = k.accs := rfl
@[simp] theorem Core.onThread_plb (k : Core) (i : Fin 4) (f : Thread → Thread) : (k.onThread i f).plb = k.plb := rfl
@[simp] theorem Core.onThread_refills (k : Core) (i : Fin 4) (f : Thread → Thread) : (k.onThread i f).refills = k.refills := rfl
@[simp] theorem Core.onThread_bankSeq (k : Core) (i : Fin 4) (f : Thread → Thread) : (k.onThread i f).bankSeq = k.bankSeq := rfl
@[simp] theorem Core.onThread_msgSeq (k : Core) (i : Fin 4) (f : Thread → Thread) : (k.onThread i f).msgSeq = k.msgSeq := rfl
@[simp] theorem Core.onThread_tagNo (k : Core) (i : Fin 4) (f : Thread → Thread) : (k.onThread i f).tagNo = k.tagNo := rfl
@[simp] theorem Core.onThread_msgNo (k : Core) (i : Fin 4) (f : Thread → Thread) : (k.onThread i f).msgNo = k.msgNo := rfl
@[simp] theorem Core.onThread_next (k : Core) (i : Fin 4) (f : Thread → Thread) : (k.onThread i f).next = k.next := rfl
@[simp] theorem Core.onThread_msgTags (k : Core) (i : Fin 4) (f : Thread → Thread) : (k.onThread i f).msgTags = k.msgTags := rfl
@[simp] theorem Core.onThread_pmcs (k : Core) (i : Fin 4) (f : Thread → Thread) : (k.onThread i f).pmcs = k.pmcs := rfl
@[simp] theorem Core.onThread_mxLost (k : Core) (i : Fin 4) (f : Thread → Thread) : (k.onThread i f).mxLost = k.mxLost := rfl
@[simp] theorem Core.onThread_gone (k : Core) (i : Fin 4) (f : Thread → Thread) : (k.onThread i f).gone = k.gone := rfl
@[simp] theorem Core.onThread_recovs (k : Core) (i : Fin 4) (f : Thread → Thread) : (k.onThread i f).recovs = k.recovs := rfl
@[simp] theorem Core.onThread_mxFails (k : Core) (i : Fin 4) (f : Thread → Thread) : (k.onThread i f).mxFails = k.mxFails := rfl
@[simp] theorem Core.onThread_holds (k : Core) (i : Fin 4) (f : Thread → Thread) : (k.onThread i f).holds = k.holds := rfl
@[simp] theorem Core.onThread_tset (k : Core) (i : Fin 4) (f : Thread → Thread) : (k.onThread i f).tset = k.tset := rfl
@[simp] theorem Core.onThread_macs (k : Core) (i : Fin 4) (f : Thread → Thread) : (k.onThread i f).macs = k.macs := rfl

/-! ## Core.onRegion -/

@[simp] theorem Core.onRegion_mem (k : Core) (i : Nat) (f : RegEntry → RegEntry) : (k.onRegion i f).mem = k.mem := rfl
@[simp] theorem Core.onRegion_bad (k : Core) (i : Nat) (f : RegEntry → RegEntry) : (k.onRegion i f).bad = k.bad := rfl
@[simp] theorem Core.onRegion_cow (k : Core) (i : Nat) (f : RegEntry → RegEntry) : (k.onRegion i f).cow = k.cow := rfl
@[simp] theorem Core.onRegion_slots (k : Core) (i : Nat) (f : RegEntry → RegEntry) : (k.onRegion i f).slots = k.slots := rfl
@[simp] theorem Core.onRegion_threads (k : Core) (i : Nat) (f : RegEntry → RegEntry) : (k.onRegion i f).threads = k.threads := rfl
@[simp] theorem Core.onRegion_links (k : Core) (i : Nat) (f : RegEntry → RegEntry) : (k.onRegion i f).links = k.links := rfl
@[simp] theorem Core.onRegion_sups (k : Core) (i : Nat) (f : RegEntry → RegEntry) : (k.onRegion i f).sups = k.sups := rfl
@[simp] theorem Core.onRegion_spawns (k : Core) (i : Nat) (f : RegEntry → RegEntry) : (k.onRegion i f).spawns = k.spawns := rfl
@[simp] theorem Core.onRegion_dirCache (k : Core) (i : Nat) (f : RegEntry → RegEntry) : (k.onRegion i f).dirCache = k.dirCache := rfl
@[simp] theorem Core.onRegion_sends (k : Core) (i : Nat) (f : RegEntry → RegEntry) : (k.onRegion i f).sends = k.sends := rfl
@[simp] theorem Core.onRegion_mq (k : Core) (i : Nat) (f : RegEntry → RegEntry) : (k.onRegion i f).mq = k.mq := rfl
@[simp] theorem Core.onRegion_fifo (k : Core) (i : Nat) (f : RegEntry → RegEntry) : (k.onRegion i f).fifo = k.fifo := rfl
@[simp] theorem Core.onRegion_accs (k : Core) (i : Nat) (f : RegEntry → RegEntry) : (k.onRegion i f).accs = k.accs := rfl
@[simp] theorem Core.onRegion_plb (k : Core) (i : Nat) (f : RegEntry → RegEntry) : (k.onRegion i f).plb = k.plb := rfl
@[simp] theorem Core.onRegion_refills (k : Core) (i : Nat) (f : RegEntry → RegEntry) : (k.onRegion i f).refills = k.refills := rfl
@[simp] theorem Core.onRegion_bankSeq (k : Core) (i : Nat) (f : RegEntry → RegEntry) : (k.onRegion i f).bankSeq = k.bankSeq := rfl
@[simp] theorem Core.onRegion_msgSeq (k : Core) (i : Nat) (f : RegEntry → RegEntry) : (k.onRegion i f).msgSeq = k.msgSeq := rfl
@[simp] theorem Core.onRegion_tagNo (k : Core) (i : Nat) (f : RegEntry → RegEntry) : (k.onRegion i f).tagNo = k.tagNo := rfl
@[simp] theorem Core.onRegion_msgNo (k : Core) (i : Nat) (f : RegEntry → RegEntry) : (k.onRegion i f).msgNo = k.msgNo := rfl
@[simp] theorem Core.onRegion_next (k : Core) (i : Nat) (f : RegEntry → RegEntry) : (k.onRegion i f).next = k.next := rfl
@[simp] theorem Core.onRegion_msgTags (k : Core) (i : Nat) (f : RegEntry → RegEntry) : (k.onRegion i f).msgTags = k.msgTags := rfl
@[simp] theorem Core.onRegion_pmcs (k : Core) (i : Nat) (f : RegEntry → RegEntry) : (k.onRegion i f).pmcs = k.pmcs := rfl
@[simp] theorem Core.onRegion_mxLost (k : Core) (i : Nat) (f : RegEntry → RegEntry) : (k.onRegion i f).mxLost = k.mxLost := rfl
@[simp] theorem Core.onRegion_gone (k : Core) (i : Nat) (f : RegEntry → RegEntry) : (k.onRegion i f).gone = k.gone := rfl
@[simp] theorem Core.onRegion_recovs (k : Core) (i : Nat) (f : RegEntry → RegEntry) : (k.onRegion i f).recovs = k.recovs := rfl
@[simp] theorem Core.onRegion_mxFails (k : Core) (i : Nat) (f : RegEntry → RegEntry) : (k.onRegion i f).mxFails = k.mxFails := rfl
@[simp] theorem Core.onRegion_holds (k : Core) (i : Nat) (f : RegEntry → RegEntry) : (k.onRegion i f).holds = k.holds := rfl
@[simp] theorem Core.onRegion_tset (k : Core) (i : Nat) (f : RegEntry → RegEntry) : (k.onRegion i f).tset = k.tset := rfl
@[simp] theorem Core.onRegion_macs (k : Core) (i : Nat) (f : RegEntry → RegEntry) : (k.onRegion i f).macs = k.macs := rfl

/-! ## Core.dropRegion -/

@[simp] theorem Core.dropRegion_mem (k : Core) (i : Nat) : (k.dropRegion i).mem = k.mem := rfl
@[simp] theorem Core.dropRegion_bad (k : Core) (i : Nat) : (k.dropRegion i).bad = k.bad := rfl
@[simp] theorem Core.dropRegion_cow (k : Core) (i : Nat) : (k.dropRegion i).cow = k.cow := rfl
@[simp] theorem Core.dropRegion_slots (k : Core) (i : Nat) : (k.dropRegion i).slots = k.slots := rfl
@[simp] theorem Core.dropRegion_threads (k : Core) (i : Nat) : (k.dropRegion i).threads = k.threads := rfl
@[simp] theorem Core.dropRegion_links (k : Core) (i : Nat) : (k.dropRegion i).links = k.links := rfl
@[simp] theorem Core.dropRegion_sups (k : Core) (i : Nat) : (k.dropRegion i).sups = k.sups := rfl
@[simp] theorem Core.dropRegion_spawns (k : Core) (i : Nat) : (k.dropRegion i).spawns = k.spawns := rfl
@[simp] theorem Core.dropRegion_dirCache (k : Core) (i : Nat) : (k.dropRegion i).dirCache = k.dirCache := rfl
@[simp] theorem Core.dropRegion_sends (k : Core) (i : Nat) : (k.dropRegion i).sends = k.sends := rfl
@[simp] theorem Core.dropRegion_mq (k : Core) (i : Nat) : (k.dropRegion i).mq = k.mq := rfl
@[simp] theorem Core.dropRegion_fifo (k : Core) (i : Nat) : (k.dropRegion i).fifo = k.fifo := rfl
@[simp] theorem Core.dropRegion_accs (k : Core) (i : Nat) : (k.dropRegion i).accs = k.accs := rfl
@[simp] theorem Core.dropRegion_plb (k : Core) (i : Nat) : (k.dropRegion i).plb = k.plb := rfl
@[simp] theorem Core.dropRegion_refills (k : Core) (i : Nat) : (k.dropRegion i).refills = k.refills := rfl
@[simp] theorem Core.dropRegion_bankSeq (k : Core) (i : Nat) : (k.dropRegion i).bankSeq = k.bankSeq := rfl
@[simp] theorem Core.dropRegion_msgSeq (k : Core) (i : Nat) : (k.dropRegion i).msgSeq = k.msgSeq := rfl
@[simp] theorem Core.dropRegion_tagNo (k : Core) (i : Nat) : (k.dropRegion i).tagNo = k.tagNo := rfl
@[simp] theorem Core.dropRegion_msgNo (k : Core) (i : Nat) : (k.dropRegion i).msgNo = k.msgNo := rfl
@[simp] theorem Core.dropRegion_next (k : Core) (i : Nat) : (k.dropRegion i).next = k.next := rfl
@[simp] theorem Core.dropRegion_msgTags (k : Core) (i : Nat) : (k.dropRegion i).msgTags = k.msgTags := rfl
@[simp] theorem Core.dropRegion_pmcs (k : Core) (i : Nat) : (k.dropRegion i).pmcs = k.pmcs := rfl
@[simp] theorem Core.dropRegion_mxLost (k : Core) (i : Nat) : (k.dropRegion i).mxLost = k.mxLost := rfl
@[simp] theorem Core.dropRegion_gone (k : Core) (i : Nat) : (k.dropRegion i).gone = k.gone := rfl
@[simp] theorem Core.dropRegion_recovs (k : Core) (i : Nat) : (k.dropRegion i).recovs = k.recovs := rfl
@[simp] theorem Core.dropRegion_mxFails (k : Core) (i : Nat) : (k.dropRegion i).mxFails = k.mxFails := rfl
@[simp] theorem Core.dropRegion_holds (k : Core) (i : Nat) : (k.dropRegion i).holds = k.holds := rfl
@[simp] theorem Core.dropRegion_tset (k : Core) (i : Nat) : (k.dropRegion i).tset = k.tset := rfl
@[simp] theorem Core.dropRegion_macs (k : Core) (i : Nat) : (k.dropRegion i).macs = k.macs := rfl

/-! ## Core.scrub -/

@[simp] theorem Core.scrub_regions (k : Core) (b n : Nat) : (k.scrub b n).regions = k.regions := rfl
@[simp] theorem Core.scrub_slots (k : Core) (b n : Nat) : (k.scrub b n).slots = k.slots := rfl
@[simp] theorem Core.scrub_threads (k : Core) (b n : Nat) : (k.scrub b n).threads = k.threads := rfl
@[simp] theorem Core.scrub_links (k : Core) (b n : Nat) : (k.scrub b n).links = k.links := rfl
@[simp] theorem Core.scrub_sups (k : Core) (b n : Nat) : (k.scrub b n).sups = k.sups := rfl
@[simp] theorem Core.scrub_spawns (k : Core) (b n : Nat) : (k.scrub b n).spawns = k.spawns := rfl
@[simp] theorem Core.scrub_dirCache (k : Core) (b n : Nat) : (k.scrub b n).dirCache = k.dirCache := rfl
@[simp] theorem Core.scrub_sends (k : Core) (b n : Nat) : (k.scrub b n).sends = k.sends := rfl
@[simp] theorem Core.scrub_mq (k : Core) (b n : Nat) : (k.scrub b n).mq = k.mq := rfl
@[simp] theorem Core.scrub_fifo (k : Core) (b n : Nat) : (k.scrub b n).fifo = k.fifo := rfl
@[simp] theorem Core.scrub_accs (k : Core) (b n : Nat) : (k.scrub b n).accs = k.accs := rfl
@[simp] theorem Core.scrub_plb (k : Core) (b n : Nat) : (k.scrub b n).plb = k.plb := rfl
@[simp] theorem Core.scrub_refills (k : Core) (b n : Nat) : (k.scrub b n).refills = k.refills := rfl
@[simp] theorem Core.scrub_bankSeq (k : Core) (b n : Nat) : (k.scrub b n).bankSeq = k.bankSeq := rfl
@[simp] theorem Core.scrub_msgSeq (k : Core) (b n : Nat) : (k.scrub b n).msgSeq = k.msgSeq := rfl
@[simp] theorem Core.scrub_tagNo (k : Core) (b n : Nat) : (k.scrub b n).tagNo = k.tagNo := rfl
@[simp] theorem Core.scrub_msgNo (k : Core) (b n : Nat) : (k.scrub b n).msgNo = k.msgNo := rfl
@[simp] theorem Core.scrub_next (k : Core) (b n : Nat) : (k.scrub b n).next = k.next := rfl
@[simp] theorem Core.scrub_msgTags (k : Core) (b n : Nat) : (k.scrub b n).msgTags = k.msgTags := rfl
@[simp] theorem Core.scrub_pmcs (k : Core) (b n : Nat) : (k.scrub b n).pmcs = k.pmcs := rfl
@[simp] theorem Core.scrub_mxLost (k : Core) (b n : Nat) : (k.scrub b n).mxLost = k.mxLost := rfl
@[simp] theorem Core.scrub_gone (k : Core) (b n : Nat) : (k.scrub b n).gone = k.gone := rfl
@[simp] theorem Core.scrub_recovs (k : Core) (b n : Nat) : (k.scrub b n).recovs = k.recovs := rfl
@[simp] theorem Core.scrub_mxFails (k : Core) (b n : Nat) : (k.scrub b n).mxFails = k.mxFails := rfl
@[simp] theorem Core.scrub_holds (k : Core) (b n : Nat) : (k.scrub b n).holds = k.holds := rfl
@[simp] theorem Core.scrub_tset (k : Core) (b n : Nat) : (k.scrub b n).tset = k.tset := rfl
@[simp] theorem Core.scrub_macs (k : Core) (b n : Nat) : (k.scrub b n).macs = k.macs := rfl

/-! ## Thread.writeX -/

@[simp] theorem Thread.writeX_busy (t : Thread) (r : Reg) (v : W64) : (t.writeX r v).busy = t.busy := by unfold Thread.writeX; split <;> rfl
@[simp] theorem Thread.writeX_slot (t : Thread) (r : Reg) (v : W64) : (t.writeX r v).slot = t.slot := by unfold Thread.writeX; split <;> rfl
@[simp] theorem Thread.writeX_fid (t : Thread) (r : Reg) (v : W64) : (t.writeX r v).fid = t.fid := by unfold Thread.writeX; split <;> rfl
@[simp] theorem Thread.writeX_handler (t : Thread) (r : Reg) (v : W64) : (t.writeX r v).handler = t.handler := by unfold Thread.writeX; split <;> rfl
@[simp] theorem Thread.writeX_v (t : Thread) (r : Reg) (v : W64) : (t.writeX r v).v = t.v := by unfold Thread.writeX; split <;> rfl
@[simp] theorem Thread.writeX_vp (t : Thread) (r : Reg) (v : W64) : (t.writeX r v).vp = t.vp := by unfold Thread.writeX; split <;> rfl
@[simp] theorem Thread.writeX_m (t : Thread) (r : Reg) (v : W64) : (t.writeX r v).m = t.m := by unfold Thread.writeX; split <;> rfl
@[simp] theorem Thread.writeX_st (t : Thread) (r : Reg) (v : W64) : (t.writeX r v).st = t.st := by unfold Thread.writeX; split <;> rfl
@[simp] theorem Thread.writeX_pc (t : Thread) (r : Reg) (v : W64) : (t.writeX r v).pc = t.pc := by unfold Thread.writeX; split <;> rfl
@[simp] theorem Thread.writeX_cause (t : Thread) (r : Reg) (v : W64) : (t.writeX r v).cause = t.cause := by unfold Thread.writeX; split <;> rfl
@[simp] theorem Thread.writeX_faultva (t : Thread) (r : Reg) (v : W64) : (t.writeX r v).faultva = t.faultva := by unfold Thread.writeX; split <;> rfl
@[simp] theorem Thread.writeX_faultpc (t : Thread) (r : Reg) (v : W64) : (t.writeX r v).faultpc = t.faultpc := by unfold Thread.writeX; split <;> rfl
@[simp] theorem Thread.writeX_faultins (t : Thread) (r : Reg) (v : W64) : (t.writeX r v).faultins = t.faultins := by unfold Thread.writeX; split <;> rfl
@[simp] theorem Thread.writeX_status (t : Thread) (r : Reg) (v : W64) : (t.writeX r v).status = t.status := by unfold Thread.writeX; split <;> rfl
@[simp] theorem Thread.writeX_fpctl (t : Thread) (r : Reg) (v : W64) : (t.writeX r v).fpctl = t.fpctl := by unfold Thread.writeX; split <;> rfl
@[simp] theorem Thread.writeX_qnt (t : Thread) (r : Reg) (v : W64) : (t.writeX r v).qnt = t.qnt := by unfold Thread.writeX; split <;> rfl
@[simp] theorem Thread.writeX_eperr (t : Thread) (r : Reg) (v : W64) : (t.writeX r v).eperr = t.eperr := by unfold Thread.writeX; split <;> rfl
@[simp] theorem Thread.writeX_vlen (t : Thread) (r : Reg) (v : W64) : (t.writeX r v).vlen = t.vlen := by unfold Thread.writeX; split <;> rfl
@[simp] theorem Thread.writeX_sendleft (t : Thread) (r : Reg) (v : W64) : (t.writeX r v).sendleft = t.sendleft := by unfold Thread.writeX; split <;> rfl
@[simp] theorem Thread.writeX_wdogleft (t : Thread) (r : Reg) (v : W64) : (t.writeX r v).wdogleft = t.wdogleft := by unfold Thread.writeX; split <;> rfl
@[simp] theorem Thread.writeX_deferred (t : Thread) (r : Reg) (v : W64) : (t.writeX r v).deferred = t.deferred := by unfold Thread.writeX; split <;> rfl
@[simp] theorem Thread.writeX_stalled (t : Thread) (r : Reg) (v : W64) : (t.writeX r v).stalled = t.stalled := by unfold Thread.writeX; split <;> rfl
@[simp] theorem Thread.writeX_waitX (t : Thread) (r : Reg) (v : W64) : (t.writeX r v).waitX = t.waitX := by unfold Thread.writeX; split <;> rfl
@[simp] theorem Thread.writeX_waitV (t : Thread) (r : Reg) (v : W64) : (t.writeX r v).waitV = t.waitV := by unfold Thread.writeX; split <;> rfl
@[simp] theorem Thread.writeX_stopping (t : Thread) (r : Reg) (v : W64) : (t.writeX r v).stopping = t.stopping := by unfold Thread.writeX; split <;> rfl
@[simp] theorem Thread.writeX_landing (t : Thread) (r : Reg) (v : W64) : (t.writeX r v).landing = t.landing := by unfold Thread.writeX; split <;> rfl

/-! ## Thread.writeV -/

@[simp] theorem Thread.writeV_busy (t : Thread) (r : Reg) (v : V256) : (t.writeV r v).busy = t.busy := rfl
@[simp] theorem Thread.writeV_slot (t : Thread) (r : Reg) (v : V256) : (t.writeV r v).slot = t.slot := rfl
@[simp] theorem Thread.writeV_fid (t : Thread) (r : Reg) (v : V256) : (t.writeV r v).fid = t.fid := rfl
@[simp] theorem Thread.writeV_handler (t : Thread) (r : Reg) (v : V256) : (t.writeV r v).handler = t.handler := rfl
@[simp] theorem Thread.writeV_x (t : Thread) (r : Reg) (v : V256) : (t.writeV r v).x = t.x := rfl
@[simp] theorem Thread.writeV_xp (t : Thread) (r : Reg) (v : V256) : (t.writeV r v).xp = t.xp := rfl
@[simp] theorem Thread.writeV_m (t : Thread) (r : Reg) (v : V256) : (t.writeV r v).m = t.m := rfl
@[simp] theorem Thread.writeV_st (t : Thread) (r : Reg) (v : V256) : (t.writeV r v).st = t.st := rfl
@[simp] theorem Thread.writeV_pc (t : Thread) (r : Reg) (v : V256) : (t.writeV r v).pc = t.pc := rfl
@[simp] theorem Thread.writeV_cause (t : Thread) (r : Reg) (v : V256) : (t.writeV r v).cause = t.cause := rfl
@[simp] theorem Thread.writeV_faultva (t : Thread) (r : Reg) (v : V256) : (t.writeV r v).faultva = t.faultva := rfl
@[simp] theorem Thread.writeV_faultpc (t : Thread) (r : Reg) (v : V256) : (t.writeV r v).faultpc = t.faultpc := rfl
@[simp] theorem Thread.writeV_faultins (t : Thread) (r : Reg) (v : V256) : (t.writeV r v).faultins = t.faultins := rfl
@[simp] theorem Thread.writeV_status (t : Thread) (r : Reg) (v : V256) : (t.writeV r v).status = t.status := rfl
@[simp] theorem Thread.writeV_fpctl (t : Thread) (r : Reg) (v : V256) : (t.writeV r v).fpctl = t.fpctl := rfl
@[simp] theorem Thread.writeV_qnt (t : Thread) (r : Reg) (v : V256) : (t.writeV r v).qnt = t.qnt := rfl
@[simp] theorem Thread.writeV_eperr (t : Thread) (r : Reg) (v : V256) : (t.writeV r v).eperr = t.eperr := rfl
@[simp] theorem Thread.writeV_vlen (t : Thread) (r : Reg) (v : V256) : (t.writeV r v).vlen = t.vlen := rfl
@[simp] theorem Thread.writeV_sendleft (t : Thread) (r : Reg) (v : V256) : (t.writeV r v).sendleft = t.sendleft := rfl
@[simp] theorem Thread.writeV_wdogleft (t : Thread) (r : Reg) (v : V256) : (t.writeV r v).wdogleft = t.wdogleft := rfl
@[simp] theorem Thread.writeV_deferred (t : Thread) (r : Reg) (v : V256) : (t.writeV r v).deferred = t.deferred := rfl
@[simp] theorem Thread.writeV_stalled (t : Thread) (r : Reg) (v : V256) : (t.writeV r v).stalled = t.stalled := rfl
@[simp] theorem Thread.writeV_waitX (t : Thread) (r : Reg) (v : V256) : (t.writeV r v).waitX = t.waitX := rfl
@[simp] theorem Thread.writeV_waitV (t : Thread) (r : Reg) (v : V256) : (t.writeV r v).waitV = t.waitV := rfl
@[simp] theorem Thread.writeV_stopping (t : Thread) (r : Reg) (v : V256) : (t.writeV r v).stopping = t.stopping := rfl
@[simp] theorem Thread.writeV_landing (t : Thread) (r : Reg) (v : V256) : (t.writeV r v).landing = t.landing := rfl

/-! ## Thread.clearX -/

@[simp] theorem Thread.clearX_busy (t : Thread) (r : Reg) : (t.clearX r).busy = t.busy := by unfold Thread.clearX; split <;> rfl
@[simp] theorem Thread.clearX_slot (t : Thread) (r : Reg) : (t.clearX r).slot = t.slot := by unfold Thread.clearX; split <;> rfl
@[simp] theorem Thread.clearX_fid (t : Thread) (r : Reg) : (t.clearX r).fid = t.fid := by unfold Thread.clearX; split <;> rfl
@[simp] theorem Thread.clearX_handler (t : Thread) (r : Reg) : (t.clearX r).handler = t.handler := by unfold Thread.clearX; split <;> rfl
@[simp] theorem Thread.clearX_x (t : Thread) (r : Reg) : (t.clearX r).x = t.x := by unfold Thread.clearX; split <;> rfl
@[simp] theorem Thread.clearX_v (t : Thread) (r : Reg) : (t.clearX r).v = t.v := by unfold Thread.clearX; split <;> rfl
@[simp] theorem Thread.clearX_vp (t : Thread) (r : Reg) : (t.clearX r).vp = t.vp := by unfold Thread.clearX; split <;> rfl
@[simp] theorem Thread.clearX_m (t : Thread) (r : Reg) : (t.clearX r).m = t.m := by unfold Thread.clearX; split <;> rfl
@[simp] theorem Thread.clearX_st (t : Thread) (r : Reg) : (t.clearX r).st = t.st := by unfold Thread.clearX; split <;> rfl
@[simp] theorem Thread.clearX_pc (t : Thread) (r : Reg) : (t.clearX r).pc = t.pc := by unfold Thread.clearX; split <;> rfl
@[simp] theorem Thread.clearX_cause (t : Thread) (r : Reg) : (t.clearX r).cause = t.cause := by unfold Thread.clearX; split <;> rfl
@[simp] theorem Thread.clearX_faultva (t : Thread) (r : Reg) : (t.clearX r).faultva = t.faultva := by unfold Thread.clearX; split <;> rfl
@[simp] theorem Thread.clearX_faultpc (t : Thread) (r : Reg) : (t.clearX r).faultpc = t.faultpc := by unfold Thread.clearX; split <;> rfl
@[simp] theorem Thread.clearX_faultins (t : Thread) (r : Reg) : (t.clearX r).faultins = t.faultins := by unfold Thread.clearX; split <;> rfl
@[simp] theorem Thread.clearX_status (t : Thread) (r : Reg) : (t.clearX r).status = t.status := by unfold Thread.clearX; split <;> rfl
@[simp] theorem Thread.clearX_fpctl (t : Thread) (r : Reg) : (t.clearX r).fpctl = t.fpctl := by unfold Thread.clearX; split <;> rfl
@[simp] theorem Thread.clearX_qnt (t : Thread) (r : Reg) : (t.clearX r).qnt = t.qnt := by unfold Thread.clearX; split <;> rfl
@[simp] theorem Thread.clearX_eperr (t : Thread) (r : Reg) : (t.clearX r).eperr = t.eperr := by unfold Thread.clearX; split <;> rfl
@[simp] theorem Thread.clearX_vlen (t : Thread) (r : Reg) : (t.clearX r).vlen = t.vlen := by unfold Thread.clearX; split <;> rfl
@[simp] theorem Thread.clearX_sendleft (t : Thread) (r : Reg) : (t.clearX r).sendleft = t.sendleft := by unfold Thread.clearX; split <;> rfl
@[simp] theorem Thread.clearX_wdogleft (t : Thread) (r : Reg) : (t.clearX r).wdogleft = t.wdogleft := by unfold Thread.clearX; split <;> rfl
@[simp] theorem Thread.clearX_deferred (t : Thread) (r : Reg) : (t.clearX r).deferred = t.deferred := by unfold Thread.clearX; split <;> rfl
@[simp] theorem Thread.clearX_stalled (t : Thread) (r : Reg) : (t.clearX r).stalled = t.stalled := by unfold Thread.clearX; split <;> rfl
@[simp] theorem Thread.clearX_waitX (t : Thread) (r : Reg) : (t.clearX r).waitX = t.waitX := by unfold Thread.clearX; split <;> rfl
@[simp] theorem Thread.clearX_waitV (t : Thread) (r : Reg) : (t.clearX r).waitV = t.waitV := by unfold Thread.clearX; split <;> rfl
@[simp] theorem Thread.clearX_stopping (t : Thread) (r : Reg) : (t.clearX r).stopping = t.stopping := by unfold Thread.clearX; split <;> rfl
@[simp] theorem Thread.clearX_landing (t : Thread) (r : Reg) : (t.clearX r).landing = t.landing := by unfold Thread.clearX; split <;> rfl

/-! ## Thread.clearV -/

@[simp] theorem Thread.clearV_busy (t : Thread) (r : Reg) : (t.clearV r).busy = t.busy := rfl
@[simp] theorem Thread.clearV_slot (t : Thread) (r : Reg) : (t.clearV r).slot = t.slot := rfl
@[simp] theorem Thread.clearV_fid (t : Thread) (r : Reg) : (t.clearV r).fid = t.fid := rfl
@[simp] theorem Thread.clearV_handler (t : Thread) (r : Reg) : (t.clearV r).handler = t.handler := rfl
@[simp] theorem Thread.clearV_x (t : Thread) (r : Reg) : (t.clearV r).x = t.x := rfl
@[simp] theorem Thread.clearV_v (t : Thread) (r : Reg) : (t.clearV r).v = t.v := rfl
@[simp] theorem Thread.clearV_xp (t : Thread) (r : Reg) : (t.clearV r).xp = t.xp := rfl
@[simp] theorem Thread.clearV_m (t : Thread) (r : Reg) : (t.clearV r).m = t.m := rfl
@[simp] theorem Thread.clearV_st (t : Thread) (r : Reg) : (t.clearV r).st = t.st := rfl
@[simp] theorem Thread.clearV_pc (t : Thread) (r : Reg) : (t.clearV r).pc = t.pc := rfl
@[simp] theorem Thread.clearV_cause (t : Thread) (r : Reg) : (t.clearV r).cause = t.cause := rfl
@[simp] theorem Thread.clearV_faultva (t : Thread) (r : Reg) : (t.clearV r).faultva = t.faultva := rfl
@[simp] theorem Thread.clearV_faultpc (t : Thread) (r : Reg) : (t.clearV r).faultpc = t.faultpc := rfl
@[simp] theorem Thread.clearV_faultins (t : Thread) (r : Reg) : (t.clearV r).faultins = t.faultins := rfl
@[simp] theorem Thread.clearV_status (t : Thread) (r : Reg) : (t.clearV r).status = t.status := rfl
@[simp] theorem Thread.clearV_fpctl (t : Thread) (r : Reg) : (t.clearV r).fpctl = t.fpctl := rfl
@[simp] theorem Thread.clearV_qnt (t : Thread) (r : Reg) : (t.clearV r).qnt = t.qnt := rfl
@[simp] theorem Thread.clearV_eperr (t : Thread) (r : Reg) : (t.clearV r).eperr = t.eperr := rfl
@[simp] theorem Thread.clearV_vlen (t : Thread) (r : Reg) : (t.clearV r).vlen = t.vlen := rfl
@[simp] theorem Thread.clearV_sendleft (t : Thread) (r : Reg) : (t.clearV r).sendleft = t.sendleft := rfl
@[simp] theorem Thread.clearV_wdogleft (t : Thread) (r : Reg) : (t.clearV r).wdogleft = t.wdogleft := rfl
@[simp] theorem Thread.clearV_deferred (t : Thread) (r : Reg) : (t.clearV r).deferred = t.deferred := rfl
@[simp] theorem Thread.clearV_stalled (t : Thread) (r : Reg) : (t.clearV r).stalled = t.stalled := rfl
@[simp] theorem Thread.clearV_waitX (t : Thread) (r : Reg) : (t.clearV r).waitX = t.waitX := rfl
@[simp] theorem Thread.clearV_waitV (t : Thread) (r : Reg) : (t.clearV r).waitV = t.waitV := rfl
@[simp] theorem Thread.clearV_stopping (t : Thread) (r : Reg) : (t.clearV r).stopping = t.stopping := rfl
@[simp] theorem Thread.clearV_landing (t : Thread) (r : Reg) : (t.clearV r).landing = t.landing := rfl

/-! ## Thread.writeM -/

@[simp] theorem Thread.writeM_busy (t : Thread) (r : BitVec 3) (v : W64) : (t.writeM r v).busy = t.busy := rfl
@[simp] theorem Thread.writeM_slot (t : Thread) (r : BitVec 3) (v : W64) : (t.writeM r v).slot = t.slot := rfl
@[simp] theorem Thread.writeM_fid (t : Thread) (r : BitVec 3) (v : W64) : (t.writeM r v).fid = t.fid := rfl
@[simp] theorem Thread.writeM_handler (t : Thread) (r : BitVec 3) (v : W64) : (t.writeM r v).handler = t.handler := rfl
@[simp] theorem Thread.writeM_x (t : Thread) (r : BitVec 3) (v : W64) : (t.writeM r v).x = t.x := rfl
@[simp] theorem Thread.writeM_v (t : Thread) (r : BitVec 3) (v : W64) : (t.writeM r v).v = t.v := rfl
@[simp] theorem Thread.writeM_xp (t : Thread) (r : BitVec 3) (v : W64) : (t.writeM r v).xp = t.xp := rfl
@[simp] theorem Thread.writeM_vp (t : Thread) (r : BitVec 3) (v : W64) : (t.writeM r v).vp = t.vp := rfl
@[simp] theorem Thread.writeM_st (t : Thread) (r : BitVec 3) (v : W64) : (t.writeM r v).st = t.st := rfl
@[simp] theorem Thread.writeM_pc (t : Thread) (r : BitVec 3) (v : W64) : (t.writeM r v).pc = t.pc := rfl
@[simp] theorem Thread.writeM_cause (t : Thread) (r : BitVec 3) (v : W64) : (t.writeM r v).cause = t.cause := rfl
@[simp] theorem Thread.writeM_faultva (t : Thread) (r : BitVec 3) (v : W64) : (t.writeM r v).faultva = t.faultva := rfl
@[simp] theorem Thread.writeM_faultpc (t : Thread) (r : BitVec 3) (v : W64) : (t.writeM r v).faultpc = t.faultpc := rfl
@[simp] theorem Thread.writeM_faultins (t : Thread) (r : BitVec 3) (v : W64) : (t.writeM r v).faultins = t.faultins := rfl
@[simp] theorem Thread.writeM_status (t : Thread) (r : BitVec 3) (v : W64) : (t.writeM r v).status = t.status := rfl
@[simp] theorem Thread.writeM_fpctl (t : Thread) (r : BitVec 3) (v : W64) : (t.writeM r v).fpctl = t.fpctl := rfl
@[simp] theorem Thread.writeM_qnt (t : Thread) (r : BitVec 3) (v : W64) : (t.writeM r v).qnt = t.qnt := rfl
@[simp] theorem Thread.writeM_eperr (t : Thread) (r : BitVec 3) (v : W64) : (t.writeM r v).eperr = t.eperr := rfl
@[simp] theorem Thread.writeM_vlen (t : Thread) (r : BitVec 3) (v : W64) : (t.writeM r v).vlen = t.vlen := rfl
@[simp] theorem Thread.writeM_sendleft (t : Thread) (r : BitVec 3) (v : W64) : (t.writeM r v).sendleft = t.sendleft := rfl
@[simp] theorem Thread.writeM_wdogleft (t : Thread) (r : BitVec 3) (v : W64) : (t.writeM r v).wdogleft = t.wdogleft := rfl
@[simp] theorem Thread.writeM_deferred (t : Thread) (r : BitVec 3) (v : W64) : (t.writeM r v).deferred = t.deferred := rfl
@[simp] theorem Thread.writeM_stalled (t : Thread) (r : BitVec 3) (v : W64) : (t.writeM r v).stalled = t.stalled := rfl
@[simp] theorem Thread.writeM_waitX (t : Thread) (r : BitVec 3) (v : W64) : (t.writeM r v).waitX = t.waitX := rfl
@[simp] theorem Thread.writeM_waitV (t : Thread) (r : BitVec 3) (v : W64) : (t.writeM r v).waitV = t.waitV := rfl
@[simp] theorem Thread.writeM_stopping (t : Thread) (r : BitVec 3) (v : W64) : (t.writeM r v).stopping = t.stopping := rfl
@[simp] theorem Thread.writeM_landing (t : Thread) (r : BitVec 3) (v : W64) : (t.writeM r v).landing = t.landing := rfl

/-! ## Thread.nextPc -/

@[simp] theorem Thread.nextPc_busy (t : Thread) : (t.nextPc).busy = t.busy := rfl
@[simp] theorem Thread.nextPc_slot (t : Thread) : (t.nextPc).slot = t.slot := rfl
@[simp] theorem Thread.nextPc_fid (t : Thread) : (t.nextPc).fid = t.fid := rfl
@[simp] theorem Thread.nextPc_handler (t : Thread) : (t.nextPc).handler = t.handler := rfl
@[simp] theorem Thread.nextPc_x (t : Thread) : (t.nextPc).x = t.x := rfl
@[simp] theorem Thread.nextPc_v (t : Thread) : (t.nextPc).v = t.v := rfl
@[simp] theorem Thread.nextPc_xp (t : Thread) : (t.nextPc).xp = t.xp := rfl
@[simp] theorem Thread.nextPc_vp (t : Thread) : (t.nextPc).vp = t.vp := rfl
@[simp] theorem Thread.nextPc_m (t : Thread) : (t.nextPc).m = t.m := rfl
@[simp] theorem Thread.nextPc_st (t : Thread) : (t.nextPc).st = t.st := rfl
@[simp] theorem Thread.nextPc_cause (t : Thread) : (t.nextPc).cause = t.cause := rfl
@[simp] theorem Thread.nextPc_faultva (t : Thread) : (t.nextPc).faultva = t.faultva := rfl
@[simp] theorem Thread.nextPc_faultpc (t : Thread) : (t.nextPc).faultpc = t.faultpc := rfl
@[simp] theorem Thread.nextPc_faultins (t : Thread) : (t.nextPc).faultins = t.faultins := rfl
@[simp] theorem Thread.nextPc_status (t : Thread) : (t.nextPc).status = t.status := rfl
@[simp] theorem Thread.nextPc_fpctl (t : Thread) : (t.nextPc).fpctl = t.fpctl := rfl
@[simp] theorem Thread.nextPc_qnt (t : Thread) : (t.nextPc).qnt = t.qnt := rfl
@[simp] theorem Thread.nextPc_eperr (t : Thread) : (t.nextPc).eperr = t.eperr := rfl
@[simp] theorem Thread.nextPc_vlen (t : Thread) : (t.nextPc).vlen = t.vlen := rfl
@[simp] theorem Thread.nextPc_sendleft (t : Thread) : (t.nextPc).sendleft = t.sendleft := rfl
@[simp] theorem Thread.nextPc_wdogleft (t : Thread) : (t.nextPc).wdogleft = t.wdogleft := rfl
@[simp] theorem Thread.nextPc_deferred (t : Thread) : (t.nextPc).deferred = t.deferred := rfl
@[simp] theorem Thread.nextPc_stalled (t : Thread) : (t.nextPc).stalled = t.stalled := rfl
@[simp] theorem Thread.nextPc_waitX (t : Thread) : (t.nextPc).waitX = t.waitX := rfl
@[simp] theorem Thread.nextPc_waitV (t : Thread) : (t.nextPc).waitV = t.waitV := rfl
@[simp] theorem Thread.nextPc_stopping (t : Thread) : (t.nextPc).stopping = t.stopping := rfl
@[simp] theorem Thread.nextPc_landing (t : Thread) : (t.nextPc).landing = t.landing := rfl

end Sys2Proof.Machine
end

