-- ==== Sys2Proof/Laws/Notices.lean ====
section
/-! SUPPORT. A package after an update, and after notices: a notice puts packets under way and leaves every package as it was. -/

namespace Sys2Proof.Machine

@[simp] theorem State.pkg_onPkg (s : State) (k : Nat) (f : Package → Package) : (s.onPkg k f).pkg k = f (s.pkg k) := by
  simp [State.onPkg, State.pkg]

theorem State.pkg_onPkg_ne (s : State) {k j : Nat} (f : Package → Package) (h : j ≠ k) : (s.onPkg k f).pkg j = s.pkg j :=
  SMap.get_put_ne _ _ _ h

@[simp] theorem State.find_onPkg (s : State) (k : Nat) (f : Package → Package) : (s.onPkg k f).pkgs.find k = some (f (s.pkg k)) := by
  simp [State.onPkg, State.pkg]

@[simp] theorem State.signal_pkgs (s : State) (p : Nat) (g : Signal) : (s.signal p g).pkgs = s.pkgs := rfl

theorem State.tellAll_pkgs (s : State) (p d : Nat) (rs : List Registration) (r u : Nat) (w : W64) : (s.tellAll p d rs r u w).pkgs = s.pkgs := by
  unfold State.tellAll
  induction rs generalizing s with
  | nil => rfl
  | cons a l ih => rw [List.foldl_cons, ih]; rfl

@[simp] theorem State.measureNotice_pkgs (s : State) (p a b c d : Nat) : (s.measureNotice p a b c d).pkgs = s.pkgs := by
  unfold State.measureNotice; exact State.tellAll_pkgs ..

@[simp] theorem State.topologyNotice_pkgs (s : State) (p d u x : Nat) : (s.topologyNotice p d u x).pkgs = s.pkgs := by
  unfold State.topologyNotice; exact State.tellAll_pkgs ..

@[simp] theorem State.grantNotice_pkgs (s : State) (p d : Nat) (dom : BitVec 16) : (s.grantNotice p d dom).pkgs = s.pkgs := by
  unfold State.grantNotice; exact State.tellAll_pkgs ..

/-- A port that changes mode is the one port that changes. -/
theorem State.portMode_pkg (s : State) (p i : Nat) (q : Port) : (s.portMode p i q).pkg p = (s.pkg p).setPort i q := by
  simp [State.portMode, State.pkg, State.onPkg]

end Sys2Proof.Machine
end

