-- ==== Sys2Proof/Laws/Operands.lean ====
section
/-! SUPPORT. What each operand form does: with its registers present it ends in one update of the issuing thread set, without them it
stalls; and the lane forms of a vector result. -/

namespace Sys2Proof.Machine

/-- A statement about every member of a list is one about its head and one about its tail. -/
theorem forall_mem_of_cons {α : Type} {P : α → Prop} {a : α} {l : List α} (h1 : P a) (h2 : ∀ p ∈ l, P p) : ∀ p ∈ a :: l, P p := by
  simpa using ⟨h1, h2⟩

theorem withX_here {s : State} {rs : List Reg} {k : Thread → Answer} (h : s.th.hereXs rs = true) : s.withX rs k = k s.th := by
  simp [State.withX, h]

theorem withX_away {s : State} {rs : List Reg} {k : Thread → Answer} (h : s.th.hereXs rs = false) : s.withX rs k = s.stallReg rs [] := by
  simp [State.withX, h]

theorem withV_here {s : State} {vs xs : List Reg} {q : BitVec 3} {k : Thread → Answer}
    (hv : s.th.hereVs (vs ++ (maskReg q).toList) = true) (hx : s.th.hereXs xs = true) : s.withV vs xs q k = k s.th := by
  simp [State.withV, hv, hx]

theorem finish_eq (s : State) (f : Thread → Thread) : s.finish f = .next (s.onTh fun t => (f t).nextPc) := rfl

theorem alu1_eq {d a : Reg} {s : State} (f) (h : s.th.hereXs [a, d] = true) :
    alu1 d a f s = .next (s.onTh fun t => (t.writeX d (f (s.th.readX a))).nextPc) := by
  simp [alu1, State.withX, h, State.finish]

theorem alu2_eq {d a b : Reg} {s : State} (f) (h : s.th.hereXs [a, b, d] = true) :
    alu2 d a b f s = .next (s.onTh fun t => (t.writeX d (f (s.th.readX a) (s.th.readX b))).nextPc) := by
  simp [alu2, State.withX, h, State.finish]

theorem alu3_eq {d a b : Reg} {s : State} (f) (h : s.th.hereXs [a, b, d] = true) :
    alu3 d a b f s = .next (s.onTh fun t => (t.writeX d (f (s.th.readX a) (s.th.readX b) (s.th.readX d))).nextPc) := by
  simp [alu3, State.withX, h, State.finish]

theorem fpOp_eq {d : Reg} {rs : List Reg} {s : State} (f) (h : s.th.hereXs (d :: rs) = true) :
    fpOp d rs s f = .next (s.onTh fun t => ((t.writeX d (BitVec.ofNat 64 (f s.th).1)).addFlags (f s.th).2).nextPc) := by
  simp [fpOp, State.withX, h, State.finish]

theorem vec2_eq {d a b : Reg} {q : BitVec 3} {tp mp : BitVec 1} {w : Nat} {s : State} (f)
    (h : s.th.hereVs ([a, b, d] ++ (maskReg q).toList) = true) :
    vec2 d a b q tp mp w f s = .next (s.onTh fun t => (t.writeV d (s.th.lanes q tp mp w (s.th.readV d) fun i =>
      f (lane w (s.th.readV a) i) (lane w (s.th.readV b) i))).nextPc) := by
  simp only [vec2, State.withV, h]
  rfl

theorem jump_in {s : State} {t : W64} {f : Thread → Thread} (h : s.inCode t = true) :
    s.jump t f = .next (s.onTh fun u => { f u with pc := t }) := by
  simp [State.jump, h]

theorem jump_out {s : State} {t : W64} {f : Thread → Thread} (h : s.inCode t = false) : s.jump t f = s.badTarget t := by
  simp [State.jump, h]

theorem access_eq {s : State} {k : Answer} (h : s.me.acquiring s.th.fid = false) : s.access k = k := by
  simp [State.access, h]

/-- Sign extension from the low bits of a doubleword. -/
theorem sext64_toNat (n : Nat) (v : W64) : sext64 n v.toNat = (v.setWidth n).signExtend 64 := by
  rw [sext64, show BitVec.ofNat n v.toNat = v.setWidth n by apply BitVec.eq_of_toNat_eq; simp]

end Sys2Proof.Machine
end

