-- ==== Sys2Proof/Machine/Layout.lean ====
section
/-! DEFINITION. The tables that the directory keeps in frame 15 of the clusters and in near DRAM: where an entry lies and how it is laid out
(R130, R131, R154, R155, R162). -/

namespace Sys2Proof.Machine

/-- A place of a directory table: package, die and cluster. -/
structure TablePlace where
  pkg : Nat
  die : Nat
  cluster : Nat
  deriving DecidableEq, Repr

/-- The commons frame that the directory's tables lie in (R91). -/
def tableFrame : Nat := 15

/-- Hint records that frame 15 of a cluster holds (R131). -/
def hintsPerCluster : Nat := 1024

/-- Directory entries that frame 15 of a cluster holds (R154). -/
def namesPerCluster : Nat := 512

/-- The place of a range's hint record (R131). -/
def State.rangePlace (s : State) (range : Nat) : TablePlace :=
  { pkg := s.dirPackage (s.rangeSlot range), die := range % 4, cluster := range / 4 % 64 }

/-- The place of a name's directory entry (R155). -/
def State.namePlace (s : State) (name : W64) : TablePlace :=
  { pkg := s.dirPackage (s.nameSlot name), die := indexOf name % 4, cluster := indexOf name / 4 % 64 }

/-- The hint records that lie at a place; the first 1,024 in frame 15, the further ones in the near DRAM of the die under key slot 0 (log 105). -/
def State.hintsAt (s : State) (p : TablePlace) : List Nat := (s.hints.filter fun h => s.rangePlace (h.1 % 2 ^ 33) == p).map (·.1)

/-- The directory entries that lie at a place, the first 512 in frame 15. -/
def State.namesAt (s : State) (p : TablePlace) : List W64 := (s.dir.filter fun e => s.namePlace e.2.name == p).map (·.2.name)

/-- Whether a hint record has spilled to near DRAM (R131). -/
def State.hintSpilled (s : State) (key : Nat) : Bool :=
  ((s.hintsAt (s.rangePlace (key % 2 ^ 33))).drop hintsPerCluster).contains key

/-- Whether a directory entry has spilled to near DRAM (R154). -/
def State.nameSpilled (s : State) (name : W64) : Bool := ((s.namesAt (s.namePlace name)).drop namesPerCluster).contains name

/-- The four doublewords of a hint record (R130). -/
def Hint.words (h : Hint) : List W64 :=
  let bit := fun (b : Bool) (n : Nat) => if b then 2 ^ n else 0
  [BitVec.ofNat 64 (h.homepkg * 2 ^ 52 + h.homedie * 2 ^ 50 + h.tier * 2 ^ 48 + h.homeidx * 2 ^ 42 + bit h.mu 41 + bit h.split 40 +
      h.policy * 2 ^ 37 + h.nkeep * 2 ^ 34 + h.spmap.toNat),
    BitVec.ofNat 64 (h.gen.toNat * 2 ^ 48 + h.keep[0] * 2 ^ 36 + h.keep[1] * 2 ^ 24 + h.keep[2] * 2 ^ 12 + h.keep[3]),
    BitVec.ofNat 64 (h.domain.toNat * 2 ^ 48 + h.orights.toNat * 2 ^ 45 + h.grights.toNat * 2 ^ 42), 0]

/-- RREC of a directory entry (R154): the class 0 address of its restart record, of 128 bytes (log 38). -/
def DirEntry.recordGa (e : DirEntry) : Nat := if isGateway e.name then 0 else e.rrec * 128

/-- The four doublewords of a directory entry (R154). -/
def DirEntry.words (e : DirEntry) : List W64 :=
  [e.name,
    BitVec.ofNat 64 (e.inc.toNat * 2 ^ 56 + e.state * 2 ^ 54 + e.pkg * 2 ^ 42 + e.die * 2 ^ 40 + e.kind * 2 ^ 39 + e.cidx * 2 ^ 29 +
      e.slot * 2 ^ 23),
    e.supv, BitVec.ofNat 64 e.recordGa]

/-- The 128 bytes of a restart record (R162). -/
def RestartRec.bytes (r : RestartRec) : List Byte :=
  toBytes 8 r.image.toNat ++ (toBytes 48 r.digest.toNat).reverse ++ r.msg.toList.flatMap (fun w => toBytes 8 w.toNat) ++ toBytes 8 r.sender.toNat

/-- The restart record of a name, as it lies in the near DRAM of the actor's die (R162): its die and bytes. -/
def State.recordOf (s : State) (name : W64) : Option (Nat × Nat × List Byte) :=
  (s.dirEntry name).bind fun e => (s.rrecs.find e.rrec).map fun r => (e.pkg, e.die, r.bytes)

end Sys2Proof.Machine
end

