-- ==== Sys2Proof/Tests/Slice0.lean ====
section
/-! SUPPORT. Tests: words written out, ill-formed terms, single steps with results from the spec's own examples, and for each statement a state
and operands that meet its hypotheses. -/

namespace Sys2Proof.Tests

set_option Elab.async false

open Sys2Proof.Machine Sys2Proof.Claims

/-! ## Words (R227 to R235): those of the opcode table, with every operand field set -/

/-- Each word decodes to its instruction, and the instruction's word is that word. -/
abbrev Agrees (l : List (W32 × Instr)) : Prop := ∀ p ∈ l, decode p.1 = .ok p.2 ∧ encode p.2 = some p.1

/-- Words of the opcode table, written out with every field set. -/
theorem test_decode_alu_1 : Agrees
    [(0x04624800#32, .add 3 2 9), (0x04624801#32, .sub 3 2 9), (0x04624802#32, .and 3 2 9), (0x04624803#32, .or 3 2 9),
      (0x04624804#32, .xor 3 2 9), (0x04624805#32, .andn 3 2 9), (0x04624806#32, .orn 3 2 9), (0x04624807#32, .xnor 3 2 9),
      (0x04624808#32, .sll 3 2 9), (0x04624809#32, .srl 3 2 9), (0x0462480A#32, .sra 3 2 9), (0x0462480B#32, .rol 3 2 9),
      (0x0462480C#32, .ror 3 2 9), (0x0462480D#32, .slt 3 2 9), (0x0462480E#32, .sltu 3 2 9), (0x0462480F#32, .seq 3 2 9),
      (0x04624810#32, .min 3 2 9), (0x04624811#32, .max 3 2 9), (0x04624812#32, .minu 3 2 9), (0x04624813#32, .maxu 3 2 9)] := by decide

/-- Words of the opcode table, written out with every field set. -/
theorem test_decode_alu_2 : Agrees
    [(0x04624814#32, .mul 3 2 9), (0x04624815#32, .mulh 3 2 9), (0x04624816#32, .mulhu 3 2 9), (0x04624817#32, .mulhsu 3 2 9),
      (0x04624818#32, .div 3 2 9), (0x04624819#32, .divu 3 2 9), (0x0462481A#32, .rem 3 2 9), (0x0462481B#32, .remu 3 2 9),
      (0x0462481C#32, .cmovz 3 2 9), (0x0462481D#32, .cmovn 3 2 9), (0x0462481E#32, .addw 3 2 9), (0x0462481F#32, .subw 3 2 9),
      (0x04620020#32, .clz 3 2), (0x04620021#32, .ctz 3 2), (0x04620022#32, .popc 3 2), (0x04620023#32, .brev 3 2),
      (0x04620024#32, .bswap 3 2), (0x04620025#32, .sextb 3 2), (0x04620026#32, .sexth 3 2), (0x04620027#32, .sextw 3 2)] := by decide

/-- Words of the opcode table, written out with every field set. -/
theorem test_decode_immediate : Agrees
    [(0x20629ABC#32, .addi 3 2 0x9abc), (0x24629ABC#32, .andi 3 2 0x9abc), (0x28629ABC#32, .ori 3 2 0x9abc),
      (0x2C629ABC#32, .xori 3 2 0x9abc), (0x30629ABC#32, .slti 3 2 0x9abc), (0x34629ABC#32, .sltiu 3 2 0x9abc),
      (0x3862050A#32, .extu 3 2 5 0xa), (0x3862450A#32, .exts 3 2 5 0xa), (0x3862850A#32, .ins 3 2 5 0xa), (0x3C620021#32, .slli 3 2 0x21),
      (0x3C620121#32, .srli 3 2 0x21), (0x3C620221#32, .srai 3 2 0x21), (0x3C620321#32, .rori 3 2 0x21), (0x40609ABC#32, .lui 3 0x9abc),
      (0x44629ABC#32, .sloi 3 2 0x9abc), (0x1062021C#32, .cvt 3 2 2 1 0xc)] := by decide

/-- Words of the opcode table, written out with every field set. -/
theorem test_decode_fp : Agrees
    [(0x0C624A80#32, .fadd 3 2 9 1 2), (0x0C624A81#32, .fsub 3 2 9 1 2), (0x0C624A82#32, .fmul 3 2 9 1 2),
      (0x0C624A83#32, .fdiv 3 2 9 1 2), (0x0C620284#32, .fsqrt 3 2 1 2), (0x0C624A85#32, .fmin 3 2 9 1 2),
      (0x0C624A86#32, .fmax 3 2 9 1 2), (0x0C624A87#32, .fma 3 2 9 1 2), (0x0C624A88#32, .fms 3 2 9 1 2), (0x0C624A89#32, .fnma 3 2 9 1 2),
      (0x0C624A10#32, .feq 3 2 9 1), (0x0C624A11#32, .flt 3 2 9 1), (0x0C624A12#32, .fle 3 2 9 1), (0x0C620213#32, .fclass 3 2 1),
      (0x0C624A14#32, .fsgnj 3 2 9 1), (0x0C624A15#32, .fsgnjn 3 2 9 1), (0x0C624A16#32, .fsgnjx 3 2 9 1)] := by decide

/-- Words of the opcode table, written out with every field set. -/
theorem test_decode_branch : Agrees
    [(0x62BE9ABC#32, .beq 0x15 0x1e 0x9abc), (0x66BE9ABC#32, .bne 0x15 0x1e 0x9abc), (0x6ABE9ABC#32, .blt 0x15 0x1e 0x9abc),
      (0x6EBE9ABC#32, .bge 0x15 0x1e 0x9abc), (0x72BE9ABC#32, .bltu 0x15 0x1e 0x9abc), (0x76BE9ABC#32, .bgeu 0x15 0x1e 0x9abc),
      (0x78609ABC#32, .jal 3 0x9abc), (0x7C629ABC#32, .jalr 3 2 0x9abc)] := by decide

/-- Words of the opcode table, written out with every field set. -/
theorem test_decode_load_store : Agrees
    [(0x80629ABC#32, .lb 3 2 0x9abc), (0x84629ABC#32, .lbu 3 2 0x9abc), (0x88629ABC#32, .lh 3 2 0x9abc), (0x8C629ABC#32, .lhu 3 2 0x9abc),
      (0x90629ABC#32, .lw 3 2 0x9abc), (0x94629ABC#32, .lwu 3 2 0x9abc), (0x98629ABC#32, .ld 3 2 0x9abc),
      (0xA2629ABC#32, .sb 0x13 2 0x9abc), (0xA6629ABC#32, .sh 0x13 2 0x9abc), (0xAA629ABC#32, .sw 0x13 2 0x9abc),
      (0xAE629ABC#32, .sd 0x13 2 0x9abc), (0xB262800B#32, .sn 0x13 2 0x4005 1)] := by decide

/-- Words of the opcode table, written out with every field set. -/
theorem test_decode_commons_1 : Agrees
    [(0xC0620000#32, .cld 3 2), (0xC0624801#32, .cldGe 3 2 9), (0xC0624802#32, .cldEq 3 2 9), (0xC0624803#32, .cldAcq 3 2 9),
      (0xC0620004#32, .cver 3 2), (0xC2620008#32, .cstB 0x13 2), (0xC2620009#32, .cstH 0x13 2), (0xC262000A#32, .cstW 0x13 2),
      (0xC262000B#32, .cstD 0x13 2), (0xC262000C#32, .cstNl 0x13 2), (0xC262000D#32, .cstNh 0x13 2), (0xC262000F#32, .cstRel 0x13 2),
      (0xC0624810#32, .caadd 3 2 9), (0xC0624811#32, .camin 3 2 9), (0xC0624812#32, .camax 3 2 9), (0xC0624813#32, .caminu 3 2 9),
      (0xC0624814#32, .camaxu 3 2 9), (0xC0624815#32, .caand 3 2 9), (0xC0624816#32, .caor 3 2 9), (0xC0624817#32, .caxor 3 2 9)] := by decide

/-- Words of the opcode table, written out with every field set. -/
theorem test_decode_commons_2 : Agrees
    [(0xC0624818#32, .caswap 3 2 9), (0xC0624819#32, .cacas 3 2 9), (0xC062481A#32, .cafadd 3 2 9), (0xC0624821#32, .cdefer 3 2 9 1),
      (0xC0024824#32, .crecl 2 9), (0xC0624825#32, .creclR 3 2 9), (0xC0620029#32, .carm 3 2 1), (0xC062002C#32, .cdisarm 3 2)] := by decide

/-- Words of the opcode table, written out with every field set. -/
theorem test_decode_dram : Agrees
    [(0xC4620000#32, .dldB 3 2), (0xC4620001#32, .dldH 3 2), (0xC4620002#32, .dldW 3 2), (0xC4620003#32, .dldD 3 2),
      (0xC6620008#32, .dstB 0x13 2), (0xC6620009#32, .dstH 0x13 2), (0xC662000A#32, .dstW 0x13 2), (0xC662000B#32, .dstD 0x13 2)] := by decide

/-- Words of the opcode table, written out with every field set. -/
theorem test_decode_others : Agrees
    [(0xC8000012#32, .fence 1 2), (0xC8001000#32, .efence), (0xDC16C287#32, .waitc 5 0x2c 0xa 7), (0xB8624800#32, .mcmd 3 2 9),
      (0xBC020000#32, .copy 2), (0xBC620001#32, .copyNb 3 2), (0xBC600002#32, .cqpop 3), (0xD8009ABC#32, .breakTrap 0x9abc)] := by decide

/-- Words of the opcode table, written out with every field set. -/
theorem test_decode_stream : Agrees
    [(0xCC620000#32, .sbindR 3 2), (0xCC620001#32, .sbindW 3 2), (0xCC600002#32, .sunbind 3), (0xCC620004#32, .srd 3 2),
      (0xCC620005#32, .swr 3 2), (0xCC600006#32, .sclose 3)] := by decide

/-- Words of the opcode table, written out with every field set. -/
theorem test_decode_actor_1 : Agrees
    [(0xD0604801#32, .recv 3 9 1), (0xD0024805#32, .send 2 9 1), (0xD0624809#32, .sendNb 3 2 9 1), (0xD062480D#32, .sendi 3 2 9 1),
      (0xD0624811#32, .give 3 2 9 1), (0xD0620014#32, .ralloc 3 2), (0xD0020015#32, .rfree 2), (0xD0620016#32, .spawn 3 2),
      (0xD0020018#32, .link 2), (0xD0020019#32, .unlink 2), (0xD062001A#32, .monitor 3 2), (0xD002001B#32, .demon 2),
      (0xD062001C#32, .trapex 3 2), (0xD002001D#32, .kill 2), (0xD002481E#32, .exit 2 9), (0xD0000020#32, .retire),
      (0xD0020021#32, .rets 2), (0xD0000022#32, .yield), (0xD0020024#32, .tmset 2), (0xD0600025#32, .tmcan 3)] := by decide

/-- Words of the opcode table, written out with every field set. -/
theorem test_decode_actor_2 : Agrees
    [(0xD0621028#32, .wix 3 2 2), (0xD0625028#32, .wixG 3 2 2), (0xD062002C#32, .mtm 3 2), (0xD062002D#32, .mfm 3 2),
      (0xD002002E#32, .vtml 2), (0xD060082E#32, .vtmlIn 3), (0xD002002F#32, .vtmh 2), (0xD060082F#32, .vtmhIn 3),
      (0xD0620030#32, .mfs 3 2), (0xD0620038#32, .supset 3 2), (0xD0620039#32, .supdel 3 2), (0xD0024840#32, .pkill 2 9),
      (0xD0024845#32, .psend 2 9 1)] := by decide

/-- Words of the opcode table, written out with every field set. -/
theorem test_decode_creg : Agrees
    [(0xD4600081#32, .mfcr 3 0x81), (0xD4020106#32, .mtcr 2 6), (0xD4020104#32, .statusWrite 2), (0xD4020105#32, .fpctlWrite 2),
      (0xD4020107#32, .eperrWrite 2), (0xD4020108#32, .vlenWrite 2), (0xD4020113#32, .hmaskWrite 2), (0xD4020116#32, .timerWrite 2)] := by decide

/-- Words of the opcode table, written out with every field set. -/
theorem test_decode_vint : Agrees
    [(0xE0624AD0#32, .vadd 3 2 9 2 1 1 1), (0xE0624AD1#32, .vsub 3 2 9 2 1 1 1), (0xE0624AD2#32, .vmul 3 2 9 2 1 1 1),
      (0xE0624AD3#32, .vmulh 3 2 9 2 1 1 1), (0xE0624AD4#32, .vmin 3 2 9 2 1 1 1), (0xE0624AD5#32, .vmax 3 2 9 2 1 1 1),
      (0xE0624AD6#32, .vminu 3 2 9 2 1 1 1), (0xE0624AD7#32, .vmaxu 3 2 9 2 1 1 1), (0xE0624AD8#32, .vand 3 2 9 2 1 1 1),
      (0xE0624AD9#32, .vor 3 2 9 2 1 1 1), (0xE0624ADA#32, .vxor 3 2 9 2 1 1 1), (0xE0624ADB#32, .vsll 3 2 9 2 1 1 1),
      (0xE0624ADC#32, .vsrl 3 2 9 2 1 1 1), (0xE0624ADD#32, .vsra 3 2 9 2 1 1 1), (0xE0624ADE#32, .vadds 3 2 9 2 1 1 1),
      (0xE0624ADF#32, .vsubs 3 2 9 2 1 1 1)] := by decide

/-- Words of the opcode table, written out with every field set. -/
theorem test_decode_vfp : Agrees
    [(0xE4624AD0#32, .vfadd 3 2 9 2 1 1 1), (0xE4624AD1#32, .vfsub 3 2 9 2 1 1 1), (0xE4624AD2#32, .vfmul 3 2 9 2 1 1 1),
      (0xE4624AD3#32, .vfdiv 3 2 9 2 1 1 1), (0xE46202D4#32, .vfsqrt 3 2 2 1 1 1), (0xE4624AD5#32, .vfmin 3 2 9 2 1 1 1),
      (0xE4624AD6#32, .vfmax 3 2 9 2 1 1 1), (0xE4624AD7#32, .vfma 3 2 9 2 1 1 1), (0xE4624AD8#32, .vfeq 3 2 9 2 1 1 1),
      (0xE4624AD9#32, .vflt 3 2 9 2 1 1 1), (0xE4624ADA#32, .vfle 3 2 9 2 1 1 1), (0xE462029B#32, .vfsum 3 2 2 1 1)] := by decide

/-- Words of the opcode table, written out with every field set. -/
theorem test_decode_vred : Agrees
    [(0xE8624AD0#32, .vceq 3 2 9 2 1 1 1), (0xE8624AD1#32, .vclt 3 2 9 2 1 1 1), (0xE8624AD2#32, .vcltu 3 2 9 2 1 1 1),
      (0xE8620293#32, .vsum 3 2 2 1 1), (0xE8620294#32, .vrmin 3 2 2 1 1), (0xE8620295#32, .vrmax 3 2 2 1 1),
      (0xE8620296#32, .vrminu 3 2 2 1 1), (0xE8620297#32, .vrmaxu 3 2 2 1 1), (0xE8624AC8#32, .vmand 3 2 9 2 1 1),
      (0xE8624AC9#32, .vmor 3 2 9 2 1 1), (0xE8624ACA#32, .vmxor 3 2 9 2 1 1), (0xE86202CB#32, .vmnot 3 2 2 1 1),
      (0xE862028C#32, .vmpop 3 2 2 1)] := by decide

/-- Words of the opcode table, written out with every field set. -/
theorem test_decode_vperm : Agrees
    [(0xEC6202D0#32, .vmov 3 2 2 1 1 1), (0xEC620AD1#32, .vsplat 3 2 1 2 1 1 1), (0xEC620892#32, .vext 3 2 1 1 1),
      (0xEC620813#32, .vins 3 2 1 1), (0xEC624AD4#32, .vperm 3 2 9 2 1 1 1), (0xEC620AD5#32, .vslup 3 2 1 2 1 1 1),
      (0xEC620AD6#32, .vsldn 3 2 1 2 1 1 1), (0xEC624AD7#32, .vzip 3 2 9 2 1 1 1), (0xEC624AD8#32, .vuzp 3 2 9 2 1 1 1),
      (0xEC624A99#32, .vsel 3 2 9 2 1 1)] := by decide

/-- Words of the opcode table, written out with every field set. -/
theorem test_decode_vmem : Agrees
    [(0xF06202D0#32, .vld 3 2 2 1 1 1), (0xF0620211#32, .vst 3 2 2 1), (0xF0624AD2#32, .vlds 3 2 9 2 1 1 1),
      (0xF0624A13#32, .vsts 3 2 9 2 1), (0xF0624AD4#32, .vldg 3 2 9 2 1 1 1), (0xF0624A15#32, .vstg 3 2 9 2 1),
      (0xF06202D6#32, .vcld 3 2 2 1 1 1), (0xF0620037#32, .vcadd 3 2 1), (0xF06202D8#32, .vdld 3 2 2 1 1 1), (0xF0620219#32, .vdst 3 2 2 1)] := by decide

/-- Words of the opcode table, written out with every field set. -/
theorem test_decode_vq : Agrees
    [(0xF4620020#32, .vqntE4 3 2 1), (0xF4620021#32, .vqntE5 3 2 1), (0xF4624822#32, .vqntC4 3 2 9 1), (0xF4620024#32, .vdqE4 3 2 1),
      (0xF4620025#32, .vdqE5 3 2 1), (0xF4624826#32, .vdqC4 3 2 9 1)] := by decide

/-! ## Words that are no instruction (R229) -/

/-- Each word is refused for the reason named. -/
abbrev Refused (l : List (W32 × Reject)) : Prop := ∀ p ∈ l, decode p.1 = .bad p.2

/-- R229: steps 1 to 3: the two words, unassigned major opcodes and functions. -/
theorem test_refused_unassigned : Refused
    [(0#32, .zeroOrOnes), (0xFFFFFFFF#32, .zeroOrOnes), (0x00000001#32, .major), (0x08000000#32, .major), (0xF8000000#32, .major),
      (0x04000028#32, .function), (0x0C000011#32 + 0x6, .function), (0x38000000#32 + 0xC000, .function), (0xC0000007#32, .function),
      (0xE4000800#32 + 0xC, .function), (0xD0000017#32, .function), (0xF4000003#32, .function)] := by decide

/-- R229: step 5: a reserved field that is not zero, and reserved values: RMD 5, TO = FROM, POS + LEN above 64, MSEL 7, class mask 0. -/
theorem test_refused_reserved : Refused
    [(0x04000820#32, .reserved .every), (0x40010000#32, .reserved .every), (0x0C000140#32, .reserved .every),
      (0x10000011#32, .reserved .every), (0x38003F01#32, .reserved .every), (0xE0000700#32, .reserved .every),
      (0xC8000000#32, .reserved .every), (0xC4000800#32, .reserved .memoryCore), (0xDE000000#32, .reserved .every)] := by decide

/-- R229: step 6: a register out of range. -/
theorem test_refused_registers : Refused
    [(0xC3C00028#32, .register .every), (0xBC1D0000#32, .register .every), (0xCC800002#32, .register .every),
      (0xD100002C#32, .register .every), (0xD0080030#32, .register .every)] := by decide

/-! ## Ill-formed terms, one for each check of WellFormed -/

/-- The terms are refused as reserved. -/
abbrev Reserved (l : List Instr) : Prop := ∀ i ∈ l, i.fieldFault = some .reserved ∧ i.WellFormed = false
/-- The terms are refused for a register. -/
abbrev OutOfRange (l : List Instr) : Prop := ∀ i ∈ l, i.fieldFault = some .register ∧ i.WellFormed = false

theorem test_ill_formed_fields : Reserved
    [.extu 1 2 63 1, .exts 1 2 63 1, .ins 1 2 63 1, .fadd 1 2 3 2 0, .fsub 1 2 3 0 5, .fmul 1 2 3 0 6, .fdiv 1 2 3 3 0, .fsqrt 1 2 2 0,
      .fmin 1 2 3 2 0, .fmax 1 2 3 2 0, .fma 1 2 3 2 0, .fms 1 2 3 2 0, .fnma 1 2 3 2 0, .feq 1 2 3 2, .flt 1 2 3 2, .fle 1 2 3 2,
      .fclass 1 2 2, .fsgnj 1 2 3 2, .fsgnjn 1 2 3 2, .fsgnjx 1 2 3 2, .cvt 1 2 0 1 1, .cvt 1 2 0 8 9, .cvt 1 2 1 4 1, .cvt 1 2 0 6 1,
      .fence 0 0, .recv 3 3 0, .wix 1 2 6, .wixG 1 2 7, .mtcr 1 4] := by decide

theorem test_ill_formed_vectors : Reserved
    [.vadd 1 2 3 7 0 0 0, .vfma 1 2 3 7 0 0 0, .vfsum 1 2 7 0 0, .vceq 1 2 3 7 0 0 0, .vsum 1 2 7 0 0, .vmand 1 2 3 7 0 0, .vmnot 1 2 7 0 0,
      .vmpop 1 2 7 0, .vmov 1 2 7 0 0 0, .vsplat 1 2 4 0 0 0 3, .vext 1 2 8 0 2, .vins 1 2 16 1, .vperm 1 2 3 7 0 0 0, .vslup 1 2 4 0 0 0 3,
      .vsldn 1 2 4 0 0 0 3, .vzip 1 2 3 7 0 0 0, .vuzp 1 2 3 7 0 0 0, .vsel 1 2 3 0 0 0, .vld 1 2 7 0 0 0, .vst 1 2 7 0, .vlds 1 2 3 7 0 0 0,
      .vsts 1 2 3 7 0, .vldg 1 2 3 7 0 0 0, .vstg 1 2 3 7 0, .vcld 1 2 7 0 0 0, .vdld 1 2 7 0 0 0, .vdst 1 2 7 0] := by decide

theorem test_ill_formed_registers : OutOfRange
    [.carm 30 1 0, .sbindR 4 1, .sbindW 4 1, .sunbind 4, .srd 1 4, .swr 4 1, .sclose 4, .copy 29, .copyNb 1 29, .mtm 8 1, .mfm 1 8, .mfs 1 4,
      .vcadd 31 1 0, .vqntE4 31 1 0, .vqntE5 1 31 0, .vqntC4 1 29 2 1, .vdqE4 31 1 0, .vdqE5 1 31 0, .vdqC4 29 1 2 1] := by decide

/-! ## Single steps, with the results that the spec's examples and tables give -/

/-- A package that has booted images of the tests' own, so that states can be compared. -/
def plain : Package :=
  { Package.reset with
    mv := Vector.replicate 5 []
    log := []
    fw := Vector.replicate 3 { running := some ⟨1, 1, 0, true⟩, flash := some ⟨1, 1, 0, true⟩ }
    loader := { running := some ⟨1, 1, 0, true⟩, flash := some ⟨1, 1, 0, true⟩ } }

/-- A pod whose core 0 runs a firing of slot 0 that may read and write the four granules from local address 0x2000. -/
def base : State :=
  (({ State.reset with pkgs := [(0, plain)] } : State).place 0x20000000#32).onMe fun k =>
    { k with
      regions := k.regions.put 1 { valid := true, owner := 0, base := 8, size := 4, rd := true, wr := true }
      slots := k.slots.put 0 { k.actor 0 with name := 0x002A000000008511, trapEntry := some 64 } }

/-- That pod with some scalar registers written. -/
def regs (l : List (Reg × W64)) : State := l.foldl (fun s p => s.onTh fun t => t.writeX p.1 p.2) base

/-- That pod with some vector registers and VLEN written. -/
def vregs (n : BitVec 6) (l : List (Reg × V256)) : State :=
  (l.foldl (fun s p => s.onTh fun t => t.writeV p.1 p.2) base).onTh fun t => { t with vlen := n }

/-- The state after an instruction. -/
def ran (i : Instr) (s : State) : State :=
  match exec i s with
  | .next t => t
  | _ => s

/-- A scalar register after an instruction. -/
def xOf (i : Instr) (s : State) (r : Reg) : W64 := (ran i s).th.readX r

/-- A vector register of lanes of a width, the low one first. -/
def lanesOf (w : Nat) (l : List Nat) : V256 := BitVec.ofNat 256 (l.foldr (fun x n => x + 2 ^ w * n) 0)

/-- R247's example. -/
theorem test_div : xOf (.div 5 6 7) (regs [(6, -7), (7, 2)]) 5 = 0xFFFFFFFFFFFFFFFD := by decide
theorem test_rem : xOf (.rem 8 6 7) (regs [(6, -7), (7, 2)]) 8 = -1 := by decide
theorem test_divu : xOf (.divu 5 6 7) (regs [(6, -7), (7, 2)]) 5 = 0x7FFFFFFFFFFFFFFC := by decide
theorem test_remu : xOf (.remu 5 6 7) (regs [(6, -7), (7, 2)]) 5 = 1 := by decide
theorem test_div_overflow : xOf (.div 5 6 7) (regs [(6, 0x8000000000000000), (7, -1)]) 5 = 0x8000000000000000 := by decide
theorem test_div_by_zero : xOf (.divu 5 6 0) (regs [(6, 3)]) 5 = 0xFFFFFFFFFFFFFFFF := by decide
/-- R246's table. -/
theorem test_mulh : xOf (.mulh 5 6 6) (regs [(6, -1)]) 5 = 0 := by decide
theorem test_mulhu : xOf (.mulhu 5 6 6) (regs [(6, -1)]) 5 = 0xFFFFFFFFFFFFFFFE := by decide
theorem test_mulhsu : xOf (.mulhsu 5 6 7) (regs [(6, -1), (7, -1)]) 5 = -1 := by decide
theorem test_sra_low_bits : xOf (.sra 5 6 7) (regs [(6, 0x8000000000000000), (7, 65)]) 5 = 0xC000000000000000 := by decide
theorem test_ror : xOf (.ror 5 6 7) (regs [(6, 1), (7, 1)]) 5 = 0x8000000000000000 := by decide
theorem test_slt : xOf (.slt 5 6 7) (regs [(6, -1), (7, 0)]) 5 = 1 := by decide
theorem test_sltu : xOf (.sltu 5 6 7) (regs [(6, -1), (7, 0)]) 5 = 0 := by decide
theorem test_addw : xOf (.addw 5 6 7) (regs [(6, 0x7FFFFFFF), (7, 1)]) 5 = 0xFFFFFFFF80000000 := by decide
theorem test_cmovz_keeps : xOf (.cmovz 5 6 7) (regs [(5, 9), (6, 4), (7, 1)]) 5 = 9 := by decide
theorem test_clz_zero : xOf (.clz 5 6) (regs []) 5 = 64 := by decide
theorem test_ctz : xOf (.ctz 5 6) (regs [(6, 0x50)]) 5 = 4 := by decide
theorem test_popc : xOf (.popc 5 6) (regs [(6, -1)]) 5 = 64 := by decide
theorem test_brev : xOf (.brev 5 6) (regs [(6, 1)]) 5 = 0x8000000000000000 := by decide +kernel
theorem test_bswap : xOf (.bswap 5 6) (regs [(6, 0x0102030405060708)]) 5 = 0x0807060504030201 := by decide
theorem test_sexth : xOf (.sexth 5 6) (regs [(6, 0x18000)]) 5 = 0xFFFFFFFFFFFF8000 := by decide
theorem test_x0_stays_zero : xOf (.add 0 6 6) (regs [(6, 5)]) 0 = 0 := by decide
/-- R248's example and table. -/
theorem test_sloi : xOf (.sloi 9 9 0x5678) (regs [(9, 0x1234)]) 9 = 0x12345678 := by decide
theorem test_lui : xOf (.lui 9 0x8000) (regs []) 9 = 0xFFFFFFFF80000000 := by decide
theorem test_ori_unsigned : xOf (.ori 9 0 0x8000) (regs []) 9 = 0x8000 := by decide
theorem test_andi_signed : xOf (.andi 9 6 0x8000) (regs [(6, -1)]) 9 = 0xFFFFFFFFFFFF8000 := by decide
/-- R249; the first as in the worked firing of R316. -/
theorem test_extu : xOf (.extu 7 6 7 32) (regs [(6, 0x0000000700005000)]) 7 = 7 := by decide
theorem test_exts : xOf (.exts 7 6 3 4) (regs [(6, 0x80)]) 7 = 0xFFFFFFFFFFFFFFF8 := by decide
theorem test_ins : xOf (.ins 7 6 7 8) (regs [(6, 0xAB), (7, -1)]) 7 = 0xFFFFFFFFFFFFABFF := by decide
/-- R252's and R255's examples. -/
theorem test_fma : xOf (.fma 9 10 11 0 0) (regs [(9, 0xBF800002), (10, 0x3F800001), (11, 0x3F800001)]) 9 = 0x28800000 := by decide
theorem test_cvt_clamps : xOf (.cvt 5 6 1 10 1) (regs [(6, 0x4F000000)]) 5 = 0x7FFFFFFF := by decide
theorem test_cvt_clamp_flags : let t := (ran (.cvt 5 6 1 10 1) (regs [(6, 0x4F000000)])).th
    (t.fpctl, t.qnt) = (0x80, 4) := by decide
theorem test_cvt_truncates : xOf (.cvt 5 6 1 10 1) (regs [(6, 0xC0200000)]) 5 = 0xFFFFFFFFFFFFFFFE := by decide
theorem test_fadd_wide : xOf (.fadd 5 6 7 1 0) (regs [(6, 0x3FF0000000000000), (7, 0x3FF0000000000000)]) 5 = 0x4000000000000000 := by decide
theorem test_fdiv_by_zero : xOf (.fdiv 5 6 7 0 0) (regs [(6, 0x3F800000), (7, 0)]) 5 = 0x7F800000 := by decide
theorem test_fsqrt : xOf (.fsqrt 5 6 0 0) (regs [(6, 0x40800000)]) 5 = 0x40000000 := by decide
theorem test_fsgnjn : xOf (.fsgnjn 5 6 6 0) (regs [(6, 0x3F800000)]) 5 = 0xBF800000 := by decide
/-- R256 to R258. -/
theorem test_branch_taken : (ran (.beq 0 0 4) base).th.pc = 16 := by decide
theorem test_branch_not_taken : (ran (.bne 0 0 4) base).th.pc = 4 := by decide
theorem test_jalr_same_register : let t := (ran (.jalr 1 1 8) (regs [(1, 0x20)])).th
    (t.pc, t.readX 1) = (0x28, 4) := by decide
theorem test_jump_out : let t := (ran (.jal 1 0x7FFF) (regs [])).th
    (t.pc, t.cause, t.faultva, t.readX 1) = (64, 0x1301FFFFFFFF, 0x1FFFC, 0) := by decide
/-- R71, R316. -/
theorem test_break : let t := (ran (.breakTrap 0x1234) base).th
    (t.cause, t.faultpc, t.faultins, t.pc, t.status) = (0x190000001234, 0, 0x20000000, 64, 1) := by decide
theorem test_break_in_handler_kills : (ran (.breakTrap 1) (base.onTh fun t => { t with status := 1 })).self.state = .dying := by decide
/-- R278, R279, R72. -/
theorem test_lb : xOf (.lb 5 6 1) ((regs [(6, 0x2000)]).onMe fun k => { k with mem := k.mem.write 0x2001 0x80 }) 5 = 0xFFFFFFFFFFFFFF80 := by
  decide
theorem test_sd : (ran (.sd 7 6 8) (regs [(6, 0x2000), (7, 0x1122334455667788)])).me.mem.read64 0x2008 = 0x1122334455667788 := by decide
theorem test_sd_low_byte_first : (ran (.sd 7 6 8) (regs [(6, 0x2000), (7, 0x1122334455667788)])).me.mem.read 0x2008 = 0x88 := by decide
theorem test_sn_high_nibble : (ran (.sn 7 6 5 1) (regs [(6, 0x2000), (7, 0xFB)])).me.mem.read 0x2005 = 0xB0 := by decide
theorem test_lw_misaligned : (ran (.lw 5 6 2) (regs [(6, 0x2000)])).th.cause = 0x140000000004 := by decide
theorem test_store_to_code_denied : (ran (.sb 5 0 0) base).th.cause / 2 ^ 40 % 256 = 0x13 := by decide
/-- R89's example. -/
theorem test_skew : ({ valid := true, base := 64, size := 8, skew := true, pitch := 1 } : RegEntry).place 0x10518 = 0x10540 := by decide
/-- R264's example: VADDS with a mask and a zeroed tail. -/
def vaddsRan : State := ran (.vadds 7 8 9 1 1 0 1) (vregs 6
  [(0, 0x2B), (7, lanesOf 16 (List.replicate 16 0xAAAA)), (8, lanesOf 16 [0x7FF0, 0x0005, 0xFFFD, 0x8000, 0x0064, 0x7000]),
    (9, lanesOf 16 [0x0020, 0x0007, 0x0001, 0xFFFF, 0xFF9C, 0x1000])])
theorem test_vadds : vaddsRan.th.readV 7 = lanesOf 16 [0x7FFF, 0x000C, 0xAAAA, 0x8000, 0xAAAA, 0x7FFF] := by decide
theorem test_vadds_saturates : vaddsRan.th.qnt = 4 := by decide
/-- The examples after R226 and R275: N8E4 and C4 blocks. -/
noncomputable def e4Ran : State := ran (.vqntE4 10 4 1) (vregs 1 [(4, lanesOf 32 [0x42C80000])])
theorem test_vqnt_e4 : (e4Ran.th.readV 10, e4Ran.th.readV 11, e4Ran.th.qnt) = (0x7C, 0x7D, 0) := by decide +kernel
theorem test_vdq_e4 : (ran (.vdqE4 12 10 1) (vregs 4 [(10, lanesOf 8 [0x54, 0xC0, 0x7E, 0x7C]), (11, 0x7D)])).th.readV 12 =
    lanesOf 32 [0x40400000, 0xBF000000, 0x42E00000, 0x42C00000] := by decide +kernel
/-- The codebook of that example. -/
def book : V256 := lanesOf 16 [0, 0x3E80, 0x3F00, 0x3F80, 0x3FC0, 0x4000, 0x4040, 0x4080, 0x8000, 0xBE80, 0xBF00, 0xBF80, 0xBFC0, 0xC000,
  0xC040, 0xC080]
noncomputable def c4Ran : State := ran (.vqntC4 10 4 12 1) (vregs 4 [(4, lanesOf 32 [0x40A00000, 0xBF333333, 0xFF800000, 0x3FA00000]), (12, book)])
theorem test_vqnt_c4 : (c4Ran.th.readV 10, c4Ran.th.readV 11, c4Ran.th.qnt) = (0x2F95, 0x80, 1) := by decide +kernel
theorem test_vdq_c4 : (ran (.vdqC4 16 10 12 1) c4Ran).th.readV 16 = lanesOf 32 [0x40800000, 0xBF000000, 0xC1000000, 0x3F800000] := by decide +kernel
/-- R315, R68: a VLEN above 32 traps ILLEGAL 0x03. -/
theorem test_vlen_write : (ran (.vlenWrite 6) (regs [(6, 32)])).th.vlen = 32 := by decide
theorem test_vlen_too_long : (ran (.vlenWrite 6) (regs [(6, 33)])).th.cause = 0x100300000000 := by decide
/-- R313's example: flock 0x002A with widths 4, 6 and 8. -/
def wixState : State := { regs [(12, 0x002A000000008511)] with
  flocks := [(0x2A, Flock.ofHeader (fun i => if i = 0 then 3 * 2 ^ 51 else if i = 2 then (4 * 64 + 6) * 2 ^ 24 + 8 * 2 ^ 18 else 0) 0 0 0)] }
theorem test_wix : xOf (.wix 5 12 1) wixState 5 = 5 := by decide
theorem test_wix_group : xOf (.wixG 6 12 2) wixState 6 = 133 := by decide
/-- R301, R72: the production bound. -/
theorem test_send_limit : (ran (.send 8 0 1) base).th.cause / 2 ^ 40 = 0x1A := by decide
/-- R304: a region of four granules; R297. -/
theorem test_ralloc : let t := ran (.ralloc 6 5) (regs [(5, 0x3004)])
    (t.me.region (t.th.readX 6 / 2 ^ 32 % 256).toNat).size = 4 := by decide
theorem test_retire : ((ran .retire base).th.busy, (ran .retire base).me.actor 0 |>.state) = (false, .idle) := by decide
/-- R295: an immediate below a counter stalls, at it goes on. -/
theorem test_waitc : ((ran (.waitc 2 0 0 0) (base.onSelf fun a => { a with cl := 3 })).th.pc,
    (ran (.waitc 3 0 0 0) (base.onSelf fun a => { a with cl := 3 })).th.pc) = (0, 4) := by decide
/-- R227 and R259: one step of the placed word. -/
theorem test_step : (State.after (State.reset.place 0x20000000#32)).map (·.th.pc) = some 4 := by decide

/-! ## For each statement, states and operands that meet its hypotheses, and what they give -/

/-- The state that an answer goes on in. -/
noncomputable def nx : Answer → Option State
  | .next t => some t
  | .fault _ => none
  | .refused _ => none

theorem meets_RegisterFrame : let t := wroteX (regs [(6, 9)]) 5 7
    (X t 5, X t 6, t.th.pc, X (wroteX base 0 7) 0) = (7, 9, 4, 0) := by decide
theorem meets_DecodeEncode : (Instr.bne 5 0 0xFFFD).WellFormed = true ∧ encode (.bne 5 0 0xFFFD) = some 0x64A0FFFD := by decide
theorem meets_EncodeDecode : decode 0x64A0FFFD#32 = .ok (.bne 5 0 0xFFFD) := by decide

/-- A turn of thread set 0 of core 0. -/
noncomputable def selected (s : State) : State := ({ s.elapse with agenda := s.elapse.agenda.drop 1 } : State).select 0 0
/-- The hypotheses of StepRunsDecoded on the turn, and the word at the program counter. -/
def turnAt (s : State) (w : W32) : Prop :=
  s.elapse.nextTurn = .issue 0 0 ∧ s.elapse.coreExists 0 = true ∧ (selected s).th.deferred = none ∧
    (∀ j, j < 4 → (selected s).me.mem.read ((selected s).th.pc.toNat + j) = w.extractLsb' (8 * j) 8) ∧
    (let e := (selected s).me.region (selected s).self.code
     e.base * 1024 ≤ (selected s).th.pc.toNat ∧ (selected s).th.pc.toNat + 4 ≤ (e.base + e.size) * 1024)
theorem meets_StepRunsDecoded : turnAt (State.reset.place 0x04A63800#32) 0x04A63800#32 ∧ decode 0x04A63800#32 = .ok (.add 5 6 7) := by
  unfold turnAt; decide +kernel
theorem meets_StepRunsDecoded_noInstruction : turnAt (State.reset.place 0xFFFFFFFF#32) 0xFFFFFFFF#32 ∧
    decode 0xFFFFFFFF#32 = .bad .zeroOrOnes := by unfold turnAt; decide +kernel
/-- At the last word of the region and just beyond it. -/
def atPc (pc : W64) : State := (State.reset.place 0x20000000#32).onTh fun t => { t with pc := pc }
theorem meets_StepRunsDecoded_end : let e := (selected (atPc 1024)).me.region (selected (atPc 1024)).self.code
    ¬((selected (atPc 1024)).th.pc.toNat + 4 ≤ (e.base + e.size) * 1024) ∧ (atPc 1020).th.pc.toNat + 4 ≤ (e.base + e.size) * 1024 := by decide
theorem meets_StepRunsDecoded_deferred : let s := (atPc 0).onTh fun t => { t with deferred := some ⟨0, 0, 0, 0⟩ }
    s.elapse.nextTurn = .issue 0 0 ∧ (selected s).th.deferred.isSome = true := by decide +kernel
theorem meets_StepRunsDecoded_event : ({ State.reset with agenda := [.event (.ready 0)] } : State).elapse.nextTurn = .event (.ready 0) ∧
    encode (.ready 0) = none := by decide +kernel
theorem meets_StepRunsDecoded_turn : let s := (State.reset.place 0#32).elapse
    s.coreLive 0 = true ∧ (s.pkg 0).runs = true ∧ ((s.core 0).thread 0).busy = true ∧ ((s.core 0).thread 0).stopping = false := by decide
theorem meets_StepKeepsMemory : base.gmem.wf = true ∧ (base.cores.all fun p => p.2.mem.wf) = true ∧ (nx (step base)).isSome = true := by
  decide +kernel

theorem meets_AluResults : base.th.hereXs [6, 7, 0] = true := by decide
theorem meets_UnaryAndImmediateResults : base.th.hereXs [6, 5] = true := by decide
theorem meets_FloatResults : base.th.hereXs [5, 6, 7] = true := by decide
theorem meets_FloatSelections : base.th.hereXs [5, 6, 6] = true := by decide
theorem meets_RoundedOnceExactly : (5 : Nat) ≠ 0 ∧ (FFmt.fp32.round 0 false 5 3).2.of = false ∧ (FFmt.fp32.round 0 false 5 200).2.of = true ∧
    (Machine.Num.inf false).isNan = false := by decide
theorem meets_AllConversions : base.th.hereXs [5, 6] = true ∧ (0 : Nat) < 8 ∧ FFmt.fp32.read 0x7FC00000 = .nan false ∧
    FFmt.fp32.read 0xFF800000 = .inf true ∧ (∃ m e, FFmt.fp32.read 0x3FC00000 = .fin false m e ∧ roundTo 0 false m e 0 = 2) := by
  refine ⟨by decide, by decide, by decide, by decide, _, _, rfl, by decide⟩

/-- `base` with a trap running, and without a trap handler. -/
def inTrap : State := base.onTh fun t => { t with status := 1 }
def noEntry : State := base.onSelf fun a => { a with trapEntry := none }
theorem meets_TrapsTaken_enters : base.self.trapEntry = some 64 ∧ base.th.inTrap = false := by decide
theorem meets_TrapsTaken_kills : (∀ s ∈ [base, inTrap, noEntry], s.self.state = .firing ∧ s.self.tsetf = s.me.tset.val) ∧
    noEntry.self.trapEntry = none ∧ inTrap.th.inTrap = true := by decide
theorem meets_TrapInstructions : base.th.busy = true ∧ base.self.trapEntry = some 64 ∧ base.th.inTrap = false ∧ inTrap.th.inTrap = true ∧
    (atPc 1024).th.pc.toNat + 4 > ((base.me.region 0).base + (base.me.region 0).size) * 1024 := by decide
theorem meets_TrapInstructions_reject : (State.reset.place 0#32).fetch = some 0 ∧ decode 0#32 = .bad .zeroOrOnes := by decide
theorem meets_BranchesAndJumps : base.th.hereXs [5, 6] = true ∧ (base.th.pc + ((255 : BitVec 16).signExtend 64 <<< 2)) &&& 0xFFFFF = 1020 ∧
    (base.me.regions.get {} base.self.code).covers 1020 = true ∧ (base.me.regions.get {} base.self.code).covers 1024 = false ∧
    (base.me.findRegion base.th.slot 0x2000).map (·.1) = some 1 ∧
    (base.me.regions.all fun p => !(p.2.liveOf base.th.slot && p.2.covers 0x1FFC)) = true := by decide +kernel
theorem meets_BranchesAndJumps_jump : let f := fun i => let t := (ran i base).th; (t.pc, t.readX 1, t.cause, t.faultva)
    f (.jal 1 255) = (1020, 4, 0, 0) ∧ f (.jalr 1 6 2) = (64, 0, 0x140000000004, 2) ∧ f (.jal 1 2048) = (64, 0, 0x130400000001, 0x2000) := by
  decide +kernel
theorem meets_ControlReads : base.th.hereXs [5] = true ∧ base.creg 0x0C = none ∧ base.creg 0xC0 = none ∧ base.th.status.getLsbD 1 = false := by
  decide
theorem meets_ControlReads_result : let f := fun i => let t := (ran i base).th; (t.readX 5, t.cause)
    f (.mfcr 5 0x10) = (0x002A000000008511, 0) ∧ f (.mfcr 5 0xC0) = (0, 0x110200000000) ∧ f (.mfcr 5 0xBF) = (0, 0x100700000000) := by
  decide +kernel
theorem meets_ControlWrites : base.th.hereXs [6] = true ∧ ((4 : W64) &&& 7).toNat ≤ 4 ∧ 4 < ((5 : W64) &&& 7).toNat ∧
    (32 : W64).toNat % 64 ≤ 32 ∧ 32 < (33 : W64).toNat % 64 := by decide
theorem meets_ControlWrites_result : let f := fun v => let t := (ran (.fpctlWrite 6) (regs [(6, v)])).th; (t.fpctl, t.cause)
    f 0x1F5 = (0, 0x100300000000) ∧ f 0x1F4 = (0xF4, 0) := by decide +kernel
theorem meets_Moves : base.th.hereXs [6, 5] = true ∧ base.th.hereV 6 = true ∧ wixState.widths wixState.self.name = [4, 6, 8] := by decide +kernel
theorem meets_LocalChecks : base.me.checkLocal 0 0x5C000 8 false = .error (4, 248) ∧ base.me.checkLocal 0 0x5FFFF 1 false = .error (4, 255) ∧
    base.me.checkLocal 0 0x1FFF 1 false = .error (1, 0xFFFFFFFF) ∧ base.me.checkLocal 0 0x2FFC 8 false = .error (5, 1) ∧
    (base.me.onRegion 1 fun e => { e with tomb := true }).checkLocal 0 0x2FFF 1 false = .error (2, 1) ∧
    base.me.checkLocal 0 0x2FFF 1 true = .ok (base.me.region 1) ∧ base.me.checkLocal 0 0 4 true = .error (4, 0) ∧
    (base.me.onRegion 1 fun e => { e with wr := false }).checkLocal 0 0x2000 8 true = .error (3, 1) := by decide +kernel
/-- A skewed region of two granules with a pitch of 8. -/
def skewed : RegEntry := { valid := true, base := 8, size := 2, skew := true, pitch := 8 }
theorem meets_SkewPlacement : (skewed.skew = true → 0 < skewed.pitch) ∧ skewed.covers 0x2000 = true ∧ skewed.covers 0x27FF = true ∧
    skewed.place 0x27FF = 0x27FF ∧ skewed.covers 0x2800 = false := by decide
/-- `base` with a bad bank word at 0x2008. -/
def badBase : State := (regs [(6, 0x2000)]).onMe fun k => { k with bad := [0x401] }
theorem meets_LocalLoads : let s := badBase
    s.th.hereXs [6, 5] = true ∧ s.me.acquiring s.th.fid = false ∧ s.me.checkLocal s.th.slot 0x2000 8 false = .ok (s.me.region 1) ∧
      s.me.badWord (s.me.region 1) 0x2008 8 = some 0x401 ∧ s.me.badWord (s.me.region 1) 0x2000 8 = none ∧
      s.me.checkLocal s.th.slot 0x1000 8 false = .error (1, 0xFFFFFFFF) := by decide +kernel
theorem meets_LocalLoads_bad : let t := ran (.ld 5 6 8) badBase
    (X t 5, t.th.eperr, t.th.pc) = (0, 0x8000000000002008, 4) := by decide
theorem meets_StoresAndFrame : let s := base
    s.th.hereXs [6, 5] = true ∧ s.me.acquiring s.th.fid = false ∧ s.me.bad = [] ∧ s.me.cow = [] ∧
      s.me.checkLocal s.th.slot 0x2FF8 8 true = .ok (s.me.region 1) ∧ (s.me.region 1).covers 0x2FF8 = true := by decide +kernel

theorem meets_VectorIntegers : hereV base [4, 5, 6] 5 := by unfold hereV; decide
theorem meets_VectorFloats : hereV base [4, 5, 6] 4 := by unfold hereV; decide
theorem meets_VectorMasksAndMoves : hereV base [4, 5, 5] 6 := by unfold hereV; decide
/-- No lane active: VRMIN answers the largest value (R268). -/
theorem meets_VectorMasksAndMoves_none : (ran (.vrmin 7 8 0 1 0) (vregs 0 [(7, -1)])).th.readV 7 = 0x7F := by decide +kernel
/-- `base` at the last 32 bytes of its region, at one byte beyond, and misaligned. -/
def vecAt (a : W64) : State := (vregs 32 [(7, 0xAB), (9, lanesOf 8 [0, 31, 31])]).onTh fun t => (t.writeX 6 a).writeX 5 1
theorem meets_VectorLocalAccesses : let s := vecAt 0x2FE0
    s.me.acquiring s.th.fid = false ∧ s.th.hereXs [6, 5] = true ∧ s.th.hereVs [7, 9] = true ∧ (X s 6).toNat % 8 = 0 ∧ s.me.bad = [] ∧
      s.me.cow = [] ∧ ((List.range 32).all fun i => decide (s.me.checkLocal 0 (0x2FE0 + i) 1 true = .ok (s.me.region 1))) = true := by
  decide +kernel
theorem meets_VectorLocalAccesses_result : let t := ran (.vst 7 6 0 0) (vecAt 0x2FE0)
    (t.me.mem.read 0x2FE0, t.th.pc) = (0xAB, 4) ∧
    (let t := ran (.vstg 7 6 9 0 0) ((vecAt 0x2FE0).onTh fun t => { t with vlen := 3 })
     (t.me.mem.read 0x2FE0, t.me.mem.read 0x2FFF, t.th.pc) = (0xAB, 0, 4)) := by decide +kernel
theorem meets_VectorLocalAccesses_traps : (ran (.vld 7 6 0 0 0 0) (vecAt 0x2FE4)).th.cause = 0x140000000020 ∧
    (ran (.vld 7 6 0 0 0 0) (vecAt 0x2FE8)).th.cause = 0x1301FFFFFFFF ∧ (ran (.vld 7 6 0 0 0 0) (vecAt 0x2FE8)).th.faultva = 0x3000 ∧
    (ran (.vlds 7 6 5 0 0 0 1) (vecAt 0x2FE0)).th.cause = 0x140000000002 ∧
    (ran (.vlds 7 6 5 0 0 0 1) (vecAt 0x2FE0)).th.faultva = 0x2FE1 := by decide +kernel
theorem meets_BlockQuantization : hereV (vregs 1 []) ((List.range 4).map (fun i => (4 : Reg) + BitVec.ofNat 5 i) ++ [10, 11, 12]) 0 ∧
    (vregs 1 []).th.vlen.toNat = 1 ∧ cbValid book = true ∧ cbValid (0x7F80 : V256) = false := by
  unfold hereV; decide +kernel
theorem meets_BlockQuantization_scales : [Machine.Num.fin false 100 0, .inf true].any Num.isNan = false ∧
    (quantBlock (.n .e4) [Machine.Num.fin false 100 0, .inf true]).1 = 125 ∧
    (quantBlock (.n .e4) [Machine.Num.fin false 100 0, .inf true]).2.2.inf = true ∧ [Machine.Num.nan true].any Num.isNan = true := by
  decide +kernel

/-- A commons address: range 5, page 0. -/
def ga1 : Nat := 2 ^ 54 + 5 * 2 ^ 21
/-- A DRAM address: range 5, page 0. -/
def ga0 : Nat := 5 * 2 ^ 21
/-- `base` whose PLB grants ranges 5 of classes 0 and 1: the commons at cluster 0's banks, DRAM at memory core NM0. -/
def granted (l : List (Reg × W64)) : State := (regs l).onMe fun k =>
  { k with plb := [⟨0, 1, 5, 7, 0, 64, 64, false, 0, 0⟩, ⟨0, 0, 5, 7, 0, 0, 0, false, 0, 0⟩] }
/-- The same on memory core NM0. -/
def memGranted (l : List (Reg × W64)) : State := { (granted l).setCore 8192 (granted l).me with cur := 8192 }
theorem meets_Accesses : let s := granted [(6, BitVec.ofNat 64 (ga1 + 0x40)), (7, 5)]
    s.th.hereXs [5, 6] = true ∧ s.me.acquiring s.th.fid = false ∧ (ga1 + 0x40) % 8 = 0 ∧ ga1 + 0x40 < 2 ^ 56 ∧ gaClass (ga1 + 0x40) = 1 ∧
      s.me.ownerAt s.self.domain (ga1 + 0x40) true false = .owner 64 ∧ s.self.cl < 63 ∧
      s.canLaunch [{ op := .load, ga := ga1 + 0x40, size := 8, dest := 5 }] 64 = true := by decide +kernel
theorem meets_Accesses_result : let t := ran (.cld 5 6) (granted [(6, BitVec.ofNat 64 (ga1 + 0x40))])
    (t.th.pc, t.self.cl, t.th.hereX 5, t.th.hereX 6) = ((4 : W64), 1, false, true) ∧
      t.me.accs.map (fun a => (a.ga, a.owner, decide (a.phase = .sent))) = [(ga1 + 0x40, 64, true)] := by decide +kernel
theorem meets_Accesses_dram : let s := memGranted [(6, BitVec.ofNat 64 ga0)]
    coreIsMem s.cur = true ∧ s.me.ownerAt s.self.domain ga0 true false = .owner 0 ∧ memOwner s.cur = 0 ∧ gaClass ga0 = 0 ∧
      ((ran (.dldD 5 6) s).th.pc, (ran (.dldD 5 6) s).self.cl) = (4, 1) := by decide +kernel
theorem meets_Accesses_traps : let c := fun (i : Instr) (ga : Nat) => let t := (ran i (granted [(6, BitVec.ofNat 64 ga)])).th; (t.cause, t.faultva)
    c (.cld 5 6) (ga1 + 4) = (0x4000140000000008, BitVec.ofNat 64 (ga1 + 4)) ∧ c (.cld 5 6) ga0 = (0x4000120100000000, BitVec.ofNat 64 ga0) ∧
      c (.cld 5 6) (2 ^ 57) = (0x4000120100000000, 2 ^ 57) ∧ c (.dldD 5 6) ga0 = (0x100600000000, 0) := by decide +kernel
theorem meets_Accesses_denied : let s := (granted [(6, BitVec.ofNat 64 ga1)]).onMe fun k => { k with plb := k.plb.map fun e => { e with rights := 4 } }
    s.me.ownerAt s.self.domain ga1 true true = .deny 2 ∧ (ran (.cstD 5 6) s).th.cause = 0x4000120200000000 := by decide +kernel
theorem meets_Accesses_full : let s := (granted [(6, BitVec.ofNat 64 ga1)]).onSelf fun a => { a with cl := 63 }
    63 ≤ s.self.cl ∧ (ran (.cld 5 6) s).th.stalled = true ∧ (ran (.cld 5 6) s).th.pc = 0 := by decide +kernel
/-- Two words in the last place of one bank's block, one word more, and none. -/
theorem meets_ReclaimsAndFences : let t := fun (n : W64) => ran (.creclR 5 6 7) (granted [(5, n), (6, BitVec.ofNat 64 (ga1 + 0x30)), (7, 3)])
    (0x30 + 8 * 2 = 64) ∧ ((t 2).th.pc, (t 2).me.accs.length) = (4, 1) ∧ (t 3).me.accs.length = 2 ∧
      ((t 0).th.pc, (t 0).me.accs.length, (t 0).self.cl) = (4, 0, 0) := by decide +kernel
/-- One access of the firing that has not been performed. -/
def pending1 : State := ran (.cld 5 6) (granted [(6, BitVec.ofNat 64 ga1)])
theorem meets_ReclaimsAndFences_fences : let f := fun (i : Instr) (s : State) => let t := (ran i s).th; (t.pc, t.stalled)
    f (.fence 2 1) base = (4, false) ∧ f (.fence 2 1) pending1 = (4, true) ∧ f (.fence 0 1) pending1 = (8, false) ∧ f .efence base = (4, false) ∧
      f .efence pending1 = (4, true) ∧ (ran .efence (base.onTh fun t => { t with eperr := 0x8800000000002000 })).th.cause = 0x4000200100000000 := by
  decide +kernel

/-- A flock of domain 7 with one field of 48 bits. -/
def flockA : Flock :=
  { prio := 3, nfield := 1, place := 0, supvl := 0, succl := 0, gate := false, domain := 7, wdog := 0, image := 0, widths := [48], maxlive := 0
    supv := 0, arg := 0, init := 2, gateway := 0xFFFF000000000001, pkg := 0, conn := 1 }
/-- Names of flock 0x2A. -/
def nameOf (n : Nat) : W64 := BitVec.ofNat 64 (0x2A * 2 ^ 48 + n)
/-- An idle actor with a mailbox at granule 12, four places in each of c0 to c2 and twelve in c3, a completion ring of eight places at
granule 16, and one handler that takes a message of c0. -/
def idleActor (n : Nat) : Actor :=
  { state := .idle, name := nameOf n, incarn := 1, domain := 7, mbox := 2, cring := 3, crDepth := 8, trapEntry := some 64, prio := 3, eprio := 3
    handlers := [{ req := 1, eclass := 0, prod := 4, entry := 128, cnt := #v[1, 0, 0, 0], use := #v[1, 0, 0, 0] }] }
/-- The regions of such an actor in slot 0: code, data, mailbox, completion ring. -/
def regions0 : SMap RegEntry :=
  [(0, { valid := true, base := 0, size := 1, kind := kCode, rd := true }), (1, { valid := true, base := 8, size := 4, rd := true, wr := true }),
    (2, { valid := true, base := 12, size := 4, kind := kMailbox }), (3, { valid := true, base := 16, size := 1, kind := kCring, rd := true })]
/-- A core that holds such an actor in slot 0. -/
def coreOf (n : Nat) : Core :=
  [(0, 0, 4), (1, 4, 4), (2, 8, 4), (3, 12, 12)].foldl (fun (k : Core) c => k.setChan 0 c.1 ⟨c.2.1, c.2.2, 0, 0⟩)
    ({ regions := regions0, slots := [(0, idleActor n)] } : Core)
/-- The directory entry of such an actor. -/
def entryOf (n core slot : Nat) : DirEntry :=
  { name := nameOf n, inc := 1, state := 1, pkg := core / 65536, die := core / 16384 % 4, kind := 0, cidx := core % 4096, slot := slot, supv := 0, rrec := 0 }
/-- A pod with actor 1 on core 0 and actor 2 on core 1. -/
def pod : State :=
  { State.reset with
    pkgs := [(0, plain)], cores := [(0, coreOf 1), (1, coreOf 2)], flocks := [(0x2A, flockA)]
    dir := [((nameOf 1).toNat, entryOf 1 0 0), ((nameOf 2).toNat, entryOf 2 1 0)], serial := 9 }
/-- That pod while actor 1 runs its handler on thread set 0, with some scalar registers written. -/
def firing (l : List (Reg × W64)) : State :=
  ((pod.onCore 0 fun k =>
    { k with
      slots := k.slots.mapVals fun _ a => { a with state := .firing, handler := 0, fid := 1, runnable := true }
      threads := #v[{ busy := true, fid := 1, wdogleft := 67108864, sendleft := 4 }, {}, {}, {}] }).onTh fun t =>
    l.foldl (fun t p => t.writeX p.1 p.2) t)

/-- A stream buffer in region 4 with one word in it, bound for reading to s1 and for writing to s2, and s3 at its end. -/
def streaming : State := ((firing [(6, 4), (5, 9)]).onMe fun k =>
    { k with
      regions := k.regions.put 4 { valid := true, base := 20, size := 1, kind := kStream }
      mem := k.mem.write64 (20 * 1024 + 8 * 127) 0x77 }).onTh fun t =>
    { t with st := #v[0, 0x80040000007F0001, 0xC004000000000001, 0xA004000000000000] }
theorem meets_Streams : let s := firing [(6, 4)]
    let t := s.onMe fun k => { k with regions := k.regions.put 4 { valid := true, base := 20, size := 1, kind := kStream } }
    s.me.acquiring s.th.fid = false ∧ (t.me.regions.get {} 4).owner = t.th.slot ∧ (ran (.sbindR 1 6) t).th.st[1] = 0x8004000000000000 ∧
      (ran (.sbindW 1 6) t).th.st[1] = 0xC004000000000080 ∧ (ran (.sbindW 1 6) s).th.cause = 0x130100000004 := by decide +kernel
theorem meets_Streams_words : let s := streaming
    s.th.hereXs [6, 5] = true ∧ ((ran (.srd 7 1) s).th.landing, (ran (.srd 7 1) s).th.hereX 7, (ran (.srd 7 1) s).th.st[1]) = (some (7, 0x77), false, 0x8004000000000000) ∧
      (ran (.srd 7 3) s).th.cause = 0x150000000003 ∧ (ran (.srd 7 2) s).th.cause = 0x100500000000 ∧ (ran (.srd 7 0) s).th.cause = 0x100500000000 ∧
      ((ran (.swr 2 5) s).me.mem.read64 (20 * 1024), (ran (.swr 2 5) s).th.st[2]) = (9, 0xC004000000010000) ∧
      (ran (.swr 1 5) s).th.cause = 0x100500000000 ∧ (ran (.sclose 1) s).th.st[1] = 0xA0040000007F0000 ∧
      (ran (.sunbind 1) s).th.st[1] = 0 ∧ (ran (.sclose 0) s).th.cause = 0x100500000000 := by decide +kernel
theorem meets_Streams_stalls : let s := ran (.srd 7 1) streaming
    let t := ran (.swr 2 5) streaming
    (ran (.srd 7 1) s).th.stalled = true ∧ (ran (.swr 2 5) t).th.stalled = true ∧
      (ran (.swr 3 5) (streaming.onTh fun t => { t with st := t.st.set 3 0xE004000000000001 })).th.cause = 0x150000000003 := by decide +kernel

/-- A core whose copy FIFO is full. -/
def fifoFull (s : State) : State := s.onMe fun k => { k with fifo := (List.range 16).map fun i => ⟨100 + i, Vector.replicate 4 0, 0, nameOf 1, 0, 1, none, false⟩ }
theorem meets_QueueInstructions : let s := firing [(5, 1), (6, 2), (7, 3), (8, 4)]
    s.me.acquiring s.th.fid = false ∧ s.th.hereXs [10, 5, 6, 7, 8] = true ∧ s.self.cp < 63 ∧ s.me.fifo.length < 16 ∧ (fifoFull s).me.fifo.length = 16 ∧
      ((ran (.copy 5) s).self.cp, (ran (.copy 5) s).me.fifo.map (·.w.toList)) = (1, [[1, 2, 3, 4]]) ∧
      X (ran (.copyNb 10 5) (fifoFull s)) 10 = 1 ∧ (ran (.copy 5) (fifoFull s)).th.stalled = true := by decide +kernel
theorem meets_QueueInstructions_full : let s := (firing []).onSelf fun a => { a with cp := 63 }
    63 ≤ s.self.cp ∧ (ran (.copyNb 10 5) s).th.stalled = true := by decide +kernel
theorem meets_QueueInstructions_record : let s := ((firing []).onSelf fun a => { a with crCnt := 1, crHead := 7 }).onMe fun k =>
      { k with mem := k.mem.write64 (16 * 1024 + 32 * 7) 5 }
    s.th.hereV 3 = true ∧ s.self.crCnt ≠ 0 ∧ s.self.cchan = 3 ∧ V (ran (.cqpop 3) s) 3 = 5 ∧
      ((ran (.cqpop 3) s).self.crCnt, (ran (.cqpop 3) s).self.crHead) = (0, 0) ∧ V (ran (.cqpop 3) (ran (.cqpop 3) s)) 3 = 0 := by decide +kernel
/-- An actor that declares the matrix unit, with two accumulators and rings 0 and 1 of two tiles of one row of eight blocks. -/
def matrix : State := ((firing []).onSelf fun a =>
    { a with
      mxdecl := true, accDecl := 3, accFmt := 2
      rings := #v[{ valid := true, ridx := 4, rows := 16, rowb := 1, depth := 2, cnt := 1 }, { valid := true, ridx := 5, rows := 16, rowb := 1, depth := 2, cnt := 1 }, {}, {}] }).onMe
  fun k => { k.onThread 0 fun t => { t with status := 4 } with
    regions := (k.regions.put 4 { valid := true, base := 20, size := 1, kind := kRing, rd := true, wr := true }).put 5
      { valid := true, base := 21, size := 1, kind := kRing, rd := true, wr := true } }
/-- A command word. -/
def mcmdWord (s : State) (w : V256) : State := s.onTh fun t => t.writeV 9 w
theorem meets_QueueInstructions_mcmd : let s := mcmdWord matrix 2
    coreIsMem s.cur = false ∧ s.th.status.getLsbD 2 = true ∧ s.th.hereV 9 = true ∧ s.th.hereXs [10, 11] = true ∧ s.me.cmdCheck s.self (V s 9) = none ∧
      cmdRange (V s 9) = none ∧ s.me.mq.length < 32 ∧ s.self.mt < 63 ∧ cmdReads (V s 9) = [] ∧
      ((ran (.mcmd 10 9 11) s).self.mt, (ran (.mcmd 10 9 11) s).me.mq.length) = (1, 1) ∧
      (s.me.cmdCheck s.self 0x7F).isSome = true ∧ (ran (.mcmd 10 9 11) (mcmdWord matrix 0x7F)).th.cause / 2 ^ 40 = 0x18 ∧
      (ran (.mcmd 10 9 11) (firing [])).th.cause = 0x100600000000 := by decide +kernel

theorem meets_Sends : let s := firing [(5, nameOf 2), (6, 0x1FF)]
    s.th.hereXs [5, 6, 7] = true ∧ s.th.sendleft ≠ 0 ∧ s.th.status.getLsbD 1 = false ∧
      (let t := ran (.sendNb 7 5 6 3) s
       (t.th.sendleft, X t 7, t.me.sends.length, t.serial) = (3, 0, 1, 10)) ∧
      (ran (.psend 5 6 3) s).th.cause = 0x110100000000 := by decide +kernel
theorem meets_Sends_none : let s := (firing [(5, nameOf 2)]).onTh fun t => { t with sendleft := 0 }
    s.th.sendleft = 0 ∧ (ran (.send 5 6 3) s).th.cause = 0x1A0000000004 ∧ X (ran (.sendNb 7 5 6 3) s) 7 = 1 := by decide +kernel
theorem meets_Sends_priv : let s := (firing [(5, nameOf 2)]).onTh fun t => { t with status := 2, sendleft := 1 }
    s.th.status.getLsbD 1 = true ∧ (ran (.psend 5 6 0) s).th.sendleft = 0 := by decide +kernel
/-- A message of actor 2 to actor 1. -/
def msgA : Msg := { dst := nameOf 1, inc := 0, named := false, chan := 0, kind := 1, sinc := 1, sender := nameOf 2, domain := 7, everyDomain := false
                    body := #v[11, 12, 0, 0, 0, 0, 0, 18] }
theorem meets_Receives : let s := (firing []).onMe fun k => k.placeMsg 0 5 msgA
    let t := ran (.recv 5 6 0) s
    s.th.hereXs [5, 6] = true ∧ (s.me.chan s.th.slot 0).cnt = 1 ∧ (s.me.chan s.th.slot 0).cap = 4 ∧
      (X t 5, X t 6, t.th.m[0], t.th.m[7], (t.me.chan 0 0).cnt, t.self.popcnt) = (0x9001000000000005, nameOf 2, 11, 18, 0, 1) ∧
      (X (ran (.recv 5 6 0) t) 5, (ran (.recv 5 6 0) t).th.pc) = (0, 8) := by decide +kernel
theorem meets_PlacedIsReceived : let k := coreOf 1
    (k.chan 0 0).cnt = 0 ∧ (k.chan 0 0).cap = 4 ∧ (k.chan 0 0).head < 4 ∧ (k.placeMsg 0 5 msgA).headEntry 0 0 = (0x9001000000000005, nameOf 2, msgA.body) := by
  decide +kernel
/-- A request of 352 granules, all that is left above the completion ring. -/
theorem meets_RegionInstructions : let s := firing [(5, 0x3000 + 351)]
    let t := ran (.ralloc 7 5) s
    s.th.hereXs [5, 7] = true ∧ s.me.freeEntry = some 4 ∧ s.me.findRun 351 = some 17 ∧ X t 7 = 4 * 2 ^ 32 + 17 * 1024 ∧
      X (ran (.ralloc 7 5) t) 7 = 0x8000020000000000 ∧ X (ran (.ralloc 7 5) (firing [(5, 0)])) 7 = 0x8000030000000000 ∧
      (ran (.rfree 6) (t.onTh fun u => u.writeX 6 4)).me.regions.get {} 4 = {} ∧ (ran (.rfree 6) (s.onTh fun u => u.writeX 6 248)).th.cause = 0x1301000000F8 := by
  decide +kernel
theorem meets_RegionInstructions_full : let s := (firing [(5, 0x3001)]).onMe fun k =>
      { k with regions := (List.range 248).map fun i => (i, { valid := true, base := i, size := 1, kind := if i = 0 then 1 else 0 }) }
    s.me.freeEntry = none ∧ X (ran (.ralloc 7 5) s) 7 = 0x8000010000000000 := by decide +kernel
theorem meets_RegionInstructions_give : let s := firing [(5, nameOf 2), (6, 1), (7, 99)]
    let t := ran (.give 7 5 6 2) s
    s.me.acquiring s.th.fid = false ∧ (s.me.region 1).kind = 0 ∧ s.th.bindsRegion 1 = false ∧ s.activeNames s.cur s.th.slot 1 = false ∧ s.me.fifo.length < 16 ∧ (t.me.region 1).tomb = true ∧
      t.serial = 10 ∧ (ran (.give 7 5 6 2) t).th.cause = 0x130200000001 ∧ s.isHere (nameOf 2) = false ∧ s.isHere (nameOf 1) = true := by decide +kernel

/-- An image at the start of the image store: 256 bytes of code, one handler, a trap handler, no regions. -/
def imgGa : Nat := 2 ^ 55
/-- `s` with that image stored and placed. -/
def stocked (s : State) : State :=
  { s with
    gmem := [(0, 0x8001014d494741), (0x08, 0x44000000100), (0x10, 0x3000040404), (0x20, 0x54000000040), (0x30, 0x1004000000000080), (0x38, 0x100000001)].foldl
      (fun (m : Memory) p => m.write64 (imgGa + p.1) (BitVec.ofNat 64 p.2)) s.gmem
    placed := [imgGa / 65536]
    hints := s.hints.put (hintKeyOf imgGa) ⟨0, 0, 3, 0, false, false, 1, 0, 0, 0, Vector.replicate 4 0, 0, 7, 7⟩ }
/-- `firing` with the image and the flock's image field naming it. -/
def stockedFiring (l : List (Reg × W64)) : State := stocked (firing l)
theorem meets_image : ((stockedFiring []).image imgGa 0x2A).map (fun i => (i.codeSize, i.handlers.length, i.trapEntry, i.depths)) =
    some (256, 1, some 64, [4, 4, 4, 8]) := by decide +kernel

theorem meets_TieInstructions_spawn : let s := firing [(6, 2 ^ 48 - 1), (7, 5)]
    s.th.hereXs [6, 7, 5] = true ∧ s.widths s.self.name = [48] ∧ X (ran (.spawn 5 6) s) 5 = 2 ∧ X (ran (.spawn 5 7) s) 5 = 0 ∧
      (ran (.spawn 5 7) s).me.spawns.map (fun e => (e.name, e.sender, e.filled)) = [(nameOf 5, nameOf 1, false)] ∧
      (let f := s.onMe fun k => { k with spawns := List.replicate 32 ⟨0, 0, Vector.replicate 8 0, 0, 0, false, 0, 0, [], true, 0, 0, 0⟩ }
       X (ran (.spawn 5 7) f) 5 = 1) := by decide +kernel
theorem meets_TieInstructions_link : let s := firing [(6, nameOf 2), (7, nameOf 1)]
    let t := ran (.link 6) s
    s.me.freeLink = some 0 ∧ (s.reach s.self.domain false (nameOf 2)).lives = true ∧ t.me.links = [(0, ⟨1, 0, 0, nameOf 2, 1⟩)] ∧ t.serial = 10 ∧
      (ran (.link 6) t).serial = 10 ∧ (ran (.link 7) s).serial = 9 ∧ (ran (.unlink 6) t).me.links = [] ∧ (ran (.unlink 6) t).serial = 11 ∧
      (ran (.unlink 6) s).serial = 9 := by decide +kernel
theorem meets_TieInstructions_monitor : let s := firing [(6, nameOf 2)]
    let t := ran (.monitor 5 6) s
    X t 5 = 1 ∧ t.me.links = [(0, ⟨2, 0, 1, nameOf 2, 1⟩)] ∧ (ran (.demon 5) t).me.links = [] := by decide +kernel
/-- A link table that is full. -/
theorem meets_TieInstructions_full : let s := (firing [(6, nameOf 2)]).onMe fun k =>
      { k with links := (List.range 256).map fun i => (i, ⟨1, 5, 0, nameOf 9, 1⟩) }
    s.me.freeLink = none ∧ (ran (.link 6) s).serial = 10 ∧ X (ran (.monitor 5 6) s) 5 = 0 := by decide +kernel
theorem meets_TieInstructions_rules : let s := (firing [(6, 3)]).onTh fun t => { t with m := #v[1, 4, 5 * 2 ^ 31 + 1000, 0, 0, 0, 0, 0] }
    let t := ran (.supset 5 6) s
    X t 5 = 0 ∧ t.me.sups = [(0, ⟨0, 3, 0x2A, 1, 4, 0, 0, 5, 1000, []⟩)] ∧ X (ran (.supdel 5 6) t) 5 = 0 ∧ (ran (.supdel 5 6) t).me.sups = [] ∧
      X (ran (.supdel 5 6) s) 5 = 1 ∧ X (ran (.supset 5 6) (s.onTh fun t => { t with m := #v[5, 4, 0, 0, 0, 0, 0, 0] })) 5 = 2 ∧
      (ran (.trapex 5 6) s).self.trapexit = true := by decide +kernel

theorem meets_EndsAndSuccessions_kills : let s := firing [(6, nameOf 2), (7, nameOf 1), (8, 0x40), (9, 3)]
    let p := s.onTh fun t => { t with status := 2 }
    s.self.state = .firing ∧ (ran (.kill 6) s).serial = 10 ∧ (ran (.kill 7) s).self.state = .dying ∧ (ran (.pkill 6 8) s).th.cause = 0x110100000000 ∧
      (ran (.pkill 6 8) p).serial = 10 ∧ (ran (.pkill 6 9) p).th.cause = 0x100300000000 ∧ (ran (.exit 9 6) s).self.state = .dying ∧
      (ran (.exit 8 6) s).self.dying.map (·.reason) = some 0x40 ∧ (ran (.exit 6 6) s).self.dying.map (fun d => (d.reason, d.detail)) = some (2, nameOf 2) ∧
      reasonAssigned 4 = false := by decide +kernel
theorem meets_EndsAndSuccessions_retire : let s := firing []
    let t := ran .retire s
    s.self.cl = 0 ∧ s.th.eperr.getLsbD 63 = false ∧ (t.me.thread 0).busy = false ∧ (t.me.actor 0).state = .idle ∧
      (ran .retire (s.onSelf fun a => { a with cl := 1 })).th.stalled = true := by decide +kernel
/-- A full core on which another actor could run. -/
def crowded : State := (firing []).onMe fun k =>
  let q : Core := { k with
    threads := #v[k.threads[0], { busy := true, slot := 2 }, { busy := true, slot := 3 }, { busy := true, slot := 4 }]
    slots := k.slots.put 1 { (k.actor 0) with state := .idle } }
  ({ q with regions := q.regions.put 12 { valid := true, base := 30, size := 2, kind := kMailbox, owner := 1 } } : Core).onActor 1 fun a => { a with mbox := 12 }
theorem meets_EndsAndSuccessions_yield : let s := crowded.onMe fun k => (k.setChan 1 0 ⟨0, 4, 0, 0⟩).placeMsg 1 5 msgA
    s.me.idleSet = none ∧ s.me.firings < 8 ∧ s.me.othersReady (s.cceil s.cur) s.th.slot = true ∧ (ran .yield s).th.stopping = true ∧
      (firing []).me.idleSet ≠ none ∧ (ran .yield (firing [])).th.pc = 4 := by decide +kernel
theorem meets_EndsAndSuccessions_rets : let s := (stockedFiring [(6, BitVec.ofNat 64 imgGa)]).onTh fun t => { t with m := #v[0, 0, 0x5000, 0, 0, 0, 0, 0] }
    let t := ran (.rets 6) s
    s.th.hereXs [6] = true ∧ s.me.maskOk s.th.slot s.th.m = true ∧ imgGa < 2 ^ 56 ∧ gaClass imgGa = 2 ∧ (s.image imgGa 0x2A).isSome = true ∧
      s.th.eperr.getLsbD 63 = false ∧ (Keep.ofMsg s.th.m).name = true ∧ t.th.busy = false ∧ (t.me.actor 0).succ = true ∧ (t.me.actor 0).state = .idle ∧
      (t.me.actor 0).name = nameOf 1 := by decide +kernel
theorem meets_EndsAndSuccessions_refused : let s := stockedFiring [(6, BitVec.ofNat 64 imgGa)]
    (ran (.rets 6) (s.onTh fun t => { t with m := #v[0, 0, 0x8000, 0, 0, 0, 0, 0] })).th.cause = 0x100300000000 ∧
      (ran (.rets 6) (s.onTh fun t => t.writeX 6 8)).th.cause = 0x4000120100000000 ∧
      (ran (.rets 6) (s.onTh fun t => t.writeX 6 (BitVec.ofNat 64 (imgGa + 64)))).th.cause = 0x4000100300000000 := by decide +kernel
/-- An actor with an accumulator and a ring of its own, ready to end with RETS. -/
def shapely : State := (stockedFiring [(6, BitVec.ofNat 64 imgGa)]).onSelf fun a =>
  { a with accDecl := 1, rings := #v[{ valid := true, ridx := 9, rows := 1, rowb := 1, depth := 2 }, {}, {}, {}] }
/-- The cause that a RETS with a keep word leaves. -/
def keeping (k : W64) (s : State) : W64 := (ran (.rets 6) (s.onTh fun t => { t with m := #v[0, 0, k, 0, 0, 0, 0, 0] })).th.cause
theorem meets_EndsAndSuccessions_shape_acc : keeping 0x5001 shapely = 0x170300000000 := by decide +kernel
theorem meets_EndsAndSuccessions_shape_ring : keeping 0x5100 shapely = 0x170400000000 := by decide +kernel
theorem meets_EndsAndSuccessions_shape_room : keeping 0x5000 (shapely.onMe fun k =>
    let held : RegEntry := { valid := true, base := 17, size := 351, owner := 3 }
    let regs := ((k.regions.put 20 held).put 21 { held with base := 0, size := 8 }).put 1 { held with base := 8, size := 4 }
    let q : Core := { k with regions := regs }
    q.onRegion 0 fun e => { e with owner := 3 }) = 0x170100000012 := by
  decide +kernel

/-- A command from its doublewords 0 and 1. -/
def cmdOf (d0 d1 : Nat) : V256 := BitVec.ofNat 256 (d0 + d1 * 2 ^ 64)
/-- The matrix actor with a command at the head of its queue that names region `r`, and some elements of its accumulators. -/
def tiled (d0 d1 : Nat) (r : Nat := 1) (acc : SMap W32 := []) : State :=
  (matrix.onMe fun k => { k with mq := [⟨cmdOf d0 d1, 0, 0, 0, 0, r, 0, 0, 4⟩] }).onSelf fun a => { a with mt := 1, acc := acc }
/-- Queue length, MT, and an element of an accumulator after an event. -/
noncomputable def afterTile (i : Instr) (s : State) (acc row col : Nat) : Nat × Nat × Nat :=
  match exec i s with
  | .next t => ((t.core 0).mq.length, (t.actor 0 0).mt, (t.actor 0 0).accAt acc row col)
  | _ => (99, 99, 99)
theorem meets_TileCommandsAndFaults : let t := tiled 6 0
    (t.core 0).mq.length = 1 ∧ (t.core 0).bad = [] ∧ ((t.core 0).region 1).liveOf 0 = true ∧ t.draining (nameOf 1) = false ∧
      (t.self.ring 0).feed = 0 ∧ (t.self.ring 0).cnt < (t.self.ring 0).depth ∧ ((t.core 0).regions.get {} 4).liveOf 0 = true := by decide +kernel
theorem meets_TileCommandsAndFaults_results :
    afterTile (.mmove 0) (tiled (6 + 1 * 2 ^ 11) 0 1 [(256, 7), (511, 9)]) 0 15 15 = (0, 0, 9) ∧
    afterTile (.mclr 0) (tiled 2 0 1 [(3, 7)]) 0 0 3 = (0, 0, 0) ∧
    afterTile (.mscale 0) (tiled 8 0x40000000 1 [(3, 0x3F800000)]) 0 0 3 = (0, 0, 0x40000000) ∧
    afterTile (.maddacc 0) (tiled (9 + 2 ^ 8) 0 1 [(3, 5), (259, 7)]) 1 0 3 = (0, 0, 12) ∧
    afterTile (.msync 0) (tiled 1 0) 0 0 0 = (0, 0, 0) := by decide +kernel
theorem meets_TileCommandsAndFaults_memory :
    (ran (.mstore 0) (tiled (10 + 2 ^ 16 + 2 ^ 24) (0x2000 + 8 * 2 ^ 20) 1 [(0, 0x3F800000), (1, 0x40000000)])).me.mem.read64 0x2000 = 0x400000003F800000 ∧
    afterTile (.mloadacc 0) ((tiled (12 + 2 ^ 16) (0x2004 + 4 * 2 ^ 20)).onMe fun k => { k with mem := k.mem.write64 0x2000 0x1234567800000000 }) 0 0 0 =
      (0, 0, 0x12345678) ∧
    ((ran (.mringAdvance 0) (tiled (4 + 2 ^ 10) 0)).self.ring 0).cnt = 2 ∧
    (ran (.mchkNoCompare 0) (tiled (5 + 2 ^ 8) 0)).self.chkoff = true ∧
    ((ran (.mringConfigure 0) ((tiled 4 (2 + 3 * 32 + 5 * 512)).onSelf fun a => { a with rings := a.rings.set 0 { a.rings[0] with cnt := 0 } })).self.ring 0).depth = 5 ∧
    (ran (.mloadcb 0) ((tiled (3 + 2 ^ 8) 0x2000).onMe fun k => { k with mem := k.mem.writeN 0x2000 (toBytes 32 book.toNat) })).self.cbs[1] = ⟨true, book⟩ := by decide +kernel
theorem meets_TileCommandsAndFaults_faults : let f := fun i (s : State) => (ran i s).th.deferred.map (·.cause)
    f (.mstore 0) (tiled (10 + 2 ^ 16) 0x2000 9) = some 0x800018060000090A ∧ f (.mringConfigure 0) (tiled (4 + 2 ^ 8) 0) = some 0x8000180800000104 ∧
      f (.mringAdvance 0) (tiled (4 + 2 ^ 8 * 2 + 2 ^ 10) 0) = some 0x8000180800000204 := by decide +kernel
theorem meets_TileCommandsAndFaults_drain : let t := ran (.mdrain 0) (tiled 11 0)
    (t.me.mq.length, t.self.mt, t.serial) = (0, 1, 10) := by decide +kernel

/-- The example of R327: rings of one row of two blocks, 1.0 in ring 0, 2^24 and then 1.0 in ring 1. -/
def groups : State :=
  let halves : List Nat → Nat → Memory → Memory := fun l at_ m => (l.zipIdx.foldl (fun (m : Memory) p => m.writeN (at_ + 2 * p.2) (toBytes 2 p.1)) m)
  ((tiled 0x00000001_3004_E010 0x0001_0000_0001_0000).onMe fun k =>
    { k with mem := halves (0x4B80 :: List.replicate 19 0x3F80) (21 * 1024) (halves (List.replicate 20 0x3F80) (20 * 1024) k.mem) }).onSelf fun a =>
      { a with accFmt := 0, rings := a.rings.map fun r => { r with rows := 1, rowb := 2, qpop := 1 } }
theorem meets_MultiplyAccumulateSums : (groups.core 0).mq.length = 1 ∧ (groups.core 0).bad = [] ∧ mmaOp 0x10 = some ⟨.bf16, .bf16, 128, 16⟩ ∧
    (match groups.me.mmaOperands (groups.me.mq.headD ⟨0, 0, 0, 0, 0, 0, 0, 0, 0⟩) ⟨.bf16, .bf16, 128, 16⟩ with
      | .ok (xs, ys) => decide (xs.length = 1 ∧ ys.length = 1)
      | .error _ => false) = true := by decide +kernel
theorem meets_MultiplyAccumulateSums_result : afterTile (.mmaBf16 0 0) groups 0 0 0 = (0, 0, 0x4B80000A) ∧
    ((ran (.mmaBf16 0 0) groups).self.ring 0).cnt = 0 := by decide +kernel
/-- Signed bytes: 3 · 5 + (−2) · 7. -/
theorem meets_MultiplyAccumulateSums_s8 : afterTile (.mmaS8s8 0 0) ((tiled (0x38 + 2 ^ 18 + 2 ^ 28) (2 ^ 16 + 2 ^ 48)).onMe fun k =>
    { k with mem := (k.mem.writeN (20 * 1024) [3, 0xFE]).writeN (21 * 1024) [5, 7] }) 0 0 0 = (0, 0, 1) := by decide +kernel
theorem meets_MultiplyAccumulateSums_group : (([(false, 1, 0), (true, 1, 0)] : List (Bool × Nat × Int)).map fun p => (if p.1 then -1 else 1) * (p.2.1 : Int)).sum = 0 ∧
    groupSum [some (.fin false 1 0), some (.fin true 1 0)] = 0 ∧ groupSum [some (.fin true 0 0)] = 0x80000000 := by decide +kernel

/-- The pod with a message waiting at actor 1. -/
def woken : State := pod.onCore 0 fun k => k.placeMsg 0 5 msgA
theorem meets_BestSelected : (woken.core 0).select (woken.cceil 0) = some ⟨3, 0, 5, 0, 0⟩ := by decide +kernel
theorem meets_FiringEvents_start : let s := woken
    let t := ran (.firingStart 0) s
    s.coreLive 0 = true ∧ (s.pkg 0).runs = true ∧ (s.core 0).firings < 8 ∧ (s.core 0).resumable = none ∧ (s.core 0).idleSet = some 0 ∧
      (s.core 0).select (s.cceil 0) = some ⟨3, 0, 5, 0, 0⟩ ∧ ((s.core 0).actor 0).inherit = none ∧
      (t.th.busy, t.th.pc, t.th.sendleft, t.th.readX 10, t.th.readX 11, t.th.readX 12, t.self.state) = (true, 128, 4, 1, 0, nameOf 1, .firing) := by
  decide +kernel
/-- That pod with its clocks at a cycle. -/
def atCycle (n : Nat) (s : State) : State := { s.onPkg 0 (fun p => { p with cycle := n }) with wall := n }
theorem meets_FiringEvents_ageing : let s := atCycle 65541 woken
    let a := s.actor 0 0
    a.state = .idle ∧ a.runnable = true ∧ 0 < a.eprio ∧ a.agedAt + 65536 ≤ s.cycle 0 ∧
      ((ran (.priorityAgeing 0 0) s).actor 0 0).eprio = 2 ∧ ((ran (.priorityAgeing 0 0) (atCycle 65540 woken)).actor 0 0).eprio = 3 := by decide +kernel
theorem meets_FiringEvents_watchdog : let s := (firing []).onTh fun t => { t with wdogleft := 0 }
    let t := ran (.watchdogExpiry 0 0) s
    s.th.busy = true ∧ s.self.state = .firing ∧ s.self.tsetf = 0 ∧ (t.actor 0 0).dying = some { reason := 0x22, sub := 0, detail := 0 } := by decide +kernel
theorem meets_FiringEvents_timer : let s := atCycle 100 (pod.onActor 0 0 fun a => { a with timer := 0x8000000000000064 })
    let t := ran (.timerExpiry 0 0) s
    (s.actor 0 0).state.mortal = true ∧ (s.actor 0 0).timer.toNat % 2 ^ 63 ≤ s.cycle 0 ∧ (t.actor 0 0).timer = 100 ∧ ((t.core 0).chan 0 3).cnt = 1 := by
  decide +kernel
/-- A gated flock of actors 1 and 2. -/
def gatedPod : State := { pod with flocks := [(0x2A, { flockA with gate := true, nfield := 1 })] }.onActor 0 0 fun a => { a with state := .gated, gateName := nameOf 1 }
theorem meets_FiringEvents_gate : let s := gatedPod
    let t := s.onActor 1 0 fun a => { a with state := .gated, gateName := nameOf 2 }
    let waits := fun (s : State) => s.dir.map fun p => (s.gateMates p.2.name (nameOf 1), p.2.state, (s.liveActor p.2.name).map fun m => (s.actor m.1 m.2).state)
    waits s = [(true, 1, some .gated), (true, 1, some .idle)] ∧ waits t = [(true, 1, some .gated), (true, 1, some .gated)] ∧
      ((ran (.gateOpen 0 0) t).actor 0 0).state = .idle ∧ ((ran (.gateOpen 0 0) t).actor 1 0).state = .idle ∧
      ((ran (.gateOpen 0 0) s).actor 0 0).state = .gated := by decide +kernel
theorem meets_FiringEvents_deferred : let s := (firing []).onTh fun t => { t with deferred := some ⟨0x8000180600000002, 0x2000, 4, 0⟩, pc := 8 }
    (s.th.deferred).isSome = true ∧ ((ran (.deferredTrap 0 0) s).th.cause, (ran (.deferredTrap 0 0) s).th.faultpc) = (0x8000180600000002, 4) := by decide +kernel
theorem meets_FiringEvents_checker : let s := firing []
    s.coreLive 0 = true ∧ s.th.busy = true ∧ s.th.stopping = false ∧ (s.me.recovs).length < 15 ∧ coreIsMem 0 = false ∧
      (ran (.checkerReexecution 0 0 true) s).me.recovs = [0] ∧ (ran (.checkerReexecution 0 0 false) s).me.gone = true ∧
      ((ran (.checkerReexecution 0 0 false) s).actor 0 0).dying = some { reason := 0x21, sub := 0, detail := 0 } := by decide +kernel
theorem meets_FiringEvents_levelling : let s := atCycle 8192 pod
    (s.pkg 0).runs = true ∧ (s.pkg 0).levelled < (s.pkg 0).cycle / 8192 ∧ ((ran (.loadLevelling 0) s).pkg 0).levelled = 1 := by decide +kernel

theorem meets_Preemptions_request : let s := pod.onCore 0 fun k => { (firing []).me with next := k.next }
    let t := ran (.preemptionRequest 0 (.slot 0)) s
    s.wantsHold 0 (.slot 0) = true ∧ s.coreLive 0 = true ∧ (HoldSource.slot 0 ∉ s.me.holds) ∧ t.me.holds = [.slot 0] ∧ t.th.stopping = true ∧
      t.dropsHold 0 (.slot 0) = true ∧ (ran (.preemptionWithdraw 0 (.slot 0)) t).th.stopping = false := by decide +kernel
/-- A stopped firing with a value in x31. -/
def stopped : State := ((firing [(31, 0x77)]).onTh fun t => { t with stopping := true, pc := 12 }).onMe fun k => { k with holds := [.slot 0] }
theorem meets_Preemptions_save : let s := stopped
    s.me.freeSave = some 0 ∧ s.th.busy = true ∧ s.th.stopping = true ∧ s.th.deferred = none ∧ s.me.mq = [] := by decide +kernel
theorem meets_Preemptions_resume : let s := (pod.onActor 0 0 fun a => { a with state := .preempted, save := 7 }).onMe fun k =>
      { k with mem := (k.mem.write64 0x5F800 12).write64 0x5F8F8 0x77 }
    let t := ran (.resumption 0) s
    s.coreLive 0 = true ∧ (s.pkg 0).runs = true ∧ s.me.idleSet = some 0 ∧ s.me.resumable = some 0 ∧ (t.actor 0 0).state = .firing ∧
      (t.th.pc, t.th.readX 31, t.th.busy) = (12, 0x77, true) := by decide +kernel
theorem meets_Preemptions_context : let k := stopped.me
    (k.thread 0).slot = 0 ∧ (k.actor 0).fid = (k.thread 0).fid ∧ (k.actor 0).handler = (k.thread 0).handler ∧ (k.thread 0).busy = true ∧
      (k.thread 0).stopping = true ∧ (k.thread 0).stalled = false ∧ (k.thread 0).waiting = false := by decide +kernel

/-- The stocked pod, its flock naming the image. -/
def nest : State := { stocked pod with flocks := [(0x2A, { flockA with image := BitVec.ofNat 64 imgGa })] }
/-- A spawn of name n. -/
def spawnOf (n : Nat) (filled : Bool) : Spawn := ⟨3, nameOf n, Vector.replicate 8 0, nameOf 1, 1, false, 0, 0, [], filled, 0, 0, 0⟩
theorem meets_SpawnEvents_release : let s := nest.onCore 0 fun k => { k with spawns := [spawnOf 5 false] }
    let t := ran (.spawnRelease 0 3) s
    s.me.spawns.find? (·.id == 3) = some (spawnOf 5 false) ∧ s.me.spawnReleased (spawnOf 5 false) = true ∧ (s.flock (flockOf (nameOf 5))).isSome = true ∧
      s.dirEntry (nameOf 5) = none ∧ (t.dirEntry (nameOf 5)).map (·.state) = some 3 ∧ t.me.spawns = [spawnOf 5 true] := by decide +kernel
theorem meets_SpawnEvents_refusals : let s := nest.onCore 0 fun k => { k with spawns := [spawnOf 2 false] }
    let f := ({ nest with flocks := [(0x2A, { flockA with maxlive := 2 })] } : State).onCore 0 fun k => { k with spawns := [spawnOf 5 false] }
    (s.dirEntry (nameOf 2)).isSome = true ∧ (ran (.spawnRelease 0 3) s).me.spawns = [] ∧ f.dirEntry (nameOf 5) = none ∧ f.flockLive (flockOf (nameOf 5)) = 2 ∧
      (ran (.spawnRelease 0 3) f).me.spawns = [] ∧ (ran (.spawnRelease 0 3) f).serial = 10 := by decide +kernel
theorem meets_SpawnEvents_start : let s := nest.onCore 0 fun k => { k with spawns := [spawnOf 5 true] }
    let t := ran (.spawnStart 0) s
    s.coreLive 0 = true ∧ (s.image imgGa 0x2A).isSome = true ∧ s.me.freeSlot = some 1 ∧ (t.actor 0 1).state = .loading ∧ (t.actor 0 1).name = nameOf 5 ∧
      t.me.spawns = [] ∧ ((ran (.actorLoadComplete 0 1) t).actor 0 1).state = .idle := by decide +kernel
/-- The steward's feed of name 5, by a restart of its scope or not. -/
def fedTo (rst : Bool) : State :=
  (nest.onPkg 0 fun p => { p with grants := [(7, { dies := [0], clusters := [0] })] }).post 0 (.feed { spawnOf 5 true with rst := rst } 0)
theorem meets_SpawnEvents_feed : let s := fedTo false
    s.stewardPlace 0 (nameOf 5) = some 5 ∧ (s.pkg 0).quiesced 2 = false ∧ (s.startActor 5 (spawnOf 5 true) (s.spawnImage (spawnOf 5 true))).isSome = true ∧
      (s.packet 9).isSome = true ∧ ((ran (.stewardFeed 9) s).actor 5 0).name = nameOf 5 ∧ ((ran (.stewardFeed 9) s).core 5).spawns = [] := by decide +kernel
theorem meets_SpawnEvents_list : let s := fedTo true
    s.stewardPlace 0 (nameOf 5) = some 5 ∧ (s.core 5).spawns.length < 32 ∧
      ((ran (.stewardFeed 9) s).core 5).spawns = [{ spawnOf 5 true with rst := true, id := (s.core 5).next }] := by decide +kernel
/-- A restart of name 5, pending, with a restart record that holds a digest. -/
def bell (d : BitVec 384) : State :=
  { (nest.post 0 (.restart ⟨nameOf 5, 0, 0, nameOf 1, 4, []⟩)).setDir { entryOf 5 0 0 with state := 3, inc := 0, rrec := 4 } with
    rrecs := [(4, ⟨BitVec.ofNat 64 imgGa, d, Vector.replicate 8 0, nameOf 1, 1⟩)] }
theorem meets_SpawnEvents_bellwether : let s := bell 0
    (s.packet 9).isSome = true ∧ (s.pkg 0).runs = true ∧ (s.dirEntry (nameOf 5)).map (·.state) = some 3 ∧ (s.image imgGa 0x2A).isSome = true ∧
      s.me.freeSlot = some 1 ∧ s.scopes = [] := by decide +kernel
/-- The measurement does not depend on the record: a record with the image's own digest is one that the restart accepts, digest 0 one that it
refuses where the image measures otherwise. -/
theorem meets_SpawnEvents_measured : ∀ i : Image, (bell ((bell 0).measure i)).measure i = (bell 0).measure i ∧
    ((bell ((bell 0).measure i)).rrecs.find 4).map (·.digest) = some ((bell 0).measure i) := fun _ => ⟨rfl, rfl⟩

/-- A message to actor 1 that no send entry answers for. -/
def freeMsg (s : State) : State := s.post 0 (.message msgA (.free (nameOf 2) 1 0) none)
theorem meets_MessageEvents_free : let s := freeMsg pod
    msgA.isRequest = false ∧ s.reaches 7 false (nameOf 1) = true ∧ isService (nameOf 1) = false ∧ isGateway (nameOf 1) = false ∧
      s.slotServed (s.nameSlot (nameOf 1)) = true ∧ (s.dirEntry (nameOf 1)).map (fun e => (e.state, e.core, e.slot)) = some (1, 0, 0) ∧
      (s.actor 0 0).name = nameOf 1 ∧ (s.actor 0 0).state.accepts = true ∧ msgA.named = false ∧ s.cut 7 = false ∧ (s.pkg 0).runs = true ∧
      (s.core 0).chanFull 0 0 = false ∧ (((ran (.messageArrival 9) s).core 0).chan 0 0).cnt = 1 := by decide +kernel
theorem meets_MessageEvents_full : let s := freeMsg (pod.onCore 0 fun k => k.setChan 0 0 ⟨0, 4, 3, 4⟩)
    let t := ran (.messageArrival 9) s
    (s.core 0).chanFull 0 0 = true ∧ ((t.core 0).chan 0 0).cnt = 4 ∧ (t.packet 9).isSome = false ∧ (t.packet 10).isSome = true := by decide +kernel
/-- Actor 1 has sent a message to actor 2; its answer is under way. -/
def sentTo2 : State := ran (.send 5 6 0) (firing [(5, nameOf 2)])
theorem meets_MessageEvents_entry : let s := sentTo2
    let t := ran (.messageArrival 9) s
    (s.packet 9).isSome = true ∧ s.me.sends.map (fun e => (e.id, decide (e.phase = .waiting), s.me.mayLeave e)) = [(s.me.next - 1, true, true)] ∧
      s.me.cached (nameOf 2) = none ∧ s.me.sends.map (fun e => s.me.staysBehind e 1) = [false] ∧ ((t.core 1).chan 0 0).cnt = 1 ∧
      t.me.sends.map (fun e => decide (e.phase = .sent)) = [true] ∧ (t.packet 10).map (·.pay) = some (.sendAnswer 0 (s.me.next - 1) none .placed) := by
  decide +kernel
/-- Its entry has left for slot 0 of core 1, with an older one of number 0 to that core in a phase. -/
def leftTo2 (older : Option SendPhase) (phase : SendPhase := .flying) : State :=
  sentTo2.onCore 0 fun k =>
    { k with sends := k.sends.flatMap fun e =>
        let f : SendEntry := { e with phase := phase, core := 1, dest := some 0, seq := 1, left := true }
        f :: (older.map fun ph => { f with id := e.id + 9, phase := ph, seq := 0, busySince := if ph = .busy then some 0 else none }).toList }
theorem meets_MessageEvents_left : let f := fun older ph =>
      let s := leftTo2 older ph
      let t := ran (.messageArrival 9) s
      (s.me.sends.map fun e => (s.me.early e, s.me.behindBusy e), t.me.sends.map (fun e => e.phase), ((t.core 1).chan 0 0).cnt)
    f none .flying = ([(false, false)], [.sent], 1) ∧ f none .stored = ([(false, false)], [.sent], 1) ∧
      f (some .flying) .flying = ([(true, false), (false, false)], [.stored, .flying], 0) ∧
      f (some .busy) .flying = ([(true, true), (false, false)], [.busy, .busy], 0) ∧ (leftTo2 none).storeUse 0 = 0 := by decide +kernel
theorem meets_MessageEvents_order : (freeMsg pod).hostWaits 9 msgA.sender msgA.dst msgA.chan false = false := by decide +kernel
/-- Its entry in a phase, sent first at cycle 0 and with tag 1, while an answer comes back. -/
def answered2 (ph : SendPhase) (now : Nat) (a : MsgAnswer) : State :=
  atCycle now ((sentTo2.onCore 0 fun k => { k with sends := k.sends.map fun e => { e with phase := ph, tag := some 1 } }).post 0
    (.sendAnswer 0 (sentTo2.me.next - 1) (some 1) a))
theorem meets_MessageEvents_answers : let f := fun a => let t := ran (.sendAnswer 10) (answered2 .sent 0 a); (t.me.sends.length, t.serial, (t.packet 10).isSome)
    f .placed = (0, 11, false) ∧ f (.noproc 1) = (0, 12, false) ∧ f (.overflow 0 1) = (0, 12, false) ∧ (f .stale).1 = 1 ∧
      (answered2 .sent 0 .placed).me.sends.length = 1 ∧ ((answered2 .sent 0 .placed).packet 10).isSome = true := by decide +kernel
theorem meets_MessageEvents_times : let f := fun (i : Instr) ph now => let t := ran i (answered2 ph now .placed); (t.me.sends.map fun e => e.phase, t.serial)
    f (.messageResend 9) .sent 18799 = ([.sent], 11) ∧ f (.messageResend 9) .sent 18800 = ([.resent], 11) ∧
      f (.messageIndeterminate 9) .resent 46999 = ([.resent], 11) ∧ f (.messageIndeterminate 9) .resent 47000 = ([], 12) ∧
      f (.messageBusyResend 9) .busy 255 = ([.busy], 11) ∧ f (.messageBusyResend 9) .busy 256 = ([.waiting], 11) ∧
      f (.deliveryTimeout 9) .busy 1048575 = ([.busy], 11) ∧ f (.deliveryTimeout 9) .busy 1048576 = ([], 12) := by decide +kernel
/-- A Kill of actor 2 by actor 1 that a pending name has made wait. -/
def waitingKill (busy : Bool) (now : Nat) : State := atCycle now (pod.post 0 (.kill (nameOf 2) (nameOf 1) 1 7 false 2 0 busy))
theorem meets_MessageEvents_kills : let f := fun (i : Instr) now => ((ran i (waitingKill true now)).packet 9).map (·.pay)
    f (.messageBusyResend 9) 256 = some (.kill (nameOf 2) (nameOf 1) 1 7 false 2 0 false) ∧ f (.messageBusyResend 9) 255 = some (.kill (nameOf 2) (nameOf 1) 1 7 false 2 0 true) ∧
      f (.deliveryTimeout 9) 1048576 = none := by decide +kernel

/-- DETAIL of a signal under way. -/
def detailAt (s : State) (n : Nat) : Option W64 :=
  (s.packet n).bind fun p => match p.pay with
    | Payload.signal x => some x.detail
    | _ => none
/-- A parcel of one granule from actor 1 to channel 1 of actor 2. -/
def parcelOf (ph : ParcelPhase) : Parcel :=
  { giver := nameOf 1, giverInc := 1, giverCore := 0, giverEntry := some 1, domain := 7, base := 8, size := 1, kind := 0, rd := true, wr := true
    skew := false, pitch := 0, dst := nameOf 2, chan := 1, tag := 5, phase := ph }
/-- That parcel under way in the pod. -/
def parcelPod (p : Parcel) : State := pod.post 0 (.parcel p)
theorem meets_ParcelEvents_asks : let s := parcelPod (parcelOf .asking)
    let t := ran (.parcelReservation 9) s
    s.reachMailbox 7 (nameOf 2) = .actor 1 0 ∧ (s.core 1).chanFull 0 1 = false ∧ (s.core 1).freeEntry = some 4 ∧ (s.core 1).findRun 1 = some 1 ∧
      ((t.core 1).regions.get {} 4).pend = true ∧ (t.actor 1 0).resv = #v[0, 1, 0, 0] := by decide +kernel
theorem meets_ParcelEvents_refusals : let f := fun g => detailAt (ran (.parcelReservation 9) ((parcelPod (parcelOf .asking)).onCore 1 g)) 10
    f (fun k => k.setChan 0 1 ⟨4, 4, 0, 4⟩) = some 0x101 ∧
      f (fun k => { k with regions := (k.regions.put 1 { valid := true, base := 1, size := 11, owner := 5 }).put 5 { valid := true, base := 17, size := 351, owner := 5 } }) = some 0x103 ∧
      f (fun k => { k with regions := k.regions ++ (List.range 244).map fun i => (i + 4, { valid := true, base := 100, size := 1 }) }) = some 0x102 := by decide +kernel
/-- The parcel reserved at entry 4 of actor 2's core, and there copied. -/
def reserved (copied : Bool) : State :=
  (parcelPod { parcelOf .reserved with rcore := 1, rslot := 0, rinc := 1, rentry := 4, copied := copied, body := [1, 2], giverEntry := none }).onCore 1 fun k =>
    { k with regions := k.regions.put 4 { valid := true, tomb := true, pend := true, base := 20, size := 1, owner := 64, rd := true, wr := true, decl := 15 } }
theorem meets_ParcelEvents_arrives : let s := reserved true
    let t := ran (.parcelArrival 9) s
    (s.packet 9).isSome = true ∧ (s.actor 1 0).name = nameOf 2 ∧ (s.actor 1 0).incarn = 1 ∧ (s.actor 1 0).state.accepts = true ∧
      ((t.core 1).regions.get {} 4).owner = 0 ∧ ((t.core 1).regions.get {} 4).tomb = false ∧ ((t.core 1).chan 0 1).cnt = 1 ∧ t.packet 9 = none := by
  decide +kernel
theorem meets_ParcelEvents_handOver : let s := reserved false
    let t := ran (.parcelHandOver 9) s
    (s.packet 9).isSome = true ∧ (t.core 1).mem.read (20 * 1024 + 1) = 2 ∧ (t.packet 9).isSome = true := by decide +kernel
/-- An MDRAIN of one element to region 1 of actor 2, at an offset. -/
def drained (off : Nat) (t : Nat) : State := pod.post 0 (.drain
  { name := nameOf 1, inc := 1, core := 0, slot := 0, domain := 7, dst := nameOf 2, tag := 5, chan := 1, tridx := t, off := off, pitch := 4, fmt := 1
    m := 1, n := 1, unchk := false, rows := [[1, 2, 3, 4]], esize := 4 })
theorem meets_ParcelEvents_drain : let s := drained 4092 1
    let t := ran (.mdrainDelivery 9) s
    s.reachMailbox 7 (nameOf 2) = .actor 1 0 ∧ (s.engine 0).gone = false ∧ (s.core 1).chanFull 0 1 = false ∧ ((s.core 1).region 1).liveOf 0 = true ∧
      (s.core 1).bad = [] ∧ (t.core 1).mem.read 0x2FFF = 4 ∧ ((t.core 1).chan 0 1).cnt = 1 ∧ t.packet 9 = none := by decide +kernel
theorem meets_ParcelEvents_drainRefused : let f := fun s => detailAt (ran (.mdrainDelivery 9) s) 10
    f (drained 4096 1) = some (0x109 + 4096 * 2 ^ 32) ∧ f (drained 0 2) = some 0x109 ∧ f ((drained 0 1).onCore 1 fun k => k.setChan 0 1 ⟨4, 4, 0, 4⟩) = some 0x101 := by
  decide +kernel

/-- A signal of a kind and reason to actor 1 about actor 2. -/
def signalOf (kind reason : Nat) : Signal :=
  { dst := nameOf 1, inc := 1, kind := kind, reason := reason, sub := 0, ref := 0, subject := nameOf 2, origpkg := 0, origdie := 0, sinc := 1, detail := 9, stamp := 8 }
/-- Channel 3 of actor 1 with one signal in it. -/
def c3With (g : Signal) : Core := (coreOf 1).placeSignal 0 5 g
theorem meets_SignalPlacement : ((c3With (signalOf 5 0x30)).chan 0 3).cnt = 1 ∧
    (((c3With (signalOf 5 0x30)).placeSignal 0 6 (signalOf 5 0x30)).chan 0 3).cnt = 1 ∧
    (((c3With (signalOf 6 0x52)).placeSignal 0 6 { signalOf 6 0x52 with detail := 10 }).mem.read64 ((coreOf 1).entryAt 0 12 + 40)) = 10 ∧
    (((c3With (signalOf 6 0x52)).placeSignal 0 6 (signalOf 6 0x50)).chan 0 3).cnt = 2 ∧
    ((((coreOf 1).setChan 0 3 ⟨12, 12, 0, 11⟩).placeSignal 0 6 (signalOf 4 0x33)).actor 0).dying = none := by decide +kernel
theorem meets_SignalPlacement_full : ((((coreOf 1).setChan 0 3 ⟨12, 12, 0, 12⟩).placeSignal 0 6 (signalOf 4 0x33)).actor 0).dying =
    some { reason := 0x32, sub := 0, detail := 3 } := by decide +kernel

/-- A signal to actor 1 under way, and actor 1 with a link to actor 2 and a monitor of it. -/
def arriving (g : Signal) : State := (pod.post 0 (.signal g)).onCore 0 fun k =>
  { k with links := [(0, ⟨1, 0, 0, nameOf 2, 1⟩), (1, ⟨2, 0, 7, nameOf 2, 1⟩)] }
theorem meets_Arrivals_heard : let s := arriving (signalOf 4 0x33)
    (s.packet 9).isSome = true ∧ s.who (nameOf 1) = .actor 0 0 ∧ (s.actor 0 0).incarn = (signalOf 4 0x33).inc ∧ (s.pkg 0).runs = true ∧ s.cut 7 = false ∧
      (((ran (.signalArrival 9) s).core 0).chan 0 3).cnt = 1 ∧ s.who (nameOf 77) = .nobody ∧
      (((ran (.signalArrival 9) (arriving { signalOf 4 0x33 with inc := 2 })).core 0).chan 0 3).cnt = 0 := by decide +kernel
theorem meets_Arrivals_links : let f := fun (i : Instr) g (x : Bool) =>
      let t := ran i ((arriving g).onActor 0 0 fun a => { a with trapexit := x })
      (((t.core 0).chan 0 3).cnt, (t.core 0).links.length, (t.actor 0 0).dying.map (·.reason))
    f (.exitArrival 9) (signalOf 1 2) true = (1, 1, none) ∧ f (.exitArrival 9) (signalOf 1 2) false = (0, 1, some 3) ∧
      f (.exitArrival 9) (signalOf 1 1) false = (0, 1, none) ∧ f (.exitArrival 9) { signalOf 1 2 with subject := nameOf 3 } false = (0, 2, none) ∧
      f (.downArrival 9) { signalOf 2 0 with ref := 7 } false = (1, 1, none) := by decide +kernel
/-- A CHILD_EXIT of a child of actor 1 that a SOLE rule of a mode covers. -/
def child (mode maxr reason : Nat) (stamps : List Nat) : State :=
  atCycle 10 ((arriving { signalOf 3 reason with subject := nameOf 5, core := 1 }).onCore 0 fun k =>
    { k with sups := [(0, ⟨0, 0, 0x2A, 0, 9, mode, 0, maxr, 1000, stamps⟩)] })
theorem meets_Arrivals_children : let f := fun s =>
      let t := ran (.childExitArrival 9) s
      (((t.core 0).chan 0 3).cnt, (t.core 0).sups.map fun p => p.2.stamps, (t.actor 0 0).state, (t.packet 10).isSome)
    (child 0 2 2 []).inScope (nameOf 1) (nameOf 5) = false ∧ ((child 0 2 2 []).me.ruleOf 0 (nameOf 5)).isSome = true ∧ f (child 0 2 2 [5]) = (0, [[10, 5]], .idle, true) ∧
      (f (child 0 2 2 [5, 3])).2.2.1 = .dying ∧ f (child 2 2 2 []) = (1, [[]], .idle, false) ∧ f (child 0 2 1 []) = (1, [[]], .idle, false) := by decide +kernel
theorem meets_Arrivals_noRule : let s := arriving { signalOf 3 2 with subject := nameOf 5 }
    (s.core 0).ruleOf 0 (nameOf 5) = none ∧ (((ran (.childExitArrival 9) s).core 0).chan 0 3).cnt = 1 := by decide +kernel
theorem meets_Arrivals_kill : let s := waitingKill false 0
    let g := { pod with dir := pod.dir.del (nameOf 2).toNat }.post 0 (.kill (nameOf 2) (nameOf 1) 1 7 false 2 0 false)
    let w := (pod.setDir { entryOf 2 1 0 with state := 3 }).post 0 (.kill (nameOf 2) (nameOf 1) 1 7 false 2 0 false)
    s.reach 7 false (nameOf 2) = .actor 1 0 ∧ ((ran (.killArrival 9) s).actor 1 0).dying.map (·.reason) = some 2 ∧ g.reach 7 false (nameOf 2) = .nobody ∧
      (ran (.killArrival 9) g).serial = 11 ∧ w.reach 7 false (nameOf 2) = .pending ∧
      ((ran (.killArrival 9) w).packet 9).map (·.pay) = some (.kill (nameOf 2) (nameOf 1) 1 7 false 2 0 true) := by decide +kernel
/-- A link request of actor 1 to a name. -/
def asking (op : LinkOp) (n : Nat) : State := pod.post 0 (.linkReq ⟨op, nameOf 1, 1, 0, 0, 7, nameOf n, 1, 4⟩)
theorem meets_Arrivals_requests : let f := fun s => let t := ran (.peerLinkRequest 9) s; ((t.core 1).links, t.serial)
    f (asking .link 2) = ([(0, ⟨1, 0, 4, nameOf 1, 1⟩)], 10) ∧ f (asking .monitor 2) = ([(0, ⟨3, 0, 4, nameOf 1, 1⟩)], 10) ∧ f (asking .link 3) = ([], 11) ∧
      f ((asking .link 2).onActor 0 0 fun a => { a with incarn := 2 }) = ([], 10) ∧
      f ((asking .unlink 2).onCore 1 fun k => { k with links := [(0, ⟨1, 0, 4, nameOf 1, 1⟩)] }) = ([], 10) := by decide +kernel

/-- Actor 1 dying of a REGION_DENY, linked to actor 2, with some memory. -/
def dyingPod (begun : Bool) : State := (pod.onActor 0 0 fun a =>
    { a with state := .dying, cl := 2, dying := some { reason := 0x13, sub := 2, detail := 5, begun := begun } }).onCore 0 fun k =>
  { k with links := [(0, ⟨1, 0, 0, nameOf 2, 1⟩)], mem := k.mem.write 0x2000 9 }
theorem meets_Deaths_begins : let t := ran (.death 0 0) (dyingPod false)
    ((t.actor 0 0).cl, (t.actor 0 0).dying.map (·.begun), (t.dirEntry (nameOf 1)).map (·.state)) = (0, some true, some 2) := by decide +kernel
/-- The EXIT of the example after R421. -/
theorem meets_Deaths_reclaims : let s := (dyingPod true).setDir { entryOf 1 0 0 with state := 2 }
    let t := ran (.deathReclaim 0 0) s
    s.quiet 0 0 { reason := 0x13, sub := 2, detail := 5, begun := true } = true ∧ s.restartFollows 0 (nameOf 1) 0x13 = false ∧ t.actor 0 0 = {} ∧
      (t.core 0).mem.read 0x2000 = 0 ∧ (t.core 0).links = [] ∧ t.dirEntry (nameOf 1) = none ∧
      ((t.packet 9).bind fun p => match p.pay with
        | Payload.signal g => some (g.words[0], g.words[3])
        | _ => none) = some (0x0113020000000000, 5) := by decide +kernel

/-- One access of core 0 at a commons word, sent. -/
def accessOf (op : AccOp) (ops : List W64) : Access :=
  { id := 3, slot := 0, name := nameOf 1, tset := 0, fid := 1, order := 3, op := op, ga := ga1 + 0x410, ops := ops, chan := 1, dest := 5, owner := 64
    domain := 7, inc := 1 }
/-- The bank after an access at a word that holds `c`, and the access's answer. -/
def atBank (c : CWord) (op : AccOp) (ops : List W64) (b : Bank := {}) : CWord × Bank × Option AccAnswer :=
  let s := ({ firing [] with words := [((ga1 + 0x410) / 8, c)], banks := [(256, b)] } : State).onMe fun k => { k with accs := [accessOf op ops] }
  let t := s.applyAtBank 64 0 (accessOf op ops)
  (t.word ((ga1 + 0x410) / 8), t.bank 256, t.me.accs.head?.bind (·.answer))
/-- A full word with a value and a version. -/
def full (v : W64) (n : BitVec 16) : CWord := { data := v, ver := n, hasval := true }
/-- The example after R291, cycle by cycle. -/
theorem meets_BankOperations_example : let w := (ga1 + 0x410) / 8
    (atBank {} .defer [nameOf 2, 0x420003]).2.1.conts = [⟨w, 3, .deferral (nameOf 2) 1 0x42 (nameOf 1) 1 7⟩] ∧
      (atBank {} .storeNl [5]).1 = full 5 1 ∧ (atBank {} .storeNl [5]).2.1.shadow = [] ∧ (atBank (full 5 1) .storeNh [0xA]).1 = full 0xA5 2 ∧
      (atBank (full 5 1) .storeNh [0xA]).2.1.shadow = [⟨w, 1, 5⟩] ∧
      (let r := atBank (full 0xA5 2) (.atom .cas) [1, 0xA5] { conts := [⟨w, 3, .deferral (nameOf 2) 1 0x42 (nameOf 1) 1 7⟩] }
       r.1 = full 1 3 ∧ r.2.1.conts = [] ∧ r.2.1.shadow = [⟨w, 2, 0xA5⟩] ∧ r.2.2 = some (.value [0xA5] 2)) ∧
      (atBank (full 1 3) (.atom .cas) [7, 0xA5]).1 = full 1 3 ∧
      (atBank (full 1 3) .loadEq [2] { shadow := [⟨w, 2, 0xA5⟩] }).2.2 = some (.value [0xA5] 2) := by decide +kernel
theorem meets_BankOperations_loads : (atBank (full 5 1) .loadGe [1]).2.2 = some (.value [5] 1) ∧ (atBank (full 5 1) .loadGe [2]).2.1.conts.length = 1 ∧
    (atBank (full 5 9) .loadEq [3]).2.2.isSome = true ∧ (atBank { full 5 9 with floor := 4 } .loadEq [3]).2.2 = some (.fault 0x16 0 3) ∧
    (atBank (full 5 1) .loadEq [32769]).2.1.conts = [] ∧ (atBank (full 5 1) .loadEq [32768]).2.1.conts.length = 1 ∧
    (atBank { full 5 9 with poison := true } .load []).2.2 = some (.dataError 1 (BitVec.ofNat 64 (ga1 + 0x410))) ∧
    (atBank { full 5 9 with floor := 4 } .ver []).2.2 = some (.value [0x8001000400000009] 9) ∧
    (atBank (full 5 40000) .storeD [6]).2.1.shadow = [] ∧ (atBank (full 5 30000) .storeD [6]).2.1.shadow = [⟨(ga1 + 0x410) / 8, 30000, 5⟩] ∧ (atBank (full 5 9) .recl [12]).1.floor = 9 ∧
    (atBank (full 5 9) .recl [8]).1.floor = 8 := by decide +kernel
theorem meets_BankOperations_trigger : let w := (ga1 + 0x410) / 8
    let g : Trigger := ⟨w, nameOf 2, 1, 5, 6, nameOf 1, 1, 7⟩
    (atBank (full 5 9) .arm [nameOf 2, 5, 6]).2.1.trigs = [g] ∧ (atBank (full 5 9) (.atom .add) [-5] { trigs := [g] }).2.1.trigs = [] ∧
      (atBank (full 5 9) (.atom .add) [-4] { trigs := [g] }).2.1.trigs = [g] ∧ (atBank (full 5 9) (.atom .min) [-4]).1 = full (-4) 10 ∧
      (atBank (full 5 9) (.atom .max) [-4]).1 = full 5 10 := by decide +kernel

/-- The page of `ga1`, and the pod whose core 0 has one access to it while its owner holds the page in a state. -/
def page1 : Nat := ga1 / 65536
def accessing (f : Option FState) (a : Access) : State :=
  let s := (firing []).onMe fun k => { k with accs := [a], slots := k.slots.mapVals fun _ b => { b with cl := 1, cs := 1 } }
  { s with
    words := [((ga1 + 0x410) / 8, full 0x77 3)]
    owners := [(64, { homes := (f.map fun f => (page1, { fstate := f, newOwner := 65 })).toList })] }
/-- What the owner does with a load, or a store. -/
noncomputable def atOwner (f : Option FState) (op : AccOp) : Option AccAnswer :=
  (ran (.accessAtOwner 0 3) (accessing f (accessOf op [9]))).me.accs.head?.bind (·.answer)
theorem meets_AccessEvents_arrived : let s := accessing (some .mapped) (accessOf .load [])
    s.me.accs.find? (·.id == 3) = some (accessOf .load []) ∧ (s.pkg 0).lost = false ∧ (s.pkg 0).halted = false ∧
      (s.me.headAt (bankOf 64 (ga1 + 0x410))).map (·.id) = some 3 ∧ s.treatedAsWrite (accessOf .load []) = false ∧
      s.treatedAsWrite (accessOf .storeD [9]) = true ∧ (s.owner 64).svcs.length < 64 := by decide +kernel
theorem meets_AccessEvents_states : atOwner (some .mapped) .load = some (.value [0x77] 3) ∧ atOwner (some .replica) .load = some (.value [0x77] 3) ∧
    atOwner (some .replica) .storeD = some (.ticket 4 0 0) ∧ atOwner (some .cow) .storeD = some (.ticket 5 0 0) ∧
    atOwner (some .migrating) .load = some (.ticket 3 0 0) ∧ atOwner (some .absent) .load = some (.ticket 1 0 0) ∧
    atOwner (some .lost) .load = some .lost ∧ atOwner (some .moved) .load = some (.ticket 2 0 65) ∧ atOwner none .load = some (.fault 0x12 1 0) := by
  decide +kernel
/-- Behind an older access of its page that has met a ticket, and out of its turn at the bank. -/
theorem meets_AccessEvents_behind : let f := fun (b a : Access) =>
      (ran (.accessAtOwner 0 3) ((accessing (some .mapped) a).onMe fun k => { k with accs := [{ b with id := 2, order := 2 }, a] })).me.accs.map (·.phase)
    let a := accessOf .load []
    f { a with phase := .ticketed } a = [.ticketed, .held] ∧ f { a with phase := .busy, busied := true } { a with seq := 1 } = [.busy, .busy] ∧ f { a with busied := true } { a with seq := 1 } = [.sent, .busy] ∧
      f a { a with seq := 1 } = [.sent, .stored] ∧ f { a with phase := .stored } { a with seq := 1, phase := .stored } = [.stored, .stored] := by decide +kernel
/-- A page that no owner holds yet, with a record that names its home. -/
theorem meets_AccessEvents_hinted : let s := { accessing none (accessOf .load []) with
      hints := [(hintKeyOf ga1, ⟨0, 0, 2, 0, false, false, 1, 0, 0, 0, Vector.replicate 4 0, 7, 7, 7⟩)] }
    (s.hintOf page1).bind Hint.home = some 64 ∧ (s.owner 64).gone = false ∧
      (ran (.accessAtOwner 0 3) s).me.accs.head?.bind (·.answer) = some (.ticket 1 0 0) := by decide +kernel
theorem meets_AccessEvents_lostPackage : let s := (accessing none { accessOf .load [] with owner := 512 }).onPkg 1 fun p => { p with lost := true }
    (s.pkg 1).lost = true ∧ (ran (.accessAtOwner 0 3) s).me.accs.head?.bind (·.answer) = some .lost := by decide +kernel
/-- An access that has been answered. -/
def answeredWith (v : AccAnswer) : State := accessing (some .mapped) { accessOf .load [] with phase := .answered, answer := some v }
theorem meets_AccessEvents_answers : let s := (answeredWith (.value [0x55] 3)).onTh fun t => t.clearX 5
    let t := ran (.accessAnswer 0 3) s
    s.me.threadOf 1 = some 0 ∧ s.th.hereX 5 = false ∧ (t.th.readX 5, t.th.hereX 5, t.self.cl, t.me.accs.length) = (0x55, true, 0, 0) ∧
      (ran (.accessAnswer 0 3) (answeredWith (.fault 0x16 0 3))).th.deferred.isSome = true := by decide +kernel
theorem meets_AccessEvents_replays : let s := accessing (some .mapped) { accessOf .load [] with phase := .answered, answer := some (.value [0x55] 3), replay := true }
    ((ran (.replayAnswer 0 3) s).th.readX 5, (ran (.replayAnswer 0 3) s).me.accs.length) = (0x55, 0) := by decide +kernel
theorem meets_AccessEvents_times : let f := fun (i : Instr) a now => let t := ran i (atCycle now (accessing (some .mapped) a))
      (t.me.accs.map fun a => (decide (a.phase = .sent), a.resent), t.self.state)
    let b := { accessOf .load [] with phase := .busy }
    let g := { accessOf .load [] with tag := some 1 }
    f (.accessBusyResend 0 3) b 255 = ([(false, false)], .firing) ∧ f (.accessBusyResend 0 3) b 256 = ([(true, false)], .firing) ∧
      f (.accessRetry 0 3) g 18799 = ([(true, false)], .firing) ∧ f (.accessRetry 0 3) g 18800 = ([(true, true)], .firing) ∧
      f (.accessIndeterminate 0 3) g 46999 = ([(true, false)], .firing) ∧ f (.accessIndeterminate 0 3) g 47000 = ([], .firing) ∧
      (f (.ticketTimeout 0 3) { accessOf .load [] with phase := .ticketed } (2 ^ 20)).2 = .dying := by decide +kernel
theorem meets_AccessEvents_tickets : let t := ran (.faultTicket 0 3) (answeredWith (.ticket 1 8 0))
    t.me.accs.map (fun a => (decide (a.phase = .ticketed), a.tkt)) = [(true, 8)] ∧
      ((ran (.faultTicket 0 3) { answeredWith (.ticket 2 0 65) with
        hints := [(hintKeyOf ga1, ⟨0, 0, 2, 0, false, false, 1, 0, 0, 0, Vector.replicate 4 0, 7, 7, 7⟩)] }).me.accs.map fun a =>
          (a.owner, decide (a.phase = .ticketed))) = [(65, false)] := by decide +kernel
theorem meets_AccessEvents_notice : let s := (accessing (some .mapped) { accessOf .load [] with phase := .ticketed, tkt := 8, tktOwner := 64 }).post 0 (.notice 64 8 page1 64 0 [0])
    let s : State := { s with hints := [(hintKeyOf ga1, ⟨0, 0, 2, 0, false, false, 1, 0, 0, 0, Vector.replicate 4 0, 7, 7, 7⟩)] }
    (ran (.replayNotice 9) s).packet 9 = none ∧
      (ran (.replayNotice 9) s).me.accs.map (fun a => decide (a.phase = .ticketed)) = [false] := by decide +kernel
theorem meets_AccessEvents_refill : let s := { (firing []).onMe (fun k => { k with refills := [⟨1, 5, 7, false⟩] }) with
      hints := [(hintKeyOf ga1, ⟨0, 0, 2, 0, false, false, 1, 0, 0, 0, Vector.replicate 4 0, 7, 7, 0⟩)] }
    let n := { s with hints := [] }
    s.slotServed (s.rangeSlot 5) = true ∧ (s.refilled 0 7 1 5).isSome = true ∧ (ran (.plbRefill 0 ga1) s).me.plb.length = 1 ∧
      n.refilled 0 7 1 5 = none ∧ (ran (.plbRefill 0 ga1) n).me.refills.map (·.failed) = [true] := by decide +kernel

/-- A request of actor 1 on engine 0, with a grant in the engine's PLB, and its page mapped at memory core NM0. -/
def copying (j : Job) : State :=
  { (firing []).onSelf (fun a => { a with cp := 1, crResv := 1 }) with
    engines := [(0, { active := [j], plb := [⟨7, 0, 5, 7, 0, 0, 0, false, 0, 0⟩, ⟨7, 1, 5, 7, 0, 64, 64, false, 0, 0⟩] })]
    owners := [(0, { homes := [(ga0 / 65536, { fstate := .mapped })] }), (64, { homes := [(page1, { fstate := .mapped })] })]
    gmem := Memory.writeN [] ga0 [1, 2, 3, 4] }
/-- A job with its words 0 to 3. -/
def jobOf (w : List Nat) : Job :=
  { id := 2, core := 0, slot := 0, name := nameOf 1, tset := 0, fid := 1, w := Vector.ofFn fun i => BitVec.ofNat 64 ((w[i.val]?).getD 0) }

/-- The state of a request after an event: its phase, and bytes counted. -/
noncomputable def jobAfter (i : Instr) (s : State) : Option (JobPhase × Nat) :=
  match exec i s with
  | .next t => ((t.engine 0).active.find? (·.id == 2)).map fun j => (j.phase, j.bytes)
  | _ => none
/-- 8 bytes from DRAM into region 1, from region 1 to DRAM, and a fill of region 1 or of DRAM. -/
def toRegion : Job := jobOf [0x1010000000000000, ga0, 0, 8]
def toDram : Job := jobOf [0x2010000000000000, ga0, 0, 8]
/-- What becomes of the first burst of a request that reads. -/
noncomputable def ranAs (s : State) (j : Job) : String :=
  match (j.nextPiece (j.pieces {})).bind fun p => s.burstRun 0 j p.1 p.2 false [] false with
  | some (.done _ _ false) => "done"
  | some (.done ..) => "bad"
  | some (.fail ..) => "fail"
  | some (.wait _) => "wait"
  | none => "stays"
theorem meets_CopyServed_moves : let s := copying toRegion
    s.jobLives 0 0 (nameOf 1) = true ∧ (s.engine 0).gone = false ∧ (s.me.bad = []) ∧ (toRegion.nextPiece (toRegion.pieces {})).map (fun p => (p.1.ga, p.1.n, p.2)) =
      some (ga0, 8, 0) ∧ (match s.burstGo 0 toRegion ga0 false with | .go o _ => decide (o = some 0) | _ => false) = true ∧ ranAs s toRegion = "done" ∧
      jobAfter (.copyDramToRegion 0 2) s = some (.ended 0 0, 8) ∧ (ran (.copyDramToRegion 0 2) s).me.mem.read 0x2003 = 4 ∧
      jobAfter (.copyRegionToDram 0 2) (copying toDram) = some (.ended 0 0, 8) := by decide +kernel
theorem meets_CopyServed_refused : let s := { copying toRegion with engines := [(0, { active := [toRegion], plb := [⟨7, 0, 5, 0, 0, 0, 0, false, 0, 0⟩] })] }
    (match s.burstGo 0 toRegion ga0 false with | .fail 8 _ => true | _ => false) = true ∧ ranAs s toRegion = "fail" ∧ jobAfter (.copyDramToRegion 0 2) s = some (.ended 1 8, 0) := by
  decide +kernel
theorem meets_CopyServed_held : let s := { copying toRegion with owners := [(0, { homes := [(ga0 / 65536, { fstate := .migrating })] })] }
    s.pageAt 0 (ga0 / 65536) = .held .migrating ∧ ranAs s toRegion = "wait" ∧ jobAfter (.copyDramToRegion 0 2) s = some (.running, 0) := by
  decide +kernel
/-- The first burst of a request, with a burst under way or not, when its page's owner is another package's, or the host, or has no such page. -/
theorem meets_CopyServed_bursts :
    let f := fun (ga o now : Nat) (st : FState) (bs : List Burst) =>
      let j := { jobOf [0x1010000000000000, ga, 0, 8] with bursts := bs }
      let s : State := atCycle now { copying j with
        engines := [(0, { active := [j], plb := [⟨7, 0, 5, 7, 0, o, o, false, 0, 0⟩, ⟨7, 3, 0, 7, 0, 0, 0, false, 0, 0⟩] })]
        owners := [(0, { homes := [(ga0 / 65536, { fstate := st })] })] }
      match s.burstRun 0 j { ga := ga, n := 8, off := 0 } 0 false [] false with
      | some (.done ..) => "done"
      | some (.fail fc _) => if fc = 17 then "late" else "fail"
      | some (.wait t) => if (t.owner 0).svcs.length = 1 then "ticket" else "wait"
      | none => "stays"
    let b : Burst := { ga := ga0, write := false, phase := .sent, owner := 512, tag := some 0 }
    let h : Burst := { ga := 3 * 2 ^ 54, write := false, phase := .sent, host := true }
    f ga0 0 0 .mapped [] = "done" ∧ f ga0 512 0 .mapped [] = "wait" ∧ f (3 * 2 ^ 54) 0 0 .mapped [] = "wait" ∧ f ga0 0 0 .absent [] = "ticket" ∧
      f (2 ^ 57) 0 0 .mapped [] = "fail" ∧ f ga0 0 0 .mapped [{ b with phase := .ticketed }] = "stays" ∧
      f (3 * 2 ^ 54) 0 939999 .mapped [h] = "done" ∧ f (3 * 2 ^ 54) 0 940000 .mapped [h] = "stays" ∧ f ga0 512 18800 .mapped [b] = "wait" ∧
      f ga0 512 47000 .mapped [b] = "late" ∧ f ga0 512 46999 .mapped [{ b with phase := .answered }] = "done" ∧
      f ga0 512 47000 .mapped [{ b with phase := .answered }] = "late" := by decide +kernel
theorem meets_CopyServed_kinds : let c := fun w => copying (jobOf w)
    jobAfter (.fillRegion 0 2) (c [0xA010000000000000, 8, 0x55, 16]) = some (.ended 0 0, 16) ∧
      jobAfter (.fillGlobal 0 2) (c [0xA001000000000000, ga0, 0x55, 16]) = some (.ended 0 0, 16) ∧
      jobAfter (.commonsBulkRead 0 2) (c [0x8010000000000000, ga1, 0, 64]) = some (.ended 0 0, 64) ∧
      jobAfter (.commonsBulkWrite 0 2) (c [0x9010000000000000, ga1, 0, 64]) = some (.ended 0 0, 64) ∧
      jobAfter (.gather 0 2) (copying { jobOf [0x5010000000000000, ga0, 0, 8 * 2 ^ 16 + 8 * 2 ^ 32] with indices := [0, 2] }) = some (.running, 8) := by decide +kernel
theorem meets_CopyServed_record : let s := copying { toRegion with phase := .ended 1 8, faddr := 5 }
    let t := ran (.copyCompletion 0 2) s
    s.jobLives 0 0 (nameOf 1) = true ∧ ((t.actor 0 0).cp, (t.actor 0 0).crCnt, (t.actor 0 0).crResv) = (0, 1, 0) ∧ (t.engine 0).active = [] ∧
      t.me.mem.read64 (16 * 1024) = 0x8110080000000000 := by decide +kernel
theorem meets_CopyServed_times : let h := jobOf [0x1010000000000000, 3 * 2 ^ 54, 0, 8]
    let b := { toRegion with bursts := [{ ga := ga0, write := false, phase := .ticketed, tkt := 1 }] }
    let a := { h with bursts := [{ ga := 3 * 2 ^ 54, write := false, phase := .sent, host := true }] }
    jobAfter (.copyHostTimeout 0 2) (atCycle 939999 (copying a)) = some (.running, 0) ∧ jobAfter (.copyHostTimeout 0 2) (atCycle 940000 (copying a)) = some (.ended 1 0x0E, 0) ∧
      jobAfter (.copyHostTimeout 0 2) (atCycle 940000 (copying h)) = some (.running, 0) ∧
      jobAfter (.copyTicketTimeout 0 2) (atCycle (2 ^ 20 - 1) (copying b)) = some (.running, 0) ∧
      jobAfter (.copyTicketTimeout 0 2) (atCycle (2 ^ 20) (copying b)) = some (.ended 1 0x12, 0) := by decide +kernel
/-- A request at the head of core 0's copy FIFO, of a kind that exists and of one that does not, and one that a succession has cancelled. -/
theorem meets_CopyServed_starts : let f := fun (w : List Nat) (x : Bool) =>
      let s := (firing []).onMe fun k => { k with fifo := [⟨1, Vector.ofFn fun i => BitVec.ofNat 64 ((w[i.val]?).getD 0), 0, nameOf 1, 0, 1, none, x⟩] }
      ((s.copyOrder 0).find? (fun c => (s.canStart 0 c).isSome), ((ran (.copyStart 0) s).engine 0).active.map (·.phase), (ran (.copyStart 0) s).me.fifo.length)
    f [0x1010000000000000, ga0, 0, 8] false = (some 0, [.running], 0) ∧ f [0xB010000000000000, ga0, 0, 8] false = (some 0, [.ended 1 1], 0) ∧
      f [0x1010000000000000, ga0, 0, 8] true = (some 0, [.ended 2 0], 0) := by decide +kernel
/-- A stream request that fills the bound buffer, one word at a time, and ends where the stream is closed. -/
theorem meets_CopyServed_stream : let j := jobOf [0x7041000000000000, ga0, 16, 0]
    let s := fun (v : W64) => ((copying j).onMe fun k => { k with regions := k.regions.put 4 { valid := true, base := 20, size := 1, kind := kStream } }).onTh
      fun t => { t with st := #v[0, v, 0, 0] }
    (s 0x8004000000000000).me.bindingOf j = some 0x8004000000000000 ∧ jobAfter (.streamRequest 0 2) (s 0x8004000000000000) = some (.running, 8) ∧
      (s 0x8004000000000000).me.threadOf 1 = some 0 ∧ jobAfter (.streamRequest 0 2) (s 0xA004000000000000) = some (.ended 3 0, 0) := by decide +kernel
/-- A ring feed: one block for ring 0, and its tile published. -/
theorem meets_CopyServed_ring : let j := jobOf [0x6000000000000000, ga0, 32, 0]
    let s := fun (j : Job) => (copying j).onMe fun k => { (k.onActor 0 fun a => { a with rings := #v[{ valid := true, ridx := 4, rows := 1, rowb := 1, depth := 2, feed := 1 }, {}, {}, {}] }) with
      regions := k.regions.put 4 { valid := true, base := 20, size := 1, kind := kRing } }
    jobAfter (.ringFeed 0 2) (s j) = some (.filled, 32) ∧ jobAfter (.ringFeedPublish 0 2) (s { j with phase := .filled }) = some (.ended 0 0, 0) ∧
      ((ran (.ringFeedPublish 0 2) (s { j with phase := .filled })).self.ring 0).cnt = 1 := by decide +kernel

/-- A hint record of class 1, range 5: home at cluster 0's banks, a policy. -/
def hintOf1 (policy : Nat) : Hint := ⟨0, 0, 2, 0, false, false, policy, 0, 0, 0, Vector.replicate 4 0, 7, 7, 7⟩
/-- The pod with that record, owner 64's entry of the page, and a service of the page with a code. -/
def paged (policy : Nat) (e : Option HomeEntry) (code : Nat) : State :=
  { pod with
    hints := [(hintKeyOf ga1, hintOf1 policy)], words := [((ga1 + 0x410) / 8, full 0x77 3)]
    owners := [(64, { homes := (e.map fun e => (page1, e)).toList, svcs := if code = 0 then [] else [{ page := page1, tkt := 0, code := code, subs := [0] }], nextTkt := 1 })] }
/-- The state of the page at an owner, and whether a service of it remains, after an event. -/
noncomputable def pageAfter (i : Instr) (s : State) (o : Nat) : Option (Option FState × Nat) :=
  match exec i s with
  | .next t => some (((t.owner o).homes.find page1).map (·.fstate), (t.owner 64).svcs.length)
  | _ => none
theorem meets_PageEvents_mapping : let s := paged 1 (some {}) 1
    s.ownerLive 64 = true ∧ gaClass ga1 < 2 ∧ ((s.bindKey 64 7).map fun t => (t.pkg 0).keys.length) = some (s.pkg 0).keys.length ∧
      ((s.bindKey 0 7).map fun t => t.keyAt 0 7) = some 1 ∧ s.pageAt 64 page1 = .held .absent ∧ (s.freeFrame 64).isSome = true ∧ (hintOf1 1).home = some 64 ∧
      (hintOf1 1).duplicated page1 = false ∧ pageAfter (.firstMapping 64 page1) s 64 = some (some .mapped, 0) ∧
      (ran (.firstMapping 64 page1) s).word ((ga1 + 0x410) / 8) = {} := by decide +kernel
theorem meets_PageEvents_shootdown : let s := ((granted []).onMe fun k => { k with plb := ⟨7, 2, 5, 7, 0, 0, 0, false, 0, 0⟩ :: k.plb }).post 0 (.shootdown 1 5)
    s.me.plb.length = 3 ∧ (ran (.shootdown s.net.length) s).me.plb.length = 3 ∧ (ran (.shootdown 0) s).me.plb.map (fun x => (x.cls, x.range)) = [(2, 5), (0, 5)] := by
  decide +kernel
theorem meets_PageEvents_collapse : let s := (paged 3 (some { fstate := .replica }) 4).post 0 (.collapse 64 page1 0)
    let t := ran (.directoryCollapse 9) s
    (s.packet 9).isSome = true ∧ (s.hintOf page1).map (·.policy) = some 3 ∧ (t.hintOf page1).map (fun h => (h.split, h.gen, h.spmap)) = some (true, 1, 0xFFFFFFFF) ∧
      (t.packet 9).isSome = false ∧ pageAfter (.collapseComplete 10) t 64 = some (some .mapped, 0) := by decide +kernel
theorem meets_PageEvents_drop : let s := ({ paged 3 none 0 with owners := [(65, { homes := [(page1, { fstate := .replica })] })] } : State).post 0 (.drop 65 64 [page1] 9)
    (s.owner 65).moved.length + 1 ≤ 1024 ∧ pageAfter (.replicaDrop 9) s 65 = some (some .moved, 0) := by decide +kernel
theorem meets_PageEvents_migration : let s := paged 2 (some { fstate := .mapped }) 0
    let t := ran (.migrationBegin page1 65) s
    (hintOf1 2).nkeep = 0 ∧ s.movedRoom 64 page1 = true ∧ s.rangeMigrations page1 = [] ∧ s.pageAt 64 page1 = .held .mapped ∧ ownerIsBank 65 = true ∧
      s.ownerLive 65 = true ∧ s.canReserve 64 65 page1 = true ∧ (s.freeFrame 65).isSome = true ∧ pageAfter (.migrationBegin page1 65) s 65 = some (some .migrating, 0) ∧
      s.mayMove (hintOf1 2) page1 64 65 = true ∧ (s.bindKey 65 7).isSome = true ∧
      pageAfter (.migrationEnd page1) ({ t with hints := [] } : State) 65 = some (none, 0) ∧
      pageAfter (.migrationEnd page1) ({ t with hints := [] } : State) 64 = some (some .mapped, 0) ∧
      pageAfter (.migrationEnd page1) t 65 = some (some .mapped, 0) ∧ pageAfter (.migrationEnd page1) t 64 = some (some .moved, 0) := by decide +kernel
theorem meets_PageEvents_retirement : let m : HomeEntry := { fstate := .mapped, corrected := List.range 8 }
    let s := paged 1 (some m) 0
    let g := paged 1 (some { m with fstate := .migrating, prior := .mapped }) 3
    8 ≤ m.corrected.length ∧ (s.freeFrame 64).isSome = true ∧ s.ownerLive 64 = true ∧ s.migrations = [] ∧ g.badPage page1 = false ∧
      pageAfter (.frameRetirement 64 page1 true) s 64 = some (some .migrating, 0) ∧ pageAfter (.frameRetirement 64 page1 true) g 64 = some (some .mapped, 0) ∧
      pageAfter (.frameRetirement 64 page1 false) g 64 = some (some .lost, 0) := by decide +kernel
theorem meets_PageEvents_scrub : let s := paged 1 (some { fstate := .mapped }) 0
    let f := fun x => (ran (.patrolScrub 64 page1 0x410 x) s).word ((ga1 + 0x410) / 8) |>.poison
    s.ownerLive 64 = true ∧ page1 * 8192 + 0x410 / 8 = (ga1 + 0x410) / 8 ∧ f .clean = false ∧ f .uncorrectable = true ∧ f .metadata = true := by decide +kernel
theorem meets_PageEvents_dram : let s := { paged 1 none 0 with owners := [(0, { homes := [(ga0 / 65536, { fstate := .mapped })] })] }
    s.ownerLive 0 = true ∧ ownerIsBank 0 = false ∧ ((ran (.patrolScrub 0 (ga0 / 65536) 8 .corrected) s).owner 0).homes.map (·.2.corrected) = [[1]] ∧
      (ran (.patrolScrub 0 (ga0 / 65536) 65528 .uncorrectable) s).gbad = [ga0 / 8 + 8191] := by decide +kernel
theorem meets_PageEvents_others : let s := paged 1 (some { fstate := .mapped }) 0
    let c := paged 1 (some { fstate := .cow, back := .mapped }) 5
    s.holders page1 = [64] ∧ pageAfter (.pageReclaim page1) s 64 = some (none, 0) ∧ pageAfter (.pageParking 64 page1) s 64 = some (some .parked, 0) ∧
      pageAfter (.cowPageService 64 page1) c 64 = some (some .mapped, 0) ∧
      (ran (.cowGranuleCopy 0 8) (s.onCore 0 fun k => { k with cow := [8, 9] })).me.cow = [9] := by decide +kernel
theorem meets_PageEvents_writes : let d0 : W64 := 3 * 2 ^ 48 + 1 * 2 ^ 37
    let s := pod
    d0.extractLsb' 32 2 = 0 ∧ (d0.extractLsb' 34 3).toNat ≤ 4 ∧ d0.extractLsb' 48 2 = 3 ∧ (7 * 2 ^ 48 : W64).extractLsb' 0 42 = 0 ∧
      ((ran (.hintRecordWrite 1 5 [d0, 0, 7 * 2 ^ 48, 0]) s).hints.map fun h => (h.2.tier, h.2.policy, h.2.domain)) = [(3, 1, 7)] ∧
      (ran (.hintRecordWrite 1 5 []) (paged 1 none 0)).hints = [] ∧ (ran (.hintRecordWrite 1 5 []) (paged 1 none 0)).serial = 10 := by decide +kernel
theorem meets_PageEvents_exports : let s := pod.onPkg 0 fun p => { p with conns := [(1, { domain := 7 })] }
    let t := ran (.exportTableWrite 0 5 7 3 true) s
    (s.pkgs.find 0).isSome = true ∧ (t.pkg 0).exports = [(5, ⟨7, 3⟩)] ∧ ((ran (.exportTableWrite 0 5 7 3 false) t).pkg 0).exports = [] := by decide +kernel
theorem meets_PageEvents_store : let s := { pod with hints := [(hintKeyOf imgGa, { hintOf1 1 with tier := 0 })] }
    let t := ran (.imageStoreWrite (imgGa + 65535) [5]) s
    let u := { s with placed := [imgGa / 65536], gmem := Memory.writeN [] imgGa [9] }
    gaClass (imgGa + 65535) = 2 ∧ s.placed = [] ∧ (ran (.imageStoreWrite (imgGa + 65535) [5]) u).gmem.read imgGa = 9 ∧ (s.freeFrame 0).isSome = true ∧ (s.hintOf (imgGa / 65536)).bind Hint.home = some 0 ∧
      (ran (.imageStoreWrite (imgGa + 65535) [5]) { u with placed := [] }).gmem.read imgGa = 0 ∧ (s.hintOf ((imgGa + 65535) / 65536)).isSome = true ∧ t.gmem.read (imgGa + 65535) = 5 := by decide +kernel

theorem meets_Withdrawals_core : let s := pod
    let t := ran (.coreQuarantine 0) s
    s.coreLive 0 = true ∧ coreIsMem 0 = false ∧ (s.actor 0 0).state.mortal = true ∧ (t.core 0).gone = true ∧ (t.actor 0 0).dying.map (·.reason) = some 0x40 := by
  decide +kernel
theorem meets_Withdrawals_matrix : let s := (pod.onActor 0 0 fun a => { a with mxdecl := true }).onPkg 0 fun p => { p with bringUp := 2 }
    let t := ran (.matrixWithdrawal 0) s
    s.matrixFails 0 = true ∧ (t.core 0).mxLost = true ∧ (t.actor 0 0).dying.map (·.reason) = some 0x40 ∧ t.actor 1 0 = s.actor 1 0 := by decide +kernel
theorem meets_Withdrawals_memory : let s := { pod with owners := [(0, { homes := [(ga0 / 65536, { fstate := .mapped })] })], hints := [(hintKeyOf ga0, { hintOf1 1 with tier := 0 })] }
    let t := ran (.memoryCoreWithdrawal 8192) s
    coreIsMem 8192 = true ∧ s.coreLive 8192 = true ∧ memOwner 8192 = 0 ∧ s.migrations = [] ∧ s.farReplica 0 (ga0 / 65536) = false ∧
      (t.core 8192).gone = true ∧ ((t.owner 0).homes.find (ga0 / 65536)).map (·.fstate) = some .lost := by decide +kernel
theorem meets_Withdrawals_cluster : let s := (pod.onPkg 0 fun p => { p with grants := [(7, { dies := [0], clusters := [0, 1] })] })
    let t := ran (.clusterWithdrawal 0) s
    (s.pkgs.find 0).isSome = true ∧ (s.pkg 0).lost = false ∧ (s.pkg 0).halted = false ∧ (t.engine 0).gone = true ∧ (t.pkg 0).lostClusters = [0] ∧
      (t.pkg 0).grants = [(7, { dies := [0], clusters := [1] })] ∧ (t.core 15).gone = true := by decide +kernel

/-- A request of actor 2 to a service. -/
def asking4 (svc code : Nat) (ws : List W64) : Msg := { msgA with dst := BitVec.ofNat 64 svc, body := body8 (BitVec.ofNat 64 (code * 2 ^ 56) :: ws) }
/-- The pod with such a request on its way, as packet 9. -/
def asked (svc code : Nat) (ws : List W64) (s : State) : State := s.post 0 (.message (asking4 svc code ws) (.free (nameOf 2) 1 0) none)
/-- Whether the service takes it, and from which package. -/
def takes (svc code : Nat) (ws : List W64) (s : State) : Option Nat := ((asked svc code ws s).request 9 (BitVec.ofNat 64 svc) code).map (·.2.1)
/-- The words of a message under way. -/
def wordsAt (s : State) (n : Nat) : Option (List W64) :=
  (s.packet n).bind fun p => match p.pay with
    | .message m _ _ => some m.body.toList
    | _ => none
/-- First words of the answer to a request. -/
def answerTo (i : Instr) (svc code : Nat) (ws : List W64) (s : State) : Option (List W64) :=
  (wordsAt (ran i (asked svc code ws s)) 10).map (·.take 6)
/-- Registrations of actor 2's domain by other names. -/
def regList (n : Nat) : List Registration := (List.range n).map fun i => { name := nameOf (100 + i), domain := 7 }
theorem meets_Services_entry : let s := ran (.send 5 6 0) (firing [(5, 4), (6, 0)])
    isService 4 = true ∧ s.net.map (fun p => match p.2.pay with | .message m _ _ => decide (m.dst = 4) | _ => false) = [true] ∧
      s.me.sends.map (fun e => (e.id, decide (e.phase = .waiting), s.me.mayLeave e)) = [(s.me.next - 1, true, true)] ∧
      s.net.map (fun p => (p.1, p.2.src)) = [(9, 0)] ∧ (s.pkg 0).runs = true := by decide +kernel
theorem meets_Services_register : let f := fun n => pod.onPkg 0 fun p => { p with topoRegs := regList n, attRegs := regList n, powRegs := regList n }
    takes 4 1 [] pod = some 0 ∧ takes 5 1 [] pod = some 0 ∧ takes 6 1 [] pod = some 0 ∧
      answerTo (.topologyRegister 9) 4 1 [] (f 15) = some [0, 0, 0, 0, 0, 0] ∧ answerTo (.topologyRegister 9) 4 1 [] (f 16) = some [2, 0, 0, 0, 0, 0] ∧
      answerTo (.attestRegister 9) 5 1 [] (f 3) = some [0, 0, 0, 0, 0, 0] ∧ answerTo (.attestRegister 9) 5 1 [] (f 4) = some [2, 0, 0, 0, 0, 0] ∧
      answerTo (.powerServiceRegister 9) 6 1 [] (f 15) = some [0, 0, 0, 0, 0, 0] ∧ answerTo (.powerServiceRegister 9) 6 1 [] (f 16) = some [2, 0, 0, 0, 0, 0] := by
  decide +kernel
theorem meets_Services_deregister : let s := pod.onPkg 0 fun p => { p with topoRegs := ⟨nameOf 2, 7⟩ :: regList 1 }
    takes 4 2 [] s = some 0 ∧ takes 5 2 [] s = some 0 ∧ takes 6 2 [] s = some 0 ∧
      ((ran (.topologyDeregister 9) (asked 4 2 [] s)).pkg 0).topoRegs = regList 1 := by decide +kernel
theorem meets_Services_topology : let s := pod.onPkg 0 fun p => { p with grants := [(7, { dies := [0, 1], clusters := [0, 5, 64] })], lostClusters := [5] }
    takes 4 3 [0] s = some 0 ∧ takes 4 4 [] s = some 0 ∧ s.coreExists 0 = true ∧
      answerTo (.topologyReadUnit 9) 4 3 [0] s = some [0, 0, 0, 0, 0, 0] ∧ answerTo (.topologyReadUnit 9) 4 3 [2 ^ 46] s = some [0, 3, 0, 0, 0, 0] ∧
      answerTo (.topologyReadUnit 9) 4 3 [0] (s.onCore 0 fun k => { k with gone := true }) = some [0, 2, 0, 0, 0, 0] ∧
      answerTo (.topologyReadGrant 9) 4 4 [] s = some [0, 3, 1, 1, 0, 0] := by decide +kernel
theorem meets_Services_parcels : let s := pod
    takes 5 3 [] s = some 0 ∧ takes 5 4 [0] s = some 0 ∧ s.who (nameOf 2) = .actor 1 0 ∧ (s.core 1).chanFull 0 0 = false ∧
      (s.core 1).freeEntry.isSome = true ∧ ((s.core 1).findRun 17).isSome = true ∧
      answerTo (.logRead 9) 5 4 [0, 0, 0, 0, 0, 0, 0] (s.onCore 1 fun k => k.setChan 0 0 ⟨4, 4, 0, 4⟩) = some [1, 0, 0, 0, 0, 0] := by decide +kernel

/-- The identity of performance counter 0 of core 0, and a select word: enabled, filtered to domain 7, event 1. -/
def selWord : W64 := 3 * 2 ^ 24 + 7 * 2 ^ 8 + 1
/-- The pod with that counter so programmed and at 50. -/
def counting : State := pod.onCore 0 fun k => { k with pmcs := k.pmcs.set 0 { en := true, dfilt := true, domain := 7, event := 1, count := 50 } }
theorem meets_CountersAndPower_read : let s := counting
    takes 3 1 [0] s = some 0 ∧ (asked 3 1 [0] s).named 0 (asking4 3 1 [0]) 0 = some (.corePmc 0 0) ∧
      answerTo (.counterRead 9) 3 1 [0] (atCycle 5 s) = some [0, 50, 5, 0, 0, 0] ∧ answerTo (.counterRead 9) 3 1 [1] s = some [1, 0, 0, 0, 0, 0] := by
  decide +kernel
theorem meets_CountersAndPower_program : let s := pod
    takes 3 2 [0, selWord] s = some 0 ∧ s.programStatus (asking4 3 2 [0, selWord]) (some (.corePmc 0 0)) selWord = 0 ∧
      counterRef 0 = some (.corePmc 0 0) ∧ ((ran (.counterProgram 9) (asked 3 2 [0, selWord] s)).core 0).pmcs[0].event = 1 ∧
      answerTo (.counterProgram 9) 3 2 [0, selWord + 2 ^ 26] s = some [3, 0, 0, 0, 0, 0] := by decide +kernel
/-- A threshold at 40, armed. -/
def level40 : Threshold := { ident := 0, t := 40, hp := 0, period := false, target := nameOf 1, chan := 0, domain := 7 }
theorem meets_CountersAndPower_thresholds : let s := counting.onPkg 0 fun p => { p with thresholds := [(0, level40)] }
    let ws : List W64 := [0, 60, 5, 0, nameOf 1, 0]
    takes 3 3 ws s = some 0 ∧ takes 3 4 [0] s = some 0 ∧ thresholdBad (asking4 3 3 ws) = false ∧ thresholdBad (asking4 3 3 [0, 60, 0, 1, nameOf 1, 0]) = true ∧
      (s.pkg 0).thresholds.find 1 = none ∧ answerTo (.thresholdSet 9) 3 3 ws s = some [0, 1, 0, 0, 0, 0] ∧
      answerTo (.thresholdSet 9) 3 3 [1] s = some [1, 0, 0, 0, 0, 0] ∧ answerTo (.thresholdCancel 9) 3 4 [0] s = some [0, 0, 0, 0, 0, 0] ∧
      answerTo (.thresholdCancel 9) 3 4 [1] s = some [3, 0, 0, 0, 0, 0] ∧
      answerTo (.thresholdCancel 9) 3 4 [0] (pod.onPkg 0 fun p => { p with thresholds := [(0, { level40 with domain := 8 })] }) = some [1, 0, 0, 0, 0, 0] := by
  decide +kernel
/-- The pod with the threshold numbers of a list taken. -/
def taken (l : List Nat) : State := counting.onPkg 0 fun p => { p with thresholds := l.map fun i => (i, level40) }
theorem taken_thresholds (l : List Nat) : ((taken l).pkg 0).thresholds = l.map fun i => (i, level40) := rfl
/-- A table with an entry for each number of a list finds every number of the list. -/
theorem find_of_listed {α : Type} (v : α) (j : Nat) : ∀ l : List Nat, j ∈ l → (SMap.find (l.map fun i => (i, v)) j).isSome = true
  | a :: l, h => by
    by_cases e : a = j
    · simp [SMap.find, e]
    · simpa [SMap.find, e] using find_of_listed v j l ((List.mem_cons.1 h).resolve_left (Ne.symm e))
theorem meets_CountersAndPower_full : let ws : List W64 := [0, 60, 5, 0, nameOf 1, 0]
    let s := taken (List.range 1024)
    takes 3 3 ws s = some 0 ∧ (s.named 0 (asking4 3 3 ws) 0).isSome = true ∧ thresholdBad (asking4 3 3 ws) = false := by decide +kernel
theorem meets_CountersAndPower_full_taken (j : Nat) (h : j < 1024) : (((taken (List.range 1024)).pkg 0).thresholds.find j).isSome = true := by
  rw [taken_thresholds]
  exact find_of_listed level40 j _ (List.mem_range.2 h)
theorem meets_CountersAndPower_sample : let s := atCycle 940 (counting.onPkg 0 fun p => { p with thresholds := [(0, level40)] })
    (s.pkg 0).counted < (s.pkg 0).cycle / 940 ∧ identKind level40.ident = 0 ∧ s.counterValue (.corePmc 0 0) = 50 ∧
      wordsAt (ran (.counterSample 0) s) 9 = some [0x0001000000000001, 50, 40, 0, 940, 0, 0, 0] ∧
      ((ran (.counterSample 0) (atCycle 939 s)).packet 9).isNone = true := by decide +kernel
/-- The header of the first frame on a connection. -/
def head0 : FrameHead := { conn := 1, ver := 1, flags := 0, psn := 0, ackn := 0 }
/-- Five readings with a power and a temperature of the first die. -/
def readings (p : Nat) (t : Int) : List Reading := ⟨3, p, t⟩ :: List.replicate 4 ⟨3, 100, 0⟩
theorem meets_CountersAndPower_power : let s := atCycle 940 (pod.onPkg 0 fun p => { p with form := 3, dies := p.dies.map fun d => { d with budget := 600, calm := 8, cceil := 2 } })
    let f := fun p t => let q := (ran (.powerSample 0 (readings p t)) s).pkg 0
      (q.dies[0].cceil, q.dies[0].calm, q.thermtrip, q.halted)
    (s.pkgs.find 0).isSome = true ∧ (s.pkg 0).runs = true ∧ (readings 1 839).length = 5 ∧ (s.pkg 0).step = none ∧ (s.pkg 0).hasLinks = false ∧ (s.pkg 0).keepsPower s.wall (readings 601 839) = true ∧
      (s.pkg 0).keepsPower s.wall (readings 2401 0) = true ∧ ((atCycle 470000 s).pkg 0).keepsPower 470000 (readings 2401 0) = false ∧
      ((atCycle 470000 s).pkg 0).keepsPower 470000 (readings 2400 0) = true ∧
      f 600 839 = (2, 0, false, false) ∧ f 601 0 = (1, 0, false, false) ∧ f 540 0 = (2, 9, false, false) ∧ (f 540 840).2.2 = (true, true) ∧
      ((ran (.powerSample 0 (readings 540 0)) (s.onPkg 0 fun p => { p with dies := p.dies.map fun d => { d with calm := 9 } })).pkg 0).dies[0].cceil = 3 := by
  decide +kernel
theorem meets_CountersAndPower_steps : let s := pod.onPkg 0 fun p => { p with isReady := true, conns := [(1, { domain := 0 })] }
    (s.frameIn 0 0 head0 1).isSome = true ∧ ((ran (.powerStep 0 3) (atCycle 940 s)).pkg 0).pinCap = 15 ∧ ((ran (.powerStep 0 3) (atCycle 1880 (ran (.powerStep 0 3) (atCycle 940 s)))).pkg 0).pinCap = 3 ∧
      ((ran (.powerStep 0 3) (atCycle 1879 (ran (.powerStep 0 3) (atCycle 940 s)))).pkg 0).pinCap = 15 ∧ ((ran (.powerStep 0 3) (atCycle 2820 (ran (.powerStep 0 3) (atCycle 940 s)))).pkg 0).pinCap = 15 ∧
      ((ran (.powerStepFrame 0 head0 15) s).pkg 0).frameCap = 15 ∧ ((ran (.powerStepFrame 0 head0 2) s).pkg 0).frameCap = 2 ∧
      ((ran (.powerStepFrame 0 head0 16) s).pkg 0).frameCap = 15 ∧ ((ran (.powerFailTrap 0) s).pkg 0).flashImage.isSome = true ∧
      ((ran (.powerFailTrap 0) (s.onPkg 0 fun p => { p with bringUp := 4 })).pkg 0).flashImage.isNone = true ∧ ((ran (.powerFailTrap 0) pod).pkg 0).halted = true := by decide +kernel
/-- A Cairn of domain 7 that a package is taking, to class 0. -/
def cairnA : Cairn := { domain := 7, id := 1, step := 2, dest := ga0, room := 2 ^ 36, chan := 0, asker := nameOf 2 }
/-- The pod taking it. -/
def takingIt (c : Cairn) : State := pod.onPkg 0 fun p => { p with cairns := [c] }
theorem meets_CairnEvents_take : let s := asked 7 1 [BitVec.ofNat 64 ga0, 65536, 2, 1] pod
    takes 7 1 [BitVec.ofNat 64 ga0, 65536, 2, 1] pod = some 0 ∧ plain.quiescing = false ∧ gaValid ga0 = true ∧ gaClass ga0 = 0 ∧ ga0 % 64 = 0 ∧ (s.pkg 0).lastCairn 7 = none ∧
      ((ran (.cairnTake 9) s).pkg 0).cairns.map (fun c => (c.domain, c.room, c.step, c.id)) = [(7, 65536, 2, 1)] ∧
      answerTo (.cairnTake 9) 7 1 [BitVec.ofNat 64 (ga0 + 8), 1] pod = some [2, 0, 0, 0, 0, 0] ∧
      answerTo (.cairnTake 9) 7 1 [BitVec.ofNat 64 ga0, 1] (takingIt cairnA) = some [1, 0, 0, 0, 0, 0] := by decide +kernel
theorem meets_CairnEvents_mark : let s := takingIt cairnA
    (s.pkg 0).runs = true ∧ s.coresOf 7 = [0, 1] ∧ s.quietCore 0 7 = true ∧ s.quietCore 1 7 = true ∧
      s.quietNet 7 = true ∧ s.heldPages 7 = [] ∧ s.quietCore 0 8 = true ∧ (firing []).quietCore 0 7 = false := by decide +kernel
/-- No take writes a Cairn into no room, and every take of three shards finds room in 64 GB. -/
theorem length_room (c : Cairn) : 0 < c.length ∧ (c.shards = 3 → c.length ≤ 2 ^ 36) := by
  have b := c.place_bound c.shards
  unfold Cairn.length Cairn.manifestAt
  exact ⟨by omega, fun h => by rw [h] at b ⊢; omega⟩
theorem meets_CairnEvents_markRoom : cairnA.room = 2 ^ 36 ∧ ((takingIt cairnA).snapshot cairnA).shards = 3 := by decide +kernel
theorem meets_CairnEvents_manifest : let s := takingIt { cairnA with phase := .stream }
    (s.pkg 0).cairns = [{ cairnA with phase := .stream }] ∧ (s.pkg 0).runs = true ∧ (0 : Nat) < cairnA.cores.length + cairnA.pages.length + 1 ∧
      cairnA.cores.length + cairnA.pages.length + 1 ≤ ({ cairnA with sent := 1 } : Cairn).sent := by decide +kernel
/-- A shard of one idle actor in a slot of core 2. -/
def shardA : CoreSnap :=
  { core := 2, slots := [(0, { idleActor 3 with cp := 0 })], regions := [], mem := [], links := [], sups := [], spawns := [], accs := [] }
/-- A Cairn of that shard and the device tables, and the pod with them and the manifest where it wrote them. -/
def cairnB : Cairn := { cairnA with cores := [shardA], phase := .stream, sent := 2 }
def writtenMem (c : Cairn) (m : Memory) : Memory :=
  ((m.writeN (c.place 0) (c.shard 0)).writeN (c.place 1) (c.shard 1)).writeN c.manifestAt c.manifestBytes
def written (c : Cairn) : State := { pod with gmem := writtenMem c [], archive := [c] }
def writtenB : State := written cairnB
/-- What stands in memory once two shards and the manifest have been written. -/
theorem stands_written (c : Cairn) (h : c.shards = 2) (m : Memory) :
    c.Stands (writtenMem c m) := by
  unfold writtenMem
  have h0 : c.place 0 + (128 + c.bodyLength 0) ≤ c.place 1 := c.place_next 0
  have h1 : c.place 1 + (128 + c.bodyLength 1) ≤ c.place 2 := c.place_next 1
  have l0 := c.length_shard 0
  have l1 := c.length_shard 1
  have e : c.manifestAt = c.place 2 := by rw [Cairn.manifestAt, h]
  constructor
  · intro i hi
    rw [h] at hi
    obtain rfl | rfl : i = 0 ∨ i = 1 := by omega
    · rw [Memory.readN_writeN_off _ _ _ _ _ (.inl (by omega)), Memory.readN_writeN_off _ _ _ _ _ (.inl h0), ← l0, Memory.readN_writeN_on]
    · rw [Memory.readN_writeN_off _ _ _ _ _ (.inl (by omega)), ← l1, Memory.readN_writeN_on]
  · have l : c.manifestBytes.length = 128 + (64 * c.shards + 8) := by
      simp [Cairn.manifestBytes, length_shardHeader, Cairn.length_manifestBody]
    rw [← l]
    exact Memory.readN_writeN_on ..
theorem written_gmem (c : Cairn) : (written c).gmem = writtenMem c [] := by simp only [written]
theorem written_stands (c : Cairn) (h : c.shards = 2) : c.Stands (written c).gmem := by
  rw [written_gmem]
  exact stands_written c h []
/-- Where that Cairn ends. -/
theorem manifestAt_bound (c : Cairn) (h : c.shards = 2) (d : c.dest < 2 ^ 50) : c.manifestAt < 2 ^ 56 := by
  have := c.place_bound 2
  rw [Cairn.manifestAt, h]
  omega
/-- The words of a request to restore that Cairn. -/
def wordsB : List W64 := [BitVec.ofNat 64 cairnB.manifestAt]
theorem wordsB_dest : ((asking4 7 2 wordsB).body[1]).toNat = cairnB.manifestAt := by
  have h := manifestAt_bound cairnB (by decide) (by decide)
  show (BitVec.ofNat 64 cairnB.manifestAt).toNat = _
  rw [BitVec.toNat_ofNat]
  exact Nat.mod_eq_of_lt (by omega)
theorem asked_take (svc code : Nat) (ws : List W64) (s : State) :
    ((asked svc code ws s).take 9).gmem = s.gmem ∧ ((asked svc code ws s).take 9).archive = s.archive := ⟨rfl, rfl⟩
theorem meets_CairnEvents_restore : ((asked 7 2 wordsB writtenB).request 9 7 2).isSome = true ∧
    ((asked 7 2 wordsB writtenB).take 9).readCairn ((asking4 7 2 wordsB).body[1]).toNat 7 = .ok cairnB := by
  refine ⟨by decide +kernel, ?_⟩
  rw [wordsB_dest]
  refine State.readCairn_stands (l := []) ?_ ⟨by decide, by decide, manifestAt_bound cairnB (by decide) (by decide)⟩ (asked_take ..).2
  rw [(asked_take ..).1]
  exact written_stands cairnB (by decide)
theorem meets_CairnEvents_restoreIdle : (plain.quiesced 1, plain.quiesced 2) = (false, false) ∧ cairnB.cores = [shardA] ∧ cairnB.pages = [] ∧
    shardA.regions = [] ∧ writtenB.fits 2 shardA = true ∧ ({ writtenB with dir := [] } : State).domainBusy (nameOf 2) 7 [] = false ∧
    writtenB.domainBusy (nameOf 2) 7 [] = true ∧ answerTo (.cairnRestore 9) 7 2 [8] pod = some [6, 0, 0, 0, 0, 0] := by decide +kernel
/-- A manifest of step 5 with one shard, of a step, whose digest may be right. -/
def manifestBodyOf (digest : Nat) : List Byte := manifestEntry 0 ga0 0 digest ++ toBytes 8 cairnCommit
def shardsOf (step : Nat) (good : Bool) (digest : Nat) : State :=
  let m : Memory := Memory.writeN [] ga0 (shardHeader 1 step 0 3 0 digest)
  { pod with gmem := m.writeN (ga0 + 128) (shardHeader 1 5 1 15 72 (if good then (sha384 (manifestBodyOf digest)).toNat else 0) ++ manifestBodyOf digest) }
theorem meets_CairnEvents_restoreRefused : let f := fun s => answerTo (.cairnRestore 9) 7 2 [BitVec.ofNat 64 (ga0 + 128)] s
    f (shardsOf 6 false 0) = some [3, 0, 6, 1, 0, 0] ∧ f (shardsOf 5 false 0) = some [4, 1, 0, 0, 0, 0] ∧ f (shardsOf 5 true 0) = some [4, 0, 0, 0, 0, 0] := by
  decide +kernel
/-- A control-plane image with that shard and the flock. -/
def imageA : ControlImage := { cycle := 10, digest := 0, dir := [], flocks := [(0x2A, flockA)], cores := [shardA], cairns := [] }
/-- An empty pod whose package may still restore it. -/
def windowed : State := ({ pod with dir := [], cores := [], flocks := [] } : State).onPkg 0 fun p => { p with flashImage := some imageA, window := some 0, cycle := 30 }
theorem meets_CairnEvents_powerFail : let s := windowed
    takes 7 3 [] s = some 0 ∧ takes 7 4 [] s = some 0 ∧ s.domainBusy (nameOf 2) 7 imageA.flocks = false ∧ (s.pkg 0).lastCairn 7 = none ∧
      ((asking4 7 3 []).cairnDomain = 7) ∧ (imageA.shards 7).map (fun c => (c.core, c.slots.length)) = [(2, 1)] ∧ s.fits 2 shardA = true := by decide +kernel
theorem meets_CairnEvents_powerFailAnswers : let s := windowed
    answerTo (.powerFailRestore 9) 7 3 [] pod = some [6, 0, 0, 0, 0, 0] ∧ answerTo (.powerFailDiscard 9) 7 4 [] s = some [0, 0, 0, 0, 0, 0] ∧
      answerTo (.powerFailDiscard 9) 7 4 [] (s.onPkg 0 fun p => { p with decided := [7] }) = some [6, 0, 0, 0, 0, 0] ∧
      ((ran (.controlImageWindowExpiry 0) (atCycle 56400000000 s)).pkg 0).flashImage.isNone = true ∧
      ((ran (.controlImageWindowExpiry 0) (atCycle 56399999999 s)).pkg 0).flashImage.isNone = false := by decide +kernel

/-- The pod with its host port ready and connection 1 open for domain 7, with its gateway actor. -/
def hosted : State :=
  { pod.onPkg 0 fun p => { p with isReady := true, grants := [(7, { dies := [0], clusters := [0] })], conns := [(1, { domain := 7 })] } with
    dir := pod.dir ++ [((0xFFFF000000000001 : W64).toNat, { name := 0xFFFF000000000001, inc := 0, state := 1, pkg := 0, die := 3, kind := 1, cidx := 1023, slot := 0, supv := 0, rrec := 0 })] }
/-- A pod of two packages, the second with actor 2's entry. -/
def twoPackages : State :=
  { pod with
    pkgs := [(0, { plain with silent := [(1, 188000)] }), (1, plain)], npkg := 2
    dir := [((nameOf 1).toNat, entryOf 1 0 0), ((nameOf 2).toNat, { entryOf 2 0 0 with pkg := 1 })] }.onCore 0 fun k => { k with links := [(0, ⟨1, 0, 0, nameOf 2, 1⟩)] }
theorem meets_HostEvents_modes :
    let f := fun (a b : PortMode) (k : Nat) (lanes : Nat) =>
      let q := ((ran (.linkModeChange 0 15 b) (hosted.onPkg 0 fun p => { p with
        ports := p.ports.set 15 { mode := a, lanes := lanes }, hub := { p.hub with knobs := k :: p.hub.knobs.drop 1 } })).pkg 0).ports[15]
      (q.mode, q.lanes)
    (hosted.pkgs.find 0).isSome = true ∧ (hosted.pkg 0).form ≠ 3 ∧ f .down .full 8 2 = (.full, 8) ∧ f .down .full 4 2 = (.down, 2) ∧
      f .full .erasure 8 8 = (.erasure, 7) ∧ f .narrow .erasure 8 6 = (.narrow, 6) ∧ f .erasure .narrow 8 7 = (.narrow, 6) ∧
      f .down .narrow 4 2 = (.narrow, 8) ∧ f .down .narrow 8 2 = (.down, 2) ∧ f .narrow .down 8 6 = (.down, 3) := by decide +kernel
theorem meets_HostEvents_ports : let s := atCycle 9400 hosted
    let f := fun m (up : Bool) (s : State) => let q := ((ran (.linkHeartbeat 0 15 up) (s.onPkg 0 fun p => { p with ports := Vector.replicate 16 { missed := m } })).pkg 0).ports[15]
      (q.mode, q.missed)
    (s.pkg 0).ports[15].beat + 9400 ≤ (s.pkg 0).cycle ∧
      f 7 true s = (.full, 0) ∧ f 6 false s = (.full, 7) ∧ (f 7 false s).1 = .down ∧ f 6 false (atCycle 9399 hosted) = (.full, 6) := by decide +kernel
theorem meets_HostEvents_losses : let s := twoPackages
    let t := ran (.packageLost 1) s
    let u := ran (.directoryMapUpdate 1) t
    (s.pkgs.find 1).isSome = true ∧ (s.pkg 1).lost = false ∧ s.npkg = 2 ∧ s.dirPackage 1 = 1 ∧ s.linked 0 1 = true ∧ (s.pkg 0).quiesced 3 = false ∧
      (s.pkg 0).halted = false ∧ (t.pkg 1).lost = true ∧ t.dirEntry (nameOf 2) = none ∧
      t.net.length = 1 ∧ (u.dirPackage 1, u.bare) = (0, [0, 1]) ∧ (ran (.directoryMapUpdate 1) u).bare = [] ∧
      ((ran (.packageLost 1) (s.onPkg 0 fun p => { p with silent := [(1, 187999)] })).pkg 1).lost = false := by decide +kernel
theorem meets_HostEvents_connections : let s := hosted
    let t := ran (.connectionOpen 0 2 7) s
    (s.frameIn 0 2 head0 1).isSome = true ∧ (s.frameIn 0 2 { head0 with conn := 2 } 1).isNone = true ∧ (s.frameIn 0 2 { head0 with psn := 1 } 1).isNone = true ∧
      (s.frameIn 0 2 { head0 with ver := 2 } 1).isNone = true ∧ (s.pkg 0).quiesced 1 = false ∧ (s.pkg 0).conns.find 2 = none ∧ (t.pkg 0).conns.find 2 = some { domain := 7 } ∧
      (t.dirEntry 0xFFFF000000000002).isSome = true ∧ ((ran (.connectionClose 0 2 true) t).dirEntry 0xFFFF000000000002).isNone = true ∧
      (ran (.connectionClose 0 1 false) (s.onPkg 0 fun p => { p with gwLinks := [⟨0xFFFF000000000001, 1, 0, nameOf 1, 1⟩] })).net.length = 1 := by decide +kernel
/-- A launch header (R21): format 1, one field of 8 bits, an image, two initial actors. -/
def header : List W64 := [2 ^ 56 + 2 ^ 51 + 7 * 2 ^ 16, BitVec.ofNat 64 imgGa, 8 * 2 ^ 30, 2, 0, 9, 0, 0]
/-- ARG of the answer to a launch. -/
noncomputable def launched (h : List W64) (flock : Nat) (s : State) : Option (List Nat) :=
  match exec (.launch 0 head0 h flock) s with
  | .next t => ((t.pkg 0).conns.find 1).map fun c => c.unacked.map fun f => f.arg.toNat
  | _ => none
theorem meets_HostEvents_launch : let s := stocked hosted
    header.length = 8 ∧ (s.frameIn 0 1 head0 1).isSome = true ∧ s.flockLive 5 = 0 ∧ launched header 5 s = some [5 * 2 ^ 48] ∧
      ((ran (.launch 0 head0 header 5) s).dirEntry (BitVec.ofNat 64 (5 * 2 ^ 48 + 1))).map (·.state) = some 3 := by decide +kernel
theorem meets_HostEvents_launchRefused : let s := stocked hosted
    let f := fun i v => launched (header.set i v) 5 s
    f 0 (2 ^ 57 + 2 ^ 51 + 7 * 2 ^ 16) = some [1] ∧ f 2 (8 * 2 ^ 30 + 1) = some [2] ∧ f 3 257 = some [3] ∧ f 3 0 = some [3] ∧ f 1 8 = some [4] ∧
      f 0 (2 ^ 56 + 2 ^ 51 + 8 * 2 ^ 16) = some [5] ∧ f 4 (nameOf 9) = some [6] ∧ f 6 1 = some [7] ∧
      launched header 5 (s.onPkg 0 fun p => { p with lostClusters := [0] }) = some [8] ∧ launched header 0 s = some [8] := by decide +kernel
theorem meets_HostEvents_frames : let s := hosted
    let t := ran (.hostMessage 0 head0 (nameOf 1) 2 [11, 12]) s
    (s.frameIn 0 3 head0 1).isSome = true ∧ wordsAt t 9 = some [11, 12, 0, 0, 0, 0, 0, 0] ∧ (t.pkg 0).conns.map (fun c => c.2.psnIn) = [1] ∧
      ((ran (.hostParcel 0 head0 (nameOf 1) 2 5 [1, 2, 3]) s).packet 9).isSome = true := by decide +kernel
/-- A frame of that PSN, sent at cycle 0. -/
def frameOf (n : Nat) : Frame := { cls := 2, psn := n, name := 0, arg := 0, words := [], sentAt := 0 }
theorem meets_HostEvents_acks :
    let f := fun flags ackn => (((hosted.onPkg 0 fun p => { p with conns := [(1, { domain := 7, unacked := [frameOf 4, frameOf 5, frameOf 6] })] }).frameIn
      0 2 { head0 with flags := flags, ackn := ackn } 1).map fun x => (x.2.pkg 0).conns.map fun c => c.2.unacked.map (·.psn))
    f 1 5 = some [[6]] ∧ f 1 6 = some [[]] ∧ f 1 7 = some [[4, 5, 6]] ∧ f 0 5 = some [[4, 5, 6]] := by decide +kernel
theorem meets_HostEvents_retransmit : let s := atCycle 47000 (hosted.onPkg 0 fun p => { p with conns := [(1, { domain := 7, unacked := [frameOf 0] })] })
    let f := fun s => ((ran (.hostRetransmit 0 1) s).pkg 0).conns.map fun c => c.2.unacked.map (·.sentAt)
    f s = [[47000]] ∧ f (atCycle 46999 s) = [[0]] := by decide +kernel
theorem meets_HostEvents_grants : let s := hosted.onPkg 0 fun p => { p with conns := [(1, { domain := 0 })], topoRegs := [⟨nameOf 1, 7⟩] }
    let f := fun die cl adds s => let g := ((ran (.grantRequest 0 head0 7 die cl adds) s).pkg 0).grants.get {} 7
      (g.dies, g.clusters.length, g.clusters.getLast?)
    (s.frameIn 0 0 head0 1).isSome = true ∧ s.holdsOn 0 7 0 = true ∧ (f 3 63 true s).2 = (2, some 255) ∧ f 4 0 true s = ([0], 1, some 0) ∧
      (f 1 64 true s).2 = (65, some 127) ∧ f 0 0 false s = ([0], 1, some 0) ∧ (ran (.grantRequest 0 head0 7 3 63 true) s).net.length = 1 ∧
      f 0 0 false { s with cores := [] } = ([0], 0, none) ∧ f 0 64 false { s with cores := [] } = ([], 0, none) := by decide +kernel
/-- An image of the management firmware. -/
def fwA (schema : Nat) : FwImage := { fw := 1, schema := schema, svn := 1, body := [], signed := true }
/-- Its replacement, in a phase. -/
def replA (ph : ReplPhase) : Replacement := { fw := 1, new := ⟨2, 0, 0, true⟩, old := ⟨1, 1, 0, true⟩, phase := ph }
/-- The pod with that replacement under way at a cycle. -/
def replacing (ph : ReplPhase) (now : Nat) : State := atCycle now (pod.onPkg 0 fun p => { p with repl := some (replA ph) })
theorem meets_FirmwareEvents_reset : let s := hosted.onPkg 0 fun p => { p with conns := [(1, { domain := 0 })] }
    (s.pkgs.find 0).isSome = true ∧ s.npkg < 2 ∧ (s.frameIn 0 0 head0 1).isSome = true ∧ (hosted.frameIn 0 0 head0 1).isSome = true ∧
      (plain.boot.fw.map (fun f => (f.running.isSome, f.recovery))).toList = List.replicate 3 (false, false) ∧ (s.pkg 0).bringUp = 6 ∧
      (let q := fun now => (ran (.packageReset 0) (atCycle now (s.onPkg 0 fun p => { p with pins := [(0, 0)] }))).pkg 0
       ((q 939).bringUp, (q 940).bringUp, (q 1880).bringUp, (q 1880).pins) = (6, 0, 6, [(0, 2)])) ∧
      ((ran (.packageReset 0) (s.onPkg 0 fun p => { p with halted := true })).pkg 0).bringUp = 0 ∧
      ((ran (.packageReset 0) s).pkg 0).pins = [(0, 0)] := by decide +kernel
theorem meets_FirmwareEvents_boot : let f := fun signed svn => (({ running := none, flash := some ⟨1, svn, 0, signed⟩, floor := 2 } : FwState).boot).recovery
    (f true 1, f true 2, f false 2) = (true, false, true) := by decide +kernel
/-- The pod with a step of bring-up done, and the step after the next. -/
noncomputable def broughtUp (k : Nat) (f : Package → Package) : Package :=
  (ran (.ready 0) (pod.onPkg 0 fun p => f { p with bringUp := k })).pkg 0
/-- Each step of bring-up, the loader of the first accepted or refused, and the image that the others need running or not. -/
theorem meets_FirmwareEvents_steps : let none3 : Package → Package := fun p => { p with fw := Vector.replicate 3 { running := none, flash := none } }
    let img : ControlImage := { cycle := 10, digest := sha384 [], dir := [], flocks := [], cores := [], cairns := [] }
    let f := fun k g => (broughtUp k g).bringUp
    (f 0 id, f 0 fun p => { p with loader := { running := none, flash := none } }) = (1, 1) ∧
      ((broughtUp 0 fun p => { p with loader := { running := none, flash := none } }).loader.recovery, (broughtUp 0 id).loader.recovery) = (true, false) ∧
      (f 1 id, f 1 none3, f 2 none3, f 3 id, f 3 none3, f 3 fun p => { none3 p with form := 3 }) = (2, 1, 3, 4, 3, 4) ∧
      (f 4 id, f 4 none3, f 5 none3) = (5, 4, 6) ∧ (broughtUp 5 fun p => { p with flashImage := some img }).window = some 0 ∧
      (broughtUp 5 fun p => { p with flashImage := some { img with digest := 0 } }).window = none ∧ (broughtUp 6 id).isReady = true := by decide +kernel
theorem meets_FirmwareEvents_bringUp : let s := pod
    let r := s.onPkg 0 fun p => { p with fw := Vector.replicate 3 { running := none, flash := none, recovery := true } }
    (s.pkg 0).isReady = false ∧ (s.pkg 0).recovering = false ∧ ((ran (.ready 0) s).pkg 0).isReady = true ∧ (r.pkg 0).fw[2].recovery = true ∧
      ((ran (.ready 0) r).pkg 0).isReady = false ∧ (fwA 1).fw = 0 + 1 ∧ (r.pkg 0).fw[0].floor ≤ (fwA 1).svn ∧
      ((ran (.freeze 0) s).pkg 0).frozen = false ∧ ((ran (.freeze 0) (atCycle 940 (ran (.freeze 0) s))).pkg 0).frozen = true ∧
      (let z := s.onPkg 0 fun p => { p with frozen := true }
       ((ran (.freezeRelease 0) z).pkg 0).frozen = true ∧ ((ran (.freezeRelease 0) (atCycle 940 (ran (.freezeRelease 0) z))).pkg 0).frozen = false) ∧
      ((ran (.debugUnlock 0 [1] false) s).pkg 0).debug = false ∧ (s.pkg 0).debug = false := by decide +kernel
theorem meets_FirmwareEvents_request : let s := pod.onPkg 0 fun p => { p with isReady := true }
    (s.pkg 0).answers 0 = true ∧
    (s.pkg 0).fw[0].running = some ⟨1, 1, 0, true⟩ ∧ (s.pkg 0).repl = none ∧ (s.pkg 0).log.length < 4096 ∧ (fwA 2).body.length ≤ 2 ^ 26 ∧ (fwA 2).signed = true ∧
      (s.pkg 0).fw[0].floor ≤ (fwA 2).svn ∧ (fwA 2).schema = 1 + 1 ∧ (fwA 3).schema ≠ 1 ∧ (fwA 3).schema ≠ 1 + 1 ∧
      ((ran (.replacementRequest 0 0 (fwA 3)) s).pkg 0).repl = none ∧ ((ran (.replacementRequest 0 7 (fwA 2)) s).pkg 0).repl = none := by decide +kernel
/-- The firmware running in package 0, the replacement's stage and cycles, and the events logged, after an event. -/
def replOf (i : Instr) (ph : ReplPhase) (now : Nat) : Option ReplPhase × List Nat :=
  let q := (ran i (replacing ph now)).pkg 0
  (q.repl.map (·.phase), ((q.fw[0].running.map (·.schema)).toList ++ (q.repl.map fun r => [r.since, r.wrote]).getD [] ++ q.log.map (·.event)))
theorem meets_FirmwareEvents_activate : (replacing .staged 5).atQuiesce 0 1 = true ∧
    replOf (.replacementActivate 0) .staged 5 = (some .quiesced, [1, 5, 0]) ∧
    replOf (.replacementActivate 0) .quiesced 940000 = (some .probation, [2, 940000, 940000, 1]) ∧
    replOf (.replacementActivate 0) .quiesced 940001 = (some .quiesced, [1, 0, 0]) := by decide +kernel
theorem meets_FirmwareEvents_probation : replOf (.hubWatchdogWrite 0) .probation 9399999 = (some .probation, [1, 0, 9399999]) ∧
    replOf (.hubWatchdogWrite 0) .probation 9400000 = (some .probation, [1, 0, 0]) ∧
    replOf (.revert 0) .probation 5 = (none, [1, 2]) ∧ replOf (.revert 0) .quiesced 5 = (none, [1, 2]) := by decide +kernel
/-- The image in flash, the replacement's stage and the events logged, after a commit step of that replacement at the end of its probation. -/
noncomputable def commitOf (r : Replacement) : Option ReplPhase × List Nat :=
  let q := (ran (.replacementCommit 0) ((replacing .probation 1880000000).onPkg 0 fun p => { p with repl := some r })).pkg 0
  (q.repl.map (·.phase), (q.fw[0].flash.map (·.schema)).toList ++ (q.log.map (·.event)).take 1)
theorem meets_FirmwareEvents_commit : commitOf { replA .probation with wrote := 1880000000 } = (some .committing, []) ∧
    commitOf (replA .probation) = (some .probation, [1]) ∧ commitOf { replA .probation with wrote := 1880000000, since := 1 } = (some .probation, [1]) ∧
    commitOf (replA .committing) = (none, [2, 3]) := by decide +kernel

/-! ## SHA-384 (R391): FIPS 180-4's own constants, and its example "abc" with the first byte of the digest lowest -/

theorem test_sha_constants : shaPrimes.length = 80 ∧ shaPrimes.getLast? = some 409 ∧ rootFraction 3 2 = 0x428a2f98d728ae22 ∧
    rootFraction 2 23 = 0xcbbb9d5dc1059ed8 := by decide +kernel
theorem test_sha384_abc : sha384 [0x61, 0x62, 0x63] =
    0xa725c834a1ecba5823cce7a12b078680ed5bff435a608b1a63d1de0eab322c270750c69a693da0b58b5ea3453f7500cb := by decide +kernel

/-! ## Errors under what is read, timers that are due, rounding beyond the largest number, and scopes -/

theorem meets_StepRunsDecoded_bad : let s := (State.reset.place 0x20000000#32).onMe fun k => { k with bad := [0] }
    (selected s).me.badRun (selected s).th.pc.toNat 4 = some 0 ∧ (selected (State.reset.place 0x20000000#32)).me.badRun 0 4 = none := by decide +kernel
theorem meets_RoundedOnceExactly_beyond : (2 : ℚ) ^ (FFmt.fp16.bias + 1) - 2 ^ ((FFmt.fp16.bias : Int) - FFmt.fp16.fb) < ((65510 : Nat) : ℚ) * 2 ^ (0 : Int) ∧
    (FFmt.fp16.round 0 false 65510 0).1 = FFmt.fp16.inf false ∧ (FFmt.fp16.round 4 false 65504 0).1 = FFmt.fp16.maxFinite false ∧
    (FFmt.fp16.round 2 true 65520 0).1 = FFmt.fp16.maxFinite true ∧ (FFmt.fp16.round 1 false 65510 0).2.of = false := by
  refine ⟨?_, by decide, by decide, by decide, by decide⟩
  norm_num [FFmt.bias, FFmt.fp16]
theorem meets_ControlWrites_due : let s := atCycle 100 ((firing [(6, 0x8000000000000190)]).onSelf fun a => { a with timer := 0x8000000000000064 })
    let t := ran (.tmcan 5) s
    s.self.timerDue (s.now s.cur) = true ∧ (s.onMe fun n => n.expireTimer s.cur s.th.slot (s.now s.cur)).th.busy = true ∧
      (X t 5, (t.me.chan 0 3).cnt, t.self.timer) = (0, 1, 0x64) ∧ (((ran (.tmset 6) s).me.chan 0 3).cnt, (ran (.tmset 6) s).self.timer) = (1, 0x8000000000000190) ∧
      X (ran (.tmcan 5) (atCycle 99 s)) 5 = 1 := by decide +kernel
theorem meets_QueueInstructions_bad : let s := ((firing []).onSelf fun a => { a with crCnt := 1, crHead := 7 }).onMe fun k =>
      { k with mem := k.mem.write64 (16 * 1024 + 32 * 7) 5, bad := [(16 * 1024 + 32 * 7) / 8 + 3] }
    s.me.badRun (s.me.recordAt s.th.slot s.self.crHead) 32 ≠ none ∧ V (ran (.cqpop 3) s) 3 = 0 ∧ (ran (.cqpop 3) s).th.eperr.getLsbD 63 = true := by decide +kernel
theorem meets_Receives_bad : let s := (firing []).onMe fun k => let n := k.placeMsg 0 5 msgA; { n with bad := [n.waitingAt 0 0 0 / 8 + 9] }
    (s.me.headBad s.th.slot 0).isSome = true ∧ s.self.state = .firing ∧ s.self.tsetf = s.me.tset.val ∧ (ran (.recv 5 6 0) s).th.eperr.getLsbD 63 = true := by
  decide +kernel
theorem meets_RegionInstructions_drains : let s := (firing [(6, 1)]).post 0 (.drain
      { name := nameOf 2, inc := 1, core := 1, slot := 0, domain := 7, dst := nameOf 1, tag := 5, chan := 1, tridx := 1, off := 0, pitch := 4, fmt := 1
        m := 1, n := 1, unchk := false, rows := [[1, 2, 3, 4]], esize := 4 })
    (s.packet 9).isSome = true ∧ ((ran (.rfree 6) s).packet 9).isNone = true := by decide +kernel
theorem meets_MultiplyAccumulateSums_compared :
    let f := fun bad v s => let t := ran (.mmaBf16 0 bad) ((s : State).onSelf fun a => { a with acc := [(0, v)] }); (t.self.accAt 0 0 0, t.self.chkoff)
    f 1 9 groups = (0x4B80000A, false) ∧ f 2 9 groups = (9, false) := by decide +kernel
/-- A power request for the classes above 1, when the ceiling has risen to 2. -/
theorem meets_Preemptions_power : let s := ((firing []).onMe fun k => { k with holds := [.power 1] }).onPkg 0 fun p =>
      { p with dies := p.dies.map fun d => { d with cceil := 2 } }
    s.dropsHold 0 (.power 1) = true ∧ (ran (.preemptionWithdraw 0 (.power 1)) s).me.holds = [.power 2] := by decide +kernel
theorem meets_ReclaimsAndFences_scope : let s := pod
    let j := fun kspec n => s.copyInScope (jobOf [0xA000000000000000 + kspec * 2 ^ 48, ga1, 0, 8]) n
    (jobOf [0xA001000000000000, ga1, 0, 8]).kind = 10 ∧ (jobOf [0xA001000000000000, ga1, 0, 8]).kspec = 1 ∧
      (j 0 0, j 1 0, j 1 3, s.copyInScope toRegion 0) = (true, false, true, true) := by decide +kernel

/-! ## The clauses of the statements that speak of errors, marks, stalls and refusals -/

theorem meets_StepRunsDecoded_forced : let s := (firing []).onTh fun t => { t with wdogleft := 0 }
    s.elapse.forced = some (.watchdogExpiry 0 0) ∧ (State.reset.place 0#32).elapse.forced = none := by decide +kernel
/-- A stalled thread set gives the turn to the next that can issue. -/
theorem meets_StepRunsDecoded_next : let s : State := { (firing []).onMe fun k =>
        { k with threads := #v[{ k.threads[0] with stalled := true }, k.threads[0], {}, {}] } with agenda := [.issue 0 1] }
    s.elapse.forced = none ∧ s.elapse.nextTurn = .issue 0 1 ∧ s.me.tset = 0 ∧ (s.me.thread 0).stalled = true := by decide +kernel
/-- A write of a granule that a Cairn take has marked, and one beside it. -/
theorem meets_StepRunsDecoded_marked : let s := base.onMe fun k => { k with cow := [8] }
    let y := fun a => s.onMe fun k => { k with mem := k.mem.write a 5 }
    let f := fun a => (nx (s.heedCow (.next (y a)))).map fun t => (t.me.cow, t.me.mem.read a)
    s.me.sameGranule (y 0x23FF).me 8 = false ∧ s.me.sameGranule (y 0x2400).me 8 = true ∧ f 0x23FF = some ([], 0) ∧ f 0x2400 = some ([8], 5) := by
  decide +kernel

theorem meets_RoundedOnceExactly_special : (Machine.Num.nan true).isNan = true ∧ (Machine.Num.inf true).isNan = false ∧
    (FFmt.fp32.sqrtNum 0 (.fin true 1 0)).2.nv = true ∧ (FFmt.fp32.divNum 0 (.fin false 1 0) (.fin false 0 0)).2.dz = true ∧
    (FFmt.fp32.round 0 false 3 (-150)).2.uf = true ∧ (FFmt.fp32.round 0 false 1 (-149)).2.uf = false := by decide +kernel
theorem meets_BlockQuantization_infinite : (quantBlock (.n .e4) [.inf true, .inf false]).2.1 = [0xFE, 0x7E] ∧
    (quantBlock (.n .e5) [.inf true, .inf false]).2.1 = [0xFB, 0x7B] ∧ cbValid book = true ∧
    (quantBlock (.c4 book) [.inf true, .inf false, .nan false]).2.2 = { nan := true } ∧ (quantBlock (.c4 book) [.inf true, .inf false]).2.1 = [15, 7] := by
  decide +kernel

/-- `base` with granule 8 marked, and with the bank word at 0x2008 in error. -/
def marked : State := (regs [(6, 0x2000), (7, 0x77)]).onMe fun k => { k with cow := [8] }
def spoiled : State := (regs [(6, 0x2008), (7, 0x77)]).onMe fun k => { k with bad := [0x401] }
theorem meets_StoresAndFrame_marked : (marked.me.region 1).place 0x2000 / 1024 = 8 ∧ (ran (.sd 7 6 0) marked).th.stalled = true ∧
    (ran (.sd 7 6 0x400) marked).th.stalled = false := by decide +kernel
theorem meets_StoresAndFrame_bad : let s := spoiled
    s.me.cow = [] ∧ (s.me.region 1).place 0x200F / 8 = 0x401 ∧ 0x401 ∈ s.me.bad ∧
      (let t := ran (.sw 7 6 4) s
       (t.th.eperr, t.th.pc, t.me.bad, t.me.mem.read 0x200C)) = (0x8000000000002008, 4, [0x401], 0) ∧
      (let t := ran (.sd 7 6 0) s
       (t.th.eperr, t.th.pc, t.me.bad, t.me.mem.read 0x2008)) = (0, 4, [], 0x77) := by decide +kernel
theorem meets_VectorLocalAccesses_bad : let s := (vecAt 0x2000).onMe fun k => { k with bad := [0x403, 0x401], mem := k.mem.writeN 0x2000 (List.replicate 32 9) }
    let t := ran (.vld 7 6 0 0 0 0) s
    0x401 ∈ s.me.bad ∧ (t.th.readV 7, t.th.eperr, t.th.pc) =
      (lanesOf 8 ((List.range 32).map fun i => if i / 8 = 1 ∨ i / 8 = 3 then 0 else 9), 0x8000000000002008, 4) := by decide +kernel
theorem meets_VectorLocalAccesses_marked : let s := (vecAt 0x2000).onMe fun k => { k with cow := [8] }
    (ran (.vst 7 6 0 0) s).th.stalled = true ∧
      (let b := ((vecAt 0x2008).onMe fun k => { k with bad := [0x401] }).onTh fun t => { t with vlen := 1 }
       let t := ran (.vst 7 6 0 0) b
       b.me.cow = [] ∧ (t.th.eperr, t.me.bad, t.me.mem.read 0x2008, t.th.pc) = (0x8000000000002008, [0x401], 0, 4)) := by decide +kernel

/-- The commons page granted, with the issue buffer full, and without a record of the page. -/
theorem meets_Accesses_room : let s := granted [(6, BitVec.ofNat 64 ga1)]
    let full := s.onMe fun k => { k with accs := (List.range 128).map fun i => { id := 100 + i, slot := 5, name := 0, tset := 1, fid := 9, order := i, op := .load, ga := ga1, ops := [] } }
    let bare := s.onMe fun k => { k with plb := [] }
    (full.canLaunch [{ op := .load, ga := ga1, size := 8, dest := 5 }] 64 = false ∧ (ran (.cld 5 6) full).th.stalled = true ∧
      (ran (.cld 5 6) full).th.pc = 0) ∧
      (bare.me.ownerAt bare.self.domain ga1 true false = .refill ∧ (ran (.cld 5 6) bare).th.stalled = true ∧ (ran (.cld 5 6) bare).me.refills.length = 1) := by
  decide +kernel
/-- A DRAM page at home at another memory core. -/
theorem meets_Accesses_otherHome : let s := (memGranted [(6, BitVec.ofNat 64 ga0)]).onMe fun k => { k with plb := k.plb.map fun e => { e with home := 1, localOwner := 1 } }
    s.me.ownerAt s.self.domain ga0 true false ≠ .owner (memOwner s.cur) ∧ s.th.busy = true ∧ s.me.bufferUse < 128 ∧ s.self.state = .firing ∧
      s.self.tsetf = s.me.tset.val ∧ s.th.deferred = none ∧ ((ran (.dldD 5 6) s).th.deferred.map fun f => (f.cause, f.va)) =
        some (0xC000120100000000, BitVec.ofNat 64 ga0) ∧ (ran (.dldD 5 6) s).th.pc = 4 := by decide +kernel
/-- A store that awaits its replay, and is no longer counted. -/
theorem meets_ReclaimsAndFences_waits : let s := (firing []).onMe fun k => { k with accs := [{ id := 3, slot := 0, name := nameOf 1, tset := 0, fid := 1, order := 3, op := .storeD, ga := ga1, ops := [9], phase := .ticketed, entry := true, uncounted := true }] }
    s.self.cs = 0 ∧ (ran (.waitc 0 0 0 0) s).th.stalled = true ∧ (ran (.waitc 0 1 0 0) s).th.pc = 4 ∧ (ran (.waitc 0 0 0 0) (firing [])).th.pc = 4 := by
  decide +kernel

/-- An acquire of the firing that has no answer yet. -/
def acquires : Access := { id := 3, slot := 0, name := nameOf 1, tset := 0, fid := 1, order := 3, op := .loadAcq, ga := ga1, ops := [] }
theorem meets_QueueInstructions_acquiring : let s := (firing []).onMe fun k => { k with accs := [acquires] }
    let m := (mcmdWord matrix 2).onMe fun k => { k with accs := [acquires] }
    s.me.acquiring s.th.fid = true ∧ m.me.acquiring m.th.fid = true ∧ (ran (.copy 5) s).th.stalled = true ∧ (ran (.copyNb 10 5) s).th.stalled = true ∧
      (ran (.mcmd 10 9 11) m).th.stalled = true ∧ (ran (.cqpop 3) s).th.stalled = false := by decide +kernel
/-- A command beside 32 others, at an MT of 63, and one that reads a ring with no tile for it. -/
theorem meets_QueueInstructions_mcmdWaits : let s := mcmdWord matrix 2
    let stalls := fun (s : State) => ((ran (.mcmd 10 9 11) s).th.stalled, (ran (.mcmd 10 9 11) s).me.mq.length)
    let mq : Nat → State := fun n => s.onMe fun k => { k with mq := List.replicate n ⟨cmdOf 2 0, 0, 0, 1, 1, 0, 0, 0, 0⟩ }
    stalls (mq 32) = (true, 32) ∧ stalls (mq 31) = (false, 32) ∧ stalls (s.onSelf fun a => { a with mt := 63 }) = (true, 0) ∧
      stalls (s.onSelf fun a => { a with mt := 62 }) = (false, 1) ∧
      (let c := cmdOf 0x00000001_3004_E010 0x0001_0000_0001_0000
       let f := fun q => stalls ((mcmdWord matrix c).onSelf fun a => { a with accFmt := 0, rings := a.rings.map fun r => { r with rows := 1, rowb := 2, qpop := q } })
       cmdReads c = [0, 1] ∧ f 1 = (true, 0) ∧ f 0 = (false, 1)) := by decide +kernel
/-- An MSTORE of one FP32 element to a local range: in the actor's region, misaligned, out of every region, and in its mailbox. -/
theorem meets_QueueInstructions_range : let f := fun va => let t := ran (.mcmd 10 9 11) (mcmdWord matrix (cmdOf (10 + 2 ^ 16 + 2 ^ 24) (va + 8 * 2 ^ 20)))
      (t.th.cause, t.me.mq.map fun c => (c.ridx, c.born))
    (matrix.me.cmdCheck matrix.self (cmdOf (10 + 2 ^ 16 + 2 ^ 24) (0x2000 + 8 * 2 ^ 20)) = none) ∧ f 0x2FF8 = (0, [(1, 0)]) ∧
      f 0x2002 = (0x140000000004, []) ∧ f 0x3000 = (0x130400000002, []) ∧ f 0x1000 = (0x1301FFFFFFFF, []) ∧
      (ran (.mcmd 10 9 11) ((mcmdWord matrix (cmdOf (10 + 2 ^ 16 + 2 ^ 24) (0x2000 + 8 * 2 ^ 20))).onMe fun k => k.onRegion 1 fun e => { e with kind := kStream })).th.cause =
        0x130400000001 := by decide +kernel
/-- A completion record on c1, of a handler that may take one of it. -/
theorem meets_QueueInstructions_counted : let f := fun p => ((firing []).onSelf fun a =>
        { a with crCnt := 2, cchan := 1, popcnt := p, handlers := [{ req := 1, eclass := 0, prod := 4, entry := 128, cnt := #v[1, 0, 0, 0], use := #v[1, 1, 0, 0] }] }).onMe fun k =>
      { k with mem := k.mem.write64 (16 * 1024) 5 }
    let g := fun p => let t := ran (.cqpop 3) (f p)
      (V t 3, t.self.crCnt, t.self.popcnt)
    g 0 = (5, 1, 0x10) ∧ g 0x10 = (0, 2, 0x10) := by decide +kernel

theorem meets_RegionInstructions_kinds : let s := firing [(6, 0), (7, 1), (5, nameOf 2)]
    let bound := s.onTh fun t => { t with st := #v[0, 0x8001000000000000, 0, 0] }
    let tomb := fun pend => s.onMe fun k => k.onRegion 1 fun e => { e with tomb := true, pend := pend }
    (s.me.region 0).kind = 1 ∧ bound.th.bindsRegion 1 = true ∧ (ran (.rfree 6) s).th.cause = 0x130400000000 ∧ (ran (.rfree 7) bound).th.cause = 0x130400000001 ∧
      (ran (.give 9 5 6 2) s).th.cause = 0x130400000000 ∧ (ran (.give 9 5 7 2) bound).th.cause = 0x130400000001 ∧
      (ran (.rfree 7) (tomb true)).th.stalled = true ∧ ((ran (.rfree 7) (tomb false)).me.regions.get {} 1) = {} := by decide +kernel
/-- RFREE and GIVE of a region that a queued or active copy, a tile command, or an MDRAIN of the actor to itself names. -/
theorem meets_RegionInstructions_named : let s := firing [(6, 0), (7, 1), (5, nameOf 2)]
    let j := jobOf [0x1010000000000000, ga0, 0, 8]
    let frees := fun (t : State) => (ran (.rfree 7) t).th.stalled
    let queued := s.onMe fun k => { k with fifo := [⟨1, #v[0x1010000000000000, BitVec.ofNat 64 ga0, 0, 8], 0, nameOf 1, 0, 1, none, false⟩] }
    let active : State := { s with engines := [(0, { active := [j] })] }
    let tiles := s.onMe fun k => { k with mq := [⟨cmdOf (10 + 2 ^ 16) 0x2000, 0, 0, 0, 0, 1, 0, 0, 4⟩] }
    let drains := s.onMe fun k => { k with mq := [⟨cmdOf 11 1, nameOf 1, 0, 0, 0, 0, 0, 0, 4⟩] }
    queued.me.queuedNames 0 1 = frees queued ∧ active.activeNames 0 0 1 = frees active ∧ tiles.me.tileNames 0 1 = frees tiles ∧
      drains.drainsInto 0 0 1 = frees drains ∧ (frees queued, frees active, frees tiles, frees drains, frees s) = (true, true, true, true, false) ∧
      (ran (.give 9 5 7 2) active).th.stalled = true ∧ (ran (.give 9 5 7 2) (fifoFull s)).th.stalled = true ∧ s.isHere (nameOf 2) = false := by
  decide +kernel

/-- A recorded data error of class 3 at 0x2008. -/
def recorded (s : State) : State := s.onTh fun t => { t with eperr := 0x9800000000002008 }
theorem meets_EndsAndSuccessions_errors : let s := recorded (firing [])
    let r := recorded ((stockedFiring [(6, BitVec.ofNat 64 imgGa)]).onTh fun t => { t with m := #v[0, 0, 0x5000, 0, 0, 0, 0, 0] })
    s.th.eperr.getLsbD 63 = true ∧ s.self.cl = 0 ∧ (ran .retire s).th.cause = 0x4000200300000000 ∧ (ran .retire s).th.faultva = 0x2008 ∧
      (ran (.rets 6) r).th.cause = 0x4000200300000000 := by decide +kernel
theorem meets_EndsAndSuccessions_own : let s := (firing [(7, nameOf 1), (8, 0x40)]).onTh fun t => { t with status := 2 }
    X s 7 = s.self.name ∧ ((ran (.pkill 7 8) s).self.dying.map fun d => (d.reason, d.detail)) = some (0x40, 0) := by decide +kernel
/-- RETS with a name of its own for the successor: a free one, those of members, an exiting one, and one that no member can have. -/
theorem meets_EndsAndSuccessions_renamed : let s := fun (d : DirEntry → DirEntry) w =>
      ({ stockedFiring [(6, BitVec.ofNat 64 imgGa)] with dir := [((nameOf 1).toNat, entryOf 1 0 0), ((nameOf 2).toNat, d (entryOf 2 1 0))] } : State).onTh fun t =>
        { t with m := #v[0, 0, 0x1000, 0, 0, 0, 0, w] }
    let f := fun d w => let t := ran (.rets 6) (s d w)
      (t.th.cause, (t.me.actor 0).name == nameOf 5, t.th.stalled)
    (Keep.ofMsg (s id 5).th.m).name = false ∧ f id 5 = (0, true, false) ∧ f id 2 = (0x100300000000, false, false) ∧ f (fun e => { e with state := 2 }) 2 = (0, false, true) ∧
      f id (2 ^ 48 - 1) = (0x100300000000, false, false) ∧ ((ran (.rets 6) (s id 5)).me.actor 0).incarn = 0 ∧
      ((ran (.rets 6) (s id 5)).dirEntry (nameOf 1)).isNone = true := by decide +kernel

/-- A command whose region has been freed, and allocated again. -/
theorem meets_TileCommandsAndFaults_again : let s := fun b => (tiled (10 + 2 ^ 16 + 2 ^ 24) (0x2000 + 8 * 2 ^ 20)).onMe fun k => k.onRegion 1 fun e => { e with born := b }
    ((s 7).me.regions.get {} 1).liveOf 0 = true ∧ ((ran (.mstore 0) (s 7)).th.deferred.map (·.cause)) = some 0x800018060000010A ∧
      ((ran (.mstore 0) (s 0)).th.deferred.map (·.cause)) = none := by decide +kernel

theorem meets_BestSelected_some : let s := woken
    (0, (s.core 0).actor 0) ∈ (s.core 0).slots ∧ (((s.core 0).actor 0).handlers[0]?).isSome = true ∧
      ((((s.core 0).actor 0).handlers[0]?).map fun h => (s.core 0).eligible (s.cceil 0) 0 0 h) = some true ∧
      ((((pod.core 0).actor 0).handlers[0]?).map fun h => (pod.core 0).eligible (pod.cceil 0) 0 0 h) = some false ∧ (pod.core 0).select (pod.cceil 0) = none := by
  decide +kernel
/-- A pre-empted actor that nothing holds, and one that a request of its slot does. -/
theorem meets_FiringEvents_preemptedAges : let s := atCycle 65536 (pod.onActor 0 0 fun a => { a with state := .preempted, save := 0 })
    let h := s.onCore 0 fun k => { k with holds := [.slot 0] }
    (s.core 0).held 0 = false ∧ (s.actor 0 0).agedAt + 65536 ≤ s.cycle 0 ∧ ((ran (.priorityAgeing 0 0) s).actor 0 0).eprio = 2 ∧
      (h.core 0).held 0 = true ∧ ((ran (.priorityAgeing 0 0) h).actor 0 0).eprio = 3 := by decide +kernel
/-- A deadline that has come, before it has, and one that was written in this cycle. -/
theorem meets_FiringEvents_timerTimes : let f := fun at_ d => let s := atCycle 100 (pod.onActor 0 0 fun a => { a with timer := 2 ^ 63 + d, timerAt := at_ })
      let t := ran (.timerExpiry 0 0) s
      (((t.core 0).chan 0 3).cnt, (t.actor 0 0).timer.getLsbD 63)
    f 99 100 = (1, false) ∧ f 99 101 = (0, true) ∧ f 100 50 = (0, true) := by decide +kernel
/-- Core 0 with spawns that wait, beside core 1 with none and three neighbours with one each that is not filled. -/
def laden (n now : Nat) : State :=
  let p := [3, 4, 12].foldl (fun (s : State) c => s.onCore c fun k => { k with spawns := [spawnOf 90 false] }) (atCycle now pod)
  p.onCore 0 fun k => { k with spawns := (List.range n).map fun i => { spawnOf (10 + i) true with id := i } }
theorem meets_FiringEvents_ships : let f := fun n now => let t := ran (.loadLevelling 0) (laden n now)
      ((t.core 0).spawns.map fun e => e.name.toNat % 2 ^ 16, (t.core 1).spawns.map fun e => e.name.toNat % 2 ^ 16, (t.pkg 0).levelled)
    neighbours 0 = [1, 4, 3, 12] ∧ [3, 4, 12].map (fun c => ((laden 5 8192).core c).load) = [1, 1, 1] ∧ ((laden 5 8192).core 1).load = 0 ∧
      f 5 8192 = ([10, 11, 12], [13, 14], 1) ∧ f 1 8192 = ([10], [], 1) ∧ f 2 16384 = ([10], [11], 2) ∧ f 5 8193 = ([10, 11, 12, 13, 14], [], 0) ∧
      f 12 8192 = ([10, 11, 12, 13, 14, 15, 16, 17], [18, 19, 20, 21], 1) := by decide +kernel
/-- A stopped firing that stands at a trap is not saved. -/
theorem meets_Preemptions_traps : let f := fun (s : State) => (s.me.trapsHere 0, (ran (.preemptionSave 0 0) s).th.busy)
    stopped.me.trapsHere 0 = false ∧ f stopped = (false, false) ∧
      f (stopped.onTh fun t => { t with deferred := some ⟨0x8000180600000002, 0x2000, 4, 0⟩ }) = (true, true) ∧ f (stopped.onTh fun t => { t with pc := 1024 }) = (true, true) := by
  decide +kernel
/-- Words 0 and 31 of the contexts of firings, one with x31 not present, one whose stream read lands with the save. -/
theorem meets_Preemptions_absent : let s := stopped.onTh fun t => { t with xp := t.xp &&& ~~~(1#32 <<< 31) }
    let words := fun (t : Thread) => ((t.context 0)[31]?, (t.context 0)[0]?)
    (s.th.hereX 31, s.th.x[31]) = (false, 0x77) ∧ words s.th = (some 0, some 12) ∧ words stopped.th = (some 0x77, some 12) ∧
      words ((s.onTh fun t => { t with landing := some (31, 5) }).th.land 1) = (some 5, some 12) := by decide +kernel

/-- An answer for an earlier place of a message, and a message that finds its channel full. -/
theorem meets_MessageEvents_tags :
    let s := (sentTo2.onCore 0 fun k => { k with sends := k.sends.map fun e => { e with phase := .sent, tag := some 1 } }).post 0
      (.sendAnswer 0 (sentTo2.me.next - 1) (some 2) .placed)
    let t := ran (.sendAnswer 10) s
    let u := ran (.messageArrival 9) (sentTo2.onCore 1 fun k => k.setChan 0 0 ⟨0, 4, 0, 4⟩)
    (s.packet 10).isSome = true ∧ (t.me.sends.length, (t.packet 10).isSome) = (1, false) ∧ u.me.sends.map (fun e => e.phase) = [.sent] ∧
      (u.packet 10).map (·.pay) = some (.sendAnswer 0 (sentTo2.me.next - 1) none (.overflow 0 1)) ∧ ((u.core 1).chan 0 0).cnt = 4 := by decide +kernel
/-- An older message to the same channel whose stale answer is under way, or has been heard. -/
def behindOlder (heard : Bool) : State :=
  let s := sentTo2.onCore 0 fun k => { k with sends := k.sends.flatMap fun e =>
    [{ e with id := e.id + 9, phase := .sent, dest := some 0, core := 1, tag := some 3 }, { e with order := e.order + 5 }] }
  if heard then s else s.post 0 (.sendAnswer 0 (sentTo2.me.next + 8) (some 3) .stale)
theorem meets_MessageEvents_stale : let f := fun h => let s := behindOlder h
      (s.me.sends.map fun e => (s.behindStale 0 e, s.me.staysBehind e 1), (ran (.messageArrival 9) s).me.sends.map fun e => e.phase)
    f false = ([(false, false), (true, false)], [.sent, .waiting]) ∧ f true = ([(false, false), (false, false)], [.sent, .sent]) := by decide +kernel

/-- An MDRAIN of actor 1, of an MT of 3, to a name. -/
def drainTo (n off t : Nat) : State := (pod.onActor 0 0 fun a => { a with mt := 3 }).post 0 (.drain
  { name := nameOf 1, inc := 1, core := 0, slot := 0, domain := 7, dst := nameOf n, tag := 5, chan := 1, tridx := t, off := off, pitch := 4, fmt := 1
    m := 1, n := 1, unchk := false, rows := [[1, 2, 3, 4]], esize := 4 })
theorem meets_ParcelEvents_mtFalls : let f := fun s => let t := ran (.mdrainDelivery 9) s; ((t.actor 0 0).mt, (t.packet 9).isSome, detailAt t 10)
    (drainTo 77 0 1).reachMailbox 7 (nameOf 77) = .nobody ∧ (drainTo 1 0 1).jobLives 0 0 (nameOf 1) = true ∧
      f (drainTo 77 64 1) = (2, false, some (0x100 + 64 * 2 ^ 32)) ∧ f (drainTo 2 4096 1) = (2, false, some (0x109 + 4096 * 2 ^ 32)) ∧
      f ((drainTo 2 0 1).onCore 1 fun k => k.setChan 0 1 ⟨4, 4, 0, 4⟩) = (2, false, some 0x101) ∧ f (drainTo 2 0 1) = (2, false, none) ∧
      f (drainTo 1 0 1) = (2, false, none) := by decide +kernel
theorem meets_ParcelEvents_places : let s := parcelPod (parcelOf .asking)
    let t := ran (.parcelReservation 9) s
    ((t.core 1).regions.get {} 4).born = (s.core 1).next ∧ (t.packet 9).map (·.pay) =
      some (.parcel { parcelOf .reserved with rcore := 1, rslot := 0, rinc := 1, rentry := 4, rbox := (s.core 1).boxBorn 0 }) := by decide +kernel
/-- A waiting signal with a bank word in error: the search records it. -/
theorem meets_SignalPlacement_bad : let k := { c3With (signalOf 6 0x52) with bad := [((coreOf 1).entryAt 0 12 + 16) / 8] }
    (((c3With (signalOf 6 0x52)).noteSignals 0).actor 0).heldErr = 0 ∧ ((k.noteSignals 0).actor 0).heldErr = 0x8000000000003410 := by decide +kernel

theorem meets_Arrivals_scope : let s : State := { arriving { signalOf 3 2 with subject := nameOf 5 } with scopes := [⟨nameOf 1, 1, signalOf 3 2, [], [nameOf 5]⟩] }
    let t := ran (.childExitArrival 9) s
    s.inScope (nameOf 1) (nameOf 5) = true ∧ t.inScope (nameOf 1) (nameOf 5) = false ∧
      ((t.core 0).chan 0 3).cnt = 1 ∧ (t.core 0).mem.read64 ((coreOf 1).entryAt 0 12 + 16) = 0x0302040000000000 := by decide +kernel
/-- Actor 2 a child of actor 1 beside the one that has exited. -/
def sibling (strat subject : Nat) : State :=
  let s := child 0 2 2 []
  { (s.onCore 0 fun k => { k with sups := k.sups.mapVals fun _ e => { e with strat := strat } }).setDir { entryOf 2 1 0 with supv := nameOf 1 } with
    net := s.net.mapVals fun _ p => { p with pay := match p.pay with
      | .signal g => .signal { g with subject := nameOf subject }
      | q => q } }
theorem meets_Arrivals_strategies : let f := fun strat subject => let t := ran (.childExitArrival 9) (sibling strat subject)
      ((t.actor 1 0).dying.map (·.reason), t.scopes.map fun x => x.waiting)
    ((sibling 1 5).childrenOf (nameOf 1)).map (·.name) = [nameOf 2] ∧ f 1 5 = (some 2, [[nameOf 2]]) ∧ f 2 5 = (none, [[]]) ∧
      f 2 1 = (some 2, [[nameOf 2]]) ∧ f 0 5 = (none, [[]]) := by decide +kernel
theorem meets_Arrivals_modes : let f := fun mode reason => let t := ran (.childExitArrival 9) (child mode 2 reason [])
      (((t.core 0).chan 0 3).cnt, (t.core 0).sups.map fun p => p.2.stamps)
    f 1 0 = (1, [[]]) ∧ f 1 2 = (0, [[10]]) ∧ f 0 0 = (0, [[10]]) ∧
      ((ran (.childExitArrival 9) (child 0 2 2 [5, 3])).actor 0 0).dying = some { reason := 0x43, sub := 0, detail := 0 } := by decide +kernel
theorem meets_Arrivals_cut : let s := (waitingKill false 0).onPkg 0 fun p => { p with cairns := [{ domain := 7, id := 1, step := 2, dest := 0, room := 0, chan := 0, asker := nameOf 2 }] }
    s.cut 7 = true ∧ s.reach 7 false (nameOf 2) = .actor 1 0 ∧
      ((ran (.killArrival 9) s).packet 9).map (·.pay) = some (.kill (nameOf 2) (nameOf 1) 1 7 false 2 0 true) := by decide +kernel
/-- A link request for an incarnation that has ended. -/
theorem meets_Arrivals_incarnation : let f := fun op => let s := (asking op 2).onActor 1 0 fun a => { a with incarn := 2 }
      let t := ran (.peerLinkRequest 9) s
      ((t.core 1).links, (t.packet 10).bind fun p => match p.pay with
        | Payload.signal g => some (g.kind, g.reason)
        | _ => none)
    f .link = ([], some (1, 0x33)) ∧ f .monitor = ([], some (2, 0x33)) := by decide +kernel
/-- Actor 1 dead, with a watcher, a peer and a supervisor, which has a rule for it or not. -/
def watched (ruled : Bool) : State :=
  ((dyingPod true).setDir { entryOf 1 0 0 with state := 2, supv := nameOf 2 }).onCore 0 (fun k => { k with links := k.links ++ [(2, ⟨3, 0, 4, nameOf 2, 1⟩)] })
    |>.onCore 1 fun k => { k with sups := if ruled then [(0, ⟨0, 0, 0x2A, 0, 9, 0, 0, 2, 1000, []⟩)] else [] }
theorem meets_Deaths_notices : let f := fun r => let s := watched r
      let t := ran (.deathReclaim 0 0) s
      (s.restartFollows (nameOf 2) (nameOf 1) 0x13, (t.dirEntry (nameOf 1)).map (·.state), t.net.map fun p => match p.2.pay with
        | Payload.signal g => (g.kind, g.reason, g.sub)
        | _ => (0, 0, 0))
    f false = (false, none, [(1, 0x13, 2), (2, 0x13, 2), (3, 0x13, 2)]) ∧ f true = (true, some 3, [(1, 0x13, 2), (2, 0x13, 2), (3, 0x13, 2)]) := by decide +kernel
theorem meets_Deaths_counters : let t := ran (.death 0 0) ((dyingPod false).onActor 0 0 fun a => { a with cs := 3, cp := 4, mt := 5, crResv := 2 })
    let n := t.actor 0 0
    (n.cl, n.cs, n.cp, n.mt, n.crResv) = (0, 0, 0, 0, 0) := by decide +kernel

/-- A page that its owner has moved away and whose collapse it still asks for; an access that has been answered, and one whose wait is lodged. -/
theorem meets_AccessEvents_collapsing :
    let s := fun op => (accessing (some .moved) (accessOf op [9])).onOwner 64 fun w => { w with svcs := [{ page := page1, tkt := 7, code := 4, subs := [0] }] }
    let f := fun op => (ran (.accessAtOwner 0 3) (s op)).me.accs.head?.bind (·.answer)
    (s .storeD).collapsing 64 page1 = true ∧ f .storeD = some (.ticket 4 7 0) ∧ f .load = some (.ticket 2 0 65) := by decide +kernel
theorem meets_AccessEvents_indeterminate : let f := fun a => (ran (.accessIndeterminate 0 3) (atCycle 47000 (accessing (some .mapped) a))).me.accs.length
    let a := { accessOf .loadGe [9] with tag := some 1 }
    f { a with phase := .answered, answer := some (.value [0x55] 3) } = 0 ∧ f { a with phase := .busy } = 0 ∧
      f { a with phase := .answered, answer := some (.value [0x55] 3), waited := true } = 1 ∧ f { a with phase := .lodged, waited := true } = 1 := by decide +kernel

/-- A burst that meets a ticket while the engine's table is full, one that is paused, and one whose refill goes unanswered. -/
theorem meets_CopyServed_paused : let st := fun (bs : List Burst) (n : Nat) (fst : FState) =>
      let j := { toRegion with bursts := bs ++ (List.range n).map fun i => { ga := ga0, idx := i + 1, write := false, phase := .ticketed, entry := true } }
      { copying j with owners := [(0, { homes := [(ga0 / 65536, { fstate := fst })] })] }
    let f := fun bs n fst => let s := st bs n fst
      match ((s.engine 0).active.head?.bind fun j => s.burstRun 0 j { ga := ga0, n := 8, off := 0 } 0 false [] false) with
      | some (.wait t) => some ((t.engine 0).active.map fun j => (j.bursts.filter (·.idx == 0)).map (·.phase))
      | some _ => some []
      | none => none
    ((st [] 64 .absent).engine 0).tickets = 64 ∧ f [] 64 .absent = some [[.paused]] ∧ f [] 63 .absent = some [[.ticketed]] ∧
      f [{ ga := ga0, write := false, phase := .paused }] 64 .mapped = none ∧ (f [{ ga := ga0, write := false, phase := .paused }] 63 .mapped).isSome = true := by
  decide +kernel
theorem meets_CopyServed_refill : let s := { ((copying toRegion).onEngine 0 fun g => { g with plb := [] }).onPkg 1 (fun p => { p with lost := true }) with dirMap := [(0, 1), (5, 1)] }
    s.plbWaits 0 7 ga0 = true ∧ ranAs s toRegion = "stays" ∧ (copying toRegion).plbWaits 0 7 ga0 = false := by decide +kernel
theorem meets_CopyServed_marked : let s := (copying toRegion).onMe fun k => { k with cow := [8] }
    s.me.cowHit (s.me.region 1) 0x2000 8 = true ∧ jobAfter (.copyDramToRegion 0 2) s = some (.running, 0) := by decide +kernel
/-- A slab of one block of 8 bytes, to one target and to two: actors 1 and 2, or actors 2 and 3. -/
def slabJob (first width : Nat) (done : List Nat) : Job := { jobOf [0x4000000000000000, ga0, first + 2 ^ 48 + (width - 1) * 2 ^ 52, 1 + 8 * 2 ^ 24] with done := done }
def slabbed (j : Job) : State :=
  [0, 1].foldl (fun (s : State) c => s.onCore c fun k => k.onRegion 1 fun e => { e with decl := 1 }) (copying j)
theorem meets_CopyServed_slab : let f := fun first width done => jobAfter (.slabScatter 0 2) (slabbed (slabJob first width done))
    ((slabbed (slabJob 2 1 [])).slabRegion (slabJob 2 1 []) 1 0 0).isSome = true ∧ f 2 1 [] = some (.ended 0 0, 8) ∧
      ((ran (.slabScatter 0 2) (slabbed (slabJob 2 1 []))).core 1).mem.read 0x2003 = 4 ∧ ((slabJob 1 2 []).pieces {}).map (fun p => (p.n, p.target)) = [(8, 0), (0, 1)] ∧
      f 1 2 [0] = some (.ended 0 0, 0) ∧ f 2 2 [0] = some (.ended 1 0x0F, 0) ∧
      (slabbed (slabJob 2 2 [0])).reach 7 false (nameOf 3) = .nobody ∧ f 3 1 [] = some (.ended 1 0x0F, 0) := by decide +kernel
/-- A stream request that empties the bound buffer: with a word in it and room for one, and full. -/
theorem meets_CopyServed_streamOut : let j := jobOf [0x7041000000000000, ga0, 16, 0]
    let s := fun (v : W64) => ((copying j).onMe fun k => { k with regions := k.regions.put 4 { valid := true, base := 20, size := 1, kind := kStream, rd := true } }).onTh
      fun t => { t with st := #v[0, v, 0, 0] }
    jobAfter (.streamRequest 0 2) (s 0xC004000000000005) = some (.running, 8) ∧ jobAfter (.streamRequest 0 2) (s 0xC004000000000080) = some (.running, 0) ∧
      jobAfter (.streamRequest 0 2) (s 0xE004000000000080) = some (.ended 3 0, 0) ∧ jobAfter (.streamRequest 0 2) (s 0x8004000000000080) = some (.running, 0) ∧
      ((ran (.streamRequest 0 2) (s 0xC004000000000005)).th.st[1]) = 0xC004000000000006 := by decide +kernel
/-- Requests of each kind when they start: the phase, with nothing to move and with something. -/
theorem meets_CopyServed_phases : let f := fun (w : List Nat) =>
      let s := ((firing []).onMe fun k => { k with
        fifo := [⟨1, Vector.ofFn fun i => BitVec.ofNat 64 ((w[i.val]?).getD 0), 0, nameOf 1, 0, 1, none, false⟩]
        regions := k.regions.put 4 { valid := true, base := 20, size := 1, kind := kStream, rd := true, wr := true } }).onSelf fun a =>
          { a with rings := #v[{ valid := true, ridx := 4, rows := 1, rowb := 1, depth := 2 }, {}, {}, {}] }
      let t := ran (.copyStart 0) (s.onTh fun t => { t with st := #v[0, 0x8004000000000000, 0, 0] })
      ((t.engine 0).active.map (·.phase), (t.self.ring 0).feed)
    f [0x1010000000000000, ga0, 0, 0] = ([.ended 0 0], 0) ∧ f [0x2010000000000000, ga0, 0, 8] = ([.running], 0) ∧
      f [0x4000000000000000, ga0, 2, 1 + 8 * 2 ^ 24] = ([.running], 0) ∧ f [0x5010000000000000, ga0, 0x2000, 0] = ([.ended 0 0], 0) ∧
      f [0x5010000000000000, ga0, 0x2000, 1 + 8 * 2 ^ 16 + 8 * 2 ^ 32] = ([.running], 0) ∧ f [0x6000000000000000, ga0, 32, 0] = ([.running], 1) ∧
      f [0x7041000000000000, ga0, 16, 0] = ([.running], 0) ∧ f [0xA010000000000000, 8, 0x55, 0] = ([.ended 0 0], 0) := by decide +kernel
/-- What the checks of a request say: FCODE, FADDR, LOCAL and DETAIL. -/
def checked (s : State) (w : List Nat) : Option (Nat × W64 × Bool × BitVec 32) := (s.copyCheck (jobOf w)).map fun r => (r.fcode, r.faddr, r.localAddr, r.detail)
theorem meets_CopyServed_checks : [[0xB010000000000000, ga0, 0, 8], [0x0010000000000000, ga0, 0, 8], [0x1010000000010000, ga0, 0, 8], [0x1010000000000000, ga0, 2 ^ 20, 8],
    [0x1090000000000000, ga0, 0, 8], [0x1030000000000000, ga0, 0, 8]].map (checked (firing [])) =
    [some (1, 0, false, 0), some (1, 0, false, 0), some (2, 0, false, 0), some (2, 0, false, 0), some (3, 0, false, 9), some (4, 0x4000, true, 3)] := by
  decide +kernel
theorem meets_CopyServed_ranges : [[0x1010000000000000, ga0, 4088, 16], [0x1010000000000000, ga0, 4088, 8], [0x1010000000000000, ga0 + 4, 0, 8],
    [0x1010000000000000, ga0, 4, 8], [0x1010000000000000, ga0, 0, 12], [0x6000000000000000, ga0, 0, 0]].map (checked (firing [])) =
    [some (6, 0x2FF8, true, 1), none, some (7, BitVec.ofNat 64 (ga0 + 4), false, 1), some (7, 0, false, 2), some (7, 0, false, 3), some (0x0C, 0, false, 0)] := by
  decide +kernel
theorem meets_CopyServed_lists : [[0x5010000000000000, ga0, 0x9000, 1], [0x5010000000000000, ga0, 0x2FFC, 2], [0x5010000000000000, ga0, 0x2FFC, 1]].map (checked (firing [])) =
    [some (3, 0x9000, true, 0xFFFFFFFF), some (6, 0x2FFC, true, 1), none] := by decide +kernel
/-- Region 1 without its right, a data region or a stream buffer that s1 binds. -/
theorem meets_CopyServed_rights : let d := fun (p : W64 × Nat) => checked (((firing []).onMe fun k => k.onRegion 1 fun e =>
      { e with wr := false, kind := if p.1 = 0 then 0 else kStream }).onTh fun t => { t with st := #v[0, p.1, 0, 0] }) [p.2, ga0, if p.1 = 0 then 0 else 16, if p.1 = 0 then 8 else 0]
    let w := 0x7011000000000000
    [(0, 0x1010000000000000), (0x8001000000000000, w), (0xC001000000000000, w), (0xE001000000000000, w), (0xC002000000000000, w)].map d =
      [some (5, 0x2000, true, 1), some (5, 0x2000, true, 1), none, some (0x0D, 0, false, 1), some (0x0D, 0, false, 1)] := by decide +kernel

/-- A page that was lost at another owner. -/
theorem meets_PageEvents_lostElsewhere : let s := (paged 1 (some {}) 1).onOwner 65 fun w => { w with homes := [(page1, { fstate := .lost })] }
    s.lostElsewhere 64 page1 = true ∧ (paged 1 (some {}) 1).lostElsewhere 64 page1 = false ∧ (s.freeFrame 64).isSome = true ∧
      pageAfter (.firstMapping 64 page1) s 64 = some (some .lost, 0) := by decide +kernel
/-- A drop at the owner that has asked for the collapse leaves its service open. -/
theorem meets_PageEvents_lastNotice : let s := (paged 3 (some { fstate := .replica }) 4).post 0 (.drop 64 65 [page1] 9)
    s.collapsing 64 page1 = true ∧ (s.owner 64).moved.length + 1 ≤ 1024 ∧ pageAfter (.replicaDrop 9) s 64 = some (some .moved, 1) := by decide +kernel
/-- The record of a duplicated range, with replicas on packages 0 and 1. -/
theorem meets_PageEvents_replicas : let h := { hintOf1 3 with nkeep := 2, keep := #v[0, 1, 0, 0] }
    let s : State := { (paged 3 (some { fstate := .replica }) 4).onPkg 1 (fun _ => plain) with hints := [(hintKeyOf ga1, h)] }
    let t := ran (.directoryCollapse 9) (s.post 0 (.collapse 64 page1 0))
    h.replicas = [64, 576] ∧ s.ownerLive 576 = true ∧ (t.net.map fun p => match p.2.pay with
      | .drop q home pages _ => (q, home, pages.length, pages.contains page1)
      | _ => (0, 0, 0, false)) = [(576, 64, 32, true), (0, 0, 0, false)] := by decide +kernel
theorem meets_PageEvents_parked : let s := paged 2 (some { fstate := .parked }) 0
    let t := ran (.migrationBegin page1 65) s
    s.pageAt 64 page1 = .held .parked ∧ ((t.owner 64).homes.find page1).map (fun e => (e.fstate, e.prior)) = some (.migrating, .parked) ∧
      pageAfter (.migrationEnd page1) ({ t with hints := [] } : State) 64 = some (some .parked, 0) := by decide +kernel
/-- A frame joins the list as R147 lays its entry out: near channel 3, frame 1; far channel 23 of die 3, frame 7. -/
theorem meets_PageEvents_badFrame : let s := { paged 1 none 0 with owners := [(3, { homes := [(page1, { fstate := .migrating, prior := .mapped, frame := 1, corrected := List.range 8 })] })] }
    let t := fun b => ran (.frameRetirement 3 page1 b) s
    ((t true).pkg 0).badFrames = [badEntry 3 1] ∧ ((t false).pkg 0).badFrames = [badEntry 3 1] ∧ badEntry 3 1 = BitVec.ofNat 32 (3 * 2 ^ 22 + 2 ^ 5) ∧
      badEntry (3 * 128 + 55) 7 = BitVec.ofNat 32 (2 ^ 30 + 3 * 2 ^ 28 + 23 * 2 ^ 22 + 7 * 2 ^ 5) ∧
      (s.freeFrame 3, ({ s with owners := [] }.onPkg 0 fun p => { p with badFrames := [badEntry 3 0] }).freeFrame 3,
        ({ s with owners := [] }.onPkg 0 fun p => { p with badFrames := [badEntry 3 0] }).freeFrame 67) = (some 0, some 1, some 0) := by decide +kernel
/-- A record of a duplicated range whose second replica is on a package that the pod has or has not. -/
theorem meets_PageEvents_rdup : let ws : List W64 := [2 ^ 49 + 3 * 2 ^ 37 + 2 * 2 ^ 34, 2 ^ 24, 7 * 2 ^ 48, 0]
    let f := fun (s : State) => (ran (.hintRecordWrite 1 5 ws) s).hints.map fun h => (h.2.policy, h.2.kept)
    (Hint.ofWords ws 0).map (fun h => (h.suits 1, h.home, h.replicas)) = some (true, some 64, [64, 576]) ∧ pod.ownerLive 64 = true ∧ pod.ownerLive 576 = false ∧
      f pod = [] ∧ f (pod.onPkg 1 fun _ => plain) = [(3, [0, 1])] := by decide +kernel

/-- Performance counter 1 of engine 0, and counter 0 of owner 64; the last engine of die 1. -/
theorem meets_CountersAndPower_units : let e : W64 := 2 ^ 20 + 1
    let o : W64 := 2 * 2 ^ 20 + 64 * 2 ^ 4
    let w := fun event => selWord - 1 + event
    let t := fun id event => ran (.counterProgram 9) (asked 3 2 [id, w event] hosted)
    counterRef (2 ^ 46 + 2 ^ 20 + 63 * 2 ^ 4 + 1) = some (.enginePmc 127 1) ∧ counterRef e = some (.enginePmc 0 1) ∧ counterRef o = some (.ownerPmc 64 0) ∧
      hosted.programStatus (asking4 3 2 [o, w 0x60]) (some (.ownerPmc 64 0)) (w 0x60) = 0 ∧ ((t o 0x60).owner 64).pmcs[0].event = 0x60 ∧
      hosted.programStatus (asking4 3 2 [e, w 0x40]) (some (.enginePmc 0 1)) (w 0x40) = 0 ∧ ((t e 0x40).engine 0).pmcs[1].event = 0x40 := by decide +kernel
/-- Knobs of the first die and the hub after a sample over the budget, at the floor of the first, while a drain keeps that at full, and raised. -/
theorem meets_CountersAndPower_knobs : let s := fun calm l => atCycle 940 (pod.onPkg 0 fun p => { p with
      form := 3, hub := { p.hub with budget := 160 }, dies := p.dies.map fun d => { d with budget := 600, calm := calm, cceil := 2, knobs := l } })
    let f := fun p calm l => ((ran (.powerSample 0 (readings p 0)) (s calm l)).pkg 0).dies[0].knobs
    f 601 0 [8, 8, 4, 4, 4, 4, 4] = [7, 8, 4, 4, 4, 4, 4] ∧ f 601 0 [1, 8, 4, 4, 4, 4, 4] = [1, 7, 4, 4, 4, 4, 4] ∧ f 601 0 [1, 1, 1, 1, 1, 1, 1] = [1, 1, 1, 1, 1, 1, 1] ∧
      f 540 9 [1, 7, 4, 4, 4, 4, 4] = [1, 8, 4, 4, 4, 4, 4] ∧ f 540 8 [1, 7, 4, 4, 4, 4, 4] = [1, 7, 4, 4, 4, 4, 4] ∧ f 541 9 [1, 7, 4, 4, 4, 4, 4] = [1, 7, 4, 4, 4, 4, 4] ∧
      (ran (.powerSample 0 (readings 540 0)) ((s 0 [8, 8, 4, 4, 4, 4, 4]).onPkg 0 fun p => { p with hub := { p.hub with budget := 99, knobs := [8] } }) |>.pkg 0).hub.knobs = [4] := by
  decide +kernel
/-- What a registered actor is told of a step, and of the first sample at or below its cap. -/
theorem meets_CountersAndPower_told : let s := pod.onPkg 0 fun p => { p with form := 3, powRegs := [⟨nameOf 1, 7⟩] }
    let t := ran (.powerStep 0 3) (atCycle 1880 (ran (.powerStep 0 3) (atCycle 940 s)))
    let u := ran (.powerSample 0 (readings 100 0)) (atCycle 2820 t)
    let told := fun (s : State) n => (s.packet n).bind fun p => match p.pay with
      | Payload.signal g => some (g.kind, g.reason, g.sub, g.detail)
      | _ => none
    told t 9 = some (6, 0x50, 1, 3 * 2 ^ 60 + 15 * 2 ^ 56) ∧ (t.pkg 0).step = some (3, 15, false, 1880) ∧ (u.pkg 0).step = none ∧
      told u 10 = some (6, 0x50, 2, 3 * 2 ^ 60 + 15 * 2 ^ 56 + 1) ∧
      ((ran (.powerSample 0 (readings 721 0)) (atCycle 2820 t)).pkg 0).step = some (3, 15, false, 1880) := by decide +kernel

/-- A frozen member, which takes no part: the others decide where they find it silent too. -/
theorem meets_HostEvents_frozen : let s := fun n => ({ twoPackages with pkgs := twoPackages.pkgs ++ [(2, { plain with frozen := true })], npkg := 3 } : State).onPkg 0 fun p =>
      { p with silent := [(1, 188000), (2, n)] }
    ((ran (.packageLost 1) (s 188000)).pkg 1).lost = true ∧ ((ran (.packageLost 1) (s 187999)).pkg 1).lost = false := by decide +kernel
theorem meets_HostEvents_recovering : let s := hosted.onPkg 0 fun p => { p with isReady := false, fw := p.fw.map fun f => { f with recovery := true }, conns := [(1, { domain := 0 })] }
    (s.pkg 0).recovering = true ∧ (s.frameIn 0 0 head0 1).isSome = true ∧ [1, 2, 3].map (fun c => (s.frameIn 0 c head0 1).isSome) = [false, false, false] ∧
      ((ran (.connectionOpen 0 2 7) s).pkg 0).conns.length = 2 ∧ ((hosted.onPkg 0 fun p => { p with isReady := false }).frameIn 0 0 head0 1).isSome = false := by decide +kernel
theorem meets_HostEvents_untrained : let f := fun k => ((ran (.linkModeChange 0 15 .erasure) (hosted.onPkg 0 fun p => { p with bringUp := k })).pkg 0).ports[15].mode
    f 3 = .full ∧ f 4 = .erasure := by decide +kernel
/-- A directory map update beside a member that is quiesced or frozen waits. -/
theorem meets_HostEvents_still : let s := twoPackages.onPkg 1 fun p => { p with lost := true }
    let f := fun (g : Package → Package) => (ran (.directoryMapUpdate 1) (s.onPkg 0 g)).dirPackage 1
    f id = 0 ∧ f (fun p => { p with frozen := true }) = 1 := by decide +kernel

theorem meets_FirmwareEvents_loader : let s := pod.onPkg 0 fun p => { p with loader := { running := none, flash := none, recovery := true }, fw := p.fw.map fun f => { f with running := none, recovery := true } }
    let t := (ran (.recoveryImage 0 { fwA 3 with fw := 0 }) s).pkg 0
    (s.pkg 0).runs = true ∧ (s.pkg 0).loader.floor ≤ (fwA 3).svn ∧ (t.loader.running.map (·.schema), t.loader.recovery) = (some 3, false) ∧
      t.fw.toList.map (fun f => (f.running.map (·.schema), f.recovery)) = List.replicate 3 (some 1, false) ∧ t.alert = false := by decide +kernel
/-- A revert tells how many of its journal's entries the old firmware skips: those of a schema above its own. -/
theorem meets_FirmwareEvents_skipped : let s := (replacing .probation 5).onPkg 0 fun p => { p with
      attRegs := [⟨nameOf 1, 7⟩], repl := some { replA .probation with journal := [⟨1, 1, []⟩, ⟨1, 2, []⟩, ⟨2, 2, []⟩] } }
    let t := ran (.revert 0) s
    ((t.packet 9).bind fun p => match p.pay with
      | Payload.signal g => some (g.kind, g.reason, g.sub, g.detail.toNat % 2 ^ 16)
      | _ => none) = some (6, rMeasure, 2, 2) := by decide +kernel
/-- Places of a bank that are reserved for a page that migrates to it: one trigger and one wait, beside 31 and 32 triggers of its own. -/
theorem meets_BankOperations_reserved : let w := (ga1 + 0x410) / 8
    let p := page1 + 1
    let g : Trigger := ⟨p * 8192, nameOf 2, 1, 5, 6, nameOf 1, 1, 7⟩
    let f := fun n => let s := ({ firing [] with
        words := [(w, full 5 9)], migrations := [⟨p, 65, 64⟩]
        banks := [(256, { trigs := (List.range n).map fun i => { g with word := i } }), (260, { conts := [⟨p * 8192, 3, .wait 0 7 false false⟩], trigs := [g] })] } : State).onMe fun k =>
          { k with accs := [accessOf .arm [nameOf 2, 5, 6]] }
      (s.reservedAt 256, ((s.applyAtBank 64 0 (accessOf .arm [nameOf 2, 5, 6])).bank 256).trigs.length)
    f 30 = ((1, 1), 31) ∧ f 31 = ((1, 1), 31) := by decide +kernel
theorem meets_Streams_lands : let t : Thread := { landing := some (7, 0x55) }
    ((t.clearX 7).land 1).readX 7 = 0x55 ∧ ((t.clearX 7).land 1).hereX 7 = true ∧ ((t.clearX 7).land 0).hereX 7 = false := by decide +kernel

end Sys2Proof.Tests
end

section
/-! SUPPORT. Reading the issuing core and its thread sets after an update of them. -/

namespace Sys2Proof.Machine

@[simp] theorem State.core_onCore_same (s : State) (c : Nat) (f : Core → Core) : (s.onCore c f).core c = f (s.core c) := by
  simp [State.core, State.onCore, State.setCore]

theorem State.core_onCore_ne (s : State) {c d : Nat} (f : Core → Core) (h : d ≠ c) : (s.onCore c f).core d = s.core d := by
  simp [State.core, State.onCore, State.setCore, SMap.get_put_ne _ _ _ h]

@[simp] theorem State.me_onMe (s : State) (f : Core → Core) : (s.onMe f).me = f s.me := State.core_onCore_same s s.cur f

@[simp] theorem State.me_onTh (s : State) (f : Thread → Thread) : (s.onTh f).me = s.me.onThread s.me.tset f :=
  State.me_onMe s fun k => k.onThread k.tset f

@[simp] theorem Core.thread_onThread_same (k : Core) (i : Fin 4) (f : Thread → Thread) : (k.onThread i f).thread i = f (k.thread i) := by
  simp [Core.thread, Core.onThread]

theorem Core.thread_onThread_ne (k : Core) {i j : Fin 4} (f : Thread → Thread) (h : j ≠ i) : (k.onThread i f).thread j = k.thread j := by
  have hij : (i : Nat) ≠ j := fun e => h (Fin.ext e.symm)
  simp [Core.thread, Core.onThread, Vector.getElem_set_ne, hij]

@[simp] theorem State.th_onTh (s : State) (f : Thread → Thread) : (s.onTh f).th = f s.th := by
  simp [State.th]

theorem Thread.nextPc_pc (t : Thread) : t.nextPc.pc = t.pc + 4 := rfl

/-- Going on to the next instruction leaves every register and its presence. -/
theorem Thread.nextPc_registers (t : Thread) (r : Reg) :
    t.nextPc.readX r = t.readX r ∧ t.nextPc.readV r = t.readV r ∧ t.nextPc.hereX r = t.hereX r ∧ t.nextPc.hereV r = t.hereV r :=
  ⟨rfl, rfl, rfl, rfl⟩

end Sys2Proof.Machine
end

section
/-! SUPPORT. What a run of bytes does to a memory, and where a region keeps its bytes (R9, R89). -/

namespace Sys2Proof

/-- The bytes of a number, listed by their places. -/
theorem toBytes_eq_map (n v : Nat) : toBytes n v = (List.range n).map fun j => BitVec.ofNat 8 (v / 256 ^ j) := by
  apply List.ext_getElem
  · simp [length_toBytes]
  · intro i hi _
    simp [getElem_toBytes n v i hi]

end Sys2Proof

namespace Sys2Proof.Machine

/-- A store of bytes is read back byte by byte where its places are distinct. -/
theorem Memory.read_writeMap_on (place : Nat → Nat) (bs : List Byte) (m : Memory) (a : Nat)
    (hinj : ∀ i < bs.length, ∀ j < bs.length, place (a + i) = place (a + j) → i = j) (j : Nat) (hj : j < bs.length) :
    (m.writeMap place a bs).read (place (a + j)) = bs[j] := by
  induction bs generalizing m a j with
  | nil => simp at hj
  | cons b bs ih =>
    simp only [List.length_cons] at hinj hj
    cases j with
    | zero =>
      have hoff : ∀ i < bs.length, place (a + 1 + i) ≠ place a := fun i hi e =>
        absurd (hinj (i + 1) (by omega) 0 (by omega) (by simpa [Nat.add_assoc, Nat.add_comm 1] using e)) (by omega)
      simp [Memory.writeMap, Memory.read_writeMap_off place _ bs _ _ hoff, Memory.read_write]
    | succ j =>
      have hshift : ∀ i, a + 1 + i = a + (i + 1) := fun i => by omega
      have := ih (m.write (place a) b) (a + 1)
        (fun i hi k hk e => by
          rw [hshift, hshift] at e
          exact Nat.succ_injective (hinj (i + 1) (by omega) (k + 1) (by omega) e)) j (by omega)
      simpa [Memory.writeMap, hshift] using this

/-- Bytes stored at consecutive places read back, and every other byte as before. -/
theorem Memory.read_writeMap_consecutive (place : Nat → Nat) (a : Nat) (bs : List Byte) (m : Memory)
    (hc : ∀ j < bs.length, place (a + j) = place a + j) :
    (∀ (j : Nat) (h : j < bs.length), (m.writeMap place a bs).read (place a + j) = bs[j]) ∧
      ∀ b, ¬(place a ≤ b ∧ b < place a + bs.length) → (m.writeMap place a bs).read b = m.read b := by
  constructor
  · intro j h
    rw [← hc j h]
    exact Memory.read_writeMap_on place bs m a (fun i hi k hk e => by rw [hc i hi, hc k hk] at e; omega) j h
  · intro b hb
    exact Memory.read_writeMap_off place b bs m a fun i hi e => by rw [hc i hi] at e; omega

/-- Storing numbered bytes one by one is storing the run. -/
theorem Memory.foldl_write_eq_writeMap (place : Nat → Nat) (bs : List Byte) (m : Memory) (a : Nat) :
    ((List.range bs.length).zip bs).foldl (fun m p => m.write (place (a + p.1)) p.2) m = m.writeMap place a bs := by
  induction bs generalizing m a with
  | nil => rfl
  | cons b bs ih =>
    rw [List.length_cons, List.range_succ_eq_map, List.zip_cons_cons, List.foldl_cons, List.zip_map_left, List.foldl_map]
    simpa [Memory.writeMap, Nat.add_comm, Nat.add_left_comm] using ih (m.write (place a) b) (a + 1)

/-- R89: rotating the 32 words of a group, in a row of whole groups, keeps row and word apart from every other. -/
theorem skewWord_injective {p r w r' w' : Nat} (hw : w < 32 * p) (hw' : w' < 32 * p)
    (h : r * (32 * p) + 32 * (w / 32) + (w + r) % 32 = r' * (32 * p) + 32 * (w' / 32) + (w' + r') % 32) : r = r' ∧ w = w' := by
  have hr : r = r' := by
    have key : ∀ r w, w < 32 * p → (r * (32 * p) + 32 * (w / 32) + (w + r) % 32) / (32 * p) = r := fun r w hw => by
      rw [Nat.add_assoc, Nat.mul_comm, Nat.mul_add_div (by omega), Nat.div_eq_of_lt (by omega), Nat.add_zero]
    rw [← key r w hw, h, key r' w' hw']
  subst hr
  omega

/-- R89: two bytes of a region are never kept at one place. -/
theorem RegEntry.place_injective {e : RegEntry} (hp : e.skew = true → 0 < e.pitch) {a b : Nat} (ha : e.base * 1024 ≤ a)
    (hb : e.base * 1024 ≤ b) (h : e.place a = e.place b) : a = b := by
  cases hs : e.skew with
  | false => simpa [RegEntry.place, hs] using h
  | true =>
    have hgroup : 0 < 32 * e.pitch := Nat.mul_pos (by decide) (hp hs)
    simp only [RegEntry.place, hs, if_true] at h
    generalize hqa : (a - e.base * 1024) / 8 = qa at h
    generalize hqb : (b - e.base * 1024) / 8 = qb at h
    obtain ⟨hr, hw⟩ := skewWord_injective (Nat.mod_lt qa hgroup) (Nat.mod_lt qb hgroup)
      (r := qa / (32 * e.pitch)) (r' := qb / (32 * e.pitch)) (by omega)
    have hq : qa = qb := by
      rw [← Nat.div_add_mod qa (32 * e.pitch), hr, hw, Nat.div_add_mod]
    omega

end Sys2Proof.Machine
end

section
/-! SUPPORT. The bank words of a store, and what a store does to a core: all its words sound, or all its bytes in one bad word (R83). -/

namespace Sys2Proof.Machine

/-- Bytes that all lie in one bank word occupy just that word. -/
theorem RegEntry.bankWords_eq_singleton {e : RegEntry} {a n w : Nat} (hn : 0 < n) (hw : ∀ j < n, e.place (a + j) / 8 = w) :
    e.bankWords a n = [w] := by
  obtain ⟨m, rfl⟩ : ∃ m, n = m + 1 := ⟨n - 1, by omega⟩
  have : (List.range (m + 1)).map (fun i => e.place (a + i) / 8) = List.replicate (m + 1) w :=
    List.eq_replicate_iff.2 ⟨by simp, by simpa using hw⟩
  rw [RegEntry.bankWords, this, List.replicate_succ, List.eraseDups_cons]
  simp

/-- The number of bytes of a store that lie in a word is its width, where all of them do. -/
theorem RegEntry.count_inWord {e : RegEntry} {a n w : Nat} (hw : ∀ j < n, e.place (a + j) / 8 = w) :
    ((List.range n).filter fun i => e.place (a + i) / 8 == w).length = n := by
  rw [List.filter_eq_self.2 (by simpa using hw), List.length_range]

theorem Core.cowHit_of_cow_nil {k : Core} {e : RegEntry} {a n : Nat} (h : k.cow = []) : k.cowHit e a n = false := by
  simp [Core.cowHit, h]

/-- R410: a granule is 128 bank words, so a byte of a marked granule makes the access one that the take holds. -/
theorem Core.cowHit_of_mem {k : Core} {e : RegEntry} {a n : Nat} (h : ∃ j < n, e.place (a + j) / 1024 ∈ k.cow) :
    k.cowHit e a n = true := by
  obtain ⟨j, hj, hm⟩ := h
  have hne : k.cow ≠ [] := List.ne_nil_of_mem hm
  have hword : e.place (a + j) / 8 / 128 ∈ k.cow := by rwa [Nat.div_div_eq_div_mul]
  have : ∃ w ∈ e.bankWords a n, w / 128 ∈ k.cow := ⟨e.place (a + j) / 8, by
    simpa [RegEntry.bankWords, List.mem_eraseDups] using ⟨j, hj, rfl⟩, hword⟩
  simpa [Core.cowHit, hne] using this

theorem Core.writeIn_of_bad_nil {k : Core} {e : RegEntry} {a : Nat} {bs : List Byte} (h : k.bad = []) :
    k.writeIn e a bs = ({ k with mem := k.mem.writeMap e.place a bs }, none) := by
  simp [Core.writeIn, h]

/-- The bad words that a store into one word leaves: all of them, or the others where it writes the word whole. -/
theorem RegEntry.filter_healed {e : RegEntry} {a n w : Nat} (hw : ∀ j < n, e.place (a + j) / 8 = w) (l : List Nat) :
    (l.filter fun v => !([w].contains v && ((List.range n).filter fun i => e.place (a + i) / 8 == v).length == 8)) =
      if n = 8 then l.filter (· ≠ w) else l := by
  have hcount := RegEntry.count_inWord hw
  split
  case isTrue h8 =>
    subst h8
    refine List.filter_congr fun v _ => ?_
    rcases eq_or_ne v w with rfl | hv
    · simp [hcount]
    · simp [hv]
  case isFalse h8 =>
    refine List.filter_eq_self.2 fun v _ => ?_
    rcases eq_or_ne v w with rfl | hv
    · simp [hcount, h8]
    · simp [hv]

section OneWord
variable {k : Core} {e : RegEntry} {a w : Nat} {bs : List Byte} (hw : ∀ j < bs.length, e.place (a + j) / 8 = w) (hbad : w ∈ k.bad)
include hw hbad

/-- R83: a store of part of a bad word writes nothing and reports the word's address. -/
theorem Core.writeIn_part (h0 : 0 < bs.length) (h8 : bs.length < 8) : k.writeIn e a bs = (k, some (w * 8)) := by
  have hmem : ((List.range bs.length).zip bs).foldl (fun (m : Memory) p =>
      if [w].contains (e.place (a + p.1) / 8) then m else m.write (e.place (a + p.1)) p.2) k.mem = k.mem :=
    List.foldlRecOn (motive := (· = k.mem)) _ _ rfl fun m hm p hp => by
      simp [hw p.1 (List.mem_range.1 (List.of_mem_zip hp).1), hm]
  have hhurt : [w].filter (fun v => k.bad.contains v && !(((List.range bs.length).filter fun i =>
      e.place (a + i) / 8 == v).length == 8)) = [w] := by
    simp [RegEntry.count_inWord hw, hbad, h8.ne]
  simp only [Core.writeIn, RegEntry.bankWords_eq_singleton h0 hw, RegEntry.filter_healed hw, if_neg h8.ne, hhurt, hmem]
  simp [List.ne_nil_of_mem hbad]

/-- R83: a store of a whole bad word writes its bytes and takes its error away. -/
theorem Core.writeIn_whole (h8 : bs.length = 8) :
    k.writeIn e a bs = ({ k with mem := k.mem.writeMap e.place a bs, bad := k.bad.filter (· ≠ w) }, none) := by
  have hhurt : [w].filter (fun v => k.bad.contains v && !(((List.range bs.length).filter fun i =>
      e.place (a + i) / 8 == v).length == 8)) = [] := by
    simp [(RegEntry.count_inWord hw).trans h8]
  simp only [Core.writeIn, RegEntry.bankWords_eq_singleton (by omega) hw, RegEntry.filter_healed hw, if_pos h8, hhurt,
    ← Memory.foldl_write_eq_writeMap]
  simp [List.ne_nil_of_mem hbad]

end OneWord

end Sys2Proof.Machine
end

section
/-! SUPPORT. What a local store does in each of its cases (R83, R279, R410), and its frame. -/

namespace Sys2Proof.Machine

open Sys2Proof.Claims (X V wentOn)

section Store
variable {t a : Reg} {off : Int} {n : Nat} {data : W64 → Nat → Nat} {s : State} (hx : s.th.hereXs [a, t] = true)
  (hacq : s.me.acquiring s.th.fid = false)
include hx hacq

theorem storeLocal_misaligned (hal : localAddr (X s a) off % n ≠ 0) :
    storeLocal t a off n data s = s.trap rMisalign 0 n (BitVec.ofNat 64 (localAddr (X s a) off)) := by
  rw [storeLocal, withX_here hx, access_eq hacq]
  exact if_pos hal

theorem storeLocal_denied {r : Nat × Nat} (hal : localAddr (X s a) off % n = 0)
    (hr : s.me.checkLocal s.th.slot (localAddr (X s a) off) n true = .error r) :
    storeLocal t a off n data s = s.trap rRegionDeny r.1 r.2 (BitVec.ofNat 64 (localAddr (X s a) off)) := by
  rw [storeLocal, withX_here hx, access_eq hacq]
  simp only [hal, hr, ne_eq, not_true, if_false]

variable {e : RegEntry} (hal : localAddr (X s a) off % n = 0)
  (he : s.me.checkLocal s.th.slot (localAddr (X s a) off) n true = .ok e)
include hal he

theorem storeLocal_marked (hcow : s.me.cowHit e (localAddr (X s a) off) n = true) : storeLocal t a off n data s = s.stall := by
  rw [storeLocal, withX_here hx, access_eq hacq]
  simp only [hal, he, hcow, ne_eq, not_true, if_false, if_true]

/-- A permitted store into unmarked granules writes the bytes of its data, made from x[T] and the byte at the address, and goes on. -/
theorem storeLocal_permitted (hcow : s.me.cowHit e (localAddr (X s a) off) n = false) :
    storeLocal t a off n data s = .next (wentOn (s.storeIn e (localAddr (X s a) off) (toBytes n
      (data (X s t) (s.me.mem.read (e.place (localAddr (X s a) off))).toNat)))) := by
  rw [storeLocal, withX_here hx, access_eq hacq]
  simp only [hal, he, hcow, ne_eq, not_true, if_false, Bool.false_eq_true, Core.readIn, Memory.readMap, ofBytes,
    Nat.mul_zero, Nat.add_zero]
  rfl

end Store

theorem State.storeIn_of_bad_nil {s : State} {e : RegEntry} {va : Nat} {bs : List Byte} (h : s.me.bad = []) :
    s.storeIn e va bs = Claims.stored s e va bs := by
  rw [State.storeIn, Core.writeIn_of_bad_nil h]
  rfl

section OneWord
variable {s : State} {e : RegEntry} {va w : Nat} {bs : List Byte} (hw : ∀ j < bs.length, e.place (va + j) / 8 = w)
  (hbad : w ∈ s.me.bad)
include hw hbad

theorem State.storeIn_part (h0 : 0 < bs.length) (h8 : bs.length < 8) :
    s.storeIn e va bs = s.onMe fun k => k.recordErr s.th.slot 0 (BitVec.ofNat 64 (w * 8)) := by
  rw [State.storeIn, Core.writeIn_part hw hbad h0 h8]
  rfl

theorem State.storeIn_whole (h8 : bs.length = 8) :
    s.storeIn e va bs = s.onMe fun k => { k with mem := s.me.mem.writeMap e.place va bs, bad := k.bad.filter (· ≠ w) } := by
  rw [State.storeIn, Core.writeIn_whole hw hbad h8]
  rfl

end OneWord

/-- What R279 says of one row of the stores in `s`, where x[T] is `v`: the instruction `i` stores the low `n` bytes of `f old` at address `x`,
`old` being the byte there before. -/
def StoreRow (s : State) (v : Nat) (i : Instr) (n x : Nat) (f : Nat → Nat) : Prop :=
  (x % n ≠ 0 → exec i s = s.trap 0x14 0 n (BitVec.ofNat 64 x)) ∧
  (x % n = 0 → ∀ r, s.me.checkLocal s.th.slot x n true = .error r →
    exec i s = s.trap 0x13 r.1 r.2 (BitVec.ofNat 64 x)) ∧
  (x % n = 0 → ∀ e, s.me.checkLocal s.th.slot x n true = .ok e → s.me.bad = [] → s.me.cow = [] →
    exec i s = .next (wentOn (Claims.stored s e x
      ((List.range n).map fun j => BitVec.ofNat 8 (f (s.me.mem.read (e.place x)).toNat / 256 ^ j))))) ∧
  (x % n = 0 → ∀ e, s.me.checkLocal s.th.slot x n true = .ok e → (∃ j < n, e.place (x + j) / 1024 ∈ s.me.cow) →
    exec i s = s.stall) ∧
  (x % n = 0 → ∀ e, s.me.checkLocal s.th.slot x n true = .ok e → s.me.cow = [] →
    (∀ j < n, e.place (x + j) = e.place x + j) → e.place x % 8 + n ≤ 8 → e.place x / 8 ∈ s.me.bad →
    (n < 8 → exec i s =
      .next (wentOn (s.onMe fun k => k.recordErr s.th.slot 0 (BitVec.ofNat 64 (e.place x / 8 * 8))))) ∧
    (n = 8 → ∃ M : Memory, exec i s =
        .next (wentOn (s.onMe fun k => { k with mem := M, bad := k.bad.filter (· ≠ e.place x / 8) })) ∧
      (∀ j < 8, M.read (e.place x + j) = BitVec.ofNat 8 (v / 256 ^ j)) ∧
      ∀ b, ¬(e.place x ≤ b ∧ b < e.place x + 8) → M.read b = s.me.mem.read b))

/-- Every instruction that is a local store of at least one byte keeps its row; a doubleword's data is x[T] alone. -/
theorem storeRow_of_exec {i : Instr} {t a : Reg} {off : Int} {n : Nat} {data : W64 → Nat → Nat} {s : State}
    (hi : exec i s = storeLocal t a off n data s) (hn : 0 < n) (hdata : n = 8 → ∀ old, data (X s t) old = (X s t).toNat)
    (hx : s.th.hereXs [a, t] = true) (hacq : s.me.acquiring s.th.fid = false) :
    StoreRow s (X s t).toNat i n (localAddr (X s a) off) (data (X s t)) := by
  simp only [StoreRow, hi]
  refine ⟨fun h => storeLocal_misaligned hx hacq h, fun hal r hr => storeLocal_denied hx hacq hal hr,
    fun hal e he hbad hcow => ?sound, fun hal e he hcow => storeLocal_marked hx hacq hal he (Core.cowHit_of_mem hcow),
    fun hal e he hcow hc hfit hbad => ?spoilt⟩
  case sound =>
    rw [storeLocal_permitted hx hacq hal he (Core.cowHit_of_cow_nil hcow), State.storeIn_of_bad_nil hbad, toBytes_eq_map]
  case spoilt =>
    rw [storeLocal_permitted hx hacq hal he (Core.cowHit_of_cow_nil hcow)]
    generalize hbs : toBytes n _ = bs
    have hlen : bs.length = n := by rw [← hbs, length_toBytes]
    rw [← hlen] at hc
    have hw : ∀ j < bs.length, e.place (localAddr (X s a) off + j) / 8 = e.place (localAddr (X s a) off) / 8 := fun j hj => by
      rw [hc j hj]; omega
    constructor
    · intro h8
      rw [State.storeIn_part hw hbad (by omega) (by omega)]
    · intro h8
      obtain ⟨hon, hoff⟩ := Memory.read_writeMap_consecutive e.place (localAddr (X s a) off) bs s.me.mem hc
      refine ⟨_, by rw [State.storeIn_whole hw hbad (by omega)], fun j hj => ?_, by simpa [hlen, h8] using hoff⟩
      rw [hon j (by omega)]
      subst hbs
      rw [getElem_toBytes, hdata h8]

/-- R277 to R279: the five rows of the local stores, four of whole values and one of a nibble. -/
theorem localStores : Claims.LocalStores := by
  intro t a o q h s hx hacq
  have word : ∀ {i : Instr} {n : Nat}, exec i s = storeLocal t a o.toInt n (fun v _ => v.toNat) s → 0 < n →
      StoreRow s (X s t).toNat i n (localAddr (X s a) o.toInt) fun _ => (X s t).toNat :=
    fun hi hn => storeRow_of_exec (data := fun v _ => v.toNat) hi hn (fun _ _ => rfl) hx hacq
  have nibble : StoreRow s (X s t).toNat (.sn t a q h) 1 (localAddr (X s a) q.toInt) (setNibble h (X s t).toNat) :=
    storeRow_of_exec (data := fun v old => setNibble h v.toNat old) (exec_sn s) (by decide) (fun h => absurd h (by decide)) hx hacq
  exact forall_mem_of_cons (word (exec_sb s) (Nat.succ_pos _)) <| forall_mem_of_cons (word (exec_sh s) (Nat.succ_pos _)) <|
    forall_mem_of_cons (word (exec_sw s) (Nat.succ_pos _)) <| forall_mem_of_cons (word (exec_sd s) (Nat.succ_pos _)) <|
    forall_mem_of_cons nibble (by simp)

section Frame
variable (s : State) (e : RegEntry) (va : Nat) (bs : List Byte)

/-- The issuing core after a store: its memory and the program counter of the issuing thread set, nothing else. -/
theorem me_wentOn_stored :
    (wentOn (Claims.stored s e va bs)).me =
      ({ s.me with mem := s.me.mem.writeMap e.place va bs } : Core).onThread s.me.tset fun t => t.nextPc := by
  simp [wentOn, Claims.stored]

theorem th_wentOn_stored : (wentOn (Claims.stored s e va bs)).th = s.th.nextPc := by
  rw [State.th, me_wentOn_stored]
  exact Core.thread_onThread_same _ _ _

theorem self_wentOn_stored : (wentOn (Claims.stored s e va bs)).self = s.self := by
  simp [State.self, th_wentOn_stored, me_wentOn_stored, Core.actor]

theorem mem_wentOn_stored : (wentOn (Claims.stored s e va bs)).me.mem = s.me.mem.writeMap e.place va bs := by
  rw [me_wentOn_stored, Core.onThread_mem]

theorem gmem_wentOn_stored : (wentOn (Claims.stored s e va bs)).gmem = s.gmem := by
  simp [wentOn, Claims.stored]

theorem words_wentOn_stored : (wentOn (Claims.stored s e va bs)).words = s.words := by
  simp [wentOn, Claims.stored]

theorem core_wentOn_stored_ne {c : Nat} (h : c ≠ s.cur) :
    (wentOn (Claims.stored s e va bs)).core c = s.core c := by
  simp [wentOn, Claims.stored, State.onTh, State.onMe, State.core_onCore_ne _ _ h]

theorem thread_wentOn_stored_ne {j : Fin 4} (h : j ≠ s.me.tset) :
    (wentOn (Claims.stored s e va bs)).me.thread j = s.me.thread j := by
  rw [me_wentOn_stored, Core.thread_onThread_ne _ _ h]
  rfl

end Frame

/-- R9, R89: the bytes of a store have distinct places, so it reads back, and it changes nothing else but the program counter. -/
theorem storeFrame : Claims.StoreFrame := by
  intro s e va bs hpitch hcov _
  have hbase : e.base * 1024 ≤ va := by
    simp only [RegEntry.covers, Bool.and_eq_true, decide_eq_true_eq] at hcov
    exact hcov.1
  have hinj : ∀ i < bs.length, ∀ j < bs.length, e.place (va + i) = e.place (va + j) → i = j := fun i _ j _ h =>
    Nat.add_left_cancel (RegEntry.place_injective hpitch (by omega) (by omega) h)
  simp only [X, V, th_wentOn_stored, mem_wentOn_stored]
  refine ⟨fun b hb => Memory.read_writeMap_off _ b bs _ va fun i hi h => hb i hi h.symm,
    fun j hj => Memory.read_writeMap_on _ bs _ va hinj j hj, fun r => s.th.nextPc_registers r, s.th.nextPc_pc,
    s.th.nextPc_status, s.th.nextPc_fpctl, s.th.nextPc_qnt, s.th.nextPc_eperr, s.th.nextPc_m, s.th.nextPc_cause,
    self_wentOn_stored s e va bs, gmem_wentOn_stored s e va bs, words_wentOn_stored s e va bs,
    fun c => core_wentOn_stored_ne s e va bs, fun j => thread_wentOn_stored_ne s e va bs⟩

/-- Settles O24: each store by the case of its address and bank word, and its frame by the injectivity of the skewed placement. -/
theorem storesAndFrame : Obligations.StoresAndFrame := ⟨localStores, storeFrame⟩

end Sys2Proof.Machine
end

section
/-! SUPPORT. The selection logic's choice: the first of its candidates in the order of R34. -/

namespace Sys2Proof.Machine

/-- The keys of a candidate, in the order in which they are compared (R34). -/
def Pick.keys (p : Pick) : List Nat := [p.eprio, p.eclass, p.ready, p.slot, p.handler]

theorem Pick.before_iff (p q : Pick) : p.before q = true ↔ p.keys < q.keys := by
  simp [Pick.before, Pick.keys]

/-- One step of the choice: a candidate that comes before the best so far takes its place. -/
def Pick.better (best : Option Pick) (p : Pick) : Option Pick :=
  match best with
  | none => some p
  | some b => if p.before b then some p else some b

theorem bestPick_eq_foldl (l : List Pick) : bestPick l = l.foldl Pick.better none := rfl

/-- A step chooses the new candidate or keeps the old one, and neither of the two comes before its choice. -/
theorem Pick.better_some (b p : Pick) : ∃ r, Pick.better (some b) p = some r ∧ (r = p ∨ r = b) ∧ r.keys ≤ p.keys ∧ r.keys ≤ b.keys := by
  by_cases h : p.before b = true
  · exact ⟨p, by simp [Pick.better, h], .inl rfl, le_refl _, ((Pick.before_iff p b).1 h).le⟩
  · exact ⟨b, by simp [Pick.better, h], .inr rfl, not_lt.1 fun hlt => h ((Pick.before_iff p b).2 hlt), le_refl _⟩

/-- From a best candidate on, the choice goes to it or to one of the list, and nothing comes before it. -/
theorem Pick.foldl_better (l : List Pick) (b : Pick) :
    ∃ r, l.foldl Pick.better (some b) = some r ∧ (r ∈ l ∨ r = b) ∧ r.keys ≤ b.keys ∧ ∀ q ∈ l, r.keys ≤ q.keys := by
  induction l generalizing b with
  | nil => exact ⟨b, rfl, .inr rfl, le_refl _, by simp⟩
  | cons p l ih =>
    obtain ⟨c, hc, hmem, hp, hb⟩ := Pick.better_some b p
    obtain ⟨r, hr, hin, hle, hall⟩ := ih c
    refine ⟨r, by rw [List.foldl_cons, hc, hr], ?_, hle.trans hb, List.forall_mem_cons.2 ⟨hle.trans hp, hall⟩⟩
    rcases hin with h | rfl
    · exact .inl (List.mem_cons_of_mem _ h)
    · exact hmem.imp_left fun h => List.mem_cons.2 (.inl h)

/-- Where there are candidates one of them is chosen, and none comes before it. -/
theorem bestPick_of_ne_nil {l : List Pick} (h : l ≠ []) : ∃ r, bestPick l = some r ∧ r ∈ l ∧ ∀ q ∈ l, r.keys ≤ q.keys := by
  cases l with
  | nil => exact absurd rfl h
  | cons p l =>
    obtain ⟨r, hr, hin, hle, hall⟩ := Pick.foldl_better l p
    exact ⟨r, hr, List.mem_cons.2 hin.symm, List.forall_mem_cons.2 ⟨hle, hall⟩⟩

/-- The candidates of a core: the eligible handlers of its slots, each with its keys. -/
theorem Core.mem_candidates {k : Core} {ceil : Nat} {p : Pick} :
    p ∈ k.slots.flatMap (fun q => k.picksOf ceil q.1) ↔ ∃ j a n h, (j, a) ∈ k.slots ∧ (k.actor j).handlers[n]? = some h ∧
      k.eligible ceil j n h = true ∧ p = { eprio := (k.actor j).eprio, eclass := h.eclass, ready := (k.actor j).ready, slot := j, handler := n } := by
  simp only [List.mem_flatMap, Core.picksOf, List.mem_map, List.mem_filter, Prod.exists, List.mem_zipIdx_iff_getElem?]
  constructor
  · rintro ⟨j, a, hj, h, n, ⟨hn, he⟩, rfl⟩
    exact ⟨j, a, n, h, hj, hn, he, rfl⟩
  · rintro ⟨j, a, n, h, hj, hn, he, rfl⟩
    exact ⟨j, a, hj, h, n, ⟨hn, he⟩, rfl⟩

end Sys2Proof.Machine
end

section
/-! CERTIFICATES. R34: the handler that the selection logic chooses. -/

namespace Sys2Proof

open Machine

/-- Settles O42: the choice is the least candidate by its keys, and the candidates are just the eligible handlers. -/
theorem bestSelected : Obligations.BestSelected := by
  constructor
  · intro k ceil j n a h hj hn he
    obtain ⟨p, hp, -⟩ := bestPick_of_ne_nil (List.ne_nil_of_mem (Core.mem_candidates.2 ⟨j, a, n, h, hj, hn, he, rfl⟩))
    exact ⟨p, hp⟩
  · intro k ceil p hp
    have hne : k.slots.flatMap (fun q => k.picksOf ceil q.1) ≠ [] := fun hnil => by simp [Core.select, hnil, bestPick] at hp
    obtain ⟨r, hr, hin, hall⟩ := bestPick_of_ne_nil hne
    obtain rfl : r = p := Option.some.inj (hr.symm.trans hp)
    obtain ⟨j, a, n, h, hj, hn, he, rfl⟩ := Core.mem_candidates.1 hin
    refine ⟨⟨h, hn, he, rfl⟩, rfl, rfl, fun j' a' n' h' hj' hn' he' => ?_⟩
    exact not_lt.2 (hall _ (Core.mem_candidates.2 ⟨j', a', n', h', hj', hn', he', rfl⟩))

end Sys2Proof
end

section
/-! SUPPORT. Reading an actor, a packet and the directory after an update: one lemma for each reading and each update. -/

namespace Sys2Proof.Machine

/-- A field of a number, by division. -/
theorem bits_eq_div (v hi lo : Nat) : bits v hi lo = v / 2 ^ lo % 2 ^ (hi + 1 - lo) := by
  rw [bits, Nat.shiftRight_eq_div_pow]

/-! ## Sparse tables -/

theorem SMap.find_del_same {α : Type} (m : SMap α) (k : Nat) : SMap.find (SMap.del m k) k = none := by
  induction m with
  | nil => rfl
  | cons p m ih =>
    obtain ⟨j, w⟩ := p
    by_cases h : j = k
    · simpa [SMap.del, h] using ih
    · simpa [SMap.del, SMap.find, h] using ih

theorem SMap.find_del_ne {α : Type} (m : SMap α) {k j : Nat} (h : j ≠ k) : SMap.find (SMap.del m k) j = SMap.find m j := by
  induction m with
  | nil => rfl
  | cons p m ih =>
    obtain ⟨i, w⟩ := p
    by_cases hi : i = k
    · simpa [SMap.del, SMap.find, hi, Ne.symm h] using ih
    · simp [SMap.del, SMap.find, hi, ih]

/-! ## Actors -/

@[simp] theorem Core.actor_onActor_same (k : Core) (i : Nat) (f : Actor → Actor) : (k.onActor i f).actor i = f (k.actor i) := by
  simp [Core.actor, Core.onActor]

theorem Core.actor_onActor_ne (k : Core) {i j : Nat} (f : Actor → Actor) (h : j ≠ i) : (k.onActor i f).actor j = k.actor j := by
  simp [Core.actor, Core.onActor, SMap.get_put_ne _ _ _ h]

@[simp] theorem Core.actor_onThread (k : Core) (i : Fin 4) (f : Thread → Thread) (j : Nat) : (k.onThread i f).actor j = k.actor j := rfl

@[simp] theorem Core.thread_onActor (k : Core) (i : Nat) (f : Actor → Actor) (j : Fin 4) : (k.onActor i f).thread j = k.thread j := rfl

@[simp] theorem State.actor_onCore_same (s : State) (c : Nat) (f : Core → Core) (i : Nat) :
    (s.onCore c f).actor c i = (f (s.core c)).actor i := by
  simp [State.actor]

theorem State.actor_onCore_ne (s : State) {c d : Nat} (f : Core → Core) (i : Nat) (h : d ≠ c) :
    (s.onCore c f).actor d i = s.actor d i := by
  simp [State.actor, State.core_onCore_ne _ _ h]

@[simp] theorem State.core_onActor_same (s : State) (c i : Nat) (f : Actor → Actor) : (s.onActor c i f).core c = (s.core c).onActor i f :=
  State.core_onCore_same ..

@[simp] theorem State.core_setCore_same (s : State) (c : Nat) (k : Core) : (s.setCore c k).core c = k := by
  simp [State.core, State.setCore]

theorem State.core_setCore_ne (s : State) {c d : Nat} (k : Core) (h : d ≠ c) : (s.setCore c k).core d = s.core d := by
  simp [State.core, State.setCore, SMap.get_put_ne _ _ _ h]

/-! ## Packets -/

@[simp] theorem State.packet_post (s : State) (src : Nat) (pay : Payload) :
    (s.post src pay).packet s.serial = some { src := src, born := s.cycle src, pay := pay } := by
  simp [State.packet, State.post]

theorem State.packet_post_ne (s : State) (src : Nat) (pay : Payload) {n : Nat} (h : n ≠ s.serial) :
    (s.post src pay).packet n = s.packet n := by
  simp [State.packet, State.post, SMap.find_put_ne _ _ h]

@[simp] theorem State.packet_take (s : State) (n : Nat) : (s.take n).packet n = none := SMap.find_del_same ..

@[simp] theorem State.packet_onCore (s : State) (c : Nat) (f : Core → Core) (n : Nat) : (s.onCore c f).packet n = s.packet n := rfl
@[simp] theorem State.packet_onMe (s : State) (f : Core → Core) (n : Nat) : (s.onMe f).packet n = s.packet n := rfl
@[simp] theorem State.packet_onTh (s : State) (f : Thread → Thread) (n : Nat) : (s.onTh f).packet n = s.packet n := rfl

/-! ## Cores after updates of other parts -/

@[simp] theorem State.core_post (s : State) (src : Nat) (pay : Payload) (c : Nat) : (s.post src pay).core c = s.core c := rfl
@[simp] theorem State.core_take (s : State) (n c : Nat) : (s.take n).core c = s.core c := rfl
@[simp] theorem State.core_setDir (s : State) (e : DirEntry) (c : Nat) : (s.setDir e).core c = s.core c := rfl
@[simp] theorem State.core_onPkg (s : State) (p : Nat) (f : Package → Package) (c : Nat) : (s.onPkg p f).core c = s.core c := rfl
@[simp] theorem State.core_onEngine (s : State) (e : Nat) (f : Engine → Engine) (c : Nat) : (s.onEngine e f).core c = s.core c := rfl
@[simp] theorem State.core_freeName (s : State) (name : W64) (c : Nat) : (s.freeName name).core c = s.core c := rfl
@[simp] theorem State.actor_post (s : State) (src : Nat) (pay : Payload) (c i : Nat) : (s.post src pay).actor c i = s.actor c i := rfl
@[simp] theorem State.me_post (s : State) (src : Nat) (pay : Payload) : (s.post src pay).me = s.me := rfl
@[simp] theorem State.th_post (s : State) (src : Nat) (pay : Payload) : (s.post src pay).th = s.th := rfl
@[simp] theorem State.self_post (s : State) (src : Nat) (pay : Payload) : (s.post src pay).self = s.self := rfl

/-! ## The directory -/

@[simp] theorem State.dirEntry_setDir (s : State) (e : DirEntry) : (s.setDir e).dirEntry e.name = some e := by
  simp [State.dirEntry, State.setDir]

theorem State.dirEntry_setDir_of_eq (s : State) {e : DirEntry} {name : W64} (h : e.name = name) : (s.setDir e).dirEntry name = some e :=
  h ▸ s.dirEntry_setDir e

theorem State.dirEntry_setDir_ne (s : State) (e : DirEntry) {name : W64} (h : name ≠ e.name) :
    (s.setDir e).dirEntry name = s.dirEntry name := by
  simp [State.dirEntry, State.setDir, SMap.find_put_ne _ _ fun hn => h (BitVec.eq_of_toNat_eq hn)]

@[simp] theorem State.dirEntry_freeName (s : State) (name : W64) : (s.freeName name).dirEntry name = none := SMap.find_del_same ..

theorem State.dirEntry_freeName_ne (s : State) {name other : W64} (h : other ≠ name) :
    (s.freeName name).dirEntry other = s.dirEntry other :=
  SMap.find_del_ne _ fun hn => h (BitVec.eq_of_toNat_eq hn)

@[simp] theorem State.dirEntry_onCore (s : State) (c : Nat) (f : Core → Core) (n : W64) : (s.onCore c f).dirEntry n = s.dirEntry n := rfl
@[simp] theorem State.dirEntry_setCore (s : State) (c : Nat) (k : Core) (n : W64) : (s.setCore c k).dirEntry n = s.dirEntry n := rfl
@[simp] theorem State.dirEntry_post (s : State) (src : Nat) (pay : Payload) (n : W64) : (s.post src pay).dirEntry n = s.dirEntry n := rfl
@[simp] theorem State.dirEntry_take (s : State) (m : Nat) (n : W64) : (s.take m).dirEntry n = s.dirEntry n := rfl
@[simp] theorem State.dirEntry_onPkg (s : State) (p : Nat) (f : Package → Package) (n : W64) : (s.onPkg p f).dirEntry n = s.dirEntry n := rfl

/-! ## Going on -/

/-- An instruction that writes one register and goes on. -/
theorem finish_writeX (s : State) (d : Reg) (v : W64) : s.finish (·.writeX d v) = .next (Claims.wroteX s d v) := rfl

/-- An instruction that changes no register and goes on. -/
theorem finish_id (s : State) : s.finish id = .next (Claims.wentOn s) := rfl

theorem Thread.hereXs_cons {t : Thread} {r : Reg} {rs : List Reg} : t.hereXs (r :: rs) = true ↔ t.hereX r = true ∧ t.hereXs rs = true := by
  simp [Thread.hereXs]

theorem Thread.hereXs_singleton {t : Thread} {r : Reg} {rs : List Reg} (h : t.hereXs rs = true) (hr : r ∈ rs) : t.hereXs [r] = true := by
  simpa [Thread.hereXs] using List.all_eq_true.1 h r hr

end Sys2Proof.Machine
end

section
/-! SUPPORT. SPAWN, links, monitors, TRAPEX and supervision rules (R306, R307, R314), one lemma for each case of an instruction whose registers
are present. -/

namespace Sys2Proof.Machine

open Sys2Proof.Claims (X wroteX wentOn posted)

/-! ## The state after going on -/

@[simp] theorem packet_wroteX (s : State) (d : Reg) (v : W64) (n : Nat) : (wroteX s d v).packet n = s.packet n := rfl
@[simp] theorem packet_wentOn (s : State) (n : Nat) : (wentOn s).packet n = s.packet n := rfl
@[simp] theorem th_wroteX (s : State) (d : Reg) (v : W64) : (wroteX s d v).th = (s.th.writeX d v).nextPc := State.th_onTh ..
@[simp] theorem th_wentOn (s : State) : (wentOn s).th = s.th.nextPc := State.th_onTh ..
@[simp] theorem links_wroteX (s : State) (d : Reg) (v : W64) : (wroteX s d v).me.links = s.me.links := by simp [wroteX]
@[simp] theorem links_wentOn (s : State) : (wentOn s).me.links = s.me.links := by simp [wentOn]

theorem pc_wentOn (s : State) : (wentOn s).th.pc = s.th.pc + 4 := by simp [Thread.nextPc_pc]
theorem pc_wroteX (s : State) (d : Reg) (v : W64) : (wroteX s d v).th.pc = s.th.pc + 4 := by simp [Thread.nextPc_pc]

/-- A register that has been written reads as the value written, x0 excepted. -/
theorem Thread.readX_writeX_same (t : Thread) {r : Reg} (v : W64) (h : r ≠ 0) : (t.writeX r v).readX r = v := by
  rw [Thread.writeX, if_neg h, Thread.readX, if_neg h]
  simp

/-- Changes of a core that keep its thread sets keep the issuing one. -/
theorem State.th_onMe_of_threads (s : State) {f : Core → Core} (ht : (f s.me).threads = s.me.threads) (hi : (f s.me).tset = s.me.tset) :
    (s.onMe f).th = s.th := by
  simp only [State.th, State.me_onMe, Core.thread, ht, hi]

/-- Changes of a core that keep its thread sets and actors keep the issuing actor. -/
theorem State.self_onMe_of_slots (s : State) {f : Core → Core} (ha : (f s.me).slots = s.me.slots)
    (ht : (f s.me).threads = s.me.threads) (hi : (f s.me).tset = s.me.tset) : (s.onMe f).self = s.self := by
  simp only [State.self, s.th_onMe_of_threads ht hi, State.me_onMe, Core.actor, ha]

@[simp] theorem State.me_onSelf (s : State) (f : Actor → Actor) : (s.onSelf f).me = s.me.onActor s.th.slot f := State.me_onMe ..
@[simp] theorem State.th_onSelf (s : State) (f : Actor → Actor) : (s.onSelf f).th = s.th := s.th_onMe_of_threads rfl rfl
@[simp] theorem State.self_onSelf (s : State) (f : Actor → Actor) : (s.onSelf f).self = f s.self := by simp [State.self]
@[simp] theorem self_wroteX (s : State) (d : Reg) (v : W64) : (wroteX s d v).self = s.self := by simp [wroteX, State.self]
@[simp] theorem self_wentOn (s : State) : (wentOn s).self = s.self := by simp [wentOn, State.self]

/-! ## SPAWN (R306) -/

section Cases
variable {d a : Reg} {s : State}

theorem validIndex_iff (ws : List Nat) (w : Nat) : validIndex ws w = true ↔ w < 2 ^ ws.sum ∧ w ≠ 2 ^ 48 - 1 := by
  simp [validIndex]

/-- The reserved entry that SPAWN appends. -/
def State.reservedSpawn (s : State) (w : Nat) : Spawn :=
  { id := s.me.next, name := BitVec.ofNat 64 (flockOf s.self.name * 2 ^ 48 + w), msg := s.th.m, sender := s.self.name, sinc := s.self.incarn
    rst := false, supv := ((s.dirEntry s.self.name).map (·.supv)).getD 0, filled := false, slot := s.th.slot, tset := s.me.tset
    order := s.me.next }

section
variable (h : s.th.hereXs [a, d] = true)
include h

theorem execSpawn_invalid (hw : validIndex (s.widths s.self.name) (indexOf (X s a)) = false) :
    execSpawn d a s = .next (wroteX s d 2) := by
  rw [execSpawn, withX_here h, ← finish_writeX]
  simp [hw]

theorem execSpawn_full (hw : validIndex (s.widths s.self.name) (indexOf (X s a)) = true) (hn : 32 ≤ s.me.spawns.length) :
    execSpawn d a s = .next (wroteX s d 1) := by
  rw [execSpawn, withX_here h, ← finish_writeX]
  simp [hw, hn]

theorem execSpawn_reserves (hw : validIndex (s.widths s.self.name) (indexOf (X s a)) = true) (hn : s.me.spawns.length < 32) :
    execSpawn d a s = .next (wroteX (s.onMe fun k =>
      { k with spawns := k.spawns ++ [s.reservedSpawn (indexOf (X s a))], next := k.next + 1 }) d 0) := by
  rw [execSpawn, withX_here h, ← finish_writeX]
  simp only [hw, Bool.not_true, Bool.false_eq_true, if_false, if_neg (not_le.2 hn)]
  rfl

/-! ## MONITOR -/

theorem execMonitor_full (hf : s.me.freeLink = none) : execMonitor d a s = .next (wroteX s d 0) := by
  rw [execMonitor, withX_here h, hf]
  rfl

/-- TRAPEX sets TRAPEXIT from bit 0 and returns what it was. -/
theorem execTrapex_sets : execTrapex d a s = .next (wroteX (s.onSelf fun x => { x with trapexit := (X s a).getLsbD 0 }) d
    (if s.self.trapexit then 1 else 0)) := by
  rw [execTrapex, withX_here h]
  rfl

end

/-! ## LINK and UNLINK (R307) -/

section
variable (h : s.th.hereXs [a] = true)
include h

theorem execLink_tied (ht : X s a = s.self.name ∨ (s.me.links.any fun p => p.2.ties 1 s.th.slot (X s a)) = true) :
    execLink a s = .next (wentOn s) := by
  rw [execLink, withX_here h]
  exact if_pos ht

section
variable (hp : X s a ≠ s.self.name) (ht : (s.me.links.any fun p => p.2.ties 1 s.th.slot (X s a)) = false)
include hp ht

theorem execLink_full (hf : s.me.freeLink = none) : execLink a s = .next (wentOn (s.delivery (corePkg s.cur) (coreDie s.cur) s.self.name
    s.self.incarn rOverflow (X s a) (s.liveInc (X s a)) 8)) := by
  rw [execLink, withX_here h]
  simp only [hp, ht, hf, Bool.false_eq_true, or_self, if_false, Option.isNone_none, if_true]
  rfl

theorem execLink_asks {j : Nat} (hf : s.me.freeLink = some j) :
    execLink a s = .next (wentOn (s.tie (s.linkReq .link (X s a) 0))) := by
  rw [execLink, withX_here h]
  simp only [hp, ht, hf, Bool.false_eq_true, or_self, if_false, Option.isNone_some]
  rfl

end

theorem execUnlink_tied (ht : (s.me.links.any fun p => p.2.ties 1 s.th.slot (X s a)) = true) :
    execUnlink a s = .next (wentOn ((s.onMe (·.dropLinks fun e => e.ties 1 s.th.slot (X s a))).post (corePkg s.cur)
      (.linkReq (s.linkReq .unlink (X s a) 0)))) := by
  rw [execUnlink, withX_here h]
  exact if_pos ht

theorem execUnlink_untied (ht : (s.me.links.any fun p => p.2.ties 1 s.th.slot (X s a)) = false) :
    execUnlink a s = .next (wentOn s) := by
  rw [execUnlink, withX_here h]
  exact if_neg (by simp [ht])

theorem execDemon_found {p : Nat × LinkEntry} (hp : s.me.links.find? (fun p => p.2.kind == 2 && p.2.slot == s.th.slot &&
      p.2.ref == BitVec.ofNat 16 (X s a).toNat) = some p) :
    execDemon a s = .next (wentOn ((s.onMe (·.dropLinks fun e => e.kind == 2 && e.slot == s.th.slot &&
      e.ref == BitVec.ofNat 16 (X s a).toNat)).post (corePkg s.cur)
        (.linkReq (s.linkReq .demonitor p.2.peer (BitVec.ofNat 16 (X s a).toNat))))) := by
  rw [execDemon, withX_here h]
  simp only [hp]
  rfl

end

/-! ## Asking for a link or a monitor (R157) -/

/-- The entry that the asker of a link or monitor makes for itself. -/
def LinkReq.entryHere (r : LinkReq) (slot : Nat) : LinkEntry :=
  { kind := if r.op = .monitor then 2 else 1, slot := slot, ref := r.ref, peer := r.peer, pinc := r.pinc }

/-- Where the peer lives and the table has a place, the entry is made here and the request goes to the peer's core. -/
theorem State.tie_lives {r : LinkReq} {j : Nat} (hl : (s.reach r.domain false r.peer).lives = true) (hf : s.me.freeLink = some j) :
    s.tie r = (s.onMe fun k => { k with links := k.links.put j (r.entryHere s.th.slot) }).post (corePkg s.cur) (.linkReq r) := by
  have hadd : ∀ e, s.onMe (·.addLink e) = s.onMe fun k => { k with links := k.links.put j e } := fun e => by
    have hf' : (s.core s.cur).freeLink = some j := hf
    simp only [State.onMe, State.onCore, Core.addLink, hf']
  rw [State.tie, if_pos hl, hadd]
  rfl

/-- Entries that a test drops are gone from the table. -/
theorem Core.mem_dropLinks {k : Core} {f : LinkEntry → Bool} {p : Nat × LinkEntry} :
    p ∈ (k.dropLinks f).links ↔ p ∈ k.links ∧ f p.2 = false := by
  simp [Core.dropLinks]

/-- Whom a name stands for does not depend on the issuing actor's last monitor reference. -/
theorem State.actor_onSelf_lastRef (s : State) (ref : BitVec 16) (c i : Nat) :
    ((s.onSelf fun n => { n with lastRef := ref }).actor c i).name = (s.actor c i).name ∧
      ((s.onSelf fun n => { n with lastRef := ref }).actor c i).state = (s.actor c i).state := by
  rw [State.onSelf, State.onMe]
  rcases eq_or_ne c s.cur with rfl | hc
  · rw [State.actor_onCore_same]
    rcases eq_or_ne i ((s.core s.cur).thread (s.core s.cur).tset).slot with rfl | hi
    · rw [Core.actor_onActor_same]
      exact ⟨rfl, rfl⟩
    · rw [Core.actor_onActor_ne _ _ hi]
      exact ⟨rfl, rfl⟩
  · rw [State.actor_onCore_ne _ _ _ hc]
    exact ⟨rfl, rfl⟩

theorem State.reach_onSelf_lastRef (s : State) (ref : BitVec 16) (dom : BitVec 16) (every : Bool) (name : W64) :
    (s.onSelf fun n => { n with lastRef := ref }).reach dom every name = s.reach dom every name := by
  have hwho : (s.onSelf fun n => { n with lastRef := ref }).who name = s.who name := by
    simp only [State.who, (s.actor_onSelf_lastRef ref _ _).1, (s.actor_onSelf_lastRef ref _ _).2]
    rfl
  rw [State.reach, State.reach, hwho]
  rfl

/-! ## Supervision rules (R314) -/

section
variable (h : s.th.hereXs [a, d] = true)
include h

/-- The rule that m0 to m2 hold. -/
def State.ruleGiven (s : State) : RuleDecl := RuleDecl.ofWords (s.th.m[0]).toNat (s.th.m[1]).toNat (s.th.m[2]).toNat

/-- The supervision entry that they make for rule `n` of the issuing actor. -/
def State.ruleHere (s : State) (n : Nat) : SupEntry := s.ruleGiven.entry s.th.slot n (flockOf s.self.name)

omit h in
theorem RuleDecl.ok_iff (r : RuleDecl) : r.ok = true ↔ r.strat < 3 ∧ r.mode < 3 ∧ r.lo ≤ r.hi := by
  simp [RuleDecl.ok, and_assoc]

/-- SUPSET refuses a rule whose values are not assigned, or that names a flock of another domain. -/
theorem execSupset_refused (hr : ¬(s.ruleGiven.ok = true ∧ (s.ruleGiven.flock = 0 ∨
      (s.flock s.ruleGiven.flock).map (·.domain) = some s.self.domain))) :
    execSupset d a s = .next (wroteX s d 2) := by
  rw [execSupset, withX_here h]
  refine if_pos ?_
  simp only [Bool.or_eq_true, Bool.not_eq_true', Bool.and_eq_true, bne_iff_ne, ne_eq]
  by_cases hok : s.ruleGiven.ok = true
  · exact .inr ⟨fun h0 => hr ⟨hok, .inl h0⟩, fun hd => hr ⟨hok, .inr hd⟩⟩
  · exact .inl (Bool.eq_false_iff.2 hok)

theorem execSupset_sets {j : Nat} (hok : s.ruleGiven.ok = true)
    (hm : s.ruleGiven.flock = 0 ∨ (s.flock s.ruleGiven.flock).map (·.domain) = some s.self.domain)
    (hj : (s.me.ruleAt s.th.slot (bits (X s a).toNat 3 0)).or s.me.freeSups.head? = some j) :
    execSupset d a s = .next (wroteX (s.onMe fun k => { k with sups := k.sups.put j (s.ruleHere (bits (X s a).toNat 3 0)) }) d 0) := by
  have hf : (!s.ruleGiven.ok || s.ruleGiven.flock != 0 && ((s.flock s.ruleGiven.flock).map (·.domain)) != some s.self.domain) = false := by
    rcases hm with h0 | hd
    · simp [hok, h0]
    · simp [hok, hd]
  rw [execSupset, withX_here h]
  refine (if_neg (Bool.eq_false_iff.1 hf)).trans ?_
  simp only [hj]
  rfl

theorem execSupdel_none (hj : s.me.ruleAt s.th.slot (bits (X s a).toNat 3 0) = none) : execSupdel d a s = .next (wroteX s d 1) := by
  rw [execSupdel, withX_here h]
  simp only [hj]
  rfl

theorem execSupdel_some {j : Nat} (hj : s.me.ruleAt s.th.slot (bits (X s a).toNat 3 0) = some j) :
    execSupdel d a s = .next (wroteX (s.onMe fun k => { k with sups := k.sups.del j }) d 0) := by
  rw [execSupdel, withX_here h]
  simp only [hj]
  rfl

end

end Cases

end Sys2Proof.Machine
end

section
/-! CERTIFICATES. R306, R307, R314: SPAWN, links, monitors, TRAPEX and supervision rules. -/

namespace Sys2Proof.Machine

open Sys2Proof.Claims (X wroteX wentOn posted)

/-- LINK with a living peer: the entry is made and the request is under way. -/
theorem execLink_lives {a : Reg} {s : State} {j : Nat} (h : s.th.hereXs [a] = true) (hp : X s a ≠ s.self.name)
    (ht : (s.me.links.any fun p => p.2.ties 1 s.th.slot (X s a)) = false) (hf : s.me.freeLink = some j)
    (hl : (s.reach s.self.domain false (X s a)).lives = true) :
    ∃ t, execLink a s = .next t ∧ t.th.pc = s.th.pc + 4 ∧ t.me.links = s.me.links.put j
        { kind := 1, slot := s.th.slot, ref := 0, peer := X s a, pinc := s.liveInc (X s a) } ∧
      ∃ g, t.packet s.serial = some g ∧ ∃ q, g.pay = .linkReq q ∧ q.op = .link ∧ q.peer = X s a ∧ q.asker = s.self.name := by
  refine ⟨_, execLink_asks h hp ht hf, ?_⟩
  rw [State.tie_lives (r := s.linkReq .link (X s a) 0) hl hf]
  refine ⟨?_, ?_, _, (State.packet_post ..), _, rfl, rfl, rfl, rfl⟩
  · rw [pc_wentOn, State.th_post, State.th_onMe_of_threads _ rfl rfl]
  · rw [links_wentOn, State.me_post, State.me_onMe]
    rfl

/-- UNLINK of a linked peer: the entries go and the peer's core is told. -/
theorem execUnlink_drops {a : Reg} {s : State} (h : s.th.hereXs [a] = true)
    (ht : (s.me.links.any fun p => p.2.ties 1 s.th.slot (X s a)) = true) :
    ∃ t, execUnlink a s = .next t ∧ t.th.pc = s.th.pc + 4 ∧
      (∀ p ∈ t.me.links, ¬(p.2.kind = 1 ∧ p.2.slot = s.th.slot ∧ p.2.peer = X s a)) ∧
      ∃ g, t.packet s.serial = some g ∧ ∃ q, g.pay = .linkReq q ∧ q.op = .unlink ∧ q.peer = X s a := by
  refine ⟨_, execUnlink_tied h ht, ?_, fun p hp => ?_, _, State.packet_post .., _, rfl, rfl, rfl⟩
  · rw [pc_wentOn, State.th_post, State.th_onMe_of_threads _ rfl rfl]
  · rw [links_wentOn, State.me_post, State.me_onMe, Core.mem_dropLinks] at hp
    simpa [LinkEntry.ties, and_assoc] using hp.2

/-- MONITOR of a living peer: the reference is a new one, and the entry holds it. -/
theorem execMonitor_lives {d a : Reg} {s : State} {j : Nat} (h : s.th.hereXs [a, d] = true) (hf : s.me.freeLink = some j)
    (hl : (s.reach s.self.domain false (X s a)).lives = true) :
    ∃ t ref, execMonitor d a s = .next t ∧ ref = BitVec.ofNat 16 (s.me.newRef s.th.slot 256 s.self.lastRef.toNat) ∧
      t.self.lastRef = ref ∧ (d ≠ 0 → X t d = ref.zeroExtend 64) ∧ t.th.pc = s.th.pc + 4 ∧
      t.me.links = s.me.links.put j { kind := 2, slot := s.th.slot, ref := ref, peer := X s a, pinc := s.liveInc (X s a) } := by
  obtain ⟨ref, href⟩ : ∃ ref, ref = BitVec.ofNat 16 (s.me.newRef s.th.slot 256 s.self.lastRef.toNat) := ⟨_, rfl⟩
  have htie := State.tie_lives (s := s.onSelf fun n => { n with lastRef := ref }) (r := s.linkReq .monitor (X s a) ref) (j := j)
    (by rw [State.reach_onSelf_lastRef]; exact hl) (by rw [State.me_onSelf]; exact hf)
  have hexec : execMonitor d a s = .next (wroteX ((s.onSelf fun n => { n with lastRef := ref }).tie (s.linkReq .monitor (X s a) ref)) d
      (ref.zeroExtend 64)) := by
    rw [execMonitor, withX_here h, hf, href]
    rfl
  rw [htie] at hexec
  refine ⟨_, ref, hexec, href, ?_, fun hd => ?_, ?_, ?_⟩
  · rw [self_wroteX, State.self_post, State.self_onMe_of_slots _ rfl rfl rfl, State.self_onSelf]
  · rw [X, th_wroteX, (Thread.nextPc_registers _ d).1, Thread.readX_writeX_same _ _ hd]
  · rw [pc_wroteX, State.th_post, State.th_onMe_of_threads _ rfl rfl, State.th_onSelf]
  · rw [links_wroteX, State.me_post, State.me_onMe, State.me_onSelf, State.th_onSelf]
    rfl

/-- DEMON of a reference in use: the entry goes and the peer's core is told. -/
theorem execDemon_drops {a : Reg} {s : State} {p : Nat × LinkEntry} (h : s.th.hereXs [a] = true) (hp : s.me.links.find?
      (fun p => p.2.kind == 2 && p.2.slot == s.th.slot && p.2.ref == BitVec.ofNat 16 (X s a).toNat) = some p) :
    ∃ t, execDemon a s = .next t ∧ t.th.pc = s.th.pc + 4 ∧
      (∀ e ∈ t.me.links, ¬(e.2.kind = 2 ∧ e.2.slot = s.th.slot ∧ e.2.ref = BitVec.ofNat 16 (X s a).toNat)) ∧
      ∃ g, t.packet s.serial = some g ∧ ∃ q, g.pay = .linkReq q ∧ q.op = .demonitor ∧ q.peer = p.2.peer := by
  refine ⟨_, execDemon_found h hp, ?_, fun e he => ?_, _, State.packet_post .., _, rfl, rfl, rfl⟩
  · rw [pc_wentOn, State.th_post, State.th_onMe_of_threads _ rfl rfl]
  · rw [links_wentOn, State.me_post, State.me_onMe, Core.mem_dropLinks] at he
    simpa [and_assoc] using he.2

/-- Settles O38, case by case of each instruction. -/
theorem tieInstructions : Obligations.TieInstructions := by
  intro d a s h w peer own ws tied n r flock mine
  have ha : s.th.hereXs [a] = true := Thread.hereXs_singleton h (by simp)
  have hvalid : w < 2 ^ ws.sum → w ≠ 2 ^ 48 - 1 → validIndex ws w = true := fun h1 h2 => (validIndex_iff ws w).2 ⟨h1, h2⟩
  have hn : bits (X s a).toNat 3 0 = n := by
    rw [bits_eq_div, Nat.pow_zero, Nat.div_one]
    rfl
  have href : (X s a).setWidth 16 = BitVec.ofNat 16 (X s a).toNat := rfl
  simp only [exec_spawn, exec_link, exec_unlink, exec_monitor, exec_demon, exec_trapex, exec_supset, exec_supdel, href]
  refine ⟨fun hw => execSpawn_invalid h (Bool.eq_false_iff.2 fun hv => hw ((validIndex_iff ws w).1 hv)),
    fun h1 h2 h3 => execSpawn_full h (hvalid h1 h2) h3,
    fun h1 h2 h3 => ⟨_, execSpawn_reserves h (hvalid h1 h2) h3, rfl, rfl, rfl, rfl, rfl, rfl, rfl⟩,
    fun ht => execLink_tied ha ht,
    fun hp ht hf => ⟨_, execLink_full ha hp ht hf, links_wentOn _, pc_wentOn _, _, State.packet_post .., _, rfl, rfl, rfl, rfl, rfl, rfl⟩,
    fun hp ht j hf hl => execLink_lives ha hp ht hf hl, fun ht => execUnlink_drops ha ht, fun ht => execUnlink_untied ha ht,
    fun hf => execMonitor_full h hf, fun j hf hl => execMonitor_lives h hf hl, fun p hp => execDemon_drops ha hp, execTrapex_sets h,
    fun hr => execSupset_refused h fun hok => hr ?_, fun h1 h2 h3 hm j hj => ?_, fun hj => execSupdel_none h (by rw [hn]; exact hj),
    fun j hj => execSupdel_some h (by rw [hn]; exact hj)⟩
  · obtain ⟨hok, hm⟩ := hok
    obtain ⟨h1, h2, h3⟩ := (RuleDecl.ok_iff _).1 hok
    exact ⟨h1, h2, h3, hm⟩
  · have := execSupset_sets h ((RuleDecl.ok_iff _).2 ⟨h1, h2, h3⟩) hm (by rw [hn]; exact hj)
    rw [hn] at this
    exact this

end Sys2Proof.Machine
end

section
/-! SUPPORT. What is under way stays so while later operations only post: packets keep their numbers (R115, R170). -/

namespace Sys2Proof.Machine

/-- `t` comes after `s` by operations that only put packets under way. -/
def State.Later (s t : State) : Prop := s.serial ≤ t.serial ∧ ∀ n, n < s.serial → t.packet n = s.packet n

theorem State.Later.refl (s : State) : s.Later s := ⟨le_refl _, fun _ _ => rfl⟩

theorem State.Later.trans {s t u : State} (h1 : s.Later t) (h2 : t.Later u) : s.Later u :=
  ⟨h1.1.trans h2.1, fun n hn => (h2.2 n (hn.trans_le h1.1)).trans (h1.2 n hn)⟩

/-- Changes of parts other than the network and its numbers. -/
theorem State.Later.of_eq {s t : State} (hn : t.net = s.net) (hs : t.serial = s.serial) : s.Later t :=
  ⟨hs.ge, fun n _ => by rw [State.packet, hn, State.packet]⟩

theorem State.later_post (s : State) (src : Nat) (pay : Payload) : s.Later (s.post src pay) :=
  ⟨Nat.le_succ _, fun _ hn => s.packet_post_ne src pay hn.ne⟩

theorem State.later_onCore (s : State) (c : Nat) (f : Core → Core) : s.Later (s.onCore c f) := .of_eq rfl rfl

/-- Operations one after another. -/
theorem State.later_foldl {α : Type} {f : State → α → State} (hf : ∀ (s : State) a, s.Later (f s a)) (l : List α) (s : State) :
    s.Later (l.foldl f s) :=
  List.foldlRecOn (motive := s.Later) l f (.refl s) fun t ht a _ => ht.trans (hf t a)

/-- A packet with a property is under way. -/
def State.Carries (t : State) (P : Packet → Prop) : Prop := ∃ n p, n < t.serial ∧ t.packet n = some p ∧ P p

theorem State.Carries.later {s t : State} {P : Packet → Prop} (h : s.Carries P) (hl : s.Later t) : t.Carries P :=
  let ⟨n, p, hn, hp, hP⟩ := h
  ⟨n, p, hn.trans_le hl.1, (hl.2 n hn).trans hp, hP⟩

theorem State.carries_post (s : State) (src : Nat) {pay : Payload} {P : Packet → Prop}
    (hP : P { src := src, born := s.cycle src, pay := pay }) : (s.post src pay).Carries P :=
  ⟨s.serial, _, Nat.lt_succ_self _, s.packet_post src pay, hP⟩

/-- What each step of several puts under way is under way at the end. -/
theorem State.carries_foldl {α : Type} {f : State → α → State} {P : Packet → Prop} (hf : ∀ (s : State) a, s.Later (f s a)) {l : List α} {a : α}
    (ha : a ∈ l) (hP : ∀ s : State, (f s a).Carries P) (s : State) : (l.foldl f s).Carries P := by
  obtain ⟨l1, l2, rfl⟩ := List.append_of_mem ha
  rw [List.foldl_append, List.foldl_cons]
  exact (hP _).later (State.later_foldl hf l2 _)

/-- A packet that carries a signal with given words. -/
def Packet.Tells (dst : W64) (kind reason sub : Nat) (subject : W64) (p : Packet) : Prop :=
  ∃ g, p.pay = .signal g ∧ g.dst = dst ∧ g.kind = kind ∧ g.reason = reason ∧ g.sub = sub ∧ g.subject = subject

theorem State.Carries.signalled {t : State} {dst : W64} {kind reason sub : Nat} {subject : W64}
    (h : t.Carries (Packet.Tells dst kind reason sub subject)) : ∃ n, Claims.signalled t n dst kind reason sub subject :=
  let ⟨n, p, _, hp, g, hg⟩ := h
  ⟨n, p, g, hp, hg⟩

theorem State.carries_signal (s : State) (src : Nat) (g : Signal) :
    (s.signal src g).Carries (Packet.Tells g.dst g.kind g.reason g.sub g.subject) :=
  s.carries_post src ⟨g, rfl, rfl, rfl, rfl, rfl, rfl⟩

theorem State.later_signal (s : State) (src : Nat) (g : Signal) : s.Later (s.signal src g) := s.later_post src _

end Sys2Proof.Machine
end

section
/-! SUPPORT. What the end of an actor leaves of its core: regions scrubbed, slot, rules and links gone (R88, R164). -/

namespace Sys2Proof.Machine

/-! ## Scrubbing -/

/-- Reading a table whose keys outside a test have been taken off. -/
theorem SMap.get_filter_key {α : Type} (d : α) (f : Nat → Bool) (m : SMap α) (k : Nat) :
    SMap.get d (m.filter fun c => f c.1) k = if f k then SMap.get d m k else d := by
  induction m with
  | nil => simp [SMap.get]
  | cons p m ih =>
    obtain ⟨j, v⟩ := p
    by_cases hj : j = k
    · subst hj
      by_cases hf : f j <;> simp [SMap.get, hf, ih]
    · by_cases hf : f j <;> simp [SMap.get, hf, hj, ih]

/-- A scrub leaves zero in its granules and every other byte as it was. -/
theorem Core.read_scrub (k : Core) (base size x : Nat) : (k.scrub base size).mem.read x =
    if base * 1024 ≤ x ∧ x < (base + size) * 1024 then 0 else k.mem.read x := by
  refine (SMap.get_filter_key 0 (fun a => !(decide (base * 1024 ≤ a) && decide (a < (base + size) * 1024))) k.mem x).trans ?_
  by_cases h : base * 1024 ≤ x ∧ x < (base + size) * 1024 <;> simp [h, Memory.read]

theorem SMap.ne_of_mem_del {α : Type} {m : SMap α} {k : Nat} {q : Nat × α} (h : q ∈ m.del k) : q.1 ≠ k := by
  induction m with
  | nil => simp [SMap.del] at h
  | cons p m ih =>
    obtain ⟨j, w⟩ := p
    by_cases hj : j = k
    · exact ih (by simpa [SMap.del, hj] using h)
    · rw [SMap.del, if_neg hj, List.mem_cons] at h
      rcases h with rfl | h
      · exact hj
      · exact ih h

/-! ## The regions of a slot (R164 step 4) -/

/-- What reclaiming does for one entry of the region table. -/
def Core.reclaimEntry (slot : Nat) (k : Core) (p : Nat × RegEntry) : Core :=
  if p.2.valid && p.2.owner == slot then
    if p.2.tomb && !p.2.pend then k.dropRegion p.1 else (k.dropRegion p.1).scrub p.2.base p.2.size
  else k

theorem Core.reclaimRegions_eq_foldl (k : Core) (slot : Nat) : k.reclaimRegions slot = k.regions.foldl (Core.reclaimEntry slot) k := rfl

/-- An entry is left alone, or taken off the table with or without a scrub. -/
theorem Core.reclaimEntry_cases (slot : Nat) (k : Core) (p : Nat × RegEntry) :
    ¬(p.2.valid = true ∧ p.2.owner = slot) ∧ Core.reclaimEntry slot k p = k ∨
      (p.2.valid = true ∧ p.2.owner = slot) ∧ (p.2.tomb = true ∧ Core.reclaimEntry slot k p = k.dropRegion p.1 ∨
        Core.reclaimEntry slot k p = (k.dropRegion p.1).scrub p.2.base p.2.size) := by
  by_cases hown : p.2.valid = true ∧ p.2.owner = slot
  · refine .inr ⟨hown, ?_⟩
    by_cases ht : p.2.tomb = true ∧ p.2.pend = false
    · exact .inl ⟨ht.1, by simp [Core.reclaimEntry, hown, ht]⟩
    · refine .inr ?_
      have : (p.2.tomb && !p.2.pend) = false := by simpa using ht
      simp [Core.reclaimEntry, hown, this]
  · exact .inl ⟨hown, by simp [Core.reclaimEntry, hown]⟩

/-- What a property of a core needs for reclaiming to keep it. -/
theorem Core.reclaimEntry_keeps {P : Core → Prop} (hd : ∀ k i, P k → P (k.dropRegion i)) (hs : ∀ k b n, P k → P (k.scrub b n))
    (slot : Nat) {k : Core} (h : P k) (p : Nat × RegEntry) : P (Core.reclaimEntry slot k p) := by
  rcases Core.reclaimEntry_cases slot k p with ⟨-, he⟩ | ⟨-, ⟨-, he⟩ | he⟩ <;> rw [he]
  · exact h
  · exact hd k _ h
  · exact hs _ _ _ (hd k _ h)

theorem Core.reclaimRegions_keeps {P : Core → Prop} (hd : ∀ k i, P k → P (k.dropRegion i)) (hs : ∀ k b n, P k → P (k.scrub b n))
    (slot : Nat) {k : Core} (h : P k) : P (k.reclaimRegions slot) :=
  List.foldlRecOn (motive := P) k.regions _ h fun _ ht p _ => Core.reclaimEntry_keeps hd hs slot ht p

@[simp] theorem Core.links_reclaimRegions (k : Core) (slot : Nat) : (k.reclaimRegions slot).links = k.links :=
  Core.reclaimRegions_keeps (P := fun q => q.links = k.links) (fun _ _ h => h) (fun _ _ _ h => h) slot rfl

/-- No entry of the slot remains in the table. -/
theorem Core.regions_reclaimRegions {k : Core} {slot : Nat} {q : Nat × RegEntry} (h : q ∈ (k.reclaimRegions slot).regions)
    (hv : q.2.valid = true) : q.2.owner ≠ slot := by
  have hsub : ∀ (l : List (Nat × RegEntry)) (k : Core), ∀ q ∈ (l.foldl (Core.reclaimEntry slot) k).regions,
      q ∈ k.regions ∧ ∀ p ∈ l, p.2.valid = true → p.2.owner = slot → q.1 ≠ p.1 := by
    intro l
    induction l with
    | nil => exact fun k q hq => ⟨hq, by simp⟩
    | cons p l ih =>
      intro k q hq
      obtain ⟨hk, hl⟩ := ih _ q hq
      rcases Core.reclaimEntry_cases slot k p with ⟨hown, he⟩ | ⟨-, ⟨-, he⟩ | he⟩ <;> rw [he] at hk
      · exact ⟨hk, List.forall_mem_cons.2 ⟨fun h1 h2 => absurd ⟨h1, h2⟩ hown, hl⟩⟩
      · exact ⟨SMap.mem_del hk, List.forall_mem_cons.2 ⟨fun _ _ => SMap.ne_of_mem_del hk, hl⟩⟩
      · exact ⟨SMap.mem_del hk, List.forall_mem_cons.2 ⟨fun _ _ => SMap.ne_of_mem_del hk, hl⟩⟩
  obtain ⟨hin, hall⟩ := hsub k.regions k q h
  exact fun ho => hall q hin hv ho rfl

/-- Every byte of a live region of the slot reads zero. -/
theorem Core.read_reclaimRegions {k : Core} {slot : Nat} {p : Nat × RegEntry} (hp : p ∈ k.regions) (hv : p.2.valid = true)
    (ht : p.2.tomb = false) (ho : p.2.owner = slot) {x : Nat} (h1 : p.2.base * 1024 ≤ x) (h2 : x < (p.2.base + p.2.size) * 1024) :
    (k.reclaimRegions slot).mem.read x = 0 := by
  have hkeep : ∀ (k : Core) (q : Nat × RegEntry), k.mem.read x = 0 → (Core.reclaimEntry slot k q).mem.read x = 0 := fun k q h =>
    Core.reclaimEntry_keeps (P := fun k => k.mem.read x = 0) (fun _ _ h => h) (fun k b n h => by rw [Core.read_scrub, h, ite_self])
      slot h q
  have hzero : ∀ k : Core, (Core.reclaimEntry slot k p).mem.read x = 0 := fun k => by
    rcases Core.reclaimEntry_cases slot k p with ⟨hown, -⟩ | ⟨-, ⟨htomb, -⟩ | he⟩
    · exact absurd ⟨hv, ho⟩ hown
    · simp [ht] at htomb
    · rw [he, Core.read_scrub, if_pos ⟨h1, h2⟩]
  rw [Core.reclaimRegions_eq_foldl]
  obtain ⟨l1, l2, hl⟩ := List.append_of_mem hp
  rw [hl, List.foldl_append, List.foldl_cons]
  exact List.foldlRecOn (motive := fun k => k.mem.read x = 0) l2 _ (hzero _) fun k h q _ => hkeep k q h

/-! ## The signals of an exit (R164 step 7) -/

theorem State.later_sendExit (s : State) (pkg die : Nat) (ls ws : List LinkEntry) (supv : W64) (x : Exit) :
    s.Later (s.sendExit pkg die ls ws supv x) := by
  have h := (State.later_foldl (fun s e => s.later_signal pkg (x.signal s pkg die sExit e.peer e.pinc 0)) ls s).trans
    (State.later_foldl (fun s e => s.later_signal pkg (x.signal s pkg die sDown e.peer e.pinc e.ref)) ws _)
  simp only [State.sendExit]
  split
  · exact h
  · exact h.trans (State.later_signal ..)

theorem State.sendExit_tells_linked (s : State) (pkg die : Nat) {ls : List LinkEntry} (ws : List LinkEntry) (supv : W64) (x : Exit)
    {e : LinkEntry} (he : e ∈ ls) : (s.sendExit pkg die ls ws supv x).Carries (Packet.Tells e.peer 1 x.reason x.sub x.name) := by
  have h := (State.carries_foldl (f := fun s e => s.signal pkg (x.signal s pkg die sExit e.peer e.pinc 0))
    (P := Packet.Tells e.peer 1 x.reason x.sub x.name) (fun s e => s.later_signal pkg _) he
    (fun s => s.carries_signal pkg (x.signal s pkg die sExit e.peer e.pinc 0)) s).later
      (State.later_foldl (fun s e => s.later_signal pkg (x.signal s pkg die sDown e.peer e.pinc e.ref)) ws _)
  simp only [State.sendExit]
  split
  · exact h
  · exact h.later (State.later_signal ..)

theorem State.sendExit_tells_watcher (s : State) (pkg die : Nat) (ls : List LinkEntry) {ws : List LinkEntry} (supv : W64) (x : Exit)
    {e : LinkEntry} (he : e ∈ ws) : (s.sendExit pkg die ls ws supv x).Carries (Packet.Tells e.peer 2 x.reason x.sub x.name) := by
  have h : ∀ s : State, (ws.foldl (fun s e => s.signal pkg (x.signal s pkg die sDown e.peer e.pinc e.ref)) s).Carries
      (Packet.Tells e.peer 2 x.reason x.sub x.name) := fun s =>
    State.carries_foldl (f := fun s e => s.signal pkg (x.signal s pkg die sDown e.peer e.pinc e.ref)) (fun s e => s.later_signal pkg _) he
      (fun s => s.carries_signal pkg (x.signal s pkg die sDown e.peer e.pinc e.ref)) s
  simp only [State.sendExit]
  split
  · exact h _
  · exact (h _).later (State.later_signal ..)

theorem State.sendExit_tells_supervisor (s : State) (pkg die : Nat) (ls ws : List LinkEntry) {supv : W64} (x : Exit) (h : supv ≠ 0) :
    (s.sendExit pkg die ls ws supv x).Carries (Packet.Tells supv 3 x.reason x.sub x.name) := by
  simp only [State.sendExit, if_neg h]
  exact State.carries_signal ..

/-- The signals of an exit change nothing but the network. -/
theorem State.sendExit_frame (s : State) (pkg die : Nat) (ls ws : List LinkEntry) (supv : W64) (x : Exit) :
    (s.sendExit pkg die ls ws supv x).cores = s.cores ∧ (s.sendExit pkg die ls ws supv x).dir = s.dir := by
  have hfold : ∀ (l : List LinkEntry) (g : State → LinkEntry → Signal) (s : State),
      (l.foldl (fun s e => s.signal pkg (g s e)) s).cores = s.cores ∧ (l.foldl (fun s e => s.signal pkg (g s e)) s).dir = s.dir :=
    fun l g s => List.foldlRecOn (motive := fun t : State => t.cores = s.cores ∧ t.dir = s.dir) l _ ⟨rfl, rfl⟩ fun _ h _ _ => h
  obtain ⟨c1, d1⟩ := hfold ls (fun s e => x.signal s pkg die sExit e.peer e.pinc 0) s
  obtain ⟨c2, d2⟩ := hfold ws (fun s e => x.signal s pkg die sDown e.peer e.pinc e.ref)
    (ls.foldl (fun s e => s.signal pkg (x.signal s pkg die sExit e.peer e.pinc 0)) s)
  simp only [State.sendExit]
  split
  · exact ⟨c2.trans c1, d2.trans d1⟩
  · exact ⟨c2.trans c1, d2.trans d1⟩

/-! ## Names that go -/

/-- `t` is `s` with some names freed and packets under way: no core changes, and no name comes to stand in the directory. -/
def State.Freed (s t : State) : Prop := t.cores = s.cores ∧ s.Later t ∧ ∀ name, s.dirEntry name = none → t.dirEntry name = none

theorem State.Freed.refl (s : State) : s.Freed s := ⟨rfl, .refl s, fun _ h => h⟩

theorem State.Freed.trans {s t u : State} (h1 : s.Freed t) (h2 : t.Freed u) : s.Freed u :=
  ⟨h2.1.trans h1.1, h1.2.1.trans h2.2.1, fun n h => h2.2.2 n (h1.2.2 n h)⟩

theorem State.freed_foldl {α : Type} {f : State → α → State} (hf : ∀ (s : State) a, s.Freed (f s a)) (l : List α) (s : State) : s.Freed (l.foldl f s) :=
  List.foldlRecOn (motive := s.Freed) l f (.refl s) fun t ht a _ => ht.trans (hf t a)

theorem State.freed_freeName (s : State) (name : W64) : s.Freed (s.freeName name) := by
  refine ⟨rfl, .of_eq rfl rfl, fun other h => ?_⟩
  rcases eq_or_ne other name with rfl | hne
  · exact s.dirEntry_freeName other
  · rw [s.dirEntry_freeName_ne hne, h]

theorem State.freed_flockDown (s : State) (n : Nat) : s.Freed (s.flockDown n) := by
  unfold State.flockDown
  split
  · exact .refl s
  · split
    · exact .refl s
    · exact ⟨rfl, State.later_signal .., fun _ h => h⟩

theorem State.freed_nameGone (s : State) (name : W64) : s.Freed (s.nameGone name) :=
  (s.freed_freeName name).trans (State.freed_flockDown ..)

/-- A name that is gone is free. -/
theorem State.dirEntry_nameGone (s : State) (name : W64) : (s.nameGone name).dirEntry name = none :=
  (State.freed_flockDown (s.freeName name) _).2.2 name (s.dirEntry_freeName name)

theorem State.freed_giveUpTree (n : Nat) (s : State) (name : W64) : s.Freed (State.giveUpTree n s name) := by
  induction n generalizing s name with
  | zero => exact .refl s
  | succ n ih =>
    rw [State.giveUpTree]
    split
    · split
      · exact (s.freed_nameGone name).trans (State.freed_foldl ih _ _)
      · exact .refl s
    · exact .refl s

theorem State.freed_giveUpName (s : State) (name : W64) : s.Freed (s.giveUpName name) := State.freed_giveUpTree ..

theorem State.freed_countExit (s : State) (name : W64) (reason : Nat) : s.Freed (s.countExit name reason) := by
  unfold State.countExit State.onFlock
  split
  · split
    · exact .refl s
    · exact ⟨rfl, .of_eq rfl rfl, fun _ h => h⟩
  · exact .refl s

end Sys2Proof.Machine
end

section
/-! SUPPORT. The steps 4 to 7 of a death (R164): the state after DEATH_RECLAIM, and what it shows of the slot, the peers and the name. -/

namespace Sys2Proof.Machine

/-! ## The state after DEATH_RECLAIM -/

/-- The exit that the links and the supervisor are told. -/
def State.exitTold (s : State) (core slot : Nat) (d : Death) : Exit :=
  let a := s.actor core slot
  { name := a.name, inc := a.incarn, reason := d.reason, sub := d.sub, detail := d.detail, core := core
    rrec := ((s.dirEntry a.name).map (·.rrec)).getD 0, revive := d.ended }

/-- The supervisor of a name, by the directory; 0 where it stands nowhere. -/
def State.supvOf (s : State) (name : W64) : W64 := ((s.dirEntry name).map (·.supv)).getD 0

theorem State.supvOf_eq {s : State} {name : W64} {e : DirEntry} (h : s.dirEntry name = some e) : s.supvOf name = e.supv := by
  rw [State.supvOf, h, Option.map_some, Option.getD_some]

/-- The supervisor that is told; 0 where none is. -/
def State.supvTold (s : State) (name : W64) : W64 := if s.endedBySupv (s.supvOf name) name then 0 else s.supvOf name

/-- The state once the regions and the slot are free and the signals are on their way. -/
def State.slotGone (s : State) (core slot : Nat) (d : Death) : State :=
  let a := s.actor core slot
  (((s.onCore core (·.reclaimRegions slot)).exitOf core slot (s.supvTold a.name) (s.exitTold core slot d)).onCore core
    (·.freeSlotOf slot)).countExit a.name d.reason

/-- What becomes of the name. -/
def State.nameAfter (s t : State) (core slot : Nat) (d : Death) : State :=
  let a := s.actor core slot
  match s.dirEntry a.name with
  | some e =>
    if e.state = 2 ∧ e.core = core ∧ e.slot = slot then
      (if s.restartFollows (s.supvOf a.name) a.name d.reason then t.setDir { e with state := 3, ended := d.ended } else t.nameGone a.name)
    else t
  | none => t

/-- The children that the death had ended are given up where nobody can start them again. -/
def State.endedAfter (s t : State) (core slot : Nat) (d : Death) : State :=
  let name := (s.actor core slot).name
  if s.restartFollows (s.supvOf name) name d.reason ∨ s.supvTold name ≠ 0 then t else d.ended.foldl State.giveUpName t

theorem execDeathReclaim_eq {s : State} {core slot : Nat} {d : Death} (hd : (s.actor core slot).dying = some d) (hb : d.begun = true)
    (hq : s.quiet core slot d = true) :
    execDeathReclaim core slot s = .next (s.endedAfter (s.nameAfter (s.slotGone core slot d) core slot d) core slot d) := by
  simp only [execDeathReclaim, evDeathReclaim, hd, hb, hq, Bool.not_true, Bool.or_self, if_false, Bool.false_eq_true]
  rfl

/-! ## The core -/

theorem State.endedAfter_freed (s t : State) (core slot : Nat) (d : Death) : t.Freed (s.endedAfter t core slot d) := by
  simp only [State.endedAfter]
  split
  · exact .refl t
  · exact State.freed_foldl State.freed_giveUpName _ _

/-- The directory entry stays, becomes pending or goes. -/
theorem State.nameAfter_cases (s t : State) (core slot : Nat) (d : Death) : s.nameAfter t core slot d = t ∨
    (∃ e, s.nameAfter t core slot d = t.setDir e) ∨ s.nameAfter t core slot d = t.nameGone (s.actor core slot).name := by
  simp only [State.nameAfter]
  split
  · split
    · split
      · exact .inr (.inl ⟨_, rfl⟩)
      · exact .inr (.inr rfl)
    · exact .inl rfl
  · exact .inl rfl

theorem State.nameAfter_cores (s t : State) (core slot : Nat) (d : Death) :
    (s.nameAfter t core slot d).cores = t.cores ∧ t.Later (s.nameAfter t core slot d) := by
  rcases s.nameAfter_cases t core slot d with h | ⟨e, h⟩ | h <;> rw [h]
  · exact ⟨rfl, .refl t⟩
  · exact ⟨rfl, .of_eq rfl rfl⟩
  · exact ⟨(t.freed_nameGone _).1, (t.freed_nameGone _).2.1⟩

/-- The core of a dead actor: its regions scrubbed, its links and its slot gone. -/
theorem State.core_slotGone (s : State) (core slot : Nat) (d : Death) : (s.slotGone core slot d).core core =
    ((((s.core core).reclaimRegions slot).dropLinks fun e => e.slot == slot).freeSlotOf slot) := by
  simp only [State.slotGone]
  rw [State.core, (State.freed_countExit _ _ _).1, ← State.core, State.core_onCore_same, State.exitOf, State.core_onCore_same, State.core,
    (State.sendExit_frame ..).1, ← State.core, State.core_onCore_same]

theorem State.core_afterReclaim (s : State) (core slot : Nat) (d : Death) :
    (s.endedAfter (s.nameAfter (s.slotGone core slot d) core slot d) core slot d).core core = (s.slotGone core slot d).core core := by
  rw [State.core, (State.endedAfter_freed ..).1, (State.nameAfter_cores ..).1, ← State.core]

/-! ## The signals -/

theorem State.carries_afterReclaim {s : State} {core slot : Nat} {d : Death} {P : Packet → Prop}
    (h : ((s.onCore core (·.reclaimRegions slot)).sendExit (corePkg core) (coreDie core) ((s.core core).linksOf slot 1) ((s.core core).linksOf slot 3)
      (s.supvTold (s.actor core slot).name) (s.exitTold core slot d)).Carries P) :
    (s.endedAfter (s.nameAfter (s.slotGone core slot d) core slot d) core slot d).Carries P := by
  have hlinks : ∀ kind, ((s.onCore core (·.reclaimRegions slot)).core core).linksOf slot kind = (s.core core).linksOf slot kind := fun kind => by
    rw [State.core_onCore_same, Core.linksOf, Core.links_reclaimRegions, Core.linksOf]
  have hgone : (s.slotGone core slot d).Carries P := by
    refine State.Carries.later ?_ (State.freed_countExit _ _ _).2.1
    refine State.Carries.later ?_ (State.later_onCore _ _ _)
    refine State.Carries.later ?_ (State.later_onCore _ _ _)
    simp only [hlinks]
    exact h
  exact (hgone.later (s.nameAfter_cores _ core slot d).2).later (s.endedAfter_freed _ core slot d).2.1

theorem Core.mem_linksOf {k : Core} {l : Nat × LinkEntry} {slot kind : Nat} (hl : l ∈ k.links) (hs : l.2.slot = slot) (hk : l.2.kind = kind) :
    l.2 ∈ k.linksOf slot kind := by
  simp only [Core.linksOf, List.mem_filter, List.mem_map]
  exact ⟨⟨l, hl, rfl⟩, by simp [hs, hk]⟩

/-! ## The name -/

theorem State.dirEntry_slotGone_free {s : State} {core slot : Nat} {d : Death} {e : DirEntry}
    (he : s.dirEntry (s.actor core slot).name = some e) (h2 : e.state = 2) (hc : e.core = core) (hs : e.slot = slot)
    (hf : s.restartFollows e.supv (s.actor core slot).name d.reason = false) :
    (s.endedAfter (s.nameAfter (s.slotGone core slot d) core slot d) core slot d).dirEntry (s.actor core slot).name = none := by
  refine (State.endedAfter_freed ..).2.2 _ ?_
  simp only [State.nameAfter, he, State.supvOf_eq he, h2, hc, hs, and_self, if_true, hf, Bool.false_eq_true, if_false]
  exact State.dirEntry_nameGone _ _

theorem State.dirEntry_slotGone_pending {s : State} {core slot : Nat} {d : Death} {e : DirEntry}
    (he : s.dirEntry (s.actor core slot).name = some e) (hn : e.name = (s.actor core slot).name) (h2 : e.state = 2) (hc : e.core = core)
    (hs : e.slot = slot) (hf : s.restartFollows e.supv (s.actor core slot).name d.reason = true) :
    (s.endedAfter (s.nameAfter (s.slotGone core slot d) core slot d) core slot d).dirEntry (s.actor core slot).name =
      some { e with state := 3, ended := d.ended } := by
  simp only [State.endedAfter, State.supvOf_eq he, hf, true_or, if_true]
  simp only [State.nameAfter, he, State.supvOf_eq he, h2, hc, hs, and_self, if_true, hf]
  exact State.dirEntry_setDir_of_eq _ hn

/-! ## DEATH_RECLAIM -/

/-- What DEATH_RECLAIM leaves of the slot. -/
theorem reclaimed_core (s : State) (core slot : Nat) (d : Death) :
    let t := s.endedAfter (s.nameAfter (s.slotGone core slot d) core slot d) core slot d
    t.actor core slot = {} ∧ (∀ p ∈ (t.core core).regions, p.2.valid = true → p.2.owner ≠ slot) ∧
    (∀ p ∈ (s.core core).regions, p.2.valid = true → p.2.tomb = false → p.2.owner = slot →
      ∀ x, p.2.base * 1024 ≤ x → x < (p.2.base + p.2.size) * 1024 → (t.core core).mem.read x = 0) ∧
    (∀ p ∈ (t.core core).sups, p.2.slot ≠ slot) ∧ (∀ p ∈ (t.core core).links, p.2.slot ≠ slot) := by
  intro t
  have hcore : t.core core = (((s.core core).reclaimRegions slot).dropLinks fun e => e.slot == slot).freeSlotOf slot :=
    (s.core_afterReclaim core slot d).trans (s.core_slotGone core slot d)
  refine ⟨?_, ?_, ?_, ?_, ?_⟩
  · rw [State.actor, hcore]
    exact SMap.get_del_same ..
  · intro p hp hv
    rw [hcore] at hp
    exact Core.regions_reclaimRegions hp hv
  · intro p hp hv ht ho x h1 h2
    rw [hcore]
    exact Core.read_reclaimRegions hp hv ht ho h1 h2
  · intro p hp
    rw [hcore] at hp
    simpa using (List.mem_filter.1 hp).2
  · intro p hp
    rw [hcore] at hp
    simpa using (List.mem_filter.1 hp).2

/-- Each peer, watcher and the supervisor has its signal on the way. -/
theorem reclaimed_tells {s : State} {core slot : Nat} (d : Death) :
    let a := s.actor core slot
    let t := s.endedAfter (s.nameAfter (s.slotGone core slot d) core slot d) core slot d
    (∀ l ∈ (s.core core).links, l.2.slot = slot → l.2.kind = 1 → ∃ n, Claims.signalled t n l.2.peer 1 d.reason d.sub a.name) ∧
    (∀ l ∈ (s.core core).links, l.2.slot = slot → l.2.kind = 3 → ∃ n, Claims.signalled t n l.2.peer 2 d.reason d.sub a.name) ∧
    (∀ e, s.dirEntry a.name = some e → e.supv ≠ 0 → s.endedBySupv e.supv a.name = false →
      ∃ n, Claims.signalled t n e.supv 3 d.reason d.sub a.name) := by
  intro a t
  refine ⟨fun l hl hs hk => ?_, fun l hl hs hk => ?_, fun e he h0 hnot => ?_⟩
  · exact (State.carries_afterReclaim (State.sendExit_tells_linked _ _ _ _ _ _ (Core.mem_linksOf hl hs hk))).signalled
  · exact (State.carries_afterReclaim (State.sendExit_tells_watcher _ _ _ _ _ _ (Core.mem_linksOf hl hs hk))).signalled
  · have htold : s.supvTold a.name = e.supv := by rw [State.supvTold, State.supvOf_eq he, hnot, if_neg Bool.false_ne_true]
    have h := State.sendExit_tells_supervisor (s.onCore core (·.reclaimRegions slot)) (corePkg core) (coreDie core) ((s.core core).linksOf slot 1)
      ((s.core core).linksOf slot 3) (s.exitTold core slot d) (htold ▸ h0 : s.supvTold a.name ≠ 0)
    rw [htold] at h
    exact (State.carries_afterReclaim (by rw [htold]; exact h)).signalled

end Sys2Proof.Machine
end

section
/-! SUPPORT. The steps 1 to 3 of a death (R164): what stopping the copies and the sends of an actor keeps. -/

namespace Sys2Proof.Machine

/-! ## What each step keeps -/

/-- The slot of a core is dying in `t` if it is in `s`, and the directory and the global memory are the same. -/
def State.StillDying (core slot : Nat) (s t : State) : Prop :=
  t.dir = s.dir ∧ t.gmem = s.gmem ∧ ((s.actor core slot).state = .dying → (t.actor core slot).state = .dying)

section
variable {core slot : Nat}

theorem State.StillDying.refl (s : State) : State.StillDying core slot s s := ⟨rfl, rfl, id⟩

theorem State.StillDying.trans {s t u : State} (h1 : State.StillDying core slot s t) (h2 : State.StillDying core slot t u) :
    State.StillDying core slot s u :=
  ⟨h2.1.trans h1.1, h2.2.1.trans h1.2.1, h2.2.2 ∘ h1.2.2⟩

theorem State.stillDying_foldl {α : Type} {f : State → α → State} (hf : ∀ (s : State) a, State.StillDying core slot s (f s a)) (l : List α)
    (s : State) : State.StillDying core slot s (l.foldl f s) :=
  List.foldlRecOn (motive := State.StillDying core slot s) l f (.refl s) fun t ht a _ => ht.trans (hf t a)

/-- A change of parts other than the directory, the global memory and the cores. -/
theorem State.StillDying.of_eq {s t : State} (hd : t.dir = s.dir) (hg : t.gmem = s.gmem) (hc : t.cores = s.cores) :
    State.StillDying core slot s t :=
  ⟨hd, hg, fun h => by rw [State.actor, State.core, hc]; exact h⟩

/-- A change of a core that keeps its dying actors dying. -/
theorem State.stillDying_onCore (s : State) (c : Nat) {f : Core → Core}
    (h : ∀ k : Core, (k.actor slot).state = .dying → ((f k).actor slot).state = .dying) : State.StillDying core slot s (s.onCore c f) := by
  refine ⟨rfl, rfl, fun hs => ?_⟩
  rcases eq_or_ne core c with rfl | hne
  · rw [State.actor_onCore_same]
    exact h _ hs
  · rw [State.actor_onCore_ne _ _ _ hne, hs]

/-- A change of a core that leaves its slots. -/
theorem State.stillDying_onCore_of_slots (s : State) (c : Nat) {f : Core → Core} (h : ∀ k : Core, (f k).slots = k.slots) :
    State.StillDying core slot s (s.onCore c f) :=
  s.stillDying_onCore c fun k hk => by rw [Core.actor, h k]; exact hk

/-- Changes of an actor that keep its state. -/
theorem Core.state_onActor (k : Core) (i j : Nat) {f : Actor → Actor} (hf : ∀ a, (f a).state = a.state) :
    ((k.onActor i f).actor j).state = (k.actor j).state := by
  rcases eq_or_ne j i with rfl | h
  · rw [Core.actor_onActor_same, hf]
  · rw [Core.actor_onActor_ne _ _ h]

/-! ## Killing the children (R161) -/

/-- A death event that reaches a dying slot is discarded. -/
theorem Core.die_of_dying {k : Core} {i : Nat} (h : (k.actor i).state = .dying) (reason sub : Nat) (detail : W64) : k.die i reason sub detail = k := by
  simp [Core.die, h, ActState.mortal]

theorem Core.dying_die {k : Core} {j : Nat} (h : (k.actor j).state = .dying) (i reason sub : Nat) (detail : W64) :
    ((k.die i reason sub detail).actor j).state = .dying := by
  rcases eq_or_ne j i with rfl | hne
  · rw [Core.die_of_dying h]
    exact h
  · simp only [Core.die]
    split
    · rw [Core.actor_onActor_ne _ _ hne]
      split
      · exact h
      · exact h
    · exact h

theorem State.stillDying_endChildren (s : State) (c i : Nat) (name : W64) : State.StillDying core slot s (s.endChildren c i name).2 :=
  State.stillDying_foldl (fun s (e : DirEntry) => s.stillDying_onCore e.core fun _ hk => Core.dying_die hk _ _ _ _) _ s

/-! ## Waits, sends and drains -/

theorem State.stillDying_withdrawWaits (s : State) (c i : Nat) : State.StillDying core slot s (s.withdrawWaits c i) :=
  State.StillDying.trans (.of_eq rfl rfl rfl) (State.stillDying_onCore_of_slots _ c fun _ => rfl)

theorem State.stillDying_endSend (s : State) (c id : Nat) : State.StillDying core slot s (s.endSend c id) :=
  (s.stillDying_onCore_of_slots c (f := fun k => { k with sends := k.sends.filter fun e => e.id != id }) fun _ => rfl).trans (.of_eq rfl rfl rfl)

theorem State.stillDying_dropUnsent (s : State) (c i : Nat) : State.StillDying core slot s (s.dropUnsent c i) :=
  (State.stillDying_foldl (fun s id => s.stillDying_endSend c id) _ s).trans (State.stillDying_onCore_of_slots _ c fun _ => rfl)

theorem Core.actor_writeWord (k : Core) (a : Nat) (w : W64) (j : Nat) : (k.writeWord a w).actor j = k.actor j := rfl

theorem Core.state_onCounters (k : Core) (i j : Nat) {f : Actor → Actor} (hf : ∀ a, (f a).state = a.state) :
    ((k.onCounters i f).actor j).state = (k.actor j).state := by
  simp only [Core.onCounters]
  split
  · rw [Core.actor_writeWord, k.state_onActor i j hf]
  · exact k.state_onActor i j hf

theorem State.stillDying_endDrain (s : State) (n : Nat) (d : Drain) : State.StillDying core slot s (s.endDrain n d) := by
  simp only [State.endDrain]
  split
  · refine State.StillDying.trans (t := s.take n) (.of_eq rfl rfl rfl) (State.stillDying_onCore _ _ fun k hk => ?_)
    exact (k.state_onCounters d.slot slot (f := fun a => { a with mt := a.mt - 1 }) fun _ => rfl).trans hk
  · exact .of_eq rfl rfl rfl

theorem State.stillDying_refuseDrain (s : State) (n : Nat) (d : Drain) (pkg die reason code : Nat) (inc : BitVec 8) :
    State.StillDying core slot s (s.refuseDrain n d pkg die reason code inc) :=
  (s.stillDying_endDrain n d).trans (.of_eq rfl rfl rfl)

theorem State.stillDying_stopDrains (s : State) (c : Nat) (name : W64) (inc : BitVec 8) (which : Nat → Bool) :
    State.StillDying core slot s (s.stopDrains c name inc which) := by
  refine State.stillDying_foldl (fun s p => ?_) _ s
  split
  · split
    · exact s.stillDying_refuseDrain ..
    · exact .refl s
  · exact .refl s

/-! ## Parcels -/

/-- What a property of a core needs for the release of a parcel's granules to keep it. -/
theorem Core.releaseGiven_keeps {P : Core → Prop} (hs : ∀ k b n, P k → P (k.scrub b n)) (hr : ∀ (k : Core) r, P k → P { k with regions := r })
    {k : Core} (h : P k) (p : Parcel) : P (k.releaseGiven p) := by
  simp only [Core.releaseGiven]
  split
  · exact h
  · split
    · exact hr _ _ (hs _ _ _ h)
    · exact hr _ _ (hs _ _ _ h)

theorem Core.slots_releaseGiven (k : Core) (p : Parcel) : (k.releaseGiven p).slots = k.slots :=
  Core.releaseGiven_keeps (P := fun q => q.slots = k.slots) (fun _ _ _ h => h) (fun _ _ h => h) rfl p

theorem Core.fifo_releaseGiven (k : Core) (p : Parcel) : (k.releaseGiven p).fifo = k.fifo :=
  Core.releaseGiven_keeps (P := fun q => q.fifo = k.fifo) (fun _ _ _ h => h) (fun _ _ h => h) rfl p

/-- Dropping a parcel changes the packets, the engine and the granules of its giver's core only. -/
theorem State.dropParcel_cases (s : State) (n : Nat) : (∃ p, s.dropParcel n = (s.endParcel n p).onCore p.giverCore (·.releaseGiven p)) ∨
    s.dropParcel n = s.take n := by
  unfold State.dropParcel
  split
  · exact .inl ⟨_, rfl⟩
  · exact .inr rfl

theorem State.stillDying_dropParcel (s : State) (n : Nat) : State.StillDying core slot s (s.dropParcel n) := by
  rcases s.dropParcel_cases n with ⟨p, h⟩ | h <;> rw [h]
  · exact State.StillDying.trans (.of_eq rfl rfl rfl) (State.stillDying_onCore_of_slots _ _ fun k => k.slots_releaseGiven p)
  · exact .of_eq rfl rfl rfl

theorem State.fifo_dropParcel (s : State) (n c : Nat) : ((s.dropParcel n).core c).fifo = (s.core c).fifo := by
  rcases s.dropParcel_cases n with ⟨p, h⟩ | h <;> rw [h]
  · rcases eq_or_ne c p.giverCore with rfl | hne
    · rw [State.core_onCore_same, Core.fifo_releaseGiven]
      rfl
    · rw [State.core_onCore_ne _ _ hne]
      rfl
  · rfl

/-! ## Copies -/

/-- The copies of a slot leave the FIFO, and its entries take PEND. -/
def Core.haltCopies (k : Core) (i : Nat) : Core := ({ k with fifo := k.fifo.filter fun r => r.slot != i } : Core).pendRegions i

/-- The jobs of a slot leave the engine, and the drains of its actor the network. -/
def State.haltJobs (s : State) (c i : Nat) (name : W64) : State :=
  let t := s.onEngine (engineOf c) fun g => { g with active := g.active.filter fun j => !(j.core == c && j.slot == i && j.parcel.isNone) }
  { t with net := t.net.filter fun p => !p.2.pay.isDrainOf c i name }

/-- The parcels of an actor that no core has accepted yet. -/
def State.earlyParcels (s : State) (c : Nat) (name : W64) (inc : BitVec 8) : List Nat :=
  (s.net.filter fun p => p.2.pay.isParcelOf c name inc fun ph => ph != .reserved).map (·.1)

/-- The state before the parcels of the actor are dropped. -/
def State.halted (s : State) (c i : Nat) : State :=
  let a := s.actor c i
  ((s.stopDrains c a.name 0 fun _ => true).onCore c (·.haltCopies i)).haltJobs c i a.name

theorem State.stopCopies_eq (s : State) (c i : Nat) :
    s.stopCopies c i = ((s.halted c i).earlyParcels c (s.actor c i).name (s.actor c i).incarn).foldl State.dropParcel (s.halted c i) := rfl

theorem State.stillDying_stopCopies (s : State) (c i : Nat) : State.StillDying core slot s (s.stopCopies c i) := by
  rw [State.stopCopies_eq]
  refine State.StillDying.trans ?_ (State.stillDying_foldl State.stillDying_dropParcel _ _)
  have hjobs : ∀ t : State, State.StillDying core slot t (t.haltJobs c i (s.actor c i).name) := fun _ => .of_eq rfl rfl rfl
  have hcore : ∀ t : State, State.StillDying core slot t (t.onCore c (·.haltCopies i)) := fun t => t.stillDying_onCore_of_slots c fun _ => rfl
  exact ((s.stillDying_stopDrains c _ _ _).trans (hcore _)).trans (hjobs _)

/-- No copy of the slot waits in the FIFO. -/
theorem State.fifo_stopCopies (s : State) (c i : Nat) : ∀ x ∈ ((s.stopCopies c i).core c).fifo, x.slot ≠ i := by
  have hfold : ∀ (l : List Nat) (s : State), ((l.foldl State.dropParcel s).core c).fifo = (s.core c).fifo := fun l s =>
    List.foldlRecOn (motive := fun t : State => (t.core c).fifo = (s.core c).fifo) l _ rfl fun t h n _ => (t.fifo_dropParcel n c).trans h
  have hhalted : (s.halted c i).core c = Core.haltCopies _ i := State.core_onCore_same _ c (·.haltCopies i)
  intro x hx
  rw [State.stopCopies_eq, hfold, hhalted] at hx
  simpa using (List.mem_filter.1 hx).2

/-! ## Tickets and tile commands -/

theorem Core.accs_cancelTickets {k : Core} {i : Nat} {x : Access} (hx : x ∈ (k.cancelTickets i).accs) (h : x.slot = i) : x.orphan = true := by
  obtain ⟨y, -, rfl⟩ := List.mem_map.1 hx
  by_cases hy : y.slot = i
  · rw [if_pos hy]
  · rw [if_neg hy] at h
    exact absurd h hy

/-- What a property of a core needs for the abandonment of queued commands to keep it. -/
theorem Core.abandon_keeps {P : Core → Prop} (ha : ∀ k i f, P k → P (Core.onActor k i f)) (hm : ∀ (k : Core) q, P k → P { k with mq := q })
    {k : Core} (h : P k) (i : Nat) (which : V256 → Bool) : P (k.abandon i which) :=
  List.foldlRecOn (motive := P) _ _ (hm k _ h) fun q hq _ _ => ha q _ _ hq

theorem Core.accs_abandon (k : Core) (i : Nat) (which : V256 → Bool) : (k.abandon i which).accs = k.accs :=
  Core.abandon_keeps (P := fun q => q.accs = k.accs) (fun _ _ _ h => h) (fun _ _ h => h) rfl i which

theorem Core.fifo_abandon (k : Core) (i : Nat) (which : V256 → Bool) : (k.abandon i which).fifo = k.fifo :=
  Core.abandon_keeps (P := fun q => q.fifo = k.fifo) (fun _ _ _ h => h) (fun _ _ h => h) rfl i which

theorem Core.mq_abandon_all {k : Core} {i : Nat} {x : TileCmd} (hx : x ∈ (k.abandon i fun _ => true).mq) : x.slot ≠ i := by
  have h : (k.abandon i fun _ => true).mq = k.mq.filter fun c => !(c.slot == i && true) :=
    List.foldlRecOn (motive := fun q : Core => q.mq = k.mq.filter fun c => !(c.slot == i && true)) _ _ rfl fun _ hq _ _ => hq
  rw [h] at hx
  simpa using (List.mem_filter.1 hx).2

theorem Core.state_giveBack (k : Core) (c : TileCmd) (j : Nat) : ((k.giveBack c).actor j).state = (k.actor j).state :=
  k.state_onActor _ _ fun a => List.foldlRecOn (motive := fun b : Actor => b.state = a.state) _ _ rfl fun _ h _ _ => h

theorem Core.state_abandon (k : Core) (i : Nat) (which : V256 → Bool) (j : Nat) : ((k.abandon i which).actor j).state = (k.actor j).state :=
  List.foldlRecOn (motive := fun q : Core => (q.actor j).state = (k.actor j).state) _ _ rfl fun q h c _ => (q.state_giveBack c j).trans h

end

end Sys2Proof.Machine
end

section
/-! CERTIFICATES. A death in steps (R164). -/

namespace Sys2Proof.Machine

/-- The state once the name is exiting. -/
def State.nameExits (s : State) (core slot : Nat) : State :=
  let name := (s.actor core slot).name
  match s.dirEntry name with
  | some e => if e.state = 1 ∧ e.core = core ∧ e.slot = slot then (s.setDir { e with state := 2 }).cancelThresholds name else s
  | none => s

/-- The state before the counters and the tickets of the actor go. -/
def State.deathHalted (s : State) (core slot : Nat) : State :=
  let name := (s.actor core slot).name
  let s2 := ((s.nameExits core slot).endChildren core slot name).2
  ((({ s2 with scopes := s2.scopes.filter fun c => c.supv != name } : State).withdrawWaits core slot).dropUnsent core slot).stopCopies core slot

/-- The tickets, queued tile commands, counters and ends of yield of a dying actor go. -/
def Core.endOwn (k : Core) (slot : Nat) (domain : BitVec 16) (d : Death) : Core :=
  let k1 := (k.cancelTickets slot).abandon slot fun _ => true
  ({ k1 with holds := k1.holds.filter (decide <| · ≠ .yielded slot),
             refills := k1.refills.filter fun r => !(r.failed && r.domain == domain) } : Core).onActor slot fun a =>
    { a with dying := some d, cl := 0, cs := 0, cp := 0, mt := 0, crResv := 0 }

theorem Core.actor_endOwn {k : Core} {slot : Nat} (domain : BitVec 16) {d : Death} (h : (k.actor slot).state = .dying) :
    let n := (k.endOwn slot domain d).actor slot
    n.state = .dying ∧ n.cl = 0 ∧ n.cs = 0 ∧ n.cp = 0 ∧ n.mt = 0 ∧ n.crResv = 0 ∧ n.dying = some d := by
  have hstate := (Core.state_abandon (k.cancelTickets slot) slot (fun _ => true) slot).trans h
  simp only [Core.endOwn, Core.actor_onActor_same, and_true]
  exact hstate

theorem Core.accs_endOwn {k : Core} {slot : Nat} {domain : BitVec 16} {d : Death} {x : Access} (hx : x ∈ (k.endOwn slot domain d).accs)
    (h : x.slot = slot) : x.orphan = true :=
  Core.accs_cancelTickets ((Core.accs_abandon (k.cancelTickets slot) slot fun _ => true) ▸ hx :) h

theorem Core.fifo_endOwn (k : Core) (slot : Nat) (domain : BitVec 16) (d : Death) : (k.endOwn slot domain d).fifo = k.fifo :=
  Core.fifo_abandon (k.cancelTickets slot) slot fun _ => true

theorem Core.mq_endOwn {k : Core} {slot : Nat} {domain : BitVec 16} {d : Death} {x : TileCmd} (hx : x ∈ (k.endOwn slot domain d).mq) :
    x.slot ≠ slot :=
  Core.mq_abandon_all (k := k.cancelTickets slot) hx

theorem execDeath_eq {s : State} {core slot : Nat} {d : Death} (hd : (s.actor core slot).dying = some d) (hb : d.begun = false) :
    ∃ names, execDeath core slot s =
      .next ((s.deathHalted core slot).onCore core (·.endOwn slot (s.actor core slot).domain { d with begun := true, ended := names })) := by
  refine ⟨((s.nameExits core slot).endChildren core slot (s.actor core slot).name).1, ?_⟩
  simp only [execDeath, evDeath, hd, hb, Bool.false_eq_true, if_false]
  rfl

theorem State.nameExits_cases (s : State) (core slot : Nat) :
    (∃ e, s.nameExits core slot = (s.setDir e).cancelThresholds (s.actor core slot).name) ∨ s.nameExits core slot = s := by
  simp only [State.nameExits]
  split
  · split
    · exact .inl ⟨_, rfl⟩
    · exact .inr rfl
  · exact .inr rfl

theorem State.stillDying_deathHalted (s : State) (core slot : Nat) :
    State.StillDying core slot (s.nameExits core slot) (s.deathHalted core slot) := by
  refine State.StillDying.trans ?_ (State.stillDying_stopCopies _ core slot)
  refine State.StillDying.trans ?_ (State.stillDying_dropUnsent _ core slot)
  refine State.StillDying.trans ?_ (State.stillDying_withdrawWaits _ core slot)
  exact (State.stillDying_endChildren _ core slot _).trans (.of_eq rfl rfl rfl)

/-- The actor is still dying, and the global memory is unchanged. -/
theorem State.dying_deathHalted {s : State} {core slot : Nat} (h : (s.actor core slot).state = .dying) :
    ((s.deathHalted core slot).actor core slot).state = .dying ∧ (s.deathHalted core slot).gmem = s.gmem := by
  obtain ⟨-, hg, hst⟩ := s.stillDying_deathHalted core slot
  rcases s.nameExits_cases core slot with ⟨e, he⟩ | he <;> rw [he] at hg hst
  · exact ⟨hst h, hg⟩
  · exact ⟨hst h, hg⟩

/-- A live name of the actor is exiting. -/
theorem State.dirEntry_deathHalted {s : State} {core slot : Nat} {e : DirEntry} (he : s.dirEntry (s.actor core slot).name = some e)
    (hn : e.name = (s.actor core slot).name) (h1 : e.state = 1) (hc : e.core = core) (hs : e.slot = slot) :
    (s.deathHalted core slot).dirEntry (s.actor core slot).name = some { e with state := 2 } := by
  obtain ⟨hdir, -, -⟩ := s.stillDying_deathHalted core slot
  rw [State.dirEntry, hdir, ← State.dirEntry]
  simp only [State.nameExits, he]
  rw [if_pos ⟨h1, hc, hs⟩]
  exact State.dirEntry_setDir_of_eq (e := { e with state := 2 }) s hn

/-- The first steps of a death. -/
theorem deathBegins {core slot : Nat} {d : Death} {s : State} (hst : (s.actor core slot).state = .dying)
    (hd : (s.actor core slot).dying = some d) (hb : d.begun = false) : ∃ t, exec (.death core slot) s = .next t ∧
      (let n := t.actor core slot
       n.state = .dying ∧ n.cl = 0 ∧ n.cs = 0 ∧ n.cp = 0 ∧ n.mt = 0 ∧ n.crResv = 0 ∧ ∃ x, n.dying = some { d with begun := true, ended := x }) ∧
      (∀ x ∈ (t.core core).accs, x.slot = slot → x.orphan = true) ∧ (∀ x ∈ (t.core core).fifo, x.slot ≠ slot) ∧
      (∀ x ∈ (t.core core).mq, x.slot ≠ slot) ∧ t.gmem = s.gmem ∧
      (∀ e, s.dirEntry (s.actor core slot).name = some e → e.name = (s.actor core slot).name → e.state = 1 → e.core = core → e.slot = slot →
        t.dirEntry (s.actor core slot).name = some { e with state := 2 }) := by
  obtain ⟨names, heq⟩ := execDeath_eq hd hb
  obtain ⟨hdying, hg⟩ := State.dying_deathHalted hst
  have hfifo : ∀ x ∈ ((s.deathHalted core slot).core core).fifo, x.slot ≠ slot := State.fifo_stopCopies _ core slot
  have hdir := fun e => State.dirEntry_deathHalted (s := s) (core := core) (slot := slot) (e := e)
  generalize s.deathHalted core slot = u at *
  refine ⟨_, heq, ?_, ?_, ?_, ?_, hg, hdir⟩
  · obtain ⟨h1, h2, h3, h4, h5, h6, h7⟩ := Core.actor_endOwn (s.actor core slot).domain (d := { d with begun := true, ended := names }) hdying
    rw [State.actor_onCore_same]
    exact ⟨h1, h2, h3, h4, h5, h6, names, h7⟩
  · rw [State.core_onCore_same]
    exact fun x hx hs => Core.accs_endOwn hx hs
  · rw [State.core_onCore_same, Core.fifo_endOwn]
    exact hfifo
  · rw [State.core_onCore_same]
    exact fun x hx => Core.mq_endOwn hx

/-- Settles O50, by what each part of the two events keeps of the slot, the network and the directory. -/
theorem deaths : Obligations.Deaths := by
  intro core slot d s k a hst hd
  refine ⟨fun hb => deathBegins hst hd hb, fun hb hq => ⟨_, execDeathReclaim_eq hd hb hq, ?_⟩⟩
  obtain ⟨hslot, hregs, hmem, hsups, hlinks⟩ := reclaimed_core s core slot d
  obtain ⟨hpeers, hwatchers, hsupv⟩ := reclaimed_tells (s := s) (core := core) (slot := slot) d
  exact ⟨hslot, hregs, hmem, hsups, hlinks, hpeers, hwatchers, hsupv, fun e he hn h2 hc hs =>
    ⟨State.dirEntry_slotGone_free he h2 hc hs, State.dirEntry_slotGone_pending he hn h2 hc hs⟩⟩

end Sys2Proof.Machine
end

section
/-! SUPPORT. Creation of an actor in a slot (R151, R163): what the installed core holds, and the state after a start. -/

namespace Sys2Proof.Machine

/-! ## What an image sets of an actor -/

/-- An actor without what placing its messages changes: the error record and its readiness. -/
def Actor.decl (a : Actor) : Actor := { a with heldErr := 0, runnable := false, ready := 0, agedAt := 0, eprio := 0 }

/-- A change of a core that keeps its spawn list and what is declared of each actor. -/
def Core.Dressed (k q : Core) : Prop := q.spawns = k.spawns ∧ ∀ j, (q.actor j).decl = (k.actor j).decl

theorem Core.Dressed.refl (k : Core) : k.Dressed k := ⟨rfl, fun _ => rfl⟩

theorem Core.Dressed.trans {k q r : Core} (h1 : k.Dressed q) (h2 : q.Dressed r) : k.Dressed r :=
  ⟨h2.1.trans h1.1, fun j => (h2.2 j).trans (h1.2 j)⟩

/-- A change of a core that keeps its spawn list and slots. -/
theorem Core.Dressed.of_slots {k q : Core} (hp : q.spawns = k.spawns) (hs : q.slots = k.slots) : k.Dressed q :=
  ⟨hp, fun j => by rw [Core.actor, hs, Core.actor]⟩

theorem Core.dressed_foldl {α : Type} {f : Core → α → Core} (hf : ∀ (k : Core) a, k.Dressed (f k a)) (l : List α) (k : Core) : k.Dressed (l.foldl f k) :=
  List.foldlRecOn (motive := k.Dressed) l f (.refl k) fun q hq a _ => hq.trans (hf q a)

theorem Core.dressed_onActor (k : Core) (i : Nat) {f : Actor → Actor} (hf : ∀ a, (f a).decl = a.decl) : k.Dressed (k.onActor i f) := by
  refine ⟨rfl, fun j => ?_⟩
  rcases eq_or_ne j i with rfl | h
  · rw [Core.actor_onActor_same, hf]
  · rw [Core.actor_onActor_ne _ _ h]

theorem Core.dressed_recordErr (k : Core) (slot srcmem : Nat) (addr : W64) : k.Dressed (k.recordErr slot srcmem addr) := by
  simp only [Core.recordErr]
  split
  · exact .of_slots rfl rfl
  · exact .of_slots rfl rfl
  · exact .refl k
  · exact .refl k
  · exact k.dressed_onActor slot fun _ => rfl
  · exact k.dressed_onActor slot fun _ => rfl
  · exact k.dressed_onActor slot fun _ => rfl

theorem Core.dressed_noteBad (k : Core) (slot a n : Nat) : k.Dressed (k.noteBad slot a n) := by
  unfold Core.noteBad
  split
  · exact k.dressed_recordErr ..
  · exact .refl k

theorem Core.dressed_wake (k : Core) (slot now : Nat) : k.Dressed (k.wake slot now) := by
  simp only [Core.wake]
  split
  · exact .refl k
  · refine k.dressed_onActor slot fun a => ?_
    split
    · rfl
    · split
      · rfl
      · rfl

theorem Core.dressed_writeWords (k : Core) (a : Nat) (bs : List Byte) : k.Dressed (k.writeWords a bs) := .of_slots rfl rfl

theorem Core.dressed_setChan (k : Core) (slot c : Nat) (d : Chan) : k.Dressed (k.setChan slot c d) := k.dressed_writeWords ..

theorem Core.dressed_placeEntry (k : Core) (slot c now : Nat) (hdr sender : W64) (m : Vector W64 8) : k.Dressed (k.placeEntry slot c now hdr sender m) :=
  (((k.dressed_noteBad ..).trans (Core.dressed_writeWords ..)).trans (Core.dressed_setChan ..)).trans (Core.dressed_wake ..)

theorem Core.dressed_fillRegion (k : Core) (i : Nat) (bs : List Byte) : k.Dressed (k.fillRegion i bs) := by
  simp only [Core.fillRegion, Core.writeIn]
  split
  · exact .of_slots rfl rfl
  · exact .of_slots rfl rfl

theorem State.dressed_loadInit (s : State) (k : Core) (img : Image) (r : RegDecl) (i : Nat) : k.Dressed (s.loadInit k img r i) := by
  unfold State.loadInit
  split
  · exact .refl k
  · exact k.dressed_fillRegion ..

theorem Core.dressed_initMailbox (k : Core) (slot : Nat) (depths : List Nat) : k.Dressed (k.initMailbox slot depths) :=
  Core.dressed_foldl (fun k _ => k.dressed_setChan ..) _ k

theorem Core.dressed_loadRules (k : Core) (img : Image) (slot own : Nat) : k.Dressed (k.loadRules img slot own) := by
  refine Core.dressed_foldl (fun k p => ?_) _ k
  exact .of_slots rfl rfl

/-! ## Allocation -/

/-- Allocation touches the region table only. -/
theorem Core.alloc_frame {k k1 : Core} {e : RegEntry} {i : Nat} (h : k.alloc e = some (i, k1)) : ∃ r, k1 = { k with regions := r } := by
  unfold Core.alloc at h
  split at h
  · obtain ⟨-, rfl⟩ := Prod.mk.inj (Option.some.inj h)
    exact ⟨_, rfl⟩
  · cases h

theorem Core.allocAll_frame {ns : List Need} {k k1 : Core} {l : List (Nat × Nat)} (h : k.allocAll ns = .ok (l, k1)) :
    ∃ r, k1 = { k with regions := r } := by
  induction ns generalizing k l with
  | nil =>
    cases h
    exact ⟨_, rfl⟩
  | cons n ns ih =>
    rw [Core.allocAll] at h
    split at h
    · cases h
    · rename_i i k2 ha
      obtain ⟨r, rfl⟩ := Core.alloc_frame ha
      split at h
      · cases h
      · rename_i l2 k3 hl
        cases h
        obtain ⟨r3, rfl⟩ := ih hl
        exact ⟨r3, rfl⟩

/-- Allocation does not look at the spawn list. -/
theorem Core.alloc_spawns (k : Core) (sp : List Spawn) (e : RegEntry) :
    ({ k with spawns := sp } : Core).alloc e = (k.alloc e).map fun p => (p.1, { p.2 with spawns := sp }) := by
  have he : ({ k with spawns := sp } : Core).freeEntry = k.freeEntry := rfl
  have hr : ∀ n, ({ k with spawns := sp } : Core).findRun n = k.findRun n := fun _ => rfl
  rw [Core.alloc, he, hr, Core.alloc]
  cases k.freeEntry <;> cases k.findRun e.size <;> rfl

theorem Core.allocAll_spawns {ns : List Need} {k k1 : Core} {l : List (Nat × Nat)} (h : k.allocAll ns = .ok (l, k1)) (sp : List Spawn) :
    ({ k with spawns := sp } : Core).allocAll ns = .ok (l, { k1 with spawns := sp }) := by
  induction ns generalizing k l with
  | nil =>
    cases h
    rfl
  | cons n ns ih =>
    rw [Core.allocAll] at h
    rw [Core.allocAll, Core.alloc_spawns]
    cases ha : k.alloc n.entry with
    | none => simp [ha] at h
    | some p =>
      simp only [ha] at h
      split at h
      · cases h
      · rename_i l2 k3 hl
        cases h
        simp only [Option.map_some, ih hl]

/-! ## Creation -/

/-- The actor that an image makes, before its mailbox is set up. -/
def Image.newActor (img : Image) (fl : Flock) (name : W64) (inc : BitVec 8) (l : List (Nat × Nat)) : Actor :=
  let a : Actor := { state := .loading, name := name, incarn := inc, domain := fl.domain, prio := fl.prio, eprio := fl.prio, wdog := fl.wdog }
  { a.withImage img l with
    mbox := indexOfNeed l 17, cring := indexOfNeed l 18, crDepth := img.crDepth
    rings := Vector.ofFn fun i => ((img.rings[i.val]?).map fun r => r.ring (indexOfNeed l (20 + i.val))).getD {} }

/-- Where everything has room, the actor is created, and the core's spawn list stays. -/
theorem State.install_some {s : State} {core slot : Nat} {img : Image} {l : List (Nat × Nat)} {k1 : Core}
    (ha : (s.core core).allocAll (img.needs slot) = .ok (l, k1)) (hr : img.rules.length ≤ (s.core core).freeSups.length)
    (name : W64) (inc : BitVec 8) (fl : Flock) (msg : Vector W64 8) (sender : W64) (sinc : BitVec 8) :
    ∃ q, s.install core slot img name inc fl msg sender sinc = some q ∧ q.spawns = (s.core core).spawns ∧
      (q.actor slot).decl = (img.newActor fl name inc l).decl := by
  obtain ⟨r, rfl⟩ := Core.allocAll_frame ha
  let k3 := img.regions.zipIdx.foldl (fun k r => s.loadInit k img r.1 (indexOfNeed l r.2))
    (s.loadCode { s.core core with regions := r } img (indexOfNeed l 16))
  have h3 : (s.core core).Dressed k3 := by
    refine Core.Dressed.trans (q := { s.core core with regions := r }) (.of_slots rfl rfl) ?_
    exact (Core.dressed_fillRegion ..).trans (Core.dressed_foldl (fun k p => s.dressed_loadInit k img _ _) _ _)
  let k4 : Core := { k3 with slots := k3.slots.put slot (img.newActor fl name inc l) }
  have h5 : k4.Dressed (((k4.initMailbox slot img.depths).loadRules img slot (flockOf name)).placeEntry slot 0 (s.now core)
      (header mInitial 0 sinc (s.now core)) sender msg) :=
    ((k4.dressed_initMailbox ..).trans (Core.dressed_loadRules ..)).trans (Core.dressed_placeEntry ..)
  refine ⟨_, ?_, h5.1.trans h3.1, (h5.2 slot).trans ?_⟩
  · simp only [State.install, ha, if_neg (Nat.not_lt.2 hr)]
    rfl
  · exact congrArg Actor.decl (SMap.get_put_same ..)

end Sys2Proof.Machine
end

section
/-! CERTIFICATES. The events by which actors come to be (R21, R26, R151, R155, R162, R163, R183, R184, R306). -/

namespace Sys2Proof.Machine

/-! ## A start -/

theorem State.goLive_cases (s : State) (name : W64) (inc : BitVec 8) (core slot : Nat) :
    (∃ e, s.goLive name inc core slot = s.setDir e) ∨ s.goLive name inc core slot = s := by
  unfold State.goLive
  split
  · exact .inl ⟨_, rfl⟩
  · exact .inr rfl

theorem State.goLive_frame (s : State) (name : W64) (inc : BitVec 8) (core slot : Nat) :
    (s.goLive name inc core slot).cores = s.cores ∧ (s.goLive name inc core slot).gmem = s.gmem ∧ (s.goLive name inc core slot).net = s.net ∧
      (s.goLive name inc core slot).scopes = s.scopes := by
  rcases s.goLive_cases name inc core slot with ⟨e, h⟩ | h <;> rw [h] <;> exact ⟨rfl, rfl, rfl, rfl⟩

theorem State.dirEntry_goLive {s : State} {name : W64} {d : DirEntry} (hd : s.dirEntry name = some d) (hn : d.name = name) (inc : BitVec 8)
    (core slot : Nat) : (s.goLive name inc core slot).dirEntry name = some { (d.at core slot) with inc := inc, state := 1, ended := [] } := by
  rw [State.goLive, hd]
  exact State.dirEntry_setDir_of_eq (e := { (d.at core slot) with inc := inc, state := 1, ended := [] }) s hn

/-- Children are revived only where there are some. -/
theorem State.reviveAll_nil (s : State) (core slot : Nat) (supv : W64) : s.reviveAll core slot supv [] = s := by
  simp [State.reviveAll]

/-- A start where everything has room. -/
theorem State.startActor_some {s : State} {core slot : Nat} {e : Spawn} {ga : W64} {f : Flock} {img : Image} {l : List (Nat × Nat)} {k1 : Core}
    (hf : s.flock (flockOf e.name) = some f) (hi : s.image ga.toNat (flockOf e.name) = some img) (hs : (s.core core).freeSlot = some slot)
    (ha : (s.core core).allocAll (img.needs slot) = .ok (l, k1)) (hr : img.rules.length ≤ (s.core core).freeSups.length) :
    ∃ q, s.startActor core e ga = (let s1 := (s.setCore core q).goLive e.name e.inc core slot
        some (if e.rst then ((s1.countRestart core).reviveAll core slot e.name e.revive) else s1)) ∧
      q.spawns = (s.core core).spawns ∧ (q.actor slot).decl = (img.newActor f e.name e.inc l).decl := by
  obtain ⟨q, hq, hp, hd⟩ := State.install_some ha hr e.name e.inc f e.msg e.sender e.sinc
  exact ⟨q, by simp only [State.startActor, hf, hi, hs, hq, Option.bind_some, Option.map_some], hp, hd⟩

/-! ## SPAWN_RELEASE -/

/-- A released spawn is filled, and its name is pending. -/
theorem execSpawnRelease_fills {s : State} {core n : Nat} {e : Spawn} {f : Flock} (he : (s.core core).spawns.find? (·.id == n) = some e)
    (hfill : e.filled = false) (hrel : (s.core core).spawnReleased e = true) (hf : s.flock (flockOf e.name) = some f)
    (hnone : s.dirEntry e.name = none) (hroom : f.maxlive = 0 ∨ s.flockLive (flockOf e.name) < f.maxlive) :
    execSpawnRelease core n s = .next ((s.onCore core fun k =>
      { k with spawns := (s.core core).spawns.filter (·.id != n) ++ [{ e with filled := true }] }).enterPending core e f.image) := by
  have hnot : ¬(f.maxlive ≠ 0 ∧ s.flockLive (flockOf e.name) ≥ f.maxlive) := by omega
  simp only [execSpawnRelease, evSpawnRelease, he, hfill, hrel, hf, hnone, Bool.not_true, Bool.or_self, Bool.false_eq_true, if_false,
    Option.isSome_none, if_neg hnot, Option.getD_some]

/-- What a refused spawn leaves. -/
def State.spawnRefused (s : State) (core n : Nat) (e : Spawn) (code : Nat) : State :=
  (s.onCore core fun k => { k with spawns := (s.core core).spawns.filter (·.id != n) }).delivery (corePkg core) (coreDie core) e.sender e.sinc
    rOverflow e.name (s.liveInc e.name) (deliveryDetail code 0 0)

theorem execSpawnRelease_refuses {s : State} {core n c : Nat} {e : Spawn} {f : Flock} (he : (s.core core).spawns.find? (·.id == n) = some e)
    (hfill : e.filled = false) (hrel : (s.core core).spawnReleased e = true) (hf : s.flock (flockOf e.name) = some f)
    (hc : c = 6 ∧ (s.dirEntry e.name).isSome = true ∨
      c = 7 ∧ s.dirEntry e.name = none ∧ f.maxlive ≠ 0 ∧ f.maxlive ≤ s.flockLive (flockOf e.name)) :
    execSpawnRelease core n s = .next (s.spawnRefused core n e c) := by
  rcases hc with ⟨rfl, hsome⟩ | ⟨rfl, hnone, hmax, hfull⟩
  · simp only [execSpawnRelease, evSpawnRelease, he, hfill, hrel, hf, hsome, Bool.not_true, Bool.or_self, Bool.false_eq_true, if_false, if_true,
      Option.getD_some]
    rfl
  · simp only [execSpawnRelease, evSpawnRelease, he, hfill, hrel, hf, hnone, Bool.not_true, Bool.or_self, Bool.false_eq_true, if_false,
      Option.isSome_none, if_pos (show f.maxlive ≠ 0 ∧ s.flockLive (flockOf e.name) ≥ f.maxlive from ⟨hmax, hfull⟩), Option.getD_some]
    rfl

/-! ## SPAWN_START -/

theorem execSpawnStart_starts {s : State} {core slot : Nat} {e : Spawn} {f : Flock} {img : Image} {l : List (Nat × Nat)} {k1 : Core}
    (he : (s.core core).spawns.find? (·.filled) = some e) (hrst : e.rst = false) (hlive : s.coreLive core = true)
    (hf : s.flock (flockOf e.name) = some f) (hi : s.image f.image.toNat (flockOf e.name) = some img) (hs : (s.core core).freeSlot = some slot)
    (ha : (s.core core).allocAll (img.needs slot) = .ok (l, k1)) (hr : img.rules.length ≤ (s.core core).freeSups.length) :
    ∃ q, execSpawnStart core s = .next (((s.onCore core fun k => { k with spawns := k.spawns.filter (·.id != e.id) }).setCore core q).goLive
        e.name e.inc core slot) ∧
      q.spawns = (s.core core).spawns.filter (·.id != e.id) ∧ (q.actor slot).decl = (img.newActor f e.name e.inc l).decl := by
  have hcore := State.core_onCore_same s core fun k => { k with spawns := k.spawns.filter (·.id != e.id) }
  have himg : s.spawnImage e = f.image := by simp [State.spawnImage, hrst, hf]
  obtain ⟨q, hq, hp, hd⟩ := State.startActor_some (s := s.onCore core fun k => { k with spawns := k.spawns.filter (·.id != e.id) })
    (core := core) (slot := slot) (e := e) (ga := f.image) (f := f) (img := img) (l := l) (k1 := { k1 with spawns := (s.core core).spawns.filter (·.id != e.id) })
    hf hi (by rw [hcore]; exact hs) (by rw [hcore]; exact Core.allocAll_spawns ha _) (by rw [hcore]; exact hr)
  refine ⟨q, ?_, by rw [hp, hcore], hd⟩
  simp only [execSpawnStart, evSpawnStart, he, hlive, Bool.not_true, Bool.false_eq_true, if_false, himg, hq, hrst, Option.getD_some]

/-! ## STEWARD_FEED -/

theorem State.journal_cases (s : State) (pkg fw kind : Nat) (ops : List Nat) :
    (∃ f, s.journal pkg fw kind ops = s.onPkg pkg f) ∨ s.journal pkg fw kind ops = s := by
  unfold State.journal
  split
  · exact .inl ⟨_, rfl⟩
  · exact .inr rfl

theorem State.journal_frame (s : State) (pkg fw kind : Nat) (ops : List Nat) :
    (s.journal pkg fw kind ops).cores = s.cores ∧ (s.journal pkg fw kind ops).dir = s.dir ∧ (s.journal pkg fw kind ops).net = s.net := by
  rcases s.journal_cases pkg fw kind ops with ⟨f, h⟩ | h <;> rw [h] <;> exact ⟨rfl, rfl, rfl⟩

/-- What a placement by the steward leaves of what it has done. -/
def State.fed (t : State) (n pkg core : Nat) (name : W64) : State := (t.take n).journal pkg 2 jFeed [name.toNat, core]

theorem State.fed_frame (t : State) (n pkg core : Nat) (name : W64) : (t.fed n pkg core name).packet n = none ∧
    (t.fed n pkg core name).cores = t.cores ∧ (t.fed n pkg core name).dir = t.dir := by
  obtain ⟨hc, hd, hn⟩ := (t.take n).journal_frame pkg 2 jFeed [name.toNat, core]
  refine ⟨?_, hc, hd⟩
  rw [State.packet, State.fed, hn]
  exact t.packet_take n

/-- The actor starts where there is room. -/
theorem execStewardFeed_starts {s t : State} {core n x : Nat} {p : Packet} {e : Spawn} (hp : s.packet n = some p) (hpay : p.pay = .feed e x)
    (hq : (s.pkg p.src).quiesced 2 = false) (hc : s.stewardPlace p.src e.name = some core) (hrst : e.rst = false)
    (hs : s.startActor core e (s.spawnImage e) = some t) : execStewardFeed n s = .next (t.fed n p.src core e.name) := by
  simp only [execStewardFeed, evStewardFeed, hp, hpay, hq, Bool.false_eq_true, if_false, hc, Option.bind_some, hrst, hs, Option.getD_some]
  rfl

/-- Whether an earlier placement by the steward waits for the same core. -/
def State.earlierFeed (s : State) (n pkg core : Nat) : Bool :=
  s.net.any fun q => decide (q.1 < n) && match q.2.pay with
    | .feed e' _ => q.2.src == pkg && s.stewardPlace pkg e'.name == some core
    | _ => false

theorem State.earlierFeed_false {s : State} {n pkg core : Nat}
    (h : ∀ q ∈ s.net, q.1 < n → ∀ e' y, q.2.pay = .feed e' y → q.2.src = pkg → s.stewardPlace pkg e'.name ≠ some core) :
    s.earlierFeed n pkg core = false := by
  refine List.any_eq_false.2 fun q hq => ?_
  cases hpay : q.2.pay <;> simp
  case feed e' y => exact fun hn hsrc => h q hq hn e' y hpay hsrc

/-- Elsewhere it waits at the tail of the core's spawn list. -/
theorem execStewardFeed_waits {s : State} {core n x : Nat} {p : Packet} {e : Spawn} (hp : s.packet n = some p) (hpay : p.pay = .feed e x)
    (hq : (s.pkg p.src).quiesced 2 = false) (hc : s.stewardPlace p.src e.name = some core)
    (hs : e.rst = true ∨ s.startActor core e (s.spawnImage e) = none) (hroom : (s.core core).spawns.length < 32)
    (hfirst : s.earlierFeed n p.src core = false) : execStewardFeed n s = .next ((s.onCore core (·.appendSpawn e)).fed n p.src core e.name) := by
  have hnone : (if e.rst = true then none else s.startActor core e (s.spawnImage e)) = none := by
    rcases hs with h | h
    · rw [if_pos h]
    · rw [h, ite_self]
  simp only [execStewardFeed, evStewardFeed, hp, hpay, hq, Bool.false_eq_true, if_false, hc, Option.bind_some, hnone]
  show Host.Outcome.next (Option.getD (if (s.earlierFeed n p.src core || decide (32 ≤ (s.core core).spawns.length)) = true then none else _) s) = _
  rw [if_neg (by simp [hfirst, hroom])]
  rfl

/-! ## ACTOR_LOAD_COMPLETE -/

theorem Core.actor_wake_ne (k : Core) {slot j : Nat} (now : Nat) (h : j ≠ slot) : (k.wake slot now).actor j = k.actor j := by
  simp only [Core.wake]
  split
  · rfl
  · exact k.actor_onActor_ne _ h

/-- After a look at a slot its readiness is what its channels give. -/
theorem Core.runnable_wake (k : Core) (slot now : Nat) : ((k.wake slot now).actor slot).runnable = k.anyRunnable slot := by
  simp only [Core.wake]
  split
  · rename_i h
    exact (beq_iff_eq.1 h).symm
  · rw [Core.actor_onActor_same]
    cases h : k.anyRunnable slot
    · rfl
    · simp only [Bool.not_true, Bool.false_eq_true, if_false]
      split <;> rfl

/-- Readiness does not look at the state of the slot. -/
theorem Core.anyRunnable_onActor (k : Core) (slot : Nat) (st : ActState) : (k.onActor slot fun a => { a with state := st }).anyRunnable slot =
    k.anyRunnable slot := by
  simp only [Core.anyRunnable, Core.actor_onActor_same]
  congr 1
  funext h
  simp only [Core.runnable, Core.waiting, Core.chan, Core.mailbox, Core.actor_onActor_same]
  rfl

/-- A core whose actor in a slot has been loaded. -/
def Core.loaded (k : Core) (slot now : Nat) : Core := (k.onActor slot fun a => { a with state := .idle }).wake slot now

theorem execActorLoadComplete_loading {s : State} {core slot : Nat} (h : (s.actor core slot).state = .loading) :
    execActorLoadComplete core slot s = .next (s.onCore core (·.loaded slot (s.now core))) := by
  simp only [execActorLoadComplete, evActorLoadComplete, if_pos h, Option.getD_some]
  rfl

theorem Core.loaded_spec (k : Core) (slot now : Nat) : ((k.loaded slot now).actor slot).state = .idle ∧
    ((k.loaded slot now).actor slot).runnable = k.anyRunnable slot ∧ ∀ j, j ≠ slot → (k.loaded slot now).actor j = k.actor j := by
  refine ⟨?_, (Core.runnable_wake _ slot now).trans (k.anyRunnable_onActor slot .idle), fun j hj => ?_⟩
  · have hd := congrArg Actor.state ((Core.dressed_wake (k.onActor slot fun a => { a with state := .idle }) slot now).2 slot)
    exact hd.trans (congrArg Actor.state (Core.actor_onActor_same ..))
  · rw [Core.loaded, Core.actor_wake_ne _ _ hj, Core.actor_onActor_ne _ _ hj]

theorem execActorLoadComplete_idles {s : State} {core slot : Nat} (h : (s.actor core slot).state = .loading) : ∃ t,
    execActorLoadComplete core slot s = .next t ∧ (t.actor core slot).state = .idle ∧
    ((t.actor core slot).runnable = true ↔ (s.core core).anyRunnable slot = true) ∧ ∀ j, j ≠ slot → t.actor core j = s.actor core j := by
  obtain ⟨hst, hrun, hoth⟩ := Core.loaded_spec (s.core core) slot (s.now core)
  refine ⟨_, execActorLoadComplete_loading h, ?_⟩
  simp only [State.actor_onCore_same]
  exact ⟨hst, by rw [hrun], hoth⟩

/-! ## BELLWETHER_RESTART -/

/-- Whether an earlier restart of the same die waits. -/
def State.earlierRestart (s : State) (n core : Nat) : Bool :=
  s.net.any fun q => decide (q.1 < n) && match q.2.pay with
    | .restart t => corePkg t.core == corePkg core && coreDie t.core == coreDie core
    | _ => false

theorem die_eq_of_parts {c d : Nat} (hp : corePkg c = corePkg d) (hd : coreDie c = coreDie d) : c / 16384 = d / 16384 := by
  simp only [corePkg, coreDie] at hp hd
  omega

theorem State.earlierRestart_false {s : State} {n core : Nat}
    (h : ∀ q ∈ s.net, q.1 < n → ∀ x, q.2.pay = .restart x → ¬(x.core / 16384 = core / 16384)) : s.earlierRestart n core = false := by
  refine List.any_eq_false.2 fun q hq => ?_
  cases hpay : q.2.pay <;> simp
  case restart x => exact fun hn hpk hd => h q hq hn x hpay (die_eq_of_parts hpk hd)

/-- The entry and the restart record that a restart finds, where the name waits for it. -/
def State.restartRecord (s : State) (r : Restart) : Option (DirEntry × RestartRec) :=
  (s.dirEntry r.name).bind fun d => if s.awaits r.name r.rrec then (s.rrecs.find r.rrec).map fun x => (d, x) else none

theorem State.restartRecord_some {s : State} {r : Restart} {d : DirEntry} {x : RestartRec} (hd : s.dirEntry r.name = some d) (h3 : d.state = 3)
    (hr : d.rrec = r.rrec) (hx : s.rrecs.find r.rrec = some x) : s.restartRecord r = some (d, x) := by
  simp [State.restartRecord, State.awaits, hd, h3, hr, hx]

theorem State.restartRecord_none {s : State} {r : Restart}
    (h : (∀ d, s.dirEntry r.name = some d → ¬(d.state = 3 ∧ d.rrec = r.rrec)) ∨ s.rrecs.find r.rrec = none) : s.restartRecord r = none := by
  cases hd : s.dirEntry r.name with
  | none => simp [State.restartRecord, hd]
  | some d =>
    rcases h with h | h
    · have := h d hd
      simp only [State.restartRecord, hd, Option.bind_some, State.awaits]
      rw [if_neg (by simpa using this)]
    · simp [State.restartRecord, hd, h]

/-- What a restart does that is first of its die, by what it finds. -/
theorem execBellwetherRestart_eq {s : State} {n : Nat} {p : Packet} {r : Restart} (hp : s.packet n = some p) (hpay : p.pay = .restart r)
    (hruns : (s.pkg p.src).runs = true) (hfirst : s.earlierRestart n r.core = false) : execBellwetherRestart n s = .next
      ((match s.restartRecord r with
        | none => some ((s.take n).refuseRestart r)
        | some (d, x) =>
          match s.image x.image.toNat (flockOf r.name) with
          | none => some ((s.take n).refuseRestart r)
          | some img =>
            if s.measure img ≠ x.digest then some ((s.take n).refuseRestart r)
            else (s.restartCore r img.mxdecl).bind fun core =>
              (((s.take n).setDir { (d.at core 0) with inc := r.inc + 1, state := 3 }).restartOn r x core).map
                fun (s1 : State) => s1.scopeMember r.supv r.name false).getD s) := by
  simp only [execBellwetherRestart, evBellwetherRestart, hp, hpay]
  show Host.Outcome.next (Option.getD (if (s.earlierRestart n r.core || !(s.pkg p.src).runs) = true then none else _) s) = _
  rw [if_neg (by simp [hfirst, hruns])]
  rfl

theorem execBellwetherRestart_refuses {s : State} {n : Nat} {p : Packet} {r : Restart} (hp : s.packet n = some p) (hpay : p.pay = .restart r)
    (hruns : (s.pkg p.src).runs = true) (hfirst : s.earlierRestart n r.core = false)
    (h : (∀ d, s.dirEntry r.name = some d → ¬(d.state = 3 ∧ d.rrec = r.rrec)) ∨ s.rrecs.find r.rrec = none ∨
        (∃ d x, s.dirEntry r.name = some d ∧ d.state = 3 ∧ d.rrec = r.rrec ∧ s.rrecs.find r.rrec = some x ∧
          ∀ img, s.image x.image.toNat (flockOf r.name) = some img → s.measure img ≠ x.digest)) :
    execBellwetherRestart n s = .next ((s.take n).refuseRestart r) := by
  rw [execBellwetherRestart_eq hp hpay hruns hfirst]
  rcases or_assoc.2 h with h | ⟨d, x, hd, h3, hr, hx, himg⟩
  · simp only [State.restartRecord_none h, Option.getD_some]
  · simp only [State.restartRecord_some hd h3 hr hx]
    cases hi : s.image x.image.toNat (flockOf r.name) with
    | none => rfl
    | some img => simp only [if_pos (himg img hi), Option.getD_some]

/-- Where no restart scope stands, none is completed. -/
theorem State.scopeMember_nil {s : State} (h : s.scopes = []) (supv name : W64) (refused : Bool) : s.scopeMember supv name refused = { s with scopes := [] } := by
  simp [State.scopeMember, h]

/-- The spawn that a restart starts. -/
def Restart.spawn (r : Restart) (x : RestartRec) (id : Nat) : Spawn :=
  { id := id, name := r.name, msg := x.msg, sender := x.sender, sinc := x.sinc, rst := true, supv := r.supv, inc := r.inc + 1, revive := r.revive }

theorem State.restartOn_some {s t : State} {r : Restart} {x : RestartRec} {core : Nat}
    (h : s.startActor core (r.spawn x (s.core core).next) x.image = some t) : s.restartOn r x core = some t := by
  rw [Restart.spawn] at h
  simp only [State.restartOn, h]

/-- The directory entry of a name that a restart brings back. -/
def DirEntry.restarted (d : DirEntry) (r : Restart) (core : Nat) : DirEntry := { (d.at core 0) with inc := r.inc + 1, state := 3 }

/-- A measured image comes back where its core has room. -/
theorem execBellwetherRestart_starts {s : State} {n core slot : Nat} {p : Packet} {r : Restart} {d : DirEntry} {x : RestartRec} {img : Image}
    {f : Flock} {l : List (Nat × Nat)} {k1 : Core} (hp : s.packet n = some p) (hpay : p.pay = .restart r) (hruns : (s.pkg p.src).runs = true)
    (hfirst : s.earlierRestart n r.core = false) (hcore : r.core = core) (hfound : s.restartRecord r = some (d, x))
    (hi : s.image x.image.toNat (flockOf r.name) = some img) (hm : s.measure img = x.digest) (hplace : s.placeable core img.mxdecl = true)
    (hf : s.flock (flockOf r.name) = some f) (hrev : r.revive = []) (hsc : s.scopes = []) (hs : (s.core core).freeSlot = some slot)
    (ha : (s.core core).allocAll (img.needs slot) = .ok (l, k1)) (hr : img.rules.length ≤ (s.core core).freeSups.length) :
    ∃ q, execBellwetherRestart n s = .next
        { ((((s.take n).setDir (d.restarted r core)).setCore core q).goLive r.name (r.inc + 1) core slot).countRestart core with scopes := [] } ∧
      (q.actor slot).decl = (img.newActor f r.name (r.inc + 1) l).decl := by
  obtain ⟨q, hq, -, hd⟩ := State.startActor_some (s := (s.take n).setDir (d.restarted r core)) (core := core) (slot := slot)
    (e := r.spawn x (s.core core).next) (ga := x.image) (f := f) (img := img) hf hi hs ha hr
  refine ⟨q, ?_, hd⟩
  have hstart : ((s.take n).setDir (d.restarted r core)).restartOn r x core =
      some (((((s.take n).setDir (d.restarted r core)).setCore core q).goLive r.name (r.inc + 1) core slot).countRestart core) := by
    refine State.restartOn_some (hq.trans ?_)
    simp only [Restart.spawn, if_true, hrev, State.reviveAll_nil]
  have hscopes : (((((s.take n).setDir (d.restarted r core)).setCore core q).goLive r.name (r.inc + 1) core slot).countRestart core).scopes = [] :=
    (State.goLive_frame _ r.name (r.inc + 1) core slot).2.2.2.trans hsc
  have hwhere : s.restartCore r img.mxdecl = some core := by rw [State.restartCore, hcore, if_pos hplace]
  rw [execBellwetherRestart_eq hp hpay hruns hfirst]
  simp only [hfound, hi, hm, ne_eq, not_true_eq_false, if_false, hwhere, Option.bind_some]
  rw [← DirEntry.restarted, hstart, Option.map_some, Option.getD_some, State.scopeMember_nil hscopes]

/-! ## What the events show -/

theorem spawnFilled_spec {s : State} {core n : Nat} {e : Spawn} {f : Flock} :
    let t := (s.onCore core fun k =>
      { k with spawns := (s.core core).spawns.filter (·.id != n) ++ [{ e with filled := true }] }).enterPending core e f.image
    (t.core core).spawns = (s.core core).spawns.filter (·.id != n) ++ [{ e with filled := true }] ∧
      (∃ d, t.dirEntry e.name = some d ∧ d.state = 3 ∧ d.name = e.name ∧ d.supv = e.supv ∧ d.rrec = s.serial) ∧
      (∃ r, t.rrecs.find s.serial = some r ∧ r.image = f.image ∧ r.msg = e.msg ∧ r.sender = e.sender ∧ r.sinc = e.sinc) := by
  refine ⟨?_, ⟨_, State.dirEntry_setDir_of_eq _ rfl, rfl, rfl, rfl, rfl⟩, _, SMap.find_put_same .., rfl, rfl, rfl, rfl⟩
  exact congrArg Core.spawns (State.core_onCore_same s core fun k =>
    { k with spawns := (s.core core).spawns.filter (·.id != n) ++ [{ e with filled := true }] })

theorem spawnRefused_spec (s : State) (core n : Nat) (e : Spawn) (c : Nat) : ∃ p g,
    ((s.spawnRefused core n e c).core core).spawns = (s.core core).spawns.filter (·.id != n) ∧
    (s.spawnRefused core n e c).packet s.serial = some p ∧ p.pay = .signal g ∧ g.dst = e.sender ∧ g.kind = 4 ∧ g.reason = 0x32 ∧
    g.subject = e.name ∧ g.detail = deliveryDetail c 0 0 := by
  refine ⟨_, _, ?_, State.packet_post .., rfl, rfl, rfl, rfl, rfl, rfl⟩
  exact congrArg Core.spawns (State.core_onCore_same s core fun k => { k with spawns := (s.core core).spawns.filter (·.id != n) })

/-- The core of a start is the installed one. -/
theorem State.core_goLive_setCore (s : State) (core : Nat) (q : Core) (name : W64) (inc : BitVec 8) (slot : Nat) :
    ((s.setCore core q).goLive name inc core slot).core core = q := by
  rw [State.core, (State.goLive_frame ..).1, ← State.core, State.core_setCore_same]

theorem spawnStarts {s : State} {core slot : Nat} {e : Spawn} {f : Flock} {img : Image} {l : List (Nat × Nat)} {k1 : Core}
    (he : (s.core core).spawns.find? (·.filled) = some e) (hrst : e.rst = false) (hlive : s.coreLive core = true)
    (hf : s.flock (flockOf e.name) = some f) (hi : s.image f.image.toNat (flockOf e.name) = some img) (hs : (s.core core).freeSlot = some slot)
    (ha : (s.core core).allocAll (img.needs slot) = .ok (l, k1)) (hr : img.rules.length ≤ (s.core core).freeSups.length) :
    ∃ t, exec (.spawnStart core) s = .next t ∧ (t.core core).spawns = (s.core core).spawns.filter (·.id != e.id) ∧
      (let a := t.actor core slot
       a.state = .loading ∧ a.name = e.name ∧ a.incarn = e.inc ∧ a.domain = f.domain ∧ a.prio = f.prio ∧ a.wdog = f.wdog ∧
        a.handlers = img.handlers ∧ a.trapEntry = img.trapEntry ∧ a.cl = 0 ∧ a.cs = 0 ∧ a.cp = 0 ∧ a.mt = 0 ∧ a.timer = 0 ∧ a.hmask = 0) ∧
      (∀ d, s.dirEntry e.name = some d → d.name = e.name → ∃ d', t.dirEntry e.name = some d' ∧ d'.state = 1 ∧ d'.inc = e.inc ∧ d'.slot = slot ∧
        d'.pkg = core / 65536) ∧ t.gmem = s.gmem := by
  obtain ⟨q, hexec, hsp, hdecl⟩ := execSpawnStart_starts he hrst hlive hf hi hs ha hr
  refine ⟨_, hexec, ?_, ?_, fun d hd hn => ?_, (State.goLive_frame ..).2.1⟩
  · rw [State.core_goLive_setCore, hsp]
  · simp only [State.actor, State.core_goLive_setCore]
    exact ⟨congrArg Actor.state hdecl, congrArg Actor.name hdecl, congrArg Actor.incarn hdecl, congrArg Actor.domain hdecl,
      congrArg Actor.prio hdecl, congrArg Actor.wdog hdecl, congrArg Actor.handlers hdecl, congrArg Actor.trapEntry hdecl,
      congrArg Actor.cl hdecl, congrArg Actor.cs hdecl, congrArg Actor.cp hdecl, congrArg Actor.mt hdecl, congrArg Actor.timer hdecl,
      congrArg Actor.hmask hdecl⟩
  · exact ⟨_, State.dirEntry_goLive (s := (s.onCore core fun k => { k with spawns := k.spawns.filter (·.id != e.id) }).setCore core q) hd hn _ _ _,
      rfl, rfl, rfl, rfl⟩

theorem bellwetherStarts {s : State} {n core slot : Nat} {p : Packet} {r : Restart} {d : DirEntry} {x : RestartRec} {img : Image}
    {f : Flock} {l : List (Nat × Nat)} {k1 : Core} (hp : s.packet n = some p) (hpay : p.pay = .restart r) (hruns : (s.pkg p.src).runs = true)
    (hfirst : s.earlierRestart n r.core = false) (hcore : r.core = core) (hn : d.name = r.name)
    (hfound : s.restartRecord r = some (d, x)) (hi : s.image x.image.toNat (flockOf r.name) = some img) (hm : s.measure img = x.digest)
    (hplace : s.placeable core img.mxdecl = true) (hf : s.flock (flockOf r.name) = some f) (hrev : r.revive = []) (hsc : s.scopes = [])
    (hs : (s.core core).freeSlot = some slot) (ha : (s.core core).allocAll (img.needs slot) = .ok (l, k1))
    (hr : img.rules.length ≤ (s.core core).freeSups.length) :
    ∃ t, exec (.bellwetherRestart n) s = .next t ∧ t.packet n = none ∧ (t.actor core slot).state = .loading ∧
      (t.actor core slot).name = r.name ∧ (t.actor core slot).incarn = r.inc + 1 ∧
      ∃ d', t.dirEntry r.name = some d' ∧ d'.state = 1 ∧ d'.inc = r.inc + 1 ∧ d'.slot = slot := by
  obtain ⟨q, hexec, hdecl⟩ := execBellwetherRestart_starts hp hpay hruns hfirst hcore hfound hi hm hplace hf hrev hsc hs ha hr
  let u := ((s.take n).setDir (d.restarted r core)).setCore core q
  have hact : (u.goLive r.name (r.inc + 1) core slot).actor core slot = q.actor slot := congrArg (·.actor slot) (State.core_goLive_setCore ..)
  have hnet : (u.goLive r.name (r.inc + 1) core slot).packet n = none := by
    rw [State.packet, (State.goLive_frame ..).2.2.1]
    exact s.packet_take n
  have hdir := State.dirEntry_goLive (s := u) (State.dirEntry_setDir_of_eq (e := d.restarted r core) (s.take n) hn) hn (r.inc + 1) core slot
  refine ⟨_, hexec, hnet, ?_, ?_, ?_, _, hdir, rfl, rfl, rfl⟩
  · exact (congrArg Actor.state hact).trans (congrArg Actor.state hdecl)
  · exact (congrArg Actor.name hact).trans (congrArg Actor.name hdecl)
  · exact (congrArg Actor.incarn hact).trans (congrArg Actor.incarn hdecl)

/-- Settles O45, by what a start leaves of the core and of the directory. -/
theorem spawnEvents : Obligations.SpawnEvents := by
  intro core slot n s k
  refine ⟨fun e f he hfill hrel hf => ⟨fun hnone hroom => ?_, fun c hc => ?_⟩,
    fun e f img l k1 he hrst hlive hf hi hs ha hr => spawnStarts he hrst hlive hf hi hs ha hr,
    fun p e x hp hpay hq hc => ⟨fun t1 hrst hstart => ?_, fun hstart hroom hfirst => ?_⟩, execActorLoadComplete_idles,
    fun p r hp hpay hruns hfirst h => execBellwetherRestart_refuses hp hpay hruns (State.earlierRestart_false hfirst) h,
    fun p r d x img l k1 hp hpay hruns hfirst hcore hd hn h3 hrr hx hi hm hlive hmx hf hrev hsc hs ha hr => ?_⟩
  · exact ⟨_, execSpawnRelease_fills he hfill hrel hf hnone hroom, spawnFilled_spec⟩
  · obtain ⟨p, g, hsp, hp, hpay, hdst, hk, hre, hsub, hdet⟩ := spawnRefused_spec s core n e c
    refine ⟨_, p, g, execSpawnRelease_refuses he hfill hrel hf hc, hsp, hp, hpay, hdst, hk, hre, hsub, ?_⟩
    rcases hc with ⟨rfl, -⟩ | ⟨rfl, -⟩ <;> exact congrArg BitVec.toNat hdet
  · obtain ⟨hn, hcores, hdir⟩ := t1.fed_frame n p.src core e.name
    exact ⟨_, execStewardFeed_starts hp hpay hq hc hrst hstart, hn, hcores, hdir⟩
  · obtain ⟨hn, hcores, -⟩ := (s.onCore core (·.appendSpawn e)).fed_frame n p.src core e.name
    refine ⟨_, execStewardFeed_waits hp hpay hq hc hstart hroom (State.earlierFeed_false hfirst), hn, ?_, fun c hne => ?_⟩
    · rw [State.core, hcores, ← State.core, State.core_onCore_same]
      rfl
    · rw [State.core, hcores, ← State.core, State.core_onCore_ne _ _ hne]
  · obtain ⟨f, hf⟩ := hf
    have hplace : s.placeable core img.mxdecl = true := by
      rcases hmx with h | h
      · simp [State.placeable, hlive, show (s.core core).mxLost = false from h]
      · simp [State.placeable, hlive, h]
    exact bellwetherStarts hp hpay hruns (State.earlierRestart_false hfirst) hcore hn (State.restartRecord_some hd h3 hrr hx) hi hm hplace hf
      hrev hsc hs ha hr

end Sys2Proof.Machine
end

section
/-! SUPPORT. The start of a firing (R37): the thread set and the slot that it leaves. -/

namespace Sys2Proof.Machine

/-! ## Registers -/

theorem Thread.readX_writeX_ne (t : Thread) {r q : Reg} (v : W64) (h : q ≠ r) : (t.writeX r v).readX q = t.readX q := by
  by_cases hr : r = 0
  · rw [Thread.writeX, if_pos hr]
  · have hn : r.toNat ≠ q.toNat := fun he => h (BitVec.eq_of_toNat_eq he).symm
    rw [Thread.writeX, if_neg hr]
    simp only [Thread.readX, Vector.getElem_set, if_neg hn]

/-- A write of a register takes no presence away. -/
theorem Thread.hereX_writeX (t : Thread) (r : Reg) (v : W64) {q : Reg} (h : t.hereX q = true) : (t.writeX r v).hereX q = true := by
  by_cases hr : r = 0
  · rw [Thread.writeX, if_pos hr, h]
  · rw [Thread.writeX, if_neg hr]
    rw [Thread.hereX, Bool.or_eq_true] at h ⊢
    rcases h with h | h
    · exact .inl h
    · exact .inr (by rw [BitVec.getLsbD_or, h, Bool.true_or])

/-- A register file of zeros. -/
theorem Thread.readX_zeros {t : Thread} (h : t.x = Vector.replicate 32 0) (r : Reg) : t.readX r = 0 := by
  simp [Thread.readX, h]

theorem Thread.readV_zeros {t : Thread} (h : t.v = Vector.replicate 32 0) (r : Reg) : t.readV r = 0 := by
  simp [Thread.readV, h]

theorem Thread.hereX_all {t : Thread} (h : t.xp = -1) (r : Reg) : t.hereX r = true := by
  have hr : r.toNat < 32 := r.isLt
  rw [Thread.hereX, h, show (-1 : BitVec 32) = BitVec.allOnes 32 from rfl, BitVec.getLsbD_allOnes, decide_eq_true hr, Bool.or_true]

theorem Thread.hereV_all {t : Thread} (h : t.vp = -1) (r : Reg) : t.hereV r = true := by
  have hr : r.toNat < 32 := r.isLt
  rw [Thread.hereV, h, show (-1 : BitVec 32) = BitVec.allOnes 32 from rfl, BitVec.getLsbD_allOnes, decide_eq_true hr]

/-! ## The thread set that a firing finds -/

/-- The thread set of a firing before x10 to x12 are set. -/
def Core.bareThread (k : Core) (p : Pick) (h : Handler) (fid : Nat) : Thread :=
  let a := k.actor p.slot
  let t : Thread :=
    { busy := true, slot := p.slot, fid := fid, handler := p.handler, pc := BitVec.ofNat 64 (k.regionBase a.code + h.entry)
      status := a.startStatus, eperr := a.heldErr, sendleft := BitVec.ofNat 7 h.prod, wdogleft := wdogStart a.wdog
      deferred := a.heldFault }
  match a.inherit with
  | some n => { t with x := n.x, v := n.v, xp := n.xp, vp := n.vp }
  | none => t

theorem Core.startThread_eq {k : Core} {p : Pick} {h : Handler} (hh : (k.actor p.slot).handlers[p.handler]? = some h) (fid : Nat) :
    k.startThread p fid = (((k.bareThread p h fid).writeX 10 (h.req.zeroExtend 64)).writeX 11 (BitVec.ofNat 64 p.handler)).writeX 12
      (k.actor p.slot).name := by
  simp only [Core.startThread, hh, Option.getD_some]
  rfl

/-- Everything but the register files is the same with or without inherited registers. -/
theorem Core.bareThread_fields (k : Core) (p : Pick) (h : Handler) (fid : Nat) :
    let t := k.bareThread p h fid
    let a := k.actor p.slot
    t.busy = true ∧ t.slot = p.slot ∧ t.handler = p.handler ∧ t.pc = BitVec.ofNat 64 (k.regionBase a.code + h.entry) ∧
      t.status = a.startStatus ∧ t.eperr = a.heldErr ∧ t.sendleft = BitVec.ofNat 7 h.prod ∧ t.wdogleft = wdogStart a.wdog ∧
      t.deferred = a.heldFault ∧ t.vlen = 32 := by
  simp only [Core.bareThread]
  split <;> exact ⟨rfl, rfl, rfl, rfl, rfl, rfl, rfl, rfl, rfl, rfl⟩

/-- Where nothing is inherited, every register is zero and present. -/
theorem Core.bareThread_files {k : Core} {p : Pick} (hn : (k.actor p.slot).inherit = none) (h : Handler) (fid : Nat) :
    let t := k.bareThread p h fid
    t.x = Vector.replicate 32 0 ∧ t.v = Vector.replicate 32 0 ∧ t.xp = -1 ∧ t.vp = -1 := by
  simp [Core.bareThread, hn]

/-- STATUS at the start of a firing, bit by bit. -/
theorem Actor.startStatus_bits (a : Actor) : a.startStatus.getLsbD 0 = false ∧ a.startStatus.getLsbD 1 = a.priv ∧
    a.startStatus.getLsbD 2 = a.mxdecl ∧ a.startStatus.getLsbD 3 = a.succ := by
  unfold Actor.startStatus
  cases a.priv <;> cases a.mxdecl <;> cases a.succ <;> decide

/-- The state of a thread set at the start of a firing of a handler. -/
def Core.Starts (k : Core) (p : Pick) (h : Handler) (v : Thread) : Prop :=
  let n := k.actor p.slot
  v.busy = true ∧ v.slot = p.slot ∧ v.handler = p.handler ∧ v.pc = BitVec.ofNat 64 ((k.regions.get {} n.code).base * 1024 + h.entry) ∧
    v.inTrap = false ∧ v.isPriv = n.priv ∧ v.status.getLsbD 2 = n.mxdecl ∧ v.status.getLsbD 3 = n.succ ∧ v.vlen = 32 ∧
    v.sendleft = BitVec.ofNat 7 h.prod ∧ v.eperr = n.heldErr ∧ v.deferred = n.heldFault ∧
    v.wdogleft = BitVec.ofNat 32 (if n.wdog = 0 then 2 ^ 26 else n.wdog * 2 ^ 16) ∧
    v.readX 10 = h.req.zeroExtend 64 ∧ v.readX 11 = BitVec.ofNat 64 p.handler ∧ v.readX 12 = n.name ∧
    (n.inherit = none → (∀ r : Reg, r ≠ 10 → r ≠ 11 → r ≠ 12 → v.readX r = 0) ∧ ∀ r : Reg, v.readV r = 0 ∧ v.hereX r = true ∧ v.hereV r = true)

theorem Core.starts_startThread {k : Core} {p : Pick} {h : Handler} (hh : (k.actor p.slot).handlers[p.handler]? = some h) (fid : Nat) :
    k.Starts p h (k.startThread p fid) := by
  obtain ⟨hbusy, hslot, hhan, hpc, hst, herr, hsend, hwd, hdef, hvlen⟩ := k.bareThread_fields p h fid
  obtain ⟨b0, b1, b2, b3⟩ := (k.actor p.slot).startStatus_bits
  rw [Core.startThread_eq hh]
  simp only [Core.Starts, Thread.inTrap, Thread.isPriv, Thread.writeX_busy, Thread.writeX_slot, Thread.writeX_handler, Thread.writeX_pc,
    Thread.writeX_status, Thread.writeX_vlen, Thread.writeX_sendleft, Thread.writeX_eperr, Thread.writeX_deferred, Thread.writeX_wdogleft]
  refine ⟨hbusy, hslot, hhan, hpc, by rw [hst, b0], by rw [hst, b1], by rw [hst, b2], by rw [hst, b3], hvlen, hsend, herr, hdef, hwd, ?_, ?_, ?_, ?_⟩
  · rw [Thread.readX_writeX_ne _ _ (by decide), Thread.readX_writeX_ne _ _ (by decide), Thread.readX_writeX_same _ _ (by decide)]
  · rw [Thread.readX_writeX_ne _ _ (by decide), Thread.readX_writeX_same _ _ (by decide)]
  · rw [Thread.readX_writeX_same _ _ (by decide)]
  · intro hn
    obtain ⟨hx, hv, hxp, hvp⟩ := Core.bareThread_files hn h fid
    refine ⟨fun r h10 h11 h12 => ?_, fun r => ⟨?_, ?_, ?_⟩⟩
    · rw [Thread.readX_writeX_ne _ _ h12, Thread.readX_writeX_ne _ _ h11, Thread.readX_writeX_ne _ _ h10, Thread.readX_zeros hx]
    · exact Thread.readV_zeros (by simp only [Thread.writeX_v, hv]) r
    · exact Thread.hereX_writeX _ _ _ (Thread.hereX_writeX _ _ _ (Thread.hereX_writeX _ _ _ (Thread.hereX_all hxp r)))
    · exact Thread.hereV_all (by simp only [Thread.writeX_vp, hvp]) r

/-! ## The core of a firing that starts -/

theorem Core.thread_stopCovered (k : Core) (i : Fin 4) : k.stopCovered.thread i =
    if (k.thread i).busy then { k.thread i with stopping := k.held (k.thread i).slot } else k.thread i := by
  simp only [Core.thread, Core.stopCovered, Fin.getElem_fin, Vector.getElem_map]
  rfl

theorem Core.threads_freshlyFree (k before : Core) (now : Nat) : (k.freshlyFree before now).threads = k.threads := by
  refine List.foldlRecOn (motive := fun q : Core => q.threads = k.threads) _ _ rfl fun q h p _ => ?_
  split
  · exact h
  · exact h

/-- Actors that become resumable only take their flock's priority again. -/
theorem Core.freshlyFree_keeps {P : Actor → Prop} (hP : ∀ a n, P a → P { a with eprio := a.prio, agedAt := n }) {k : Core} {j : Nat}
    (h : P (k.actor j)) (before : Core) (now : Nat) : P ((k.freshlyFree before now).actor j) := by
  refine List.foldlRecOn (motive := fun q : Core => P (q.actor j)) _ _ h fun q hq p _ => ?_
  split
  · rcases eq_or_ne j p.1 with rfl | hne
    · rw [Core.actor_onActor_same]
      exact hP _ _ hq
    · rw [Core.actor_onActor_ne _ _ hne]
      exact hq
  · exact hq

/-- What the slot of a firing shows once it has started. -/
def Core.FiringOf (k : Core) (p : Pick) (i : Fin 4) (m : Actor) : Prop :=
  let n := k.actor p.slot
  m.state = .firing ∧ m.tsetf = i.val ∧ m.popcnt = 0 ∧ m.fires = n.fires + 1 ∧ m.eprio = n.prio

theorem Core.actor_countOf (k : Core) (slot code n j : Nat) : (k.countOf slot code n).actor j = k.actor j := rfl

theorem Core.startFiring_actor (k : Core) (i : Fin 4) (p : Pick) (fid : Nat) :
    k.FiringOf p i ((k.startFiring i p fid).actor p.slot) ∧ ((k.startFiring i p fid).actor p.slot).prio = (k.actor p.slot).prio := by
  simp only [Core.startFiring, Core.actor_countOf, Core.actor_onActor_same]
  exact ⟨⟨rfl, rfl, rfl, rfl, rfl⟩, rfl⟩

theorem Core.startFiring_thread (k : Core) (i : Fin 4) (p : Pick) (fid : Nat) : (k.startFiring i p fid).thread i = k.startThread p fid :=
  Core.thread_onThread_same _ i fun _ => k.startThread p fid

/-- The core once a firing has started. -/
def Core.started (k : Core) (i : Fin 4) (p : Pick) (fid now : Nat) : Core := ((k.startFiring i p fid).freshlyFree k now).stopCovered

theorem Core.started_actor (k : Core) (i : Fin 4) (p : Pick) (fid now : Nat) : k.FiringOf p i ((k.started i p fid now).actor p.slot) := by
  refine (Core.freshlyFree_keeps (P := fun m => k.FiringOf p i m ∧ m.prio = (k.actor p.slot).prio) ?_ (k.startFiring_actor i p fid) k now).1
  rintro a n ⟨⟨h1, h2, h3, h4, -⟩, h6⟩
  exact ⟨⟨h1, h2, h3, h4, h6⟩, h6⟩

theorem Core.started_thread {k : Core} {p : Pick} {h : Handler} (hh : (k.actor p.slot).handlers[p.handler]? = some h) (i : Fin 4) (fid now : Nat) :
    k.Starts p h ((k.started i p fid now).thread i) := by
  have hthread : ((k.startFiring i p fid).freshlyFree k now).thread i = k.startThread p fid := by
    rw [Core.thread, Core.threads_freshlyFree]
    exact k.startFiring_thread i p fid
  have hstarts := Core.starts_startThread hh fid
  rw [Core.started, Core.thread_stopCovered, hthread]
  split
  · exact hstarts
  · exact hstarts

theorem execFiringStart_eq {s : State} {core : Nat} {i : Fin 4} {p : Pick} (hlive : s.coreLive core = true)
    (hruns : (s.pkg (core / 65536)).runs = true) (hroom : (s.core core).firings < 8) (hres : (s.core core).resumable = none)
    (hidle : (s.core core).idleSet = some i) (hsel : (s.core core).select (s.cceil core) = some p) :
    ∃ t fid, execFiringStart core s = .next t ∧ t.core core = (s.core core).started i p fid (s.now core) := by
  have hgo : (!s.coreLive core || !(s.pkg (corePkg core)).runs || decide ((s.core core).firings ≥ 8) || (s.core core).resumable.isSome) = false := by
    simp [hlive, show (s.pkg (corePkg core)).runs = true from hruns, hres, hroom]
  simp only [execFiringStart, evFiringStart, hgo, hidle, hsel, Bool.false_eq_true, if_false, Option.getD_some]
  exact ⟨_, _, rfl, State.core_setCore_same ..⟩

end Sys2Proof.Machine
end

section
/-! SUPPORT. Waiting, watchdogs, timers, gates, deferred traps and the checker (R35, R40, R47, R63, R69, R382). -/

namespace Sys2Proof.Machine

theorem tsetOf_val (i : Fin 4) : tsetOf i.val = i := Fin.ofNat_val_eq_self i

/-! ## Waiting (R35) -/

theorem execPriorityAgeing_ages {s : State} {core slot : Nat} (hw : (s.core core).waitsItsTurn slot = true)
    (hp : 0 < ((s.core core).actor slot).eprio) (ha : ((s.core core).actor slot).agedAt + 65536 ≤ s.now core) :
    execPriorityAgeing core slot s = .next (s.onActor core slot fun a => { a with eprio := a.eprio - 1, agedAt := a.agedAt + 65536 }) := by
  have h : (s.core core).agesAt slot (s.now core) = true := by simp [Core.agesAt, hw, hp, ha]
  simp only [execPriorityAgeing, evPriorityAgeing, if_pos h, Option.getD_some]

theorem Core.waitsItsTurn_idle {k : Core} {slot : Nat} (hs : (k.actor slot).state = .idle) (hr : (k.actor slot).runnable = true) :
    k.waitsItsTurn slot = true := by
  simp [Core.waitsItsTurn, hs, hr]

theorem Core.waitsItsTurn_preempted {k : Core} {slot : Nat} (hs : (k.actor slot).state = .preempted) (hh : k.held slot = false) :
    k.waitsItsTurn slot = true := by
  simp [Core.waitsItsTurn, hs, hh]

/-! ## Death of a firing's actor -/

/-- A mortal actor that dies. -/
theorem Core.actor_die {k : Core} {slot : Nat} (h : (k.actor slot).state.mortal = true) (reason sub : Nat) (detail : W64) :
    ((k.die slot reason sub detail).actor slot).state = .dying ∧
      ((k.die slot reason sub detail).actor slot).dying = some { reason := reason, sub := sub, detail := detail } := by
  simp only [Core.die, if_pos h, Core.actor_onActor_same]
  exact ⟨trivial, trivial⟩

theorem Core.actor_die_ne (k : Core) {slot j : Nat} (hj : j ≠ slot) (reason sub : Nat) (detail : W64) :
    (k.die slot reason sub detail).actor j = k.actor j := by
  simp only [Core.die]
  split
  · rw [Core.actor_onActor_ne _ _ hj]
    split
    · rfl
    · rfl
  · rfl

/-- The thread set of a firing whose actor dies is free. -/
theorem Core.thread_die {k : Core} {slot : Nat} {i : Fin 4} (h : (k.actor slot).state = .firing) (hi : (k.actor slot).tsetf = i.val)
    (reason sub : Nat) (detail : W64) : ((k.die slot reason sub detail).thread i).busy = false := by
  have hmortal : (k.actor slot).state.mortal = true := by rw [h]; rfl
  have hofs : Fin.ofNat 4 (k.actor slot).tsetf = i := by rw [hi]; exact tsetOf_val i
  simp only [Core.die, if_pos hmortal, if_pos h, hofs, Core.thread_onActor, Core.thread_onThread_same]

theorem execWatchdogExpiry_kills {s : State} {core slot : Nat} {i : Fin 4} (hb : ((s.core core).thread i).busy = true)
    (hw : ((s.core core).thread i).wdogleft = 0) (hs : ((s.core core).thread i).slot = slot) :
    execWatchdogExpiry core i.val s = .next (s.onCore core (·.die slot rWatchdog 0 0)) := by
  simp only [execWatchdogExpiry, evWatchdogExpiry, tsetOf_val, hb, hw, hs, decide_true, Bool.and_self, if_true, Option.getD_some]

/-! ## Timers (R69) -/

theorem execTimerExpiry_places {s : State} {core slot : Nat} (h : ((s.core core).actor slot).timerDue (s.now core) = true) :
    execTimerExpiry core slot s = .next (s.onCore core (·.expireTimer core slot (s.now core))) := by
  simp only [execTimerExpiry, evTimerExpiry]
  rw [if_pos (show (s.actor core slot).timerDue (s.now core) = true from h), Option.getD_some]

/-! ## Gates (R47) -/

/-- Some actor of the group has not executed RETS. -/
def State.GateShut (s : State) (name : W64) : Prop :=
  ∃ p ∈ s.dir, s.gateMates p.2.name name = true ∧
    (p.2.state = 3 ∨ p.2.state = 1 ∧ ∃ m, s.liveActor p.2.name = some m ∧ (s.actor m.1 m.2).state ≠ .gated)

theorem State.gateShut_iff (s : State) (name : W64) : s.gateShut name = true ↔ s.GateShut name := by
  simp only [State.gateShut, State.GateShut, List.any_eq_true, Bool.and_eq_true, Bool.or_eq_true, beq_iff_eq, Option.any_eq_true,
    decide_eq_true_eq]

/-- A slot at an open gate goes on. -/
def State.ungate (s : State) (m : Nat × Nat) : State :=
  s.onCore m.1 fun k => (k.onActor m.2 fun a => { a with state := if a.state = .gated then .idle else a.state }).wake m.2 (s.now m.1)

theorem Core.state_wake (k : Core) (slot now j : Nat) : ((k.wake slot now).actor j).state = (k.actor j).state := by
  have h := congrArg Actor.state ((k.dressed_wake slot now).2 j)
  exact h

theorem State.state_ungate_same (s : State) (c i : Nat) : ((s.ungate (c, i)).actor c i).state =
    if (s.actor c i).state = .gated then .idle else (s.actor c i).state := by
  rw [State.ungate, State.actor_onCore_same, Core.state_wake, Core.actor_onActor_same]
  rfl

/-- An idle slot stays idle while others go on. -/
theorem State.idle_ungate {s : State} {c i : Nat} (h : (s.actor c i).state = .idle) (m : Nat × Nat) : ((s.ungate m).actor c i).state = .idle := by
  rcases eq_or_ne c m.1 with rfl | hc
  · rcases eq_or_ne i m.2 with rfl | hi
    · have hn : ¬(s.actor m.1 m.2).state = .gated := by rw [h]; decide
      rw [s.state_ungate_same, if_neg hn, h]
    · rw [State.ungate, State.actor_onCore_same, Core.state_wake, Core.actor_onActor_ne _ _ hi]
      exact h
  · rw [State.ungate, State.actor_onCore_ne _ _ _ hc, h]

/-- A slot that is gated or idle, and one that is among those that go on, is idle at the end. -/
theorem State.idle_ungate_foldl {c i : Nat} : ∀ (l : List (Nat × Nat)) (s : State), (s.actor c i).state = .gated ∨ (s.actor c i).state = .idle →
    ((c, i) ∈ l ∨ (s.actor c i).state = .idle) → ((l.foldl State.ungate s).actor c i).state = .idle
  | [], s, _, h => h.resolve_left (by simp)
  | m :: l, s, hst, h => by
    have hidle : (s.actor c i).state = .idle → ((l.foldl State.ungate (s.ungate m)).actor c i).state = .idle := fun hi =>
      State.idle_ungate_foldl l _ (.inr (State.idle_ungate hi m)) (.inr (State.idle_ungate hi m))
    rcases h with h | h
    · rcases hst with hg | hi
      · by_cases hm : (c, i) = m
        · subst hm
          have hnow : ((s.ungate (c, i)).actor c i).state = .idle := by rw [s.state_ungate_same, if_pos hg]
          exact State.idle_ungate_foldl l _ (.inr hnow) (.inr hnow)
        · have hl := (List.mem_cons.1 h).resolve_left hm
          refine State.idle_ungate_foldl l _ (.inl ?_) (.inl hl)
          rw [State.ungate]
          rcases eq_or_ne c m.1 with rfl | hc
          · have hi : i ≠ m.2 := fun hi => hm (by rw [hi])
            rw [State.actor_onCore_same, Core.state_wake, Core.actor_onActor_ne _ _ hi]
            exact hg
          · rw [State.actor_onCore_ne _ _ _ hc, hg]
      · exact hidle hi
    · exact hidle h

theorem execGateOpen_open {s : State} {core slot : Nat} (hg : (s.actor core slot).state = .gated)
    (ho : ¬s.GateShut (s.actor core slot).gateName) :
    execGateOpen core slot s = .next (((core, slot) :: s.gateWaiters (s.actor core slot).gateName).foldl State.ungate s) := by
  have hshut : s.gateShut (s.actor core slot).gateName = false := by
    rw [← Bool.not_eq_true, State.gateShut_iff]
    exact ho
  simp only [execGateOpen, evGateOpen, hg, hshut, decide_true, Bool.not_false, Bool.and_self, if_true, Option.getD_some]
  rfl

theorem execGateOpen_shut {s : State} {core slot : Nat} (h : s.GateShut (s.actor core slot).gateName) : execGateOpen core slot s = .next s := by
  have hshut : s.gateShut (s.actor core slot).gateName = true := (State.gateShut_iff _ _).2 h
  simp only [execGateOpen, evGateOpen, hshut, Bool.not_true, Bool.and_false, Bool.false_eq_true, if_false, Option.getD_none]

/-! ## Deferred traps (R63) -/

/-- A deferred fault as the words of its trap. -/
theorem Deferred.trap_eq (d : Deferred) : d.trap =
    { reason := d.cause.toNat / 2 ^ 40 % 2 ^ 8, sub := d.cause.toNat / 2 ^ 32 % 2 ^ 8, detail := d.cause.setWidth 32, va := d.va
      gaf := d.cause.getLsbD 62, imp := true, pc := d.pc } := by
  have hdetail : BitVec.ofNat 32 (bits d.cause.toNat 31 0) = d.cause.setWidth 32 := by
    apply BitVec.eq_of_toNat_eq
    simp [bits_eq_div]
  simp only [Deferred.trap, hdetail]
  simp only [bits_eq_div]
  rfl

theorem execDeferredTrap_traps {s : State} {core : Nat} {i : Fin 4} {d : Deferred} (hb : ((s.core core).thread i).busy = true)
    (hd : ((s.core core).thread i).deferred = some d) : execDeferredTrap core i.val s =
      .next (s.onCore core fun k => (k.onThread i fun t => { t with deferred := none }).takeTrap i d.trap) := by
  simp only [execDeferredTrap, evDeferredTrap, tsetOf_val, hd, hb, if_true, Option.getD_some]

/-! ## The checker (R382) -/

theorem execCheckerReexecution_eq {s : State} {core : Nat} {i : Fin 4} (hlive : s.coreLive core = true)
    (hb : ((s.core core).thread i).busy = true) (hst : ((s.core core).thread i).stopping = false) (agrees : Bool) :
    execCheckerReexecution core i.val agrees s = .next
      (if agrees then (s.onCore core (·.countOf ((s.core core).thread i).slot 0x07)).noteRecovery core
       else (s.onCore core (·.die ((s.core core).thread i).slot rCoreFault 0 0)).failCore core) := by
  have hi : Fin.ofNat 4 i.val = i := tsetOf_val i
  have hcan : ¬(i.val ≥ 4 ∨ (!s.coreLive core) = true ∨ (!((s.core core).thread i).busy) = true ∨ ((s.core core).thread i).stopping = true) := by
    simp [hlive, hb, hst]
  simp only [execCheckerReexecution, evCheckerReexecution, hi, if_neg hcan]
  cases agrees <;> rfl

/-- A recovery that the core survives only joins its list. -/
theorem State.noteRecovery_few {s : State} {core : Nat} (h : ((s.core core).recovs.filter fun t => decide (s.now core < t + 2 ^ 24)).length < 15) :
    s.noteRecovery core =
      s.onCore core fun k => { k with recovs := s.now core :: (s.core core).recovs.filter fun t => decide (s.now core < t + 2 ^ 24) } := by
  have hlen : ¬(s.now core :: (s.core core).recovs.filter fun t => decide (s.now core < t + 2 ^ 24)).length ≥ 16 := by
    rw [List.length_cons]
    omega
  exact if_neg hlen

/-- `t` comes after `s` by posts only, as far as its cores go. -/
theorem State.cores_tellAll (s : State) (pkg die : Nat) (rs : List Registration) (reason sub : Nat) (detail : W64) :
    (s.tellAll pkg die rs reason sub detail).cores = s.cores :=
  List.foldlRecOn (motive := fun t : State => t.cores = s.cores) rs _ rfl fun _ h _ _ => h

theorem State.cores_topologyNotice (s : State) (pkg die sub unit : Nat) : (s.topologyNotice pkg die sub unit).cores = s.cores :=
  s.cores_tellAll ..

/-- Spawns that go back leave the spawn list. -/
theorem State.core_returnSpawns (s : State) (core : Nat) :
    (s.returnSpawns core).core core = { s.core core with spawns := (s.core core).spawns.filter (!·.filled) } := by
  have hcores : (s.returnSpawns core).cores = (s.onCore core fun k => { k with spawns := k.spawns.filter (!·.filled) }).cores := by
    simp only [State.returnSpawns]
    refine List.foldlRecOn (motive := fun t : State => t.cores = _) _ _ rfl fun t h e _ => h
  rw [State.core, hcores, ← State.core, State.core_onCore_same]

theorem Core.loseActors_dying {k : Core} {slot : Nat} (h : (k.actor slot).state = .dying) : k.loseActors.actor slot = k.actor slot := by
  refine List.foldlRecOn (motive := fun q : Core => q.actor slot = k.actor slot) _ _ rfl fun q hq p _ => ?_
  rcases eq_or_ne slot p.1 with rfl | hne
  · rw [Core.die_of_dying (by rw [hq, h]), hq]
  · rw [Core.actor_die_ne _ hne, hq]

/-- A quarantined core is gone, and an actor that is dying already goes on dying as it was. -/
theorem State.quarantine_core (s : State) (core : Nat) :
    ((s.quarantine core).core core).gone = true ∧
      ∀ slot, (s.actor core slot).state = .dying → (s.quarantine core).actor core slot = s.actor core slot := by
  have hcore : (s.quarantine core).core core = { ({ (s.core core).loseActors with gone := true } : Core) with
      spawns := ({ (s.core core).loseActors with gone := true } : Core).spawns.filter (!·.filled) } := by
    rw [State.core, State.quarantine, State.cores_topologyNotice, ← State.core, State.withdrawCore, State.core_returnSpawns,
      State.core_onCore_same]
  exact ⟨by rw [hcore], fun slot h => by rw [State.actor, hcore]; exact Core.loseActors_dying h⟩

end Sys2Proof.Machine
end

section
/-! SUPPORT. Load levelling (R43): what one core ships to its least-loaded neighbour where no other core has anything to ship. -/

namespace Sys2Proof.Machine

/-! ## Lists -/

theorem List.nodup_eraseDups {α : Type} [BEq α] [LawfulBEq α] (l : List α) : l.eraseDups.Nodup := by
  induction h : l.length using Nat.strongRecOn generalizing l with
  | ind n ih =>
    cases l with
    | nil => exact List.nodup_nil
    | cons a l =>
      have hlt : (l.filter fun b => !b == a).length < n := by
        rw [← h, List.length_cons]
        exact Nat.lt_succ_of_le (List.length_filter_le ..)
      rw [List.eraseDups_cons, List.nodup_cons, List.mem_eraseDups]
      exact ⟨by simp, ih _ hlt _ rfl⟩

/-- A list without repetitions around one of its elements. -/
theorem List.split_of_nodup {α : Type} {l : List α} {a : α} (hn : l.Nodup) (ha : a ∈ l) : ∃ l1 l2, l = l1 ++ a :: l2 ∧ a ∉ l1 ∧ a ∉ l2 := by
  obtain ⟨l1, l2, rfl⟩ := List.append_of_mem ha
  refine ⟨l1, l2, rfl, fun h => ?_, fun h => ?_⟩
  · exact List.disjoint_of_nodup_append hn h List.mem_cons_self
  · exact (List.nodup_cons.1 hn.of_append_right).1 h

/-! ## The neighbours of a core (R5) -/

/-- The key of a compute core by cluster, row and column. -/
def gridKey (pkg die a y x : Nat) : Nat := pkg * 65536 + die * 16384 + a * 16 + y * 4 + x

theorem neighbour_gridKey {pkg die a y x : Nat} (hd : die < 4) (ha : a < 64) (hy : y < 4) (hx : x < 4) (dx dy : Nat) :
    neighbour (gridKey pkg die a y x) dx dy = gridKey pkg die a ((y + dy) % 4) ((x + dx) % 4) := by
  have hpkg : corePkg (gridKey pkg die a y x) = pkg := by
    simp only [corePkg, gridKey]
    omega
  have hdie : coreDie (gridKey pkg die a y x) = die := by
    simp only [coreDie, gridKey]
    omega
  have hidx : coreIndex (gridKey pkg die a y x) = a * 16 + y * 4 + x := by
    simp only [coreIndex, gridKey]
    omega
  have hrow : (a * 16 + y * 4 + x) % 16 / 4 = y := by omega
  have hcol : (a * 16 + y * 4 + x) % 16 % 4 = x := by omega
  have hclu : (a * 16 + y * 4 + x) / 16 = a := by omega
  simp only [neighbour, hpkg, hdie, hidx, hrow, hcol, hclu, computeKey, coreKey, Bool.false_eq_true, if_false]
  simp only [gridKey]
  omega

/-- A compute core that takes part stands on the grid of its die. -/
theorem gridKey_of_live {s : State} {c : Nat} (hm : coreIsMem c = false) (hl : s.coreLive c = true) :
    ∃ pkg die a y x, c = gridKey pkg die a y x ∧ die < 4 ∧ a < 64 ∧ y < 4 ∧ x < 4 := by
  have hex : s.coreExists c = true := by
    simp only [State.coreLive, Bool.and_eq_true] at hl
    exact hl.1.1.1
  have hidx : coreTier c = 0 ∧ coreIndex c < 1024 := by
    simp only [State.coreExists, hm] at hex
    split at hex
    · cases hex
    · simpa using hex
  obtain ⟨ht, hi⟩ := hidx
  simp only [coreIsMem, decide_eq_false_iff_not] at hm
  simp only [coreTier] at ht
  simp only [coreIndex] at hi
  refine ⟨c / 65536, c / 16384 % 4, c % 4096 / 16, c % 16 / 4, c % 4, ?_, by omega, by omega, by omega, by omega⟩
  simp only [gridKey]
  omega

/-- The neighbours that ship to a core, in their turn. -/
def shippers (d : Nat) : List Nat := [neighbour d 3 0, neighbour d 0 3, neighbour d 1 0, neighbour d 0 1]

/-- A core is among those that ship to its neighbours, and each of these stands there once. -/
theorem mem_shippers {s : State} {c d : Nat} (hm : coreIsMem c = false) (hl : s.coreLive c = true) (hd : d ∈ neighbours c) :
    c ∈ shippers d ∧ (shippers d).Nodup := by
  obtain ⟨pkg, die, a, y, x, rfl, hdie, ha, hy, hx⟩ := gridKey_of_live hm hl
  have hgrid : ∃ y' x', d = gridKey pkg die a y' x' ∧ y' < 4 ∧ x' < 4 ∧
      ((y' = y ∧ (x' + 3) % 4 = x) ∨ ((y' + 3) % 4 = y ∧ x' = x) ∨ (y' = y ∧ (x' + 1) % 4 = x) ∨ ((y' + 1) % 4 = y ∧ x' = x)) := by
    simp only [neighbours, neighbour_gridKey hdie ha hy hx, List.mem_cons, List.not_mem_nil, or_false] at hd
    rcases hd with rfl | rfl | rfl | rfl
    · exact ⟨_, _, rfl, by omega, by omega, .inl (by omega)⟩
    · exact ⟨_, _, rfl, by omega, by omega, .inr (.inl (by omega))⟩
    · exact ⟨_, _, rfl, by omega, by omega, .inr (.inr (.inl (by omega)))⟩
    · exact ⟨_, _, rfl, by omega, by omega, .inr (.inr (.inr (by omega)))⟩
  obtain ⟨y', x', rfl, hy', hx', hrel⟩ := hgrid
  simp only [shippers, neighbour_gridKey hdie ha hy' hx']
  simp only [gridKey, List.mem_cons, List.not_mem_nil, or_false, List.nodup_cons, not_or, not_false_eq_true, List.nodup_nil, and_true]
  constructor
  · omega
  · omega

/-! ## The least-loaded neighbour -/

/-- Of two candidates the one with the lower load, the first where both have the same. -/
def State.lighter (s : State) (best : Option Nat) (n : Nat) : Option Nat :=
  match best with
  | none => some n
  | some b => if (s.core n).load < (s.core b).load then some n else some b

theorem State.foldl_lighter {s : State} {d : Nat} {l : List Nat} (hl : ∀ e ∈ l, e ≠ d → (s.core d).load < (s.core e).load) {best : Option Nat}
    (hb : ∀ b, best = some b → b ≠ d → (s.core d).load < (s.core b).load) (hd : best = some d ∨ d ∈ l) : l.foldl s.lighter best = some d := by
  induction l generalizing best with
  | nil => exact hd.resolve_right List.not_mem_nil
  | cons x l ih =>
    have hx := hl x List.mem_cons_self
    have hrest : ∀ e ∈ l, e ≠ d → (s.core d).load < (s.core e).load := fun e he => hl e (List.mem_cons_of_mem _ he)
    rw [List.foldl_cons]
    cases best with
    | none =>
      refine ih hrest (fun b hbx hne => ?_) ?_
      · cases hbx
        exact hx hne
      · rcases hd with hd | hd
        · cases hd
        · rcases List.mem_cons.1 hd with rfl | hd
          · exact .inl rfl
          · exact .inr hd
    | some b =>
      simp only [State.lighter]
      split
      · rename_i hlt
        refine ih hrest (fun b' hb' hne => ?_) ?_
        · cases hb'
          exact hx hne
        · by_cases hxd : x = d
          · exact .inl (by rw [hxd])
          · rcases hd with hd | hd
            · cases hd
              exact absurd (hx hxd) (by omega)
            · exact .inr ((List.mem_cons.1 hd).resolve_left (Ne.symm hxd))
      · rename_i hlt
        refine ih hrest hb ?_
        by_cases hbd : b = d
        · exact .inl (by rw [hbd])
        · rcases hd with hd | hd
          · cases hd
            exact absurd rfl hbd
          · rcases List.mem_cons.1 hd with rfl | hd
            · exact absurd (hb b rfl hbd) hlt
            · exact .inr hd

theorem State.lightest_eq {s : State} {c d : Nat} (hd : d ∈ neighbours c) (hl : s.coreLive d = true)
    (h : ∀ e ∈ neighbours c, e ≠ d → s.coreLive e = true → (s.core d).load < (s.core e).load) : s.lightest c = some d :=
  State.foldl_lighter (best := none) (fun e he hne => h e (List.mem_of_mem_filter he) hne (List.mem_filter.1 he).2) (fun _ hb => by cases hb)
    (.inr (List.mem_filter.2 ⟨hd, hl⟩))

/-- What a core ships to its least-loaded neighbour. -/
theorem State.shipment_eq {s : State} {c d : Nat} (hc : s.coreLive c = true) (hd : s.lightest c = some d)
    (hload : (s.core d).load + 2 ≤ (s.core c).load) : s.shipment c =
      some (d, Min.min (Min.min 4 (((s.core c).load - (s.core d).load) / 2)) (s.core c).shippable.length) := by
  simp only [State.shipment, hc, hd, Bool.not_true, Bool.false_eq_true, if_false, Option.bind_some]
  rw [if_neg (by omega)]

/-- A core that has nothing to ship ships nothing. -/
theorem State.shipment_none {s : State} {e : Nat} (h : (s.core e).shippable = []) {p : Nat × Nat} (hp : s.shipment e = some p) : p.2 = 0 := by
  simp only [State.shipment] at hp
  split at hp
  · cases hp
  · obtain ⟨n, -, hn⟩ := Option.bind_eq_some_iff.1 hp
    split at hn
    · cases hn
    · cases hn
      simp [h]

end Sys2Proof.Machine
end

section
/-! SUPPORT. The shipments of one sampling (R43): they change spawn lists only, and only those that a core with something to ship reaches. -/

namespace Sys2Proof.Machine

/-! ## Frames -/

/-- Levelling changes spawn lists and counters only. -/
def State.LevelFrame (s t : State) : Prop :=
  t.pkgs = s.pkgs ∧ t.gmem = s.gmem ∧ t.net = s.net ∧ ∀ c, (t.core c).slots = (s.core c).slots

theorem State.LevelFrame.refl (s : State) : s.LevelFrame s := ⟨rfl, rfl, rfl, fun _ => rfl⟩

theorem State.LevelFrame.trans {s t u : State} (h1 : s.LevelFrame t) (h2 : t.LevelFrame u) : s.LevelFrame u :=
  ⟨h2.1.trans h1.1, h2.2.1.trans h1.2.1, h2.2.2.1.trans h1.2.2.1, fun c => (h2.2.2.2 c).trans (h1.2.2.2 c)⟩

theorem State.levelFrame_onCore (s : State) (c : Nat) {f : Core → Core} (h : ∀ k : Core, (f k).slots = k.slots) : s.LevelFrame (s.onCore c f) := by
  refine ⟨rfl, rfl, rfl, fun d => ?_⟩
  rcases eq_or_ne d c with rfl | hne
  · rw [State.core_onCore_same, h]
  · rw [State.core_onCore_ne _ _ hne]

/-- The spawn lists of all cores are the same. -/
def State.SameSpawns (s t : State) : Prop := ∀ c, (t.core c).spawns = (s.core c).spawns

theorem State.SameSpawns.trans {s t u : State} (h1 : s.SameSpawns t) (h2 : t.SameSpawns u) : s.SameSpawns u := fun c => (h2 c).trans (h1 c)

theorem State.spawns_onCore_same (s : State) (c : Nat) {f : Core → Core} (h : ∀ k : Core, (f k).spawns = k.spawns) : s.SameSpawns (s.onCore c f) := by
  intro d
  rcases eq_or_ne d c with rfl | hne
  · rw [State.core_onCore_same, h]
  · rw [State.core_onCore_ne _ _ hne]

/-! ## One shipment -/

theorem Core.slots_appendAll (l : List Spawn) (k : Core) : (l.foldl Core.appendSpawn k).slots = k.slots :=
  List.foldlRecOn (motive := fun q : Core => q.slots = k.slots) l _ rfl fun _ h _ _ => h

/-- Spawns that are shipped join the list in order, under numbers of their own. -/
theorem Core.spawns_appendAll (l : List Spawn) (k : Core) :
    (l.foldl Core.appendSpawn k).spawns.map (fun e => { e with id := 0 }) = (k.spawns ++ l).map fun e => { e with id := 0 } := by
  induction l generalizing k with
  | nil => rw [List.foldl_nil, List.append_nil]
  | cons e l ih =>
    rw [List.foldl_cons, ih]
    simp [Core.appendSpawn]

/-- What leaves a core in a shipment of `n`. -/
def Core.outgoing (k : Core) (n : Nat) : List Spawn := k.shippable.drop (k.shippable.length - n)

theorem State.ship_eq (s before : State) (c d n : Nat) : s.ship before c d n =
    ((s.onCore c fun k => { k with spawns := k.spawns.filter fun e => !((before.core c).outgoing n).any (·.id == e.id) }).onCore d fun k =>
      ((before.core c).outgoing n).foldl Core.appendSpawn k).countCore c 0x0B none ((before.core c).outgoing n).length := rfl

theorem State.levelFrame_ship (s before : State) (c d n : Nat) : s.LevelFrame (s.ship before c d n) := by
  rw [State.ship_eq]
  refine State.LevelFrame.trans ?_ (State.levelFrame_onCore _ c fun _ => rfl)
  refine State.LevelFrame.trans ?_ (State.levelFrame_onCore _ d fun k => Core.slots_appendAll _ k)
  exact s.levelFrame_onCore c fun _ => rfl

/-- A shipment of nothing leaves every list. -/
theorem State.ship_nothing {before : State} {c : Nat} (h : (before.core c).shippable = []) (s : State) (d n : Nat) :
    s.SameSpawns (s.ship before c d n) := by
  have hout : (before.core c).outgoing n = [] := by rw [Core.outgoing, h, List.drop_nil]
  rw [State.ship_eq, hout]
  refine State.SameSpawns.trans ?_ (State.spawns_onCore_same _ c fun _ => rfl)
  refine State.SameSpawns.trans (s.spawns_onCore_same c fun k => ?_) (State.spawns_onCore_same _ d fun _ => rfl)
  exact List.filter_eq_self.2 fun _ _ => rfl

/-- A shipment from one core to another. -/
theorem State.spawns_ship {c d : Nat} (hne : c ≠ d) (s before : State) (n : Nat) :
    ((s.ship before c d n).core c).spawns = (s.core c).spawns.filter (fun e => !((before.core c).outgoing n).any (·.id == e.id)) ∧
      ((s.ship before c d n).core d).spawns.map (fun e => { e with id := 0 }) =
        ((s.core d).spawns ++ (before.core c).outgoing n).map fun e => { e with id := 0 } := by
  rw [State.ship_eq]
  constructor
  · rw [State.countCore, State.core_onCore_same]
    refine congrArg Core.spawns ((State.core_onCore_ne _ _ hne).trans (State.core_onCore_same ..))
  · rw [State.countCore, State.core_onCore_ne _ _ hne.symm, State.core_onCore_same, State.core_onCore_ne _ _ hne.symm]
    exact Core.spawns_appendAll _ _

/-! ## The shipments to one core -/

/-- The turn of one neighbour in what a core receives. -/
def State.shipTurn (before : State) (dst : Nat) (r : State × Nat) (src : Nat) : State × Nat :=
  match before.shipment src with
  | some (d, n) => if d = dst then (r.1.ship before src dst (Min.min n r.2), r.2 - n) else r
  | none => r

theorem State.receiveAll_eq (s before : State) (dst : Nat) :
    s.receiveAll before dst = ((shippers dst).foldl (before.shipTurn dst) (s, 32 - (before.core dst).spawns.length)).1 := rfl

theorem State.levelFrame_shipTurn (before : State) (dst : Nat) (r : State × Nat) (src : Nat) : r.1.LevelFrame (before.shipTurn dst r src).1 := by
  unfold State.shipTurn
  split
  · split
    · exact r.1.levelFrame_ship ..
    · exact .refl _
  · exact .refl _

theorem State.levelFrame_receiveAll (s before : State) (dst : Nat) : s.LevelFrame (s.receiveAll before dst) :=
  List.foldlRecOn (motive := fun r : State × Nat => s.LevelFrame r.1) _ _ (.refl s) fun r h src _ => h.trans (before.levelFrame_shipTurn dst r src)

section
variable {before : State} {c d m : Nat} (hquiet : ∀ e, e ≠ c → (before.core e).shippable = []) (hship : before.shipment c = some (d, m))
include hquiet hship

/-- A turn changes no list and takes no room, unless it is the turn of the core that ships, to where it ships. -/
theorem State.shipTurn_quiet {dst src : Nat} (h : ¬(src = c ∧ dst = d)) (r : State × Nat) :
    r.1.SameSpawns (before.shipTurn dst r src).1 ∧ (before.shipTurn dst r src).2 = r.2 := by
  unfold State.shipTurn
  split
  · rename_i d' n hp
    split
    · rename_i hd
      have hsrc : src ≠ c := by
        rintro rfl
        rw [hship] at hp
        cases hp
        exact h ⟨rfl, hd.symm⟩
      obtain rfl : n = 0 := State.shipment_none (hquiet src hsrc) hp
      exact ⟨State.ship_nothing (hquiet src hsrc) _ _ _, rfl⟩
    · exact ⟨fun _ => rfl, rfl⟩
  · exact ⟨fun _ => rfl, rfl⟩

theorem State.shipTurns_quiet {dst : Nat} {l : List Nat} (h : dst = d → c ∉ l) (r : State × Nat) :
    r.1.SameSpawns (l.foldl (before.shipTurn dst) r).1 ∧ (l.foldl (before.shipTurn dst) r).2 = r.2 :=
  List.foldlRecOn (motive := fun q : State × Nat => r.1.SameSpawns q.1 ∧ q.2 = r.2) l _ ⟨fun _ => rfl, rfl⟩ fun q hq src hsrc => by
    have hturn := State.shipTurn_quiet hquiet hship (dst := dst) (src := src) (fun ⟨hc, hd⟩ => h hd (hc ▸ hsrc)) q
    exact ⟨hq.1.trans hturn.1, hturn.2.trans hq.2⟩

/-- Where the core ships elsewhere, a core receives nothing. -/
theorem State.receiveAll_quiet {dst : Nat} (h : dst ≠ d) (s : State) : s.SameSpawns (s.receiveAll before dst) :=
  (State.shipTurns_quiet hquiet hship (fun hd => absurd hd h) (s, 32 - (before.core dst).spawns.length)).1

/-- What the core receives to which the other ships. -/
theorem State.spawns_receiveAll (hne : c ≠ d) (hc : c ∈ shippers d) (hn : (shippers d).Nodup) (s : State) :
    let out := (before.core c).outgoing (Min.min m (32 - (before.core d).spawns.length))
    ((s.receiveAll before d).core c).spawns = (s.core c).spawns.filter (fun e => !out.any (·.id == e.id)) ∧
      ((s.receiveAll before d).core d).spawns.map (fun e => { e with id := 0 }) =
        ((s.core d).spawns ++ out).map fun e => { e with id := 0 } := by
  intro out
  obtain ⟨l1, l2, hl, h1, h2⟩ := List.split_of_nodup hn hc
  obtain ⟨hs1, hr1⟩ := State.shipTurns_quiet hquiet hship (dst := d) (l := l1) (fun _ => h1) (s, 32 - (before.core d).spawns.length)
  rw [State.receiveAll_eq, hl, List.foldl_append, List.foldl_cons]
  generalize l1.foldl (before.shipTurn d) (s, 32 - (before.core d).spawns.length) = r at hs1 hr1
  have hturn : before.shipTurn d r c = (r.1.ship before c d (Min.min m r.2), r.2 - m) := by
    simp only [State.shipTurn, hship, if_true]
  obtain ⟨hs2, -⟩ := State.shipTurns_quiet hquiet hship (dst := d) (l := l2) (fun _ => h2) (before.shipTurn d r c)
  obtain ⟨hfrom, hto⟩ := State.spawns_ship hne r.1 before (Min.min m r.2)
  rw [hr1] at hfrom hto
  rw [hs2 c, hs2 d, hturn, hr1]
  exact ⟨by rw [hfrom, hs1 c], by rw [hto, hs1 d]⟩

/-- The shipments to all the cores that receive some. -/
theorem State.spawns_receiveList (hne : c ≠ d) (hc : c ∈ shippers d) (hn : (shippers d).Nodup) {dsts : List Nat} (hd : d ∈ dsts)
    (hnd : dsts.Nodup) (s : State) :
    let out := (before.core c).outgoing (Min.min m (32 - (before.core d).spawns.length))
    let t := dsts.foldl (fun t d => t.receiveAll before d) s
    (t.core c).spawns = (s.core c).spawns.filter (fun e => !out.any (·.id == e.id)) ∧
      (t.core d).spawns.map (fun e => { e with id := 0 }) = ((s.core d).spawns ++ out).map fun e => { e with id := 0 } := by
  intro out t
  have hquietly : ∀ (l : List Nat), d ∉ l → ∀ s : State, s.SameSpawns (l.foldl (fun t d => t.receiveAll before d) s) := fun l hl s =>
    List.foldlRecOn (motive := fun t : State => s.SameSpawns t) l _ (fun _ => rfl) fun t ht e he =>
      ht.trans (State.receiveAll_quiet hquiet hship (fun hed => hl (hed ▸ he)) t)
  obtain ⟨l1, l2, rfl, h1, h2⟩ := List.split_of_nodup hnd hd
  have hs1 := hquietly l1 h1 s
  have ht : t = l2.foldl (fun t d => t.receiveAll before d) ((l1.foldl (fun t d => t.receiveAll before d) s).receiveAll before d) := by
    simp only [t, List.foldl_append, List.foldl_cons]
  obtain ⟨hfrom, hto⟩ := State.spawns_receiveAll hquiet hship hne hc hn (l1.foldl (fun t d => t.receiveAll before d) s)
  have hs2 := hquietly l2 h2 ((l1.foldl (fun t d => t.receiveAll before d) s).receiveAll before d)
  rw [ht, hs2 c, hs2 d]
  exact ⟨by rw [hfrom, hs1 c], by rw [hto, hs1 d]⟩

end

/-! ## The event -/

/-- The cores to which some core of a package ships, each once. -/
def State.receivers (s : State) (pkg : Nat) : List Nat :=
  (((s.cores.map (·.1)).filter fun c => corePkg c == pkg && !coreIsMem c).filterMap fun c => (s.shipment c).map (·.1)).eraseDups

theorem execLoadLevelling_eq {s : State} {pkg : Nat} (h : s.levels pkg = true) : execLoadLevelling pkg s =
    .next (((s.receivers pkg).foldl (fun t d => t.receiveAll s d) s).onPkg pkg fun p => { p with levelled := p.cycle / 8192 }) := by
  simp only [execLoadLevelling, evLoadLevelling, h, Bool.not_true, Bool.false_eq_true, if_false, Option.getD_some]
  rfl

theorem State.levelFrame_receivers (s : State) (l : List Nat) : s.LevelFrame (l.foldl (fun t d => t.receiveAll s d) s) :=
  List.foldlRecOn (motive := s.LevelFrame) l _ (.refl s) fun t ht d _ => ht.trans (t.levelFrame_receiveAll s d)

theorem SMap.key_mem_of_get_ne {α : Type} {d : α} {m : SMap α} {k : Nat} (h : SMap.get d m k ≠ d) : k ∈ m.map (·.1) := by
  induction m with
  | nil => exact absurd rfl h
  | cons p m ih =>
    obtain ⟨j, v⟩ := p
    by_cases hj : j = k
    · exact List.mem_cons.2 (.inl hj.symm)
    · rw [SMap.get, if_neg hj] at h
      exact List.mem_cons_of_mem _ (ih h)

/-- A core with a load is listed. -/
theorem State.core_listed {s : State} {c : Nat} (h : 0 < (s.core c).load) : c ∈ s.cores.map (·.1) := by
  refine SMap.key_mem_of_get_ne (d := {}) fun he => ?_
  have h0 : (s.core c).load = 0 := by
    rw [State.core, he]
    rfl
  omega

theorem State.mem_receivers {s : State} {pkg c d m : Nat} (hp : corePkg c = pkg) (hm : coreIsMem c = false) (hl : 0 < (s.core c).load)
    (hs : s.shipment c = some (d, m)) : d ∈ s.receivers pkg := by
  refine List.mem_eraseDups.2 (List.mem_filterMap.2 ⟨c, List.mem_filter.2 ⟨s.core_listed hl, ?_⟩, ?_⟩)
  · simp [hp, hm]
  · rw [hs, Option.map_some]

end Sys2Proof.Machine
end

section
/-! CERTIFICATES. The events of firings (R35, R37, R40, R43, R47, R63, R69, R382). -/

namespace Sys2Proof.Machine

/-- Levelling in its cycle. -/
theorem loadLevels {s : State} {pkg : Nat} (hruns : (s.pkg pkg).runs = true) (hcycle : (s.pkg pkg).cycle % 8192 = 0)
    (hnew : (s.pkg pkg).levelled ≠ (s.pkg pkg).cycle / 8192) :
    ∃ t, exec (.loadLevelling pkg) s = .next t ∧
      (t.pkg pkg).levelled = (s.pkg pkg).cycle / 8192 ∧ t.gmem = s.gmem ∧ t.net = s.net ∧ (∀ c, (t.core c).slots = (s.core c).slots) ∧
      ∀ c d, c / 65536 = pkg → coreIsMem c = false → s.coreLive c = true → d ∈ neighbours c → s.coreLive d = true →
        (∀ e ∈ neighbours c, e ≠ d → s.coreLive e = true → (s.core d).load < (s.core e).load) → (s.core d).load + 2 ≤ (s.core c).load →
        (∀ e, e ≠ c → (s.core e).shippable = []) →
        let l := (s.core c).shippable
        let n := Min.min (Min.min (Min.min 4 (((s.core c).load - (s.core d).load) / 2)) l.length) (32 - (s.core d).spawns.length)
        let out := l.drop (l.length - n)
        (t.core c).spawns = (s.core c).spawns.filter (fun e => !out.any (·.id == e.id)) ∧
          (t.core d).spawns.map (fun e => { e with id := 0 }) = ((s.core d).spawns ++ out).map fun e => { e with id := 0 } := by
  have hlevels : s.levels pkg = true := by simp [State.levels, hruns, hcycle, Ne.symm hnew]
  obtain ⟨hpkgs, hg, hnet, hslots⟩ := s.levelFrame_receivers (s.receivers pkg)
  refine ⟨_, execLoadLevelling_eq hlevels, ?_, hg, hnet, hslots, fun c d hp hm hlc hd hld hleast hload hquiet => ?_⟩
  · rw [State.pkg_onPkg, State.pkg, hpkgs, ← State.pkg]
  · have hne : c ≠ d := by
      rintro rfl
      omega
    have hship := State.shipment_eq hlc (State.lightest_eq hd hld hleast) hload
    obtain ⟨hmem, hn⟩ := mem_shippers hm hlc hd
    exact State.spawns_receiveList hquiet hship hne hmem hn (State.mem_receivers hp hm (by omega) hship) (List.nodup_eraseDups _) s

/-- A re-execution that agrees, on a core that has seen few. -/
theorem checkerAgrees {s : State} {core : Nat} {i : Fin 4} (hlive : s.coreLive core = true) (hb : ((s.core core).thread i).busy = true)
    (hst : ((s.core core).thread i).stopping = false)
    (hfew : ((s.core core).recovs.filter fun t => decide (s.now core < t + 2 ^ 24)).length < 15) :
    ∃ t, exec (.checkerReexecution core i.val true) s = .next t ∧ (t.core core).slots = (s.core core).slots ∧
      (t.core core).threads = (s.core core).threads ∧ (t.core core).mem = (s.core core).mem ∧
      (t.core core).recovs = s.now core :: (s.core core).recovs.filter fun t => decide (s.now core < t + 2 ^ 24) := by
  let s1 := s.onCore core (·.countOf ((s.core core).thread i).slot 0x07)
  have hcore : s1.core core = (s.core core).countOf ((s.core core).thread i).slot 0x07 := State.core_onCore_same ..
  have hnow : s1.now core = s.now core := rfl
  have hrecovs : (s1.core core).recovs = (s.core core).recovs := by rw [hcore]; rfl
  have hnote : s1.noteRecovery core = s1.onCore core fun k =>
      { k with recovs := s.now core :: (s.core core).recovs.filter fun t => decide (s.now core < t + 2 ^ 24) } := by
    rw [State.noteRecovery_few (by rw [hrecovs, hnow]; exact hfew), hrecovs, hnow]
  refine ⟨_, execCheckerReexecution_eq hlive hb hst true, ?_⟩
  rw [if_pos rfl, hnote, State.core_onCore_same, hcore]
  exact ⟨rfl, rfl, rfl, rfl⟩

/-- A re-execution that does not agree, on a compute core. -/
theorem checkerFails {s : State} {core slot : Nat} {i : Fin 4} (hlive : s.coreLive core = true) (hb : ((s.core core).thread i).busy = true)
    (hst : ((s.core core).thread i).stopping = false) (hslot : ((s.core core).thread i).slot = slot)
    (hf : ((s.core core).actor slot).state = .firing) (hm : coreIsMem core = false) :
    ∃ t, exec (.checkerReexecution core i.val false) s = .next t ∧ (t.core core).gone = true ∧ (t.actor core slot).state = .dying ∧
      (t.actor core slot).dying = some { reason := 0x21, sub := 0, detail := 0 } := by
  let s1 := s.onCore core (·.die slot rCoreFault 0 0)
  obtain ⟨hdying, hwhy⟩ := Core.actor_die (k := s.core core) (slot := slot) (by rw [hf]; rfl) rCoreFault 0 0
  have hactor : s1.actor core slot = ((s.core core).die slot rCoreFault 0 0).actor slot := State.actor_onCore_same ..
  obtain ⟨hgone, hkeep⟩ := s1.quarantine_core core
  have hsame := hkeep slot (by rw [hactor]; exact hdying)
  refine ⟨_, execCheckerReexecution_eq hlive hb hst false, ?_⟩
  rw [if_neg Bool.false_ne_true, hslot, State.failCore, hm, if_neg Bool.false_ne_true, hsame, hactor]
  exact ⟨hgone, hdying, hwhy⟩

/-- Changes of a core that agree on it are the same. -/
theorem State.onCore_congr {s : State} {c : Nat} {f g : Core → Core} (h : f (s.core c) = g (s.core c)) : s.onCore c f = s.onCore c g := by
  rw [State.onCore, h, State.onCore]

/-- Settles O43, by what each event does to its thread set, its slot and the spawn lists. -/
theorem firingEvents : Obligations.FiringEvents := by
  intro core slot i s k a u now shut
  refine ⟨fun p h hlive hruns hroom hres hidle hsel hh => ?_,
    fun hst hrun hp ha => execPriorityAgeing_ages (Core.waitsItsTurn_idle hst hrun) hp ha,
    fun hst hheld hp ha => execPriorityAgeing_ages (Core.waitsItsTurn_preempted hst hheld) hp ha, fun hb hw hslot hst hts => ?_,
    fun hmortal harm hdue hat => ?_, ⟨fun hg ho => ?_, fun _ hs => execGateOpen_shut hs⟩, fun d hb hd => ?_,
    fun hlive hb hst hfew => checkerAgrees hlive hb hst hfew, fun hlive hb hst hslot hf hm => checkerFails hlive hb hst hslot hf hm,
    fun pkg hruns hcycle hnew => loadLevels hruns hcycle hnew⟩
  · obtain ⟨t, fid, hexec, hcore⟩ := execFiringStart_eq hlive hruns hroom hres hidle hsel
    obtain ⟨hbusy, hslot, hhan, hpc, htrap, hpriv, hmx, hsucc, hvlen, hsend, herr, hdef, hwd, h10, h11, h12, hzero⟩ :=
      Core.started_thread hh i fid (s.now core)
    obtain ⟨hst, hts, hpop, hfires, heprio⟩ := k.started_actor i p fid (s.now core)
    refine ⟨t, hexec, ?_⟩
    rw [hcore]
    exact ⟨hbusy, hslot, hhan, hpc, htrap, hpriv, hmx, hsucc, hvlen, hsend, herr, hdef, hwd, h10, h11, h12, hzero, hst, hts, hpop, hfires, heprio⟩
  · have hmortal : (k.actor slot).state.mortal = true := by rw [show (k.actor slot).state = .firing from hst]; rfl
    obtain ⟨hdying, hwhy⟩ := Core.actor_die hmortal rWatchdog 0 0
    refine ⟨_, execWatchdogExpiry_kills hb hw hslot, ?_, ?_, ?_, fun j hj => ?_⟩
    · rw [State.actor_onCore_same]
      exact hdying
    · rw [State.actor_onCore_same]
      exact hwhy
    · rw [State.core_onCore_same]
      exact Core.thread_die hst hts rWatchdog 0 0
    · rw [State.actor_onCore_same, Core.actor_die_ne _ hj]
      rfl
  · have hdue' : a.timerDue now = true := by
      have hbits : bits a.timer.toNat 62 0 = a.timer.toNat % 2 ^ 63 := by rw [bits_eq_div]; simp
      simp only [Actor.timerDue, Bool.and_eq_true, decide_eq_true_eq]
      exact ⟨⟨⟨hmortal, harm⟩, by rw [hbits]; exact hdue⟩, hat⟩
    refine (execTimerExpiry_places hdue').trans (congrArg Host.Outcome.next (State.onCore_congr ?_))
    rfl
  · refine ⟨_, execGateOpen_open hg ho, ?_, fun m hm hgm => ?_⟩
    · exact State.idle_ungate_foldl _ s (.inl hg) (.inl List.mem_cons_self)
    · exact State.idle_ungate_foldl _ s (.inl hgm) (.inl (List.mem_cons_of_mem _ hm))
  · exact (execDeferredTrap_traps hb hd).trans (by rw [Deferred.trap_eq])

end Sys2Proof.Machine
end

section
/-! SUPPORT. Reset, bring-up, recovery, FREEZE, debug and live replacement (R388, R391, R394 to R397, R416, R417), one lemma for each event that
takes place. -/

namespace Sys2Proof.Machine

/-! ## Reset (R416, R417) -/

/-- A package in its reset. -/
def State.Fresh (t : State) (pkg : Nat) : Prop := (t.pkg pkg).isReady = false ∧ (t.pkg pkg).cycle = 0 ∧ (t.pkg pkg).bringUp = 0

theorem Package.boot_fresh (p : Package) : p.boot.isReady = false ∧ p.boot.cycle = 0 ∧ p.boot.bringUp = 0 := ⟨rfl, rfl, rfl⟩

/-- A package reset leaves its package as its reset does. -/
theorem State.pkg_resetPackage (s : State) (pkg : Nat) : ∃ p : Package, (s.resetPackage pkg).pkg pkg = p.boot := by
  simp only [State.resetPackage]
  split
  · exact ⟨s.pkg pkg, by simp [State.pkg, SMap.get]⟩
  · exact ⟨_, State.pkg_onPkg ..⟩

theorem State.fresh_resetPackage (s : State) (pkg : Nat) : (s.resetPackage pkg).Fresh pkg := by
  obtain ⟨p, hp⟩ := s.pkg_resetPackage pkg
  rw [State.Fresh, hp]
  exact p.boot_fresh

/-- The first sample of a pin at a level. -/
theorem State.onPin_first {s : State} {pkg pin : Nat}
    (h : (s.pkg pkg).pins.find pin = none ∨ ∃ u, (s.pkg pkg).pins.find pin = some u ∧ u + 1 < s.wall / 940) (act : State → State) :
    s.onPin pkg pin act = some (s.onPkg pkg fun p => { p with pins := p.pins.put pin (s.wall / 940) }) := by
  rcases h with h | ⟨u, h, hu⟩
  · simp only [State.onPin, h]
  · simp only [State.onPin, h]
    rw [if_neg (by omega), if_neg (by omega)]

/-- The second of two samples that agree. -/
theorem State.onPin_agrees {s : State} {pkg pin : Nat} (h : ∃ u, (s.pkg pkg).pins.find pin = some u ∧ u + 1 = s.wall / 940) (act : State → State) :
    s.onPin pkg pin act = some (act (s.onPkg pkg fun p => { p with pins := p.pins.del pin })) := by
  obtain ⟨u, h, hu⟩ := h
  simp only [State.onPin, h]
  rw [if_neg (by omega), if_pos hu]

theorem execPackageReset_resets {s : State} {pkg : Nat} (hf : (s.pkgs.find pkg).isSome = true) (hb : (s.pkg pkg).bringUp ≠ 0)
    (h : (s.pkg pkg).halted = true ∨ ∃ u, (s.pkg pkg).pins.find 0 = some u ∧ u + 1 = s.wall / 940) :
    ∃ t, execPackageReset pkg s = .next t ∧ t.Fresh pkg := by
  have hcan : ¬((s.pkgs.find pkg).isNone = true ∨ (s.pkg pkg).bringUp = 0) := by simp [Option.isSome_iff_ne_none.1 hf, hb]
  simp only [execPackageReset, evPackageReset, if_neg hcan]
  by_cases hh : (s.pkg pkg).halted = true
  · rw [if_pos hh]
    exact ⟨_, rfl, State.fresh_resetPackage ..⟩
  · rw [if_neg hh, State.onPin_agrees (h.resolve_left hh)]
    exact ⟨_, rfl, State.fresh_resetPackage ..⟩

theorem execPackageReset_samples {s : State} {pkg : Nat} (hf : (s.pkgs.find pkg).isSome = true) (hb : (s.pkg pkg).bringUp ≠ 0)
    (hh : (s.pkg pkg).halted = false)
    (h : (s.pkg pkg).pins.find 0 = none ∨ ∃ u, (s.pkg pkg).pins.find 0 = some u ∧ u + 1 < s.wall / 940) :
    execPackageReset pkg s = .next (s.onPkg pkg fun p => { p with pins := p.pins.put 0 (s.wall / 940) }) := by
  have hcan : ¬((s.pkgs.find pkg).isNone = true ∨ (s.pkg pkg).bringUp = 0) := by simp [Option.isSome_iff_ne_none.1 hf, hb]
  simp only [execPackageReset, evPackageReset, if_neg hcan, hh, Bool.false_eq_true, if_false, State.onPin_first h, Option.getD_some]

theorem execResetFrame_other {s s1 : State} {pkg : Nat} {hd : FrameHead} {c : Conn} (hin : s.frameIn pkg 0 hd 1 = some (c, s1)) (hc : c.domain ≠ 0) :
    execResetFrame pkg hd s = .next s1 := by
  simp only [execResetFrame, evResetFrame, hin, Option.map_some, if_neg hc, Option.getD_some]

theorem execResetFrame_resets {s s1 : State} {pkg : Nat} {hd : FrameHead} {c : Conn} (hin : s.frameIn pkg 0 hd 1 = some (c, s1)) (hc : c.domain = 0) :
    execResetFrame pkg hd s = .next (s1.resetPackage pkg) := by
  simp only [execResetFrame, evResetFrame, hin, Option.map_some, if_pos hc, Option.getD_some]

/-! ## Bring-up (R417) -/

theorem Package.bringUp_bootMeasure (p : Package) (k : Nat) : (p.bootMeasure k).bringUp = p.bringUp := by
  unfold Package.bootMeasure
  split <;> rfl

theorem Package.bringUp_bootImages (p : Package) : p.bootImages.bringUp = p.bringUp := by
  simp only [Package.bootImages]
  split
  · rfl
  · simp only [Package.bringUp_bootMeasure]

theorem Package.bringUp_verify (p : Package) : p.verify.bringUp = p.bringUp := by
  rw [Package.verify, Package.bringUp_bootImages, Package.bringUp_bootMeasure]

/-- The image that the next step waits for does not run. -/
def Package.BringUpWaits (p : Package) : Prop :=
  p.bringUp = 1 ∧ p.fw[0].running.isSome = false ∨ p.bringUp = 3 ∧ p.hasLinks = true ∧ p.fw[2].running.isSome = false ∨
    p.bringUp = 4 ∧ p.fw[1].running.isSome = false

/-- Where the image does not run, the step waits. -/
theorem Package.bringOn_waits {p : Package} (h : p.BringUpWaits) (now : Nat) : p.bringOn now = none := by
  rcases h with ⟨hb, hf⟩ | ⟨hb, hl, hf⟩ | ⟨hb, hf⟩ <;> simp_all [Package.bringOn, bringUpImage]

/-- The steps before the last count one up. -/
theorem Package.bringOn_steps {p : Package} (h : p.bringUp ≤ 5) (hw : ¬p.BringUpWaits) (now : Nat) :
    ∃ q, p.bringOn now = some q ∧ q.bringUp = p.bringUp + 1 := by
  have hrun : ¬(bringUpImage p (p.bringUp + 1) ≠ 0 ∧ (p.fw[(bringUpImage p (p.bringUp + 1) + 2) % 3]).running.isNone = true) := by
    rintro ⟨h0, hn⟩
    apply hw
    have hcases : p.bringUp = 0 ∨ p.bringUp = 1 ∨ p.bringUp = 2 ∨ p.bringUp = 3 ∨ p.bringUp = 4 ∨ p.bringUp = 5 := by omega
    rcases hcases with hb | hb | hb | hb | hb | hb <;> simp_all [bringUpImage, Package.BringUpWaits]
  simp only [Package.bringOn, if_neg hrun]
  have hcases : p.bringUp = 0 ∨ p.bringUp = 1 ∨ p.bringUp = 2 ∨ p.bringUp = 3 ∨ p.bringUp = 4 ∨ p.bringUp = 5 := by omega
  rcases hcases with hb | hb | hb | hb | hb | hb <;> rw [hb]
  · exact ⟨_, rfl, Package.bringUp_verify _⟩
  · exact ⟨_, rfl, rfl⟩
  · exact ⟨_, rfl, rfl⟩
  · exact ⟨_, rfl, rfl⟩
  · exact ⟨_, rfl, rfl⟩
  · exact ⟨_, rfl, rfl⟩

/-- READY comes once no firmware waits for an image. -/
theorem Package.bringOn_ready {p : Package} (hb : p.bringUp = 6) (hr : p.isReady = false) (hrec : p.recovering = false) (now : Nat) :
    p.bringOn now = some { p with isReady := true } := by
  simp [Package.bringOn, bringUpImage, hb, hr, hrec]

theorem execReady_eq {s : State} {pkg : Nat} (hf : (s.pkgs.find pkg).isSome = true) (h1 : (s.pkg pkg).frozen = false)
    (h2 : (s.pkg pkg).halted = false) (h3 : (s.pkg pkg).fabricStopped = false) (h4 : (s.pkg pkg).away = false) :
    execReady pkg s = .next ((((s.pkg pkg).bringOn s.wall).map fun q => s.onPkg pkg fun _ => q).getD s) := by
  simp [execReady, evReady, Option.isSome_iff_ne_none.1 hf, h1, h2, h3, h4]

/-! ## Firmware by its number -/

theorem Package.fwAt_succ (p : Package) (i : Fin 3) : p.fwAt (i.val + 1) = p.fw[i] := by
  obtain ⟨n, hn⟩ := i
  have hcases : n = 0 ∨ n = 1 ∨ n = 2 := by omega
  rcases hcases with rfl | rfl | rfl <;> simp [Package.fwAt]

theorem Package.fw_mod (p : Package) (i : Fin 3) (h : (i.val + 1 + 2) % 3 < 3) : p.fw[(i.val + 1 + 2) % 3] = p.fw[i] := by
  obtain ⟨n, hn⟩ := i
  have hcases : n = 0 ∨ n = 1 ∨ n = 2 := by omega
  rcases hcases with rfl | rfl | rfl <;> simp

theorem Package.fw_onFw (p : Package) (i : Fin 3) (f : FwState → FwState) : (p.onFw (i.val + 1) f).fw[i] = f p.fw[i] := by
  obtain ⟨n, hn⟩ := i
  have hcases : n = 0 ∨ n = 1 ∨ n = 2 := by omega
  rcases hcases with rfl | rfl | rfl <;> simp [Package.onFw]

/-! ## Recovery, FREEZE and debug (R388, R391) -/

theorem execRecoveryImage_accepts {s : State} {pkg : Nat} {img : FwImage} {i : Fin 3} (hf : (s.pkgs.find pkg).isSome = true)
    (hruns : (s.pkg pkg).runs = true) (hi : img.fw = i.val + 1) (hrec : (s.pkg pkg).fw[i].recovery = true) (hsig : img.signed = true)
    (hfloor : (s.pkg pkg).fw[i].floor ≤ img.svn) (hsvn : img.svn < 2 ^ 16) (hsch : img.schema < 2 ^ 16) :
    ∃ t, execRecoveryImage pkg img s = .next t ∧ (t.pkg pkg).fw[i].recovery = false := by
  have hat : (s.pkg pkg).fwAt img.fw = (s.pkg pkg).fw[i] := by rw [hi, Package.fwAt_succ]
  have hcan : ¬(img.fw > 3 ∨ (!(s.pkg pkg).runs) = true ∨ (s.pkgs.find pkg).isNone = true ∨ (!((s.pkg pkg).fwAt img.fw).recovery) = true ∨
      (!img.signed) = true ∨ img.svn < ((s.pkg pkg).fwAt img.fw).floor ∨ img.svn ≥ 2 ^ 16 ∨ img.schema ≥ 2 ^ 16) := by
    have h3 : i.val < 3 := i.isLt
    have h4 : ¬img.fw > 3 := by omega
    have hnone : (s.pkgs.find pkg).isNone = false := by simpa using hf
    rw [hat, hruns, hrec, hsig, hnone]
    simp only [h4, Bool.not_true, Bool.false_eq_true, false_or, not_or, not_lt, not_le, ge_iff_le]
    exact ⟨hfloor, hsvn, hsch⟩
  have h0 : ¬img.fw = 0 := by omega
  have hfw : ∀ q : Package, q = s.pkg pkg → ∀ x : FwSlot, (q.onFw img.fw fun f => { f with running := some x, recovery := false }).fw[i].recovery = false :=
    fun q _ x => congrArg FwState.recovery (hi ▸ q.fw_onFw i _)
  simp only [execRecoveryImage, evRecoveryImage, if_neg hcan, if_neg h0, Option.getD_some]
  refine ⟨_, rfl, ?_⟩
  rw [State.pkg_onPkg]
  exact hfw _ rfl _

theorem execFreeze_freezes {s : State} {pkg : Nat} (hf : (s.pkgs.find pkg).isSome = true) (hz : (s.pkg pkg).frozen = false)
    (h : ∃ u, (s.pkg pkg).pins.find 2 = some u ∧ u + 1 = s.wall / 940) : ∃ t, execFreeze pkg s = .next t ∧ (t.pkg pkg).frozen = true := by
  have hcan : ¬((s.pkgs.find pkg).isNone = true ∨ (s.pkg pkg).frozen = true) := by simp [Option.isSome_iff_ne_none.1 hf, hz]
  simp only [execFreeze, evFreeze, if_neg hcan, State.onPin_agrees h, Option.getD_some]
  exact ⟨_, rfl, congrArg Package.frozen (State.pkg_onPkg ..)⟩

theorem execFreezeRelease_releases {s : State} {pkg : Nat} (hz : (s.pkg pkg).frozen = true)
    (h : ∃ u, (s.pkg pkg).pins.find 3 = some u ∧ u + 1 = s.wall / 940) : ∃ t, execFreezeRelease pkg s = .next t ∧ (t.pkg pkg).frozen = false := by
  simp only [execFreezeRelease, evFreezeRelease, if_pos hz, State.onPin_agrees h, Option.getD_some]
  exact ⟨_, rfl, congrArg Package.frozen (State.pkg_onPkg ..)⟩

theorem execDebugUnlock_unlocks {s : State} {pkg : Nat} (hf : (s.pkgs.find pkg).isSome = true) (hruns : (s.pkg pkg).runs = true)
    (hready : (s.pkg pkg).isReady = false) (hd : (s.pkg pkg).debug = false) (token : List Byte) :
    ∃ t, execDebugUnlock pkg token true s = .next t ∧ (t.pkg pkg).debug = true := by
  have hcan : ¬((s.pkgs.find pkg).isNone = true ∨ (s.pkg pkg).isReady = true ∨ (s.pkg pkg).debug = true ∨ (!true) = true ∨
      (!(s.pkg pkg).runs) = true) := by simp [Option.isSome_iff_ne_none.1 hf, hready, hd, hruns]
  simp only [execDebugUnlock, evDebugUnlock, if_neg hcan, Option.getD_some]
  exact ⟨_, rfl, congrArg Package.debug (State.pkg_onPkg ..)⟩

end Sys2Proof.Machine
end

section
/-! SUPPORT. The stages of a live replacement (R394 to R397), and with them where the firmware's events take place. -/

namespace Sys2Proof.Machine

/-! ## Staging -/

theorem execReplacementRequest_stages {s : State} {pkg : Nat} {img : FwImage} {i : Fin 3} {old : FwSlot} (hruns : (s.pkg pkg).runs = true)
    (hi : img.fw = i.val + 1) (hold : (s.pkg pkg).fw[i].running = some old) (hrepl : (s.pkg pkg).repl = none)
    (hlog : (s.pkg pkg).log.length < 4096) (hans : (s.pkg pkg).answers 0 = true) (hbody : img.body.length ≤ 2 ^ 26) (hsig : img.signed = true)
    (hfloor : (s.pkg pkg).fw[i].floor ≤ img.svn) (hsvn : img.svn < 2 ^ 16) (hsch : img.schema < 2 ^ 16)
    (hnext : img.schema = old.schema ∨ img.schema = old.schema + 1) :
    ∃ t r, execReplacementRequest pkg 0 img s = .next t ∧ (t.pkg pkg).repl = some r ∧ r.fw = img.fw ∧ r.phase = .staged := by
  have h3 : i.val < 3 := i.isLt
  have hcan : ¬((0 : Nat) ≠ 0 ∨ img.fw < 1 ∨ img.fw > 3 ∨ (!(s.pkg pkg).runs) = true ∨ (!(s.pkg pkg).answers 0) = true ∨ (s.pkg pkg).repl.isSome = true ∨
      (s.pkg pkg).log.length ≥ 4096 ∨ img.body.length > 2 ^ 26 ∨ (!img.signed) = true ∨ img.svn ≥ 2 ^ 16 ∨ img.schema ≥ 2 ^ 16) := by
    have h1 : ¬img.fw < 1 := by omega
    have h2 : ¬img.fw > 3 := by omega
    rw [hruns, hans, hrepl, hsig]
    simp only [h1, h2, ne_eq, not_true_eq_false, Bool.not_true, Bool.false_eq_true, Option.isSome_none, false_or, not_or, ge_iff_le, gt_iff_lt,
      not_le, not_lt]
    exact ⟨hlog, hbody, hsvn, hsch⟩
  have hfw : ∀ h : (img.fw + 2) % 3 < 3, (s.pkg pkg).fw[(img.fw + 2) % 3] = (s.pkg pkg).fw[i] := by
    rw [hi]
    exact fun h => (s.pkg pkg).fw_mod i h
  have hfit : ¬(img.svn < (s.pkg pkg).fw[i].floor ∨ (img.schema ≠ old.schema ∧ img.schema ≠ old.schema + 1)) := by omega
  simp only [execReplacementRequest, evReplacementRequest, if_neg hcan, hfw, hold, if_neg hfit, Option.getD_some]
  exact ⟨_, _, rfl, congrArg Package.repl (State.pkg_onPkg ..), rfl, rfl⟩

/-! ## From staging to commitment -/

theorem quiesceBound_eq (fw : Nat) : quiesceBound fw = if fw = 1 then 940000 else if fw = 2 then 1880000 else 37600 := by
  match fw with
  | 0 => rfl
  | 1 => rfl
  | 2 => rfl
  | n + 3 => rw [if_neg (by omega), if_neg (by omega)]; rfl

section
variable {s : State} {pkg : Nat} {r : Replacement} (hruns : (s.pkg pkg).runs = true) (hr : (s.pkg pkg).repl = some r)
include hruns hr

theorem execReplacementActivate_quiesces (hp : r.phase = .staged) (hq : s.atQuiesce pkg r.fw = true) :
    ∃ t x, execReplacementActivate pkg s = .next t ∧ (t.pkg pkg).repl = some x ∧ x.phase = .quiesced := by
  simp only [execReplacementActivate, evReplacementActivate, hr, hruns, hp, hq, Bool.not_true, Bool.false_eq_true, if_false, Option.getD_some]
  exact ⟨_, _, rfl, congrArg Package.repl (State.pkg_onPkg ..), rfl⟩

theorem execReplacementActivate_starts (hp : r.phase = .quiesced) (hw : s.wall ≤ r.since + quiesceBound r.fw) :
    ∃ t x, execReplacementActivate pkg s = .next t ∧ (t.pkg pkg).repl = some x ∧ x.phase = .probation := by
  simp only [execReplacementActivate, evReplacementActivate, hr, hruns, hp, Bool.not_true, Bool.false_eq_true, if_false,
    if_neg (Nat.not_lt.2 hw), gt_iff_lt, Option.getD_some]
  refine ⟨_, { r with phase := .probation, since := s.wall, wrote := s.wall }, rfl, ?_, rfl⟩
  rw [State.pkg, State.measureNotice_pkgs, ← State.pkg, State.pkg_onPkg]

theorem execHubWatchdogWrite_writes (hp : r.phase = .probation) (hw : s.wall < r.wrote + 9400000) :
    ∃ t x, execHubWatchdogWrite pkg s = .next t ∧ (t.pkg pkg).repl = some x ∧ x.wrote = s.wall := by
  have hexp : r.expired s.wall = false := by simp [Replacement.expired, hubWatchdog, hw]
  simp only [execHubWatchdogWrite, evHubWatchdogWrite, hr, hp, hruns, hexp, ne_eq, not_true_eq_false, Bool.not_true, Bool.false_eq_true, or_self,
    if_false, Option.getD_some]
  exact ⟨_, _, rfl, congrArg Package.repl (State.pkg_onPkg ..), rfl⟩

omit hruns hr in
theorem State.pkgs_grantsBack (s : State) (pkg : Nat) (was : SMap Grant) : (s.grantsBack pkg was).pkgs = s.pkgs := by
  simp only [State.grantsBack]
  refine List.foldlRecOn (motive := fun t : State => t.pkgs = s.pkgs) _ _ rfl fun t ht d _ => ?_
  refine List.foldlRecOn (motive := fun t : State => t.pkgs = s.pkgs) _ _ ht fun t ht die _ => ?_
  split
  · exact ht
  · rw [State.grantNotice_pkgs, ht]

theorem execRevert_reverts (hp : r.phase = .probation ∨ r.phase = .quiesced) : ∃ t, execRevert pkg s = .next t ∧ (t.pkg pkg).repl = none := by
  have hcan : ¬((r.phase ≠ .probation ∧ r.phase ≠ .quiesced) ∨ (!(s.pkg pkg).runs) = true) := by
    rintro (⟨h1, h2⟩ | h)
    · exact hp.elim h1 h2
    · simp [hruns] at h
  simp only [execRevert, evRevert, hr, if_neg hcan, Option.getD_some]
  refine ⟨_, rfl, ?_⟩
  rw [State.pkg, State.pkgs_grantsBack, State.measureNotice_pkgs, ← State.pkg, State.pkg_onPkg]

theorem execReplacementCommit_begins (hp : r.phase = .probation) (hw : s.wall < r.wrote + 9400000) (hs : r.since + 1880000000 ≤ s.wall) :
    ∃ t x, execReplacementCommit pkg s = .next t ∧ (t.pkg pkg).repl = some x ∧ x.phase = .committing := by
  have hcan : ¬(s.wall < r.since + probation ∨ r.expired s.wall = true) := by
    rintro (h | h)
    · rw [probation] at h
      omega
    · rw [Replacement.expired, hubWatchdog, decide_eq_true_eq] at h
      omega
  simp only [execReplacementCommit, evReplacementCommit, hr, hruns, hp, Bool.not_true, Bool.false_eq_true, if_false, if_neg hcan, Option.getD_some]
  exact ⟨_, _, rfl, congrArg Package.repl (State.pkg_onPkg ..), rfl⟩

omit hruns hr in
theorem Package.repl_raiseFloor (p : Package) (k : Nat) (x : FwSlot) : (p.raiseFloor k x).repl = p.repl := by
  simp only [Package.raiseFloor, Package.onFw]
  split
  · split <;> rfl
  · rfl

theorem execReplacementCommit_ends (hp : r.phase = .committing) : ∃ t, execReplacementCommit pkg s = .next t ∧ (t.pkg pkg).repl = none := by
  simp only [execReplacementCommit, evReplacementCommit, hr, hruns, hp, Bool.not_true, Bool.false_eq_true, if_false, Option.getD_some]
  refine ⟨_, rfl, ?_⟩
  rw [State.pkg_onPkg, Package.repl_raiseFloor, State.pkg, State.measureNotice_pkgs, ← State.pkg, State.pkg_onPkg]

end

/-! ## Where the events take place -/

/-- Bring-up goes on or waits. -/
theorem execReady_goes {s : State} {pkg : Nat} (hf : (s.pkgs.find pkg).isSome = true) (h1 : (s.pkg pkg).frozen = false)
    (h2 : (s.pkg pkg).halted = false) (h3 : (s.pkg pkg).fabricStopped = false) (h4 : (s.pkg pkg).away = false) :
    ((s.pkg pkg).bringUp ≤ 5 → ¬(s.pkg pkg).BringUpWaits → ∃ t, execReady pkg s = .next t ∧ (t.pkg pkg).bringUp = (s.pkg pkg).bringUp + 1) ∧
    ((s.pkg pkg).BringUpWaits → execReady pkg s = .next s) ∧
    ((s.pkg pkg).bringUp = 6 → (s.pkg pkg).isReady = false → (s.pkg pkg).recovering = false →
      ∃ t, execReady pkg s = .next t ∧ (t.pkg pkg).isReady = true) := by
  refine ⟨fun hb hw => ?_, fun hw => ?_, fun hb hr hrec => ?_⟩
  · obtain ⟨q, hq, hup⟩ := Package.bringOn_steps hb hw s.wall
    refine ⟨_, execReady_eq hf h1 h2 h3 h4, ?_⟩
    rw [hq, Option.map_some, Option.getD_some, State.pkg_onPkg, hup]
  · rw [execReady_eq hf h1 h2 h3 h4, Package.bringOn_waits hw, Option.map_none, Option.getD_none]
  · refine ⟨_, execReady_eq hf h1 h2 h3 h4, ?_⟩
    rw [Package.bringOn_ready hb hr hrec, Option.map_some, Option.getD_some, State.pkg_onPkg]

theorem Package.recovering_false {p : Package} (hl : p.loader.recovery = false) (hf : ∀ i : Fin 3, p.fw[i].recovery = false) : p.recovering = false := by
  simp only [Package.recovering, hl, Bool.false_or]
  exact Vector.any_eq_false.2 fun i hi => by simpa using hf ⟨i, hi⟩

/-- The events of firmware take place where their rules say so. -/
theorem firmwareCompletes (pkg conn : Nat) (c : Conn) (s s1 : State) : Claims.FirmwareCompletes pkg conn c s s1 := by
  refine ⟨fun hf hb => ⟨execPackageReset_resets hf hb, execPackageReset_samples hf hb⟩,
    fun hd _ hin => ⟨execResetFrame_other hin, fun hc _ => ⟨_, execResetFrame_resets hin hc, s1.fresh_resetPackage pkg⟩⟩,
    fun ⟨hf, h1, h2, h3, h4⟩ => ?_, fun img i ⟨hf, hruns⟩ hi hrec hsig hfloor hsvn hsch => execRecoveryImage_accepts hf hruns hi hrec hsig hfloor hsvn hsch,
    fun hf hz h => execFreeze_freezes hf hz h, fun _ hz h => execFreezeRelease_releases hz h,
    fun token ⟨hf, hruns⟩ hready hd => execDebugUnlock_unlocks hf hruns hready hd token,
    fun img i old ⟨_, hruns⟩ hi hold hrepl hlog hans hbody hsig hfloor hsvn hsch hnext =>
      execReplacementRequest_stages hruns hi hold hrepl hlog hans hbody hsig hfloor hsvn hsch hnext,
    fun r ⟨_, hruns⟩ hr => ⟨execReplacementActivate_quiesces hruns hr,
      fun hp hw => execReplacementActivate_starts hruns hr hp (by rw [quiesceBound_eq]; exact hw), execHubWatchdogWrite_writes hruns hr,
      execRevert_reverts hruns hr, execReplacementCommit_begins hruns hr, execReplacementCommit_ends hruns hr⟩⟩
  obtain ⟨hgo, hwait, hready⟩ := execReady_goes hf h1 h2 h3 h4
  refine ⟨fun h => hgo ?_ ?_, fun h => hwait ?_, fun hb hr hl hfw => hready hb hr (Package.recovering_false hl hfw)⟩
  · omega
  · rintro (⟨hb, hn⟩ | ⟨hb, hl, hn⟩ | ⟨hb, hn⟩)
    · have := h.resolve_left (by omega)
      simp_all
    · simp_all
    · simp_all
  · rcases h with ⟨hb, hn⟩ | ⟨hb, hl, hn⟩ | ⟨hb, hn⟩
    · exact .inl ⟨hb, by simpa using hn⟩
    · exact .inr (.inl ⟨hb, hl, by simpa using hn⟩)
    · exact .inr (.inr ⟨hb, by simpa using hn⟩)

end Sys2Proof.Machine
end

section
/-! SUPPORT. Notices to the registered actors (R387, R390), ports (R376, R377) and the directory map (R378). -/

namespace Sys2Proof.Machine

/-! ## Notices -/

/-- An entry of a table stays while another key is written; one at the written key is the value there before. -/
theorem SMap.mem_put_get {α : Type} (d : α) {m : SMap α} {k : Nat} (f : α → α) {q : Nat × α} (h : q ∈ m) :
    q ∈ m.put k (f (m.get d k)) ∨ (q.1 = k ∧ q.2 = m.get d k ∧ (k, f q.2) ∈ m.put k (f (m.get d k))) := by
  have hgen : ∀ v, q ∈ m.put k v ∨ (q.1 = k ∧ q.2 = m.get d k ∧ (k, v) ∈ m.put k v) := by
    intro v
    induction m with
    | nil => cases h
    | cons p m ih =>
      obtain ⟨j, w⟩ := p
      simp only [SMap.put, SMap.get]
      split
      · exact .inl (List.mem_cons_of_mem _ h)
      · split
        · rcases List.mem_cons.1 h with rfl | h
          · exact .inr ⟨by assumption, rfl, List.mem_cons_self⟩
          · exact .inl (List.mem_cons_of_mem _ h)
        · rcases List.mem_cons.1 h with rfl | h
          · exact .inl List.mem_cons_self
          · rcases ih h with h | ⟨h1, h2, h3⟩
            · exact .inl (List.mem_cons_of_mem _ h)
            · exact .inr ⟨h1, h2, List.mem_cons_of_mem _ h3⟩
  rcases hgen (f (m.get d k)) with h | ⟨h1, h2, h3⟩
  · exact .inl h
  · exact .inr ⟨h1, h2, by rw [h2]; exact h3⟩

/-- A registration of some package stays while a package changes nothing of its registrations. -/
theorem State.topoRegs_onPkg {s : State} {k q : Nat} {pq : Package} {r : Registration} {f : Package → Package}
    (hf : (f (s.pkg k)).topoRegs = (s.pkg k).topoRegs) (hq : (q, pq) ∈ s.pkgs) (hr : r ∈ pq.topoRegs) :
    ∃ q' pq', (q', pq') ∈ (s.onPkg k f).pkgs ∧ r ∈ pq'.topoRegs := by
  rcases SMap.mem_put_get Package.reset f hq with h | ⟨-, h2, h3⟩
  · exact ⟨q, pq, h, hr⟩
  · replace h2 : pq = s.pkg k := h2
    refine ⟨k, f pq, h3, ?_⟩
    rw [h2, hf, ← h2]
    exact hr

/-- Each registered actor of a list is told. -/
theorem State.tellAll_tells (s : State) (pkg die : Nat) {rs : List Registration} {r : Registration} (hr : r ∈ rs) (reason sub : Nat) (detail : W64) :
    ∃ n, Claims.signalled (s.tellAll pkg die rs reason sub detail) n r.name 6 reason sub r.name :=
  (State.carries_foldl (P := Packet.Tells r.name 6 reason sub r.name) (fun _ _ => State.later_signal ..) hr
    (fun _ => State.carries_signal ..) s).signalled

theorem State.topologyNotice_tells {s : State} {pkg q : Nat} {pq : Package} {r : Registration} (die sub unit : Nat) (hq : (q, pq) ∈ s.pkgs)
    (hr : r ∈ pq.topoRegs) (hg : (s.pkg pkg).holdsGrant r.domain = true) :
    ∃ n, Claims.signalled (s.topologyNotice pkg die sub unit) n r.name 6 rTopology sub r.name :=
  s.tellAll_tells pkg die (List.mem_filter.2 ⟨List.mem_flatMap.2 ⟨(q, pq), hq, hr⟩, hg⟩) rTopology sub _

theorem State.grantNotice_tells {s : State} {q : Nat} {pq : Package} {r : Registration} (pkg die : Nat) {dom : BitVec 16} (hq : (q, pq) ∈ s.pkgs)
    (hr : r ∈ pq.topoRegs) (hd : r.domain = dom) : ∃ n, Claims.signalled (s.grantNotice pkg die dom) n r.name 6 rTopology 6 r.name :=
  s.tellAll_tells pkg die (List.mem_filter.2 ⟨List.mem_flatMap.2 ⟨(q, pq), hq, hr⟩, by simp [hd]⟩) rTopology 6 _

/-! ## Ports -/

theorem Package.port_val (p : Package) (i : Fin 16) : p.port i.val = p.ports[i] := by
  have h : i.val % 16 = i.val := Nat.mod_eq_of_lt i.isLt
  simp only [Package.port, h, Fin.getElem_fin]

theorem Package.ports_setPort_same (p : Package) (i : Fin 16) (q : Port) : (p.setPort i.val q).ports[i] = q := by
  have h : i.val % 16 = i.val := Nat.mod_eq_of_lt i.isLt
  simp [Package.setPort, h]

theorem Package.ports_setPort_ne (p : Package) {i j : Fin 16} (q : Port) (hne : j ≠ i) : (p.setPort i.val q).ports[j] = p.ports[j] := by
  have h : i.val % 16 = i.val := Nat.mod_eq_of_lt i.isLt
  have hv : i.val ≠ j.val := fun he => hne (Fin.ext he).symm
  simp [Package.setPort, h, hv]

theorem hasLinks_of_form {p : Package} (h : p.form ≠ 3) : p.hasLinks = true := by simp [Package.hasLinks, h]

/-- The modes that a port may take (R376, R402). -/
def Port.May (q : Port) (low : Prop) : PortMode → Prop
  | .full => q.mode ≠ .full ∧ ¬low
  | .erasure => q.mode = .full
  | .narrow => q.mode = .full ∨ q.mode = .erasure ∨ q.mode = .down ∧ low
  | .down => q.mode ≠ .down

/-- A port takes a mode that it may take, with the lanes of that mode. -/
theorem Port.into_may {q : Port} {throttled : Bool} {m : PortMode} (h : q.May (throttled = true) m) : ∃ q', q.into throttled m = some q' ∧ q'.mode = m ∧
    (m = .full → q'.lanes = 8) ∧ (m = .erasure → q'.lanes = 7) ∧ (m = .down → q'.lanes < 4) := by
  cases m with
  | full =>
    obtain ⟨h1, h2⟩ := h
    exact ⟨_, if_neg (by simp [h1, h2]), rfl, fun _ => rfl, by simp, by simp⟩
  | erasure => exact ⟨_, if_pos h, rfl, by simp, fun _ => rfl, by simp⟩
  | narrow =>
    by_cases h1 : q.mode = .full ∨ q.mode = .erasure
    · exact ⟨_, if_pos h1, rfl, by simp, by simp, by simp⟩
    · have h2 : q.mode = .down ∧ throttled = true := by
        rcases h with h | h | h
        · exact absurd (.inl h) h1
        · exact absurd (.inr h) h1
        · exact h
      exact ⟨_, (if_neg h1).trans (if_pos h2), rfl, by simp, by simp, by simp⟩
  | down => exact ⟨_, if_neg h, rfl, by simp, by simp, fun _ => by simp⟩

theorem Port.into_not {q : Port} {throttled : Bool} {m : PortMode} (h : ¬q.May (throttled = true) m) : q.into throttled m = none := by
  cases m with
  | full => exact if_pos (by simp only [Port.May, not_and_or, not_not] at h; exact h)
  | erasure => exact if_neg h
  | narrow =>
    simp only [Port.May, not_or] at h
    obtain ⟨h1, h2, h3⟩ := h
    exact (if_neg (by simp [h1, h2])).trans (if_neg h3)
  | down => exact if_pos (not_not.1 h)

theorem execLinkModeChange_eq {s : State} {pkg : Nat} (i : Fin 16) (m : PortMode) (hf : (s.pkgs.find pkg).isSome = true)
    (hruns : (s.pkg pkg).runs = true) (hform : (s.pkg pkg).form ≠ 3) (hb : 4 ≤ (s.pkg pkg).bringUp) : execLinkModeChange pkg i.val m s =
      .next (((((s.pkg pkg).ports[i].into (decide ((s.pkg pkg).hub.knobs.headD 8 < 8)) m).map (s.portMode pkg i.val)).getD s)) := by
  have hi : ¬i.val ≥ 16 := by have := i.isLt; omega
  have hcan : ¬((s.pkgs.find pkg).isNone = true ∨ i.val ≥ 16 ∨ (!(s.pkg pkg).hasLinks) = true ∨ (!(s.pkg pkg).runs) = true ∨
      (s.pkg pkg).bringUp < 4) := by
    simp [Option.isSome_iff_ne_none.1 hf, hasLinks_of_form hform, hruns, hb]
  simp only [execLinkModeChange, evLinkModeChange, if_neg hcan, Package.port_val]

/-- A port in a new mode: the notice goes out, and the other ports stay. -/
theorem State.portMode_spec (s : State) (pkg : Nat) (i : Fin 16) (q : Port) : ((s.portMode pkg i.val q).pkg pkg).ports[i] = q ∧
    (∀ j, j ≠ i → ((s.portMode pkg i.val q).pkg pkg).ports[j] = (s.pkg pkg).ports[j]) ∧
    ∀ p pq r, (p, pq) ∈ s.pkgs → r ∈ pq.topoRegs → (s.pkg pkg).holdsGrant r.domain = true →
      ∃ n, Claims.signalled (s.portMode pkg i.val q) n r.name 6 rTopology 5 r.name := by
  rw [State.portMode_pkg]
  refine ⟨Package.ports_setPort_same .., fun j hj => Package.ports_setPort_ne _ _ hj, fun p pq r hp hr hg => ?_⟩
  obtain ⟨p', pq', hp', hr'⟩ := State.topoRegs_onPkg (k := pkg) (f := (·.setPort i.val q)) rfl hp hr
  exact State.topologyNotice_tells 0 5 i.val hp' hr' (by rw [State.pkg_onPkg]; exact hg)

theorem execLinkHeartbeat_eq {s : State} {pkg : Nat} (i : Fin 16) (answered : Bool) (hf : (s.pkgs.find pkg).isSome = true)
    (hruns : (s.pkg pkg).runs = true) (hform : (s.pkg pkg).form ≠ 3) (hm : (s.pkg pkg).ports[i].mode ≠ .down)
    (hbeat : (s.pkg pkg).ports[i].beat + 9400 ≤ s.wall) : execLinkHeartbeat pkg i.val answered s =
      .next (if answered then s.onPkg pkg fun p => p.setPort i.val { (s.pkg pkg).ports[i] with beat := s.wall, missed := 0 }
        else if (s.pkg pkg).ports[i].missed + 1 ≥ 8 then
          s.portMode pkg i.val { (s.pkg pkg).ports[i] with beat := s.wall, mode := .down, missed := (s.pkg pkg).ports[i].missed + 1 }
        else s.onPkg pkg fun p => p.setPort i.val { (s.pkg pkg).ports[i] with beat := s.wall, missed := (s.pkg pkg).ports[i].missed + 1 }) := by
  have hcan : ¬((s.pkgs.find pkg).isNone = true ∨ i.val ≥ 16 ∨ (!(s.pkg pkg).hasLinks) = true ∨ (!(s.pkg pkg).runs) = true ∨
      (s.pkg pkg).ports[i].mode = .down ∨ s.wall < (s.pkg pkg).ports[i].beat + 9400) := by
    simp only [not_or]
    refine ⟨by simp [Option.isSome_iff_ne_none.1 hf], by have := i.isLt; omega, by simp [hasLinks_of_form hform], by simp [hruns], hm, by omega⟩
  simp only [execLinkHeartbeat, evLinkHeartbeat, Package.port_val, if_neg hcan]
  split
  · rfl
  · split <;> rfl

/-! ## The directory map (R378) -/

theorem State.journals_frame (l : List (Nat × Package)) (pkg : Nat) (s : State) :
    (l.foldl (fun t p => t.journal p.1 3 jFabric [pkg]) s).dirMap = s.dirMap ∧ (l.foldl (fun t p => t.journal p.1 3 jFabric [pkg]) s).bare = s.bare := by
  refine List.foldlRecOn (motive := fun t : State => t.dirMap = s.dirMap ∧ t.bare = s.bare) l _ ⟨rfl, rfl⟩ fun t ht p _ => ?_
  rcases t.journal_cases p.1 3 jFabric [pkg] with ⟨f, h⟩ | h <;> rw [h]
  · exact ht
  · exact ht

/-- The entry that a slot takes when the holder of its mirror takes it over. -/
def State.remapSlot (s : State) (m : SMap Nat) (q : Nat) : SMap Nat :=
  match s.mirrorOf q with
  | some p => m.put q p
  | none => m

theorem State.remap_eq (s : State) (pkg : Nat) : s.remap pkg =
    { s with dirMap := (s.slotsOf pkg).foldl s.remapSlot s.dirMap, bare := (s.bare ++ s.slotsOf pkg).eraseDups } := rfl

theorem State.foldl_remapSlot_ne (s : State) {l : List Nat} {r : Nat} (h : r ∉ l) (m : SMap Nat) (d : Nat) :
    SMap.get d (l.foldl s.remapSlot m) r = SMap.get d m r :=
  List.foldlRecOn (motive := fun m' : SMap Nat => SMap.get d m' r = SMap.get d m r) l _ rfl fun m' hm q hq => by
    unfold State.remapSlot
    have hne : r ≠ q := fun he => h (by rw [he]; exact hq)
    split
    · rw [SMap.get_put_ne _ _ _ hne, hm]
    · exact hm

theorem State.foldl_remapSlot_mem (s : State) {l : List Nat} (hn : l.Nodup) {q p : Nat} (hq : q ∈ l) (hp : s.mirrorOf q = some p) (m : SMap Nat) (d : Nat) :
    SMap.get d (l.foldl s.remapSlot m) q = p := by
  obtain ⟨l1, l2, rfl, -, h2⟩ := List.split_of_nodup hn hq
  rw [List.foldl_append, List.foldl_cons, s.foldl_remapSlot_ne h2, State.remapSlot, hp, SMap.get_put_same]

theorem State.slotsOf_nodup (s : State) (pkg : Nat) : (s.slotsOf pkg).Nodup := List.nodup_range.filter _

theorem State.mem_slotsOf {s : State} {pkg q : Nat} : q ∈ s.slotsOf pkg ↔ q < s.npkg ∧ s.dirPackage q = pkg := by
  simp [State.slotsOf]

/-- The holder of a slot's mirror is that of the first later slot that is not lost. -/
theorem State.mirrorOf_eq {s : State} {q i : Nat} (hi : i < s.npkg) (hl : (s.pkg (s.dirPackage ((q + 1 + i) % s.npkg))).lost = false)
    (hb : ∀ j, j < i → (s.pkg (s.dirPackage ((q + 1 + j) % s.npkg))).lost = true) :
    s.mirrorOf q = some (s.dirPackage ((q + 1 + i) % s.npkg)) := by
  have hmax : Max.max 1 s.npkg = s.npkg := Nat.max_eq_right (by omega)
  rw [State.mirrorOf, hmax, List.find?_map, Option.map_eq_some_iff]
  refine ⟨i, List.find?_range_eq_some.2 ⟨by simp [hl], List.mem_range.2 hi, fun j hj => by simp [hb j hj]⟩, rfl⟩

/-- No live package is quiesced in its fabric firmware or frozen. -/
def State.Still (s : State) : Prop := ∀ q pq, (q, pq) ∈ s.pkgs → pq.lost = false → pq.quiesced 3 = false ∧ pq.frozen = false

theorem State.still_iff (s : State) : s.Still ↔ ((s.pkgs.filter fun p => !p.2.lost).any fun p => p.2.quiesced 3 || p.2.frozen) = false := by
  simp only [State.Still, List.any_eq_false, List.mem_filter, Bool.or_eq_true, not_or, Bool.not_eq_true, Prod.forall, and_imp,
    Bool.not_eq_eq_eq_not, Bool.not_true]

theorem execDirectoryMapUpdate_busy {s : State} (pkg : Nat) (h : ¬s.Still) : execDirectoryMapUpdate pkg s = .next s := by
  rw [State.still_iff, Bool.not_eq_false] at h
  simp only [execDirectoryMapUpdate, evDirectoryMapUpdate, h, if_true, Option.getD_none]

theorem execDirectoryMapUpdate_remaps {s : State} {pkg q : Nat} (h : s.Still) (hl : (s.pkg pkg).lost = true) (hq : q ∈ s.slotsOf pkg) :
    execDirectoryMapUpdate pkg s =
      .next ((s.pkgs.filter fun p => !p.2.lost).foldl (fun t p => t.journal p.1 3 jFabric [pkg]) (s.remap pkg)) := by
  rw [State.still_iff] at h
  have hne : (s.slotsOf pkg).isEmpty = false := by
    cases hs : s.slotsOf pkg with
    | nil => rw [hs] at hq; cases hq
    | cons a l => rfl
  simp only [execDirectoryMapUpdate, evDirectoryMapUpdate, h, hl, hne, Bool.false_eq_true, if_false, Bool.not_false, and_self, if_true, Option.getD_some]

theorem execDirectoryMapUpdate_mirrors {s : State} {pkg : Nat} (h : s.Still)
    (hn : (s.pkg pkg).lost = false ∨ ∀ q, q < s.npkg → s.dirPackage q ≠ pkg) (hb : s.bare ≠ []) : execDirectoryMapUpdate pkg s =
      .next ((s.pkgs.filter fun p => !p.2.lost).foldl (fun t p => t.journal p.1 3 jFabric [pkg]) { s with bare := [] }) := by
  rw [State.still_iff] at h
  have hnot : ¬((s.pkg pkg).lost = true ∧ (!(s.slotsOf pkg).isEmpty) = true) := by
    rintro ⟨hl, he⟩
    rcases hn with hn | hn
    · rw [hn] at hl
      cases hl
    · have hnil : s.slotsOf pkg = [] := List.eq_nil_iff_forall_not_mem.2 fun q hq => hn q (State.mem_slotsOf.1 hq).1 (State.mem_slotsOf.1 hq).2
      rw [hnil] at he
      cases he
  have hbare : s.bare.isEmpty = false := by simpa using hb
  simp only [execDirectoryMapUpdate, evDirectoryMapUpdate, h, hbare, Bool.false_eq_true, if_false, if_neg hnot, Option.getD_some]

end Sys2Proof.Machine
end

section
/-! SUPPORT. Frames of the host and connections (R380, R421). -/

namespace Sys2Proof.Machine

/-! ## The journal -/

/-- A journal entry changes nothing of a package but its replacement. -/
theorem Package.journaled_eq (p : Package) (fw kind : Nat) (ops : List Nat) : ∃ r, p.journaled fw kind ops = { p with repl := r } := by
  unfold Package.journaled
  split
  · split
    · exact ⟨_, rfl⟩
    · exact ⟨p.repl, rfl⟩
  · exact ⟨p.repl, rfl⟩

theorem State.pkg_journal (s : State) (pkg fw kind : Nat) (ops : List Nat) : ∃ r, (s.journal pkg fw kind ops).pkg pkg = { s.pkg pkg with repl := r } := by
  unfold State.journal
  split
  · rw [State.pkg_onPkg]
    exact (s.pkg pkg).journaled_eq fw kind ops
  · exact ⟨(s.pkg pkg).repl, rfl⟩

theorem State.conns_journal (s : State) (pkg fw kind : Nat) (ops : List Nat) : ((s.journal pkg fw kind ops).pkg pkg).conns = (s.pkg pkg).conns := by
  obtain ⟨r, h⟩ := s.pkg_journal pkg fw kind ops
  rw [h]

theorem State.grants_journal (s : State) (pkg fw kind : Nat) (ops : List Nat) : ((s.journal pkg fw kind ops).pkg pkg).grants = (s.pkg pkg).grants := by
  obtain ⟨r, h⟩ := s.pkg_journal pkg fw kind ops
  rw [h]

theorem State.topoRegs_journal {s : State} {q : Nat} {pq : Package} {r : Registration} (pkg fw kind : Nat) (ops : List Nat) (hq : (q, pq) ∈ s.pkgs)
    (hr : r ∈ pq.topoRegs) : ∃ q' pq', (q', pq') ∈ (s.journal pkg fw kind ops).pkgs ∧ r ∈ pq'.topoRegs := by
  unfold State.journal
  split
  · obtain ⟨x, hx⟩ := (s.pkg pkg).journaled_eq fw kind ops
    exact State.topoRegs_onPkg (by rw [hx]) hq hr
  · exact ⟨q, pq, hq, hr⟩

theorem State.journal_later (s : State) (pkg fw kind : Nat) (ops : List Nat) : s.Later (s.journal pkg fw kind ops) := by
  rcases s.journal_cases pkg fw kind ops with ⟨f, h⟩ | h <;> rw [h]
  · exact .of_eq rfl rfl
  · exact .refl s

theorem State.dirEntry_journal (s : State) (pkg fw kind : Nat) (ops : List Nat) (name : W64) :
    (s.journal pkg fw kind ops).dirEntry name = s.dirEntry name := by
  rw [State.dirEntry, (s.journal_frame pkg fw kind ops).2.1, State.dirEntry]

/-! ## Frames (R380) -/

/-- Nothing is acknowledged by a number that no frame has. -/
theorem unackedAfter_none {l : List Frame} {ackn : Nat} (h : ∀ f ∈ l, f.psn ≠ ackn) : unackedAfter l ackn = l := by
  have hany : (l.any fun f => f.psn == ackn) = false := List.any_eq_false.2 fun f hf => by simpa using h f hf
  rw [unackedAfter, hany, if_neg Bool.false_ne_true]

/-- What follows the frame of an acknowledgement stays. -/
theorem unackedAfter_append {a b : List Frame} {f : Frame} {ackn : Nat} (ha : ∀ x ∈ a, x.psn ≠ ackn) (hf : f.psn = ackn) :
    unackedAfter (a ++ f :: b) ackn = b := by
  have hany : ((a ++ f :: b).any fun f => f.psn == ackn) = true :=
    List.any_eq_true.2 ⟨f, List.mem_append_right _ List.mem_cons_self, by simp [hf]⟩
  have hdrop : (a ++ f :: b).dropWhile (fun f => f.psn != ackn) = f :: b := by
    rw [List.dropWhile_append_of_pos (fun x hx => by simpa using ha x hx), List.dropWhile_cons_of_neg (by simp [hf])]
  rw [unackedAfter, hany, if_pos rfl, hdrop]
  rfl

/-- Where the port takes frames of a class. -/
def State.PortOpen (s : State) (pkg cls : Nat) : Prop :=
  (s.pkgs.find pkg).isSome = true ∧ (s.pkg pkg).runs = true ∧ (s.pkg pkg).answers cls = true ∧ (cls = 0 → (s.pkg pkg).quiesced 1 = false) ∧
    (cls = 1 → (s.pkg pkg).quiesced 2 = false)

/-- The frames that stay unacknowledged once a frame has come. -/
def Conn.leftAfter (c : Conn) (hd : FrameHead) : List Frame := if hd.flags.getLsbD 0 then unackedAfter c.unacked hd.ackn.toNat else c.unacked

/-- Whether the port discards a frame, apart from its number. -/
theorem State.frameIn_guard {s : State} {pkg cls : Nat} (ho : s.PortOpen pkg cls) {hd : FrameHead} (hver : hd.ver = 1) :
    ¬((s.pkgs.find pkg).isNone = true ∨ (!(s.pkg pkg).runs) = true ∨ (!(s.pkg pkg).answers cls) = true ∨ hd.ver ≠ 1 ∨
      (cls = 0 ∧ (s.pkg pkg).quiesced 1 = true) ∨ (cls = 1 ∧ (s.pkg pkg).quiesced 2 = true)) := by
  obtain ⟨hf, hruns, hans, h0, h1⟩ := ho
  simp only [not_or, not_and, hruns, hans, hver, Bool.not_true, Bool.false_eq_true, not_false_eq_true, ne_eq, not_true_eq_false, true_and,
    Bool.not_eq_true]
  exact ⟨by simpa using hf, h0, h1⟩

theorem State.frameIn_takes {s : State} {pkg cls : Nat} {hd : FrameHead} {c : Conn} (ho : s.PortOpen pkg cls)
    (hc : (s.pkg pkg).conns.find hd.conn = some c) (hver : hd.ver = 1) (hpsn : hd.psn.toNat = c.psnIn) (frames : Nat) :
    s.frameIn pkg cls hd frames = some (c, s.onPkg pkg fun p =>
      { p with conns := p.conns.put hd.conn { c with psnIn := (c.psnIn + frames) % 2 ^ 32, unacked := c.leftAfter hd } }) := by
  simp only [State.frameIn]
  rw [if_neg (State.frameIn_guard ho hver), hc, Option.bind_some, if_neg (by simp [hpsn])]
  rfl

theorem State.frameIn_discards {s : State} {pkg cls : Nat} {hd : FrameHead} {c : Conn} (hc : (s.pkg pkg).conns.find hd.conn = some c)
    (h : hd.ver ≠ 1 ∨ hd.psn.toNat ≠ c.psnIn) (frames : Nat) : s.frameIn pkg cls hd frames = none := by
  simp only [State.frameIn]
  split
  · rfl
  · rename_i hguard
    have hpsn : hd.psn.toNat ≠ c.psnIn := h.resolve_left fun hver => hguard (.inr (.inr (.inr (.inl hver))))
    rw [hc, Option.bind_some, if_pos hpsn]

/-- In recovery mode, and before READY, only frames of class 0 are taken. -/
theorem State.frameIn_recovering {s : State} {pkg cls : Nat} (hcls : cls ≠ 0) (h : (s.pkg pkg).recovering = true ∨ (s.pkg pkg).isReady = false)
    (hd : FrameHead) (frames : Nat) : s.frameIn pkg cls hd frames = none := by
  have hans : (s.pkg pkg).answers cls = false := by
    simp only [Package.answers]
    rcases h with h | h
    · simp [h, hcls]
    · simp [h, hcls]
  simp only [State.frameIn]
  rw [if_pos (.inr (.inr (.inl (by rw [hans]; rfl))))]

/-- What a frame that is taken changes: the connection. -/
theorem State.frameIn_some {s s1 : State} {pkg cls frames : Nat} {hd : FrameHead} {c : Conn} (h : s.frameIn pkg cls hd frames = some (c, s1)) :
    ∃ c1, s1 = s.onPkg pkg fun p => { p with conns := p.conns.put hd.conn c1 } := by
  simp only [State.frameIn] at h
  split at h
  · cases h
  · obtain ⟨c0, -, h⟩ := Option.bind_eq_some_iff.1 h
    split at h
    · cases h
    · obtain ⟨-, rfl⟩ := Prod.mk.inj (Option.some.inj h)
      exact ⟨_, rfl⟩

/-- Its connection stands. -/
theorem State.conn_frameIn {s s1 : State} {pkg cls frames : Nat} {hd : FrameHead} {c : Conn} (h : s.frameIn pkg cls hd frames = some (c, s1)) :
    ∃ c1, (s1.pkg pkg).conns.find hd.conn = some c1 := by
  obtain ⟨c1, rfl⟩ := State.frameIn_some h
  exact ⟨c1, by rw [State.pkg_onPkg, SMap.find_put_same]⟩

/-! ## Connections (R380, R421) -/

/-- The directory entry of a gateway actor: the host port (R154). -/
def gatewayEntry (pkg conn : Nat) : DirEntry :=
  { name := gatewayName conn, inc := 0, state := 1, pkg := pkg, die := hostDie, kind := 1, cidx := 1023, slot := 0, supv := 0, rrec := 0 }

theorem execConnectionOpen_opens {s : State} {pkg conn dom : Nat} (ho : s.PortOpen pkg 0) (hconn : conn < 2 ^ 32) (hdom : dom < 2 ^ 16)
    (hnew : (s.pkg pkg).conns.find conn = none) (hname : s.dirEntry (gatewayName conn) = none) : execConnectionOpen pkg conn dom s =
      .next (((s.journal pkg 1 jConn [conn, dom]).onPkg pkg fun p =>
        { p with conns := p.conns.put conn { domain := BitVec.ofNat 16 dom } }).setDir (gatewayEntry pkg conn)) := by
  obtain ⟨hf, hruns, hans, hq, -⟩ := ho
  have hcan : ¬((s.pkgs.find pkg).isNone = true ∨ (!(s.pkg pkg).runs) = true ∨ (!(s.pkg pkg).answers 0) = true ∨ conn ≥ 2 ^ 32 ∨ dom ≥ 2 ^ 16 ∨
      ((s.pkg pkg).conns.find conn).isSome = true ∨ (s.pkg pkg).quiesced 1 = true ∨ (s.dirEntry (gatewayName conn)).isSome = true) := by
    rw [hnew, hname, hruns, hans, hq rfl]
    simp only [not_or]
    refine ⟨by simp [Option.isSome_iff_ne_none.1 hf], by simp, by simp, by omega, by omega, by simp, by simp, by simp⟩
  simp only [execConnectionOpen, evConnectionOpen, if_neg hcan, Option.getD_some]
  rfl

theorem execConnectionClose_closes {s : State} {pkg conn : Nat} {c : Conn} (hc : (s.pkg pkg).conns.find conn = some c)
    (hruns : (s.pkg pkg).runs = true) (hq : (s.pkg pkg).quiesced 1 = false) (byHost : Bool) : execConnectionClose pkg conn byHost s =
      .next ((s.closeConn pkg conn (if byHost then rNormal else rKilled)).journal pkg 1 jConn [conn]) := by
  have hcan : ¬(((s.pkg pkg).conns.find conn).isNone = true ∨ (!(s.pkg pkg).runs) = true ∨ (s.pkg pkg).quiesced 1 = true) := by
    simp [hc, hruns, hq]
  simp only [execConnectionClose, evConnectionClose, if_neg hcan, Option.getD_some]

/-- A connection that closes: it is gone with its gateway actor's name, and each linked peer gets an EXIT. -/
theorem State.closeConn_spec (s : State) (pkg conn reason : Nat) :
    let t := s.closeConn pkg conn reason
    (t.pkg pkg).conns.find conn = none ∧ t.dirEntry (gatewayName conn) = none ∧
      ∀ l ∈ (s.pkg pkg).gwLinks, l.gateway = gatewayName conn → l.kind = 1 → t.Carries (Packet.Tells l.peer 1 reason 0 (gatewayName conn)) := by
  refine ⟨?_, State.dirEntry_freeName _ _, fun l hl hg hk => ?_⟩
  · simp only [State.closeConn, State.pkg_onPkg, SMap.find_del_same]
  · have hmem : ({ kind := l.kind, slot := 0, ref := l.ref, peer := l.peer, pinc := l.pinc } : LinkEntry) ∈
        (((s.pkg pkg).gwLinks.filter fun l => l.gateway == gatewayName conn).filter (·.kind == 1)).map fun l =>
          ({ kind := l.kind, slot := 0, ref := l.ref, peer := l.peer, pinc := l.pinc } : LinkEntry) :=
      List.mem_map.2 ⟨l, List.mem_filter.2 ⟨List.mem_filter.2 ⟨hl, by simp [hg]⟩, by simp [hk]⟩, rfl⟩
    exact (State.sendExit_tells_linked s pkg hostDie _ 0
      { name := gatewayName conn, inc := s.liveInc (gatewayName conn), reason := reason, sub := 0, detail := 0 } hmem).later (.of_eq rfl rfl)

/-! ## Retransmission -/

theorem execHostRetransmit_sends {s : State} {pkg conn : Nat} {c : Conn} {f : Frame} {fs : List Frame} (hc : (s.pkg pkg).conns.find conn = some c)
    (hu : c.unacked = f :: fs) (hold : f.sentAt + 47000 ≤ s.wall) (hruns : (s.pkg pkg).runs = true) : execHostRetransmit pkg conn s =
      .next (s.onPkg pkg fun p => { p with conns := p.conns.put conn { c with unacked := { f with sentAt := s.wall } :: fs } }) := by
  simp only [execHostRetransmit, evHostRetransmit, hc, hu]
  rw [if_pos ⟨hold, hruns⟩]
  rfl

end Sys2Proof.Machine
end

section
/-! SUPPORT. Launches (R21 to R24, R381): the code that refuses one, and what one that is accepted creates. -/

namespace Sys2Proof.Machine

/-! ## The code that refuses a launch -/

/-- The reasons to refuse a launch, by code (R22, R381). -/
def State.LaunchRefused (s : State) (pkg : Nat) (c : Conn) (d : Nat → Nat) (f : Flock) (flock k : Nat) : Prop :=
  if k = 1 then d 0 / 2 ^ 56 ≠ 1 ∨ d 0 / 2 ^ 32 % 2 ^ 9 ≠ 0 ∨ 2 ^ 36 ≤ d 2 ∨ 2 ^ 48 ≤ d 3 ∨ 2 ^ 32 ≤ d 6 ∨ d 7 ≠ 0
  else if k = 2 then f.nfield = 0 ∨ 6 < f.nfield ∨ f.nfield < f.place ∨ f.nfield < f.supvl ∨ f.nfield < f.succl ∨ 0 ∈ f.widths ∨
    (∃ i, f.nfield ≤ i ∧ i < 6 ∧ d 2 / 2 ^ (30 - 6 * i) % 64 ≠ 0) ∨ 48 < f.widths.sum
  else if k = 3 then f.init = 0 ∨ 2 ^ f.widths.sum < f.init ∨ (f.widths.sum = 48 ∧ 2 ^ 48 - 1 < f.init)
  else if k = 4 then s.image f.image.toNat 1 = none
  else if k = 5 then f.domain ≠ c.domain
  else if k = 6 then f.supv ≠ 0 ∧ s.liveSupervisor f.supv f.domain = false
  else if k = 7 then f.maxlive ≠ 0 ∧ f.maxlive < f.init
  else k = 8 ∧ ((s.pkg pkg).liveGrant f.domain = [] ∨ flock = 0)

/-- The widths of fields beyond the last are not all 0. -/
theorem launch_beyond_iff (d : Nat → Nat) (n : Nat) :
    ((List.range (6 - n)).any fun i => bits (d 2) (35 - 6 * (n + i)) (30 - 6 * (n + i)) != 0) = true ↔
      ∃ i, n ≤ i ∧ i < 6 ∧ d 2 / 2 ^ (30 - 6 * i) % 64 ≠ 0 := by
  have hbits : ∀ i, i < 6 → bits (d 2) (35 - 6 * i) (30 - 6 * i) = d 2 / 2 ^ (30 - 6 * i) % 64 := fun i hi => by
    rw [bits_eq_div, show 35 - 6 * i + 1 - (30 - 6 * i) = 6 by omega]
    rfl
  simp only [List.any_eq_true, List.mem_range, bne_iff_ne]
  constructor
  · rintro ⟨i, hi, h⟩
    exact ⟨n + i, by omega, by omega, by rw [← hbits _ (by omega)]; exact h⟩
  · rintro ⟨i, hn, hi, h⟩
    refine ⟨i - n, by omega, ?_⟩
    rw [show n + (i - n) = i by omega, hbits i hi]
    exact h

section
variable (s : State) (pkg : Nat) (c : Conn) {d : Nat → Nat} (f : Flock) (flock : Nat)

/-- The first test: the reserved fields (R21). -/
theorem launch_fields_iff (hd : ∀ i, d i < 2 ^ 64) : (bits (d 0) 63 56 ≠ 1 ∨ bits (d 0) 40 32 ≠ 0 ∨ bits (d 2) 63 36 ≠ 0 ∨ bits (d 3) 63 48 ≠ 0 ∨
    bits (d 6) 63 32 ≠ 0 ∨ d 7 ≠ 0) ↔ s.LaunchRefused pkg c d f flock 1 := by
  have h0 := hd 0
  have h2 := hd 2
  have h3 := hd 3
  have h6 := hd 6
  simp only [State.LaunchRefused, if_true, bits_eq_div]
  omega

theorem launch_shape_iff : (f.nfield = 0 ∨ f.nfield > 6 ∨ f.place > f.nfield ∨ f.supvl > f.nfield ∨ f.succl > f.nfield ∨ f.widths.contains 0 = true ∨
    ((List.range (6 - f.nfield)).any fun i => bits (d 2) (35 - 6 * (f.nfield + i)) (30 - 6 * (f.nfield + i)) != 0) = true ∨ f.widths.sum > 48) ↔
      s.LaunchRefused pkg c d f flock 2 := by
  rw [launch_beyond_iff, List.contains_iff_mem]
  exact Iff.rfl

/-- The code is the first that applies; 0 where none of the first seven does and the grant has a cluster. -/
theorem State.launchCode_eq (hd : ∀ i, d i < 2 ^ 64) : s.launchCode pkg c d f =
    (open Classical in
      if s.LaunchRefused pkg c d f flock 1 then 1 else if s.LaunchRefused pkg c d f flock 2 then 2
      else if s.LaunchRefused pkg c d f flock 3 then 3 else if s.LaunchRefused pkg c d f flock 4 then 4
      else if s.LaunchRefused pkg c d f flock 5 then 5 else if s.LaunchRefused pkg c d f flock 6 then 6
      else if s.LaunchRefused pkg c d f flock 7 then 7 else if (s.pkg pkg).liveGrant f.domain = [] then 8 else 0) := by
  have h4 : (s.image f.image.toNat 1).isNone = true ↔ s.LaunchRefused pkg c d f flock 4 := Option.isNone_iff_eq_none
  have h6 : (f.supv ≠ 0 ∧ (!s.liveSupervisor f.supv f.domain) = true) ↔ s.LaunchRefused pkg c d f flock 6 :=
    and_congr_right fun _ => by simp
  classical
  exact if_congr (launch_fields_iff s pkg c f flock hd) rfl <| if_congr (launch_shape_iff s pkg c f flock) rfl <| if_congr Iff.rfl rfl <|
    if_congr h4 rfl <| if_congr Iff.rfl rfl <| if_congr h6 rfl <| if_congr Iff.rfl rfl <| if_congr List.isEmpty_iff rfl rfl

/-- The code of a launch that some code refuses, by the first that does. -/
theorem State.launchCode_first (hd : ∀ i, d i < 2 ^ 64) {k : Nat} (h1 : 1 ≤ k) (h8 : k ≤ 8) (hk : s.LaunchRefused pkg c d f flock k)
    (hf : ∀ j, 1 ≤ j → j < k → ¬s.LaunchRefused pkg c d f flock j) :
    s.launchCode pkg c d f = k ∨ k = 8 ∧ s.launchCode pkg c d f = 0 ∧ flock = 0 := by
  rw [s.launchCode_eq pkg c f flock hd]
  have hbelow : ∀ j, 1 ≤ j → j < k → (s.LaunchRefused pkg c d f flock j ↔ False) := fun j h1 hj => iff_false_intro (hf j h1 hj)
  rcases Nat.lt_or_ge k 8 with hlt | hge
  · exact .inl (by interval_cases k <;> simp only [hbelow, hk, Nat.reduceLT, Nat.reduceLeDiff, if_true, if_false])
  · obtain rfl : k = 8 := by omega
    by_cases hg : (s.pkg pkg).liveGrant f.domain = []
    · exact .inl (by simp [hbelow, hg])
    · exact .inr ⟨rfl, by simp [hbelow, hg], hk.2.resolve_left hg⟩

theorem State.launchCode_none (hd : ∀ i, d i < 2 ^ 64) (h : ∀ k, 1 ≤ k → k ≤ 8 → ¬s.LaunchRefused pkg c d f flock k) :
    s.launchCode pkg c d f = 0 ∧ flock ≠ 0 := by
  have h8 : ¬((s.pkg pkg).liveGrant f.domain = [] ∨ flock = 0) := fun hn => h 8 (by omega) (by omega) ⟨rfl, hn⟩
  refine ⟨?_, fun hz => h8 (.inr hz)⟩
  rw [s.launchCode_eq pkg c f flock hd, if_neg (h 1 (by omega) (by omega)), if_neg (h 2 (by omega) (by omega)), if_neg (h 3 (by omega) (by omega)),
    if_neg (h 4 (by omega) (by omega)), if_neg (h 5 (by omega) (by omega)), if_neg (h 6 (by omega) (by omega)), if_neg (h 7 (by omega) (by omega)),
    if_neg fun hg => h8 (.inl hg)]

end

/-! ## What a launch creates -/

/-- A name of a flock that is pending under its supervisor. -/
def State.PendingUnder (t : State) (supv name : W64) : Prop := ∃ e, t.dirEntry name = some e ∧ e.state = 3 ∧ e.supv = supv

/-- One initial actor of a flock. -/
def State.createActor (pkg n : Nat) (f : Flock) (mx : Bool) (s : State) (i : Nat) : State :=
  let e := f.initial n i (s.liveInc f.gateway)
  let core := (s.stewardCore pkg f e.name mx).getD (pkg * 65536)
  (s.enterPending core e f.image).post pkg (.feed e core)

theorem State.createFlock_eq (s : State) (pkg n : Nat) (f : Flock) (mx : Bool) :
    s.createFlock pkg n f mx = (List.range f.init).foldl (State.createActor pkg n f mx) s := rfl

theorem State.createActor_frame (pkg n : Nat) (f : Flock) (mx : Bool) (s : State) (i : Nat) :
    (State.createActor pkg n f mx s i).flocks = s.flocks ∧ (State.createActor pkg n f mx s i).pkgs = s.pkgs := ⟨rfl, rfl⟩

/-- The actor's own name is pending, and so stays every other one that is. -/
theorem State.createActor_pending (pkg n : Nat) (f : Flock) (mx : Bool) (s : State) (i : Nat) :
    (State.createActor pkg n f mx s i).PendingUnder f.supv (BitVec.ofNat 64 (n * 2 ^ 48 + i)) ∧
      ∀ name, s.PendingUnder f.supv name → (State.createActor pkg n f mx s i).PendingUnder f.supv name := by
  have hown : (State.createActor pkg n f mx s i).PendingUnder f.supv (BitVec.ofNat 64 (n * 2 ^ 48 + i)) :=
    ⟨_, State.dirEntry_setDir_of_eq s rfl, rfl, rfl⟩
  refine ⟨hown, fun name ⟨e, he, h3, hsup⟩ => ?_⟩
  by_cases hn : name = BitVec.ofNat 64 (n * 2 ^ 48 + i)
  · rw [hn]
    exact hown
  · exact ⟨e, (State.dirEntry_setDir_ne s _ hn).trans he, h3, hsup⟩

theorem State.createFlock_spec (s : State) (pkg n : Nat) (f : Flock) (mx : Bool) :
    (s.createFlock pkg n f mx).flocks = s.flocks ∧ (s.createFlock pkg n f mx).pkgs = s.pkgs ∧
      ∀ i, i < f.init → (s.createFlock pkg n f mx).PendingUnder f.supv (BitVec.ofNat 64 (n * 2 ^ 48 + i)) := by
  rw [State.createFlock_eq]
  generalize f.init = m
  induction m with
  | zero => exact ⟨rfl, rfl, fun i hi => absurd hi (Nat.not_lt_zero i)⟩
  | succ m ih =>
    obtain ⟨hfl, hpk, hall⟩ := ih
    rw [List.range_succ, List.foldl_append, List.foldl_cons, List.foldl_nil]
    obtain ⟨hown, hkeep⟩ := State.createActor_pending pkg n f mx ((List.range m).foldl (State.createActor pkg n f mx) s) m
    refine ⟨hfl, hpk, fun i hi => ?_⟩
    rcases Nat.lt_succ_iff_lt_or_eq.1 hi with h | rfl
    · exact hkeep _ (hall i h)
    · exact hown

/-- A reply frame joins the frames of its connection that await an ACK. -/
theorem State.replyOut_last {s : State} {pkg conn : Nat} {c : Conn} (hc : (s.pkg pkg).conns.find conn = some c) (cls : Nat) (name arg : W64)
    (words : List W64) : ∃ x g, ((s.replyOut pkg conn cls name arg words).pkg pkg).conns.find conn = some x ∧ x.unacked.getLast? = some g ∧
      g.cls = cls ∧ g.flags = 3 ∧ g.arg = arg := by
  simp only [State.replyOut, State.frameFlagged, hc, State.pkg_onPkg, SMap.find_put_same]
  exact ⟨_, _, rfl, List.getLast?_concat .., rfl, rfl, rfl⟩

theorem State.flocks_replyOut (s : State) (pkg conn cls : Nat) (name arg : W64) (words : List W64) :
    (s.replyOut pkg conn cls name arg words).flocks = s.flocks := by
  unfold State.replyOut State.frameFlagged
  split <;> rfl

theorem State.flocks_journal (s : State) (pkg fw kind : Nat) (ops : List Nat) : (s.journal pkg fw kind ops).flocks = s.flocks := by
  rcases s.journal_cases pkg fw kind ops with ⟨f, h⟩ | h <;> rw [h]
  rfl

/-! ## The event -/

section
variable {s s1 : State} {pkg : Nat} {hd : FrameHead} {c : Conn} {hdr : List W64} {flock : Nat}
  (hin : s.frameIn pkg 1 hd 1 = some (c, s1)) (hlen : hdr.length = 8)
include hin hlen

/-- A launch is answered by the code that refuses it. -/
theorem execLaunch_refused {k : Nat} (hk : s1.launchCode pkg c (fun i => (hdr.getD i 0).toNat)
      (Flock.ofHeader (fun i => (hdr.getD i 0).toNat) (gatewayName hd.conn) pkg hd.conn) = k ∧ k ≠ 0 ∨
    k = 8 ∧ s1.launchCode pkg c (fun i => (hdr.getD i 0).toNat)
      (Flock.ofHeader (fun i => (hdr.getD i 0).toNat) (gatewayName hd.conn) pkg hd.conn) = 0 ∧ flock = 0) :
    execLaunch pkg hd hdr flock s = .next (s1.replyOut pkg hd.conn 1 1 (BitVec.ofNat 64 k) []) := by
  have hlen' : ¬hdr.length ≠ 8 := not_not.2 hlen
  simp only [execLaunch, evLaunch, hin, if_neg hlen']
  rcases hk with ⟨hk, h0⟩ | ⟨rfl, h0, hz⟩
  · rw [hk, if_pos h0, State.launchReply, Nat.zero_mul, Nat.add_zero]
    rfl
  · rw [h0, if_neg (not_not.2 rfl), if_pos hz, State.launchReply, Nat.zero_mul, Nat.add_zero]
    rfl

/-- A launch that no code refuses creates its flock. -/
theorem execLaunch_creates (h0 : s1.launchCode pkg c (fun i => (hdr.getD i 0).toNat)
      (Flock.ofHeader (fun i => (hdr.getD i 0).toNat) (gatewayName hd.conn) pkg hd.conn) = 0) (hz : flock ≠ 0) (hlt : flock < 0xFFFF)
    (hlive : s1.flockLive flock = 0) :
    let f := Flock.ofHeader (fun i => (hdr.getD i 0).toNat) (gatewayName hd.conn) pkg hd.conn
    ∃ t x g, execLaunch pkg hd hdr flock s = .next t ∧ t.flocks.find flock = some f ∧
      (∀ i, i < f.init → t.PendingUnder f.supv (BitVec.ofNat 64 (flock * 2 ^ 48 + i))) ∧
      (t.pkg pkg).conns.find hd.conn = some x ∧ x.unacked.getLast? = some g ∧ g.cls = 1 ∧ g.flags = 3 ∧ g.arg = BitVec.ofNat 64 (flock * 2 ^ 48) := by
  intro f
  have hlen' : ¬hdr.length ≠ 8 := not_not.2 hlen
  have hcan : ¬(flock ≥ 0xFFFF ∨ s1.flockLive flock > 0) := by omega
  let s2 : State := { s1 with flocks := s1.flocks.put flock f }
  let s3 := (s2.journal pkg 2 jLaunch [flock]).launchReply pkg hd.conn 0 flock
  have hexec : execLaunch pkg hd hdr flock s =
      .next (s3.createFlock pkg flock f (((s1.image f.image.toNat flock).map (·.mxdecl)).getD false)) := by
    simp only [execLaunch, evLaunch, hin, if_neg hlen']
    rw [h0, if_neg (not_not.2 rfl), if_neg hz, if_neg hcan]
    rfl
  obtain ⟨c1, hc1⟩ := State.conn_frameIn hin
  have hconn : ((s2.journal pkg 2 jLaunch [flock]).pkg pkg).conns.find hd.conn = some c1 := by
    rw [State.conns_journal]
    exact hc1
  obtain ⟨x, g, hx, hg, hcls, hflags, harg⟩ := State.replyOut_last hconn 1 1 (BitVec.ofNat 64 (0 + flock * 2 ^ 48)) []
  obtain ⟨hfl, hpk, hall⟩ := s3.createFlock_spec pkg flock f (((s1.image f.image.toNat flock).map (·.mxdecl)).getD false)
  refine ⟨_, x, g, hexec, ?_, hall, ?_, hg, hcls, hflags, by rw [harg, Nat.zero_add]⟩
  · rw [hfl]
    simp only [s3, State.launchReply, State.flocks_replyOut, State.flocks_journal]
    exact SMap.find_put_same ..
  · rw [State.pkg, hpk]
    exact hx

end

end Sys2Proof.Machine
end

section
/-! SUPPORT. Grant requests (R390). -/

namespace Sys2Proof.Machine

/-! ## A changed grant -/

section
variable (g : Grant) (lost : List Nat) (die cl : Nat)

theorem Grant.dies_added (d : Nat) : d ∈ (g.changed lost die cl true).dies ↔ d ∈ g.dies ∨ d = die := by
  simp only [Grant.changed, if_true]
  by_cases h : die ∈ g.dies
  · rw [if_pos (List.contains_iff_mem.2 h)]
    exact ⟨.inl, fun hd => hd.elim id fun he => he ▸ h⟩
  · rw [if_neg (by simpa using h), List.mem_append, List.mem_singleton]

theorem Grant.clusters_added (u : Nat) :
    u ∈ (g.changed lost die cl true).clusters ↔ u ∈ g.clusters ∨ u ∈ grantUnits die cl ∧ u ∉ lost := by
  simp only [Grant.changed, if_true, List.mem_append, List.mem_filter, Bool.and_eq_true, Bool.not_eq_true', List.contains_eq_mem,
    decide_eq_false_iff_not]
  by_cases h : u ∈ g.clusters
  · simp [h]
  · simp [h]

theorem Grant.clusters_removed (u : Nat) : u ∈ (g.changed lost die cl false).clusters ↔ u ∈ g.clusters ∧ u ∉ grantUnits die cl := by
  simp [Grant.changed]

theorem Grant.dies_removed (d : Nat) : d ∈ (g.changed lost die cl false).dies ↔ d ∈ g.dies ∧ (cl < 64 ∨ d ≠ die) := by
  simp only [Grant.changed, Bool.false_eq_true, if_false]
  by_cases h : cl < 64
  · simp [h]
  · simp [h]

/-- A grant to which a die or a cluster is new. -/
theorem Grant.added_ne (h : die ∉ g.dies ∨ ∃ u ∈ grantUnits die cl, u ∉ g.clusters ∧ u ∉ lost) : g.changed lost die cl true ≠ g := by
  intro he
  rcases h with h | ⟨u, hu, hc, hl⟩
  · exact h (he ▸ (g.dies_added lost die cl die).2 (.inr rfl))
  · exact hc (he ▸ (g.clusters_added lost die cl u).2 (.inr ⟨hu, hl⟩))

/-- A grant that had one of the clusters to be removed. -/
theorem Grant.removed_ne (h : ∃ u ∈ grantUnits die cl, u ∈ g.clusters) : g.changed lost die cl false ≠ g := by
  obtain ⟨u, hu, hc⟩ := h
  intro he
  rw [← he, Grant.clusters_removed] at hc
  exact hc.2 hu

end

/-! ## The event -/

/-- The state after a grant of a package has changed, before its notice. -/
def State.regrant (s : State) (pkg dom die cl : Nat) (adds : Bool) : State :=
  (s.journal pkg 1 jGrant [dom, die, Min.min cl 64, if adds then 1 else 0]).onPkg pkg fun p =>
    { p with grants := p.grants.put dom (((s.pkg pkg).grants.get {} dom).changed (s.pkg pkg).lostClusters die cl adds) }

theorem State.grant_regrant (s : State) (pkg dom die cl : Nat) (adds : Bool) :
    ((s.regrant pkg dom die cl adds).pkg pkg).grants.get {} dom = ((s.pkg pkg).grants.get {} dom).changed (s.pkg pkg).lostClusters die cl adds := by
  simp only [State.regrant, State.pkg_onPkg, SMap.get_put_same]

section
variable {s s1 : State} {pkg : Nat} {hd : FrameHead} {c : Conn} {dom die cl : Nat} (hin : s.frameIn pkg 0 hd 1 = some (c, s1))
include hin

theorem execGrantRequest_refused (adds : Bool) (h : ¬(c.domain = 0 ∧ dom ≠ 0 ∧ dom < 2 ^ 16 ∧ die < 4)) :
    execGrantRequest pkg hd dom die cl adds s = .next s1 := by
  have hno : c.domain ≠ 0 ∨ dom = 0 ∨ dom ≥ 2 ^ 16 ∨ die ≥ 4 ∨
      ((s1.pkg pkg).grants.get {} dom).changed (s1.pkg pkg).lostClusters die cl adds = (s1.pkg pkg).grants.get {} dom := by
    by_cases hc : c.domain = 0
    · have hrest : dom = 0 ∨ dom ≥ 2 ^ 16 ∨ die ≥ 4 := by
        by_contra hn
        exact h ⟨hc, by omega, by omega, by omega⟩
      rcases hrest with h | h | h
      · exact .inr (.inl h)
      · exact .inr (.inr (.inl h))
      · exact .inr (.inr (.inr (.inl h)))
    · exact .inl hc
  simp only [execGrantRequest, evGrantRequest, hin, if_pos hno, Option.getD_some]

/-- A removal where the domain holds something on a cluster. -/
theorem execGrantRequest_held (h : ∃ u ∈ grantUnits die cl, s1.holdsOn pkg (BitVec.ofNat 16 dom) u = true) :
    execGrantRequest pkg hd dom die cl false s = .next s1 := by
  have hheld : ((!false) && (grantUnits die cl).any (s1.holdsOn pkg (BitVec.ofNat 16 dom))) = true := by simpa using h
  simp only [execGrantRequest, evGrantRequest, hin, hheld, if_true]
  split <;> rfl

theorem execGrantRequest_changes {adds : Bool} (hmay : c.domain = 0 ∧ dom ≠ 0 ∧ dom < 2 ^ 16 ∧ die < 4)
    (hne : ((s1.pkg pkg).grants.get {} dom).changed (s1.pkg pkg).lostClusters die cl adds ≠ (s1.pkg pkg).grants.get {} dom)
    (hfree : adds = true ∨ ∀ u ∈ grantUnits die cl, s1.holdsOn pkg (BitVec.ofNat 16 dom) u = false) :
    execGrantRequest pkg hd dom die cl adds s = .next ((s1.regrant pkg dom die cl adds).grantNotice pkg die (BitVec.ofNat 16 dom)) := by
  obtain ⟨hc, h0, hlt, hdie⟩ := hmay
  have hyes : ¬(c.domain ≠ 0 ∨ dom = 0 ∨ dom ≥ 2 ^ 16 ∨ die ≥ 4 ∨
      ((s1.pkg pkg).grants.get {} dom).changed (s1.pkg pkg).lostClusters die cl adds = (s1.pkg pkg).grants.get {} dom) := by
    simp only [not_or]
    exact ⟨not_not.2 hc, h0, by omega, by omega, hne⟩
  have hheld : ((!adds) && (grantUnits die cl).any (s1.holdsOn pkg (BitVec.ofNat 16 dom))) = false := by
    rcases hfree with rfl | h
    · rfl
    · rw [List.any_eq_false.2 fun u hu => by simp [h u hu], Bool.and_false]
  simp only [execGrantRequest, evGrantRequest, hin, if_neg hyes, hheld, Bool.false_eq_true, if_false, Option.getD_some]
  rfl

end

/-- What a changed grant shows, and whom it tells. -/
theorem State.regrant_spec (s : State) (pkg dom die cl : Nat) (adds : Bool) :
    let t := (s.regrant pkg dom die cl adds).grantNotice pkg die (BitVec.ofNat 16 dom)
    (t.pkg pkg).grants.get {} dom = ((s.pkg pkg).grants.get {} dom).changed (s.pkg pkg).lostClusters die cl adds ∧
      ∀ q pq r, (q, pq) ∈ s.pkgs → r ∈ pq.topoRegs → r.domain = BitVec.ofNat 16 dom →
        ∃ n, Claims.signalled t n r.name 6 rTopology 6 r.name := by
  refine ⟨?_, fun q pq r hq hr hd => ?_⟩
  · rw [State.pkg, State.grantNotice_pkgs, ← State.pkg, State.grant_regrant]
  · obtain ⟨q1, p1, hq1, hr1⟩ := State.topoRegs_journal pkg 1 jGrant [dom, die, Min.min cl 64, if adds then 1 else 0] hq hr
    obtain ⟨q2, p2, hq2, hr2⟩ := State.topoRegs_onPkg (k := pkg) (f := fun p => { p with
      grants := p.grants.put dom (((s.pkg pkg).grants.get {} dom).changed (s.pkg pkg).lostClusters die cl adds) }) rfl hq1 hr1
    exact State.grantNotice_tells (s := s.regrant pkg dom die cl adds) pkg die hq2 hr2 hd

end Sys2Proof.Machine
end

section
/-! SUPPORT. What the parts of a package's loss keep (R377): what is under way, free names, and that the package is lost. -/

namespace Sys2Proof.Machine

/-! ## Tables -/

theorem SMap.get_mapVals {α : Type} {P : α → Prop} {d : α} {f : Nat → α → α} (hf : ∀ k v, P v → P (f k v)) {m : SMap α} {k : Nat}
    (h : P (m.get d k)) : P ((m.mapVals f).get d k) := by
  induction m with
  | nil => exact h
  | cons p m ih =>
    obtain ⟨j, v⟩ := p
    by_cases hj : j = k
    · simp only [SMap.mapVals, List.map_cons, SMap.get, if_pos hj] at h ⊢
      exact hf j v h
    · simp only [SMap.mapVals, List.map_cons, SMap.get, if_neg hj] at h ⊢
      exact ih h

theorem SMap.find_filter_none {α : Type} {m : SMap α} {k : Nat} (h : m.find k = none) (f : Nat × α → Bool) : SMap.find (m.filter f) k = none := by
  induction m with
  | nil => rfl
  | cons p m ih =>
    obtain ⟨j, v⟩ := p
    by_cases hj : j = k
    · simp [SMap.find, hj] at h
    · rw [SMap.find, if_neg hj] at h
      rw [List.filter_cons]
      split
      · rw [SMap.find, if_neg hj, ih h]
      · exact ih h

theorem SMap.mem_of_find {α : Type} {m : SMap α} {k : Nat} {v : α} (h : m.find k = some v) : (k, v) ∈ m := by
  induction m with
  | nil => cases h
  | cons p m ih =>
    obtain ⟨j, w⟩ := p
    by_cases hj : j = k
    · rw [SMap.find, if_pos hj] at h
      cases h
      exact List.mem_cons.2 (.inl (by rw [hj]))
    · rw [SMap.find, if_neg hj] at h
      exact List.mem_cons_of_mem _ (ih h)

/-- An entry that a rewriting of a table keeps is found there. -/
theorem SMap.find_filterMap {α : Type} {m : SMap α} {k : Nat} {v w : α} {g : α → Option α} (h : m.find k = some v) (hg : g v = some w) :
    SMap.find (m.filterMap fun p => (g p.2).map fun q => (p.1, q)) k = some w := by
  induction m with
  | nil => cases h
  | cons p m ih =>
    obtain ⟨j, u⟩ := p
    by_cases hj : j = k
    · rw [SMap.find, if_pos hj] at h
      cases h
      rw [List.filterMap_cons_some (b := (j, w)) (by simp only [hg, Option.map_some]), SMap.find, if_pos hj]
    · rw [SMap.find, if_neg hj] at h
      cases hu : g u with
      | none => rw [List.filterMap_cons_none (by simp only [hu, Option.map_none]), ih h]
      | some x => rw [List.filterMap_cons_some (b := (j, x)) (by simp only [hu, Option.map_some]), SMap.find, if_neg hj, ih h]

/-! ## What outlives a loss -/

/-- `t` comes after `s` by operations that put packets under way and free names, and leave a lost package lost. -/
def State.Outlives (lost : Nat) (s t : State) : Prop :=
  s.Later t ∧ ((s.pkg lost).lost = true → (t.pkg lost).lost = true) ∧ (∀ name, s.dirEntry name = none → t.dirEntry name = none) ∧
    ∀ q ∈ t.net, q.1 < s.serial → q ∈ s.net

section
variable {lost : Nat}

theorem State.Outlives.refl (s : State) : State.Outlives lost s s := ⟨.refl s, id, fun _ h => h, fun _ h _ => h⟩

theorem State.Outlives.trans {s t u : State} (h1 : State.Outlives lost s t) (h2 : State.Outlives lost t u) : State.Outlives lost s u :=
  ⟨h1.1.trans h2.1, h2.2.1 ∘ h1.2.1, fun n h => h2.2.2.1 n (h1.2.2.1 n h), fun q hq hlt => h1.2.2.2 q (h2.2.2.2 q hq (hlt.trans_le h1.1.1)) hlt⟩

theorem State.outlives_foldl {α : Type} {f : State → α → State} (hf : ∀ (s : State) a, State.Outlives lost s (f s a)) (l : List α) (s : State) :
    State.Outlives lost s (l.foldl f s) :=
  List.foldlRecOn (motive := State.Outlives lost s) l f (.refl s) fun t ht a _ => ht.trans (hf t a)

/-- A change of other parts than the network, the directory and the packages. -/
theorem State.Outlives.of_eq {s t : State} (hn : t.net = s.net) (hs : t.serial = s.serial) (hd : t.dir = s.dir) (hp : t.pkgs = s.pkgs) :
    State.Outlives lost s t :=
  ⟨.of_eq hn hs, fun h => by rw [State.pkg, hp]; exact h, fun n h => by rw [State.dirEntry, hd]; exact h, fun q hq _ => by rw [← hn]; exact hq⟩

theorem State.outlives_post (s : State) (src : Nat) (pay : Payload) : State.Outlives lost s (s.post src pay) := by
  refine ⟨s.later_post src pay, id, fun _ h => h, fun q hq hlt => ?_⟩
  rcases SMap.mem_put hq with h | rfl
  · exact h
  · exact absurd hlt (lt_irrefl _)

theorem State.outlives_signal (s : State) (src : Nat) (g : Signal) : State.Outlives lost s (s.signal src g) := s.outlives_post src _

/-- A change of a package that leaves a lost one lost. -/
theorem State.outlives_onPkg (s : State) (k : Nat) {f : Package → Package} (hf : ∀ p, p.lost = true → (f p).lost = true) :
    State.Outlives lost s (s.onPkg k f) := by
  refine ⟨.of_eq rfl rfl, fun h => ?_, fun _ h => h, fun _ h _ => h⟩
  rcases eq_or_ne lost k with rfl | hne
  · rw [State.pkg_onPkg]
    exact hf _ h
  · rw [State.pkg_onPkg_ne _ _ hne, h]

theorem State.outlives_onCore (s : State) (c : Nat) (f : Core → Core) : State.Outlives lost s (s.onCore c f) := .of_eq rfl rfl rfl rfl

theorem State.outlives_onOwner (s : State) (o : Nat) (f : Owner → Owner) : State.Outlives lost s (s.onOwner o f) := .of_eq rfl rfl rfl rfl

theorem State.outlives_ite {c : Prop} [Decidable c] {s t u : State} (ht : State.Outlives lost s t) (hu : State.Outlives lost s u) :
    State.Outlives lost s (if c then t else u) := by
  split <;> assumption

/-! ## Names -/

theorem State.outlives_freeName (s : State) (name : W64) : State.Outlives lost s (s.freeName name) := by
  obtain ⟨-, hl, hd⟩ := s.freed_freeName name
  refine ⟨hl, fun h => ?_, hd, fun _ h _ => h⟩
  exact SMap.get_mapVals (P := fun p : Package => p.lost = true)
    (f := fun _ p => { p with thresholds := p.thresholds.filter fun h => h.2.target != name }) (fun _ _ h => h) h

theorem State.outlives_flockDown (s : State) (n : Nat) : State.Outlives lost s (s.flockDown n) := by
  unfold State.flockDown
  split
  · exact .refl s
  · split
    · exact .refl s
    · exact s.outlives_signal ..

theorem State.outlives_nameGone (s : State) (name : W64) : State.Outlives lost s (s.nameGone name) :=
  (s.outlives_freeName name).trans (State.outlives_flockDown ..)

theorem State.outlives_countExit (s : State) (name : W64) (reason : Nat) : State.Outlives lost s (s.countExit name reason) := by
  unfold State.countExit State.onFlock
  split
  · split
    · exact .refl s
    · exact .of_eq rfl rfl rfl rfl
  · exact .refl s

/-! ## Pages and frames -/

theorem State.outlives_counterNotice (s : State) (pkg number : Nat) (h : Threshold) (code merged : Nat) (value : W64) (t : Nat) :
    State.Outlives lost s (s.counterNotice pkg number h code merged value t) := s.outlives_post ..

theorem State.outlives_sampleThreshold (s : State) (pkg i : Nat) (h : Threshold) : State.Outlives lost s (s.sampleThreshold pkg i h) := by
  unfold State.sampleThreshold
  split
  · exact .refl s
  · refine State.outlives_ite (.refl s) (State.outlives_ite (State.Outlives.trans ?_ (State.outlives_counterNotice ..)) ?_)
    all_goals exact s.outlives_onPkg pkg fun _ h => h

theorem State.outlives_badFullNotices (s : State) (pkg : Nat) : State.Outlives lost s (s.badFullNotices pkg) :=
  State.outlives_foldl (fun t _ => t.outlives_counterNotice ..) _ s

theorem State.outlives_listBadFrame (s : State) (o frame : Nat) : State.Outlives lost s (s.listBadFrame o frame) := by
  refine State.outlives_ite (State.Outlives.trans ?_ (State.outlives_badFullNotices ..))
    (State.Outlives.trans ?_ (State.outlives_foldl (f := fun t (q : Nat × Nat × Threshold) => t.sampleThreshold q.1 q.2.1 q.2.2)
      (fun t q => t.outlives_sampleThreshold ..) _ _))
  all_goals exact s.outlives_onPkg (ownerPkg o) fun _ h => h

theorem State.outlives_dropHome (s : State) (o page : Nat) : State.Outlives lost s (s.dropHome o page) := by
  simp only [State.dropHome, State.leaveFrame]
  split
  · exact (s.outlives_onOwner o _).trans (State.outlives_listBadFrame ..)
  · exact s.outlives_onOwner o _

theorem State.outlives_endService (s : State) (o page holder status : Nat) : State.Outlives lost s (s.endService o page holder status) := by
  unfold State.endService
  split
  · exact .refl s
  · exact (s.outlives_onOwner o _).trans (State.outlives_post ..)

/-- A change of the list of migrations. -/
theorem State.Outlives.migrating {s t : State} (h : State.Outlives lost s t) (ms : List Migration) :
    State.Outlives lost s { t with migrations := ms } :=
  h.trans (.of_eq rfl rfl rfl rfl)

theorem State.outlives_giveUpMigration (s : State) (m : Migration) : State.Outlives lost s (s.giveUpMigration m) := by
  refine State.Outlives.migrating (State.Outlives.trans ?_ (State.outlives_endService ..)) _
  refine State.Outlives.trans ?_ (State.outlives_onOwner ..)
  exact (s.outlives_endService ..).trans (State.outlives_dropHome ..)

theorem State.outlives_loseRanges (s : State) (pkg : Nat) : State.Outlives lost s (s.loseRanges pkg) := by
  refine State.Outlives.trans (t := { s with hints := s.hints.mapVals fun _ h =>
    if h.policy = 3 ∧ h.homepkg ≠ pkg ∧ h.kept.contains pkg then h.without pkg else h }) (.of_eq rfl rfl rfl rfl) ?_
  refine State.outlives_foldl (fun t m => ?_) _ _
  split
  · exact t.outlives_giveUpMigration m
  · exact ((t.outlives_endService ..).trans (State.outlives_dropHome ..)).migrating _

theorem State.outlives_loseSlots (s : State) : State.Outlives lost s s.loseSlots := by
  simp only [State.loseSlots]
  split
  · exact .refl s
  · exact ⟨.of_eq rfl rfl, id, fun _ h => SMap.find_filter_none h _, fun _ h _ => h⟩

theorem State.outlives_loseBursts (s : State) (pkg eng : Nat) : State.Outlives lost s (s.loseBursts pkg eng) :=
  State.outlives_foldl (fun t _ => t.outlives_onCore ..) _ s

theorem State.outlives_returnReserved (s : State) (pkg : Nat) : State.Outlives lost s (s.returnReserved pkg) := by
  refine State.outlives_foldl (fun t p => ?_) _ s
  split
  · split
    · exact t.outlives_onCore ..
    · exact .refl t
  · exact .refl t

end

end Sys2Proof.Machine
end

section
/-! SUPPORT. A package is lost (R377): its names become free, actors linked to its actors get an EXIT, and nothing more comes from it. -/

namespace Sys2Proof.Machine

/-! ## Signals with reason CHIP_LOST -/

/-- `t` comes after `s` by operations that leave the directory as it is. -/
def State.Told (lost : Nat) (s t : State) : Prop := State.Outlives lost s t ∧ t.dir = s.dir

section
variable {lost : Nat}

theorem State.Told.refl (s : State) : State.Told lost s s := ⟨.refl s, rfl⟩

theorem State.Told.trans {s t u : State} (h1 : State.Told lost s t) (h2 : State.Told lost t u) : State.Told lost s u :=
  ⟨h1.1.trans h2.1, h2.2.trans h1.2⟩

theorem State.told_foldl {α : Type} {f : State → α → State} (hf : ∀ (s : State) a, State.Told lost s (f s a)) (l : List α) (s : State) :
    State.Told lost s (l.foldl f s) :=
  List.foldlRecOn (motive := State.Told lost s) l f (.refl s) fun t ht a _ => ht.trans (hf t a)

theorem State.told_chipLost (s : State) (pkg die kind : Nat) (dst : W64) (inc : BitVec 8) (ref : BitVec 16) (subject : W64) (sinc : BitVec 8)
    (core rrec : Nat) : State.Told lost s (s.chipLost pkg die kind dst inc ref subject sinc core rrec) :=
  ⟨s.outlives_signal .., rfl⟩

theorem State.told_onCore (s : State) (c : Nat) (f : Core → Core) : State.Told lost s (s.onCore c f) := ⟨s.outlives_onCore c f, rfl⟩

end

/-- What one link-table entry of a core sends when its peer's package is lost. -/
def State.chipLostEntry (core : Nat) (s : State) (e : LinkEntry) : State :=
  let a := s.actor core e.slot
  if e.kind = 3 then s
  else s.chipLost (corePkg core) (coreDie core) (if e.kind = 1 then sExit else sDown) a.name a.incarn e.ref e.peer e.pinc 0 0

/-- The entries of a core whose peers live on a package. -/
def State.linksTo (s : State) (lost core : Nat) : List LinkEntry :=
  ((s.core core).links.map (·.2)).filter fun e => s.livesOn lost e.peer

theorem State.chipLostLinks_eq (s : State) (lost core : Nat) : s.chipLostLinks lost core =
    ((s.linksTo lost core).foldl (State.chipLostEntry core) s).onCore core (·.dropLinks fun e => e.kind == 3 && s.livesOn lost e.peer) := rfl

theorem State.told_chipLostEntry {lost : Nat} (core : Nat) (s : State) (e : LinkEntry) : State.Told lost s (s.chipLostEntry core e) := by
  unfold State.chipLostEntry
  split
  · exact .refl s
  · exact s.told_chipLost ..

theorem State.cores_chipLostEntry (core : Nat) (s : State) (e : LinkEntry) : (s.chipLostEntry core e).cores = s.cores := by
  unfold State.chipLostEntry
  split <;> rfl

theorem State.cores_chipLostEntries (core : Nat) (l : List LinkEntry) (s : State) : (l.foldl (State.chipLostEntry core) s).cores = s.cores :=
  List.foldlRecOn (motive := fun t : State => t.cores = s.cores) l _ rfl fun t ht e _ => (t.cores_chipLostEntry core e).trans ht

theorem State.told_chipLostLinks {lost : Nat} (s : State) (core : Nat) : State.Told lost s (s.chipLostLinks lost core) := by
  rw [s.chipLostLinks_eq]
  exact (State.told_foldl (State.told_chipLostEntry core) _ s).trans (State.told_onCore ..)

theorem State.core_chipLostLinks_ne (s : State) (lost : Nat) {core k : Nat} (h : k ≠ core) : (s.chipLostLinks lost core).core k = s.core k := by
  rw [s.chipLostLinks_eq, State.core_onCore_ne _ _ h, State.core, State.cores_chipLostEntries, State.core]

/-- A packet from another package than the lost one that carries an EXIT with reason CHIP_LOST. -/
def Packet.TellsLoss (lost : Nat) (dst subject : W64) (p : Packet) : Prop := p.Tells dst 1 rChipLost 0 subject ∧ p.src ≠ lost

/-- Each linked actor of a core is told. -/
theorem State.chipLostLinks_tells (s : State) {lost core i : Nat} {l : LinkEntry} (hc : corePkg core ≠ lost) (hl : (i, l) ∈ (s.core core).links)
    (hk : l.kind = 1) (hp : s.livesOn lost l.peer = true) :
    (s.chipLostLinks lost core).Carries (Packet.TellsLoss lost (s.actor core l.slot).name l.peer) := by
  have hmem : l ∈ s.linksTo lost core := List.mem_filter.2 ⟨List.mem_map.2 ⟨(i, l), hl, rfl⟩, hp⟩
  obtain ⟨l1, l2, hsplit⟩ := List.append_of_mem hmem
  rw [s.chipLostLinks_eq, hsplit, List.foldl_append, List.foldl_cons]
  refine State.Carries.later ?_ ((State.told_foldl (lost := lost) (State.told_chipLostEntry core) l2 _).trans (State.told_onCore ..)).1.1
  have hcores := State.cores_chipLostEntries core l1 s
  generalize l1.foldl (State.chipLostEntry core) s = t at hcores
  have hname : t.actor core l.slot = s.actor core l.slot := by rw [State.actor, State.core, hcores, State.actor, State.core]
  simp only [State.chipLostEntry, hname, hk, State.chipLost]
  exact State.carries_post _ _ ⟨⟨_, rfl, rfl, rfl, rfl, rfl, rfl⟩, hc⟩

/-- … by the loss that goes through several cores. -/
theorem State.chipLostLinks_foldl_tells {s : State} {lost core i : Nat} {l : LinkEntry} {cores : List Nat} (hin : core ∈ cores)
    (hc : corePkg core ≠ lost) (hl : (i, l) ∈ (s.core core).links) (hk : l.kind = 1) (hp : s.livesOn lost l.peer = true) :
    (cores.foldl (State.chipLostLinks · lost ·) s).Carries (Packet.TellsLoss lost (s.actor core l.slot).name l.peer) := by
  obtain ⟨l1, l2, rfl, hnot⟩ := List.eq_append_cons_of_mem hin
  rw [List.foldl_append, List.foldl_cons]
  refine State.Carries.later ?_ (State.told_foldl (lost := lost) (State.told_chipLostLinks) l2 _).1.1
  have hdir := (State.told_foldl (lost := lost) State.told_chipLostLinks l1 s).2
  have hcore : (l1.foldl (State.chipLostLinks · lost ·) s).core core = s.core core :=
    List.foldlRecOn (motive := fun t : State => t.core core = s.core core) l1 _ rfl fun t ht c hcm =>
      (t.core_chipLostLinks_ne lost (ne_of_mem_of_not_mem hcm hnot).symm).trans ht
  generalize l1.foldl (State.chipLostLinks · lost ·) s = t at hdir hcore
  have hname : s.actor core l.slot = t.actor core l.slot := by rw [State.actor, ← hcore, State.actor]
  rw [hname]
  exact t.chipLostLinks_tells hc (by rw [hcore]; exact hl) hk (by rw [State.livesOn, State.dirEntry, hdir]; exact hp)

theorem State.told_chipLostGw {lost : Nat} (s : State) (pkg : Nat) : State.Told lost s (s.chipLostGw lost pkg) := by
  refine State.Told.trans (State.told_foldl (fun t l => ?_) _ s) ⟨State.outlives_onPkg _ _ fun _ h => h, rfl⟩
  split
  · exact t.told_chipLost ..
  · exact .refl t

theorem State.told_chipLostChildren {lost : Nat} (s : State) : State.Told lost s (s.chipLostChildren lost) := by
  refine State.told_foldl (fun t e => ?_) _ s
  split
  · exact t.told_chipLost ..
  · exact .refl t

theorem State.dir_returnReserved (s : State) (pkg : Nat) : (s.returnReserved pkg).dir = s.dir := by
  refine List.foldlRecOn (motive := fun t : State => t.dir = s.dir) s.net _ rfl fun t ht p _ => ?_
  split
  · split <;> exact ht
  · exact ht

/-! ## The parts of a loss -/

/-- Whether a package takes part when another one is lost. -/
def State.detects (s : State) (lost q : Nat) : Bool := q != lost && !(s.pkg q).frozen

/-- The cores whose actors are told of a lost package. -/
def State.coresTold (s : State) (lost : Nat) : List Nat := (s.cores.map (·.1)).filter fun c => s.detects lost (corePkg c)

/-- The package is marked lost, and its directory slots and mirrors are bare. -/
def State.lossMarked (s : State) (lost : Nat) : State := { s with bare := s.bareAfter lost }.onPkg lost fun p => { p with lost := true }

/-- The actors tied to those of the package are told. -/
def State.lossTold (s : State) (lost : Nat) : State :=
  ((((s.pkgs.map (·.1)).filter (s.detects lost)).foldl (State.chipLostGw · lost ·)
    ((s.coresTold lost).foldl (State.chipLostLinks · lost ·) (s.lossMarked lost))).chipLostChildren lost).returnReserved lost

/-- What is under way from the package ends. -/
def State.lossCut (s : State) (lost : Nat) : State :=
  { s with net := s.net.filterMap fun p => (s.packetLost lost p.2).map fun q => (p.1, q) }

/-- The rest: names, pages, accesses and bursts that waited for the package. -/
def State.lossLeft (s : State) (lost : Nat) (cores engs : List Nat) : State :=
  (engs.foldl (State.loseBursts · lost ·) (cores.foldl (fun s c => s.onCore c fun k => (k.loseOwners lost).resendLost lost)
    (((s.chipLostNames lost).loseRanges lost).dropLostCores lost))).loseSlots

theorem State.losePackage_eq (s : State) (lost : Nat) : s.losePackage lost =
    ((s.lossTold lost).lossCut lost).lossLeft lost (s.coresTold lost) ((s.engines.map (·.1)).filter fun e => s.detects lost (engPkg e)) := rfl

theorem State.lost_lossMarked (s : State) (lost : Nat) : ((s.lossMarked lost).pkg lost).lost = true := by
  rw [State.lossMarked, State.pkg_onPkg]

theorem State.told_afterLinks {lost : Nat} (s : State) (pkgs : List Nat) :
    State.Told lost s (((pkgs.foldl (State.chipLostGw · lost ·) s).chipLostChildren lost).returnReserved lost) :=
  ((State.told_foldl State.told_chipLostGw pkgs s).trans (State.told_chipLostChildren _)).trans
    ⟨State.outlives_returnReserved _ _, State.dir_returnReserved _ _⟩

theorem State.told_lossTold (s : State) (lost : Nat) : State.Told lost (s.lossMarked lost) (s.lossTold lost) :=
  (State.told_foldl State.told_chipLostLinks _ _).trans (State.told_afterLinks ..)

/-! ## Names of the lost package -/

/-- One name of the lost package goes. -/
def State.chipLostName (s : State) (e : DirEntry) : State :=
  if e.state = 3 then s.nameGone e.name else (s.countExit e.name rChipLost).nameGone e.name

theorem State.outlives_chipLostName {lost : Nat} (s : State) (e : DirEntry) : State.Outlives lost s (s.chipLostName e) := by
  unfold State.chipLostName
  split
  · exact s.outlives_nameGone ..
  · exact (s.outlives_countExit ..).trans (State.outlives_nameGone ..)

theorem State.dirEntry_chipLostName (s : State) (e : DirEntry) : (s.chipLostName e).dirEntry e.name = none := by
  unfold State.chipLostName
  split <;> exact State.dirEntry_nameGone ..

/-- The restart records and flocks that go with the lost package. -/
def State.lossRecords (s : State) (lost : Nat) (es : List DirEntry) : State :=
  { s with rrecs := s.rrecs.filter fun r => !es.any fun e => e.rrec == r.1 && !isGateway e.name
           flocks := s.flocks.filter fun f => f.2.pkg != lost }

/-- The directory entries that name a package. -/
def State.entriesOf (s : State) (lost : Nat) : List DirEntry := (s.dir.map (·.2)).filter fun e => e.pkg == lost

theorem State.chipLostNames_eq (s : State) (lost : Nat) :
    s.chipLostNames lost = (s.entriesOf lost).foldl State.chipLostName (s.lossRecords lost (s.entriesOf lost)) := rfl

theorem State.outlives_chipLostNames {lost : Nat} (s : State) : State.Outlives lost s (s.chipLostNames lost) := by
  rw [s.chipLostNames_eq]
  exact State.Outlives.trans (.of_eq rfl rfl rfl rfl) (State.outlives_foldl State.outlives_chipLostName _ (s.lossRecords lost (s.entriesOf lost)))

theorem State.dirEntry_chipLostNames (s : State) {lost : Nat} {name : W64} {e : DirEntry} (hd : s.dirEntry name = some e) (hn : e.name = name)
    (hp : e.pkg = lost) : (s.chipLostNames lost).dirEntry name = none := by
  have hmem : e ∈ s.entriesOf lost := List.mem_filter.2 ⟨List.mem_map.2 ⟨_, SMap.mem_of_find hd, rfl⟩, beq_iff_eq.2 hp⟩
  obtain ⟨l1, l2, hsplit⟩ := List.append_of_mem hmem
  rw [s.chipLostNames_eq, hsplit, List.foldl_append, List.foldl_cons]
  exact (State.outlives_foldl (lost := lost) State.outlives_chipLostName l2 _).2.2.1 name (hn ▸ State.dirEntry_chipLostName _ e)

/-! ## What a loss leaves -/

theorem State.outlives_dropLostCores {lost : Nat} (s : State) (q : Nat) : State.Outlives lost s (s.dropLostCores q) := .of_eq rfl rfl rfl rfl

theorem State.outlives_afterNames {lost : Nat} (s : State) (cores engs : List Nat) :
    State.Outlives lost (s.chipLostNames lost) (s.lossLeft lost cores engs) := by
  refine State.Outlives.trans ?_ (State.outlives_loseSlots _)
  refine State.Outlives.trans ?_ (State.outlives_foldl (fun t e => t.outlives_loseBursts lost e) engs _)
  refine State.Outlives.trans ?_ (State.outlives_foldl (fun t c => t.outlives_onCore c _) cores _)
  exact (State.outlives_loseRanges _ lost).trans (State.outlives_dropLostCores ..)

theorem State.outlives_lossLeft {lost : Nat} (s : State) (cores engs : List Nat) : State.Outlives lost s (s.lossLeft lost cores engs) :=
  s.outlives_chipLostNames.trans (s.outlives_afterNames cores engs)

/-- Whether a packet holds a message or a signal. -/
def Payload.isMail : Payload → Bool
  | .message .. | .signal _ => true
  | _ => false

/-- No message and no signal comes from the lost package: a packet of another kind keeps its kind. -/
theorem State.src_of_packetLost {s : State} {lost : Nat} {p q : Packet} (h : s.packetLost lost p = some q) (hq : q.pay.isMail = true) :
    q.src ≠ lost := by
  unfold State.packetLost at h
  split at h
  case h_6 =>
    split at h
    · cases h
    · cases h
      assumption
  case h_5 =>
    cases h
    cases hq
  all_goals
    rename_i hpay
    exfalso
    split_ifs at h <;> cases h <;> simp [Payload.isMail, hpay] at hq

theorem State.packetLost_signal {s : State} {lost : Nat} {p : Packet} {g : Signal} (hg : p.pay = .signal g) (hs : p.src ≠ lost) :
    s.packetLost lost p = some p := by
  simp only [State.packetLost, hg, if_neg hs]

theorem State.Carries.lossCut {s : State} {lost : Nat} {dst subject : W64} (h : s.Carries (Packet.TellsLoss lost dst subject)) :
    (s.lossCut lost).Carries (Packet.TellsLoss lost dst subject) := by
  obtain ⟨n, p, hn, hp, ⟨g, hg, hrest⟩, hs⟩ := h
  exact ⟨n, p, hn, SMap.find_filterMap hp (State.packetLost_signal hg hs), ⟨g, hg, hrest⟩, hs⟩

/-- What is under way before the loss and still is after it, and is a message or a signal, comes from another package. -/
theorem State.src_after_loss {s : State} {lost n : Nat} {q : Packet} (h : (n, q) ∈ (s.losePackage lost).net) (hn : n < s.serial)
    (hq : q.pay.isMail = true) : q.src ≠ lost := by
  rw [s.losePackage_eq] at h
  have hlt : n < ((s.lossTold lost).lossCut lost).serial := hn.trans_le (s.told_lossTold lost).1.1.1
  obtain ⟨⟨m, p⟩, -, hp⟩ := List.mem_filterMap.1 ((State.outlives_lossLeft (lost := lost) _ _ _).2.2.2 _ h hlt)
  obtain ⟨x, hx, he⟩ := Option.map_eq_some_iff.1 hp
  cases he
  exact State.src_of_packetLost hx hq

theorem State.lost_losePackage (s : State) (lost : Nat) : ((s.losePackage lost).pkg lost).lost = true := by
  rw [s.losePackage_eq]
  exact (State.outlives_lossLeft (lost := lost) _ _ _).2.1 ((s.told_lossTold lost).1.2.1 (s.lost_lossMarked lost))

theorem State.dirEntry_losePackage (s : State) {lost : Nat} {name : W64} {e : DirEntry} (hd : s.dirEntry name = some e) (hn : e.name = name)
    (hp : e.pkg = lost) : (s.losePackage lost).dirEntry name = none := by
  rw [s.losePackage_eq]
  refine (State.outlives_afterNames (lost := lost) _ _ _).2.2.1 name (State.dirEntry_chipLostNames _ (e := e) ?_ hn hp)
  rw [State.dirEntry, State.lossCut, (s.told_lossTold lost).2]
  exact hd

/-- Each linked actor of a core that takes part is told. -/
theorem State.losePackage_tells (s : State) {lost core i : Nat} {l : LinkEntry} {e : DirEntry} (hc : corePkg core ≠ lost)
    (hf : (s.pkg (corePkg core)).frozen = false) (hl : (i, l) ∈ (s.core core).links) (hk : l.kind = 1) (hd : s.dirEntry l.peer = some e)
    (hp : e.pkg = lost) : (s.losePackage lost).Carries (Packet.TellsLoss lost (s.actor core l.slot).name l.peer) := by
  rw [s.losePackage_eq]
  have hkey : core ∈ s.cores.map (·.1) := by
    refine SMap.key_mem_of_get_ne (d := {}) fun he => ?_
    rw [State.core, he] at hl
    cases hl
  have hcore : core ∈ s.coresTold lost := List.mem_filter.2 ⟨hkey, by simp [State.detects, hc, hf]⟩
  have hlives : (s.lossMarked lost).livesOn lost l.peer = true := by
    have hd' : (s.lossMarked lost).dirEntry l.peer = some e := hd
    rw [State.livesOn, hd', Option.map_some, Option.getD_some, hp, beq_self_eq_true]
  have htold := State.chipLostLinks_foldl_tells (s := s.lossMarked lost) hcore hc hl hk hlives
  exact State.Carries.later (State.Carries.lossCut (htold.later (State.told_afterLinks (lost := lost) _ _).1.1))
    (State.outlives_lossLeft (lost := lost) _ _ _).1

/-! ## Where a package is lost -/

/-- The packages that could find a package lost. -/
def State.Member (s : State) (lost q : Nat) (pq : Package) : Prop := (q, pq) ∈ s.pkgs ∧ q ≠ lost ∧ pq.lost = false ∧ pq.halted = false

/-- Whether a package finds another one lost. -/
def State.Finds (s : State) (q l : Nat) : Prop := s.linked q l = false ∨ (s.pkg l).fabricStopped = true ∨ 188000 ≤ (s.pkg q).silent.get 0 l

theorem State.findsLost_eq {s : State} {q l : Nat} (h : s.Finds q l) : s.findsLost q l = true := by
  rcases h with h | h | h <;> simp [State.findsLost, h]

/-- The packages that could find a package lost, as a list. -/
def State.lossMembers (s : State) (lost : Nat) : SMap Package := s.pkgs.filter fun p => p.1 != lost && !p.2.lost && !p.2.halted

/-- Those of them that answer. -/
def State.lossOthers (s : State) (lost : Nat) : SMap Package := (s.lossMembers lost).filter fun p => !p.2.frozen && !p.2.fabricStopped

theorem State.mem_lossMembers {s : State} {lost : Nat} {p : Nat × Package} : p ∈ s.lossMembers lost ↔ s.Member lost p.1 p.2 := by
  simp [State.lossMembers, State.Member, List.mem_filter, and_assoc]

theorem State.mem_lossOthers {s : State} {lost : Nat} {p : Nat × Package} :
    p ∈ s.lossOthers lost ↔ s.Member lost p.1 p.2 ∧ p.2.frozen = false ∧ p.2.fabricStopped = false := by
  rw [State.lossOthers, List.mem_filter, State.mem_lossMembers]
  simp

theorem evPackageLost_eq (lost : Nat) (s : State) : evPackageLost lost s =
    if (s.pkgs.find lost).isNone ∨ (s.pkg lost).lost ∨ s.npkg < 2 ∨ (s.lossOthers lost).isEmpty then none
    else if (s.lossOthers lost).all fun p => s.findsLost p.1 lost && !p.2.quiesced 3 &&
        (s.lossMembers lost).all (fun q => (s.lossOthers lost).contains q || s.findsLost p.1 q.1) then some (s.losePackage lost)
    else none := rfl

/-- A package that every other one finds lost is lost. -/
theorem execPackageLost_loses {s : State} {lost : Nat} (hfind : (s.pkgs.find lost).isSome = true) (hl : (s.pkg lost).lost = false) (hn : 2 ≤ s.npkg)
    (hex : ∃ q pq, s.Member lost q pq ∧ pq.frozen = false ∧ pq.fabricStopped = false)
    (hall : ∀ q pq, s.Member lost q pq → pq.frozen = false → pq.fabricStopped = false → pq.quiesced 3 = false ∧ s.Finds q lost ∧
      ∀ r pr, s.Member lost r pr → pr.frozen = true ∨ pr.fabricStopped = true → s.Finds q r) :
    execPackageLost lost s = .next (s.losePackage lost) := by
  have hsome : ¬((s.pkgs.find lost).isNone ∨ (s.pkg lost).lost ∨ s.npkg < 2 ∨ (s.lossOthers lost).isEmpty) := by
    obtain ⟨q, pq, hq⟩ := hex
    have hne : s.lossOthers lost ≠ [] := List.ne_nil_of_mem (State.mem_lossOthers (p := (q, pq)) |>.2 hq)
    simp [Option.isNone_iff_eq_none, Option.isSome_iff_ne_none.1 hfind, hl, hne, show 1 < s.npkg from hn]
  have hagree : ((s.lossOthers lost).all fun p => s.findsLost p.1 lost && !p.2.quiesced 3 &&
      (s.lossMembers lost).all (fun q => (s.lossOthers lost).contains q || s.findsLost p.1 q.1)) = true := by
    refine List.all_eq_true.2 fun p hp => ?_
    obtain ⟨hm, hf, hs⟩ := State.mem_lossOthers.1 hp
    obtain ⟨hq3, hfinds, hrest⟩ := hall p.1 p.2 hm hf hs
    rw [State.findsLost_eq hfinds, hq3]
    refine List.all_eq_true.2 fun r hr => ?_
    by_cases hro : r ∈ s.lossOthers lost
    · rw [List.contains_iff_mem.2 hro, Bool.true_or]
    · have hr' := State.mem_lossMembers.1 hr
      have hstands : r.2.frozen = true ∨ r.2.fabricStopped = true := by
        by_contra hno
        exact hro (State.mem_lossOthers.2 ⟨hr', by simpa [not_or] using hno⟩)
      rw [State.findsLost_eq (hrest r.1 r.2 hr' hstands), Bool.or_true]
  rw [execPackageLost, evPackageLost_eq, if_neg hsome, if_pos hagree, Option.getD_some]

end Sys2Proof.Machine
end

section
/-! CERTIFICATES. Ports, lost packages and the host port (R22 to R24, R376 to R381, R390, R402, R421). -/

namespace Sys2Proof.Machine

section
variable {pkg : Nat} {s : State}

/-! ## Ports -/

theorem linkModeTaken (i : Fin 16) {m : PortMode} (hf : (s.pkgs.find pkg).isSome = true) (hruns : (s.pkg pkg).runs = true)
    (hform : (s.pkg pkg).form ≠ 3) (hb : 4 ≤ (s.pkg pkg).bringUp) (hmay : (s.pkg pkg).ports[i].May ((s.pkg pkg).hub.knobs.headD 8 < 8) m) :
    ∃ t, exec (.linkModeChange pkg i m) s = .next t ∧ (t.pkg pkg).ports[i].mode = m ∧ (m = .full → (t.pkg pkg).ports[i].lanes = 8) ∧
      (m = .erasure → (t.pkg pkg).ports[i].lanes = 7) ∧ (m = .down → (t.pkg pkg).ports[i].lanes < 4) ∧
      (∀ j, j ≠ i → (t.pkg pkg).ports[j] = (s.pkg pkg).ports[j]) ∧
      ∀ q pq r, (q, pq) ∈ s.pkgs → r ∈ pq.topoRegs → (s.pkg pkg).holdsGrant r.domain = true →
        ∃ n, Claims.signalled t n r.name 6 rTopology 5 r.name := by
  obtain ⟨q', hq', hmode, hfull, her, hdown⟩ := Port.into_may (q := (s.pkg pkg).ports[i])
    (throttled := decide ((s.pkg pkg).hub.knobs.headD 8 < 8)) (m := m) (by simpa using hmay)
  obtain ⟨hport, hothers, htold⟩ := s.portMode_spec pkg i q'
  refine ⟨s.portMode pkg i.val q', (execLinkModeChange_eq i m hf hruns hform hb).trans (by rw [hq']; rfl), ?_⟩
  rw [hport]
  exact ⟨hmode, hfull, her, hdown, hothers, htold⟩

theorem linkModeKept (i : Fin 16) {m : PortMode} (hf : (s.pkgs.find pkg).isSome = true) (hruns : (s.pkg pkg).runs = true)
    (hform : (s.pkg pkg).form ≠ 3) (hb : 4 ≤ (s.pkg pkg).bringUp) (hmay : ¬(s.pkg pkg).ports[i].May ((s.pkg pkg).hub.knobs.headD 8 < 8) m) :
    exec (.linkModeChange pkg i m) s = .next s :=
  (execLinkModeChange_eq i m hf hruns hform hb).trans (by rw [Port.into_not (by simpa using hmay)]; rfl)

theorem linkBeats (i : Fin 16) (hf : (s.pkgs.find pkg).isSome = true) (hruns : (s.pkg pkg).runs = true) (hform : (s.pkg pkg).form ≠ 3)
    (hm : (s.pkg pkg).ports[i].mode ≠ .down) (hbeat : (s.pkg pkg).ports[i].beat + 9400 ≤ s.wall) :
    (∃ t, exec (.linkHeartbeat pkg i true) s = .next t ∧ (t.pkg pkg).ports[i] = { (s.pkg pkg).ports[i] with beat := s.wall, missed := 0 }) ∧
    ((s.pkg pkg).ports[i].missed < 7 → ∃ t, exec (.linkHeartbeat pkg i false) s = .next t ∧
      (t.pkg pkg).ports[i] = { (s.pkg pkg).ports[i] with beat := s.wall, missed := (s.pkg pkg).ports[i].missed + 1 }) ∧
    (7 ≤ (s.pkg pkg).ports[i].missed → ∃ t, exec (.linkHeartbeat pkg i false) s = .next t ∧ (t.pkg pkg).ports[i].mode = .down) := by
  refine ⟨⟨_, execLinkHeartbeat_eq i true hf hruns hform hm hbeat, ?_⟩, fun hlt => ⟨_, execLinkHeartbeat_eq i false hf hruns hform hm hbeat, ?_⟩,
    fun hge => ⟨_, execLinkHeartbeat_eq i false hf hruns hform hm hbeat, ?_⟩⟩
  · rw [if_pos rfl, State.pkg_onPkg, Package.ports_setPort_same]
  · rw [if_neg Bool.false_ne_true, if_neg (by omega), State.pkg_onPkg, Package.ports_setPort_same]
  · rw [if_neg Bool.false_ne_true, if_pos (by omega), (s.portMode_spec pkg i _).1]

/-! ## The directory map -/

theorem directoryRemapped {q i : Nat} (hs : s.Still) (hl : (s.pkg pkg).lost = true) (hq : q < s.npkg) (hd : s.dirPackage q = pkg) (hi : i < s.npkg)
    (hlive : (s.pkg (s.dirPackage ((q + 1 + i) % s.npkg))).lost = false)
    (hbefore : ∀ j, j < i → (s.pkg (s.dirPackage ((q + 1 + j) % s.npkg))).lost = true) :
    ∃ t, exec (.directoryMapUpdate pkg) s = .next t ∧ t.dirPackage q = s.dirPackage ((q + 1 + i) % s.npkg) ∧ q ∈ t.bare ∧
      ∀ r, s.dirPackage r ≠ pkg → t.dirPackage r = s.dirPackage r := by
  have hmem : q ∈ s.slotsOf pkg := State.mem_slotsOf.2 ⟨hq, hd⟩
  obtain ⟨hmap, hbare⟩ := State.journals_frame (s.pkgs.filter fun p => !p.2.lost) pkg (s.remap pkg)
  refine ⟨_, execDirectoryMapUpdate_remaps hs hl hmem, ?_, ?_, fun r hr => ?_⟩
  · rw [State.dirPackage, hmap]
    exact s.foldl_remapSlot_mem (s.slotsOf_nodup pkg) hmem (State.mirrorOf_eq hi hlive hbefore) _ _
  · rw [hbare]
    exact List.mem_eraseDups.2 (List.mem_append_right _ hmem)
  · rw [State.dirPackage, hmap]
    exact s.foldl_remapSlot_ne (fun hrm => hr (State.mem_slotsOf.1 hrm).2) _ _

theorem directoryMirrored (hs : s.Still) (hn : (s.pkg pkg).lost = false ∨ ∀ q, q < s.npkg → s.dirPackage q ≠ pkg) (hb : s.bare ≠ []) :
    ∃ t, exec (.directoryMapUpdate pkg) s = .next t ∧ t.bare = [] ∧ t.dirMap = s.dirMap := by
  obtain ⟨hmap, hbare⟩ := State.journals_frame (s.pkgs.filter fun p => !p.2.lost) pkg { s with bare := [] }
  exact ⟨_, execDirectoryMapUpdate_mirrors hs hn hb, hbare, hmap⟩

/-! ## Frames and connections -/

theorem portOpen_of {cls : Nat} (hf : (s.pkgs.find pkg).isSome = true) (hruns : (s.pkg pkg).runs = true)
    (h0 : cls = 0 → (s.pkg pkg).recovering = true ∨ (s.pkg pkg).isReady = true)
    (h1 : cls ≠ 0 → (s.pkg pkg).recovering = false ∧ (s.pkg pkg).isReady = true) (hq0 : cls = 0 → (s.pkg pkg).quiesced 1 = false)
    (hq1 : cls = 1 → (s.pkg pkg).quiesced 2 = false) : s.PortOpen pkg cls := by
  refine ⟨hf, hruns, ?_, hq0, hq1⟩
  unfold Package.answers
  by_cases hcls : cls = 0
  · split
    · rw [hcls, beq_self_eq_true]
    · exact (h0 hcls).resolve_left (by assumption)
  · obtain ⟨hr, hready⟩ := h1 hcls
    rw [hr, hready, if_neg Bool.false_ne_true]

/-- What stays unacknowledged after a frame. -/
theorem Conn.leftAfter_spec (c : Conn) (hd : FrameHead) :
    (hd.flags.getLsbD 0 = false ∨ (∀ f ∈ c.unacked, f.psn ≠ hd.ackn.toNat) → c.leftAfter hd = c.unacked) ∧
    ∀ a f b, hd.flags.getLsbD 0 = true → c.unacked = a ++ f :: b → (∀ x ∈ a, x.psn ≠ hd.ackn.toNat) → f.psn = hd.ackn.toNat →
      c.leftAfter hd = b := by
  refine ⟨fun h => ?_, fun a f b hflag hu ha hf => ?_⟩
  · unfold Conn.leftAfter
    split
    · exact unackedAfter_none (h.resolve_left (by simp [*]))
    · rfl
  · rw [Conn.leftAfter, if_pos hflag, hu, unackedAfter_append ha hf]

theorem State.pkg_setDir (s : State) (e : DirEntry) (k : Nat) : (s.setDir e).pkg k = s.pkg k := rfl

theorem connectionOpens {conn dom : Nat} (ho : s.PortOpen pkg 0) (hconn : conn < 2 ^ 32) (hdom : dom < 2 ^ 16)
    (hnew : (s.pkg pkg).conns.find conn = none) (hname : s.dirEntry (gatewayName conn) = none) :
    ∃ t e, exec (.connectionOpen pkg conn dom) s = .next t ∧ (t.pkg pkg).conns.find conn = some { domain := BitVec.ofNat 16 dom } ∧
      t.dirEntry (gatewayName conn) = some e ∧ e.name = gatewayName conn ∧ e.state = 1 ∧ e.pkg = pkg ∧ e.die = 3 ∧ e.kind = 1 ∧ e.cidx = 1023 := by
  refine ⟨_, gatewayEntry pkg conn, execConnectionOpen_opens ho hconn hdom hnew hname, ?_, State.dirEntry_setDir_of_eq _ rfl, rfl, rfl, rfl, rfl, rfl, rfl⟩
  rw [State.pkg_setDir, State.pkg_onPkg, SMap.find_put_same]

theorem connectionCloses {conn : Nat} {c : Conn} (hc : (s.pkg pkg).conns.find conn = some c) (hruns : (s.pkg pkg).runs = true)
    (hq : (s.pkg pkg).quiesced 1 = false) (byHost : Bool) : ∃ t, exec (.connectionClose pkg conn byHost) s = .next t ∧
      (t.pkg pkg).conns.find conn = none ∧ t.dirEntry (gatewayName conn) = none ∧ ∀ l ∈ (s.pkg pkg).gwLinks, l.gateway = gatewayName conn →
        l.kind = 1 → ∃ n, Claims.signalled t n l.peer 1 (if byHost then 0 else 2) 0 (gatewayName conn) := by
  obtain ⟨hconn, hdir, htold⟩ := s.closeConn_spec pkg conn (if byHost then rNormal else rKilled)
  refine ⟨_, execConnectionClose_closes hc hruns hq byHost, ?_, ?_, fun l hl hg hk => ?_⟩
  · rw [State.conns_journal, hconn]
  · rw [State.dirEntry_journal, hdir]
  · exact ((htold l hl hg hk).later (State.journal_later ..)).signalled

/-! ## Messages and parcels of the host -/

/-- Bits 1:0 of ARG hold the channel. -/
theorem argChannel (v : Nat) : bits v 1 0 = v % 4 := by rw [bits_eq_div, pow_zero, Nat.div_one]; rfl

/-- The message that a class 2 frame carries into the pod. -/
def hostMail (conn : Nat) (domain : BitVec 16) (inc : BitVec 8) (dst arg : W64) (msg : List W64) : Msg :=
  { dst := dst, inc := BitVec.ofNat 8 (bits arg.toNat 15 8), named := arg.getLsbD 16, chan := bits arg.toNat 1 0, kind := mSend, sinc := inc
    sender := gatewayName conn, domain := domain, everyDomain := false, body := body8 msg }

theorem hostMessageLeaves {s1 : State} {c : Conn} {hd : FrameHead} (hin : s.frameIn pkg 2 hd 1 = some (c, s1)) (dst arg : W64) (msg : List W64) :
    ∃ t q m via, exec (.hostMessage pkg hd dst arg msg) s = .next t ∧ t.packet s1.serial = some q ∧ q.pay = .message m via none ∧ m.dst = dst ∧
      m.chan = arg.toNat % 4 ∧ m.kind = 0 ∧ m.sender = gatewayName hd.conn ∧ m.domain = c.domain ∧ m.body = body8 msg := by
  have hexec : exec (.hostMessage pkg hd dst arg msg) s =
      .next (s1.post pkg (.message (hostMail hd.conn c.domain (s1.liveInc (gatewayName hd.conn)) dst arg msg)
        (.free (gatewayName hd.conn) (s1.liveInc (gatewayName hd.conn)) hostDie) none)) := by
    show execHostMessage pkg hd dst arg msg s = _
    simp only [execHostMessage, evHostMessage, hin, Option.map_some, Option.getD_some]
    rfl
  exact ⟨_, _, _, _, hexec, State.packet_post .., rfl, rfl, argChannel _, rfl, rfl, rfl, rfl⟩

theorem hostParcelLeaves {s1 : State} {c : Conn} {hd : FrameHead} {body : List Byte} (hb : body ≠ [])
    (hin : s.frameIn pkg 3 hd ((body.length + 8191) / 8192) = some (c, s1)) (dst arg tag : W64) :
    ∃ t q x, exec (.hostParcel pkg hd dst arg tag body) s = .next t ∧ t.packet s1.serial = some q ∧ q.pay = .parcel x ∧ x.dst = dst ∧
      x.chan = arg.toNat % 4 ∧ x.tag = tag ∧ x.giver = gatewayName hd.conn ∧ x.domain = c.domain ∧ x.body = body := by
  have hexec : exec (.hostParcel pkg hd dst arg tag body) s =
      .next (s1.sendBody pkg (gatewayName hd.conn) c.domain dst (bits arg.toNat 1 0) tag body) := by
    show execHostParcel pkg hd dst arg tag body s = _
    simp only [execHostParcel, evHostParcel, hin, List.isEmpty_iff, hb, if_false, Option.map_some, Option.getD_some]
  exact ⟨_, _, _, hexec, State.packet_post .., rfl, rfl, argChannel _, rfl, rfl, rfl, rfl⟩

end

/-! ## The events together -/

section
variable {pkg : Nat} {s s1 : State} {c : Conn}

/-- A launch is refused by the first code that applies, or creates its flock. -/
theorem launchAnswered {hd : FrameHead} {hdr : List W64} {flock : Nat} (hin : s.frameIn pkg 1 hd 1 = some (c, s1)) (hlen : hdr.length = 8) :
    let d := fun i => (hdr.getD i 0).toNat
    let f := Flock.ofHeader d (gatewayName hd.conn) pkg hd.conn
    (∀ k, 1 ≤ k → k ≤ 8 → s1.LaunchRefused pkg c d f flock k → (∀ j, 1 ≤ j → j < k → ¬s1.LaunchRefused pkg c d f flock j) →
      exec (.launch pkg hd hdr flock) s = .next (s1.replyOut pkg hd.conn 1 1 (BitVec.ofNat 64 k) [])) ∧
    ((∀ k, 1 ≤ k → k ≤ 8 → ¬s1.LaunchRefused pkg c d f flock k) → flock < 0xFFFF → s1.flockLive flock = 0 →
      ∃ t x g, exec (.launch pkg hd hdr flock) s = .next t ∧ t.flocks.find flock = some f ∧
        (∀ i, i < f.init → t.PendingUnder f.supv (BitVec.ofNat 64 (flock * 2 ^ 48 + i))) ∧ (t.pkg pkg).conns.find hd.conn = some x ∧
        x.unacked.getLast? = some g ∧ g.cls = 1 ∧ g.flags = 3 ∧ g.arg = BitVec.ofNat 64 (flock * 2 ^ 48)) := by
  intro d f
  have hd64 : ∀ i, d i < 2 ^ 64 := fun i => (hdr.getD i 0).isLt
  refine ⟨fun k h1 h8 hk hfirst => ?_, fun hnone hlt hlive => ?_⟩
  · exact execLaunch_refused hin hlen
      ((State.launchCode_first s1 pkg c f flock hd64 h1 h8 hk hfirst).imp_left fun h => ⟨h, by omega⟩)
  · obtain ⟨h0, hz⟩ := State.launchCode_none s1 pkg c f flock hd64 hnone
    exact execLaunch_creates hin hlen h0 hz hlt hlive

/-- What becomes of a package that every other one finds lost. -/
theorem packageLoses (hfind : (s.pkgs.find pkg).isSome = true) (hl : (s.pkg pkg).lost = false) (hn : 2 ≤ s.npkg)
    (hex : ∃ q pq, s.Member pkg q pq ∧ pq.frozen = false ∧ pq.fabricStopped = false)
    (hall : ∀ q pq, s.Member pkg q pq → pq.frozen = false → pq.fabricStopped = false → pq.quiesced 3 = false ∧ s.Finds q pkg ∧
      ∀ r pr, s.Member pkg r pr → pr.frozen = true ∨ pr.fabricStopped = true → s.Finds q r) :
    ∃ t, exec (.packageLost pkg) s = .next t ∧ (t.pkg pkg).lost = true ∧
      (∀ name e, s.dirEntry name = some e → e.name = name → e.pkg = pkg → t.dirEntry name = none) ∧
      (∀ n q, (n, q) ∈ t.net → n < s.serial → (∃ m v b, q.pay = .message m v b) ∨ (∃ g, q.pay = .signal g) → q.src ≠ pkg) ∧
      ∀ k i l e, corePkg k ≠ pkg → (s.pkg (corePkg k)).frozen = false → (i, l) ∈ (s.core k).links → l.kind = 1 → s.dirEntry l.peer = some e →
        e.pkg = pkg → ∃ n, Claims.signalled t n (s.actor k l.slot).name 1 0x41 0 l.peer := by
  refine ⟨_, execPackageLost_loses hfind hl hn hex hall, s.lost_losePackage pkg, fun name e hd hname hp => s.dirEntry_losePackage hd hname hp,
    fun n q hq hlt hmail => State.src_after_loss hq hlt ?_, fun k i l e hc hf hlk hk hd hp => ?_⟩
  · rcases hmail with ⟨m, v, b, h⟩ | ⟨g, h⟩ <;> rw [h] <;> rfl
  · obtain ⟨n, p, hlt, hp, htells, -⟩ := s.losePackage_tells hc hf hlk hk hd hp
    exact State.Carries.signalled ⟨n, p, hlt, hp, htells⟩

/-- A grant that changes, or not. -/
theorem grantChanges {hd : FrameHead} {dom die cl : Nat} (hin : s.frameIn pkg 0 hd 1 = some (c, s1)) :
    let g := (s1.pkg pkg).grants.get {} dom
    let now : State → Grant := fun t => (t.pkg pkg).grants.get {} dom
    let may : Prop := c.domain = 0 ∧ dom ≠ 0 ∧ dom < 2 ^ 16 ∧ die < 4
    let told : State → Prop := fun t => ∀ q pq r, (q, pq) ∈ s1.pkgs → r ∈ pq.topoRegs → r.domain = BitVec.ofNat 16 dom →
      ∃ n, Claims.signalled t n r.name 6 rTopology 6 r.name
    (may → die ∉ g.dies ∨ (∃ u ∈ grantUnits die cl, u ∉ g.clusters ∧ u ∉ (s1.pkg pkg).lostClusters) → ∃ t,
      exec (.grantRequest pkg hd dom die cl true) s = .next t ∧ (∀ d, d ∈ (now t).dies ↔ d ∈ g.dies ∨ d = die) ∧
      (∀ u, u ∈ (now t).clusters ↔ u ∈ g.clusters ∨ u ∈ grantUnits die cl ∧ u ∉ (s1.pkg pkg).lostClusters) ∧ told t) ∧
    (may → (∃ u ∈ grantUnits die cl, u ∈ g.clusters) → (∀ u ∈ grantUnits die cl, s1.holdsOn pkg (BitVec.ofNat 16 dom) u = false) → ∃ t,
      exec (.grantRequest pkg hd dom die cl false) s = .next t ∧ (∀ u, u ∈ (now t).clusters ↔ u ∈ g.clusters ∧ u ∉ grantUnits die cl) ∧
      (∀ d, d ∈ (now t).dies ↔ d ∈ g.dies ∧ (cl < 64 ∨ d ≠ die)) ∧ told t) := by
  refine ⟨fun hmay hnew => ?_, fun hmay hold hfree => ?_⟩
  · obtain ⟨hgrant, htold⟩ := s1.regrant_spec pkg dom die cl true
    refine ⟨_, execGrantRequest_changes hin hmay (Grant.added_ne _ _ _ _ hnew) (.inl rfl), fun d => ?_, fun u => ?_, htold⟩ <;> simp only [hgrant]
    · exact Grant.dies_added ..
    · exact Grant.clusters_added ..
  · obtain ⟨hgrant, htold⟩ := s1.regrant_spec pkg dom die cl false
    refine ⟨_, execGrantRequest_changes hin hmay (Grant.removed_ne _ _ _ _ hold) (.inr hfree), fun u => ?_, fun d => ?_, htold⟩ <;> simp only [hgrant]
    · exact Grant.clusters_removed ..
    · exact Grant.dies_removed ..

end

/-- Settles O59, by what each event does to its port, package, connection or grant. -/
theorem hostEvents : Obligations.HostEvents := by
  intro pkg conn s s1 c p here gw portOf still member finds
  refine ⟨firmwareCompletes pkg conn c s s1, fun i m ⟨hf, hruns⟩ hform hb => ?_, fun i ⟨hf, hruns⟩ hform hm hbeat => linkBeats i hf hruns hform hm hbeat,
    fun hf hl hn hex hall => packageLoses hf hl hn hex hall,
    ⟨fun q i hs hl hq hd hi hlive hbefore => directoryRemapped hs hl hq hd hi hlive hbefore, fun hs hn hb => directoryMirrored hs hn hb,
      fun hs => execDirectoryMapUpdate_busy pkg hs⟩, ?_, fun cls hd frames hcls h => State.frameIn_recovering hcls h hd frames,
    fun dom ⟨hf, hruns⟩ hport hq hconn hdom hnew hname => ?_, fun byHost hc hruns hq => connectionCloses hc hruns hq byHost, ?_, ?_, ?_,
    fun f fs hc hu hold hruns => execHostRetransmit_sends hc hu hold hruns, ?_⟩
  · exact ⟨linkModeTaken i hf hruns hform hb, linkModeKept i hf hruns hform hb⟩
  · rintro cls hd frames rfl ⟨hf, hruns⟩ h0 h1 hq0 hq1 hc
    obtain ⟨hkept, hleft⟩ := c.leftAfter_spec hd
    exact ⟨fun hver hpsn => ⟨c.leftAfter hd, State.frameIn_takes (portOpen_of hf hruns h0 h1 hq0 hq1) hc hver hpsn frames, hkept, hleft⟩,
      fun h => State.frameIn_discards hc h frames⟩
  · exact connectionOpens (portOpen_of hf hruns (fun _ => hport) (fun h => absurd rfl h) (fun _ => hq) nofun) hconn hdom hnew hname
  · rintro hd hdr flock rfl hin hlen
    exact launchAnswered hin hlen
  · rintro hd dst arg msg rfl hin
    exact hostMessageLeaves hin dst arg msg
  · rintro hd dst arg tag body rfl hb hin
    exact hostParcelLeaves hb hin dst arg tag
  · rintro hd dom die cl rfl hin units g now may told
    obtain ⟨hadd, hremove⟩ := grantChanges (die := die) (dom := dom) (cl := cl) hin
    exact ⟨fun adds h => execGrantRequest_refused hin adds h, hadd, fun _ h => execGrantRequest_held hin h, hremove⟩

end Sys2Proof.Machine
end

section
/-! SUPPORT. Registers and their presence after one is written (R56, R60), and what an update of the issuing thread set leaves alone. -/

namespace Sys2Proof.Machine

/-! ## Registers -/

/-- The presence bit of a register after the bit of another is set. -/
theorem getLsbD_setPresent (p : BitVec 32) (r q : Reg) : (p ||| (1#32 <<< r.toNat)).getLsbD q.toNat = (decide (q = r) || p.getLsbD q.toNat) := by
  have hq : q.toNat < 32 := q.isLt
  have heq : decide (q = r) = decide (q.toNat = r.toNat) := decide_eq_decide.2 BitVec.toNat_inj.symm
  rw [BitVec.getLsbD_or, BitVec.getLsbD_shiftLeft, heq, Bool.or_comm]
  congr 1
  rw [Bool.eq_iff_iff]
  simp
  omega

/-- The presence bit of a register after the bit of another is cleared. -/
theorem getLsbD_clearPresent (p : BitVec 32) (r q : Reg) :
    (p &&& ~~~(1#32 <<< r.toNat)).getLsbD q.toNat = (p.getLsbD q.toNat && !decide (q = r)) := by
  have hone : (1#32 <<< r.toNat).getLsbD q.toNat = decide (q = r) := by
    simpa using getLsbD_setPresent 0 r q
  have hq : q.toNat < 32 := q.isLt
  rw [BitVec.getLsbD_and, BitVec.getLsbD_not, hone, decide_eq_true hq, Bool.true_and]

theorem Thread.readX_writeX (t : Thread) (d : Reg) (v : W64) (r : Reg) :
    (t.writeX d v).readX r = if r = 0 then 0 else if r = d then v else t.readX r := by
  rcases eq_or_ne r 0 with rfl | h0
  · rfl
  · rw [if_neg h0]
    split
    · next h => exact h ▸ t.readX_writeX_same v (h ▸ h0)
    · next h => exact t.readX_writeX_ne v h

theorem Thread.hereX_writeX_eq (t : Thread) (d : Reg) (v : W64) (r : Reg) : (t.writeX d v).hereX r = (decide (r = d) || t.hereX r) := by
  rcases eq_or_ne d 0 with rfl | hd
  · rw [Thread.writeX, if_pos rfl, Thread.hereX, ← Bool.or_assoc, Bool.or_self]
  · rw [Thread.writeX, if_neg hd, Thread.hereX, getLsbD_setPresent, Bool.or_left_comm, Thread.hereX]

theorem Thread.readV_writeV (t : Thread) (d : Reg) (v : V256) (r : Reg) : (t.writeV d v).readV r = if r = d then v else t.readV r := by
  have heq : (d.toNat = r.toNat) = (r = d) := by rw [BitVec.toNat_inj]; exact propext eq_comm
  simp only [Thread.readV, Thread.writeV, Vector.getElem_set, heq]

theorem Thread.hereV_writeV (t : Thread) (d : Reg) (v : V256) (r : Reg) : (t.writeV d v).hereV r = (decide (r = d) || t.hereV r) :=
  getLsbD_setPresent t.vp d r

/-! ## An update of the issuing thread set -/

/-- `t` differs from `s` in the issuing thread set alone. -/
def State.OnlyTh (s t : State) : Prop :=
  t = { s with cores := t.cores } ∧ (∀ c, c ≠ s.cur → t.core c = s.core c) ∧ t.me = { s.me with threads := t.me.threads } ∧
    (∀ i, i ≠ s.me.tset → t.me.thread i = s.me.thread i) ∧ t.gmem = s.gmem ∧ ∀ c a, (t.core c).mem.read a = (s.core c).mem.read a

theorem State.mem_onTh (s : State) (f : Thread → Thread) (c : Nat) : ((s.onTh f).core c).mem = (s.core c).mem := by
  rcases eq_or_ne c s.cur with rfl | hc
  · rw [State.onTh, State.onMe, State.core_onCore_same, Core.onThread_mem]
  · rw [State.onTh, State.onMe, State.core_onCore_ne _ _ hc]

theorem State.onlyTh_onTh (s : State) (f : Thread → Thread) : s.OnlyTh (s.onTh f) := by
  refine ⟨rfl, fun c hc => s.core_onCore_ne _ hc, ?_, fun i hi => ?_, rfl, fun c a => by rw [s.mem_onTh]⟩
  · rw [State.me_onTh]
    rfl
  · rw [State.me_onTh, Core.thread_onThread_ne _ _ hi]

end Sys2Proof.Machine
end

section
/-! CERTIFICATES. R56, R60: the frame of every word that writes a register; and what a package reset leaves. -/

namespace Sys2Proof.Machine

open Sys2Proof.Claims (X V wroteX wroteFp wroteV wroteVf wentOn wentTo)

/-- Settles O1: each word is one update of the issuing thread set. -/
theorem registerFrame : Obligations.RegisterFrame := by
  intro s d v pc u f fl lonely took tookV
  have htook : ∀ (w : W64) (g : Thread → Thread), (∀ r, (g s.th).readX r = (s.th.writeX d w).readX r ∧ (g s.th).hereX r = (s.th.writeX d w).hereX r) →
      took (s.onTh g) d w := fun w g h r => by
    rw [Claims.X, State.th_onTh, (h r).1, (h r).2]
    exact ⟨s.th.readX_writeX d w r, s.th.hereX_writeX_eq d w r⟩
  have htookV : ∀ g : Thread → Thread, (∀ r, (g s.th).readV r = (s.th.writeV d u).readV r ∧ (g s.th).hereV r = (s.th.writeV d u).hereV r) →
      tookV (s.onTh g) d u := fun g h r => by
    rw [Claims.V, State.th_onTh, (h r).1, (h r).2]
    exact ⟨s.th.readV_writeV d u r, s.th.hereV_writeV d u r⟩
  refine ⟨⟨s.onlyTh_onTh _, htook v _ fun _ => ⟨rfl, rfl⟩, ?_⟩, ⟨s.onlyTh_onTh _, htook _ _ fun _ => ⟨rfl, rfl⟩, ?_⟩,
    ⟨s.onlyTh_onTh _, htookV _ fun _ => ⟨rfl, rfl⟩, ?_⟩, ⟨s.onlyTh_onTh _, htookV _ fun _ => ⟨rfl, rfl⟩, ?_⟩,
    ⟨s.onlyTh_onTh _, State.th_onTh ..⟩, ⟨s.onlyTh_onTh _, State.th_onTh ..⟩⟩
  · rw [wroteX, State.th_onTh]
    unfold Thread.writeX
    split <;> rfl
  · rw [wroteFp, State.th_onTh]
    unfold Thread.writeX
    split <;> rfl
  · rw [wroteV, State.th_onTh]
    rfl
  · rw [wroteVf, State.th_onTh]
    rfl

/-- The entries 248 to 255 of every region table describe the save areas (R84). -/
theorem Core.region_saveArea (k : Core) {m : Nat} (hm : m < 8) :
    k.region (248 + m) = { valid := true, base := 368 + 2 * m, size := 2, kind := kSave } := by
  rw [Core.region, if_pos ⟨Nat.le_add_right .., by omega⟩, Nat.add_sub_cancel_left]

/-- Settles O6: the tables of the reset state list nothing, and every compute die is as its reset value says. -/
theorem resetState : Obligations.ResetState := by
  have hdies : ∀ i : Fin 4, (State.reset.pkg 0).dies[i] = DieState.compute := fun i => Vector.getElem_replicate i.isLt
  refine ⟨fun _ _ => ⟨rfl, rfl⟩, fun _ => rfl, fun _ => rfl, fun _ => rfl, fun _ => rfl, fun _ => rfl, fun _ _ => ⟨rfl, rfl⟩,
    fun m hm c => Core.region_saveArea _ hm, rfl, rfl, rfl, rfl, fun i => ?_⟩
  rw [hdies i]
  exact ⟨rfl, rfl⟩

end Sys2Proof.Machine
end

section
/-! SUPPORT. Taking a trap (R71): the handler is entered, or the actor dies (R49). -/

namespace Sys2Proof.Machine

/-- The thread set that enters a trap handler at a program counter. -/
def Thread.enterHandler (t : Thread) (r : Trap) (word : W32) (pc : W64) : Thread :=
  { t with cause := r.cause, faultva := r.va, faultpc := r.pc, faultins := if r.word then word else 0, status := t.status ||| 1, pc := pc }

/-- The actor whose trap handler is entered counts the trap. -/
def Actor.countTrap (a : Actor) : Actor := { a with traps := if a.traps = BitVec.allOnes 16 then a.traps else a.traps + 1 }

theorem neverCaught_iff (reason : Nat) : neverCaught reason = true ↔ reason = rWatchdog ∨ reason = rKilled ∨ reason = rCoreFault := by
  simp [neverCaught, or_assoc]

theorem Core.takeTrap_enters {k : Core} {i : Fin 4} {r : Trap} {entry : Nat} (he : (k.actor (k.thread i).slot).trapEntry = some entry)
    (hc : neverCaught r.reason = false) (ht : (k.thread i).inTrap = false) : k.takeTrap i r =
      (k.onThread i fun t => t.enterHandler r (k.wordAt r.pc) (BitVec.ofNat 64 (k.regionBase (k.actor (k.thread i).slot).code + entry))).onActor
        (k.thread i).slot Actor.countTrap := by
  simp only [Core.takeTrap, he, hc, ht, Bool.or_false, Bool.false_eq_true, if_false]
  rfl

theorem Core.takeTrap_kills {k : Core} {i : Fin 4} {r : Trap} (h : (k.actor (k.thread i).slot).trapEntry = none ∨ (k.thread i).inTrap = true ∨
    neverCaught r.reason = true) : k.takeTrap i r = k.die (k.thread i).slot r.reason r.sub (r.detail.zeroExtend 64) := by
  rw [Core.takeTrap]
  cases he : (k.actor (k.thread i).slot).trapEntry with
  | none => rfl
  | some entry =>
    have hor : (neverCaught r.reason || (k.thread i).inTrap) = true := by
      rw [Bool.or_eq_true]
      exact (h.resolve_left (by simp [he])).symm
    simp only [if_pos hor]

theorem Core.mem_die (k : Core) (slot reason sub : Nat) (detail : W64) : (k.die slot reason sub detail).mem = k.mem := by
  simp only [Core.die]
  split
  · rw [Core.onActor_mem]
    split <;> rfl
  · rfl

theorem Core.tset_die (k : Core) (slot reason sub : Nat) (detail : W64) : (k.die slot reason sub detail).tset = k.tset := by
  simp only [Core.die]
  split
  · rw [Core.onActor_tset]
    split <;> rfl
  · rfl

/-- A death leaves every thread set with its slot. -/
theorem Core.slot_die (k : Core) (slot reason sub : Nat) (detail : W64) (i : Fin 4) :
    ((k.die slot reason sub detail).thread i).slot = (k.thread i).slot := by
  simp only [Core.die]
  split
  · rw [Core.thread_onActor]
    split
    · rcases eq_or_ne i (Fin.ofNat 4 (k.actor slot).tsetf) with rfl | hi
      · rw [Core.thread_onThread_same]
      · rw [Core.thread_onThread_ne _ _ hi]
    · rfl
  · rfl

/-! ## The issuing thread set -/

/-- What the issuing thread set and its actor are after the core takes a trap that enters the handler. -/
structure State.Entered (s t : State) (r : Trap) (pc : W64) : Prop where
  th : t.th = s.th.enterHandler r (s.me.wordAt r.pc) pc
  self : t.self = s.self.countTrap
  mem : t.me.mem = s.me.mem
  threads : ∀ j, j ≠ s.me.tset → t.me.thread j = s.me.thread j

theorem State.entered_takeTrap {s : State} {r : Trap} {entry : Nat} (he : s.self.trapEntry = some entry) (ht : s.th.inTrap = false)
    (hc : neverCaught r.reason = false) :
    s.Entered (s.onMe fun k => k.takeTrap k.tset r) r (BitVec.ofNat 64 ((s.me.regions.get {} s.self.code).base * 1024 + entry)) := by
  have hme : (s.onMe fun k => k.takeTrap k.tset r).me = (s.me.onThread s.me.tset fun t => t.enterHandler r (s.me.wordAt r.pc)
      (BitVec.ofNat 64 ((s.me.regions.get {} s.self.code).base * 1024 + entry))).onActor s.th.slot Actor.countTrap := by
    rw [State.me_onMe]
    exact Core.takeTrap_enters he hc ht
  have hth : (s.onMe fun k => k.takeTrap k.tset r).th = s.th.enterHandler r (s.me.wordAt r.pc)
      (BitVec.ofNat 64 ((s.me.regions.get {} s.self.code).base * 1024 + entry)) := by
    rw [State.th, hme, Core.thread_onActor]
    exact Core.thread_onThread_same ..
  refine ⟨hth, ?_, ?_, fun j hj => ?_⟩
  · rw [State.self, hth, hme]
    exact Core.actor_onActor_same ..
  · rw [hme]
    rfl
  · rw [hme, Core.thread_onActor, Core.thread_onThread_ne _ _ hj]

/-- What the issuing core is after its firing's actor dies. -/
structure State.Killed (s t : State) (d : Death) : Prop where
  state : t.self.state = .dying
  dying : t.self.dying = some d
  busy : t.th.busy = false
  mem : t.me.mem = s.me.mem
  actors : ∀ j, j ≠ s.th.slot → t.me.actor j = s.me.actor j

theorem State.killed_takeTrap {s : State} {r : Trap} (hs : s.self.state = .firing) (hi : s.self.tsetf = s.me.tset.val)
    (h : s.self.trapEntry = none ∨ s.th.inTrap = true ∨ neverCaught r.reason = true) :
    s.Killed (s.onMe fun k => k.takeTrap k.tset r) { reason := r.reason, sub := r.sub, detail := r.detail.zeroExtend 64 } := by
  have hme : (s.onMe fun k => k.takeTrap k.tset r).me = s.me.die s.th.slot r.reason r.sub (r.detail.zeroExtend 64) := by
    rw [State.me_onMe]
    exact Core.takeTrap_kills h
  have hth : (s.onMe fun k => k.takeTrap k.tset r).th = (s.me.die s.th.slot r.reason r.sub (r.detail.zeroExtend 64)).thread s.me.tset := by
    rw [State.th, hme, Core.tset_die]
  have hself : (s.onMe fun k => k.takeTrap k.tset r).self = (s.me.die s.th.slot r.reason r.sub (r.detail.zeroExtend 64)).actor s.th.slot := by
    rw [State.self, hth, hme, Core.slot_die]
    rfl
  obtain ⟨hstate, hdying⟩ := Core.actor_die (k := s.me) (slot := s.th.slot) (by rw [show s.me.actor s.th.slot = s.self from rfl, hs]; rfl)
    r.reason r.sub (r.detail.zeroExtend 64)
  exact ⟨hself ▸ hstate, hself ▸ hdying, hth ▸ Core.thread_die hs hi .., hme ▸ Core.mem_die .., fun j hj => hme ▸ Core.actor_die_ne _ hj ..⟩

/-! ## STATUS and CAUSE -/

/-- CAUSE of a precise trap. -/
theorem Trap.cause_eq (reason sub det : Nat) (va pc : W64) (gaf word : Bool) :
    ({ reason := reason, sub := sub, detail := BitVec.ofNat 32 det, va := va, gaf := gaf, pc := pc, word := word } : Trap).cause =
      BitVec.ofNat 64 ((if gaf then 2 ^ 62 else 0) + reason * 2 ^ 40 + sub * 2 ^ 32 + det % 2 ^ 32) := by
  rw [Trap.cause, BitVec.toNat_ofNat, if_neg Bool.false_ne_true, Nat.zero_add]

/-- CAUSE of a precise trap that names no global address. -/
theorem Trap.cause_local (reason sub det : Nat) (va pc : W64) (word : Bool) :
    ({ reason := reason, sub := sub, detail := BitVec.ofNat 32 det, va := va, pc := pc, word := word } : Trap).cause =
      BitVec.ofNat 64 (reason * 2 ^ 40 + sub * 2 ^ 32 + det % 2 ^ 32) := by
  rw [Trap.cause_eq, if_neg Bool.false_ne_true, Nat.zero_add]

/-- Entering a handler sets STATUS.INTRAP and leaves the other bits. -/
theorem getLsbD_setInTrap (v : W64) (i : Nat) : (v ||| 1).getLsbD i = (decide (i = 0) || v.getLsbD i) := by
  rw [BitVec.getLsbD_or, Bool.or_comm, show (1 : W64) = 1#64 from rfl, BitVec.getLsbD_one]
  simp

theorem Thread.inTrap_enterHandler (t : Thread) (r : Trap) (word : W32) (pc : W64) : (t.enterHandler r word pc).inTrap = true :=
  (getLsbD_setInTrap ..).trans rfl

end Sys2Proof.Machine
end

section
/-! CERTIFICATES. Traps (R49, R71), BREAK, the end of the code region and words that are no instruction (R229, R259, R316). -/

namespace Sys2Proof.Machine

open Sys2Proof.Claims (X V)

/-- R71: a trap with a handler that may run. -/
theorem trapEntered : Claims.TrapEntered := by
  intro s reason sub det va gaf entry he ht hw hk hf _ _
  have hc : neverCaught reason = false := by
    rw [← Bool.not_eq_true, neverCaught_iff]
    rintro (h | h | h)
    · exact hw h
    · exact hk h
    · exact hf h
  obtain ⟨hth, hself, hmem, hthreads⟩ := State.entered_takeTrap
    (r := { reason := reason, sub := sub, detail := BitVec.ofNat 32 det, va := va, gaf := gaf, pc := s.th.pc }) he ht hc
  refine ⟨_, rfl, ?_⟩
  simp only [Claims.X, Claims.V, hth, hself, hmem]
  refine ⟨Trap.cause_eq .., rfl, rfl, rfl, ?_, fun i hi => ?_, rfl, fun _ => ⟨rfl, rfl, rfl, rfl⟩, rfl, rfl, rfl, rfl, rfl, rfl, rfl, rfl, trivial, rfl,
    hthreads, fun c hc => s.core_onCore_ne _ hc⟩
  · exact (getLsbD_setInTrap ..).trans rfl
  · exact (getLsbD_setInTrap ..).trans (by rw [decide_eq_false hi, Bool.false_or])

/-- R49, R71: a trap that ends the actor. -/
theorem trapKills : Claims.TrapKills := by
  intro s reason sub det va gaf hs hi h
  obtain ⟨hstate, hdying, hbusy, hmem, hactors⟩ := State.killed_takeTrap
    (r := { reason := reason, sub := sub, detail := BitVec.ofNat 32 det, va := va, gaf := gaf, pc := s.th.pc }) hs hi
    (h.imp_right (Or.imp_right (neverCaught_iff _).2))
  refine ⟨_, rfl, hstate, hdying.trans ?_, hbusy, hmem, rfl, fun c hc => s.core_onCore_ne _ hc, hactors⟩
  congr 2
  apply BitVec.eq_of_toNat_eq
  simp

/-- Settles O15: a trap enters the handler, or ends the actor. -/
theorem trapsTaken : Obligations.TrapsTaken := ⟨trapEntered, trapKills⟩

/-- Where the thread set stands beyond the end of its code region, it traps. -/
theorem execCodeEndTrap_traps {s : State} (hb : s.th.busy = true) (hin : s.me.inCode s.th.slot s.th.pc = false) :
    execCodeEndTrap s = .next (s.onMe fun k => k.takeTrap k.tset
      { reason := rRegionDeny, sub := 0x05, detail := BitVec.ofNat 32 s.self.code, va := s.th.pc, pc := s.th.pc, word := false }) := by
  simp only [execCodeEndTrap, evCodeEndTrap, hb, hin, Bool.not_false, Bool.and_self, if_true, Option.getD_some]
  rfl

/-- A word that is no instruction runs into its trap. -/
theorem State.run_bad {s : State} {w : W32} {r : Reject} (hd : s.th.deferred = none) (hw : s.fetch = some w) (hr : decode w = .bad r)
    (hbad : s.me.badRun s.th.pc.toNat 4 = none) : s.run = counted s (s.reject r) := by
  simp only [State.run, hd, Option.isSome_none, Bool.false_eq_true, if_false, hw, hbad, State.runWord, hr]

/-- Settles O16, by what a trap leaves of the thread set. -/
theorem trapInstructions : Obligations.TrapInstructions := by
  refine ⟨fun i s entry he ht => ?_, fun i s hs hi ht => ?_, fun s entry hb he ht hout => ?_, fun s r hd ⟨w, hw, hr⟩ hbad => ?_⟩
  · obtain ⟨hth, -, -, -⟩ := State.entered_takeTrap
      (r := { reason := rBreak, detail := BitVec.ofNat 32 i.toNat, pc := s.th.pc }) he ht rfl
    refine ⟨_, exec_breakTrap s, ?_⟩
    rw [hth]
    refine ⟨(Trap.cause_local ..).trans ?_, rfl, rfl, rfl, Thread.inTrap_enterHandler .., rfl⟩
    rw [Nat.zero_mul, Nat.add_zero, Nat.mod_eq_of_lt (i.isLt.trans (by decide)), rBreak]
  · obtain ⟨hstate, hdying, -, -, -⟩ := State.killed_takeTrap
      (r := { reason := rBreak, detail := BitVec.ofNat 32 i.toNat, pc := s.th.pc }) hs hi (.inr (.inl ht))
    exact ⟨_, _, exec_breakTrap s, hstate, hdying, rfl⟩
  · obtain ⟨hth, -, -, -⟩ := State.entered_takeTrap
      (r := { reason := rRegionDeny, sub := 0x05, detail := BitVec.ofNat 32 s.self.code, va := s.th.pc, pc := s.th.pc, word := false }) he ht rfl
    have hin : s.me.inCode s.th.slot s.th.pc = false := by
      rw [← Bool.not_eq_true, Core.inCode, Bool.and_eq_true, decide_eq_true_eq, decide_eq_true_eq]
      exact hout
    refine ⟨_, (exec_codeEndTrap s).trans (execCodeEndTrap_traps hb hin), ?_⟩
    rw [hth]
    exact ⟨Trap.cause_local .., rfl, rfl, rfl, rfl⟩
  · rw [State.run_bad hd hw hr hbad]
    cases r <;> rfl

end Sys2Proof.Machine
end

section
/-! SUPPORT. Control registers (R67, R68, R315): what each number reads, and when reading the channel descriptors meets no error. -/

namespace Sys2Proof.Machine

open Sys2Proof.Claims (X wroteX wentOn)

/-- The numbers of the control registers that R67 assigns. -/
def cregNumbers : List Nat :=
  List.range 0x0C ++ [0x10, 0x11, 0x12, 0x13, 0x14, 0x15, 0x16, 0x18, 0x19, 0x1A, 0x1B, 0x20, 0x21, 0x22, 0x23, 0x24]

theorem State.creg_none_iff (s : State) (n : Nat) : s.creg n = none ↔ n ∉ cregNumbers := by
  unfold State.creg
  split
  case h_29 => simpa [cregNumbers, List.range_succ] using by tauto
  all_goals simp [cregNumbers]

theorem Actor.opcnt_eq (a : Actor) : a.opcnt = BitVec.ofNat 64 (a.cl + a.cs * 2 ^ 8 + a.cp * 2 ^ 16 + a.mt * 2 ^ 24) := by
  rw [Actor.opcnt]
  congr 1
  omega

theorem Core.noteBad_of_bad_nil {k : Core} (h : k.bad = []) (slot a n : Nat) : k.noteBad slot a n = k := by
  rw [Core.noteBad, Core.badRun, h]
  rfl

theorem Core.noteChan_of_bad_nil {k : Core} (h : k.bad = []) (slot c : Nat) : k.noteChan slot c = k := Core.noteBad_of_bad_nil h ..

theorem State.badCreg_eq (s : State) (n : Nat) :
    s.badCreg n = if 0xC0 ≤ n ∧ s.th.status.getLsbD 1 = false then s.trap 0x11 2 else s.trap 0x10 7 := by
  simp only [State.badCreg, ge_iff_le, Bool.not_eq_true']
  rfl

section
variable {d a : Reg} {s : State}

theorem execMfcr_unassigned {r : BitVec 8} (h : s.creg r.toNat = none) : execMfcr d r s = s.badCreg r.toNat := by
  rw [execMfcr, h]

theorem execMfcr_reads (hd : s.th.hereXs [d] = true) {r : BitVec 8} {v : W64} (h : s.creg r.toNat = some v) (hr : r ≠ 0x14) :
    execMfcr d r s = .next (wroteX s d v) := by
  simp only [execMfcr, h, withX_here hd, if_neg hr, finish_writeX]

/-- CHANCNT is read with the errors of the four descriptors. -/
theorem execMfcr_chancnt (hd : s.th.hereXs [d] = true) : execMfcr d 0x14 s =
    .next (wroteX (s.onMe fun k => [0, 1, 2, 3].foldl (fun k c => k.noteChan s.th.slot c) k) d (s.me.chancnt s.th.slot)) := by
  have hread : s.creg (0x14 : BitVec 8).toNat = some (s.me.chancnt s.th.slot) := rfl
  simp only [execMfcr, hread, withX_here hd, if_true, finish_writeX]

theorem execMtcr_other {r : BitVec 8} (h : r.toNat ∉ [0, 1, 2, 6]) : execMtcr a r s = s.badCreg r.toNat := by
  rw [execMtcr]
  split
  all_goals simp_all

section
variable (ha : s.th.hereXs [a] = true)
include ha

theorem execMtcr_cause : execMtcr a 0 s = s.finish fun t => { t with cause := X s a &&& 0xC000FFFFFFFFFFFF } := by
  simp only [execMtcr]
  exact withX_here ha

theorem execMtcr_faultva : execMtcr a 1 s = s.finish fun t => { t with faultva := X s a } := by
  simp only [execMtcr]
  exact withX_here ha

theorem execMtcr_faultpc : execMtcr a 2 s = s.finish fun t => { t with faultpc := X s a } := by
  simp only [execMtcr]
  exact withX_here ha

theorem execMtcr_qnt : execMtcr a 6 s = s.finish fun t => { t with qnt := X s a &&& 7 } := by
  simp only [execMtcr]
  exact withX_here ha

theorem execFpctlWrite_writes (h : (X s a &&& 7).toNat ≤ 4) :
    execFpctlWrite a s = s.finish fun t => { t with fpctl := X s a &&& 0xFF } := by
  rw [execFpctlWrite, withX_here ha]
  exact if_neg (by rw [BitVec.and_assoc]; exact Nat.not_lt.2 h)

theorem execFpctlWrite_reserved (h : 4 < (X s a &&& 7).toNat) : execFpctlWrite a s = s.trap rIllegal 3 := by
  rw [execFpctlWrite, withX_here ha]
  exact if_pos (by rw [BitVec.and_assoc]; exact h)

theorem execVlenWrite_writes (h : (X s a).toNat % 64 ≤ 32) : execVlenWrite a s = s.finish fun t => { t with vlen := (X s a).setWidth 6 } := by
  rw [execVlenWrite, withX_here ha, ← BitVec.ofNat_toNat]
  exact if_neg (by rw [BitVec.toNat_ofNat]; exact Nat.not_lt.2 h)

theorem execVlenWrite_beyond (h : 32 < (X s a).toNat % 64) : execVlenWrite a s = s.trap rIllegal 3 := by
  rw [execVlenWrite, withX_here ha]
  exact if_pos (by rw [BitVec.toNat_ofNat]; exact h)

/-! ## Timers (R69, R312) -/

/-- `s` after its actor's timer has been written and the instruction goes on. -/
def State.timed (s : State) (v : W64) : Answer := (s.onSelf fun n => { n with timer := v, timerAt := s.now s.cur }).finish id

omit ha in
theorem State.afterExpiry_early {k : State → Answer} (h : s.self.timerDue (s.now s.cur) = false) : s.afterExpiry k = k s := by
  rw [State.afterExpiry, if_neg (by simp [h])]

omit ha in
theorem State.afterExpiry_due {k : State → Answer} (h : s.self.timerDue (s.now s.cur) = true)
    (hb : (s.onMe fun n => n.expireTimer s.cur s.th.slot (s.now s.cur)).th.busy = true) :
    s.afterExpiry k = k (s.onMe fun n => n.expireTimer s.cur s.th.slot (s.now s.cur)) := by
  rw [State.afterExpiry, if_pos h]
  exact if_pos hb

theorem execTimerWrite_eq : execTimerWrite a s = s.afterExpiry fun u => u.timed (X s a) := by
  rw [execTimerWrite, withX_here ha]
  rfl

theorem execTmset_eq : execTmset a s = s.afterExpiry fun u => u.timed (X s a ||| 0x8000000000000000) := by
  rw [execTmset, withX_here ha]
  rfl

end

end

end Sys2Proof.Machine
end

section
/-! CERTIFICATES. Reading and writing control registers (R67 to R70, R312, R315). -/

namespace Sys2Proof.Machine

open Sys2Proof.Claims (X wroteX wentOn)

/-- Settles O18: every assigned number reads its register, and every other traps. -/
theorem controlReads : Obligations.ControlReads := by
  intro d s hd t a noted
  refine ⟨fun p hp => ?_, execMfcr_chancnt hd, fun hbad => ?_, fun r hr => ?_, fun r => s.creg_none_iff r.toNat⟩
  · have hread : s.creg p.1.toNat = some p.2 ∧ p.1 ≠ 0x14 := by
      revert p
      simp [State.creg, Actor.opcnt_eq, State.now, corePkg, a, t]
    exact execMfcr_reads hd hread.1 hread.2
  · have h1 := Core.noteChan_of_bad_nil hbad t.slot
    simp only [noted, State.me_onMe, h1]
  · rw [exec_mfcr, execMfcr_unassigned hr, State.badCreg_eq]

/-- Settles O19, row by row of R68. -/
theorem controlWrites : Obligations.ControlWrites := by
  intro a s ha v wrote self due late
  refine ⟨?_, ?_, ?_, ?_, fun r hr => ?_, ?_, fun h => execFpctlWrite_writes ha h, fun h => execFpctlWrite_reserved ha h, ?_,
    fun h => execVlenWrite_writes ha h, fun h => execVlenWrite_beyond ha h, ?_, fun h => ?_, fun h => ?_, fun h hb => ⟨?_, ?_⟩⟩
  · exact (exec_mtcr s).trans (execMtcr_cause ha)
  · exact (exec_mtcr s).trans (execMtcr_faultva ha)
  · exact (exec_mtcr s).trans (execMtcr_faultpc ha)
  · exact (exec_mtcr s).trans (execMtcr_qnt ha)
  · have hn : r.toNat ∉ [0, 1, 2, 6] := fun h => by
      have h4 : r ∈ [0, 1, 2, 6] := by simpa [← BitVec.toNat_inj] using h
      exact hr ((by decide : ([0, 1, 2, 6] : List (BitVec 8)) ⊆ _) h4)
    rw [exec_mtcr, execMtcr_other hn, State.badCreg_eq]
  · rw [exec_statusWrite, execStatusWrite, withX_here ha]
    rfl
  · rw [exec_eperrWrite, execEperrWrite, withX_here ha]
    rfl
  · rw [exec_hmaskWrite, execHmaskWrite, withX_here ha, BitVec.ofNat_toNat]
    rfl
  · rw [exec_timerWrite, execTimerWrite_eq ha, State.afterExpiry_early h]
    rfl
  · rw [exec_tmset, execTmset_eq ha, State.afterExpiry_early h]
    rfl
  · rw [exec_timerWrite, execTimerWrite_eq ha, State.afterExpiry_due h hb]
    rfl
  · rw [exec_tmset, execTmset_eq ha, State.afterExpiry_due h hb]
    rfl

end Sys2Proof.Machine
end

section
/-! SUPPORT. The send allowance (R179, R301): what a message that enters it leaves, and the cases of the sending instructions. -/

namespace Sys2Proof.Machine

open Sys2Proof.Claims (X V wroteX wentOn posted)

/-- The entry of the send allowance that takes a message. -/
def State.allowanceEntry (s : State) (m : Msg) : SendEntry :=
  { id := s.me.next, slot := s.th.slot, fid := s.th.fid, tset := s.me.tset, order := s.me.next, msg := m, firstAt := s.now s.cur }

@[simp] theorem State.th_sendNow (s : State) (m : Msg) : (s.sendNow m).th = { s.th with sendleft := s.th.sendleft - 1 } := by
  rw [State.sendNow, State.th_post, State.th_onTh, State.th_onMe_of_threads]
  · rfl
  · rfl

/-- What the instruction that puts a message into the send allowance leaves, whatever it does to its registers. -/
theorem State.sendNow_spec (s : State) (m : Msg) {g : Thread → Thread} (hg : ∀ t, (g t).slot = t.slot) :
    let t := (s.sendNow m).onTh g
    t.th = g { s.th with sendleft := s.th.sendleft - 1 } ∧ t.me.sends = s.me.sends ++ [s.allowanceEntry m] ∧
      t.packet s.serial = some (posted s (.message m (.entry s.cur s.me.next) none)) ∧ t.me.mem = s.me.mem ∧ t.gmem = s.gmem ∧
      t.self = s.self := by
  intro t
  have hth : t.th = g { s.th with sendleft := s.th.sendleft - 1 } := by rw [State.th_onTh, State.th_sendNow]
  have hslot : t.th.slot = s.th.slot := by rw [hth, hg]
  have hme : t.me = (({ s.me with sends := s.me.sends ++ [s.allowanceEntry m], next := s.me.next + 1 } : Core).onThread s.me.tset
      fun t => { t with sendleft := t.sendleft - 1 }).onThread s.me.tset g := by
    simp only [t, State.sendNow, State.me_onTh, State.me_post, State.me_onMe]
    rfl
  refine ⟨hth, by rw [hme]; rfl, State.packet_post .., by rw [hme]; rfl, rfl, ?_⟩
  rw [State.self, hslot, hme]
  rfl

/-- `t` is `s` after `m` has entered the send allowance, with the x registers that read as given. -/
def State.SentBy (s t : State) (m : Msg) (x : Reg → W64) : Prop :=
  ∃ e, t.th.sendleft = s.th.sendleft - 1 ∧ t.th.pc = s.th.pc + 4 ∧ t.th.m = s.th.m ∧ t.me.sends = s.me.sends ++ [e] ∧ e.msg = m ∧
    e.id = s.me.next ∧ e.slot = s.th.slot ∧ e.fid = s.th.fid ∧ e.phase = .waiting ∧
    t.packet s.serial = some (posted s (.message m (.entry s.cur s.me.next) none)) ∧ (∀ r, X t r = x r) ∧ (∀ r, V t r = V s r) ∧
    t.me.mem = s.me.mem ∧ t.gmem = s.gmem ∧ t.self = s.self

theorem State.sentBy_wentOn (s : State) (m : Msg) : s.SentBy (wentOn (s.sendNow m)) m (X s) := by
  obtain ⟨hth, hsends, hpacket, hmem, hgmem, hself⟩ := s.sendNow_spec m (g := Thread.nextPc) fun _ => rfl
  have hth : (wentOn (s.sendNow m)).th = _ := hth
  refine ⟨s.allowanceEntry m, by rw [hth]; rfl, by rw [hth]; rfl, by rw [hth]; rfl, hsends, rfl, rfl, rfl, rfl, rfl, hpacket,
    fun r => by rw [X, hth]; rfl, fun r => by rw [V, hth]; rfl, hmem, hgmem, hself⟩

theorem State.sentBy_wroteX_zero (s : State) (m : Msg) (d : Reg) :
    s.SentBy (wroteX (s.sendNow m) d 0) m fun r => if r = d then 0 else X s r := by
  obtain ⟨hth, hsends, hpacket, hmem, hgmem, hself⟩ := s.sendNow_spec m (g := fun t => (t.writeX d 0).nextPc) fun t => t.writeX_slot d 0
  have hth : (wroteX (s.sendNow m) d 0).th = _ := hth
  refine ⟨s.allowanceEntry m, ?_, ?_, ?_, hsends, rfl, rfl, rfl, rfl, rfl, hpacket, fun r => ?_, fun r => ?_, hmem, hgmem, hself⟩
  · rw [hth, Thread.nextPc_sendleft, Thread.writeX_sendleft]
  · rw [hth, Thread.nextPc_pc, Thread.writeX_pc]
  · rw [hth, Thread.nextPc_m, Thread.writeX_m]
  · rw [X, hth]
    refine (Thread.readX_writeX ..).trans ?_
    rcases eq_or_ne r 0 with rfl | hr
    · exact (if_pos rfl).trans (ite_self _).symm
    · exact if_neg hr
  · rw [V, hth]
    simp only [Thread.readV, Thread.nextPc_v, Thread.writeX_v]

section
variable {d a b : Reg} {c : BitVec 2} {s : State}

theorem State.sendOrTrap_sends {m : Msg} (h : s.th.sendleft ≠ 0) : s.sendOrTrap m = (s.sendNow m).finish id := if_neg h

theorem State.sendOrTrap_limit {m : Msg} (h : s.th.sendleft = 0) : s.sendOrTrap m = s.trap rSendLimit 0 s.self.prodOf := if_pos h

theorem State.privileged_allowed {k : Answer} (h : s.th.isPriv = true) : s.privileged k = k := if_pos h

theorem State.privileged_denied {k : Answer} (h : s.th.isPriv = false) : s.privileged k = s.trap rPriv 0x01 :=
  if_neg (by rw [h]; exact Bool.false_ne_true)

theorem execSend_eq (h : s.th.hereXs [a, b] = true) :
    execSend a b c s = s.sendOrTrap (s.message (X s a) (X s b) c.toNat mSend false s.th.m) := withX_here h

theorem execPsend_eq (h : s.th.hereXs [a, b] = true) (hp : s.th.isPriv = true) :
    execPsend a b c s = s.sendOrTrap (s.message (X s a) (X s b) c.toNat mSend true s.th.m) :=
  (State.privileged_allowed hp).trans (withX_here h)

section
variable (h : s.th.hereXs [a, b, d] = true)
include h

theorem execSendi_eq : execSendi d a b c s = s.sendOrTrap (s.message (X s a) 0 c.toNat mSendi false #v[X s d, X s b, 0, 0, 0, 0, 0, 0]) :=
  withX_here h

theorem execSendNb_sends (hl : s.th.sendleft ≠ 0) :
    execSendNb d a b c s = (s.sendNow (s.message (X s a) (X s b) c.toNat mSend false s.th.m)).finish (·.writeX d 0) :=
  (withX_here h).trans (if_neg hl)

theorem execSendNb_limit (hl : s.th.sendleft = 0) : execSendNb d a b c s = .next (wroteX s d 1) := (withX_here h).trans (if_pos hl)

end

end

end Sys2Proof.Machine
end

section
/-! CERTIFICATES. Sending instructions (R64, R179, R301). -/

namespace Sys2Proof.Machine

open Sys2Proof.Claims (X V wroteX wentOn posted)

/-- Settles O34: below the production bound the message enters the send allowance, at it the instruction reports or traps. -/
theorem sends : Obligations.Sends := by
  intro d a b c s h msg mb nb all
  have hab : s.th.hereXs [a, b] = true := by
    rw [Thread.hereXs_cons, Thread.hereXs_cons] at h ⊢
    exact ⟨h.1, h.2.1, rfl⟩
  have hmsg : ∀ (kind : BitVec 3) (every : Bool) (body : Vector W64 8), s.message (X s a) (X s b) c.toNat kind every body = msg mb nb kind every body :=
    fun kind every body => by rw [State.message, BitVec.ofNat_toNat]
  refine ⟨fun p hp hpriv hl => ?_, fun hl => ⟨?_, ?_, ?_⟩, fun hp => ?_⟩
  · have hwent : ∀ i m, i ≠ .sendNb d a b c → exec i s = .next (wentOn (s.sendNow m)) → ∃ t, exec i s = .next t ∧
        s.SentBy t m fun r => if i = .sendNb d a b c ∧ r = d then 0 else X s r := fun i m hi hx => by
      refine ⟨_, hx, ?_⟩
      simp only [hi, false_and, if_false]
      exact s.sentBy_wentOn m
    have hsent : ∃ t, exec p.1 s = .next t ∧ s.SentBy t p.2 fun r => if p.1 = .sendNb d a b c ∧ r = d then 0 else X s r := by
      simp only [all, List.mem_cons, List.not_mem_nil, or_false] at hp
      rcases hp with rfl | rfl | rfl | rfl
      · refine hwent _ _ nofun ?_
        rw [exec_send, execSend_eq hab, State.sendOrTrap_sends hl, hmsg, finish_id]
        rfl
      · refine ⟨_, (exec_sendNb s).trans (execSendNb_sends h hl), ?_⟩
        simp only [true_and, hmsg]
        exact s.sentBy_wroteX_zero _ d
      · refine hwent _ _ nofun ?_
        rw [exec_sendi, execSendi_eq h, State.sendOrTrap_sends hl, finish_id]
        rfl
      · refine hwent _ _ nofun ?_
        rw [exec_psend, execPsend_eq hab (hpriv rfl), State.sendOrTrap_sends hl, hmsg, finish_id]
        rfl
    obtain ⟨t, hx, e, ht⟩ := hsent
    exact ⟨t, e, hx, ht⟩
  · rw [exec_send, execSend_eq hab, State.sendOrTrap_limit hl]
    rfl
  · rw [exec_sendi, execSendi_eq h, State.sendOrTrap_limit hl]
    rfl
  · rw [exec_sendNb, execSendNb_limit h hl]
  · rw [exec_psend, execPsend, State.privileged_denied hp]
    rfl

end Sys2Proof.Machine
end

section
/-! SUPPORT. Stream bindings (R65) and the stream instructions (R292, R293), one lemma for each case of an instruction. -/

namespace Sys2Proof

/-- The number that little-endian bytes stand for, as a sum over their places. -/
theorem ofBytes_eq_sum (l : List Byte) : ofBytes l = ((List.range l.length).map fun j => (l[j]?.getD 0).toNat * 256 ^ j).sum := by
  induction l with
  | nil => rfl
  | cons b l ih =>
    rw [ofBytes, ih, List.length_cons, List.range_succ_eq_map, List.map_cons, List.sum_cons, List.map_map, ← List.sum_map_mul_left]
    simp [Function.comp_def, Nat.pow_succ', Nat.mul_left_comm]

end Sys2Proof

namespace Sys2Proof.Machine

open Sys2Proof.Claims (X)

/-! ## Bindings -/

theorem bits_low_byte (v : Nat) : bits v 7 0 = v % 256 := by rw [bits_eq_div, Nat.pow_zero, Nat.div_one]; rfl

theorem sRidx_eq (v : W64) : sRidx v = v.toNat / 2 ^ 48 % 256 := bits_eq_div ..

theorem sHead_eq (v : W64) : sHead v = v.toNat / 2 ^ 16 % 2 ^ 16 := bits_eq_div ..

theorem sCnt_eq (v : W64) : sCnt v = v.toNat % 2 ^ 16 := by rw [sCnt, bits_eq_div, Nat.pow_zero, Nat.div_one]

theorem sClose_eq (v : W64) : sClose v = sMake (sWrites v) true (sRidx v) (sHead v) (if sWrites v then sCnt v else 0) := by
  rw [sClose]
  cases sWrites v <;> rfl

/-- A thread set that puts a binding into a stream register and goes on. -/
def Thread.bind (t : Thread) (i : Fin 4) (v : W64) : Thread := ({ t with st := t.st.set i v } : Thread).nextPc

/-- Letting a stream register go changes the copy engine of the cluster alone. -/
theorem State.cores_letGo (s : State) (c fid : Nat) (i : Fin 4) (v : W64) : (s.letGo c fid i v).cores = s.cores := by
  unfold State.letGo
  split <;> rfl

theorem State.cur_letGo (s : State) (c fid : Nat) (i : Fin 4) (v : W64) : (s.letGo c fid i v).cur = s.cur := by
  unfold State.letGo
  split <;> rfl

theorem State.gmem_letGo (s : State) (c fid : Nat) (i : Fin 4) (v : W64) : (s.letGo c fid i v).gmem = s.gmem := by
  unfold State.letGo
  split <;> rfl

theorem State.letGo_unbound (s : State) (c fid : Nat) (i : Fin 4) {v : W64} (h : sBound v = false) : s.letGo c fid i v = s :=
  if_neg (by rw [h]; exact Bool.false_ne_true)

/-- The issuing thread set is found in the cores. -/
theorem State.th_of_cores {s t : State} (hc : t.cores = s.cores) (hcur : t.cur = s.cur) : t.th = s.th := by
  simp only [State.th, State.me, State.core, hc, hcur]

theorem State.cores_onTh_of_cores {s t : State} (hc : t.cores = s.cores) (hcur : t.cur = s.cur) (f : Thread → Thread) :
    (t.onTh f).cores = (s.onTh f).cores := by
  simp only [State.onTh, State.onMe, State.onCore, State.setCore, State.core, hc, hcur]

section
variable {d a : Reg} {s : State}

/-! ## Binding (R292) -/

section
variable (ha : s.th.hereXs [a] = true)
include ha

/-- The region of a binding is not the actor's. -/
theorem bindStream_denied (h : (s.me.regions.get {} ((X s a).toNat % 256)).valid = false ∨
    (s.me.regions.get {} ((X s a).toNat % 256)).owner ≠ s.th.slot) (w : Bool) :
    bindStream w d a s = s.trap rRegionDeny 1 ((X s a).toNat % 256) := by
  rw [bindStream, withX_here ha, bits_low_byte]
  exact if_pos (by simpa using h)

/-- A stream buffer of the actor that no other stream register names is bound. -/
theorem bindStream_binds {e : RegEntry} (he : s.me.regions.get {} ((X s a).toNat % 256) = e) (hv : e.valid = true) (ho : e.owner = s.th.slot)
    (ht : e.tomb = false) (hk : e.kind = kStream)
    (hfree : ∀ j : Fin 4, j ≠ sIndex d → ¬(sBound s.th.st[j] = true ∧ sRidx s.th.st[j] = (X s a).toNat % 256)) (w : Bool) :
    bindStream w d a s = .next ((s.letGo s.cur s.th.fid (sIndex d) s.th.st[sIndex d]).onTh
      (·.bind (sIndex d) (sMake w false ((X s a).toNat % 256) 0 (if w then e.streamWords else 0)))) := by
  have hany : ((List.range 4).any fun j => j != (sIndex d).val && sBound (s.th.st[j]?.getD 0) &&
      sRidx (s.th.st[j]?.getD 0) == (X s a).toNat % 256) = false := by
    rw [List.any_eq_false]
    intro j hj h
    have hj4 : j < 4 := List.mem_range.1 hj
    rw [Vector.getElem?_eq_getElem hj4, Option.getD_some, Bool.and_eq_true, Bool.and_eq_true, bne_iff_ne, beq_iff_eq] at h
    obtain ⟨⟨hne, hb⟩, hr⟩ := h
    exact hfree ⟨j, hj4⟩ (fun he => hne (congrArg Fin.val he)) ⟨hb, hr⟩
  rw [bindStream, withX_here ha, bits_low_byte]
  simp only [he, hv, ho, ht, hk, hany, Bool.not_true, bne_self_eq_false, Bool.or_self, Bool.false_eq_true, ne_eq, not_true, if_false]
  rfl

end

theorem execSunbind_lets_go : execSunbind d s =
    .next ((s.letGo s.cur s.th.fid (sIndex d) s.th.st[sIndex d]).onTh (·.bind (sIndex d) 0)) := rfl

theorem execSunbind_unbound (h : sBound s.th.st[sIndex d] = false) : execSunbind d s = .next (s.onTh (·.bind (sIndex d) 0)) := by
  rw [execSunbind_lets_go, State.letGo_unbound _ _ _ _ h]

/-! ## Reading (R293) -/

section
variable (hd : s.th.hereXs [d] = true) (hacq : s.me.acquiring s.th.fid = false)
include hd hacq

theorem execSrd_illegal (h : sBound s.th.st[sIndex a] = false ∨ sWrites s.th.st[sIndex a] = true) : execSrd d a s = s.trap rIllegal 5 := by
  rw [execSrd, withX_here hd, access_eq hacq]
  exact if_pos (by simpa using h)

section
variable (hb : sBound s.th.st[sIndex a] = true) (hr : sWrites s.th.st[sIndex a] = false)
include hb hr

theorem execSrd_empty (hn : sCnt s.th.st[sIndex a] = 0) :
    execSrd d a s = if sClosed s.th.st[sIndex a] then s.trap rStreamClosed 0 (sIndex a).val else s.stall := by
  rw [execSrd, withX_here hd, access_eq hacq]
  simp only [hb, hr, hn, Bool.not_true, Bool.or_self, Bool.false_eq_true, if_false, if_true]

theorem execSrd_reads {e : RegEntry} (he : s.me.regions.get {} (sRidx s.th.st[sIndex a]) = e) (hn : sCnt s.th.st[sIndex a] ≠ 0)
    (hbad : s.me.badWord e (streamAddr e s.th.st[sIndex a]) 8 = none) :
    execSrd d a s = .next (s.onTh fun t => ({ t.clearX d with
      landing := some (d, BitVec.ofNat 64 (ofBytes (s.me.readIn e (streamAddr e s.th.st[sIndex a]) 8))) } : Thread).bind (sIndex a)
        (sStep s.th.st[sIndex a] e.streamWords)) := by
  rw [execSrd, withX_here hd, access_eq hacq]
  simp only [he, hb, hr, hn, hbad, Bool.not_true, Bool.or_self, Bool.false_eq_true, if_false, State.finish, Thread.bind, Thread.clearX_st]

end

end

theorem Core.badWord_none {k : Core} {e : RegEntry} {a n : Nat} (h : ∀ j < n, e.place (a + j) / 8 ∉ k.bad) : k.badWord e a n = none := by
  rw [Core.badWord, List.find?_eq_none]
  intro w hw hin
  rw [RegEntry.bankWords, List.mem_eraseDups, List.mem_map] at hw
  obtain ⟨j, hj, rfl⟩ := hw
  exact h j (List.mem_range.1 hj) (List.contains_iff_mem.1 hin)

/-- A doubleword of a region, byte by byte. -/
theorem Core.ofBytes_readIn (k : Core) (e : RegEntry) (a n : Nat) :
    ofBytes (k.readIn e a n) = ((List.range n).map fun j => (k.mem.read (e.place (a + j))).toNat * 256 ^ j).sum := by
  have hmap : ∀ (n a : Nat), k.mem.readMap e.place a n = (List.range n).map fun j => k.mem.read (e.place (a + j)) := fun n => by
    induction n with
    | zero => exact fun _ => rfl
    | succ n ih =>
      intro a
      rw [Memory.readMap, ih, List.range_succ_eq_map, List.map_cons, List.map_map]
      simp only [Function.comp_def, Nat.succ_eq_add_one, Nat.add_assoc, Nat.add_comm 1, Nat.add_zero]
  rw [Core.readIn, hmap, ofBytes_eq_sum, List.length_map, List.length_range]
  congr 1
  refine List.map_congr_left fun j hj => ?_
  simp [List.mem_range.1 hj]

/-! ## Writing (R293) -/

section
variable (ha : s.th.hereXs [a] = true) (hacq : s.me.acquiring s.th.fid = false)
include ha hacq

theorem execSwr_illegal (h : sBound s.th.st[sIndex d] = false ∨ sWrites s.th.st[sIndex d] = false) : execSwr d a s = s.trap rIllegal 5 := by
  rw [execSwr, withX_here ha, access_eq hacq]
  exact if_pos (by simpa using h)

section
variable (hb : sBound s.th.st[sIndex d] = true) (hw : sWrites s.th.st[sIndex d] = true)
include hb hw

theorem execSwr_closed (hc : sClosed s.th.st[sIndex d] = true) : execSwr d a s = s.trap rStreamClosed 0 (sIndex d).val := by
  rw [execSwr, withX_here ha, access_eq hacq]
  simp only [hb, hw, hc, Bool.not_true, Bool.or_self, Bool.false_eq_true, if_false, if_true]

variable (hc : sClosed s.th.st[sIndex d] = false)
include hc

theorem execSwr_full (hn : sCnt s.th.st[sIndex d] = 0) : execSwr d a s = s.stall := by
  rw [execSwr, withX_here ha, access_eq hacq]
  simp only [hb, hw, hc, hn, Bool.not_true, Bool.or_self, Bool.false_eq_true, if_false, decide_true, Bool.true_or, if_true]

theorem execSwr_writes {e : RegEntry} (he : s.me.regions.get {} (sRidx s.th.st[sIndex d]) = e) (hn : sCnt s.th.st[sIndex d] ≠ 0)
    (hcow : s.me.cowHit e (streamAddr e s.th.st[sIndex d]) 8 = false) :
    execSwr d a s = .next ((s.storeIn e (streamAddr e s.th.st[sIndex d]) (toBytes 8 (X s a).toNat)).onTh
      (·.bind (sIndex d) (sStep s.th.st[sIndex d] e.streamWords))) := by
  rw [execSwr, withX_here ha, access_eq hacq]
  simp only [he, hb, hw, hc, hn, hcow, Bool.not_true, Bool.or_self, Bool.false_eq_true, if_false, decide_false, State.finish, Thread.bind]

end

end

/-! ## Closing (R293) -/

theorem execSclose_illegal (h : sBound s.th.st[sIndex d] = false) : execSclose d s = s.trap rIllegal 5 := if_pos (by rw [h]; rfl)

theorem execSclose_closes (h : sBound s.th.st[sIndex d] = true) :
    execSclose d s = .next (s.onTh (·.bind (sIndex d) (sClose s.th.st[sIndex d]))) :=
  if_neg (by rw [h]; exact Bool.false_ne_true)

end

/-- The word that a stream read took reaches its register when cycles pass. -/
theorem Thread.land_some {t : Thread} {n : Nat} {r : Reg} {v : W64} (hn : 0 < n) (h : t.landing = some (r, v)) :
    t.land n = { t.writeX r v with landing := none } := by
  rw [Thread.land, if_neg hn.ne', h]

end Sys2Proof.Machine
end

section
/-! CERTIFICATES. Stream instructions (R65, R292, R293). -/

namespace Sys2Proof.Machine

open Sys2Proof.Claims (X)

/-- Settles O32, case by case of each instruction. -/
theorem streams : Obligations.Streams := by
  intro d a s hacq xd xa i e sd sa vd va mk step put ra rd pa pd
  have hstep : ∀ v g, step v g = sStep v (RegEntry.streamWords g) := fun v g => by
    rw [sStep, sRidx_eq, sHead_eq, sCnt_eq]
    rfl
  have hra : s.me.regions.get {} (sRidx va) = ra := by rw [sRidx_eq]
  have hrd : s.me.regions.get {} (sRidx vd) = rd := by rw [sRidx_eq]
  have hpa : streamAddr ra s.th.st[sIndex a] = pa := by rw [streamAddr, sHead_eq]; rfl
  have hpd : streamAddr rd s.th.st[sIndex d] = pd := by rw [streamAddr, sHead_eq]; rfl
  refine ⟨fun ha hv ho ht hk hfree => ?_, fun ha h => ?_, fun hb => ?_, fun _ => ?_, fun hd h => ?_, fun hd hb hr hn => ?_,
    fun hd hb hr hn hbad => ?_, fun t n v hn h => Thread.land_some hn h, fun ha h => ?_, fun ha hb hw hc => ?_, fun ha hb hw hc hn => ?_,
    fun ha hb hw hc hn hbad hcow => ?_, fun h => ?_, fun h => ?_⟩
  · have hbind := bindStream_binds (d := d) ha rfl hv ho ht hk fun j hj h => hfree j hj ⟨h.1, sRidx_eq _ ▸ h.2⟩
    have hleft := State.cores_onTh_of_cores (s.cores_letGo s.cur s.th.fid (sIndex d) vd) (s.cur_letGo s.cur s.th.fid (sIndex d) vd)
    exact ⟨⟨_, (exec_sbindR s).trans (hbind false), hleft _, s.gmem_letGo ..⟩, ⟨_, (exec_sbindW s).trans (hbind true), hleft _, s.gmem_letGo ..⟩⟩
  · simp only [List.forall_mem_cons, List.not_mem_nil, false_imp_iff, implies_true, and_true]
    exact ⟨(exec_sbindR s).trans (bindStream_denied ha h false), (exec_sbindW s).trans (bindStream_denied ha h true)⟩
  · exact (exec_sunbind s).trans (execSunbind_unbound hb)
  · have hcores := s.cores_letGo s.cur s.th.fid sd vd
    have hcur := s.cur_letGo s.cur s.th.fid sd vd
    exact ⟨_, exec_sunbind s, (State.th_onTh ..).trans (congrArg (put sd 0) (State.th_of_cores hcores hcur)), State.cores_onTh_of_cores hcores hcur _⟩
  · exact (exec_srd s).trans (execSrd_illegal hd hacq h)
  · exact (exec_srd s).trans (execSrd_empty hd hacq hb hr ((sCnt_eq va).trans hn))
  · rw [← hpa] at hbad
    rw [exec_srd, execSrd_reads hd hacq hb hr hra (fun h => hn ((sCnt_eq va).symm.trans h)) (Core.badWord_none hbad), Core.ofBytes_readIn, hpa, ← hstep]
    rfl
  · exact (exec_swr s).trans (execSwr_illegal ha hacq h)
  · exact (exec_swr s).trans (execSwr_closed ha hacq hb hw hc)
  · exact (exec_swr s).trans (execSwr_full ha hacq hb hw hc ((sCnt_eq vd).trans hn))
  · have hmark : s.me.cowHit rd (streamAddr rd vd) 8 = false := by rw [Core.cowHit, hcow]; rfl
    rw [exec_swr, execSwr_writes ha hacq hb hw hc hrd (fun h => hn ((sCnt_eq vd).symm.trans h)) hmark, State.storeIn_of_bad_nil hbad, hpd,
      toBytes_eq_map, ← hstep]
    rfl
  · exact (exec_sclose s).trans (execSclose_illegal h)
  · rw [exec_sclose, execSclose_closes h, sClose_eq, sRidx_eq, sHead_eq, sCnt_eq]
    rfl

end Sys2Proof.Machine
end

section
/-! CERTIFICATES. Commons and DRAM instructions (R281): the statement about them fails where a thread set runs for a slot that stands as pre-empted. -/

namespace Sys2Proof.Machine

open Sys2Proof.Claims (Asking vasks)

/-- An aligned access of its class whose DRAM page has another home ends at once (R290). -/
theorem State.issue_elsewhere {s : State} {q : Ask} {o : Nat} (ha : s.me.acquiring s.th.fid = false) (halign : q.ga % q.size = 0)
    (hclass : (gaValid q.ga && gaClass q.ga == q.cls) = true)
    (ho : s.me.ownerAt s.self.domain q.ga q.op.reads q.op.writes = .owner o) (hdram : q.cls = 0) (hne : o ≠ memOwner s.cur) :
    s.issue q = s.denyElsewhere q := by
  rw [State.issue, access_eq ha, if_neg (not_not_intro halign), if_neg (by rw [hclass]; decide), ho]
  exact if_pos ⟨hdram, hne⟩

/-- The core once such an access has ended: zero has arrived and the fault is deferred. -/
theorem State.denyElsewhere_next {s : State} {q : Ask} (hcount : s.self.counterFull q.op = false) (hroom : s.me.bufferUse < 128) :
    ∃ t, s.denyElsewhere q = .next t ∧ t.me.mem = (((({ s.me with next := s.me.next + 1 } : Core).arriveZero (s.newAccess q 0 0)).deferFault
      s.th.slot { cause := deferredCause rPlbDeny 0x01 0, va := BitVec.ofNat 64 q.ga, pc := s.th.pc, age := s.me.next }).mem) := by
  simp only [State.denyElsewhere, hcount, Bool.false_or, decide_eq_true_eq, ge_iff_le, if_neg (Nat.not_le.mpr hroom)]
  refine ⟨_, rfl, ?_⟩
  rw [State.me_onTh, Core.onThread_mem, State.me_onMe, State.me_onMe]
  rfl

/-- A fault that is deferred for a pre-empted firing goes into the fault words of its save area (R63, R76). -/
theorem Core.mem_deferFault_preempted {k : Core} {slot : Nat} {d : Deferred} (hs : (k.actor slot).state = .preempted)
    (hf : (k.actor slot).heldFault = none) :
    (k.deferFault slot d).mem = (k.mem.writeN (saveBase (k.actor slot).save + 0x5D0) (toBytes 8 (d.cause ||| (1#64 <<< 63)).toNat)).writeN
      (saveBase (k.actor slot).save + 0x5D8) (toBytes 8 d.pc.toNat) := by
  unfold Core.deferFault
  simp only [hs, hf]
  rfl

/-- A memory core whose thread set 0 runs while its actor's slot stands as pre-empted; class 0 range 0 has its home at another memory core. -/
def strayCore : Core where
  threads := (Vector.replicate 4 {}).set 0 { busy := true }
  slots := [(0, { state := .preempted })]
  plb := [{ domain := 0, cls := 0, range := 0, rights := 7, policy := 0, home := 1, localOwner := 1, split := false, spmap := 0, gen := 0 }]

/-- The pod in which that core, the near memory core 0 of die 0, issues. -/
def strayState : State := { State.reset with cores := [(8192, strayCore)], cur := 8192 }

/-- The access that DLD_B asks for in that pod: the byte at address 0. -/
def strayAsk : Ask := { op := .dld 1, ga := 0, size := 1, cls := 0, dest := 1 }

theorem me_strayState : strayState.me = strayCore := rfl

theorem th_strayState : strayState.th = { busy := true } := rfl

theorem self_strayState : strayState.self = { state := .preempted } := rfl

theorem strayAsk_mem : { i := .dldB 1 2, xs := [1, 2], ask := strayAsk } ∈ vasks 1 2 0 0 0 0 0 strayState := by
  have hx : 0 = (Sys2Proof.Claims.X strayState 2).toNat := rfl
  exact List.mem_of_getElem? (i := 2) (congrArg some (by rw [← hx]; rfl))

/-- The page has its home at owner 1, and the issuing core is owner 0. -/
theorem ownerAt_strayAsk :
    strayState.me.ownerAt strayState.self.domain strayAsk.ga strayAsk.op.reads strayAsk.op.writes = .owner 1 := by
  rw [me_strayState, self_strayState]; decide

theorem hereV_strayState : Sys2Proof.Claims.hereV strayState [] 0 := by simp [Sys2Proof.Claims.hereV]

theorem strayAsk_may : Asking.may { i := .dldB 1 2, xs := [1, 2], ask := strayAsk } strayState :=
  ⟨by rw [th_strayState]; decide, hereV_strayState, rfl⟩

/-- The load passes the checks of alignment and class and finds its page at another owner. -/
theorem exec_strayAsk : exec (.dldB 1 2) strayState = strayState.denyElsewhere strayAsk := by
  obtain ⟨hx, -, ha⟩ := strayAsk_may
  have hm : coreIsMem strayState.cur = true := by decide
  have hq : ({ op := .dld 1, ga := strayState.th.gaOf 2, size := 1, cls := 0, dest := (1 : Reg).toNat } : Ask) = strayAsk := rfl
  rw [exec_dldB, execDldB, dramLoad, State.onMemoryCore, if_pos hm, withX_here hx, hq]
  exact State.issue_elsewhere ha rfl (by decide) ownerAt_strayAsk rfl (by decide)

/-- The deferred PLB_DENY of the load goes into the save area of the slot, which is not empty any more. -/
theorem denyElsewhere_strayAsk : ∃ t, strayState.denyElsewhere strayAsk = .next t ∧ t.me.mem ≠ strayState.me.mem := by
  have hcount : strayState.self.counterFull strayAsk.op = false := by rw [self_strayState]; decide
  have hroom : strayState.me.bufferUse < 128 := by rw [me_strayState]; decide
  obtain ⟨t, hnext, hmem⟩ := State.denyElsewhere_next hcount hroom
  have hactor : (({ strayState.me with next := strayState.me.next + 1 } : Core).arriveZero (strayState.newAccess strayAsk 0 0)).actor
      strayState.th.slot = { state := .preempted } := rfl
  have hzero : (({ strayState.me with next := strayState.me.next + 1 } : Core).arriveZero (strayState.newAccess strayAsk 0 0)).mem = [] := rfl
  rw [Core.mem_deferFault_preempted (by rw [hactor]) (by rw [hactor]), hactor, hzero] at hmem
  refine ⟨t, hnext, fun h => ?_⟩
  have hword : t.me.mem.readN 0x5C5D0 8 = toBytes 8 (deferredCause rPlbDeny 1 0 ||| (1#64 <<< 63)).toNat := by
    rw [hmem, Memory.readN_writeN_off _ _ _ _ _ (.inl (by decide))]
    exact Memory.readN_writeN_on [] 0x5C5D0 _
  rw [h] at hword
  exact absurd hword (by decide)

/-- Refutes O30: a DRAM access of another home, issued by a thread set whose slot stands as pre-empted, defers its PLB_DENY in the save area of
that slot, so that the memory of the core changes. -/
theorem not_accesses : ¬Obligations.Accesses := by
  rintro ⟨-, htraps⟩
  obtain ⟨haccess, -⟩ := htraps 1 2 0 0 0 0 0 0 0 strayState
  obtain ⟨-, -, hgranted⟩ := haccess _ (List.mem_append_right _ strayAsk_mem) strayAsk_may fun _ => by decide
  obtain ⟨-, -, -, -, helsewhere⟩ := hgranted rfl (by decide) (by decide)
  obtain ⟨t, hexec, -, -, hmem, -⟩ := helsewhere 1 rfl ownerAt_strayAsk (by decide) rfl (by decide) (by decide)
  obtain ⟨t', hnext, hchanged⟩ := denyElsewhere_strayAsk
  rw [exec_strayAsk, hnext] at hexec
  cases hexec
  exact hchanged hmem

end Sys2Proof.Machine
end

section
/-! SUPPORT. The words of a save area: what a firing's context holds at each offset, and what is read back there (R76). -/

namespace Sys2Proof.Machine

/-! ## Words laid out in memory -/

/-- An element of a list of equally long parts. -/
theorem getElem?_flatMap_const {α β : Type} {n : Nat} {f : α → List β} (hf : ∀ a, (f a).length = n) (l : List α) {i j : Nat} (hj : j < n) :
    (l.flatMap f)[n * i + j]? = l[i]?.bind fun a => (f a)[j]? := by
  induction l generalizing i with
  | nil => simp
  | cons a l ih =>
    rw [List.flatMap_cons]
    cases i with
    | zero => rw [Nat.mul_zero, Nat.zero_add, List.getElem?_append_left (by rw [hf]; exact hj)]; rfl
    | succ i =>
      rw [List.getElem?_append_right (by rw [hf, Nat.mul_succ]; omega), hf, Nat.mul_succ, show n * i + n + j - n = n * i + j by omega, ih]
      rfl

/-- The bytes of some doublewords, one after the other. -/
def wordBytes (l : List W64) : List Byte := l.flatMap fun v => toBytes 8 v.toNat

theorem length_wordBytes (l : List W64) : (wordBytes l).length = 8 * l.length := by
  induction l with
  | nil => rfl
  | cons v l ih => simp only [wordBytes, List.flatMap_cons, List.length_append, length_toBytes, List.length_cons] at ih ⊢; omega

theorem Memory.read64_writeN_wordBytes (m : Memory) (b : Nat) {l : List W64} {n : Nat} {v : W64} (h : l[n]? = some v) :
    (m.writeN b (wordBytes l)).read64 (b + 8 * n) = v := by
  obtain ⟨hn, -⟩ := List.getElem?_eq_some_iff.1 h
  have hbytes : (m.writeN b (wordBytes l)).readN (b + 8 * n) 8 = toBytes 8 v.toNat := by
    rw [Memory.readN_map]
    refine List.ext_getElem (by rw [length_toBytes]; simp) fun j hj hj' => ?_
    rw [length_toBytes] at hj'
    have hlen : 8 * n + j < (wordBytes l).length := by rw [length_wordBytes]; omega
    have hget := getElem?_flatMap_const (f := fun v : W64 => toBytes 8 v.toNat) (fun _ => length_toBytes ..) l (i := n) hj'
    rw [h, Option.bind_some, ← wordBytes, List.getElem?_eq_getElem hlen, List.getElem?_eq_getElem (by rw [length_toBytes]; exact hj')] at hget
    rw [List.getElem_map, List.getElem_range, Nat.add_assoc, Memory.read_writeN_on _ _ _ _ hlen]
    exact Option.some.inj hget
  rw [Memory.read64, hbytes, ofBytes_toBytes _ _ v.isLt, BitVec.ofNat_toNat, BitVec.setWidth_eq]

/-- Whole bank words that are written hold no error, so that each reads as it was written. -/
theorem Core.readWord_writeWords (k : Core) {b : Nat} {l : List W64} {n : Nat} {v : W64} (hb : b % 8 = 0) (h : l[n]? = some v) :
    (k.writeWords b (wordBytes l)).readWord (b + 8 * n) = v := by
  obtain ⟨hn, -⟩ := List.getElem?_eq_some_iff.1 h
  have hgood : (k.writeWords b (wordBytes l)).bad.contains ((b + 8 * n) / 8) = false := by
    simp only [Core.writeWords, List.contains_eq_mem, decide_eq_false_iff_not, List.mem_filter, length_wordBytes]
    rintro ⟨-, hout⟩
    simp only [Bool.not_eq_true', Bool.and_eq_false_iff, decide_eq_false_iff_not] at hout
    omega
  rw [Core.readWord, hgood]
  exact k.mem.read64_writeN_wordBytes b h

/-! ## The context of a firing -/

/-- The saved x1 to x31: zero where the register is not present. -/
def Thread.savedX (t : Thread) : List W64 := (List.range 31).map fun i => if t.xp.getLsbD (i + 1) then (t.x[i + 1]?).getD 0 else 0

/-- The saved v0 to v31, four doublewords each: zero where the register is not present. -/
def Thread.savedV (t : Thread) : List W64 :=
  t.v.toList.zipIdx.flatMap fun p => [0, 1, 2, 3].map fun j => if t.vp.getLsbD p.2 then BitVec.ofNat 64 (lane 64 p.1 j) else 0

/-- The saved state registers and the fault words. -/
def Thread.savedState (t : Thread) (opcnt : W64) : List W64 :=
  [opcnt, t.status, t.cause, t.faultva, t.faultpc, t.faultins.zeroExtend 64, t.fpctl, t.qnt, t.eperr, t.vlen.zeroExtend 64,
    t.sendleft.zeroExtend 64, t.wdogleft.zeroExtend 64] ++
    [(t.deferred.map fun d => d.cause ||| (1#64 <<< 63)).getD 0, (t.deferred.map (·.pc)).getD 0] ++ List.replicate 68 0

theorem Thread.context_eq (t : Thread) (opcnt : W64) : t.context opcnt =
    t.pc :: (t.savedX ++ (t.savedV ++ (t.xp.zeroExtend 64 :: t.vp.zeroExtend 64 :: (t.m.toList ++ (t.st.toList ++ t.savedState opcnt))))) := by
  simp only [Thread.context, Thread.savedX, Thread.savedV, Thread.savedState, List.append_assoc, List.cons_append, List.nil_append]

theorem Thread.length_savedX (t : Thread) : t.savedX.length = 31 := by simp [Thread.savedX]

theorem Thread.length_savedV (t : Thread) : t.savedV.length = 128 := by
  simp [Thread.savedV, List.length_flatMap]

/-! ## The doubleword at each place -/

section
variable (t : Thread) (opcnt : W64)

theorem Thread.length_context : (t.context opcnt).length = 256 := by
  rw [Thread.context_eq]
  simp [Thread.length_savedX, Thread.length_savedV, Thread.savedState]

theorem Thread.context_pc : (t.context opcnt)[0]? = some t.pc := by rw [Thread.context_eq]; rfl

theorem Thread.context_x {r : Nat} (h0 : 0 < r) (hr : r < 32) :
    (t.context opcnt)[r]? = some (if t.xp.getLsbD r then t.x[r] else 0) := by
  obtain ⟨i, rfl⟩ := Nat.exists_eq_add_one.2 h0
  have hi : i < 31 := by omega
  rw [Thread.context_eq, List.getElem?_cons_succ, List.getElem?_append_left (by rw [Thread.length_savedX]; exact hi)]
  simp [Thread.savedX, hi, hr]

/-- The words behind the registers x. -/
theorem Thread.context_behind_x (n : Nat) : (t.context opcnt)[32 + n]? =
    (t.savedV ++ (t.xp.zeroExtend 64 :: t.vp.zeroExtend 64 :: (t.m.toList ++ (t.st.toList ++ t.savedState opcnt))))[n]? := by
  rw [Thread.context_eq, show 32 + n = (31 + n) + 1 by omega, List.getElem?_cons_succ,
    List.getElem?_append_right (by rw [Thread.length_savedX]; omega), Thread.length_savedX, Nat.add_sub_cancel_left]

theorem Thread.context_v {r j : Nat} (hr : r < 32) (hj : j < 4) :
    (t.context opcnt)[32 + (4 * r + j)]? = some (if t.vp.getLsbD r then BitVec.ofNat 64 (lane 64 t.v[r] j) else 0) := by
  rw [Thread.context_behind_x, List.getElem?_append_left (by rw [Thread.length_savedV]; omega), Thread.savedV,
    getElem?_flatMap_const (n := 4) (fun _ => rfl) _ hj]
  have hword : ([0, 1, 2, 3] : List Nat)[j]? = some j := by
    rw [show ([0, 1, 2, 3] : List Nat) = List.range 4 from rfl]; simp [hj]
  simp only [List.getElem?_zipIdx, Vector.getElem?_toList, Vector.getElem?_eq_getElem hr, Option.map_some, Option.bind_some, Nat.zero_add,
    List.getElem?_map, hword]

/-- The words behind the registers v. -/
theorem Thread.context_behind_v (n : Nat) : (t.context opcnt)[160 + n]? =
    (t.xp.zeroExtend 64 :: t.vp.zeroExtend 64 :: (t.m.toList ++ (t.st.toList ++ t.savedState opcnt)))[n]? := by
  rw [show 160 + n = 32 + (128 + n) by omega, Thread.context_behind_x, List.getElem?_append_right (by rw [Thread.length_savedV]; omega),
    Thread.length_savedV, Nat.add_sub_cancel_left]

theorem Thread.context_m {i : Nat} (hi : i < 8) : (t.context opcnt)[162 + i]? = some t.m[i] := by
  rw [show 162 + i = 160 + (i + 1 + 1) by omega, Thread.context_behind_v, List.getElem?_cons_succ, List.getElem?_cons_succ,
    List.getElem?_append_left (by simpa using hi)]
  simp [hi]

/-- The words behind the message registers. -/
theorem Thread.context_behind_m (n : Nat) : (t.context opcnt)[170 + n]? = (t.st.toList ++ t.savedState opcnt)[n]? := by
  rw [show 170 + n = 160 + (8 + n + 1 + 1) by omega, Thread.context_behind_v, List.getElem?_cons_succ, List.getElem?_cons_succ,
    List.getElem?_append_right (by simp)]
  simp

theorem Thread.context_st {i : Nat} (hi : i < 4) : (t.context opcnt)[170 + i]? = some t.st[i] := by
  rw [Thread.context_behind_m, List.getElem?_append_left (by simpa using hi)]
  simp [hi]

theorem Thread.context_state (n : Nat) : (t.context opcnt)[174 + n]? = (t.savedState opcnt)[n]? := by
  rw [show 174 + n = 170 + (4 + n) by omega, Thread.context_behind_m, List.getElem?_append_right (by simp)]
  simp

end

/-! ## Vectors from their doublewords -/

theorem vecOf_lanes (v : V256) : vecOf ((List.range 4).map fun j => BitVec.ofNat 64 (lane 64 v j)) = v := by
  apply BitVec.eq_of_toNat_eq
  have := v.isLt
  simp only [vecOf, pack, List.range, List.range.loop, List.map, packNat, lane, BitVec.toNat_ofNat, Nat.shiftRight_eq_div_pow]
  omega

theorem vecOf_zeros : vecOf ((List.range 4).map fun _ => (0 : W64)) = 0 := by decide

end Sys2Proof.Machine
end

section
/-! CERTIFICATES. Pre-emption: requests, the save of a context, and its restoration (R75, R76, R182, R195 to R197). -/

namespace Sys2Proof.Machine

/-! ## Requests (R195, R197) -/

/-- Once the requests have changed, a thread set issues unless one covers its firing. -/
theorem Core.stopping_stopCovered (k : Core) (j : Fin 4) (h : (k.stopCovered.thread j).busy = true) :
    (k.stopCovered.thread j).stopping = k.stopCovered.held (k.stopCovered.thread j).slot := by
  rw [Core.thread_stopCovered] at h ⊢
  split at h
  case isTrue hb => rw [if_pos hb]; rfl
  case isFalse hb => exact absurd h hb

theorem Core.stopCovered_only_stops (k : Core) (j : Fin 4) :
    (k.stopCovered.thread j).x = (k.thread j).x ∧ (k.stopCovered.thread j).pc = (k.thread j).pc := by
  rw [Core.thread_stopCovered]
  split
  · exact ⟨rfl, rfl⟩
  · exact ⟨rfl, rfl⟩

theorem execPreemptionRequest_stands {s : State} {core : Nat} {src : HoldSource} (hwants : s.wantsHold core src = true)
    (honce : src ∈ (s.core core).holds → holdRepeats src = true) (hlive : s.coreLive core = true) :
    execPreemptionRequest core src s =
      .next (s.onCore core fun k => ({ k with holds := k.holds ++ [src] } : Core).stopCovered) := by
  have hgo : (!s.wantsHold core src || ((s.core core).holds.contains src && !holdRepeats src) || !s.coreLive core) = false := by
    simpa [hwants, hlive] using honce
  simp only [execPreemptionRequest, evPreemptionRequest, hgo, Bool.false_eq_true, if_false, Option.getD_some]

theorem Core.holds_freshlyFree (k before : Core) (now : Nat) : (k.freshlyFree before now).holds = k.holds := by
  refine List.foldlRecOn (motive := fun q : Core => q.holds = k.holds) _ _ rfl fun q h p _ => ?_
  split
  · exact h
  · exact h

theorem Core.holdsAfter_of_not_power (k : Core) {src : HoldSource} (h : ∀ c, src ≠ .power c) (ceil : Nat) :
    k.holdsAfter src ceil = k.holds.erase src := by
  cases src with
  | power c => exact absurd rfl (h c)
  | slot _ | tenant _ | cairn _ | yielded _ => rfl

theorem Core.holdsAfter_power (k : Core) (c ceil : Nat) : k.holdsAfter (.power c) ceil = k.holds.erase (.power c) ++
    (if ceil < 3 ∧ .power ceil ∉ k.holds.erase (.power c) then [.power ceil] else []) := by
  simp only [Core.holdsAfter, List.contains_eq_mem, Bool.not_eq_true', decide_eq_false_iff_not]
  split
  · rfl
  · exact (List.append_nil _).symm

/-- The core once a request has been withdrawn. -/
def Core.withdrawn (k : Core) (src : HoldSource) (ceil now : Nat) : Core :=
  (({ k with holds := k.holdsAfter src ceil } : Core).freshlyFree k now).stopCovered

theorem Core.holds_withdrawn (k : Core) (src : HoldSource) (ceil now : Nat) : (k.withdrawn src ceil now).holds = k.holdsAfter src ceil :=
  Core.holds_freshlyFree ..

theorem execPreemptionWithdraw_withdrawn {s : State} {core : Nat} {src : HoldSource} (hdrops : s.dropsHold core src = true)
    (hmem : src ∈ (s.core core).holds) :
    execPreemptionWithdraw core src s = .next (s.onCore core (·.withdrawn src (s.cceil core) (s.now core))) := by
  have hgo : (s.dropsHold core src && (s.core core).holds.contains src) = true := by simp [hdrops, hmem]
  simp only [execPreemptionWithdraw, evPreemptionWithdraw, if_pos hgo, Option.getD_some]
  rfl

/-! ## The save (R75, R76, R196) -/

theorem Thread.land_keeps (t : Thread) (n : Nat) : (t.land n).busy = t.busy ∧ (t.land n).slot = t.slot ∧ (t.land n).fid = t.fid ∧
    (t.land n).handler = t.handler ∧ (t.land n).pc = t.pc ∧ (t.land n).status = t.status := by
  unfold Thread.land
  split
  · exact ⟨rfl, rfl, rfl, rfl, rfl, rfl⟩
  split
  · simp
  · exact ⟨rfl, rfl, rfl, rfl, rfl, rfl⟩

theorem Thread.land_idles (t : Thread) (n : Nat) : (t.land n).stopping = t.stopping ∧ (t.land n).stalled = t.stalled ∧
    (t.land n).waitX = t.waitX ∧ (t.land n).waitV = t.waitV := by
  unfold Thread.land
  split
  · exact ⟨rfl, rfl, rfl, rfl⟩
  split
  · simp
  · exact ⟨rfl, rfl, rfl, rfl⟩

theorem Thread.landing_land (t : Thread) {n : Nat} (h : n ≠ 0) : (t.land n).landing = none := by
  rw [Thread.land, if_neg h]
  split
  · rfl
  · assumption

/-- The words that the save of a thread set writes. -/
def Core.savedWords (k : Core) (i : Fin 4) : List W64 := ((k.thread i).land 1).context (k.actor (k.thread i).slot).opcnt

/-- The core with the context in its save area and the tickets of the firing parked. -/
def Core.contextWritten (k : Core) (i : Fin 4) (area : Nat) : Core :=
  { k.writeWords (saveBase area) (wordBytes (k.savedWords i)) with
    accs := k.accs.map fun x => if x.slot = (k.thread i).slot ∧ !x.orphan ∧ x.entry then { x with parked := true } else x
    next := k.next + 1 }

theorem Core.saveContext_eq (k : Core) (i : Fin 4) (area : Nat) : k.saveContext i area =
    (((k.contextWritten i area).onThread i fun _ => {}).onActor (k.thread i).slot fun a =>
      { a with state := .preempted, save := area, heldFault := ((k.thread i).land 1).deferred, preAt := k.next }).countOf
        (k.thread i).slot 0x04 := by
  obtain ⟨-, hslot, -⟩ := (k.thread i).land_keeps 1
  simp only [Core.saveContext, Core.contextWritten, Core.savedWords, wordBytes, hslot]

theorem Core.mem_countOf (k : Core) (slot code n : Nat) : (k.countOf slot code n).mem = k.mem := rfl

theorem Core.readWord_countOf (k : Core) (slot code n a : Nat) : (k.countOf slot code n).readWord a = k.readWord a := rfl

theorem Core.thread_countOf (k : Core) (slot code n : Nat) (j : Fin 4) : (k.countOf slot code n).thread j = k.thread j := rfl

theorem Core.mem_saveContext (k : Core) (i : Fin 4) (m : Nat) :
    (k.saveContext i m).mem = k.mem.writeN (saveBase m) (wordBytes (k.savedWords i)) := by
  rw [Core.saveContext_eq, Core.mem_countOf, Core.onActor_mem, Core.onThread_mem, Core.contextWritten, Core.writeWords]

theorem Core.readWord_saveContext (k : Core) (i : Fin 4) (m : Nat) {n : Nat} {v : W64} (h : (k.savedWords i)[n]? = some v) :
    (k.saveContext i m).readWord (saveBase m + 8 * n) = v := by
  rw [← k.readWord_writeWords (b := saveBase m) (by rw [saveBase]; omega) h, Core.saveContext_eq, Core.readWord_countOf, Core.readWord, Core.readWord,
    Core.onActor_bad, Core.onThread_bad, Core.onActor_mem, Core.onThread_mem, Core.contextWritten]

theorem Core.read64_saveContext (k : Core) (i : Fin 4) (m : Nat) {n : Nat} {v : W64} (h : (k.savedWords i)[n]? = some v) :
    (k.saveContext i m).mem.read64 (saveBase m + 8 * n) = v := by
  rw [Core.mem_saveContext]
  exact k.mem.read64_writeN_wordBytes _ h

theorem Core.mem_saveContext_off (k : Core) (i : Fin 4) (m : Nat) {x : Nat} (h : ¬(saveBase m ≤ x ∧ x < saveBase m + 0x800)) :
    (k.saveContext i m).mem.read x = k.mem.read x := by
  rw [Core.mem_saveContext, Memory.read_writeN_off]
  rw [length_wordBytes, Core.savedWords, Thread.length_context]
  omega

theorem Core.thread_saveContext_same (k : Core) (i : Fin 4) (m : Nat) : (k.saveContext i m).thread i = {} := by
  rw [Core.saveContext_eq, Core.thread_countOf, Core.thread_onActor, Core.thread_onThread_same]

theorem Core.thread_saveContext_ne (k : Core) {i j : Fin 4} (m : Nat) (h : j ≠ i) : (k.saveContext i m).thread j = k.thread j := by
  rw [Core.saveContext_eq, Core.thread_countOf, Core.thread_onActor, Core.thread_onThread_ne _ _ h]
  rfl

theorem Core.actor_saveContext (k : Core) (i : Fin 4) (m : Nat) : (k.saveContext i m).actor (k.thread i).slot =
    { k.actor (k.thread i).slot with
      state := .preempted, save := m, heldFault := ((k.thread i).land 1).deferred, preAt := k.next } := by
  rw [Core.saveContext_eq, Core.actor_countOf, Core.actor_onActor_same, Core.actor_onThread]
  rfl

theorem Core.freeSave_lt {k : Core} {m : Nat} (h : k.freeSave = some m) : m < 8 := List.mem_range.1 (List.mem_of_find?_eq_some h)

theorem execPreemptionSave_saves {s : State} {core m : Nat} {i : Fin 4} (hfree : (s.core core).freeSave = some m)
    (hbusy : ((s.core core).thread i).busy = true) (hstop : ((s.core core).thread i).stopping = true)
    (htrap : (s.core core).trapsHere i = false) (hmq : ∀ c ∈ (s.core core).mq, c.slot ≠ ((s.core core).thread i).slot) :
    execPreemptionSave core i.val s = .next (s.setCore core ((s.core core).saveContext i m)) := by
  have hdrained : (s.core core).mq.any (·.slot == ((s.core core).thread i).slot) = false := by simpa using hmq
  simp [execPreemptionSave, evPreemptionSave, tsetOf_val, hfree, hbusy, hstop, htrap, hdrained]

/-- A trap at the boundary is taken before the save (R73). -/
theorem execPreemptionSave_traps {s : State} {core : Nat} {i : Fin 4} (htrap : (s.core core).trapsHere i = true) :
    execPreemptionSave core i.val s = .next s := by
  simp only [execPreemptionSave, evPreemptionSave, tsetOf_val, htrap]
  split <;> simp

theorem Core.trapsHere_of {k : Core} {i : Fin 4}
    (h : (k.thread i).deferred.isSome = true ∨ k.inCode (k.thread i).slot (k.thread i).pc = false) : k.trapsHere i = true := by
  rcases h with h | h
  · simp [Core.trapsHere, h]
  · simp [Core.trapsHere, h]

/-! ## A context read back (R76) -/

section
variable (k : Core) (i : Fin 4) (m : Nat)

theorem Core.readWord_savedPc : (k.saveContext i m).readWord (saveBase m + 0) = ((k.thread i).land 1).pc :=
  k.readWord_saveContext i m (n := 0) (Thread.context_pc ..)

theorem Core.readWord_savedX {r : Nat} (h0 : 0 < r) (hr : r < 32) : (k.saveContext i m).readWord (saveBase m + 8 * r) =
    if ((k.thread i).land 1).xp.getLsbD r then ((k.thread i).land 1).x[r] else 0 :=
  k.readWord_saveContext i m (Thread.context_x _ _ h0 hr)

theorem Core.readWord_savedV {r j : Nat} (hr : r < 32) (hj : j < 4) :
    (k.saveContext i m).readWord (saveBase m + (0x100 + 32 * r + 8 * j)) =
      if ((k.thread i).land 1).vp.getLsbD r then BitVec.ofNat 64 (lane 64 ((k.thread i).land 1).v[r] j) else 0 := by
  rw [show 0x100 + 32 * r + 8 * j = 8 * (32 + (4 * r + j)) by omega]
  exact k.readWord_saveContext i m (Thread.context_v _ _ hr hj)

theorem Core.readWord_savedPresence : (k.saveContext i m).readWord (saveBase m + 0x500) = ((k.thread i).land 1).xp.zeroExtend 64 ∧
    (k.saveContext i m).readWord (saveBase m + 0x508) = ((k.thread i).land 1).vp.zeroExtend 64 :=
  ⟨k.readWord_saveContext i m (n := 160) (Thread.context_behind_v _ _ 0), k.readWord_saveContext i m (n := 161) (Thread.context_behind_v _ _ 1)⟩

theorem Core.readWord_savedM {j : Nat} (hj : j < 8) :
    (k.saveContext i m).readWord (saveBase m + (0x510 + 8 * j)) = ((k.thread i).land 1).m[j] := by
  rw [show 0x510 + 8 * j = 8 * (162 + j) by omega]
  exact k.readWord_saveContext i m (Thread.context_m _ _ hj)

theorem Core.readWord_savedSt {j : Nat} (hj : j < 4) :
    (k.saveContext i m).readWord (saveBase m + (0x550 + 8 * j)) = ((k.thread i).land 1).st[j] := by
  rw [show 0x550 + 8 * j = 8 * (170 + j) by omega]
  exact k.readWord_saveContext i m (Thread.context_st _ _ hj)

theorem Core.readWord_savedState {n : Nat} {v : W64}
    (h : (((k.thread i).land 1).savedState (k.actor (k.thread i).slot).opcnt)[n]? = some v) :
    (k.saveContext i m).readWord (saveBase m + (0x570 + 8 * n)) = v := by
  rw [show 0x570 + 8 * n = 8 * (174 + n) by omega]
  exact k.readWord_saveContext i m ((Thread.context_state _ _ n).trans h)

/-- What is restored besides the registers is what the thread set held, and nothing waits or lands there. -/
theorem Core.loadContext_saveContext (a : Actor) (slot : Nat) (ha : a.save = m) :
    let w := (k.thread i).land 1
    { (k.saveContext i m).loadContext a slot with x := w.x, v := w.v, stopping := true } =
      { w with
        busy := true, slot := slot, fid := a.fid, handler := a.handler, deferred := a.heldFault, stalled := false, waitX := 0, waitV := 0
        stopping := true, landing := none } := by
  intro w
  obtain ⟨hxp, hvp⟩ := k.readWord_savedPresence i m
  have hm : (Vector.ofFn fun j : Fin 8 => (k.saveContext i m).readWord (saveBase m + (0x510 + 8 * j.val))) = w.m :=
    Vector.ext fun j hj => by rw [Vector.getElem_ofFn, k.readWord_savedM i m hj]
  have hst : (Vector.ofFn fun j : Fin 4 => (k.saveContext i m).readWord (saveBase m + (0x550 + 8 * j.val))) = w.st :=
    Vector.ext fun j hj => by rw [Vector.getElem_ofFn, k.readWord_savedSt i m hj]
  have hword : ∀ n v, (w.savedState (k.actor (k.thread i).slot).opcnt)[n]? = some v →
      (k.saveContext i m).readWord (saveBase m + (0x570 + 8 * n)) = v := fun n v => k.readWord_savedState i m
  simp only [Core.loadContext, ha, k.readWord_savedPc i m, hxp, hvp, hm, hst, hword 1 _ rfl, hword 2 _ rfl, hword 3 _ rfl, hword 4 _ rfl,
    hword 5 _ rfl, hword 6 _ rfl, hword 7 _ rfl, hword 8 _ rfl, hword 9 _ rfl, hword 10 _ rfl, hword 11 _ rfl]
  simp (disch := decide) only [BitVec.truncate_eq_setWidth, BitVec.setWidth_setWidth_of_le, BitVec.setWidth_eq]
  rfl

theorem Core.loadedX_saveContext (a : Actor) (slot : Nat) (ha : a.save = m) (r : Reg) :
    ((k.saveContext i m).loadContext a slot).readX r =
      if ((k.thread i).land 1).hereX r then ((k.thread i).land 1).readX r else 0 := by
  by_cases h0 : r = 0
  · simp [Thread.readX, h0]
  have hr : 0 < r.toNat := Nat.pos_of_ne_zero fun h => h0 (BitVec.eq_of_toNat_eq h)
  simp only [Thread.readX, Thread.hereX, h0, if_false, decide_false, Bool.false_or, Core.loadContext, Vector.getElem_ofFn, hr.ne', ha,
    k.readWord_savedX i m hr r.isLt]

theorem Core.loadedV_saveContext (a : Actor) (slot : Nat) (ha : a.save = m) (r : Reg) :
    ((k.saveContext i m).loadContext a slot).readV r =
      if ((k.thread i).land 1).hereV r then ((k.thread i).land 1).readV r else 0 := by
  have hwords : ((List.range 4).map fun j => (k.saveContext i m).readWord (saveBase m + (0x100 + 32 * r.toNat + 8 * j))) =
      (List.range 4).map fun j => if ((k.thread i).land 1).vp.getLsbD r.toNat then
        BitVec.ofNat 64 (lane 64 ((k.thread i).land 1).v[r.toNat] j) else 0 :=
    List.map_congr_left fun j hj => k.readWord_savedV i m r.isLt (List.mem_range.1 hj)
  simp only [Thread.readV, Thread.hereV, Core.loadContext, Vector.getElem_ofFn, ha, hwords]
  by_cases hhere : ((k.thread i).land 1).vp.getLsbD r.toNat = true
  · simp only [hhere, if_true, vecOf_lanes]
  · simp only [hhere, Bool.false_eq_true, if_false, vecOf_zeros]

end

/-- A thread set of a firing that is stopped at an instruction boundary, field by field. -/
theorem Thread.stopped_eq {w : Thread} {slot fid handler : Nat} (hbusy : w.busy = true) (hslot : w.slot = slot) (hfid : w.fid = fid)
    (hhan : w.handler = handler) (hstop : w.stopping = true) (hstall : w.stalled = false) (hwaitX : w.waitX = 0) (hwaitV : w.waitV = 0)
    (hland : w.landing = none) :
    { w with
      busy := true, slot := slot, fid := fid, handler := handler, stalled := false, waitX := 0, waitV := 0, stopping := true
      landing := none } = w := by
  subst hslot hfid hhan
  rw [← hland, ← hstop]
  cases w
  simp_all

/-- A firing that is saved and read back stands in its thread set as before, but for the registers that were not present. -/
theorem Core.saved_and_loaded {k : Core} {i : Fin 4} {slot : Nat} (m : Nat) (hslot : (k.thread i).slot = slot)
    (hfid : (k.actor slot).fid = (k.thread i).fid) (hhan : (k.actor slot).handler = (k.thread i).handler)
    (hbusy : (k.thread i).busy = true) (hstop : (k.thread i).stopping = true) (hstall : (k.thread i).stalled = false)
    (hwaitX : (k.thread i).waitX = 0) (hwaitV : (k.thread i).waitV = 0) :
    let w := (k.thread i).land 1
    let v := (k.saveContext i m).loadContext ((k.saveContext i m).actor slot) slot
    (∀ r, v.readX r = if w.hereX r then w.readX r else 0) ∧ (∀ r, v.readV r = if w.hereV r then w.readV r else 0) ∧
      { v with x := w.x, v := w.v, stopping := true } = w := by
  subst hslot
  have hactor := k.actor_saveContext i m
  have hsave : ((k.saveContext i m).actor (k.thread i).slot).save = m := by rw [hactor]
  refine ⟨k.loadedX_saveContext i m _ _ hsave, k.loadedV_saveContext i m _ _ hsave, ?_⟩
  refine (k.loadContext_saveContext i m _ _ hsave).trans ?_
  rw [hactor, hfid, hhan]
  obtain ⟨hb, hs, hf, hh, -, -⟩ := (k.thread i).land_keeps 1
  obtain ⟨hst, hsd, hx, hv⟩ := (k.thread i).land_idles 1
  exact Thread.stopped_eq (hb.trans hbusy) hs hf hh (hst.trans hstop) (hsd.trans hstall) (hx.trans hwaitX) (hv.trans hwaitV)
    ((k.thread i).landing_land one_ne_zero)

/-! ## Resumption (R182) -/

/-- The thread set of a firing that is resumed: its saved context, with an error met there recorded. -/
def Core.resumedThread (k : Core) (slot : Nat) : Thread :=
  let t := k.loadContext (k.actor slot) slot
  match k.badRun (saveBase (k.actor slot).save) 0x5E0 with
  | some at_ => { t with eperr := Machine.recordErr t.eperr 0 at_ }
  | none => t

theorem Core.resumedThread_eq (k : Core) (slot : Nat) :
    ∃ e, k.resumedThread slot = { k.loadContext (k.actor slot) slot with eperr := e } := by
  unfold Core.resumedThread
  split
  · exact ⟨_, rfl⟩
  · exact ⟨_, rfl⟩

theorem Core.thread_resume (k : Core) (i : Fin 4) (slot : Nat) : (k.resume i slot).thread i = k.resumedThread slot :=
  Core.thread_onThread_same _ i fun _ => k.resumedThread slot

theorem Core.mem_resume (k : Core) (i : Fin 4) (slot : Nat) : (k.resume i slot).mem = k.mem := rfl

theorem Core.actor_resume_ne (k : Core) (i : Fin 4) {slot j : Nat} (h : j ≠ slot) : (k.resume i slot).actor j = k.actor j :=
  Core.actor_onActor_ne _ _ h

theorem Core.actor_resume (k : Core) (i : Fin 4) (slot : Nat) : ((k.resume i slot).actor slot).state = .firing ∧
    ((k.resume i slot).actor slot).tsetf = i.val ∧
    ((k.resume i slot).actor slot).cl = (k.mem.read64 (saveBase (k.actor slot).save + 0x570)).toNat % 64 := by
  have hbits (n : Nat) : bits n 5 0 = n % 64 := rfl
  simp only [Core.resume, Core.actor_onActor_same, Core.actor_onThread, hbits]
  exact ⟨trivial, trivial, rfl⟩

theorem execResumption_resumes {s : State} {core slot : Nat} {i : Fin 4} (hlive : s.coreLive core = true)
    (hruns : (s.pkg (core / 65536)).runs = true) (hidle : (s.core core).idleSet = some i) (hres : (s.core core).resumable = some slot) :
    execResumption core s = .next (s.setCore core ((s.core core).resume i slot).stopCovered) := by
  have hgo : (!s.coreLive core || !(s.pkg (corePkg core)).runs) = false := by
    simp [hlive, show (s.pkg (corePkg core)).runs = true from hruns]
  simp only [execResumption, evResumption, hgo, hidle, hres, Bool.false_eq_true, if_false, Option.getD_some]

theorem Core.thread_resumed (k : Core) (i : Fin 4) (slot : Nat) :
    let v := (k.resume i slot).stopCovered.thread i
    v.busy = true ∧ v.slot = slot ∧ v.pc = k.readWord (saveBase (k.actor slot).save) ∧
      ∀ r : Fin 32, 0 < r.val → v.x[r] = k.readWord (saveBase (k.actor slot).save + 8 * r.val) := by
  obtain ⟨e, he⟩ := k.resumedThread_eq slot
  have hx (r : Fin 32) (h : 0 < r.val) : (k.loadContext (k.actor slot) slot).x[r] = k.readWord (saveBase (k.actor slot).save + 8 * r.val) := by
    simp only [Core.loadContext, Fin.getElem_fin, Vector.getElem_ofFn, h.ne', if_false]
  rw [Core.thread_stopCovered, Core.thread_resume, he]
  exact ⟨rfl, rfl, rfl, hx⟩

/-! ## The statement -/

/-- Settles O44, by the place of each word in the save area and the lemma that what is saved is read back. -/
theorem preemptions : Obligations.Preemptions := by
  intro core slot i src s k u w
  refine ⟨fun hwants honce hlive => ?_, fun hdrops hmem => ?_, fun m hfree hbusy hstop htrap hmq => ?_, fun hlive hruns hidle hres => ?_,
    fun m _ hslot hfid hhan hbusy hstop hstall hwaitX hwaitV => Core.saved_and_loaded m hslot hfid hhan hbusy hstop hstall hwaitX hwaitV,
    fun _ _ htrap => execPreemptionSave_traps (Core.trapsHere_of htrap)⟩
  · refine ⟨_, execPreemptionRequest_stands hwants honce hlive, ?_⟩
    rw [State.core_onCore_same]
    exact ⟨rfl, rfl, fun j => ⟨Core.stopping_stopCovered _ j, Core.stopCovered_only_stops _ j⟩⟩
  · refine ⟨_, execPreemptionWithdraw_withdrawn hdrops hmem, ?_⟩
    rw [State.core_onCore_same, Core.holds_withdrawn]
    refine ⟨fun h => Core.holdsAfter_of_not_power _ h _, ?_, fun j => Core.stopping_stopCovered _ j⟩
    rintro c rfl
    exact Core.holdsAfter_power ..
  · refine ⟨_, execPreemptionSave_saves hfree hbusy hstop htrap hmq, ?_⟩
    obtain ⟨-, -, -, -, hpc, hstatus⟩ := u.land_keeps 1
    rw [State.actor, State.core_setCore_same, Core.actor_saveContext, ← hpc, ← hstatus]
    exact ⟨k.thread_saveContext_same i m, rfl, rfl, Core.freeSave_lt hfree,
      k.read64_saveContext i m (n := 0) (Thread.context_pc ..), fun r h0 => k.read64_saveContext i m (Thread.context_x _ _ h0 r.isLt),
      k.read64_saveContext i m (n := 175) (Thread.context_state _ _ 1), k.read64_saveContext i m (n := 174) (Thread.context_state _ _ 0),
      fun x hx => k.mem_saveContext_off i m (by rw [saveBase]; omega), fun j hj => k.thread_saveContext_ne m hj⟩
  · refine ⟨_, execResumption_resumes hlive hruns hidle hres, ?_⟩
    obtain ⟨hstate, htset, hcl⟩ := k.actor_resume i slot
    simp only [State.actor, State.core_setCore_same]
    exact ⟨hstate, htset, k.thread_resumed i slot, hcl, rfl, fun j hj => k.actor_resume_ne i hj⟩

end Sys2Proof.Machine
end

section
/-! SUPPORT. The checks of a local access, branch by branch (R86), and the bank words of a skewed region (R89). -/

namespace Sys2Proof.Machine

/-! ## Finding a region (R86) -/

theorem RegEntry.covers_iff {e : RegEntry} {a : Nat} :
    e.covers a = true ↔ e.base * 1024 ≤ a ∧ a < (e.base + e.size) * 1024 := by
  simp [RegEntry.covers]

theorem RegEntry.liveOf_iff {e : RegEntry} {slot : Nat} :
    e.liveOf slot = true ↔ e.valid = true ∧ e.tomb = false ∧ e.owner = slot := by
  simp [RegEntry.liveOf, and_assoc]

theorem Core.findRegion_eq_none {k : Core} {slot a : Nat} : k.findRegion slot a = none ↔
    ∀ p ∈ k.regions, ¬(p.2.valid = true ∧ p.2.tomb = false ∧ p.2.owner = slot ∧ p.2.base * 1024 ≤ a ∧
      a < (p.2.base + p.2.size) * 1024) := by
  simp only [Core.findRegion, List.find?_eq_none, Bool.and_eq_true, RegEntry.liveOf_iff, RegEntry.covers_iff, and_assoc]

theorem Core.findTomb_eq_none {k : Core} {slot a : Nat} : k.findTomb slot a = none ↔
    ∀ p ∈ k.regions, ¬(p.2.valid = true ∧ p.2.tomb = true ∧ p.2.owner = slot ∧ p.2.base * 1024 ≤ a ∧
      a < (p.2.base + p.2.size) * 1024) := by
  simp only [Core.findTomb, List.find?_eq_none, Bool.and_eq_true, beq_iff_eq, RegEntry.covers_iff, and_assoc]

/-! ## The branches of the check (R86) -/

section Check
variable {k : Core} {slot a n : Nat} {store : Bool}

theorem Core.checkLocal_saveArea (h : 0x5C000 ≤ a ∧ a ≤ 0x5FFFF) :
    k.checkLocal slot a n store = .error (4, 248 + (a - 0x5C000) / 0x800) := by
  rw [Core.checkLocal, if_pos h]

variable (hout : ¬(0x5C000 ≤ a ∧ a ≤ 0x5FFFF))
include hout

theorem Core.checkLocal_nowhere (hr : k.findRegion slot a = none) (ht : k.findTomb slot a = none) :
    k.checkLocal slot a n store = .error (1, 0xFFFFFFFF) := by
  rw [Core.checkLocal, if_neg hout, hr, ht]

theorem Core.checkLocal_tomb {i : Nat} {e : RegEntry} (hr : k.findRegion slot a = none) (ht : k.findTomb slot a = some (i, e)) :
    k.checkLocal slot a n store = .error (2, i) := by
  rw [Core.checkLocal, if_neg hout, hr, ht]

theorem Core.checkLocal_found {i : Nat} {e : RegEntry} (hr : k.findRegion slot a = some (i, e)) :
    k.checkLocal slot a n store =
      if a + n > (e.base + e.size) * 1024 then .error (0x05, i)
      else if !(if store then kindStores e.kind else kindLoads e.kind) then .error (0x04, i)
      else if !(if store then e.wr else e.rd) then .error (0x03, i) else .ok e := by
  rw [Core.checkLocal, if_neg hout, hr]

end Check

/-- The kinds that an owner may ever load from, or store to (R85). -/
theorem kind_permits_iff (store : Bool) (kind : Nat) :
    (if store then kindStores kind else kindLoads kind) = true ↔ kind ∈ if store then [0, 3] else [0, 1, 3, 4] := by
  cases store <;> simp [kindStores, kindLoads, kData, kCode, kRing, kCring, or_assoc]

/-- Settles O21, branch by branch. -/
theorem localChecks : Obligations.LocalChecks := by
  intro k slot a n store
  refine ⟨fun h1 h2 => Core.checkLocal_saveArea ⟨h1, h2⟩, fun hout => ⟨fun hlive => ?_, fun i e hr => ?_⟩⟩
  · have hr := Core.findRegion_eq_none.2 hlive
    exact ⟨fun htomb => Core.checkLocal_nowhere hout hr (Core.findTomb_eq_none.2 htomb),
      fun i e ht => Core.checkLocal_tomb hout hr ht⟩
  · rw [Core.checkLocal_found hout hr]
    refine ⟨fun h => if_pos h, fun hin => ?_⟩
    simp only [if_neg (Nat.not_lt.2 hin)]
    refine ⟨fun hk => ?_, fun hk hw => ?_, fun hk hw => ?_⟩
    · simp [Bool.eq_false_iff.2 (mt (kind_permits_iff store e.kind).1 hk)]
    · simp [(kind_permits_iff store e.kind).2 hk, hw]
    · simp [(kind_permits_iff store e.kind).2 hk, hw]

/-! ## Skewed regions (R89) -/

/-- Rotating a word within its group of 32 keeps it below a bound that is a number of whole groups. -/
theorem skewWord_lt {p q g r : Nat} (h : q < 32 * g) :
    q / (32 * p) * (32 * p) + 32 * (q % (32 * p) / 32) + (q % (32 * p) + r) % 32 < 32 * g := by
  have hq : q / (32 * p) * (32 * p) + q % (32 * p) = q := Nat.div_add_mod' q (32 * p)
  rw [show q / (32 * p) * (32 * p) = 32 * (q / (32 * p) * p) by ring] at *
  omega

/-- A byte of a region lies in the region. -/
theorem RegEntry.covers_place {e : RegEntry} {a : Nat} (h : e.covers a = true) : e.covers (e.place a) = true := by
  unfold RegEntry.place
  split
  case isFalse => exact h
  case isTrue =>
    rw [RegEntry.covers_iff] at *
    have := skewWord_lt (p := e.pitch) (q := (a - e.base * 1024) / 8) (g := 4 * e.size)
      (r := (a - e.base * 1024) / 8 / (32 * e.pitch)) (by omega)
    dsimp only
    omega

/-- R89: every byte of a skewed region holds some byte of it: turn its word back within its group. -/
theorem RegEntry.place_surjective {e : RegEntry} (hp : e.skew = true → 0 < e.pitch) {b : Nat} (hb : e.covers b = true) :
    ∃ a, e.covers a = true ∧ e.place a = b := by
  cases hs : e.skew with
  | false => exact ⟨b, hb, by simp [RegEntry.place, hs]⟩
  | true =>
    rw [RegEntry.covers_iff] at hb
    -- counting: a one-to-one map of the finite region into itself is onto
    have hmaps : Set.MapsTo e.place (Finset.Ico (e.base * 1024) ((e.base + e.size) * 1024)) (Finset.Ico (e.base * 1024) ((e.base + e.size) * 1024)) :=
      fun a ha => by simpa [RegEntry.covers_iff] using RegEntry.covers_place (e := e) (a := a) (by simpa [RegEntry.covers_iff] using ha)
    obtain ⟨a, ha, hab⟩ := Finset.surjOn_of_injOn_of_card_le e.place hmaps
      (fun x hx y hy h => RegEntry.place_injective hp (by simp at hx; omega) (by simp at hy; omega) h) le_rfl
      (show b ∈ _ by simpa using hb)
    exact ⟨a, by simpa [RegEntry.covers_iff] using ha, hab⟩

/-- Settles O22: the rotation stays in its group of 32 words, and a one-to-one map of a finite region into itself is onto. -/
theorem skewPlacement : Obligations.SkewPlacement := fun e hp =>
  ⟨fun _ ha => RegEntry.covers_place ha,
    fun _ _ ha hb h => RegEntry.place_injective hp (RegEntry.covers_iff.1 ha).1 (RegEntry.covers_iff.1 hb).1 h,
    fun _ hb => RegEntry.place_surjective hp hb, fun hs a => by simp [RegEntry.place, hs]⟩

/-- Settles O7: nothing is listed. -/
theorem resetMemory : Obligations.ResetMemory :=
  ⟨Memory.wf_reset, fun _ hp => absurd hp List.not_mem_nil⟩

end Sys2Proof.Machine
end

section
/-! SUPPORT. The canonical form of every memory: what the plainest updates of the state need to keep it. -/

namespace Sys2Proof.Machine

/-! ## The parts of a state in canonical form -/

/-- The value at a key is the table's default or is listed. -/
theorem SMap.get_eq_or_mem {α : Type} (d : α) (m : SMap α) (k : Nat) : m.get d k = d ∨ (k, m.get d k) ∈ m := by
  induction m with
  | nil => exact .inl rfl
  | cons p m ih =>
    obtain ⟨j, v⟩ := p
    simp only [SMap.get]
    split
    case isTrue h => exact .inr (h ▸ List.mem_cons_self)
    case isFalse h => exact ih.imp_right (List.mem_cons_of_mem _)

variable {s t : State}

@[simp] theorem State.wf_gmem (h : s.MemOk) : s.gmem.wf = true := h.1

@[simp] theorem State.wf_core (h : s.MemOk) (c : Nat) : (s.core c).mem.wf = true := by
  rcases SMap.get_eq_or_mem {} s.cores c with he | hm
  · rw [State.core, he]; rfl
  · exact h.2 _ hm

@[simp] theorem State.wf_me (h : s.MemOk) : s.me.mem.wf = true := s.wf_core h s.cur

/-! ## Bytes -/

@[simp] theorem Memory.writeN_wf {m : Memory} (h : m.wf = true) (a : Nat) (bs : List Byte) : (m.writeN a bs).wf = true :=
  Memory.wf_writeN h a bs

@[simp] theorem Memory.filter_wf {m : Memory} (h : m.wf = true) (p : Host.Cell → Bool) : Memory.wf (m.filter p) = true :=
  Memory.wf_filter h p

/-! ## Updates of the state -/

@[simp] theorem State.memOk_setCore (h : s.MemOk) {k : Core} (hk : k.mem.wf = true) (c : Nat) : (s.setCore c k).MemOk :=
  ⟨h.1, fun p hp => (SMap.mem_put hp).elim (h.2 p) (fun e => e ▸ hk)⟩

@[simp] theorem State.memOk_onCore (h : s.MemOk) {c : Nat} {f : Core → Core} (hf : (f (s.core c)).mem.wf = true) : (s.onCore c f).MemOk :=
  State.memOk_setCore h hf c

@[simp] theorem State.memOk_onMe (h : s.MemOk) {f : Core → Core} (hf : (f s.me).mem.wf = true) : (s.onMe f).MemOk :=
  State.memOk_setCore h hf s.cur

/-- An update that lists no other cores keeps the form where the global memory keeps it. -/
@[simp] theorem State.memOk_with (h : t.MemOk) {m : Memory} (hm : m.wf = true)
    {pkgs npkg engines owners banks words gbad hints placed dir dirMap bare rrecs flocks scopes migrations archive net serial agenda
      delays issuers settled started wall cur} :
    State.MemOk ⟨pkgs, npkg, t.cores, engines, owners, banks, words, m, gbad, hints, placed, dir, dirMap, bare, rrecs, flocks, scopes,
      migrations, archive, net, serial, agenda, delays, issuers, settled, started, wall, cur⟩ := ⟨hm, h.2⟩

/-- Cores that are changed one by one, each keeping its memory. -/
@[simp] theorem State.memOk_mapCores (h : t.MemOk) {m : Memory} (hm : m.wf = true) {f : Nat → Core → Core} (hf : ∀ c k, (f c k).mem = k.mem)
    {pkgs npkg engines owners banks words gbad hints placed dir dirMap bare rrecs flocks scopes migrations archive net serial agenda
      delays issuers settled started wall cur} :
    State.MemOk ⟨pkgs, npkg, t.cores.mapVals f, engines, owners, banks, words, m, gbad, hints, placed, dir, dirMap, bare, rrecs, flocks,
      scopes, migrations, archive, net, serial, agenda, delays, issuers, settled, started, wall, cur⟩ :=
  ⟨hm, fun q hq => by obtain ⟨p, hp, rfl⟩ := List.mem_map.1 hq; simpa [hf] using h.2 p hp⟩

@[simp] theorem State.memOk_foldl {α : Type} (h : s.MemOk) (l : List α) {f : State → α → State} (hf : ∀ t x, t.MemOk → (f t x).MemOk) :
    (l.foldl f s).MemOk :=
  List.foldlRecOn (motive := State.MemOk) l f h fun t ht x _ => hf t x ht

@[simp] theorem Core.foldl_mem {α : Type} (k : Core) (l : List α) {f : Core → α → Core} (hf : ∀ q x, (f q x).mem = q.mem) :
    (l.foldl f k).mem = k.mem :=
  List.foldlRecOn (motive := fun q => q.mem = k.mem) l f rfl fun q hq x _ => (hf q x).trans hq

@[simp] theorem Core.wf_foldl {α : Type} {k : Core} (hk : k.mem.wf = true) (l : List α) {f : Core → α → Core}
    (hf : ∀ q x, q.mem.wf = true → (f q x).mem.wf = true) : (l.foldl f k).mem.wf = true :=
  List.foldlRecOn (motive := fun q => q.mem.wf = true) l f hk fun q hq x _ => hf q x hq

@[simp] theorem State.memOk_ite {c : Prop} [Decidable c] (hs : c → s.MemOk) (ht : ¬c → t.MemOk) : (if c then s else t).MemOk := by
  split
  · exact hs ‹_›
  · exact ht ‹_›

@[simp] theorem Core.ite_mem {c : Prop} [Decidable c] (k q : Core) : (if c then k else q).mem = if c then k.mem else q.mem :=
  apply_ite Core.mem c k q

@[simp] theorem Memory.wf_ite {c : Prop} [Decidable c] {m n : Memory} (hm : c → m.wf = true) (hn : ¬c → n.wf = true) :
    Memory.wf (if c then m else n) = true := by
  split
  · exact hm ‹_›
  · exact hn ‹_›

/-! ## Answers -/

/-- What a step answers keeps every memory in canonical form. -/
def AnswerOk : Answer → Prop
  | .next t => t.MemOk
  | .fault _ | .refused _ => True

@[simp] theorem answerOk_next : AnswerOk (.next s) ↔ s.MemOk := Iff.rfl

/-- The state that an event leads to, where it takes place, keeps every memory in canonical form. -/
def EventOk (o : Option State) : Prop := ∀ t ∈ o, t.MemOk

@[simp] theorem eventOk_none : EventOk none := fun _ h => nomatch h
@[simp] theorem eventOk_some : EventOk (some s) ↔ s.MemOk := by simp [EventOk]
@[simp] theorem EventOk.ite {c : Prop} [Decidable c] {o p : Option State} (ho : c → EventOk o) (hp : ¬c → EventOk p) :
    EventOk (if c then o else p) := by
  split
  · exact ho ‹_›
  · exact hp ‹_›

@[simp] theorem State.memOk_getD {o : Option State} (ho : EventOk o) (h : s.MemOk) : (o.getD s).MemOk := by
  cases o with
  | none => exact h
  | some t => exact ho t rfl

@[simp] theorem EventOk.bind {α : Type} {o : Option α} {f : α → Option State} (hf : ∀ x, o = some x → EventOk (f x)) : EventOk (o.bind f) := by
  cases o with
  | none => exact eventOk_none
  | some x => exact hf x rfl

/-- Steps taken one by one, each of which keeps the form where it takes place. -/
theorem EventOk.foldl {α : Type} {o : Option State} (ho : EventOk o) (l : List α) {f : State → α → Option State}
    (hf : ∀ t x, t.MemOk → EventOk (f t x)) : EventOk (l.foldl (fun r x => r.bind fun t => f t x) o) :=
  List.foldlRecOn (motive := EventOk) l _ ho fun _ hr x _ => EventOk.bind fun t ht => hf t x (hr t ht)

@[simp] theorem EventOk.map {α : Type} {o : Option α} {f : α → State} (hf : ∀ x, o = some x → (f x).MemOk) : EventOk (o.map f) := by
  cases o with
  | none => exact eventOk_none
  | some x => exact eventOk_some.2 (hf x rfl)

end Sys2Proof.Machine
end

section
/-! SUPPORT. The canonical form of every memory: the core, its messages and the commons banks keep it. -/

namespace Sys2Proof.Machine

/-! ## Registers, actors, regions and bad words -/

@[simp] theorem State.memOk_onPkg {s : State} (h : s.MemOk) (p f) : (s.onPkg p f).MemOk := h
@[simp] theorem State.memOk_onEngine {s : State} (h : s.MemOk) (e f) : (s.onEngine e f).MemOk := h
@[simp] theorem State.memOk_onOwner {s : State} (h : s.MemOk) (o f) : (s.onOwner o f).MemOk := h
@[simp] theorem State.memOk_onBank {s : State} (h : s.MemOk) (b f) : (s.onBank b f).MemOk := h
@[simp] theorem State.memOk_setWord {s : State} (h : s.MemOk) (w v) : (s.setWord w v).MemOk := h
@[simp] theorem State.memOk_setDir {s : State} (h : s.MemOk) (e) : (s.setDir e).MemOk := h
@[simp] theorem State.memOk_cancelThresholds {s : State} (h : s.MemOk) (name) : (s.cancelThresholds name).MemOk := h
@[simp] theorem State.memOk_freeName {s : State} (h : s.MemOk) (name) : (s.freeName name).MemOk := h

@[simp] theorem State.memOk_onFlock {s : State} (h : s.MemOk) (n f) : (s.onFlock n f).MemOk := by
  unfold State.onFlock
  split <;> simp [h]

@[simp] theorem State.memOk_post {s : State} (h : s.MemOk) (src pay) : (s.post src pay).MemOk := h
@[simp] theorem State.memOk_take {s : State} (h : s.MemOk) (n) : (s.take n).MemOk := h

@[simp] theorem State.memOk_onActor {s : State} (h : s.MemOk) (c slot f) : (s.onActor c slot f).MemOk := by
  simp [State.onActor, h]

@[simp] theorem State.memOk_onTh {s : State} (h : s.MemOk) (f) : (s.onTh f).MemOk := by simp [State.onTh, h]
@[simp] theorem State.memOk_onSelf {s : State} (h : s.MemOk) (f) : (s.onSelf f).MemOk := by simp [State.onSelf, h]

@[simp] theorem State.memOk_journal {s : State} (h : s.MemOk) (pkg fw kind ops) : (s.journal pkg fw kind ops).MemOk := by
  simp [State.journal, h]

@[simp] theorem State.answerOk_stall {s : State} (h : s.MemOk) : AnswerOk (s.stall) := by simp [State.stall, h]

@[simp] theorem State.answerOk_stallReg {s : State} (h : s.MemOk) (xs vs) : AnswerOk (s.stallReg xs vs) := by
  simp [State.stallReg, h]

@[simp] theorem State.answerOk_finish {s : State} (h : s.MemOk) (f) : AnswerOk (s.finish f) := by simp [State.finish, h]

@[simp] theorem State.answerOk_withX {s : State} (h : s.MemOk) (rs) {k : Thread → Answer} (hk : ∀ t, AnswerOk (k t)) :
    AnswerOk (s.withX rs k) := by
  unfold State.withX; split <;> simp (maxDischargeDepth := 9) [h, hk]

@[simp] theorem Core.wf_writeWords {k : Core} (hk : k.mem.wf = true) (a bs) : (k.writeWords a bs).mem.wf = true := by
  simp [Core.writeWords, hk]

@[simp] theorem Core.wf_writeWord {k : Core} (hk : k.mem.wf = true) (a v) : (k.writeWord a v).mem.wf = true := by
  simp [Core.writeWord, hk]

@[simp] theorem Core.wf_onCounters {k : Core} (hk : k.mem.wf = true) (slot f) : (k.onCounters slot f).mem.wf = true := by
  simp [Core.onCounters, hk]

@[simp] theorem Core.die_mem (k : Core) (slot reason sub detail) : (k.die slot reason sub detail).mem = k.mem := by
  simp [Core.die]

@[simp] theorem Core.takeTrap_mem (k : Core) (i r) : (k.takeTrap i r).mem = k.mem := by
  unfold Core.takeTrap
  dsimp only
  split <;> simp

@[simp] theorem State.answerOk_trap {s : State} (h : s.MemOk) (reason sub detail va gaf) : AnswerOk (s.trap reason sub detail va gaf) := by
  simp [State.trap, h]

@[simp] theorem State.answerOk_illegal {s : State} (h : s.MemOk) (sub) : AnswerOk (s.illegal sub) := by simp [State.illegal, h]

@[simp] theorem State.memOk_dieSelf {s : State} (h : s.MemOk) (reason detail) : (s.dieSelf reason detail).MemOk := by
  simp [State.dieSelf, h]

@[simp] theorem Core.wf_recordErr {k : Core} (hk : k.mem.wf = true) (slot srcmem addr) : (k.recordErr slot srcmem addr).mem.wf = true := by
  unfold Core.recordErr
  dsimp only
  split <;> simp [hk]

@[simp] theorem State.memOk_readError {s : State} (h : s.MemOk) (at_) : (s.readError at_).MemOk := by
  unfold State.readError
  split <;> simp (maxDischargeDepth := 9) [h]

@[simp] theorem Core.wf_noteBad {k : Core} (hk : k.mem.wf = true) (slot a n) : (k.noteBad slot a n).mem.wf = true := by
  unfold Core.noteBad
  split <;> simp [hk]

@[simp] theorem Core.wf_deferFault {k : Core} (hk : k.mem.wf = true) (slot d) : (k.deferFault slot d).mem.wf = true := by
  unfold Core.deferFault
  dsimp only
  repeat' split
  all_goals simp [hk]

@[simp] theorem Core.wf_writeIn {k : Core} (hk : k.mem.wf = true) (e a bs) : (k.writeIn e a bs).1.mem.wf = true := by
  unfold Core.writeIn
  split
  · exact Memory.wf_writeMap _ bs hk a
  · exact List.foldlRecOn (motive := fun m : Memory => m.wf = true) _ _ hk fun m hm p _ => by
      dsimp only; split
      · exact hm
      · exact Memory.wf_write hm _ _

@[simp] theorem Core.wf_scrub {k : Core} (hk : k.mem.wf = true) (base size) : (k.scrub base size).mem.wf = true := by
  simp [Core.scrub, hk]

/-! ## Operands and traps -/

@[simp] theorem answerOk_alu2 {s : State} (h : s.MemOk) (d a b f) : AnswerOk (alu2 d a b f s) := by simp [alu2, h]
@[simp] theorem answerOk_alu1 {s : State} (h : s.MemOk) (d a f) : AnswerOk (alu1 d a f s) := by simp [alu1, h]
@[simp] theorem answerOk_alu3 {s : State} (h : s.MemOk) (d a b f) : AnswerOk (alu3 d a b f s) := by simp [alu3, h]

@[simp] theorem State.answerOk_withV {s : State} (h : s.MemOk) (vs xs q) {k : Thread → Answer} (hk : ∀ t, AnswerOk (k t)) :
    AnswerOk (s.withV vs xs q k) := by
  unfold State.withV; split <;> simp (maxDischargeDepth := 9) [h, hk]

@[simp] theorem answerOk_vec2 {s : State} (h : s.MemOk) (d a b msel tp mp w f) : AnswerOk (vec2 d a b msel tp mp w f s) := by
  simp [vec2, h]

/-! ## Delivery of an answer -/

@[simp] theorem Core.wf_setSaved {k : Core} (hk : k.mem.wf = true) (slot a i) : (k.setSaved slot a i).mem.wf = true := by
  simp [Core.setSaved, hk]

@[simp] theorem Core.wf_arriveX {k : Core} (hk : k.mem.wf = true) (slot fid r v) : (k.arriveX slot fid r v).mem.wf = true := by
  unfold Core.arriveX
  dsimp only
  repeat' split
  all_goals simp [hk]

@[simp] theorem Core.wf_arriveV {k : Core} (hk : k.mem.wf = true) (slot fid r v) : (k.arriveV slot fid r v).mem.wf = true := by
  unfold Core.arriveV
  dsimp only
  repeat' split
  all_goals simp [hk]

@[simp] theorem Core.wf_arriveRegs {k : Core} (hk : k.mem.wf = true) (a x v1 v2) : (k.arriveRegs a x v1 v2).mem.wf = true := by
  simp (maxDischargeDepth := 9) [Core.arriveRegs, hk]

@[simp] theorem Core.wf_arrive {k : Core} (hk : k.mem.wf = true) (a vals) : (k.arrive a vals).mem.wf = true := by
  simp [Core.arrive, hk]

@[simp] theorem Core.wf_arriveZero {k : Core} (hk : k.mem.wf = true) (a) : (k.arriveZero a).mem.wf = true := by
  simp [Core.arriveZero, hk]

@[simp] theorem Core.wf_endAccess {k : Core} (hk : k.mem.wf = true) (a) : (k.endAccess a).mem.wf = true := by
  simp [Core.endAccess, hk]

@[simp] theorem Core.wf_faultAccess {k : Core} (hk : k.mem.wf = true) (a reason sub detail) :
    (k.faultAccess a reason sub detail).mem.wf = true := by
  simp (maxDischargeDepth := 9) [Core.faultAccess, hk]

@[simp] theorem Core.wf_lostAccess {k : Core} (hk : k.mem.wf = true) (a) : (k.lostAccess a).mem.wf = true := by
  simp [Core.lostAccess, hk]

@[simp] theorem Core.wf_actOn {k : Core} (hk : k.mem.wf = true) (a v) : (k.actOn a v).mem.wf = true := by
  unfold Core.actOn
  split <;> simp (maxDischargeDepth := 9) [hk]

/-! ## Local loads and stores -/

@[simp] theorem State.answerOk_access {s : State} (h : s.MemOk) {k : Answer} (hk : AnswerOk k) : AnswerOk (s.access k) := by
  unfold State.access; split <;> simp (maxDischargeDepth := 9) [h, hk]

@[simp] theorem answerOk_loadLocal {s : State} (h : s.MemOk) (d a o n ext) : AnswerOk (loadLocal d a o n ext s) := by
  unfold loadLocal
  refine State.answerOk_withX h _ fun _ => ?_
  dsimp only
  repeat' split
  all_goals simp (maxDischargeDepth := 9) [h]

@[simp] theorem State.memOk_storeIn {s : State} (h : s.MemOk) (e va bs) : (s.storeIn e va bs).MemOk := by
  unfold State.storeIn
  dsimp only
  split <;> simp (maxDischargeDepth := 9) [h]

@[simp] theorem answerOk_storeLocal {s : State} (h : s.MemOk) (t a off n data) : AnswerOk (storeLocal t a off n data s) := by
  unfold storeLocal
  refine State.answerOk_withX h _ fun _ => ?_
  dsimp only
  repeat' split
  all_goals simp (maxDischargeDepth := 9) [h]

@[simp] theorem answerOk_execLb {s : State} (h : s.MemOk) (d a o) : AnswerOk (execLb d a o s) := by simp [execLb, h]
@[simp] theorem answerOk_execLbu {s : State} (h : s.MemOk) (d a o) : AnswerOk (execLbu d a o s) := by simp [execLbu, h]
@[simp] theorem answerOk_execLh {s : State} (h : s.MemOk) (d a o) : AnswerOk (execLh d a o s) := by simp [execLh, h]
@[simp] theorem answerOk_execLhu {s : State} (h : s.MemOk) (d a o) : AnswerOk (execLhu d a o s) := by simp [execLhu, h]
@[simp] theorem answerOk_execLw {s : State} (h : s.MemOk) (d a o) : AnswerOk (execLw d a o s) := by simp [execLw, h]
@[simp] theorem answerOk_execLwu {s : State} (h : s.MemOk) (d a o) : AnswerOk (execLwu d a o s) := by simp [execLwu, h]
@[simp] theorem answerOk_execLd {s : State} (h : s.MemOk) (d a o) : AnswerOk (execLd d a o s) := by simp [execLd, h]
@[simp] theorem answerOk_execSb {s : State} (h : s.MemOk) (t a o) : AnswerOk (execSb t a o s) := by simp [execSb, h]
@[simp] theorem answerOk_execSh {s : State} (h : s.MemOk) (t a o) : AnswerOk (execSh t a o s) := by simp [execSh, h]
@[simp] theorem answerOk_execSw {s : State} (h : s.MemOk) (t a o) : AnswerOk (execSw t a o s) := by simp [execSw, h]
@[simp] theorem answerOk_execSd {s : State} (h : s.MemOk) (t a o) : AnswerOk (execSd t a o s) := by simp [execSd, h]
@[simp] theorem answerOk_execSn {s : State} (h' : s.MemOk) (t a o h) : AnswerOk (execSn t a o h s) := by simp [execSn, h']

@[simp] theorem answerOk_loadVec {s : State} (h : s.MemOk) (d vs xs q tp mp w base addr) :
    AnswerOk (loadVec d vs xs q tp mp w base addr s) := by
  unfold loadVec
  refine State.answerOk_withV h _ _ _ fun _ => ?_
  dsimp only
  repeat' split
  all_goals simp (maxDischargeDepth := 9) [h]

@[simp] theorem answerOk_storeVec {s : State} (h : s.MemOk) (d vs xs q w base addr) : AnswerOk (storeVec d vs xs q w base addr s) := by
  unfold storeVec
  refine State.answerOk_withV h _ _ _ fun _ => ?_
  dsimp only
  repeat' split
  all_goals simp (maxDischargeDepth := 9) +contextual [h]

@[simp] theorem answerOk_execVld {s : State} (h : s.MemOk) (d a q t m w) : AnswerOk (execVld d a q t m w s) := by
  simp [execVld, h]

@[simp] theorem answerOk_execVst {s : State} (h : s.MemOk) (d a q w) : AnswerOk (execVst d a q w s) := by simp [execVst, h]

@[simp] theorem answerOk_execVlds {s : State} (h : s.MemOk) (d a b q t m w) : AnswerOk (execVlds d a b q t m w s) := by
  simp [execVlds, h]

@[simp] theorem answerOk_execVsts {s : State} (h : s.MemOk) (d a b q w) : AnswerOk (execVsts d a b q w s) := by simp [execVsts, h]

@[simp] theorem answerOk_execVldg {s : State} (h : s.MemOk) (d a b q t m w) : AnswerOk (execVldg d a b q t m w s) := by
  simp [execVldg, h]

@[simp] theorem answerOk_execVstg {s : State} (h : s.MemOk) (d a b q w) : AnswerOk (execVstg d a b q w s) := by simp [execVstg, h]

/-! ## The permission lookaside buffer -/

@[simp] theorem State.memOk_firstTouch {s : State} (h : s.MemOk) (c cls range) : (s.firstTouch c cls range).MemOk := by
  unfold State.firstTouch
  repeat' split
  all_goals simp [h]

@[simp] theorem Core.plbTouch_mem (k : Core) (dom ga) : (k.plbTouch dom ga).mem = k.mem := by
  unfold Core.plbTouch
  split <;> simp

@[simp] theorem Core.askRefill_mem (k : Core) (dom ga) : (k.askRefill dom ga).mem = k.mem := by simp [Core.askRefill]
@[simp] theorem Core.dropRefill_mem (k : Core) (dom ga) : (k.dropRefill dom ga).mem = k.mem := by simp [Core.dropRefill]

@[simp] theorem State.memOk_refillNow {s : State} (h : s.MemOk) (c dom ga) : (s.refillNow c dom ga).MemOk := by
  unfold State.refillNow
  dsimp only
  split <;> simp (maxDischargeDepth := 9) [h]

@[simp] theorem State.memOk_forgetRefills {s : State} (h : s.MemOk) (cls range) : (s.forgetRefills cls range).MemOk := by
  simp [State.forgetRefills, h]

@[simp] theorem eventOk_evPlbRefill {s : State} (h : s.MemOk) (core ga) : EventOk (evPlbRefill core ga s) := by
  unfold evPlbRefill
  dsimp only
  repeat' split
  all_goals simp (maxDischargeDepth := 9) [h]

@[simp] theorem answerOk_execPlbRefill {s : State} (h : s.MemOk) (core ga) : AnswerOk (execPlbRefill core ga s) := by
  simp [execPlbRefill, h]

@[simp] theorem State.memOk_clearPlbs {s : State} (h : s.MemOk) (cls range) : (s.clearPlbs cls range).MemOk := by
  simp [State.clearPlbs, h]

@[simp] theorem eventOk_evShootdown {s : State} (h : s.MemOk) (n) : EventOk (evShootdown n s) := by
  unfold evShootdown
  split <;> simp [h]

@[simp] theorem answerOk_execShootdown {s : State} (h : s.MemOk) (n) : AnswerOk (execShootdown n s) := by simp [execShootdown, h]

/-! ## Accesses to the commons -/

@[simp] theorem Core.takeSeq_mem (k : Core) (b) : (k.takeSeq b).2.mem = k.mem := rfl

@[simp] theorem Core.sendAcc_mem (k : Core) (c now id owner replay) : (k.sendAcc c now id owner replay).mem = k.mem := by
  unfold Core.sendAcc
  split <;> simp

@[simp] theorem State.memOk_launch {s : State} (h : s.MemOk) (q owner group) : (s.launch q owner group).MemOk := by
  simp (maxDischargeDepth := 9) [State.launch, h]

@[simp] theorem State.answerOk_issueTo {s : State} (h : s.MemOk) (q owner) : AnswerOk (s.issueTo q owner) := by
  unfold State.issueTo
  dsimp only
  split <;> simp (maxDischargeDepth := 9) +contextual [h]

@[simp] theorem State.answerOk_denyElsewhere {s : State} (h : s.MemOk) (q) : AnswerOk (s.denyElsewhere q) := by
  unfold State.denyElsewhere
  dsimp only
  split <;> simp (maxDischargeDepth := 9) [h]

@[simp] theorem State.answerOk_issue {s : State} (h : s.MemOk) (q) : AnswerOk (s.issue q) := by
  unfold State.issue
  repeat' split
  all_goals simp (maxDischargeDepth := 9) [h]

/-! ## Signals -/

@[simp] theorem State.memOk_signal {s : State} (h : s.MemOk) (src g) : (s.signal src g).MemOk := h

@[simp] theorem State.memOk_delivery {s : State} (h : s.MemOk) (pkg die dst inc reason subject sinc detail) :
    (s.delivery pkg die dst inc reason subject sinc detail).MemOk := h

@[simp] theorem State.memOk_deviceSignal {s : State} (h : s.MemOk) (pkg die dst inc reason sub detail) :
    (s.deviceSignal pkg die dst inc reason sub detail).MemOk := h

/-! ## Time -/

@[simp] theorem Core.count_mem (k : Core) (code dom n) : (k.count code dom n).mem = k.mem := by simp [Core.count]
@[simp] theorem Core.countOf_mem (k : Core) (slot code n) : (k.countOf slot code n).mem = k.mem := by simp [Core.countOf]

@[simp] theorem State.memOk_countCore {s : State} (h : s.MemOk) (c code dom n) : (s.countCore c code dom n).MemOk := by
  simp [State.countCore, h]

@[simp] theorem State.memOk_countEngine {s : State} (h : s.MemOk) (e code dom n) : (s.countEngine e code dom n).MemOk := h
@[simp] theorem State.memOk_countOwner {s : State} (h : s.MemOk) (o code dom n) : (s.countOwner o code dom n).MemOk := h
@[simp] theorem Core.tickThread_mem (k : Core) (n i) : (k.tickThread n i).mem = k.mem := by simp [Core.tickThread]

@[simp] theorem Core.countMacs_mem (k : Core) (l n) : (k.countMacs l n).mem = k.mem := by
  induction l generalizing k n with
  | nil => rfl
  | cons p l ih =>
    unfold Core.countMacs
    dsimp only
    split
    · rfl
    · rw [ih]

@[simp] theorem Core.tick_mem (k : Core) (n) : (k.tick n).mem = k.mem := by simp [Core.tick]

@[simp] theorem State.memOk_tick {s : State} (h : s.MemOk) (n) : (s.tick n).MemOk := by
  simp (maxDischargeDepth := 9) [State.tick, h]

@[simp] theorem State.memOk_issued {u : State} {s : State} (h' : s.MemOk) : (u.issued s).MemOk := by
  simp (maxDischargeDepth := 9) [State.issued, h']

/-! ## The commons banks -/

@[simp] theorem State.memOk_onAcc {s : State} (h : s.MemOk) (core id f) : (s.onAcc core id f).MemOk := by simp [State.onAcc, h]
@[simp] theorem State.memOk_answer {s : State} (h : s.MemOk) (core id v) : (s.answer core id v).MemOk := by simp [State.answer, h]

@[simp] theorem State.memOk_answerBusy {s : State} (h : s.MemOk) (core id) : (s.answerBusy core id).MemOk := by
  simp [State.answerBusy, h]

@[simp] theorem State.memOk_bankMessage {s : State} (h : s.MemOk) (o target chan kind from_ inc dom words) :
    (s.bankMessage o target chan kind from_ inc dom words).MemOk := h

@[simp] theorem State.memOk_serveDeferral {s : State} (h : s.MemOk) (o w target chan tag from_ inc dom val ver gone poison) :
    (s.serveDeferral o w target chan tag from_ inc dom val ver gone poison).MemOk := h

@[simp] theorem State.memOk_serve {s : State} (h : s.MemOk) (o c) : (s.serve o c).MemOk := by
  unfold State.serve
  split <;> simp [h]

@[simp] theorem State.memOk_walk {s : State} (h : s.MemOk) (o w) : (s.walk o w).MemOk := by simp +contextual [State.walk, h]

@[simp] theorem State.memOk_pushShadow {s : State} (h : s.MemOk) (o w) : (s.pushShadow o w).MemOk := by
  simp (maxDischargeDepth := 9) [State.pushShadow, h]

@[simp] theorem State.memOk_makeVersion {s : State} (h : s.MemOk) (o w data whole) : (s.makeVersion o w data whole).MemOk := by
  simp (maxDischargeDepth := 9) [State.makeVersion, h]

@[simp] theorem State.memOk_triggerCheck {s : State} (h : s.MemOk) (o w old) : (s.triggerCheck o w old).MemOk := by
  unfold State.triggerCheck
  dsimp only
  repeat' split
  all_goals simp (maxDischargeDepth := 9) [h]

@[simp] theorem State.memOk_atomicWrite {s : State} (h : s.MemOk) (o w data) : (s.atomicWrite o w data).MemOk := by
  simp [State.atomicWrite, h]

@[simp] theorem State.memOk_lodge {s : State} (h : s.MemOk) (o core a who ver) {k : State → State} (hk : ∀ t, t.MemOk → (k t).MemOk) :
    (s.lodge o core a who ver k).MemOk := by
  unfold State.lodge; dsimp only; split <;> simp (maxDischargeDepth := 9) [h, hk]

@[simp] theorem State.memOk_reclaim {s : State} (h : s.MemOk) (o w u) : (s.reclaim o w u).MemOk := h

@[simp] theorem State.memOk_applyAtBank {s : State} (h : s.MemOk) (o core a) : (s.applyAtBank o core a).MemOk := by
  unfold State.applyAtBank
  dsimp only
  repeat' split
  all_goals simp (maxDischargeDepth := 9) +contextual [h]

@[simp] theorem State.memOk_sendGone {s : State} (h : s.MemOk) (o c) : (s.sendGone o c).MemOk := by
  unfold State.sendGone
  split <;> simp [h]

@[simp] theorem State.memOk_emptyPage {s : State} (h : s.MemOk) (o page) : (s.emptyPage o page).MemOk := by
  unfold State.emptyPage
  extract_lets inPage go s1
  have h1 : s1.MemOk := State.memOk_foldl h _ fun t i ht => State.memOk_foldl (State.memOk_onBank ht _ _) _ fun u c hu => by simp [hu]
  exact State.memOk_with h1 h1.1

/-! ## Mailboxes -/

@[simp] theorem Core.wf_noteChan {k : Core} (hk : k.mem.wf = true) (slot c) : (k.noteChan slot c).mem.wf = true := by
  simp [Core.noteChan, hk]

@[simp] theorem Core.wf_setChan {k : Core} (hk : k.mem.wf = true) (slot c d) : (k.setChan slot c d).mem.wf = true := by
  simp [Core.setChan, hk]

@[simp] theorem Core.wake_mem (k : Core) (slot now) : (k.wake slot now).mem = k.mem := by simp [Core.wake]

@[simp] theorem Core.wf_placeEntry {k : Core} (hk : k.mem.wf = true) (slot c now hdr sender m) :
    (k.placeEntry slot c now hdr sender m).mem.wf = true := by
  simp (maxDischargeDepth := 9) [Core.placeEntry, hk]

@[simp] theorem Core.wf_placeMsg {k : Core} (hk : k.mem.wf = true) (slot now m) : (k.placeMsg slot now m).mem.wf = true := by
  simp [Core.placeMsg, hk]

@[simp] theorem Core.reservePlace_mem (k : Core) (slot c) : (k.reservePlace slot c).mem = k.mem := by simp [Core.reservePlace]

@[simp] theorem Core.unreservePlace_mem (k : Core) (slot c) : (k.unreservePlace slot c).mem = k.mem := by
  simp [Core.unreservePlace]

@[simp] theorem Core.wf_dropHead {k : Core} (hk : k.mem.wf = true) (slot c now) : (k.dropHead slot c now).mem.wf = true := by
  simp [Core.dropHead, hk]

@[simp] theorem Core.wf_noteSignals {k : Core} (hk : k.mem.wf = true) (slot) : (k.noteSignals slot).mem.wf = true := by
  simp (maxDischargeDepth := 9) +contextual [Core.noteSignals, hk]

@[simp] theorem Core.wf_placeSignal {k : Core} (hk : k.mem.wf = true) (slot now g) : (k.placeSignal slot now g).mem.wf = true := by
  unfold Core.placeSignal
  dsimp only
  repeat' split
  all_goals simp [hk]

@[simp] theorem Core.wf_expireTimer {k : Core} (hk : k.mem.wf = true) (core slot now) : (k.expireTimer core slot now).mem.wf = true := by
  simp [Core.expireTimer, hk]

@[simp] theorem Core.wf_putRecord {k : Core} (hk : k.mem.wf = true) (slot now ws) : (k.putRecord slot now ws).mem.wf = true := by
  simp [Core.putRecord, hk]

@[simp] theorem Core.dropRecord_mem (k : Core) (slot now) : (k.dropRecord slot now).mem = k.mem := by simp [Core.dropRecord]

@[simp] theorem Core.wf_discard {k : Core} (hk : k.mem.wf = true) (slot c now n) : (k.discard slot c now n).mem.wf = true := by
  induction n generalizing k with
  | zero => exact hk
  | succ n ih =>
    unfold Core.discard
    split
    · exact hk
    · exact ih (by split <;> simp [hk])

@[simp] theorem Core.wf_consume {k : Core} (hk : k.mem.wf = true) (slot now) : (k.consume slot now).mem.wf = true := by
  unfold Core.consume
  dsimp only
  split
  · exact hk
  · exact Core.wf_foldl hk _ fun q c hq => by split <;> simp [hq]

/-! ## Messages -/

@[simp] theorem State.memOk_frameFlagged {s : State} (h : s.MemOk) (flags pkg conn cls name arg words) :
    (s.frameFlagged flags pkg conn cls name arg words).MemOk := by
  unfold State.frameFlagged
  split <;> simp [h]

@[simp] theorem State.memOk_frameOut {s : State} (h : s.MemOk) (pkg conn cls name arg words) :
    (s.frameOut pkg conn cls name arg words).MemOk := by
  simp [State.frameOut, h]

@[simp] theorem State.memOk_replyOut {s : State} (h : s.MemOk) (pkg conn cls name arg words) :
    (s.replyOut pkg conn cls name arg words).MemOk := by
  simp [State.replyOut, h]

@[simp] theorem State.memOk_messageOut {s : State} (h : s.MemOk) (pkg conn m) : (s.messageOut pkg conn m).MemOk := by
  simp [State.messageOut, h]

@[simp] theorem State.memOk_onSend {s : State} (h : s.MemOk) (c id f) : (s.onSend c id f).MemOk := by simp [State.onSend, h]

@[simp] theorem State.memOk_endSend {s : State} (h : s.MemOk) (c id) : (s.endSend c id).MemOk := by
  simp (maxDischargeDepth := 9) [State.endSend, h]

@[simp] theorem State.memOk_place1 {s : State} (h : s.MemOk) (core slot m) : (s.place1 core slot m).2.MemOk := by
  unfold State.place1; dsimp only; split
  · exact h
  · simp (maxDischargeDepth := 9) [h]

@[simp] theorem Core.recordMsg_mem (k : Core) (now src number a) : (k.recordMsg now src number a).mem = k.mem := by
  simp [Core.recordMsg]

@[simp] theorem Core.cacheDir_mem (k : Core) (e) : (k.cacheDir e).mem = k.mem := by simp [Core.cacheDir]

@[simp] theorem State.memOk_leaveFor {s : State} (h : s.MemOk) (c e core slot fresh) : (s.leaveFor c e core slot fresh).MemOk := by
  simp (maxDischargeDepth := 9) [State.leaveFor, h]

@[simp] theorem State.memOk_leave {s : State} (h : s.MemOk) (c e) : (s.leave c e).MemOk := by
  unfold State.leave
  dsimp only
  repeat' split
  all_goals simp (maxDischargeDepth := 9) [h]

@[simp] theorem State.memOk_leaveUpTo {s : State} (h : s.MemOk) (c e) : (s.leaveUpTo c e).MemOk := by
  simp (maxDischargeDepth := 9) +contextual [State.leaveUpTo, h]

@[simp] theorem State.memOk_answerSend {s : State} (h : s.MemOk) (c e a) : (s.answerSend c e a).MemOk := by
  unfold State.answerSend
  split <;> simp (maxDischargeDepth := 9) [h]

@[simp] theorem State.memOk_busySend {s : State} (h : s.MemOk) (c e) : (s.busySend c e).MemOk := by simp [State.busySend, h]

@[simp] theorem State.eventOk_actOn {s : State} (h : s.MemOk) (c e slot) : EventOk (s.actOn c e slot) := by
  unfold State.actOn
  repeat' split
  all_goals simp (maxDischargeDepth := 9) [h]

@[simp] theorem State.eventOk_receive {s : State} (h : s.MemOk) (c e slot) : EventOk (s.receive c e slot) := by
  simp (maxDischargeDepth := 9) [State.receive, h]

@[simp] theorem State.eventOk_findPlace {s : State} (h : s.MemOk) (c e) : EventOk (s.findPlace c e) := by
  unfold State.findPlace
  dsimp only
  repeat' split
  all_goals simp [h]

@[simp] theorem State.eventOk_entryArrives {s : State} (h : s.MemOk) (c e) : EventOk (s.entryArrives c e) := by
  unfold State.entryArrives
  dsimp only
  repeat' split
  all_goals simp [h]

@[simp] theorem State.eventOk_resendArrives {s : State} (h : s.MemOk) (c e) : EventOk (s.resendArrives c e) := by
  unfold State.resendArrives
  split <;> simp (maxDischargeDepth := 9) [h]

@[simp] theorem State.memOk_viaRefused {s : State} (h : s.MemOk) (pkg die m via reason code inc) :
    (s.viaRefused pkg die m via reason code inc).MemOk := by
  unfold State.viaRefused
  split <;> simp [h]

@[simp] theorem State.memOk_viaPlaced {s : State} (h : s.MemOk) (via) : (s.viaPlaced via).MemOk := by
  unfold State.viaPlaced
  split <;> simp [h]

@[simp] theorem State.eventOk_freeArrives {s : State} (h : s.MemOk) (n p m via since) : EventOk (s.freeArrives n p m via since) := by
  unfold State.freeArrives
  dsimp only
  repeat' split
  all_goals simp (maxDischargeDepth := 9) [h]

@[simp] theorem eventOk_evMessageArrival {s : State} (h : s.MemOk) (n) : EventOk (evMessageArrival n s) := by
  unfold evMessageArrival
  repeat' split
  all_goals simp [h]

@[simp] theorem answerOk_execMessageArrival {s : State} (h : s.MemOk) (n) : AnswerOk (execMessageArrival n s) := by
  simp [execMessageArrival, h]

@[simp] theorem State.memOk_entryRefused {s : State} (h : s.MemOk) (c e unit reason code inc) :
    (s.entryRefused c e unit reason code inc).MemOk := by
  simp [State.entryRefused, h]

@[simp] theorem eventOk_evSendAnswer {s : State} (h : s.MemOk) (n) : EventOk (evSendAnswer n s) := by
  unfold evSendAnswer
  repeat' split
  all_goals simp (maxDischargeDepth := 9) [h]

@[simp] theorem answerOk_execSendAnswer {s : State} (h : s.MemOk) (n) : AnswerOk (execSendAnswer n s) := by
  simp [execSendAnswer, h]

@[simp] theorem eventOk_evMessageResend {s : State} (h : s.MemOk) (n) : EventOk (evMessageResend n s) := by
  unfold evMessageResend
  split <;> simp [h]

@[simp] theorem answerOk_execMessageResend {s : State} (h : s.MemOk) (n) : AnswerOk (execMessageResend n s) := by
  simp [execMessageResend, h]

@[simp] theorem eventOk_evMessageIndeterminate {s : State} (h : s.MemOk) (n) : EventOk (evMessageIndeterminate n s) := by
  unfold evMessageIndeterminate
  split <;> simp [h]

@[simp] theorem answerOk_execMessageIndeterminate {s : State} (h : s.MemOk) (n) : AnswerOk (execMessageIndeterminate n s) := by
  simp [execMessageIndeterminate, h]

/-! ## Streams -/

@[simp] theorem State.memOk_letGo {s : State} (h : s.MemOk) (c fid i v) : (s.letGo c fid i v).MemOk := by simp [State.letGo, h]

@[simp] theorem State.memOk_letGoAll {s : State} (h : s.MemOk) (c fid st) : (s.letGoAll c fid st).MemOk := by
  simp (maxDischargeDepth := 9) [State.letGoAll, h]

@[simp] theorem answerOk_bindStream {s : State} (h : s.MemOk) (writes d a) : AnswerOk (bindStream writes d a s) := by
  unfold bindStream
  refine State.answerOk_withX h _ fun t => ?_
  dsimp only
  repeat' split
  all_goals simp (maxDischargeDepth := 9) [h]

@[simp] theorem answerOk_execSbindR {s : State} (h : s.MemOk) (d a) : AnswerOk (execSbindR d a s) := by simp [execSbindR, h]
@[simp] theorem answerOk_execSbindW {s : State} (h : s.MemOk) (d a) : AnswerOk (execSbindW d a s) := by simp [execSbindW, h]
@[simp] theorem answerOk_execSunbind {s : State} (h : s.MemOk) (d) : AnswerOk (execSunbind d s) := by simp [execSunbind, h]

@[simp] theorem answerOk_execSrd {s : State} (h : s.MemOk) (d a) : AnswerOk (execSrd d a s) := by
  unfold execSrd
  refine State.answerOk_withX h _ fun _ => ?_
  dsimp only
  repeat' split
  all_goals simp (maxDischargeDepth := 9) [h]

@[simp] theorem answerOk_execSwr {s : State} (h : s.MemOk) (d a) : AnswerOk (execSwr d a s) := by
  unfold execSwr
  refine State.answerOk_withX h _ fun _ => ?_
  dsimp only
  repeat' split
  all_goals simp (maxDischargeDepth := 9) [h]

@[simp] theorem answerOk_execSclose {s : State} (h : s.MemOk) (d) : AnswerOk (execSclose d s) := by
  unfold execSclose
  dsimp only
  split <;> simp [h]

/-! ## Images -/

theorem Core.mem_of_alloc {k : Core} {e r} (h : k.alloc e = some r) : r.2.mem = k.mem := by
  unfold Core.alloc at h
  split at h
  · cases h; rfl
  · cases h

theorem Core.mem_of_allocAll {ns : List Need} {k : Core} {r} (h : k.allocAll ns = .ok r) : r.2.mem = k.mem := by
  induction ns generalizing k r with
  | nil => cases h; rfl
  | cons n ns ih =>
    unfold Core.allocAll at h
    split at h
    · cases h
    · rename_i ha
      split at h
      · cases h
      · rename_i hr
        cases h
        exact (ih hr).trans (Core.mem_of_alloc ha)

@[simp] theorem Core.wf_fillRegion {k : Core} (hk : k.mem.wf = true) (i bs) : (k.fillRegion i bs).mem.wf = true := by
  simp [Core.fillRegion, hk]

@[simp] theorem State.wf_loadCode {s : State} {k : Core} (hk : k.mem.wf = true) (img i) : (s.loadCode k img i).mem.wf = true := by
  simp [State.loadCode, hk]

@[simp] theorem State.wf_loadInit {s : State} {k : Core} (hk : k.mem.wf = true) (img r i) : (s.loadInit k img r i).mem.wf = true := by
  simp [State.loadInit, hk]

@[simp] theorem Core.wf_initMailbox {k : Core} (hk : k.mem.wf = true) (slot depths) : (k.initMailbox slot depths).mem.wf = true := by
  simp (maxDischargeDepth := 9) [Core.initMailbox, hk]

@[simp] theorem Core.loadRules_mem (k : Core) (img slot own) : (k.loadRules img slot own).mem = k.mem := by simp [Core.loadRules]

theorem State.wf_of_install {s : State} (h : s.MemOk) {core slot img name inc fl msg sender sinc k}
    (hi : s.install core slot img name inc fl msg sender sinc = some k) : k.mem.wf = true := by
  unfold State.install at hi
  dsimp only at hi
  split at hi
  · cases hi
  · rename_i l k1 ha
    have hk : k1.mem.wf = true := Core.mem_of_allocAll ha ▸ s.wf_core h core
    split at hi
    · cases hi
    · obtain rfl := Option.some.inj hi
      simp (maxDischargeDepth := 9) +contextual [hk]

end Sys2Proof.Machine
end

section
/-! SUPPORT. The canonical form of every memory: the tile, the owners and the copy engines keep it. -/

namespace Sys2Proof.Machine

/-! ## The matrix tile -/

@[simp] theorem Core.pushCmd_mem (k : Core) (t c sca scb tset ridx) : (k.pushCmd t c sca scb tset ridx).mem = k.mem := by
  simp [Core.pushCmd]

@[simp] theorem answerOk_execMcmd {s : State} (h : s.MemOk) (d a b) : AnswerOk (execMcmd d a b s) := by
  unfold execMcmd
  split
  · simp [h]
  · refine State.answerOk_withV h _ _ _ fun t => State.answerOk_access h ?_
    dsimp only
    repeat' split
    all_goals simp (maxDischargeDepth := 9) [h]

@[simp] theorem Core.giveBack_mem (k : Core) (c) : (k.giveBack c).mem = k.mem := by simp [Core.giveBack]
@[simp] theorem Core.abandon_mem (k : Core) (slot which) : (k.abandon slot which).mem = k.mem := by simp [Core.abandon]
@[simp] theorem Core.retireCmd_mem (k : Core) (c) : (k.retireCmd c).mem = k.mem := by simp [Core.retireCmd]

@[simp] theorem Core.wf_faultCmd {k : Core} (hk : k.mem.wf = true) (c sub i) : (k.faultCmd c sub i).mem.wf = true := by
  simp [Core.faultCmd, hk]

theorem State.eventOk_runCmd {s : State} (h : s.MemOk) (core which) {f : Core → TileCmd → Except (Nat × Nat) Core}
    (hf : ∀ k c q, k.mem.wf = true → f k c = .ok q → q.mem.wf = true) : EventOk (s.runCmd core which f) := by
  unfold State.runCmd
  dsimp only
  split
  · exact eventOk_none
  split
  · split
    · exact eventOk_some.2 (s.memOk_setCore h (by simpa using hf _ _ _ (s.wf_core h core) ‹_›) core)
    · exact eventOk_some.2 (s.memOk_setCore h (by simp (maxDischargeDepth := 9) [h]) core)
  · exact eventOk_none

theorem Core.wf_of_mma (n) (k : Core) (c q) (hk : k.mem.wf = true) (h : Core.mma n k c = .ok q) : q.mem.wf = true := by
  unfold Core.mma at h
  dsimp only at h
  repeat' split at h
  all_goals cases h
  all_goals simp (maxDischargeDepth := 9) +contextual [hk]

@[simp] theorem Core.noteRerun_mem (k : Core) (now) : (k.noteRerun now).mem = k.mem := by simp [Core.noteRerun]

@[simp] theorem eventOk_mmaEvent {s : State} (h : s.MemOk) (opc core badRuns) : EventOk (mmaEvent opc core badRuns s) :=
  EventOk.map fun t ht => by
    have := State.eventOk_runCmd h core (isOpc opc) (fun k c q => Core.wf_of_mma badRuns k c q) t ht
    split <;> simp (maxDischargeDepth := 9) [this]

theorem Core.wf_of_mloadcb (k : Core) (c q) (hk : k.mem.wf = true) (h : k.mloadcb c = .ok q) : q.mem.wf = true := by
  unfold Core.mloadcb at h
  dsimp only at h
  repeat' split at h
  all_goals cases h
  all_goals simp (maxDischargeDepth := 9) +contextual [hk]

theorem Core.wf_of_ringConfigure (k : Core) (c q) (hk : k.mem.wf = true) (h : k.ringConfigure c = .ok q) : q.mem.wf = true := by
  unfold Core.ringConfigure at h
  dsimp only at h
  repeat' split at h
  all_goals cases h
  all_goals simp (maxDischargeDepth := 9) +contextual [hk]

theorem Core.wf_of_ringAdvance (k : Core) (c q) (hk : k.mem.wf = true) (h : k.ringAdvance c = .ok q) : q.mem.wf = true := by
  unfold Core.ringAdvance at h
  dsimp only at h
  repeat' split at h
  all_goals cases h
  all_goals simp (maxDischargeDepth := 9) +contextual [hk]

theorem Core.wf_of_mscale (k : Core) (c q) (hk : k.mem.wf = true) (h : k.mscale c = .ok q) : q.mem.wf = true := by
  unfold Core.mscale at h
  dsimp only at h
  cases h
  all_goals simp (maxDischargeDepth := 9) +contextual [hk]

theorem Core.wf_of_maddacc (k : Core) (c q) (hk : k.mem.wf = true) (h : k.maddacc c = .ok q) : q.mem.wf = true := by
  unfold Core.maddacc at h
  dsimp only at h
  repeat' split at h
  all_goals cases h
  all_goals simp (maxDischargeDepth := 9) +contextual [hk]

theorem Core.wf_of_mstore (k : Core) (c q) (hk : k.mem.wf = true) (h : k.mstore c = .ok q) : q.mem.wf = true := by
  unfold Core.mstore at h
  split at h
  · cases h
  · cases h
    refine Core.wf_foldl hk _ fun q row hq => ?_
    dsimp only
    split <;> simp [hq]

theorem Core.wf_of_mloadacc (k : Core) (c q) (hk : k.mem.wf = true) (h : k.mloadacc c = .ok q) : q.mem.wf = true := by
  unfold Core.mloadacc at h
  dsimp only at h
  repeat' split at h
  all_goals cases h
  all_goals simp (maxDischargeDepth := 9) +contextual [hk]

@[simp] theorem eventOk_evMsync {s : State} (h : s.MemOk) (core) : EventOk (evMsync core s) := by
  unfold evMsync
  split
  · exact eventOk_none
  · exact State.eventOk_runCmd h _ _ fun k c q hk e => by cases e; exact hk

@[simp] theorem answerOk_execMsync {s : State} (h : s.MemOk) (core) : AnswerOk (execMsync core s) := by simp [execMsync, h]

@[simp] theorem eventOk_evMclr {s : State} (h : s.MemOk) (core) : EventOk (evMclr core s) :=
  State.eventOk_runCmd h _ _ fun k c q hk e => by cases e; simpa using hk

@[simp] theorem answerOk_execMclr {s : State} (h : s.MemOk) (core) : AnswerOk (execMclr core s) := by simp [execMclr, h]

@[simp] theorem eventOk_evMloadcb {s : State} (h : s.MemOk) (core) : EventOk (evMloadcb core s) :=
  State.eventOk_runCmd h _ _ Core.wf_of_mloadcb

@[simp] theorem answerOk_execMloadcb {s : State} (h : s.MemOk) (core) : AnswerOk (execMloadcb core s) := by simp [execMloadcb, h]

@[simp] theorem eventOk_evMringConfigure {s : State} (h : s.MemOk) (core) : EventOk (evMringConfigure core s) :=
  State.eventOk_runCmd h _ _ Core.wf_of_ringConfigure

@[simp] theorem answerOk_execMringConfigure {s : State} (h : s.MemOk) (core) : AnswerOk (execMringConfigure core s) := by
  simp [execMringConfigure, h]

@[simp] theorem eventOk_evMringAdvance {s : State} (h : s.MemOk) (core) : EventOk (evMringAdvance core s) :=
  State.eventOk_runCmd h _ _ Core.wf_of_ringAdvance

@[simp] theorem answerOk_execMringAdvance {s : State} (h : s.MemOk) (core) : AnswerOk (execMringAdvance core s) := by
  simp [execMringAdvance, h]

@[simp] theorem eventOk_evMchkCompare {s : State} (h : s.MemOk) (core) : EventOk (evMchkCompare core s) :=
  State.eventOk_runCmd h _ _ fun k c q hk e => by cases e; simpa using hk

@[simp] theorem answerOk_execMchkCompare {s : State} (h : s.MemOk) (core) : AnswerOk (execMchkCompare core s) := by
  simp [execMchkCompare, h]

@[simp] theorem eventOk_evMchkNoCompare {s : State} (h : s.MemOk) (core) : EventOk (evMchkNoCompare core s) :=
  State.eventOk_runCmd h _ _ fun k c q hk e => by cases e; simpa using hk

@[simp] theorem answerOk_execMchkNoCompare {s : State} (h : s.MemOk) (core) : AnswerOk (execMchkNoCompare core s) := by
  simp [execMchkNoCompare, h]

@[simp] theorem eventOk_evMmove {s : State} (h : s.MemOk) (core) : EventOk (evMmove core s) :=
  State.eventOk_runCmd h _ _ fun k c q hk e => by cases e; simpa using hk

@[simp] theorem answerOk_execMmove {s : State} (h : s.MemOk) (core) : AnswerOk (execMmove core s) := by simp [execMmove, h]

@[simp] theorem eventOk_evMscale {s : State} (h : s.MemOk) (core) : EventOk (evMscale core s) :=
  State.eventOk_runCmd h _ _ Core.wf_of_mscale

@[simp] theorem answerOk_execMscale {s : State} (h : s.MemOk) (core) : AnswerOk (execMscale core s) := by simp [execMscale, h]

@[simp] theorem eventOk_evMaddacc {s : State} (h : s.MemOk) (core) : EventOk (evMaddacc core s) :=
  State.eventOk_runCmd h _ _ Core.wf_of_maddacc

@[simp] theorem answerOk_execMaddacc {s : State} (h : s.MemOk) (core) : AnswerOk (execMaddacc core s) := by simp [execMaddacc, h]

@[simp] theorem eventOk_evMstore {s : State} (h : s.MemOk) (core) : EventOk (evMstore core s) :=
  State.eventOk_runCmd h _ _ Core.wf_of_mstore

@[simp] theorem answerOk_execMstore {s : State} (h : s.MemOk) (core) : AnswerOk (execMstore core s) := by simp [execMstore, h]

@[simp] theorem eventOk_evMdrain {s : State} (h : s.MemOk) (core) : EventOk (evMdrain core s) := by
  unfold evMdrain
  split
  · exact eventOk_none
  · exact EventOk.map fun t ht => State.memOk_post (State.eventOk_runCmd h _ _ (fun k c q hk e => by cases e; exact hk) t ht) _ _

@[simp] theorem answerOk_execMdrain {s : State} (h : s.MemOk) (core) : AnswerOk (execMdrain core s) := by simp [execMdrain, h]

@[simp] theorem eventOk_evMloadacc {s : State} (h : s.MemOk) (core) : EventOk (evMloadacc core s) :=
  State.eventOk_runCmd h _ _ Core.wf_of_mloadacc

@[simp] theorem answerOk_execMloadacc {s : State} (h : s.MemOk) (core) : AnswerOk (execMloadacc core s) := by
  simp [execMloadacc, h]

@[simp] theorem eventOk_evMmaBf16 {s : State} (h : s.MemOk) (core badRuns) : EventOk (evMmaBf16 core badRuns s) := by
  simp [evMmaBf16, h]

@[simp] theorem answerOk_execMmaBf16 {s : State} (h : s.MemOk) (core badRuns) : AnswerOk (execMmaBf16 core badRuns s) := by
  simp [execMmaBf16, h]

@[simp] theorem eventOk_evMmaFp16 {s : State} (h : s.MemOk) (core badRuns) : EventOk (evMmaFp16 core badRuns s) := by
  simp [evMmaFp16, h]

@[simp] theorem answerOk_execMmaFp16 {s : State} (h : s.MemOk) (core badRuns) : AnswerOk (execMmaFp16 core badRuns s) := by
  simp [execMmaFp16, h]

@[simp] theorem eventOk_evMmaE4e4 {s : State} (h : s.MemOk) (core badRuns) : EventOk (evMmaE4e4 core badRuns s) := by
  simp [evMmaE4e4, h]

@[simp] theorem answerOk_execMmaE4e4 {s : State} (h : s.MemOk) (core badRuns) : AnswerOk (execMmaE4e4 core badRuns s) := by
  simp [execMmaE4e4, h]

@[simp] theorem eventOk_evMmaE4e5 {s : State} (h : s.MemOk) (core badRuns) : EventOk (evMmaE4e5 core badRuns s) := by
  simp [evMmaE4e5, h]

@[simp] theorem answerOk_execMmaE4e5 {s : State} (h : s.MemOk) (core badRuns) : AnswerOk (execMmaE4e5 core badRuns s) := by
  simp [execMmaE4e5, h]

@[simp] theorem eventOk_evMmaE5e4 {s : State} (h : s.MemOk) (core badRuns) : EventOk (evMmaE5e4 core badRuns s) := by
  simp [evMmaE5e4, h]

@[simp] theorem answerOk_execMmaE5e4 {s : State} (h : s.MemOk) (core badRuns) : AnswerOk (execMmaE5e4 core badRuns s) := by
  simp [execMmaE5e4, h]

@[simp] theorem eventOk_evMmaE5e5 {s : State} (h : s.MemOk) (core badRuns) : EventOk (evMmaE5e5 core badRuns s) := by
  simp [evMmaE5e5, h]

@[simp] theorem answerOk_execMmaE5e5 {s : State} (h : s.MemOk) (core badRuns) : AnswerOk (execMmaE5e5 core badRuns s) := by
  simp [execMmaE5e5, h]

@[simp] theorem eventOk_evMmaC4c4 {s : State} (h : s.MemOk) (core badRuns) : EventOk (evMmaC4c4 core badRuns s) := by
  simp [evMmaC4c4, h]

@[simp] theorem answerOk_execMmaC4c4 {s : State} (h : s.MemOk) (core badRuns) : AnswerOk (execMmaC4c4 core badRuns s) := by
  simp [execMmaC4c4, h]

@[simp] theorem eventOk_evMmaC4e4 {s : State} (h : s.MemOk) (core badRuns) : EventOk (evMmaC4e4 core badRuns s) := by
  simp [evMmaC4e4, h]

@[simp] theorem answerOk_execMmaC4e4 {s : State} (h : s.MemOk) (core badRuns) : AnswerOk (execMmaC4e4 core badRuns s) := by
  simp [execMmaC4e4, h]

@[simp] theorem eventOk_evMmaE4c4 {s : State} (h : s.MemOk) (core badRuns) : EventOk (evMmaE4c4 core badRuns s) := by
  simp [evMmaE4c4, h]

@[simp] theorem answerOk_execMmaE4c4 {s : State} (h : s.MemOk) (core badRuns) : AnswerOk (execMmaE4c4 core badRuns s) := by
  simp [execMmaE4c4, h]

@[simp] theorem eventOk_evMmaS8s8 {s : State} (h : s.MemOk) (core badRuns) : EventOk (evMmaS8s8 core badRuns s) := by
  simp [evMmaS8s8, h]

@[simp] theorem answerOk_execMmaS8s8 {s : State} (h : s.MemOk) (core badRuns) : AnswerOk (execMmaS8s8 core badRuns s) := by
  simp [execMmaS8s8, h]

@[simp] theorem eventOk_evMmaN8s8 {s : State} (h : s.MemOk) (core badRuns) : EventOk (evMmaN8s8 core badRuns s) := by
  simp [evMmaN8s8, h]

@[simp] theorem answerOk_execMmaN8s8 {s : State} (h : s.MemOk) (core badRuns) : AnswerOk (execMmaN8s8 core badRuns s) := by
  simp [execMmaN8s8, h]

/-! ## Control registers -/

@[simp] theorem State.answerOk_badCreg {s : State} (h : s.MemOk) (r) : AnswerOk (s.badCreg r) := by
  unfold State.badCreg
  split <;> simp [h]

@[simp] theorem answerOk_execMfcr {s : State} (h : s.MemOk) (d r) : AnswerOk (execMfcr d r s) := by
  unfold execMfcr
  split <;> simp (maxDischargeDepth := 9) [h]

@[simp] theorem answerOk_execMtcr {s : State} (h : s.MemOk) (a r) : AnswerOk (execMtcr a r s) := by
  unfold execMtcr
  split <;> simp [h]

@[simp] theorem answerOk_execStatusWrite {s : State} (h : s.MemOk) (a) : AnswerOk (execStatusWrite a s) := by
  simp [execStatusWrite, h]

@[simp] theorem answerOk_execFpctlWrite {s : State} (h : s.MemOk) (a) : AnswerOk (execFpctlWrite a s) := by
  unfold execFpctlWrite
  refine State.answerOk_withX h _ fun _ => ?_
  dsimp only
  repeat' split
  all_goals simp [h]

@[simp] theorem answerOk_execEperrWrite {s : State} (h : s.MemOk) (a) : AnswerOk (execEperrWrite a s) := by
  simp [execEperrWrite, h]

@[simp] theorem answerOk_execVlenWrite {s : State} (h : s.MemOk) (a) : AnswerOk (execVlenWrite a s) := by
  unfold execVlenWrite
  refine State.answerOk_withX h _ fun _ => ?_
  dsimp only
  repeat' split
  all_goals simp [h]

@[simp] theorem answerOk_execHmaskWrite {s : State} (h : s.MemOk) (a) : AnswerOk (execHmaskWrite a s) := by
  simp (maxDischargeDepth := 9) [execHmaskWrite, h]

@[simp] theorem State.answerOk_afterExpiry {s : State} (h : s.MemOk) {k : State → Answer} (hk : ∀ t, t.MemOk → AnswerOk (k t)) :
    AnswerOk (s.afterExpiry k) := by
  have ht : (s.onMe fun n => n.expireTimer s.cur s.th.slot (s.now s.cur)).MemOk := by simp (maxDischargeDepth := 9) [h]
  unfold State.afterExpiry; dsimp only; repeat' split
  · exact hk _ ht
  · exact ht
  · exact hk _ h

@[simp] theorem answerOk_execTimerWrite {s : State} (h : s.MemOk) (a) : AnswerOk (execTimerWrite a s) := by
  simp (maxDischargeDepth := 9) +contextual [execTimerWrite, h]

@[simp] theorem answerOk_execTmset {s : State} (h : s.MemOk) (a) : AnswerOk (execTmset a s) := by
  simp (maxDischargeDepth := 9) +contextual [execTmset, h]

@[simp] theorem answerOk_execTmcan {s : State} (h : s.MemOk) (d) : AnswerOk (execTmcan d s) := by
  simp (maxDischargeDepth := 9) +contextual [execTmcan, h]

@[simp] theorem answerOk_execBreakTrap {s : State} (h : s.MemOk) (i) : AnswerOk (execBreakTrap i s) := by simp [execBreakTrap, h]
@[simp] theorem answerOk_execMtm {s : State} (h : s.MemOk) (d a) : AnswerOk (execMtm d a s) := by simp [execMtm, h]
@[simp] theorem answerOk_execMfm {s : State} (h : s.MemOk) (d a) : AnswerOk (execMfm d a s) := by simp [execMfm, h]
@[simp] theorem answerOk_execMfs {s : State} (h : s.MemOk) (d a) : AnswerOk (execMfs d a s) := by simp [execMfs, h]
@[simp] theorem answerOk_execVtml {s : State} (h : s.MemOk) (a) : AnswerOk (execVtml a s) := by simp [execVtml, h]
@[simp] theorem answerOk_execVtmlIn {s : State} (h : s.MemOk) (d) : AnswerOk (execVtmlIn d s) := by simp [execVtmlIn, h]
@[simp] theorem answerOk_execVtmh {s : State} (h : s.MemOk) (a) : AnswerOk (execVtmh a s) := by simp [execVtmh, h]
@[simp] theorem answerOk_execVtmhIn {s : State} (h : s.MemOk) (d) : AnswerOk (execVtmhIn d s) := by simp [execVtmhIn, h]
@[simp] theorem answerOk_execWix {s : State} (h : s.MemOk) (d a k) : AnswerOk (execWix d a k s) := by simp [execWix, h]
@[simp] theorem answerOk_execWixG {s : State} (h : s.MemOk) (d a l) : AnswerOk (execWixG d a l s) := by simp [execWixG, h]

/-! ## Owners -/

@[simp] theorem State.memOk_onHome {s : State} (h : s.MemOk) (o page f) : (s.onHome o page f).MemOk := h
@[simp] theorem State.memOk_markMoved {s : State} (h : s.MemOk) (o page newOwner) : (s.markMoved o page newOwner).MemOk := h

@[simp] theorem State.eventOk_bindKey {s : State} (h : s.MemOk) (o dom) : EventOk (s.bindKey o dom) := by
  simp (maxDischargeDepth := 9) [State.bindKey, h]

theorem State.memOk_of_openTicket {s : State} (h : s.MemOk) {o page code eng r} (ht : s.openTicket o page code eng = some r) :
    r.2.MemOk := by
  unfold State.openTicket at ht
  dsimp only at ht
  split at ht
  · cases ht; simp [h]
  · split at ht
    · cases ht
    · cases ht
      dsimp only
      split <;> simp (maxDischargeDepth := 9) [h]

@[simp] theorem State.memOk_endService {s : State} (h : s.MemOk) (o page holder status) : (s.endService o page holder status).MemOk := by
  unfold State.endService
  split <;> simp [h]

@[simp] theorem State.memOk_applyAtChannel {s : State} (h : s.MemOk) (o core dom a) : (s.applyAtChannel o core dom a).MemOk := by
  unfold State.applyAtChannel
  split
  · dsimp only
    split <;> simp (maxDischargeDepth := 9) [h]
  · refine State.memOk_answer (State.memOk_countOwner (State.memOk_with h ?_) ..) ..
    exact List.foldlRecOn (motive := fun m : Memory => m.wf = true) _ _ h.1 fun m hm p _ => by
      split
      · exact Memory.wf_write hm _ _
      · exact hm
  · exact h

@[simp] theorem State.memOk_answerTicket {s : State} (h : s.MemOk) (o core a code) : (s.answerTicket o core a code).MemOk := by
  unfold State.answerTicket
  split
  · exact State.memOk_answer (s.memOk_of_openTicket h ‹_›) ..
  · simp (maxDischargeDepth := 9) [h]

@[simp] theorem State.memOk_perform {s : State} (h : s.MemOk) (o core a) : (s.perform o core a).MemOk := by
  simp (maxDischargeDepth := 9) [State.perform, h]

@[simp] theorem State.memOk_ownerAnswers {s : State} (h : s.MemOk) (o core a) : (s.ownerAnswers o core a).MemOk := by
  unfold State.ownerAnswers
  repeat' split
  all_goals simp [h]

@[simp] theorem State.memOk_recordTag {s : State} (h : s.MemOk) (bank core now a) : (s.recordTag bank core now a).MemOk := by
  unfold State.recordTag
  repeat' split
  all_goals simp [h]

@[simp] theorem State.memOk_arriveAtOwner {s : State} (h : s.MemOk) (core a) : (s.arriveAtOwner core a).MemOk := by
  unfold State.arriveAtOwner
  dsimp only
  repeat' split
  all_goals simp [h]

@[simp] theorem State.memOk_sendReleased {s : State} (h : s.MemOk) (core id) : (s.sendReleased core id).MemOk := by
  unfold State.sendReleased
  split <;> simp (maxDischargeDepth := 9) [h]

@[simp] theorem eventOk_evAccessAtOwner {s0 : State} (h0 : s0.MemOk) (core id) : EventOk (evAccessAtOwner core id s0) := by
  have hs := State.memOk_sendReleased h0 core id
  unfold evAccessAtOwner
  dsimp only
  repeat' split
  all_goals simp (maxDischargeDepth := 9) [hs]

@[simp] theorem answerOk_execAccessAtOwner {s : State} (h : s.MemOk) (core id) : AnswerOk (execAccessAtOwner core id s) := by
  simp [execAccessAtOwner, h]

@[simp] theorem eventOk_evAccessBusyResend {s : State} (h : s.MemOk) (core id) : EventOk (evAccessBusyResend core id s) := by
  unfold evAccessBusyResend
  split <;> simp [h]

@[simp] theorem answerOk_execAccessBusyResend {s : State} (h : s.MemOk) (core id) : AnswerOk (execAccessBusyResend core id s) := by
  simp [execAccessBusyResend, h]

@[simp] theorem eventOk_evAccessRetry {s : State} (h : s.MemOk) (core id) : EventOk (evAccessRetry core id s) := by
  unfold evAccessRetry
  split <;> simp [h]

@[simp] theorem answerOk_execAccessRetry {s : State} (h : s.MemOk) (core id) : AnswerOk (execAccessRetry core id s) := by
  simp [execAccessRetry, h]

@[simp] theorem eventOk_evAccessIndeterminate {s : State} (h : s.MemOk) (core id) : EventOk (evAccessIndeterminate core id s) := by
  unfold evAccessIndeterminate
  repeat' split
  all_goals simp (maxDischargeDepth := 9) [h]

@[simp] theorem answerOk_execAccessIndeterminate {s : State} (h : s.MemOk) (core id) : AnswerOk (execAccessIndeterminate core id s) := by
  simp [execAccessIndeterminate, h]

@[simp] theorem eventOk_evAccessAnswer {s : State} (h : s.MemOk) (core id) : EventOk (evAccessAnswer core id s) := by
  unfold evAccessAnswer
  split <;> simp (maxDischargeDepth := 9) [h]

@[simp] theorem answerOk_execAccessAnswer {s : State} (h : s.MemOk) (core id) : AnswerOk (execAccessAnswer core id s) := by
  simp [execAccessAnswer, h]

@[simp] theorem State.memOk_replayTo {s : State} (h : s.MemOk) (core a owner replay) : (s.replayTo core a owner replay).MemOk := by
  unfold State.replayTo
  dsimp only
  split <;> simp (maxDischargeDepth := 9) [h]

@[simp] theorem State.memOk_sendHeld {s : State} (h : s.MemOk) (core slot page) : (s.sendHeld core slot page).MemOk := by
  simp (maxDischargeDepth := 9) +contextual [State.sendHeld, h]

@[simp] theorem eventOk_evFaultTicket {s : State} (h : s.MemOk) (core id) : EventOk (evFaultTicket core id s) := by
  unfold evFaultTicket
  repeat' split
  all_goals simp (maxDischargeDepth := 9) [h]

@[simp] theorem answerOk_execFaultTicket {s : State} (h : s.MemOk) (core id) : AnswerOk (execFaultTicket core id s) := by
  simp [execFaultTicket, h]

@[simp] theorem eventOk_evReplayAnswer {s : State} (h : s.MemOk) (core id) : EventOk (evReplayAnswer core id s) := by
  unfold evReplayAnswer
  split <;> simp (maxDischargeDepth := 9) [h]

@[simp] theorem answerOk_execReplayAnswer {s : State} (h : s.MemOk) (core id) : AnswerOk (execReplayAnswer core id s) := by
  simp [execReplayAnswer, h]

@[simp] theorem eventOk_evTicketTimeout {s : State} (h : s.MemOk) (core id) : EventOk (evTicketTimeout core id s) := by
  unfold evTicketTimeout
  split <;> simp (maxDischargeDepth := 9) [h]

@[simp] theorem answerOk_execTicketTimeout {s : State} (h : s.MemOk) (core id) : AnswerOk (execTicketTimeout core id s) := by
  simp [execTicketTimeout, h]

@[simp] theorem State.memOk_noticeAtCore {s : State} (h : s.MemOk) (core o tkt holder status) :
    (s.noticeAtCore core o tkt holder status).MemOk := by
  simp (maxDischargeDepth := 9) +contextual [State.noticeAtCore, h]

@[simp] theorem State.memOk_noticeAtEngine {s : State} (h : s.MemOk) (e o tkt page status) :
    (s.noticeAtEngine e o tkt page status).MemOk := by
  simp (maxDischargeDepth := 9) +contextual [State.noticeAtEngine, h]

@[simp] theorem eventOk_evReplayNotice {s : State} (h : s.MemOk) (n) : EventOk (evReplayNotice n s) := by
  unfold evReplayNotice
  repeat' split
  all_goals simp (maxDischargeDepth := 9) +contextual [h]

@[simp] theorem answerOk_execReplayNotice {s : State} (h : s.MemOk) (n) : AnswerOk (execReplayNotice n s) := by
  simp [execReplayNotice, h]

@[simp] theorem State.memOk_mapFresh {s : State} (h : s.MemOk) (o page frame keyslot f) : (s.mapFresh o page frame keyslot f).MemOk := by
  simp (maxDischargeDepth := 9) [State.mapFresh, h]

@[simp] theorem State.memOk_addReplica {s : State} (h : s.MemOk) (o page dom) : (s.addReplica o page dom).MemOk := by
  unfold State.addReplica
  split
  · split
    · exact State.memOk_onOwner (s.eventOk_bindKey h o dom _ ‹_›) _ _
    · exact h
  · exact h

@[simp] theorem eventOk_evFirstMapping {s0 : State} (h0 : s0.MemOk) (owner page) : EventOk (evFirstMapping owner page s0) := by
  unfold evFirstMapping
  split
  · split
    · simp (maxDischargeDepth := 9) [h0]
    split
    · exact eventOk_none
    · refine EventOk.map fun t ht => ?_
      have ht := State.eventOk_bindKey h0 _ _ t ht
      refine State.memOk_endService (State.memOk_ite (fun _ => State.memOk_foldl ?_ _ fun u q hu => ?_) fun _ => ?_) ..
      · split <;> simp (maxDischargeDepth := 9) [ht]
      · split <;> simp [hu]
      · split <;> simp (maxDischargeDepth := 9) [ht]
  · exact eventOk_none

@[simp] theorem answerOk_execFirstMapping {s : State} (h : s.MemOk) (owner page) : AnswerOk (execFirstMapping owner page s) := by
  simp [execFirstMapping, h]

/-! ## The copy engines -/

@[simp] theorem Core.pushCopy_mem (k : Core) (t name w) : (k.pushCopy t name w).mem = k.mem := by simp [Core.pushCopy]

@[simp] theorem answerOk_execCopy {s : State} (h : s.MemOk) (a) : AnswerOk (execCopy a s) := by
  unfold execCopy
  split <;> simp (maxDischargeDepth := 9) [h]

@[simp] theorem answerOk_execCopyNb {s : State} (h : s.MemOk) (d a) : AnswerOk (execCopyNb d a s) := by
  unfold execCopyNb
  repeat' split
  all_goals simp (maxDischargeDepth := 9) [h]

@[simp] theorem answerOk_execCqpop {s : State} (h : s.MemOk) (d) : AnswerOk (execCqpop d s) := by
  unfold execCqpop
  dsimp only
  split <;> simp (maxDischargeDepth := 9) [h]

@[simp] theorem State.memOk_setBinding {s : State} (h : s.MemOk) (e j v) : (s.setBinding e j v).MemOk := by
  unfold State.setBinding
  dsimp only
  split
  · simp [h]
  · refine State.memOk_onCore h ?_
    split <;> simp (maxDischargeDepth := 9) [h]

@[simp] theorem State.memOk_onJob {s : State} (h : s.MemOk) (e id f) : (s.onJob e id f).MemOk := h

@[simp] theorem State.memOk_beginCopy {s : State} (h : s.MemOk) (e j) : (s.beginCopy e j).MemOk := by
  unfold State.beginCopy
  dsimp only
  repeat' split
  all_goals simp [h]

@[simp] theorem eventOk_evCopyStart {s : State} (h : s.MemOk) (eng) : EventOk (evCopyStart eng s) := by
  unfold evCopyStart
  dsimp only
  split
  · exact eventOk_none
  split
  · exact eventOk_none
  · refine EventOk.map fun r _ => ?_
    repeat' split
    all_goals simp (maxDischargeDepth := 9) [h]

@[simp] theorem answerOk_execCopyStart {s : State} (h : s.MemOk) (eng) : AnswerOk (execCopyStart eng s) := by
  simp [execCopyStart, h]

@[simp] theorem State.memOk_engineRefill {s : State} (h : s.MemOk) (e core dom ga) : (s.engineRefill e core dom ga).2.MemOk := by
  unfold State.engineRefill; dsimp only; split <;> simp (maxDischargeDepth := 9) [h]

@[simp] theorem State.memOk_enginePlb {s : State} (h : s.MemOk) (e core dom ga) : (s.enginePlb e core dom ga).2.MemOk := by
  unfold State.enginePlb; split <;> simp (maxDischargeDepth := 9) [h]

@[simp] theorem State.memOk_putBurst {s : State} (h : s.MemOk) (e id b) : (s.putBurst e id b).MemOk := h
@[simp] theorem State.memOk_dropBurst {s : State} (h : s.MemOk) (e id i) : (s.dropBurst e id i).MemOk := h
@[simp] theorem State.memOk_burstBusy {s : State} (h : s.MemOk) (e j b o) : (s.burstBusy e j b o).MemOk := h

@[simp] theorem State.eventOk_burstTicket {s : State} (h : s.MemOk) (e j b o code) : EventOk (s.burstTicket e j b o code) := by
  unfold State.burstTicket
  split
  · split <;> simp [h]
  · split
    · simp [h]
    · have := s.memOk_of_openTicket h ‹_›
      simp (maxDischargeDepth := 9) [this]

@[simp] theorem State.memOk_burstWrite {s : State} (h : s.MemOk) (o ga bs) : (s.burstWrite o ga bs).MemOk := by
  unfold State.burstWrite
  split <;> simp (maxDischargeDepth := 9) +contextual [h]

@[simp] theorem State.memOk_countBurst {s : State} (h : s.MemOk) (o j b n) : (s.countBurst o j b n).MemOk := by
  unfold State.countBurst
  split <;> simp (maxDischargeDepth := 9) [h]

@[simp] theorem State.memOk_burstPerform {s : State} (h : s.MemOk) (o j b n) : (s.burstPerform o j b n).2.2.MemOk := by
  unfold State.burstPerform; split <;> simp (maxDischargeDepth := 9) [h]

@[simp] theorem State.memOk_burstAbroad {s : State} (h : s.MemOk) (e j b o) : (s.burstAbroad e j b o).MemOk := h
@[simp] theorem State.memOk_burstDone {s : State} (h : s.MemOk) (e j i n total) : (s.burstDone e j i n total).MemOk := h

theorem State.eventOk_copyRun {s : State} (e id which) {f : State → Job → Option State} (hf : ∀ j, EventOk (f s j)) :
    EventOk (s.copyRun e id which f) := by
  unfold State.copyRun; repeat' split
  all_goals simp (maxDischargeDepth := 9) [hf]

/-- The state that a check of a burst leads to. -/
def Granted.state : Granted → State
  | .go _ s | .fail _ s => s

/-- The state that running a burst leads to. -/
def Ran.state : Ran → State
  | .wait s | .fail _ s | .done s _ _ => s

/-- A run of a burst, where there is one, keeps every memory in canonical form. -/
def RunOk (o : Option Ran) : Prop := ∀ g ∈ o, g.state.MemOk

@[simp] theorem runOk_none : RunOk none := fun _ h => nomatch h
@[simp] theorem runOk_some {g : Ran} : RunOk (some g) ↔ g.state.MemOk := by simp [RunOk]
@[simp] theorem Ran.state_wait (s : State) : (Ran.wait s).state = s := rfl
@[simp] theorem Ran.state_fail (n) (s : State) : (Ran.fail n s).state = s := rfl
@[simp] theorem Ran.state_done (s : State) (l b) : (Ran.done s l b).state = s := rfl

@[simp] theorem runOk_map_wait {o : Option State} (h : EventOk o) : RunOk (o.map Ran.wait) := by
  cases o with
  | none => exact runOk_none
  | some t => exact runOk_some.2 (h t rfl)

@[simp] theorem State.memOk_burstHere {s : State} (h : s.MemOk) (e j b o n) : (s.burstHere e j b o n).state.MemOk := by
  unfold State.burstHere
  dsimp only
  (repeat' split) <;> simp (maxDischargeDepth := 9) [h]

theorem State.runOk_burstAt (n) {s : State} (h : s.MemOk) (e j b bytes o) : RunOk (s.burstAt e j b bytes n o) := by
  induction n generalizing s b o with
  | zero => exact runOk_none
  | succ n ih =>
    have hticket : ∀ code, RunOk (if gaClass b.ga = 2 then none else (s.burstTicket e j b o code).map Ran.wait) := fun code => by
      split <;> simp [h]
    have hdie : (s.onCore j.core fun k => k.die j.slot rFrameLost 0 (lostDetail b.ga)).MemOk := by simp [h]
    unfold State.burstAt
    dsimp only
    split
    · exact runOk_some.2 hdie
    split
    · exact runOk_none
    split
    · exact runOk_some.2 h
    · split
      · exact runOk_none
      · have hr := s.memOk_engineRefill h e j.core (s.actor j.core j.slot).domain b.ga
        split
        all_goals rename_i hx; rw [hx] at hr
        · exact runOk_some.2 hr
        · have h2 := State.memOk_countEngine hr e 0x42 (some (s.actor j.core j.slot).domain) 1
          split
          · exact runOk_some.2 h2
          split
          · exact ih h2 _ _
          · exact runOk_some.2 (State.memOk_burstAbroad h2 ..)
    · have hhere := runOk_some.2 (s.memOk_burstHere h e j b o bytes)
      split
      · exact hhere
      · split
        · exact hticket _
        · exact hhere
      · split
        · exact hticket _
        · exact hhere
      · exact hticket _
      · exact hticket _
      · exact hticket _
      · exact runOk_some.2 hdie
      · exact runOk_none

@[simp] theorem State.memOk_burstGo {s : State} (h : s.MemOk) (e j ga write) : (s.burstGo e j ga write).state.MemOk := by
  have hr := s.memOk_enginePlb h e j.core (s.actor j.core j.slot).domain ga
  unfold State.burstGo
  dsimp only
  repeat' split
  all_goals simp only [Granted.state, h, hr]

theorem State.runOk_burstSend {s : State} (h : s.MemOk) (e j b n) : RunOk (s.burstSend e j b n) := by
  have hg := s.memOk_burstGo h e j b.ga b.write
  unfold State.burstSend
  split
  · exact runOk_none
  · split
    all_goals rename_i hx; rw [hx] at hg; simp only [Granted.state] at hg
    · exact runOk_some.2 hg
    · exact runOk_some.2 (by simp [hg])
    · split
      · exact State.runOk_burstAt _ hg _ _ _ _ _
      · split
        · exact runOk_some.2 (by simp [hg])
        · exact runOk_some.2 (State.memOk_burstAbroad hg ..)

theorem State.runOk_burstRun {s : State} (h : s.MemOk) (e j p i write data bad) : RunOk (s.burstRun e j p i write data bad) := by
  have hsend := fun b => s.runOk_burstSend h e j b p.n
  have hat := fun b o => State.runOk_burstAt 16 h e j b p.n o
  have hhost := fun b => s.memOk_burstPerform h none j b p.n
  unfold State.burstRun
  dsimp only
  repeat' split
  all_goals simp [h, hsend, hat, hhost]

/-- What an engine makes of a run of a burst. -/
theorem eventOk_map_ran {o : Option Ran} (ho : RunOk o) {f : Ran → State} (hf : ∀ g, g.state.MemOk → (f g).MemOk) : EventOk (o.map f) := by
  cases o with
  | none => exact eventOk_none
  | some g => exact eventOk_some.2 (hf g (ho g rfl))

@[simp] theorem State.eventOk_burstIn {s : State} (h : s.MemOk) (e j p i total core r) : EventOk (s.burstIn e j p i total core r) := by
  unfold State.burstIn
  split
  · exact eventOk_none
  · refine eventOk_map_ran (s.runOk_burstRun h _ _ _ _ _ _ _) fun g hg => ?_
    cases g <;> simp only [Ran.state] at hg
    · exact hg
    · simp [hg]
    · dsimp only
      split <;> simp (maxDischargeDepth := 9) [hg]

@[simp] theorem State.eventOk_burstOut {s : State} (h : s.MemOk) (e j p i total bs bad) : EventOk (s.burstOut e j p i total bs bad) := by
  refine eventOk_map_ran (s.runOk_burstRun h _ _ _ _ _ _ _) fun g hg => ?_
  cases g <;> simp only [Ran.state] at hg
  · exact hg
  · simp [hg]
  · dsimp only
    split <;> simp (maxDischargeDepth := 9) [hg]

@[simp] theorem State.eventOk_copyIn {s : State} (h : s.MemOk) (j e) : EventOk (s.copyIn j e) := by simp [State.copyIn, h]
@[simp] theorem State.eventOk_copyOut {s : State} (h : s.MemOk) (j e) : EventOk (s.copyOut j e) := by simp [State.copyOut, h]

@[simp] theorem eventOk_evCopyDramToRegion {s : State} (h : s.MemOk) (eng id) : EventOk (evCopyDramToRegion eng id s) :=
  State.eventOk_copyRun _ _ _ fun j => s.eventOk_copyIn h j eng

@[simp] theorem answerOk_execCopyDramToRegion {s : State} (h : s.MemOk) (eng id) : AnswerOk (execCopyDramToRegion eng id s) := by
  simp [execCopyDramToRegion, h]

@[simp] theorem eventOk_evCopyRegionToDram {s : State} (h : s.MemOk) (eng id) : EventOk (evCopyRegionToDram eng id s) :=
  State.eventOk_copyRun _ _ _ fun j => s.eventOk_copyOut h j eng

@[simp] theorem answerOk_execCopyRegionToDram {s : State} (h : s.MemOk) (eng id) : AnswerOk (execCopyRegionToDram eng id s) := by
  simp [execCopyRegionToDram, h]

@[simp] theorem eventOk_evCommonsBulkRead {s : State} (h : s.MemOk) (eng id) : EventOk (evCommonsBulkRead eng id s) :=
  State.eventOk_copyRun _ _ _ fun j => s.eventOk_copyIn h j eng

@[simp] theorem answerOk_execCommonsBulkRead {s : State} (h : s.MemOk) (eng id) : AnswerOk (execCommonsBulkRead eng id s) := by
  simp [execCommonsBulkRead, h]

@[simp] theorem eventOk_evCommonsBulkWrite {s : State} (h : s.MemOk) (eng id) : EventOk (evCommonsBulkWrite eng id s) :=
  State.eventOk_copyRun _ _ _ fun j => s.eventOk_copyOut h j eng

@[simp] theorem answerOk_execCommonsBulkWrite {s : State} (h : s.MemOk) (eng id) : AnswerOk (execCommonsBulkWrite eng id s) := by
  simp [execCommonsBulkWrite, h]

@[simp] theorem eventOk_evGather {s : State} (h : s.MemOk) (eng id) : EventOk (evGather eng id s) :=
  State.eventOk_copyRun _ _ _ fun j => s.eventOk_copyIn h j eng

@[simp] theorem answerOk_execGather {s : State} (h : s.MemOk) (eng id) : AnswerOk (execGather eng id s) := by simp [execGather, h]

@[simp] theorem eventOk_evRingFeed {s : State} (h : s.MemOk) (eng id) : EventOk (evRingFeed eng id s) :=
  State.eventOk_copyRun _ _ _ fun _ => EventOk.bind fun _ _ => State.eventOk_burstIn h _ _ _ _ _ _ _

@[simp] theorem answerOk_execRingFeed {s : State} (h : s.MemOk) (eng id) : AnswerOk (execRingFeed eng id s) := by
  simp [execRingFeed, h]

@[simp] theorem eventOk_evFillRegion {s : State} (h : s.MemOk) (eng id) : EventOk (evFillRegion eng id s) :=
  State.eventOk_copyRun _ _ _ fun j => EventOk.bind fun _ _ => by
    dsimp only
    split <;> simp (maxDischargeDepth := 9) [h]

@[simp] theorem answerOk_execFillRegion {s : State} (h : s.MemOk) (eng id) : AnswerOk (execFillRegion eng id s) := by
  simp [execFillRegion, h]

@[simp] theorem eventOk_evFillGlobal {s : State} (h : s.MemOk) (eng id) : EventOk (evFillGlobal eng id s) :=
  State.eventOk_copyRun _ _ _ fun _ => EventOk.bind fun _ _ => State.eventOk_burstOut h _ _ _ _ _ _ _

@[simp] theorem answerOk_execFillGlobal {s : State} (h : s.MemOk) (eng id) : AnswerOk (execFillGlobal eng id s) := by
  simp [execFillGlobal, h]

@[simp] theorem eventOk_evSlabScatter {s : State} (h : s.MemOk) (eng id) : EventOk (evSlabScatter eng id s) := by
  refine State.eventOk_copyRun _ _ _ fun j => EventOk.bind fun q _ => ?_
  have hrefuse : ∀ f n, (match ((s.onJob eng id f).engine eng).active.find? (fun x : Job => x.id == id) with
      | some j1 => (s.onJob eng id f).burstDone eng j1 q.2 0 n
      | none => s.onJob eng id f).MemOk := by
    intro f n
    split <;> simp [h]
  split
  extract_lets wl name refuse
  split
  · exact eventOk_some.2 (hrefuse _ _)
  split
  · split
    · split
      · exact eventOk_some.2 (by simp [h])
      · exact State.eventOk_burstIn h _ _ _ _ _ _ _
    · exact eventOk_some.2 (hrefuse _ _)
  · split
    · exact eventOk_some.2 (hrefuse _ _)
    · exact eventOk_none
  all_goals exact eventOk_some.2 (hrefuse _ _)

@[simp] theorem answerOk_execSlabScatter {s : State} (h : s.MemOk) (eng id) : AnswerOk (execSlabScatter eng id s) := by
  simp [execSlabScatter, h]

@[simp] theorem State.memOk_streamDone {s : State} (h : s.MemOk) (e j) : (s.streamDone e j).MemOk := h

@[simp] theorem State.eventOk_streamIn {s : State} (h : s.MemOk) (e j v) : EventOk (s.streamIn e j v) := by
  unfold State.streamIn
  dsimp only
  split
  · simp [h]
  split
  · exact eventOk_none
  · refine eventOk_map_ran (s.runOk_burstRun h _ _ _ _ _ _ _) fun g hg => ?_
    cases g <;> simp only [Ran.state] at hg
    · exact hg
    · simp [hg]
    · dsimp only
      split <;> simp (maxDischargeDepth := 9) [hg]

@[simp] theorem State.eventOk_streamOut {s : State} (h : s.MemOk) (e j v) : EventOk (s.streamOut e j v) := by
  unfold State.streamOut
  dsimp only
  split
  · split <;> simp [h]
  · refine eventOk_map_ran (s.runOk_burstRun h _ _ _ _ _ _ _) fun g hg => ?_
    cases g <;> simp only [Ran.state] at hg
    · exact hg
    · simp [hg]
    · dsimp only
      split <;> simp (maxDischargeDepth := 9) [hg]

@[simp] theorem eventOk_evStreamRequest {s : State} (h : s.MemOk) (eng id) : EventOk (evStreamRequest eng id s) :=
  State.eventOk_copyRun _ _ _ fun j => by
    repeat' split
    all_goals simp (maxDischargeDepth := 9) [h]

@[simp] theorem answerOk_execStreamRequest {s : State} (h : s.MemOk) (eng id) : AnswerOk (execStreamRequest eng id s) := by
  simp [execStreamRequest, h]

@[simp] theorem eventOk_evRingFeedPublish {s : State} (h : s.MemOk) (eng id) : EventOk (evRingFeedPublish eng id s) := by
  unfold evRingFeedPublish
  split <;> simp (maxDischargeDepth := 9) [h]

@[simp] theorem answerOk_execRingFeedPublish {s : State} (h : s.MemOk) (eng id) : AnswerOk (execRingFeedPublish eng id s) := by
  simp [execRingFeedPublish, h]

@[simp] theorem eventOk_evCopyCompletion {s : State} (h : s.MemOk) (eng id) : EventOk (evCopyCompletion eng id s) := by
  unfold evCopyCompletion
  repeat' split
  all_goals simp (maxDischargeDepth := 9) [h]

@[simp] theorem answerOk_execCopyCompletion {s : State} (h : s.MemOk) (eng id) : AnswerOk (execCopyCompletion eng id s) := by
  simp [execCopyCompletion, h]

@[simp] theorem eventOk_evCopyHostTimeout {s : State} (h : s.MemOk) (eng id) : EventOk (evCopyHostTimeout eng id s) :=
  State.eventOk_copyRun _ _ _ fun j => EventOk.map fun b _ => by simp [h]

@[simp] theorem answerOk_execCopyHostTimeout {s : State} (h : s.MemOk) (eng id) : AnswerOk (execCopyHostTimeout eng id s) := by
  simp [execCopyHostTimeout, h]

@[simp] theorem eventOk_evCopyTicketTimeout {s : State} (h : s.MemOk) (eng id) : EventOk (evCopyTicketTimeout eng id s) :=
  State.eventOk_copyRun _ _ _ fun j => EventOk.map fun b _ => by simp [h]

@[simp] theorem answerOk_execCopyTicketTimeout {s : State} (h : s.MemOk) (eng id) : AnswerOk (execCopyTicketTimeout eng id s) := by
  simp [execCopyTicketTimeout, h]

end Sys2Proof.Machine
end

section
/-! SUPPORT. The canonical form of every memory: firings, arrivals, deaths and spawns keep it. -/

namespace Sys2Proof.Machine

/-! ## Firings -/

@[simp] theorem Core.startFiring_mem (k : Core) (i p fid) : (k.startFiring i p fid).mem = k.mem := by simp [Core.startFiring]

@[simp] theorem Core.freshlyFree_mem (k q : Core) (now) : (k.freshlyFree q now).mem = k.mem :=
  Core.foldl_mem k _ fun q p => by split <;> rfl

@[simp] theorem Core.stopCovered_mem (k : Core) : (k.stopCovered).mem = k.mem := by simp [Core.stopCovered]

@[simp] theorem eventOk_evFiringStart {s : State} (h : s.MemOk) (core) : EventOk (evFiringStart core s) := by
  unfold evFiringStart
  dsimp only
  repeat' split
  all_goals simp (maxDischargeDepth := 9) [h]

@[simp] theorem answerOk_execFiringStart {s : State} (h : s.MemOk) (core) : AnswerOk (execFiringStart core s) := by
  simp [execFiringStart, h]

@[simp] theorem eventOk_evPriorityAgeing {s : State} (h : s.MemOk) (core slot) : EventOk (evPriorityAgeing core slot s) := by
  simp [evPriorityAgeing, h]

@[simp] theorem answerOk_execPriorityAgeing {s : State} (h : s.MemOk) (core slot) : AnswerOk (execPriorityAgeing core slot s) := by
  simp [execPriorityAgeing, h]

@[simp] theorem eventOk_evWatchdogExpiry {s : State} (h : s.MemOk) (core ts) : EventOk (evWatchdogExpiry core ts s) := by
  simp (maxDischargeDepth := 9) [evWatchdogExpiry, h]

@[simp] theorem answerOk_execWatchdogExpiry {s : State} (h : s.MemOk) (core ts) : AnswerOk (execWatchdogExpiry core ts s) := by
  simp [execWatchdogExpiry, h]

@[simp] theorem eventOk_evTimerExpiry {s : State} (h : s.MemOk) (core slot) : EventOk (evTimerExpiry core slot s) := by
  simp (maxDischargeDepth := 9) [evTimerExpiry, h]

@[simp] theorem answerOk_execTimerExpiry {s : State} (h : s.MemOk) (core slot) : AnswerOk (execTimerExpiry core slot s) := by
  simp [execTimerExpiry, h]

@[simp] theorem eventOk_evGateOpen {s : State} (h : s.MemOk) (core slot) : EventOk (evGateOpen core slot s) := by
  simp (maxDischargeDepth := 9) +contextual [evGateOpen, h]

@[simp] theorem answerOk_execGateOpen {s : State} (h : s.MemOk) (core slot) : AnswerOk (execGateOpen core slot s) := by
  simp [execGateOpen, h]

@[simp] theorem eventOk_evDeferredTrap {s : State} (h : s.MemOk) (core ts) : EventOk (evDeferredTrap core ts s) := by
  unfold evDeferredTrap
  dsimp only
  split <;> simp (maxDischargeDepth := 9) [h]

@[simp] theorem answerOk_execDeferredTrap {s : State} (h : s.MemOk) (core ts) : AnswerOk (execDeferredTrap core ts s) := by
  simp [execDeferredTrap, h]

@[simp] theorem eventOk_evPreemptionRequest {s : State} (h : s.MemOk) (core src) : EventOk (evPreemptionRequest core src s) := by
  simp (maxDischargeDepth := 9) [evPreemptionRequest, h]

@[simp] theorem answerOk_execPreemptionRequest {s : State} (h : s.MemOk) (core src) : AnswerOk (execPreemptionRequest core src s) := by
  simp [execPreemptionRequest, h]

@[simp] theorem eventOk_evPreemptionWithdraw {s : State} (h : s.MemOk) (core src) : EventOk (evPreemptionWithdraw core src s) := by
  simp (maxDischargeDepth := 9) [evPreemptionWithdraw, h]

@[simp] theorem answerOk_execPreemptionWithdraw {s : State} (h : s.MemOk) (core src) : AnswerOk (execPreemptionWithdraw core src s) := by
  simp [execPreemptionWithdraw, h]

@[simp] theorem Core.wf_saveContext {k : Core} (hk : k.mem.wf = true) (i area) : (k.saveContext i area).mem.wf = true := by
  unfold Core.saveContext
  simp (maxDischargeDepth := 9) [hk]

@[simp] theorem eventOk_evPreemptionSave {s : State} (h : s.MemOk) (core ts) : EventOk (evPreemptionSave core ts s) := by
  unfold evPreemptionSave
  dsimp only
  split <;> simp (maxDischargeDepth := 9) [h]

@[simp] theorem answerOk_execPreemptionSave {s : State} (h : s.MemOk) (core ts) : AnswerOk (execPreemptionSave core ts s) := by
  simp [execPreemptionSave, h]

@[simp] theorem Core.resume_mem (k : Core) (i slot) : (k.resume i slot).mem = k.mem := by simp [Core.resume]

@[simp] theorem eventOk_evResumption {s : State} (h : s.MemOk) (core) : EventOk (evResumption core s) := by
  unfold evResumption
  dsimp only
  repeat' split
  all_goals simp [h]

@[simp] theorem answerOk_execResumption {s : State} (h : s.MemOk) (core) : AnswerOk (execResumption core s) := by
  simp [execResumption, h]

/-! ## Order -/

@[simp] theorem answerOk_execFence {s : State} (h : s.MemOk) (q c) : AnswerOk (execFence q c s) := by
  unfold execFence
  split <;> simp [h]

theorem State.answerOk_of_errorTrap {s : State} (h : s.MemOk) {a} (ha : s.errorTrap = some a) : AnswerOk a := by
  unfold State.errorTrap at ha
  dsimp only at ha
  split at ha
  · cases ha; simp (maxDischargeDepth := 9) [h]
  · cases ha

@[simp] theorem answerOk_execEfence {s : State} (h : s.MemOk) : AnswerOk (execEfence s) := by
  unfold execEfence
  repeat' split
  · exact s.answerOk_of_errorTrap h ‹_›
  all_goals simp [h]

@[simp] theorem answerOk_execWaitc {s : State} (h : s.MemOk) (l q p m) : AnswerOk (execWaitc l q p m s) := by
  unfold execWaitc
  dsimp only
  split <;> simp [h]

/-! ## Messages and regions -/

@[simp] theorem answerOk_execRecv {s : State} (h : s.MemOk) (d b c) : AnswerOk (execRecv d b c s) := by
  unfold execRecv
  refine State.answerOk_withX h _ fun _ => ?_
  repeat' split
  all_goals simp (maxDischargeDepth := 9) [h]

@[simp] theorem State.memOk_sendNow {s : State} (h : s.MemOk) (m) : (s.sendNow m).MemOk := by
  simp (maxDischargeDepth := 9) [State.sendNow, h]

@[simp] theorem State.answerOk_sendOrTrap {s : State} (h : s.MemOk) (m) : AnswerOk (s.sendOrTrap m) := by
  unfold State.sendOrTrap
  split <;> simp [h]

@[simp] theorem answerOk_execSend {s : State} (h : s.MemOk) (a b c) : AnswerOk (execSend a b c s) := by simp [execSend, h]

@[simp] theorem answerOk_execSendNb {s : State} (h : s.MemOk) (d a b c) : AnswerOk (execSendNb d a b c s) := by
  unfold execSendNb
  refine State.answerOk_withX h _ fun _ => ?_
  repeat' split
  all_goals simp [h]

@[simp] theorem answerOk_execSendi {s : State} (h : s.MemOk) (d a b c) : AnswerOk (execSendi d a b c s) := by simp [execSendi, h]

@[simp] theorem State.answerOk_privileged {s : State} (h : s.MemOk) {k : Answer} (hk : AnswerOk k) : AnswerOk (s.privileged k) := by
  unfold State.privileged; split <;> simp (maxDischargeDepth := 9) [h, hk]

@[simp] theorem answerOk_execPsend {s : State} (h : s.MemOk) (a b c) : AnswerOk (execPsend a b c s) := by
  simp (maxDischargeDepth := 9) [execPsend, h]

@[simp] theorem answerOk_execRalloc {s : State} (h : s.MemOk) (d a) : AnswerOk (execRalloc d a s) := by
  unfold execRalloc
  refine State.answerOk_withX h _ fun _ => ?_
  dsimp only
  repeat' split
  all_goals simp (maxDischargeDepth := 9) [h]

@[simp] theorem State.answerOk_denyRegion {s : State} (h : s.MemOk) (sub i) : AnswerOk (s.denyRegion sub i) := by
  simp [State.denyRegion, h]

@[simp] theorem State.memOk_endDrain {s : State} (h : s.MemOk) (n d) : (s.endDrain n d).MemOk := by
  simp (maxDischargeDepth := 9) [State.endDrain, h]

@[simp] theorem State.memOk_refuseDrain {s : State} (h : s.MemOk) (n d pkg die reason code inc) :
    (s.refuseDrain n d pkg die reason code inc).MemOk := by
  simp [State.refuseDrain, h]

@[simp] theorem State.memOk_stopDrains {s : State} (h : s.MemOk) (core name inc which) : (s.stopDrains core name inc which).MemOk := by
  unfold State.stopDrains
  refine State.memOk_foldl h _ fun t _ ht => ?_
  repeat' split
  all_goals simp [ht]

@[simp] theorem answerOk_execRfree {s : State} (h : s.MemOk) (a) : AnswerOk (execRfree a s) := by
  unfold execRfree
  refine State.answerOk_withX h _ fun _ => ?_
  dsimp only
  repeat' split
  all_goals simp (maxDischargeDepth := 9) [h]

@[simp] theorem Core.giveHere_mem (k : Core) (slot i) : (k.giveHere slot i).mem = k.mem := by
  unfold Core.giveHere
  dsimp only
  split <;> simp

@[simp] theorem Core.giveAway_mem (k : Core) (t name i parcel dst chan tag) : (k.giveAway t name i parcel dst chan tag).mem = k.mem := by
  simp [Core.giveAway]

@[simp] theorem answerOk_execGive {s : State} (h : s.MemOk) (d a b c) : AnswerOk (execGive d a b c s) := by
  unfold execGive
  refine State.answerOk_withX h _ fun _ => ?_
  dsimp only
  repeat' split
  all_goals simp (maxDischargeDepth := 9) [h]

@[simp] theorem answerOk_execSpawn {s : State} (h : s.MemOk) (d a) : AnswerOk (execSpawn d a s) := by
  unfold execSpawn
  refine State.answerOk_withX h _ fun _ => ?_
  dsimp only
  repeat' split
  all_goals simp (maxDischargeDepth := 9) [h]

@[simp] theorem Core.addLink_mem (k : Core) (e) : (k.addLink e).mem = k.mem := by
  unfold Core.addLink
  split <;> simp

@[simp] theorem Core.dropLinks_mem (k : Core) (f) : (k.dropLinks f).mem = k.mem := by simp [Core.dropLinks]
@[simp] theorem State.memOk_tie {s : State} (h : s.MemOk) (r) : (s.tie r).MemOk := by simp (maxDischargeDepth := 9) [State.tie, h]

@[simp] theorem answerOk_execLink {s : State} (h : s.MemOk) (a) : AnswerOk (execLink a s) := by
  unfold execLink
  refine State.answerOk_withX h _ fun _ => ?_
  dsimp only
  repeat' split
  all_goals simp (maxDischargeDepth := 9) [h]

@[simp] theorem answerOk_execUnlink {s : State} (h : s.MemOk) (a) : AnswerOk (execUnlink a s) := by
  unfold execUnlink
  refine State.answerOk_withX h _ fun _ => ?_
  dsimp only
  repeat' split
  all_goals simp (maxDischargeDepth := 9) [h]

@[simp] theorem answerOk_execMonitor {s : State} (h : s.MemOk) (d a) : AnswerOk (execMonitor d a s) := by
  unfold execMonitor
  split <;> simp (maxDischargeDepth := 9) [h]

@[simp] theorem answerOk_execDemon {s : State} (h : s.MemOk) (a) : AnswerOk (execDemon a s) := by
  unfold execDemon
  refine State.answerOk_withX h _ fun _ => ?_
  dsimp only
  repeat' split
  all_goals simp (maxDischargeDepth := 9) [h]

@[simp] theorem answerOk_execTrapex {s : State} (h : s.MemOk) (d a) : AnswerOk (execTrapex d a s) := by
  simp (maxDischargeDepth := 9) [execTrapex, h]

@[simp] theorem State.answerOk_killName {s : State} (h : s.MemOk) (dst every reason) : AnswerOk (s.killName dst every reason) := by
  unfold State.killName
  split <;> simp [h]

@[simp] theorem answerOk_execKill {s : State} (h : s.MemOk) (a) : AnswerOk (execKill a s) := by simp [execKill, h]

@[simp] theorem answerOk_execPkill {s : State} (h : s.MemOk) (a b) : AnswerOk (execPkill a b s) := by
  refine State.answerOk_privileged h (State.answerOk_withX h _ fun t => ?_)
  dsimp only
  split <;> simp [h]

@[simp] theorem answerOk_execExit {s : State} (h : s.MemOk) (a b) : AnswerOk (execExit a b s) := by
  unfold execExit
  refine State.answerOk_withX h _ fun _ => ?_
  dsimp only
  repeat' split
  all_goals simp [h]

@[simp] theorem Core.wf_endFiring {k : Core} (hk : k.mem.wf = true) (i now next) : (k.endFiring i now next).mem.wf = true := by
  simp [Core.endFiring, hk]

@[simp] theorem answerOk_execRetire {s : State} (h : s.MemOk) : AnswerOk (execRetire s) := by
  unfold execRetire
  repeat' split
  · simp [h]
  · exact s.answerOk_of_errorTrap h ‹_›
  · simp (maxDischargeDepth := 9) [h]

@[simp] theorem answerOk_execYield {s : State} (h : s.MemOk) : AnswerOk (execYield s) := by
  unfold execYield
  dsimp only
  split <;> simp (maxDischargeDepth := 9) [h]

@[simp] theorem answerOk_execSupset {s : State} (h : s.MemOk) (d a) : AnswerOk (execSupset d a s) := by
  unfold execSupset
  refine State.answerOk_withX h _ fun _ => ?_
  dsimp only
  repeat' split
  all_goals simp (maxDischargeDepth := 9) [h]

@[simp] theorem answerOk_execSupdel {s : State} (h : s.MemOk) (d a) : AnswerOk (execSupdel d a s) := by
  unfold execSupdel
  refine State.answerOk_withX h _ fun _ => ?_
  repeat' split
  all_goals simp (maxDischargeDepth := 9) [h]

/-! ## Ends of actors -/

@[simp] theorem State.memOk_sendExit {s : State} (h : s.MemOk) (pkg die ls ws supv x) : (s.sendExit pkg die ls ws supv x).MemOk := by
  simp (maxDischargeDepth := 9) +contextual [State.sendExit, h]

@[simp] theorem State.memOk_exitOf {s : State} (h : s.MemOk) (core slot supv x) : (s.exitOf core slot supv x).MemOk := by
  simp (maxDischargeDepth := 9) [State.exitOf, h]

@[simp] theorem State.memOk_flockDown {s : State} (h : s.MemOk) (n) : (s.flockDown n).MemOk := by
  unfold State.flockDown
  split <;> simp [h]

@[simp] theorem State.memOk_nameGone {s : State} (h : s.MemOk) (name) : (s.nameGone name).MemOk := by simp [State.nameGone, h]

@[simp] theorem State.memOk_giveUpTree (n) {s : State} (h : s.MemOk) (name) : (State.giveUpTree n s name).MemOk := by
  induction n generalizing s name with
  | zero => exact h
  | succ n ih =>
    unfold State.giveUpTree
    repeat' split
    · exact State.memOk_foldl (by simp (maxDischargeDepth := 9) [h]) _ fun t x ht => ih ht x
    all_goals exact h

@[simp] theorem State.memOk_giveUpName {s : State} (h : s.MemOk) (name) : (s.giveUpName name).MemOk := by
  simp [State.giveUpName, h]

@[simp] theorem State.memOk_noRestart {s : State} (h : s.MemOk) (name rrec revive) : (s.noRestart name rrec revive).MemOk := by
  simp (maxDischargeDepth := 9) +contextual [State.noRestart, h]

@[simp] theorem State.memOk_giveUp {s : State} (h : s.MemOk) (g) : (s.giveUp g).MemOk := by simp [State.giveUp, h]

/-! ## Parcels -/

@[simp] theorem State.memOk_onParcel {s : State} (h : s.MemOk) (n f) : (s.onParcel n f).MemOk := by
  unfold State.onParcel
  repeat' split
  all_goals simp [h]

@[simp] theorem State.memOk_endParcel {s : State} (h : s.MemOk) (n p) : (s.endParcel n p).MemOk := h

@[simp] theorem Core.wf_releaseGiven {k : Core} (hk : k.mem.wf = true) (p) : (k.releaseGiven p).mem.wf = true := by
  unfold Core.releaseGiven
  split <;> simp [hk]

@[simp] theorem State.memOk_refuseParcel {s : State} (h : s.MemOk) (n p pkg die reason code inc) :
    (s.refuseParcel n p pkg die reason code inc).MemOk := by
  simp (maxDischargeDepth := 9) [State.refuseParcel, h]

@[simp] theorem State.memOk_refuseParcelAt {s : State} (h : s.MemOk) (n p core reason code inc) :
    (s.refuseParcelAt n p core reason code inc).MemOk := by
  simp [State.refuseParcelAt, h]

theorem Core.mem_of_reserveFor {k : Core} {p slot here r} (h : k.reserveFor p slot here = .ok r) : r.2.mem = k.mem := by
  unfold Core.reserveFor at h
  repeat' split at h
  all_goals cases h
  all_goals simp

@[simp] theorem eventOk_evParcelReservation {s : State} (h : s.MemOk) (n) : EventOk (evParcelReservation n s) := by
  unfold evParcelReservation
  split
  · exact eventOk_none
  split
  · exact eventOk_none
  split
  · simp [h]
  · simp (maxDischargeDepth := 9) [h]
  · simp [h]
  · dsimp only
    split
    · simp (maxDischargeDepth := 9) [h]
    · have hm := Core.mem_of_reserveFor ‹_›
      exact eventOk_some.2 (State.memOk_onParcel (s.memOk_setCore h (hm ▸ s.wf_core h _) _) _ _)

@[simp] theorem answerOk_execParcelReservation {s : State} (h : s.MemOk) (n) : AnswerOk (execParcelReservation n s) := by
  simp [execParcelReservation, h]

@[simp] theorem State.memOk_parcelOut {s : State} (h : s.MemOk) (p) : (s.parcelOut p).MemOk := by
  unfold State.parcelOut
  split <;> simp +contextual [h]

@[simp] theorem State.memOk_parcelDone {s : State} (h : s.MemOk) (n p) : (s.parcelDone n p).MemOk := by
  simp (maxDischargeDepth := 9) [State.parcelDone, h]

@[simp] theorem eventOk_evParcelHandOver {s : State} (h : s.MemOk) (n) : EventOk (evParcelHandOver n s) := by
  unfold evParcelHandOver
  split <;> simp (maxDischargeDepth := 9) [h]

@[simp] theorem answerOk_execParcelHandOver {s : State} (h : s.MemOk) (n) : AnswerOk (execParcelHandOver n s) := by
  simp [execParcelHandOver, h]

@[simp] theorem Core.wf_takeParcel {k : Core} (hk : k.mem.wf = true) (p now) : (k.takeParcel p now).mem.wf = true := by
  simp [Core.takeParcel, hk]

@[simp] theorem State.memOk_dropReserved {s : State} (h : s.MemOk) (p) : (s.dropReserved p).MemOk := by
  simp (maxDischargeDepth := 9) [State.dropReserved, h]

@[simp] theorem eventOk_evParcelArrival {s : State} (h : s.MemOk) (n) : EventOk (evParcelArrival n s) := by
  unfold evParcelArrival
  repeat' split
  all_goals simp (maxDischargeDepth := 9) [h]

@[simp] theorem answerOk_execParcelArrival {s : State} (h : s.MemOk) (n) : AnswerOk (execParcelArrival n s) := by
  simp [execParcelArrival, h]

@[simp] theorem Drain.wf_write (d : Drain) {k : Core} (hk : k.mem.wf = true) (e) : (d.write k e).1.mem.wf = true :=
  List.foldlRecOn (motive := fun r : Core × List Nat => r.1.mem.wf = true) _ _ hk fun _ hr _ _ => Core.wf_writeIn hr _ _ _

theorem Drain.memOk_of_deliver {d : Drain} {s : State} (h : s.MemOk) {core slot r} (hd : d.deliver s core slot = .ok r) : r.1.MemOk := by
  unfold Drain.deliver at hd
  dsimp only at hd
  repeat' split at hd
  all_goals cases hd
  simp (maxDischargeDepth := 9) [h]

@[simp] theorem eventOk_evMdrainDelivery {s : State} (h : s.MemOk) (n) : EventOk (evMdrainDelivery n s) := by
  unfold evMdrainDelivery
  split
  · exact eventOk_none
  split
  · exact eventOk_none
  split
  · exact EventOk.map fun p _ => by simp [h]
  · simp [h]
  · simp [h]
  · split
    · simp [h]
    · have hd := Drain.memOk_of_deliver h ‹_›
      dsimp only at hd ⊢
      split <;> simp (maxDischargeDepth := 9) +contextual [hd]

@[simp] theorem answerOk_execMdrainDelivery {s : State} (h : s.MemOk) (n) : AnswerOk (execMdrainDelivery n s) := by
  simp [execMdrainDelivery, h]

/-! ## Arrivals -/

@[simp] theorem State.memOk_signalOut {s : State} (h : s.MemOk) (pkg conn g) : (s.signalOut pkg conn g).MemOk := by
  simp [State.signalOut, h]

theorem State.eventOk_signalStep {s : State} (h : s.MemOk) (n kinds) {atCore : State → Nat → Nat → Signal → State} (atPort)
    {lost : State → Signal → State} (hc : ∀ t c i g, t.MemOk → (atCore t c i g).MemOk) (hl : ∀ t g, t.MemOk → (lost t g).MemOk) :
    EventOk (s.signalStep n kinds atCore atPort lost) := by
  have ht : (s.take n).MemOk := by simp [h]
  unfold State.signalStep; repeat' split
  all_goals simp (maxDischargeDepth := 9) [ht, hc, hl]

@[simp] theorem State.memOk_placeAt {s : State} (h : s.MemOk) (c i g) : (s.placeAt c i g).MemOk := by
  simp (maxDischargeDepth := 9) [State.placeAt, h]

@[simp] theorem eventOk_evSignalArrival {s : State} (h : s.MemOk) (n) : EventOk (evSignalArrival n s) :=
  State.eventOk_signalStep h _ _ _ (fun _ c i g ht => State.memOk_placeAt ht c i g) fun _ _ ht => ht

@[simp] theorem answerOk_execSignalArrival {s : State} (h : s.MemOk) (n) : AnswerOk (execSignalArrival n s) := by
  simp [execSignalArrival, h]

@[simp] theorem State.memOk_exitAt {s : State} (h : s.MemOk) (c i g) : (s.exitAt c i g).MemOk := by
  simp (maxDischargeDepth := 9) [State.exitAt, h]

@[simp] theorem eventOk_evExitArrival {s : State} (h : s.MemOk) (n) : EventOk (evExitArrival n s) :=
  State.eventOk_signalStep h _ _ _ (fun _ c i g ht => State.memOk_exitAt ht c i g) fun _ _ ht => ht

@[simp] theorem answerOk_execExitArrival {s : State} (h : s.MemOk) (n) : AnswerOk (execExitArrival n s) := by
  simp [execExitArrival, h]

@[simp] theorem State.memOk_downAt {s : State} (h : s.MemOk) (c i g) : (s.downAt c i g).MemOk := by
  simp (maxDischargeDepth := 9) [State.downAt, h]

@[simp] theorem eventOk_evDownArrival {s : State} (h : s.MemOk) (n) : EventOk (evDownArrival n s) :=
  State.eventOk_signalStep h _ _ _ (fun _ c i g ht => State.memOk_downAt ht c i g) fun _ _ ht => ht

@[simp] theorem answerOk_execDownArrival {s : State} (h : s.MemOk) (n) : AnswerOk (execDownArrival n s) := by
  simp [execDownArrival, h]

@[simp] theorem State.memOk_runScope {s : State} (h : s.MemOk) (c) : (s.runScope c).MemOk := by
  simp (maxDischargeDepth := 9) +contextual [State.runScope, h]

@[simp] theorem State.memOk_scopeDeath {s : State} (h : s.MemOk) (supv name) : (s.scopeDeath supv name).MemOk := by
  simp (maxDischargeDepth := 9) +contextual [State.scopeDeath, h]

@[simp] theorem State.memOk_reenter {s : State} (h : s.MemOk) (g) : (s.reenter g).MemOk := by
  unfold State.reenter
  split <;> simp [h]

@[simp] theorem State.memOk_restartScope {s : State} (h : s.MemOk) (c i g at_ e) : (s.restartScope c i g at_ e).MemOk := by
  simp (maxDischargeDepth := 9) +contextual [State.restartScope, h]

@[simp] theorem State.memOk_childExitAt {s : State} (h : s.MemOk) (c i g) : (s.childExitAt c i g).MemOk := by
  unfold State.childExitAt
  repeat' split
  all_goals simp (maxDischargeDepth := 9) [h]

@[simp] theorem eventOk_evChildExitArrival {s : State} (h : s.MemOk) (n) : EventOk (evChildExitArrival n s) :=
  State.eventOk_signalStep h _ _ _ (fun _ c i g ht => State.memOk_childExitAt ht c i g) fun _ g ht => State.memOk_giveUp ht g

@[simp] theorem answerOk_execChildExitArrival {s : State} (h : s.MemOk) (n) : AnswerOk (execChildExitArrival n s) := by
  simp [execChildExitArrival, h]

@[simp] theorem State.memOk_closeConn {s : State} (h : s.MemOk) (pkg conn reason) : (s.closeConn pkg conn reason).MemOk := by
  simp (maxDischargeDepth := 9) [State.closeConn, h]

@[simp] theorem eventOk_evKillArrival {s : State} (h : s.MemOk) (n) : EventOk (evKillArrival n s) := by
  unfold evKillArrival
  repeat' split
  all_goals simp [h]

@[simp] theorem answerOk_execKillArrival {s : State} (h : s.MemOk) (n) : AnswerOk (execKillArrival n s) := by
  simp [execKillArrival, h]

@[simp] theorem State.memOk_linkFull {s : State} (h : s.MemOk) (r pkg die) : (s.linkFull r pkg die).MemOk := by
  unfold State.linkFull
  split <;> simp (maxDischargeDepth := 9) [h]

@[simp] theorem State.memOk_linkNobody {s : State} (h : s.MemOk) (r) : (s.linkNobody r).MemOk := h

@[simp] theorem State.memOk_linkAt {s : State} (h : s.MemOk) (r) : (s.linkAt r).MemOk := by
  unfold State.linkAt
  split <;> simp (maxDischargeDepth := 9) [h]

@[simp] theorem State.memOk_unlinkAt {s : State} (h : s.MemOk) (r) : (s.unlinkAt r).MemOk := by
  unfold State.unlinkAt
  split <;> simp [h]

@[simp] theorem eventOk_evPeerLinkRequest {s : State} (h : s.MemOk) (n) : EventOk (evPeerLinkRequest n s) := by
  unfold evPeerLinkRequest
  repeat' split
  all_goals simp [h]

@[simp] theorem answerOk_execPeerLinkRequest {s : State} (h : s.MemOk) (n) : AnswerOk (execPeerLinkRequest n s) := by
  simp [execPeerLinkRequest, h]

@[simp] theorem eventOk_evMessageBusyResend {s : State} (h : s.MemOk) (n) : EventOk (evMessageBusyResend n s) := by
  unfold evMessageBusyResend
  repeat' split
  all_goals simp (maxDischargeDepth := 9) [h]

@[simp] theorem answerOk_execMessageBusyResend {s : State} (h : s.MemOk) (n) : AnswerOk (execMessageBusyResend n s) := by
  simp [execMessageBusyResend, h]

@[simp] theorem eventOk_evDeliveryTimeout {s : State} (h : s.MemOk) (n) : EventOk (evDeliveryTimeout n s) := by
  unfold evDeliveryTimeout
  repeat' split
  all_goals simp [h]

@[simp] theorem answerOk_execDeliveryTimeout {s : State} (h : s.MemOk) (n) : AnswerOk (execDeliveryTimeout n s) := by
  simp [execDeliveryTimeout, h]

/-! ## Notices -/

@[simp] theorem State.memOk_counterNotice {s : State} (h' : s.MemOk) (pkg number h code merged value t) :
    (s.counterNotice pkg number h code merged value t).MemOk := h'

@[simp] theorem State.memOk_badFullNotices {s : State} (h : s.MemOk) (pkg) : (s.badFullNotices pkg).MemOk := by
  simp +contextual [State.badFullNotices, h]

@[simp] theorem State.memOk_tellAll {s : State} (h : s.MemOk) (pkg die rs reason sub detail) :
    (s.tellAll pkg die rs reason sub detail).MemOk := by
  simp +contextual [State.tellAll, h]

@[simp] theorem State.memOk_topologyNotice {s : State} (h : s.MemOk) (pkg die sub unit) : (s.topologyNotice pkg die sub unit).MemOk := by
  simp [State.topologyNotice, h]

@[simp] theorem State.memOk_grantNotice {s : State} (h : s.MemOk) (pkg die dom) : (s.grantNotice pkg die dom).MemOk := by
  simp [State.grantNotice, h]

/-! ## Deaths -/

@[simp] theorem State.memOk_endChildren {s : State} (h : s.MemOk) (core slot name) : (s.endChildren core slot name).2.MemOk :=
  s.memOk_foldl h _ fun t e ht => by simp (maxDischargeDepth := 9) [ht]

@[simp] theorem State.memOk_withdrawWaits {s : State} (h : s.MemOk) (core slot) : (s.withdrawWaits core slot).MemOk := by
  simp (maxDischargeDepth := 9) [State.withdrawWaits, h]

@[simp] theorem Core.cancelTickets_mem (k : Core) (slot) : (k.cancelTickets slot).mem = k.mem := by simp [Core.cancelTickets]

@[simp] theorem State.memOk_dropUnsent {s : State} (h : s.MemOk) (core slot) : (s.dropUnsent core slot).MemOk := by
  simp (maxDischargeDepth := 9) +contextual [State.dropUnsent, h]

@[simp] theorem Core.pendRegions_mem (k : Core) (slot) : (k.pendRegions slot).mem = k.mem := by simp [Core.pendRegions]

@[simp] theorem State.memOk_dropParcel {s : State} (h : s.MemOk) (n) : (s.dropParcel n).MemOk := by
  unfold State.dropParcel
  split <;> simp (maxDischargeDepth := 9) [h]

@[simp] theorem State.memOk_stopCopies {s0 : State} (h : s0.MemOk) (core slot) : (s0.stopCopies core slot).MemOk := by
  simp (maxDischargeDepth := 9) +contextual [State.stopCopies, h]

@[simp] theorem eventOk_evDeath {s : State} (h : s.MemOk) (core slot) : EventOk (evDeath core slot s) := by
  unfold evDeath
  extract_lets a s1
  split
  · exact eventOk_none
  rename_i d _
  split
  · exact eventOk_none
  have h1 : s1.MemOk := by
    unfold s1
    repeat' split
    all_goals simp [h]
  clear_value s1
  have h2 := State.memOk_endChildren h1 core slot a.name
  exact eventOk_some.2 (State.memOk_onCore (State.memOk_stopCopies (State.memOk_dropUnsent (State.memOk_withdrawWaits
    (State.memOk_with h2 h2.1) ..) ..) ..) (by simp (maxDischargeDepth := 9) [h2]))

@[simp] theorem answerOk_execDeath {s : State} (h : s.MemOk) (core slot) : AnswerOk (execDeath core slot s) := by
  simp [execDeath, h]

@[simp] theorem Core.wf_reclaimRegions {k : Core} (hk : k.mem.wf = true) (slot) : (k.reclaimRegions slot).mem.wf = true := by
  simp (maxDischargeDepth := 9) +contextual [Core.reclaimRegions, hk]

@[simp] theorem Core.freeSlotOf_mem (k : Core) (slot) : (k.freeSlotOf slot).mem = k.mem := by simp [Core.freeSlotOf]

@[simp] theorem State.memOk_countExit {s : State} (h : s.MemOk) (name reason) : (s.countExit name reason).MemOk := by
  simp [State.countExit, h]

@[simp] theorem eventOk_evDeathReclaim {s : State} (h : s.MemOk) (core slot) : EventOk (evDeathReclaim core slot s) := by
  unfold evDeathReclaim
  dsimp only
  repeat' split
  all_goals simp (maxDischargeDepth := 9) +contextual [h]

@[simp] theorem answerOk_execDeathReclaim {s : State} (h : s.MemOk) (core slot) : AnswerOk (execDeathReclaim core slot s) := by
  simp [execDeathReclaim, h]

/-! ## Spawns -/

@[simp] theorem State.memOk_goLive {s : State} (h : s.MemOk) (name inc core slot) : (s.goLive name inc core slot).MemOk := by
  unfold State.goLive
  split <;> simp [h]

@[simp] theorem State.memOk_reviveAll {s : State} (h : s.MemOk) (core slot supv names) : (s.reviveAll core slot supv names).MemOk := by
  unfold State.reviveAll
  refine State.memOk_foldl h _ fun t _ ht => ?_
  repeat' split
  all_goals simp [ht]

@[simp] theorem State.memOk_countRestart {s : State} (h : s.MemOk) (core) : (s.countRestart core).MemOk := h

@[simp] theorem State.eventOk_startActor {s : State} (h : s.MemOk) (core e imageGa) : EventOk (s.startActor core e imageGa) := by
  refine EventOk.bind fun f _ => EventOk.bind fun img _ => EventOk.bind fun slot _ => EventOk.map fun k hk => ?_
  have := State.memOk_setCore h (s.wf_of_install h hk) core
  dsimp only
  split <;> simp (maxDischargeDepth := 9) [this]

@[simp] theorem State.memOk_enterPending {s : State} (h : s.MemOk) (core e image) : (s.enterPending core e image).MemOk := h

@[simp] theorem eventOk_evSpawnRelease {s : State} (h : s.MemOk) (core id) : EventOk (evSpawnRelease core id s) := by
  unfold evSpawnRelease
  dsimp only
  repeat' split
  all_goals simp (maxDischargeDepth := 9) [h]

@[simp] theorem answerOk_execSpawnRelease {s : State} (h : s.MemOk) (core id) : AnswerOk (execSpawnRelease core id s) := by
  simp [execSpawnRelease, h]

@[simp] theorem eventOk_evSpawnStart {s : State} (h : s.MemOk) (core) : EventOk (evSpawnStart core s) := by
  unfold evSpawnStart
  split <;> simp (maxDischargeDepth := 9) [h]

@[simp] theorem answerOk_execSpawnStart {s : State} (h : s.MemOk) (core) : AnswerOk (execSpawnStart core s) := by
  simp [execSpawnStart, h]

@[simp] theorem Core.appendSpawn_mem (k : Core) (e) : (k.appendSpawn e).mem = k.mem := by simp [Core.appendSpawn]

@[simp] theorem eventOk_evStewardFeed {s : State} (h : s.MemOk) (n) : EventOk (evStewardFeed n s) := by
  unfold evStewardFeed
  split
  · exact eventOk_none
  split
  · split
    · exact eventOk_none
    · refine EventOk.bind fun c _ => ?_
      dsimp only
      split
      · rename_i e _ _ t ht
        have ht : t.MemOk := by
          split at ht
          · cases ht
          · exact s.eventOk_startActor h _ _ _ t ht
        simp (maxDischargeDepth := 9) [ht]
      · split <;> simp (maxDischargeDepth := 9) [h]
  · exact eventOk_none

@[simp] theorem answerOk_execStewardFeed {s : State} (h : s.MemOk) (n) : AnswerOk (execStewardFeed n s) := by
  simp [execStewardFeed, h]

@[simp] theorem eventOk_evActorLoadComplete {s : State} (h : s.MemOk) (core slot) : EventOk (evActorLoadComplete core slot s) := by
  simp (maxDischargeDepth := 9) [evActorLoadComplete, h]

@[simp] theorem answerOk_execActorLoadComplete {s : State} (h : s.MemOk) (core slot) : AnswerOk (execActorLoadComplete core slot s) := by
  simp [execActorLoadComplete, h]

@[simp] theorem State.memOk_ship {s : State} (h : s.MemOk) {before : State} (src dst n) : (s.ship before src dst n).MemOk := by
  simp (maxDischargeDepth := 9) [State.ship, h]

@[simp] theorem State.memOk_receiveAll {s : State} (h : s.MemOk) {before : State} (dst) : (s.receiveAll before dst).MemOk := by
  refine (List.foldlRecOn (motive := fun r : State × Nat => r.1.MemOk) _ _ h fun r hr p _ => ?_)
  repeat' split
  · exact State.memOk_ship hr _ _ _
  all_goals exact hr

@[simp] theorem eventOk_evLoadLevelling {s : State} (h : s.MemOk) (pkg) : EventOk (evLoadLevelling pkg s) := by
  simp (maxDischargeDepth := 9) +contextual [evLoadLevelling, h]

@[simp] theorem answerOk_execLoadLevelling {s : State} (h : s.MemOk) (pkg) : AnswerOk (execLoadLevelling pkg s) := by
  simp [execLoadLevelling, h]

@[simp] theorem State.memOk_scopeMember {s : State} (h : s.MemOk) (supv name refused) : (s.scopeMember supv name refused).MemOk := by
  refine State.memOk_foldl (State.memOk_with h h.1) _ fun t c ht => ?_
  repeat' split
  all_goals simp [ht]

@[simp] theorem State.memOk_refuseRestart {s : State} (h : s.MemOk) (r) : (s.refuseRestart r).MemOk := by
  simp [State.refuseRestart, h]

@[simp] theorem State.eventOk_restartOn {s : State} (h : s.MemOk) (r rec_ core) : EventOk (s.restartOn r rec_ core) := by
  unfold State.restartOn
  dsimp only
  split
  · exact eventOk_some.2 (s.eventOk_startActor h _ _ _ _ ‹_›)
  · split <;> simp [h]

@[simp] theorem eventOk_evBellwetherRestart {s : State} (h : s.MemOk) (n) : EventOk (evBellwetherRestart n s) := by
  unfold evBellwetherRestart
  dsimp only
  split
  · exact eventOk_none
  split
  · have hrefuse := fun r => eventOk_some.2 (State.memOk_refuseRestart (State.memOk_take h n) r)
    split
    · exact eventOk_none
    split
    · exact hrefuse _
    split
    · exact hrefuse _
    split
    · exact hrefuse _
    refine EventOk.bind fun c _ => EventOk.map fun t ht => ?_
    exact State.memOk_scopeMember (State.eventOk_restartOn (by simp [h]) _ _ _ t ht) ..
  · exact eventOk_none

@[simp] theorem answerOk_execBellwetherRestart {s : State} (h : s.MemOk) (n) : AnswerOk (execBellwetherRestart n s) := by
  simp [execBellwetherRestart, h]

end Sys2Proof.Machine
end

section
/-! SUPPORT. The canonical form of every memory: services, pages, losses and the firmware keep it. -/

namespace Sys2Proof.Machine

/-! ## Device services -/

theorem State.memOk_of_request {s : State} (h : s.MemOk) {n service code r} (hr : s.request n service code = some r) : r.2.2.MemOk := by
  unfold State.request at hr
  dsimp only at hr
  repeat' split at hr
  all_goals cases hr
  all_goals simp (maxDischargeDepth := 9) [h]

@[simp] theorem State.memOk_reply {s : State} (h : s.MemOk) (pkg m words) : (s.reply pkg m words).MemOk := h

theorem State.eventOk_served {s : State} (h : s.MemOk) (n service code) {f : State → Nat → Msg → State × List W64}
    (hf : ∀ t p m, t.MemOk → (f t p m).1.MemOk) : EventOk (s.served n service code f) := by
  unfold State.served
  intro t ht
  obtain ⟨q, hq, rfl⟩ := Option.map_eq_some_iff.1 ht
  simp (maxDischargeDepth := 9) [hf _ _ _ (s.memOk_of_request h hq)]

@[simp] theorem eventOk_evTopologyRegister {s : State} (h : s.MemOk) (n) : EventOk (evTopologyRegister n s) :=
  State.eventOk_served h _ _ _ fun t p m ht => by
    repeat' split
    all_goals simp [ht]

@[simp] theorem answerOk_execTopologyRegister {s : State} (h : s.MemOk) (n) : AnswerOk (execTopologyRegister n s) := by
  simp [execTopologyRegister, h]

@[simp] theorem eventOk_evTopologyDeregister {s : State} (h : s.MemOk) (n) : EventOk (evTopologyDeregister n s) :=
  State.eventOk_served h _ _ _ fun t p m ht => by
    dsimp only
    simp [ht]

@[simp] theorem answerOk_execTopologyDeregister {s : State} (h : s.MemOk) (n) : AnswerOk (execTopologyDeregister n s) := by
  simp [execTopologyDeregister, h]

@[simp] theorem eventOk_evTopologyReadUnit {s : State} (h : s.MemOk) (n) : EventOk (evTopologyReadUnit n s) :=
  State.eventOk_served h _ _ _ fun _ _ _ ht => ht

@[simp] theorem answerOk_execTopologyReadUnit {s : State} (h : s.MemOk) (n) : AnswerOk (execTopologyReadUnit n s) := by
  simp [execTopologyReadUnit, h]

@[simp] theorem eventOk_evTopologyReadGrant {s : State} (h : s.MemOk) (n) : EventOk (evTopologyReadGrant n s) :=
  State.eventOk_served h _ _ _ fun _ _ _ ht => ht

@[simp] theorem answerOk_execTopologyReadGrant {s : State} (h : s.MemOk) (n) : AnswerOk (execTopologyReadGrant n s) := by
  simp [execTopologyReadGrant, h]

@[simp] theorem eventOk_evPowerServiceRegister {s : State} (h : s.MemOk) (n) : EventOk (evPowerServiceRegister n s) :=
  State.eventOk_served h _ _ _ fun t p m ht => by
    repeat' split
    all_goals simp [ht]

@[simp] theorem answerOk_execPowerServiceRegister {s : State} (h : s.MemOk) (n) : AnswerOk (execPowerServiceRegister n s) := by
  simp [execPowerServiceRegister, h]

@[simp] theorem eventOk_evPowerServiceDeregister {s : State} (h : s.MemOk) (n) : EventOk (evPowerServiceDeregister n s) :=
  State.eventOk_served h _ _ _ fun t p m ht => by
    dsimp only
    simp [ht]

@[simp] theorem answerOk_execPowerServiceDeregister {s : State} (h : s.MemOk) (n) : AnswerOk (execPowerServiceDeregister n s) := by
  simp [execPowerServiceDeregister, h]

@[simp] theorem State.memOk_measureNotice {s : State} (h : s.MemOk) (pkg fw event schema skipped) :
    (s.measureNotice pkg fw event schema skipped).MemOk := by
  simp [State.measureNotice, h]

@[simp] theorem eventOk_evAttestRegister {s : State} (h : s.MemOk) (n) : EventOk (evAttestRegister n s) :=
  State.eventOk_served h _ _ _ fun t p m ht => by
    repeat' split
    all_goals simp [ht]

@[simp] theorem answerOk_execAttestRegister {s : State} (h : s.MemOk) (n) : AnswerOk (execAttestRegister n s) := by
  simp [execAttestRegister, h]

@[simp] theorem eventOk_evAttestDeregister {s : State} (h : s.MemOk) (n) : EventOk (evAttestDeregister n s) :=
  State.eventOk_served h _ _ _ fun t p m ht => by
    dsimp only
    simp [ht]

@[simp] theorem answerOk_execAttestDeregister {s : State} (h : s.MemOk) (n) : AnswerOk (execAttestDeregister n s) := by
  simp [execAttestDeregister, h]

@[simp] theorem State.memOk_sendBody {s : State} (h : s.MemOk) (pkg giver dom dst chan tag body) :
    (s.sendBody pkg giver dom dst chan tag body).MemOk := h

theorem State.eventOk_servedParcel {s : State} (h : s.MemOk) (n code body) : EventOk (s.servedParcel n code body) :=
  s.eventOk_served h n _ code fun t p m ht => by dsimp only; split <;> simp (maxDischargeDepth := 9) [ht]

@[simp] theorem eventOk_evQuote {s : State} (h : s.MemOk) (n) : EventOk (evQuote n s) := State.eventOk_servedParcel h _ _ _
@[simp] theorem answerOk_execQuote {s : State} (h : s.MemOk) (n) : AnswerOk (execQuote n s) := by simp [execQuote, h]
@[simp] theorem eventOk_evLogRead {s : State} (h : s.MemOk) (n) : EventOk (evLogRead n s) := State.eventOk_servedParcel h _ _ _
@[simp] theorem answerOk_execLogRead {s : State} (h : s.MemOk) (n) : AnswerOk (execLogRead n s) := by simp [execLogRead, h]

/-! ## Counters -/

@[simp] theorem eventOk_evCounterRead {s : State} (h : s.MemOk) (n) : EventOk (evCounterRead n s) :=
  State.eventOk_served h _ _ _ fun t p m ht => by
    repeat' split
    all_goals simp [ht]

@[simp] theorem answerOk_execCounterRead {s : State} (h : s.MemOk) (n) : AnswerOk (execCounterRead n s) := by
  simp [execCounterRead, h]

@[simp] theorem State.memOk_setPmc {s : State} (h : s.MemOk) (r c) : (s.setPmc r c).MemOk := by
  unfold State.setPmc
  split <;> simp [h]

@[simp] theorem eventOk_evCounterProgram {s : State} (h : s.MemOk) (n) : EventOk (evCounterProgram n s) :=
  State.eventOk_served h _ _ _ fun t p m ht => by
    dsimp only
    repeat' split
    all_goals simp [ht]

@[simp] theorem answerOk_execCounterProgram {s : State} (h : s.MemOk) (n) : AnswerOk (execCounterProgram n s) := by
  simp [execCounterProgram, h]

@[simp] theorem eventOk_evThresholdSet {s : State} (h : s.MemOk) (n) : EventOk (evThresholdSet n s) :=
  State.eventOk_served h _ _ _ fun t p m ht => by
    repeat' split
    all_goals simp [ht]

@[simp] theorem answerOk_execThresholdSet {s : State} (h : s.MemOk) (n) : AnswerOk (execThresholdSet n s) := by
  simp [execThresholdSet, h]

@[simp] theorem eventOk_evThresholdCancel {s : State} (h : s.MemOk) (n) : EventOk (evThresholdCancel n s) :=
  State.eventOk_served h _ _ _ fun t p m ht => by
    dsimp only
    repeat' split
    all_goals simp [ht]

@[simp] theorem answerOk_execThresholdCancel {s : State} (h : s.MemOk) (n) : AnswerOk (execThresholdCancel n s) := by
  simp [execThresholdCancel, h]

@[simp] theorem State.memOk_sampleThreshold {s : State} (h' : s.MemOk) (pkg i h) : (s.sampleThreshold pkg i h).MemOk := by
  unfold State.sampleThreshold
  split <;> simp (maxDischargeDepth := 9) [h']

@[simp] theorem State.memOk_listBadFrame {s : State} (h : s.MemOk) (o frame) : (s.listBadFrame o frame).MemOk := by
  simp (maxDischargeDepth := 9) +contextual [State.listBadFrame, h]

@[simp] theorem eventOk_evCounterSample {s : State} (h : s.MemOk) (pkg) : EventOk (evCounterSample pkg s) := by
  simp (maxDischargeDepth := 9) +contextual [evCounterSample, h]

@[simp] theorem answerOk_execCounterSample {s : State} (h : s.MemOk) (pkg) : AnswerOk (execCounterSample pkg s) := by
  simp [execCounterSample, h]

/-! ## Pages -/

@[simp] theorem State.memOk_leaveFrame {s : State} (h : s.MemOk) (o e) : (s.leaveFrame o e).MemOk := by simp [State.leaveFrame, h]
@[simp] theorem State.memOk_dropHome {s : State} (h : s.MemOk) (o page) : (s.dropHome o page).MemOk := by simp [State.dropHome, h]

@[simp] theorem State.memOk_dropAt {s : State} (h : s.MemOk) (o page home) : (s.dropAt o page home).MemOk := by
  simp (maxDischargeDepth := 9) [State.dropAt, h]

@[simp] theorem eventOk_evDirectoryCollapse {s : State} (h : s.MemOk) (n) : EventOk (evDirectoryCollapse n s) := by
  unfold evDirectoryCollapse
  repeat' split
  all_goals simp (maxDischargeDepth := 9) +contextual [h]

@[simp] theorem answerOk_execDirectoryCollapse {s : State} (h : s.MemOk) (n) : AnswerOk (execDirectoryCollapse n s) := by
  simp [execDirectoryCollapse, h]

@[simp] theorem eventOk_evReplicaDrop {s : State} (h : s.MemOk) (n) : EventOk (evReplicaDrop n s) := by
  unfold evReplicaDrop
  repeat' split
  · exact eventOk_none
  · refine eventOk_some.2 (State.memOk_foldl (by simp [h]) _ fun t p ht => ?_)
    repeat' split
    all_goals simp [ht]
  · exact eventOk_none

@[simp] theorem answerOk_execReplicaDrop {s : State} (h : s.MemOk) (n) : AnswerOk (execReplicaDrop n s) := by
  simp [execReplicaDrop, h]

@[simp] theorem State.memOk_homeAlone {s : State} (h : s.MemOk) (home page) : (s.homeAlone home page).MemOk := by
  unfold State.homeAlone
  split <;> simp (maxDischargeDepth := 9) +contextual [h]

@[simp] theorem eventOk_evCollapseComplete {s : State} (h : s.MemOk) (n) : EventOk (evCollapseComplete n s) := by
  unfold evCollapseComplete
  repeat' split
  all_goals simp (maxDischargeDepth := 9) [h]

@[simp] theorem answerOk_execCollapseComplete {s : State} (h : s.MemOk) (n) : AnswerOk (execCollapseComplete n s) := by
  simp [execCollapseComplete, h]

@[simp] theorem State.memOk_waitMoved {s : State} (h : s.MemOk) (q c) : (s.waitMoved q c).MemOk := by
  unfold State.waitMoved
  split <;> simp [h]

@[simp] theorem State.memOk_movePageState {s : State} (h : s.MemOk) (o q page) : (s.movePageState o q page).MemOk :=
  State.memOk_foldl h _ fun t i ht => State.memOk_onBank (State.memOk_foldl (by simp (maxDischargeDepth := 9) [ht]) _ fun u c hu => by simp [hu]) _ _

@[simp] theorem State.eventOk_startMigration {s : State} (h : s.MemOk) (page o q) : EventOk (s.startMigration page o q) := by
  unfold State.startMigration
  dsimp only
  split
  · exact eventOk_none
  · refine EventOk.bind fun f _ => EventOk.map fun t ht => ?_
    have ht := State.eventOk_bindKey h _ _ t ht
    simp (maxDischargeDepth := 9) [ht]

@[simp] theorem eventOk_evMigrationBegin {s : State} (h : s.MemOk) (page newOwner) : EventOk (evMigrationBegin page newOwner s) := by
  unfold evMigrationBegin
  repeat' split
  all_goals simp [h]

@[simp] theorem answerOk_execMigrationBegin {s : State} (h : s.MemOk) (page newOwner) : AnswerOk (execMigrationBegin page newOwner s) := by
  simp [execMigrationBegin, h]

@[simp] theorem State.memOk_rehome {s : State} (h : s.MemOk) (o q key) : (s.rehome o q key).MemOk := by
  unfold State.rehome
  split
  · exact h
  · refine State.memOk_foldl (State.memOk_with h h.1) _ fun t p ht => ?_
    repeat' split
    all_goals simp (maxDischargeDepth := 9) [ht]

@[simp] theorem State.memOk_giveUpMigration {s : State} (h : s.MemOk) (m) : (s.giveUpMigration m).MemOk := by
  simp (maxDischargeDepth := 9) [State.giveUpMigration, h]

@[simp] theorem eventOk_evMigrationEnd {s : State} (h : s.MemOk) (page) : EventOk (evMigrationEnd page s) := by
  unfold evMigrationEnd
  split <;> simp (maxDischargeDepth := 9) [h]

@[simp] theorem answerOk_execMigrationEnd {s : State} (h : s.MemOk) (page) : AnswerOk (execMigrationEnd page s) := by
  simp [execMigrationEnd, h]

@[simp] theorem State.memOk_endConts {s : State} (h : s.MemOk) (o page) : (s.endConts o page).MemOk :=
  State.memOk_foldl h _ fun t i ht => State.memOk_foldl (by simp (maxDischargeDepth := 9) [ht]) _ fun u c hu => by split <;> simp [hu]

@[simp] theorem State.memOk_losePage {s : State} (h : s.MemOk) (o page) : (s.losePage o page).MemOk := by simp (maxDischargeDepth :=
  9) [State.losePage, h]

@[simp] theorem eventOk_evFrameRetirement {s : State} (h : s.MemOk) (owner page copied) :
    EventOk (evFrameRetirement owner page copied s) := by
  unfold evFrameRetirement
  split <;> simp (maxDischargeDepth := 9) [h]

@[simp] theorem answerOk_execFrameRetirement {s : State} (h : s.MemOk) (owner page copied) :
    AnswerOk (execFrameRetirement owner page copied s) := by
  simp [execFrameRetirement, h]

@[simp] theorem State.memOk_metadataError {s : State} (h : s.MemOk) (o w) : (s.metadataError o w).MemOk := by
  unfold State.metadataError
  extract_lets go s1 n t
  have h1 : s1.MemOk := State.memOk_foldl h _ fun t i ht => State.memOk_foldl (State.memOk_onBank ht _ _) _ fun u c hu => by simp [hu]
  have h2 : t.MemOk := State.memOk_setWord h1 _ _
  clear_value t
  exact ⟨h2.1, h2.2⟩

@[simp] theorem State.memOk_softError {s : State} (h : s.MemOk) (e) : (s.softError e).MemOk := by
  unfold State.softError
  dsimp only
  split
  · split <;> simp [h]
  · split <;> simp [h]
  · split
    · exact h
    · rename_i j _
      have h0 : ({ s with serial := s.serial + 1 } : State).MemOk := h
      repeat' split
      all_goals simp (maxDischargeDepth := 9) [h0]

@[simp] theorem eventOk_evPatrolScrub {s : State} (h : s.MemOk) (owner page offset found) :
    EventOk (evPatrolScrub owner page offset found s) := by
  unfold evPatrolScrub
  repeat' split
  all_goals simp [h]

@[simp] theorem answerOk_execPatrolScrub {s : State} (h : s.MemOk) (owner page offset found) :
    AnswerOk (execPatrolScrub owner page offset found s) := by
  simp [execPatrolScrub, h]

@[simp] theorem eventOk_evPageReclaim {s : State} (h : s.MemOk) (page) : EventOk (evPageReclaim page s) := by
  simp (maxDischargeDepth := 9) +contextual [evPageReclaim, h]

@[simp] theorem answerOk_execPageReclaim {s : State} (h : s.MemOk) (page) : AnswerOk (execPageReclaim page s) := by
  simp [execPageReclaim, h]

@[simp] theorem eventOk_evPageParking {s : State} (h : s.MemOk) (owner page) : EventOk (evPageParking owner page s) := by
  simp (maxDischargeDepth := 9) [evPageParking, h]

@[simp] theorem answerOk_execPageParking {s : State} (h : s.MemOk) (owner page) : AnswerOk (execPageParking owner page s) := by
  simp [execPageParking, h]

@[simp] theorem State.memOk_carryLost {s : State} (h' : s.MemOk) (h page) : (s.carryLost h page).MemOk := by
  unfold State.carryLost
  split <;> simp (maxDischargeDepth := 9) +contextual [h']

@[simp] theorem State.memOk_settle {s : State} (h' : s.MemOk) (h page) : (s.settle h page).MemOk := by
  unfold State.settle
  split <;> simp (maxDischargeDepth := 9) +contextual [h']

@[simp] theorem State.memOk_unmapRange {s : State} (h : s.MemOk) (key) : (s.unmapRange key).MemOk := by
  unfold State.unmapRange
  refine State.memOk_foldl (by simp (maxDischargeDepth := 9) [h]) _ fun t p ht => State.memOk_foldl ht _ fun u q hu => ?_
  dsimp only
  repeat' split
  all_goals simp (maxDischargeDepth := 9) [hu]

@[simp] theorem State.memOk_forwardServices {s : State} (h : s.MemOk) (key home) : (s.forwardServices key home).MemOk := by
  unfold State.forwardServices
  split <;> simp (maxDischargeDepth := 9) +contextual [h]

@[simp] theorem eventOk_evHintRecordWrite {s0 : State} (h0 : s0.MemOk) (cls range dwords) :
    EventOk (evHintRecordWrite cls range dwords s0) := by
  unfold evHintRecordWrite
  dsimp only
  repeat' split
  all_goals simp (maxDischargeDepth := 9) +contextual [h0]

@[simp] theorem answerOk_execHintRecordWrite {s : State} (h : s.MemOk) (cls range dwords) :
    AnswerOk (execHintRecordWrite cls range dwords s) := by
  simp [execHintRecordWrite, h]

@[simp] theorem eventOk_evExportTableWrite {s : State} (h : s.MemOk) (pkg range dom rights present) :
    EventOk (evExportTableWrite pkg range dom rights present s) := by
  unfold evExportTableWrite
  dsimp only
  repeat' split
  all_goals simp (maxDischargeDepth := 9) [h]

@[simp] theorem answerOk_execExportTableWrite {s : State} (h : s.MemOk) (pkg range dom rights present) :
    AnswerOk (execExportTableWrite pkg range dom rights present s) := by
  simp [execExportTableWrite, h]

@[simp] theorem State.eventOk_placePage {s : State} (h : s.MemOk) (page) : EventOk (s.placePage page) := by
  simp (maxDischargeDepth := 9) [State.placePage, h]

@[simp] theorem eventOk_evImageStoreWrite {s : State} (h : s.MemOk) (ga body) : EventOk (evImageStoreWrite ga body s) := by
  unfold evImageStoreWrite
  dsimp only
  repeat' split
  · exact eventOk_none
  · exact eventOk_none
  · refine EventOk.map fun t ht => ?_
    have ht : t.MemOk := List.foldlRecOn (motive := EventOk) _ _ (eventOk_some.2 h)
      (fun o ho p _ => EventOk.bind fun u hu => State.eventOk_placePage (ho u hu) p) t ht
    exact State.memOk_foldl (State.memOk_with ht (by simp [ht])) _ fun u p hu => by simp [hu]

@[simp] theorem answerOk_execImageStoreWrite {s : State} (h : s.MemOk) (ga body) : AnswerOk (execImageStoreWrite ga body s) := by
  simp [execImageStoreWrite, h]

/-! ## Units -/

@[simp] theorem State.memOk_returnSpawns {s : State} (h : s.MemOk) (core) : (s.returnSpawns core).MemOk := by
  simp (maxDischargeDepth := 9) +contextual [State.returnSpawns, h]

@[simp] theorem Core.loseActors_mem (k : Core) : (k.loseActors).mem = k.mem := by simp [Core.loseActors]

@[simp] theorem State.memOk_withdrawCore {s : State} (h : s.MemOk) (core) : (s.withdrawCore core).MemOk := by
  simp (maxDischargeDepth := 9) [State.withdrawCore, h]

@[simp] theorem State.memOk_quarantine {s : State} (h : s.MemOk) (core) : (s.quarantine core).MemOk := by
  simp [State.quarantine, h]

@[simp] theorem State.memOk_dropReplicaOwner {s : State} (h : s.MemOk) (o page) : (s.dropReplicaOwner o page).MemOk := by
  unfold State.dropReplicaOwner
  split <;> simp (maxDischargeDepth := 9) [h]

@[simp] theorem State.memOk_losePages {s : State} (h : s.MemOk) (o) : (s.losePages o).MemOk := by
  unfold State.losePages
  refine State.memOk_foldl h _ fun t _ ht => ?_
  repeat' split
  all_goals simp [ht]

@[simp] theorem State.eventOk_flee {s : State} (h : s.MemOk) (o key q) : EventOk (s.flee o key q) := by
  refine List.foldlRecOn (motive := EventOk) _ _ (eventOk_some.2 h) fun o ho p _ => ?_
  refine EventOk.bind fun t ht => EventOk.bind fun x _ => ?_
  split
  · exact State.eventOk_startMigration (ho t ht) _ _ _
  · exact eventOk_none

@[simp] theorem State.memOk_unduplicate {s : State} (h : s.MemOk) (o key) : (s.unduplicate o key).MemOk := by
  unfold State.unduplicate
  split <;> simp (maxDischargeDepth := 9) +contextual [h]

@[simp] theorem State.memOk_leaveRange {s0 : State} (h : s0.MemOk) (o key) : (s0.leaveRange o key).MemOk := by
  unfold State.leaveRange
  extract_lets s1 s2 begun s3
  have h1 : s1.MemOk := State.memOk_foldl h _ fun t p ht => by split <;> simp [ht]
  have h2 : s2.MemOk := State.memOk_unduplicate h1 _ _
  have h3 : s3.MemOk := State.memOk_foldl h2 _ fun t m ht => State.memOk_giveUpMigration ht m
  clear_value s1 s2 s3
  split
  · rename_i t ht
    obtain ⟨m, -, hm⟩ := List.exists_of_findSome?_eq_some ht
    exact State.eventOk_flee h2 _ _ _ t hm
  split
  · rename_i t ht
    obtain ⟨q, -, hq⟩ := List.exists_of_findSome?_eq_some ht
    exact State.eventOk_flee h3 _ _ _ t hq
  · exact State.memOk_foldl h3 _ fun t p ht => State.memOk_losePage ht _ _

@[simp] theorem State.memOk_leavePages {s : State} (h : s.MemOk) (o) : (s.leavePages o).MemOk := by
  simp (maxDischargeDepth := 9) +contextual [State.leavePages, h]

@[simp] theorem State.memOk_withdrawMemoryCore {s : State} (h : s.MemOk) (core) : (s.withdrawMemoryCore core).MemOk := by
  simp (maxDischargeDepth := 9) [State.withdrawMemoryCore, h]

@[simp] theorem State.memOk_failCore {s : State} (h : s.MemOk) (core) : (s.failCore core).MemOk := by simp [State.failCore, h]

@[simp] theorem State.memOk_noteRecovery {s : State} (h : s.MemOk) (core) : (s.noteRecovery core).MemOk := by
  simp (maxDischargeDepth := 9) [State.noteRecovery, h]

@[simp] theorem eventOk_evCheckerReexecution {s : State} (h : s.MemOk) (core ts agrees) :
    EventOk (evCheckerReexecution core ts agrees s) := by
  simp (maxDischargeDepth := 9) [evCheckerReexecution, h]

@[simp] theorem answerOk_execCheckerReexecution {s : State} (h : s.MemOk) (core ts agrees) :
    AnswerOk (execCheckerReexecution core ts agrees s) := by
  simp [execCheckerReexecution, h]

@[simp] theorem eventOk_evCoreQuarantine {s : State} (h : s.MemOk) (core) : EventOk (evCoreQuarantine core s) := by
  simp [evCoreQuarantine, h]

@[simp] theorem answerOk_execCoreQuarantine {s : State} (h : s.MemOk) (core) : AnswerOk (execCoreQuarantine core s) := by
  simp [execCoreQuarantine, h]

@[simp] theorem eventOk_evMatrixWithdrawal {s : State} (h : s.MemOk) (core) : EventOk (evMatrixWithdrawal core s) := by
  simp (maxDischargeDepth := 9) [evMatrixWithdrawal, h]

@[simp] theorem answerOk_execMatrixWithdrawal {s : State} (h : s.MemOk) (core) : AnswerOk (execMatrixWithdrawal core s) := by
  simp [execMatrixWithdrawal, h]

@[simp] theorem eventOk_evMemoryCoreWithdrawal {s : State} (h : s.MemOk) (core) : EventOk (evMemoryCoreWithdrawal core s) := by
  simp [evMemoryCoreWithdrawal, h]

@[simp] theorem answerOk_execMemoryCoreWithdrawal {s : State} (h : s.MemOk) (core) : AnswerOk (execMemoryCoreWithdrawal core s) := by
  simp [execMemoryCoreWithdrawal, h]

@[simp] theorem eventOk_evClusterWithdrawal {s : State} (h : s.MemOk) (eng) : EventOk (evClusterWithdrawal eng s) := by
  simp (maxDischargeDepth := 9) +contextual [evClusterWithdrawal, h]

@[simp] theorem answerOk_execClusterWithdrawal {s : State} (h : s.MemOk) (eng) : AnswerOk (execClusterWithdrawal eng s) := by
  simp [execClusterWithdrawal, h]

/-! ## Losses of packages -/

@[simp] theorem State.memOk_portMode {s : State} (h : s.MemOk) (pkg port q) : (s.portMode pkg port q).MemOk := by
  simp [State.portMode, h]

@[simp] theorem eventOk_evLinkModeChange {s : State} (h : s.MemOk) (pkg port mode) : EventOk (evLinkModeChange pkg port mode s) := by
  simp (maxDischargeDepth := 9) [evLinkModeChange, h]

@[simp] theorem answerOk_execLinkModeChange {s : State} (h : s.MemOk) (pkg port mode) : AnswerOk (execLinkModeChange pkg port mode s) := by
  simp [execLinkModeChange, h]

@[simp] theorem eventOk_evLinkHeartbeat {s : State} (h : s.MemOk) (pkg port answered) : EventOk (evLinkHeartbeat pkg port answered s) := by
  simp (maxDischargeDepth := 9) [evLinkHeartbeat, h]

@[simp] theorem answerOk_execLinkHeartbeat {s : State} (h : s.MemOk) (pkg port answered) :
    AnswerOk (execLinkHeartbeat pkg port answered s) := by
  simp [execLinkHeartbeat, h]

@[simp] theorem State.memOk_chipLost {s : State} (h : s.MemOk) (pkg die kind dst inc ref subject sinc core rrec) :
    (s.chipLost pkg die kind dst inc ref subject sinc core rrec).MemOk := h

@[simp] theorem State.memOk_chipLostLinks {s : State} (h : s.MemOk) (lost core) : (s.chipLostLinks lost core).MemOk := by
  simp (maxDischargeDepth := 9) +contextual [State.chipLostLinks, h]

@[simp] theorem State.memOk_chipLostGw {s : State} (h : s.MemOk) (lost pkg) : (s.chipLostGw lost pkg).MemOk := by
  simp (maxDischargeDepth := 9) +contextual [State.chipLostGw, h]

@[simp] theorem State.memOk_chipLostChildren {s : State} (h : s.MemOk) (lost) : (s.chipLostChildren lost).MemOk := by
  unfold State.chipLostChildren
  refine State.memOk_foldl h _ fun t _ ht => ?_
  repeat' split
  all_goals simp [ht]

@[simp] theorem State.memOk_chipLostNames {s : State} (h : s.MemOk) (lost) : (s.chipLostNames lost).MemOk := by
  simp (maxDischargeDepth := 9) +contextual [State.chipLostNames, h]

@[simp] theorem Core.wf_loseOwners {k : Core} (hk : k.mem.wf = true) (lost) : (k.loseOwners lost).mem.wf = true := by
  simp (maxDischargeDepth := 9) +contextual [Core.loseOwners, hk]

@[simp] theorem State.memOk_dropLostCores {s : State} (h : s.MemOk) (lost) : (s.dropLostCores lost).MemOk := by
  simp [State.dropLostCores, h]

@[simp] theorem Core.resendLost_mem (k : Core) (lost) : (k.resendLost lost).mem = k.mem := by simp [Core.resendLost]

@[simp] theorem State.memOk_loseBursts {s : State} (h : s.MemOk) (lost eng) : (s.loseBursts lost eng).MemOk := by
  simp (maxDischargeDepth := 9) +contextual [State.loseBursts, h]

@[simp] theorem State.memOk_returnReserved {s : State} (h : s.MemOk) (lost) : (s.returnReserved lost).MemOk := by
  unfold State.returnReserved
  refine State.memOk_foldl h _ fun t _ ht => ?_
  repeat' split
  all_goals simp (maxDischargeDepth := 9) [ht]

@[simp] theorem State.memOk_loseRanges {s : State} (h : s.MemOk) (lost) : (s.loseRanges lost).MemOk := by
  simp (maxDischargeDepth := 9) +contextual [State.loseRanges, h]

@[simp] theorem State.memOk_loseSlots {s : State} (h : s.MemOk) : (s.loseSlots).MemOk := by
  simp (maxDischargeDepth := 9) [State.loseSlots, h]

@[simp] theorem State.memOk_losePackage {s : State} (h : s.MemOk) (lost) : (s.losePackage lost).MemOk := by
  unfold State.losePackage
  extract_lets detects live engs pkgs s1 s2 s3 s4 s5 s6 s7
  have h1 : s1.MemOk := ⟨h.1, h.2⟩
  have h2 : s2.MemOk := State.memOk_foldl h1 _ fun t c ht => State.memOk_chipLostLinks ht _ _
  have h3 : s3.MemOk := State.memOk_chipLostChildren (State.memOk_foldl h2 _ fun t p ht => State.memOk_chipLostGw ht _ _) _
  have h4 : s4.MemOk := State.memOk_returnReserved h3 _
  have h5 : s5.MemOk := ⟨h4.1, h4.2⟩
  have h6 : s6.MemOk := State.memOk_dropLostCores (State.memOk_loseRanges (State.memOk_chipLostNames h5 _) _) _
  have h7 : s7.MemOk := State.memOk_foldl h6 _ fun t c ht => State.memOk_onCore ht (by simp [ht])
  exact State.memOk_loseSlots (State.memOk_foldl h7 _ fun t e ht => State.memOk_loseBursts ht _ _)

@[simp] theorem eventOk_evPackageLost {s : State} (h : s.MemOk) (lost) : EventOk (evPackageLost lost s) := by
  simp (maxDischargeDepth := 9) [evPackageLost, h]

@[simp] theorem answerOk_execPackageLost {s : State} (h : s.MemOk) (lost) : AnswerOk (execPackageLost lost s) := by
  simp [execPackageLost, h]

@[simp] theorem State.memOk_remap {s : State} (h : s.MemOk) (lost) : (s.remap lost).MemOk := h

@[simp] theorem eventOk_evDirectoryMapUpdate {s : State} (h : s.MemOk) (lost) : EventOk (evDirectoryMapUpdate lost s) := by
  simp (maxDischargeDepth := 9) +contextual [evDirectoryMapUpdate, h]

@[simp] theorem answerOk_execDirectoryMapUpdate {s : State} (h : s.MemOk) (lost) : AnswerOk (execDirectoryMapUpdate lost s) := by
  simp [execDirectoryMapUpdate, h]

/-! ## The host port -/

theorem State.memOk_of_frameIn {s : State} (h : s.MemOk) {pkg cls hd frames r} (hr : s.frameIn pkg cls hd frames = some r) : r.2.MemOk := by
  unfold State.frameIn at hr
  dsimp only at hr
  split at hr
  · cases hr
  · obtain ⟨c, -, hc⟩ := Option.bind_eq_some_iff.1 hr
    split at hc
    · cases hc
    · cases hc
      simp (maxDischargeDepth := 9) [h]

@[simp] theorem eventOk_evConnectionOpen {s : State} (h : s.MemOk) (pkg conn dom) : EventOk (evConnectionOpen pkg conn dom s) := by
  simp (maxDischargeDepth := 9) [evConnectionOpen, h]

@[simp] theorem answerOk_execConnectionOpen {s : State} (h : s.MemOk) (pkg conn dom) : AnswerOk (execConnectionOpen pkg conn dom s) := by
  simp [execConnectionOpen, h]

@[simp] theorem eventOk_evConnectionClose {s : State} (h : s.MemOk) (pkg conn byHost) : EventOk (evConnectionClose pkg conn byHost s) := by
  simp (maxDischargeDepth := 9) [evConnectionClose, h]

@[simp] theorem answerOk_execConnectionClose {s : State} (h : s.MemOk) (pkg conn byHost) :
    AnswerOk (execConnectionClose pkg conn byHost s) := by
  simp [execConnectionClose, h]

@[simp] theorem State.memOk_createFlock {s : State} (h : s.MemOk) (pkg n f mx) : (s.createFlock pkg n f mx).MemOk := by
  simp (maxDischargeDepth := 9) +contextual [State.createFlock, h]

@[simp] theorem State.memOk_launchReply {s : State} (h : s.MemOk) (pkg conn code n) : (s.launchReply pkg conn code n).MemOk := by
  simp [State.launchReply, h]

@[simp] theorem eventOk_evLaunch {s : State} (h : s.MemOk) (pkg hd hdr flock) : EventOk (evLaunch pkg hd hdr flock s) := by
  unfold evLaunch
  split
  · exact eventOk_none
  · have hf := s.memOk_of_frameIn h ‹_›
    dsimp only
    repeat' split
    all_goals simp (maxDischargeDepth := 9) [show State.MemOk _ from hf]

@[simp] theorem answerOk_execLaunch {s : State} (h : s.MemOk) (pkg hd hdr flock) : AnswerOk (execLaunch pkg hd hdr flock s) := by
  simp [execLaunch, h]

@[simp] theorem eventOk_evHostMessage {s : State} (h : s.MemOk) (pkg hd dst arg msg) : EventOk (evHostMessage pkg hd dst arg msg s) :=
  EventOk.map fun _ hq => State.memOk_post (s.memOk_of_frameIn h hq) _ _

@[simp] theorem answerOk_execHostMessage {s : State} (h : s.MemOk) (pkg hd dst arg msg) :
    AnswerOk (execHostMessage pkg hd dst arg msg s) := by
  simp [execHostMessage, h]

@[simp] theorem eventOk_evHostParcel {s : State} (h : s.MemOk) (pkg hd dst arg tag body) :
    EventOk (evHostParcel pkg hd dst arg tag body s) := by
  unfold evHostParcel
  split
  · exact eventOk_none
  · exact EventOk.map fun q hq => State.memOk_sendBody (s.memOk_of_frameIn h hq) ..

@[simp] theorem answerOk_execHostParcel {s : State} (h : s.MemOk) (pkg hd dst arg tag body) :
    AnswerOk (execHostParcel pkg hd dst arg tag body s) := by
  simp [execHostParcel, h]

@[simp] theorem eventOk_evHostRetransmit {s : State} (h : s.MemOk) (pkg conn) : EventOk (evHostRetransmit pkg conn s) := by
  unfold evHostRetransmit
  dsimp only
  repeat' split
  all_goals simp [h]

@[simp] theorem answerOk_execHostRetransmit {s : State} (h : s.MemOk) (pkg conn) : AnswerOk (execHostRetransmit pkg conn s) := by
  simp [execHostRetransmit, h]

@[simp] theorem eventOk_evGrantRequest {s : State} (h : s.MemOk) (pkg hd dom die cluster adds) :
    EventOk (evGrantRequest pkg hd dom die cluster adds s) := by
  unfold evGrantRequest
  split
  · exact eventOk_none
  · have hf := s.memOk_of_frameIn h ‹_›
    dsimp only
    repeat' split
    all_goals simp (maxDischargeDepth := 9) [show State.MemOk _ from hf]

@[simp] theorem answerOk_execGrantRequest {s : State} (h : s.MemOk) (pkg hd dom die cluster adds) :
    AnswerOk (execGrantRequest pkg hd dom die cluster adds s) := by
  simp [execGrantRequest, h]

/-! ## The firmware -/

@[simp] theorem State.memOk_clearPackage {s : State} (h : s.MemOk) (pkg) : (s.clearPackage pkg).MemOk :=
  ⟨Memory.wf_filter h.1 _, fun p hp => h.2 p (List.mem_of_mem_filter hp)⟩

@[simp] theorem State.memOk_keepLost {s : State} (h : s.MemOk) (pkg) : (s.keepLost pkg).MemOk := by
  unfold State.keepLost
  refine State.memOk_foldl h _ fun t _ ht => ?_
  repeat' split
  all_goals simp +contextual [ht]

@[simp] theorem State.memOk_resetPackage {s : State} (h : s.MemOk) (pkg) : (s.resetPackage pkg).MemOk := by
  unfold State.resetPackage
  dsimp only
  split
  · exact ⟨Memory.wf_filter h.1 _, fun _ hp => absurd hp List.not_mem_nil⟩
  · refine State.memOk_onPkg (State.memOk_keepLost (State.memOk_clearPackage (State.memOk_foldl ?_ _ fun t p ht => by simp [ht]) _) _) _ _
    split <;> simp (maxDischargeDepth := 9) [h]

theorem State.eventOk_onPin {s : State} (h : s.MemOk) (pkg pin) {act : State → State} (ha : ∀ t, t.MemOk → (act t).MemOk) :
    EventOk (s.onPin pkg pin act) := by
  unfold State.onPin; dsimp only; repeat' split
  all_goals simp (maxDischargeDepth := 9) [h, ha]

@[simp] theorem eventOk_evPackageReset {s : State} (h : s.MemOk) (pkg) : EventOk (evPackageReset pkg s) := by
  unfold evPackageReset
  repeat' split
  · exact eventOk_none
  · simp [h]
  · exact State.eventOk_onPin h _ _ fun t ht => State.memOk_resetPackage ht pkg

@[simp] theorem answerOk_execPackageReset {s : State} (h : s.MemOk) (pkg) : AnswerOk (execPackageReset pkg s) := by
  simp [execPackageReset, h]

@[simp] theorem eventOk_evResetFrame {s : State} (h : s.MemOk) (pkg hd) : EventOk (evResetFrame pkg hd s) :=
  EventOk.map fun q hq => by
    have := s.memOk_of_frameIn h hq
    split <;> simp [this]

@[simp] theorem answerOk_execResetFrame {s : State} (h : s.MemOk) (pkg hd) : AnswerOk (execResetFrame pkg hd s) := by
  simp [execResetFrame, h]

@[simp] theorem eventOk_evReady {s : State} (h : s.MemOk) (pkg) : EventOk (evReady pkg s) := by
  simp (maxDischargeDepth := 9) [evReady, h]

@[simp] theorem answerOk_execReady {s : State} (h : s.MemOk) (pkg) : AnswerOk (execReady pkg s) := by simp [execReady, h]

@[simp] theorem eventOk_evRecoveryImage {s : State} (h : s.MemOk) (pkg img) : EventOk (evRecoveryImage pkg img s) := by
  simp [evRecoveryImage, h]

@[simp] theorem answerOk_execRecoveryImage {s : State} (h : s.MemOk) (pkg img) : AnswerOk (execRecoveryImage pkg img s) := by
  simp [execRecoveryImage, h]

@[simp] theorem eventOk_evFreeze {s : State} (h : s.MemOk) (pkg) : EventOk (evFreeze pkg s) := by
  unfold evFreeze
  split
  · exact eventOk_none
  · exact State.eventOk_onPin h _ _ fun t ht => State.memOk_onPkg ht _ _

@[simp] theorem answerOk_execFreeze {s : State} (h : s.MemOk) (pkg) : AnswerOk (execFreeze pkg s) := by simp [execFreeze, h]

@[simp] theorem eventOk_evFreezeRelease {s : State} (h : s.MemOk) (pkg) : EventOk (evFreezeRelease pkg s) := by
  unfold evFreezeRelease
  split
  · exact State.eventOk_onPin h _ _ fun t ht => State.memOk_onPkg ht _ _
  · exact eventOk_none

@[simp] theorem answerOk_execFreezeRelease {s : State} (h : s.MemOk) (pkg) : AnswerOk (execFreezeRelease pkg s) := by
  simp [execFreezeRelease, h]

@[simp] theorem eventOk_evDebugUnlock {s : State} (h : s.MemOk) (pkg token signed) : EventOk (evDebugUnlock pkg token signed s) := by
  simp (maxDischargeDepth := 9) [evDebugUnlock, h]

@[simp] theorem answerOk_execDebugUnlock {s : State} (h : s.MemOk) (pkg token signed) : AnswerOk (execDebugUnlock pkg token signed s) := by
  simp [execDebugUnlock, h]

@[simp] theorem eventOk_evReplacementRequest {s : State} (h : s.MemOk) (pkg dom img) : EventOk (evReplacementRequest pkg dom img s) := by
  unfold evReplacementRequest
  dsimp only
  repeat' split
  all_goals simp [h]

@[simp] theorem answerOk_execReplacementRequest {s : State} (h : s.MemOk) (pkg dom img) :
    AnswerOk (execReplacementRequest pkg dom img s) := by
  simp [execReplacementRequest, h]

@[simp] theorem eventOk_evReplacementActivate {s : State} (h : s.MemOk) (pkg) : EventOk (evReplacementActivate pkg s) := by
  unfold evReplacementActivate
  dsimp only
  repeat' split
  all_goals simp [h]

@[simp] theorem answerOk_execReplacementActivate {s : State} (h : s.MemOk) (pkg) : AnswerOk (execReplacementActivate pkg s) := by
  simp [execReplacementActivate, h]

@[simp] theorem eventOk_evHubWatchdogWrite {s : State} (h : s.MemOk) (pkg) : EventOk (evHubWatchdogWrite pkg s) := by
  unfold evHubWatchdogWrite
  dsimp only
  split <;> simp [h]

@[simp] theorem answerOk_execHubWatchdogWrite {s : State} (h : s.MemOk) (pkg) : AnswerOk (execHubWatchdogWrite pkg s) := by
  simp [execHubWatchdogWrite, h]

@[simp] theorem State.memOk_grantsBack {s : State} (h : s.MemOk) (pkg was) : (s.grantsBack pkg was).MemOk := by
  simp (maxDischargeDepth := 9) +contextual [State.grantsBack, h]

@[simp] theorem eventOk_evRevert {s : State} (h : s.MemOk) (pkg) : EventOk (evRevert pkg s) := by
  unfold evRevert
  dsimp only
  split <;> simp (maxDischargeDepth := 9) [h]

@[simp] theorem answerOk_execRevert {s : State} (h : s.MemOk) (pkg) : AnswerOk (execRevert pkg s) := by simp [execRevert, h]

@[simp] theorem eventOk_evReplacementCommit {s : State} (h : s.MemOk) (pkg) : EventOk (evReplacementCommit pkg s) := by
  unfold evReplacementCommit
  dsimp only
  repeat' split
  all_goals simp (maxDischargeDepth := 9) [h]

@[simp] theorem answerOk_execReplacementCommit {s : State} (h : s.MemOk) (pkg) : AnswerOk (execReplacementCommit pkg s) := by
  simp [execReplacementCommit, h]

/-! ## Power -/

@[simp] theorem Core.halted_mem (k : Core) : (k.halted).mem = k.mem := by simp [Core.halted]

@[simp] theorem State.memOk_powerFail {s : State} (h : s.MemOk) (pkg) : (s.powerFail pkg).MemOk := by
  simp (maxDischargeDepth := 9) [State.powerFail, h]

@[simp] theorem eventOk_evPowerFailTrap {s : State} (h : s.MemOk) (pkg) : EventOk (evPowerFailTrap pkg s) := by
  simp [evPowerFailTrap, h]

@[simp] theorem answerOk_execPowerFailTrap {s : State} (h : s.MemOk) (pkg) : AnswerOk (execPowerFailTrap pkg s) := by
  simp [execPowerFailTrap, h]

@[simp] theorem State.memOk_throttlePorts {s : State} (h : s.MemOk) (pkg narrow) : (s.throttlePorts pkg narrow).MemOk := by
  simp (maxDischargeDepth := 9) +contextual [State.throttlePorts, h]

@[simp] theorem State.memOk_stepReached {s : State} (h : s.MemOk) (pkg) : (s.stepReached pkg).MemOk := by
  unfold State.stepReached
  dsimp only
  split <;> simp (maxDischargeDepth := 9) [h]

@[simp] theorem eventOk_evPowerSample {s : State} (h : s.MemOk) (pkg readings) : EventOk (evPowerSample pkg readings s) := by
  simp (maxDischargeDepth := 9) [evPowerSample, h]

@[simp] theorem answerOk_execPowerSample {s : State} (h : s.MemOk) (pkg readings) : AnswerOk (execPowerSample pkg readings s) := by
  simp [execPowerSample, h]

@[simp] theorem State.memOk_acceptStep {s : State} (h : s.MemOk) (pkg prev frame) : (s.acceptStep pkg prev frame).MemOk := by
  simp (maxDischargeDepth := 9) [State.acceptStep, h]

@[simp] theorem eventOk_evPowerStep {s : State} (h : s.MemOk) (pkg pins) : EventOk (evPowerStep pkg pins s) := by
  simp (maxDischargeDepth := 9) [evPowerStep, h]

@[simp] theorem answerOk_execPowerStep {s : State} (h : s.MemOk) (pkg pins) : AnswerOk (execPowerStep pkg pins s) := by
  simp [execPowerStep, h]

@[simp] theorem eventOk_evPowerStepFrame {s : State} (h : s.MemOk) (pkg hd arg) : EventOk (evPowerStepFrame pkg hd arg s) :=
  EventOk.map fun q hq => by
    have := s.memOk_of_frameIn h hq
    split <;> simp (maxDischargeDepth := 9) [this]

@[simp] theorem answerOk_execPowerStepFrame {s : State} (h : s.MemOk) (pkg hd arg) : AnswerOk (execPowerStepFrame pkg hd arg s) := by
  simp [execPowerStepFrame, h]

/-! ## Cairns -/

@[simp] theorem State.memOk_cairnReply {s : State} (h : s.MemOk) (pkg to_ chan words) : (s.cairnReply pkg to_ chan words).MemOk := h

@[simp] theorem eventOk_evCairnTake {s : State} (h : s.MemOk) (n) : EventOk (evCairnTake n s) := by
  refine EventOk.bind fun q hq => ?_
  have := s.memOk_of_request h hq
  dsimp only
  repeat' split
  all_goals simp (maxDischargeDepth := 9) [this]

@[simp] theorem answerOk_execCairnTake {s : State} (h : s.MemOk) (n) : AnswerOk (execCairnTake n s) := by simp [execCairnTake, h]

@[simp] theorem State.memOk_markDomain {s : State} (h : s.MemOk) (dom) : (s.markDomain dom).MemOk := by
  simp (maxDischargeDepth := 9) +contextual [State.markDomain, h]

@[simp] theorem eventOk_evCairnMark {s : State} (h : s.MemOk) (pkg dom) : EventOk (evCairnMark pkg dom s) := by
  unfold evCairnMark
  dsimp only
  split <;> simp (maxDischargeDepth := 9) [h]

@[simp] theorem answerOk_execCairnMark {s : State} (h : s.MemOk) (pkg dom) : AnswerOk (execCairnMark pkg dom s) := by
  simp [execCairnMark, h]

@[simp] theorem eventOk_evCowGranuleCopy {s : State} (h : s.MemOk) (core granule) : EventOk (evCowGranuleCopy core granule s) := by
  simp (maxDischargeDepth := 9) [evCowGranuleCopy, h]

@[simp] theorem answerOk_execCowGranuleCopy {s : State} (h : s.MemOk) (core granule) : AnswerOk (execCowGranuleCopy core granule s) := by
  simp [execCowGranuleCopy, h]

@[simp] theorem State.memOk_copyPage {s : State} (h : s.MemOk) (o page) : (s.copyPage o page).MemOk := by simp [State.copyPage, h]

@[simp] theorem eventOk_evCowPageService {s : State} (h : s.MemOk) (owner page) : EventOk (evCowPageService owner page s) := by
  simp [evCowPageService, h]

@[simp] theorem answerOk_execCowPageService {s : State} (h : s.MemOk) (owner page) : AnswerOk (execCowPageService owner page s) := by
  simp [execCowPageService, h]

@[simp] theorem State.memOk_streamShard {s : State} (h : s.MemOk) (c i) : (s.streamShard c i).MemOk := by
  unfold State.streamShard
  repeat' split
  all_goals simp (maxDischargeDepth := 9) +contextual [h]

@[simp] theorem eventOk_evCairnManifest {s : State} (h : s.MemOk) (pkg dom) : EventOk (evCairnManifest pkg dom s) := by
  unfold evCairnManifest
  dsimp only
  split <;> simp (maxDischargeDepth := 9) [h]

@[simp] theorem answerOk_execCairnManifest {s : State} (h : s.MemOk) (pkg dom) : AnswerOk (execCairnManifest pkg dom s) := by
  simp [execCairnManifest, h]

@[simp] theorem Core.wf_restored {k : Core} (hk : k.mem.wf = true) (c0) : (k.restored c0).mem.wf = true :=
  List.foldlRecOn (motive := fun m : Memory => m.wf = true) _ _ hk fun _ hm p _ => Memory.wf_write hm p.1 p.2

@[simp] theorem State.memOk_resendShard {s : State} (h : s.MemOk) (core c) : (s.resendShard core c).MemOk := by
  simp +contextual [State.resendShard, h]

@[simp] theorem State.memOk_replayShard {s : State} (h : s.MemOk) (core c) : (s.replayShard core c).MemOk := by
  simp +contextual [State.replayShard, h]

@[simp] theorem State.memOk_restoreName {s : State} (h : s.MemOk) (moved e) : (s.restoreName moved e).MemOk := by
  unfold State.restoreName
  split <;> simp [h]

@[simp] theorem State.eventOk_restorePage {s : State} (h : s.MemOk) (moved p) : EventOk (s.restorePage moved p) := by
  unfold State.restorePage
  split
  · exact eventOk_none
  rename_i w o _
  dsimp only
  split
  · exact eventOk_none
  rename_i f s0 hf
  have h0 : s0.MemOk := by
    split at hf
    · cases hf
    · obtain ⟨f, -, hf⟩ := Option.bind_eq_some_iff.1 hf
      obtain ⟨t, ht, hf⟩ := Option.map_eq_some_iff.1 hf
      cases hf
      exact s.eventOk_bindKey h _ _ _ ht
  refine EventOk.foldl (eventOk_some.2 ?_) _ fun t i ht => ?_
  · refine State.memOk_with (State.memOk_mapFresh (State.memOk_ite (fun _ => State.memOk_emptyPage h0 _ _) fun _ => h0) ..) ?_
    refine List.foldlRecOn (motive := fun m : Memory => m.wf = true) _ _ (State.wf_gmem (State.memOk_mapFresh ?_ ..)) fun m hm c _ => Memory.wf_write hm c.1 c.2
    exact State.memOk_ite (fun _ => State.memOk_emptyPage h0 _ _) fun _ => h0
  · split
    · exact eventOk_none
    · exact eventOk_some.2 (by simp [ht])

@[simp] theorem State.eventOk_restorePages {s : State} (h : s.MemOk) (moved l) : EventOk (s.restorePages moved l) :=
  EventOk.foldl (eventOk_some.2 h) l fun _ p ht => State.eventOk_restorePage ht moved p

theorem State.memOk_of_placeShards {s : State} (h : s.MemOk) {dom cs r} (hr : s.placeShards dom cs = some r) : r.2.MemOk := by
  refine List.foldlRecOn (motive := fun o : Option (List (Nat × Nat × Nat) × State) => ∀ r, o = some r → r.2.MemOk) cs _
    (fun r e => by cases e; exact h) (fun o ho c _ r e => ?_) r hr
  obtain ⟨q, hq, hc⟩ := Option.bind_eq_some_iff.1 e
  obtain ⟨core, -, rfl⟩ := Option.map_eq_some_iff.1 hc
  simp (maxDischargeDepth := 9) [ho q hq]

@[simp] theorem State.eventOk_restoreCairn {s : State} (h : s.MemOk) (c) : EventOk (s.restoreCairn c) := by
  refine EventOk.bind fun q hq => EventOk.map fun t ht => ?_
  have hp := State.memOk_of_placeShards h hq
  have h2 := State.eventOk_restorePages (State.memOk_foldl (State.memOk_with hp hp.1) _ fun t e ht => State.memOk_restoreName ht _ _) _ _ t ht
  exact State.memOk_foldl h2 _ fun t p ht => by simp [ht]

@[simp] theorem eventOk_evCairnRestore {s : State} (h : s.MemOk) (n) : EventOk (evCairnRestore n s) := by
  refine EventOk.bind fun q hq => ?_
  have hr := s.memOk_of_request h hq
  dsimp only
  split
  · exact eventOk_none
  split
  · simp [hr]
  split
  · simp [hr]
  split
  · rename_i t ht
    have ht := State.eventOk_restoreCairn hr _ _ ht
    simp [ht]
  · simp [hr]

@[simp] theorem answerOk_execCairnRestore {s : State} (h : s.MemOk) (n) : AnswerOk (execCairnRestore n s) := by
  simp [execCairnRestore, h]

@[simp] theorem Core.wf_cutCopies {k : Core} (hk : k.mem.wf = true) (slot now serial) : (k.cutCopies slot now serial).mem.wf = true := by
  simp +contextual [Core.cutCopies, hk]

@[simp] theorem State.memOk_reviveCore {s : State} (h : s.MemOk) (c core delta cairn omitted) :
    (s.reviveCore c core delta cairn omitted).MemOk := by
  unfold State.reviveCore
  extract_lets mems snap first s1 s2
  have h1 : s1.MemOk := by
    refine State.memOk_onCore h (Core.wf_foldl ?_ _ fun q p hq => by simp [hq])
    exact Core.wf_foldl (by simp [h]) _ fun q b hq => Memory.wf_write hq _ _
  have h2 : s2.MemOk := State.memOk_replayShard (State.memOk_with h1 h1.1) _ _
  exact State.memOk_foldl h2 _ fun t p ht => by simp [ht]

@[simp] theorem State.eventOk_restoreImage {s : State} (h : s.MemOk) (pkg i dom) : EventOk (s.restoreImage pkg i dom) := by
  unfold State.restoreImage
  extract_lets cs cairn delta s1 s2
  split
  · exact eventOk_none
  have h1 : s1.MemOk := ⟨h.1, h.2⟩
  have h2 : s2.MemOk := State.memOk_foldl h1 _ fun t e ht => State.memOk_restoreName ht _ _
  exact EventOk.map fun s3 h3 => State.memOk_foldl (State.eventOk_restorePages h2 _ _ s3 h3) _ fun t c ht => State.memOk_reviveCore ht _ _ _ _ _

@[simp] theorem eventOk_evPowerFailRestore {s : State} (h : s.MemOk) (n) : EventOk (evPowerFailRestore n s) := by
  refine EventOk.bind fun q hq => ?_
  have hr := s.memOk_of_request h hq
  dsimp only
  split
  · exact eventOk_none
  split
  · simp [hr]
  split
  · simp [hr]
  split
  · rename_i t ht
    have ht := State.eventOk_restoreImage hr _ _ _ _ ht
    simp [ht]
  · simp [hr]

@[simp] theorem answerOk_execPowerFailRestore {s : State} (h : s.MemOk) (n) : AnswerOk (execPowerFailRestore n s) := by
  simp [execPowerFailRestore, h]

@[simp] theorem eventOk_evPowerFailDiscard {s : State} (h : s.MemOk) (n) : EventOk (evPowerFailDiscard n s) := by
  refine EventOk.map fun q hq => ?_
  have hr := s.memOk_of_request h hq
  dsimp only
  split <;> simp (maxDischargeDepth := 9) [hr]

@[simp] theorem answerOk_execPowerFailDiscard {s : State} (h : s.MemOk) (n) : AnswerOk (execPowerFailDiscard n s) := by
  simp [execPowerFailDiscard, h]

@[simp] theorem eventOk_evControlImageWindowExpiry {s : State} (h : s.MemOk) (pkg) : EventOk (evControlImageWindowExpiry pkg s) := by
  unfold evControlImageWindowExpiry
  split <;> simp [h]

@[simp] theorem answerOk_execControlImageWindowExpiry {s : State} (h : s.MemOk) (pkg) : AnswerOk (execControlImageWindowExpiry pkg s) := by
  simp [execControlImageWindowExpiry, h]

end Sys2Proof.Machine
end

section
/-! SUPPORT. The canonical form of every memory: the instructions and the turns keep it. -/

namespace Sys2Proof.Machine

/-! ## Commons instructions -/

@[simp] theorem answerOk_commons {s : State} (h : s.MemOk) (op size d a srcs dest ops) :
    AnswerOk (commons op size d a srcs dest ops s) := by
  simp [commons, h]

@[simp] theorem answerOk_execCld {s : State} (h : s.MemOk) (d a) : AnswerOk (execCld d a s) := by simp [execCld, h]
@[simp] theorem answerOk_execCldGe {s : State} (h : s.MemOk) (d a b) : AnswerOk (execCldGe d a b s) := by simp [execCldGe, h]
@[simp] theorem answerOk_execCldEq {s : State} (h : s.MemOk) (d a b) : AnswerOk (execCldEq d a b s) := by simp [execCldEq, h]
@[simp] theorem answerOk_execCldAcq {s : State} (h : s.MemOk) (d a b) : AnswerOk (execCldAcq d a b s) := by simp [execCldAcq, h]
@[simp] theorem answerOk_execCver {s : State} (h : s.MemOk) (d a) : AnswerOk (execCver d a s) := by simp [execCver, h]
@[simp] theorem answerOk_execCstB {s : State} (h : s.MemOk) (t a) : AnswerOk (execCstB t a s) := by simp [execCstB, h]
@[simp] theorem answerOk_execCstH {s : State} (h : s.MemOk) (t a) : AnswerOk (execCstH t a s) := by simp [execCstH, h]
@[simp] theorem answerOk_execCstW {s : State} (h : s.MemOk) (t a) : AnswerOk (execCstW t a s) := by simp [execCstW, h]
@[simp] theorem answerOk_execCstD {s : State} (h : s.MemOk) (t a) : AnswerOk (execCstD t a s) := by simp [execCstD, h]
@[simp] theorem answerOk_execCstNl {s : State} (h : s.MemOk) (t a) : AnswerOk (execCstNl t a s) := by simp [execCstNl, h]
@[simp] theorem answerOk_execCstNh {s : State} (h : s.MemOk) (t a) : AnswerOk (execCstNh t a s) := by simp [execCstNh, h]
@[simp] theorem answerOk_execCstRel {s : State} (h : s.MemOk) (t a) : AnswerOk (execCstRel t a s) := by simp [execCstRel, h]
@[simp] theorem answerOk_execCaadd {s : State} (h : s.MemOk) (d a b) : AnswerOk (execCaadd d a b s) := by simp [execCaadd, h]
@[simp] theorem answerOk_execCamin {s : State} (h : s.MemOk) (d a b) : AnswerOk (execCamin d a b s) := by simp [execCamin, h]
@[simp] theorem answerOk_execCamax {s : State} (h : s.MemOk) (d a b) : AnswerOk (execCamax d a b s) := by simp [execCamax, h]
@[simp] theorem answerOk_execCaminu {s : State} (h : s.MemOk) (d a b) : AnswerOk (execCaminu d a b s) := by simp [execCaminu, h]
@[simp] theorem answerOk_execCamaxu {s : State} (h : s.MemOk) (d a b) : AnswerOk (execCamaxu d a b s) := by simp [execCamaxu, h]
@[simp] theorem answerOk_execCaand {s : State} (h : s.MemOk) (d a b) : AnswerOk (execCaand d a b s) := by simp [execCaand, h]
@[simp] theorem answerOk_execCaor {s : State} (h : s.MemOk) (d a b) : AnswerOk (execCaor d a b s) := by simp [execCaor, h]
@[simp] theorem answerOk_execCaxor {s : State} (h : s.MemOk) (d a b) : AnswerOk (execCaxor d a b s) := by simp [execCaxor, h]
@[simp] theorem answerOk_execCaswap {s : State} (h : s.MemOk) (d a b) : AnswerOk (execCaswap d a b s) := by simp [execCaswap, h]
@[simp] theorem answerOk_execCafadd {s : State} (h : s.MemOk) (d a b) : AnswerOk (execCafadd d a b s) := by simp [execCafadd, h]
@[simp] theorem answerOk_execCacas {s : State} (h : s.MemOk) (d a b) : AnswerOk (execCacas d a b s) := by simp [execCacas, h]

@[simp] theorem answerOk_execCdefer {s : State} (h : s.MemOk) (d a b c) : AnswerOk (execCdefer d a b c s) := by
  simp [execCdefer, h]

@[simp] theorem answerOk_execCrecl {s : State} (h : s.MemOk) (a b) : AnswerOk (execCrecl a b s) := by simp [execCrecl, h]
@[simp] theorem answerOk_execCreclR {s : State} (h : s.MemOk) (d a b) : AnswerOk (execCreclR d a b s) := by simp [execCreclR, h]
@[simp] theorem answerOk_execCarm {s : State} (h : s.MemOk) (d a c) : AnswerOk (execCarm d a c s) := by simp [execCarm, h]
@[simp] theorem answerOk_execCdisarm {s : State} (h : s.MemOk) (d a) : AnswerOk (execCdisarm d a s) := by simp [execCdisarm, h]

@[simp] theorem answerOk_vecGlobalLoad {s : State} (h : s.MemOk) (op cls d a q tp mp w) :
    AnswerOk (vecGlobalLoad op cls d a q tp mp w s) := by
  simp [vecGlobalLoad, h]

@[simp] theorem answerOk_execVcld {s : State} (h : s.MemOk) (d a q t m w) : AnswerOk (execVcld d a q t m w s) := by
  simp [execVcld, h]

@[simp] theorem answerOk_execVcadd {s : State} (h : s.MemOk) (d a w) : AnswerOk (execVcadd d a w s) := by simp [execVcadd, h]

@[simp] theorem State.answerOk_onMemoryCore {s : State} (h : s.MemOk) {k : Answer} (hk : AnswerOk k) : AnswerOk (s.onMemoryCore k) := by
  unfold State.onMemoryCore; split <;> simp (maxDischargeDepth := 9) [h, hk]

@[simp] theorem answerOk_dramLoad {s : State} (h : s.MemOk) (n d a) : AnswerOk (dramLoad n d a s) := by
  simp (maxDischargeDepth := 9) [dramLoad, h]

@[simp] theorem answerOk_dramStore {s : State} (h : s.MemOk) (n t a) : AnswerOk (dramStore n t a s) := by
  simp (maxDischargeDepth := 9) [dramStore, h]

@[simp] theorem answerOk_execDldB {s : State} (h : s.MemOk) (d a) : AnswerOk (execDldB d a s) := by simp [execDldB, h]
@[simp] theorem answerOk_execDldH {s : State} (h : s.MemOk) (d a) : AnswerOk (execDldH d a s) := by simp [execDldH, h]
@[simp] theorem answerOk_execDldW {s : State} (h : s.MemOk) (d a) : AnswerOk (execDldW d a s) := by simp [execDldW, h]
@[simp] theorem answerOk_execDldD {s : State} (h : s.MemOk) (d a) : AnswerOk (execDldD d a s) := by simp [execDldD, h]
@[simp] theorem answerOk_execDstB {s : State} (h : s.MemOk) (t a) : AnswerOk (execDstB t a s) := by simp [execDstB, h]
@[simp] theorem answerOk_execDstH {s : State} (h : s.MemOk) (t a) : AnswerOk (execDstH t a s) := by simp [execDstH, h]
@[simp] theorem answerOk_execDstW {s : State} (h : s.MemOk) (t a) : AnswerOk (execDstW t a s) := by simp [execDstW, h]
@[simp] theorem answerOk_execDstD {s : State} (h : s.MemOk) (t a) : AnswerOk (execDstD t a s) := by simp [execDstD, h]

@[simp] theorem answerOk_execVdld {s : State} (h : s.MemOk) (d a q t m w) : AnswerOk (execVdld d a q t m w s) := by
  simp [execVdld, h]

@[simp] theorem answerOk_execVdst {s : State} (h : s.MemOk) (d a q w) : AnswerOk (execVdst d a q w s) := by
  simp (maxDischargeDepth := 9) [execVdst, h]

/-! ## Instruction fetch -/

@[simp] theorem eventOk_evCodeEndTrap {s : State} (h : s.MemOk) : EventOk (evCodeEndTrap s) := by
  simp (maxDischargeDepth := 9) [evCodeEndTrap, h]

@[simp] theorem answerOk_execCodeEndTrap {s : State} (h : s.MemOk) : AnswerOk (execCodeEndTrap s) := by simp [execCodeEndTrap, h]
@[simp] theorem State.answerOk_reject {s : State} (h : s.MemOk) (r) : AnswerOk (s.reject r) := by simp [State.reject, h]

/-! ## Scalar instructions -/

@[simp] theorem answerOk_execAdd {s : State} (h : s.MemOk) (d a b) : AnswerOk (execAdd d a b s) := by simp [execAdd, h]
@[simp] theorem answerOk_execSub {s : State} (h : s.MemOk) (d a b) : AnswerOk (execSub d a b s) := by simp [execSub, h]
@[simp] theorem answerOk_execAnd {s : State} (h : s.MemOk) (d a b) : AnswerOk (execAnd d a b s) := by simp [execAnd, h]
@[simp] theorem answerOk_execOr {s : State} (h : s.MemOk) (d a b) : AnswerOk (execOr d a b s) := by simp [execOr, h]
@[simp] theorem answerOk_execXor {s : State} (h : s.MemOk) (d a b) : AnswerOk (execXor d a b s) := by simp [execXor, h]
@[simp] theorem answerOk_execAndn {s : State} (h : s.MemOk) (d a b) : AnswerOk (execAndn d a b s) := by simp [execAndn, h]
@[simp] theorem answerOk_execOrn {s : State} (h : s.MemOk) (d a b) : AnswerOk (execOrn d a b s) := by simp [execOrn, h]
@[simp] theorem answerOk_execXnor {s : State} (h : s.MemOk) (d a b) : AnswerOk (execXnor d a b s) := by simp [execXnor, h]
@[simp] theorem answerOk_execSll {s : State} (h : s.MemOk) (d a b) : AnswerOk (execSll d a b s) := by simp [execSll, h]
@[simp] theorem answerOk_execSrl {s : State} (h : s.MemOk) (d a b) : AnswerOk (execSrl d a b s) := by simp [execSrl, h]
@[simp] theorem answerOk_execSra {s : State} (h : s.MemOk) (d a b) : AnswerOk (execSra d a b s) := by simp [execSra, h]
@[simp] theorem answerOk_execRol {s : State} (h : s.MemOk) (d a b) : AnswerOk (execRol d a b s) := by simp [execRol, h]
@[simp] theorem answerOk_execRor {s : State} (h : s.MemOk) (d a b) : AnswerOk (execRor d a b s) := by simp [execRor, h]
@[simp] theorem answerOk_execSlt {s : State} (h : s.MemOk) (d a b) : AnswerOk (execSlt d a b s) := by simp [execSlt, h]
@[simp] theorem answerOk_execSltu {s : State} (h : s.MemOk) (d a b) : AnswerOk (execSltu d a b s) := by simp [execSltu, h]
@[simp] theorem answerOk_execSeq {s : State} (h : s.MemOk) (d a b) : AnswerOk (execSeq d a b s) := by simp [execSeq, h]
@[simp] theorem answerOk_execMin {s : State} (h : s.MemOk) (d a b) : AnswerOk (execMin d a b s) := by simp [execMin, h]
@[simp] theorem answerOk_execMax {s : State} (h : s.MemOk) (d a b) : AnswerOk (execMax d a b s) := by simp [execMax, h]
@[simp] theorem answerOk_execMinu {s : State} (h : s.MemOk) (d a b) : AnswerOk (execMinu d a b s) := by simp [execMinu, h]
@[simp] theorem answerOk_execMaxu {s : State} (h : s.MemOk) (d a b) : AnswerOk (execMaxu d a b s) := by simp [execMaxu, h]
@[simp] theorem answerOk_execMul {s : State} (h : s.MemOk) (d a b) : AnswerOk (execMul d a b s) := by simp [execMul, h]
@[simp] theorem answerOk_execMulh {s : State} (h : s.MemOk) (d a b) : AnswerOk (execMulh d a b s) := by simp [execMulh, h]
@[simp] theorem answerOk_execMulhu {s : State} (h : s.MemOk) (d a b) : AnswerOk (execMulhu d a b s) := by simp [execMulhu, h]
@[simp] theorem answerOk_execMulhsu {s : State} (h : s.MemOk) (d a b) : AnswerOk (execMulhsu d a b s) := by simp [execMulhsu, h]
@[simp] theorem answerOk_execDiv {s : State} (h : s.MemOk) (d a b) : AnswerOk (execDiv d a b s) := by simp [execDiv, h]
@[simp] theorem answerOk_execDivu {s : State} (h : s.MemOk) (d a b) : AnswerOk (execDivu d a b s) := by simp [execDivu, h]
@[simp] theorem answerOk_execRem {s : State} (h : s.MemOk) (d a b) : AnswerOk (execRem d a b s) := by simp [execRem, h]
@[simp] theorem answerOk_execRemu {s : State} (h : s.MemOk) (d a b) : AnswerOk (execRemu d a b s) := by simp [execRemu, h]
@[simp] theorem answerOk_execCmovz {s : State} (h : s.MemOk) (d a b) : AnswerOk (execCmovz d a b s) := by simp [execCmovz, h]
@[simp] theorem answerOk_execCmovn {s : State} (h : s.MemOk) (d a b) : AnswerOk (execCmovn d a b s) := by simp [execCmovn, h]
@[simp] theorem answerOk_execAddw {s : State} (h : s.MemOk) (d a b) : AnswerOk (execAddw d a b s) := by simp [execAddw, h]
@[simp] theorem answerOk_execSubw {s : State} (h : s.MemOk) (d a b) : AnswerOk (execSubw d a b s) := by simp [execSubw, h]
@[simp] theorem answerOk_execClz {s : State} (h : s.MemOk) (d a) : AnswerOk (execClz d a s) := by simp [execClz, h]
@[simp] theorem answerOk_execCtz {s : State} (h : s.MemOk) (d a) : AnswerOk (execCtz d a s) := by simp [execCtz, h]
@[simp] theorem answerOk_execPopc {s : State} (h : s.MemOk) (d a) : AnswerOk (execPopc d a s) := by simp [execPopc, h]
@[simp] theorem answerOk_execBrev {s : State} (h : s.MemOk) (d a) : AnswerOk (execBrev d a s) := by simp [execBrev, h]
@[simp] theorem answerOk_execBswap {s : State} (h : s.MemOk) (d a) : AnswerOk (execBswap d a s) := by simp [execBswap, h]
@[simp] theorem answerOk_execSextb {s : State} (h : s.MemOk) (d a) : AnswerOk (execSextb d a s) := by simp [execSextb, h]
@[simp] theorem answerOk_execSexth {s : State} (h : s.MemOk) (d a) : AnswerOk (execSexth d a s) := by simp [execSexth, h]
@[simp] theorem answerOk_execSextw {s : State} (h : s.MemOk) (d a) : AnswerOk (execSextw d a s) := by simp [execSextw, h]
@[simp] theorem answerOk_execAddi {s : State} (h : s.MemOk) (d a i) : AnswerOk (execAddi d a i s) := by simp [execAddi, h]
@[simp] theorem answerOk_execAndi {s : State} (h : s.MemOk) (d a i) : AnswerOk (execAndi d a i s) := by simp [execAndi, h]
@[simp] theorem answerOk_execOri {s : State} (h : s.MemOk) (d a i) : AnswerOk (execOri d a i s) := by simp [execOri, h]
@[simp] theorem answerOk_execXori {s : State} (h : s.MemOk) (d a i) : AnswerOk (execXori d a i s) := by simp [execXori, h]
@[simp] theorem answerOk_execSlti {s : State} (h : s.MemOk) (d a i) : AnswerOk (execSlti d a i s) := by simp [execSlti, h]
@[simp] theorem answerOk_execSltiu {s : State} (h : s.MemOk) (d a i) : AnswerOk (execSltiu d a i s) := by simp [execSltiu, h]
@[simp] theorem answerOk_execExtu {s : State} (h : s.MemOk) (d a l p) : AnswerOk (execExtu d a l p s) := by simp [execExtu, h]
@[simp] theorem answerOk_execExts {s : State} (h : s.MemOk) (d a l p) : AnswerOk (execExts d a l p s) := by simp [execExts, h]
@[simp] theorem answerOk_execIns {s : State} (h : s.MemOk) (d a l p) : AnswerOk (execIns d a l p s) := by simp [execIns, h]
@[simp] theorem answerOk_execSlli {s : State} (h : s.MemOk) (d a n) : AnswerOk (execSlli d a n s) := by simp [execSlli, h]
@[simp] theorem answerOk_execSrli {s : State} (h : s.MemOk) (d a n) : AnswerOk (execSrli d a n s) := by simp [execSrli, h]
@[simp] theorem answerOk_execSrai {s : State} (h : s.MemOk) (d a n) : AnswerOk (execSrai d a n s) := by simp [execSrai, h]
@[simp] theorem answerOk_execRori {s : State} (h : s.MemOk) (d a n) : AnswerOk (execRori d a n s) := by simp [execRori, h]
@[simp] theorem answerOk_execLui {s : State} (h : s.MemOk) (d i) : AnswerOk (execLui d i s) := by simp [execLui, h]
@[simp] theorem answerOk_execSloi {s : State} (h : s.MemOk) (d a i) : AnswerOk (execSloi d a i s) := by simp [execSloi, h]

/-! ## Floating point -/

@[simp] theorem answerOk_fpOp {s : State} (h : s.MemOk) (d rs f) : AnswerOk (fpOp d rs s f) := by simp [fpOp, h]

@[simp] theorem answerOk_fpCompare {s : State} (h : s.MemOk) (d a b fmt f) : AnswerOk (fpCompare d a b fmt s f) := by
  simp [fpCompare, h]

@[simp] theorem answerOk_fpSign {s : State} (h : s.MemOk) (d a b fmt f) : AnswerOk (fpSign d a b fmt s f) := by simp [fpSign, h]
@[simp] theorem answerOk_execFadd {s : State} (h : s.MemOk) (d a b f m) : AnswerOk (execFadd d a b f m s) := by simp [execFadd, h]
@[simp] theorem answerOk_execFsub {s : State} (h : s.MemOk) (d a b f m) : AnswerOk (execFsub d a b f m s) := by simp [execFsub, h]
@[simp] theorem answerOk_execFmul {s : State} (h : s.MemOk) (d a b f m) : AnswerOk (execFmul d a b f m s) := by simp [execFmul, h]
@[simp] theorem answerOk_execFdiv {s : State} (h : s.MemOk) (d a b f m) : AnswerOk (execFdiv d a b f m s) := by simp [execFdiv, h]
@[simp] theorem answerOk_execFsqrt {s : State} (h : s.MemOk) (d a f m) : AnswerOk (execFsqrt d a f m s) := by simp [execFsqrt, h]

@[simp] theorem answerOk_execFmin {s : State} (h : s.MemOk) (d a b f _m) : AnswerOk (execFmin d a b f _m s) := by
  simp [execFmin, h]

@[simp] theorem answerOk_execFmax {s : State} (h : s.MemOk) (d a b f _m) : AnswerOk (execFmax d a b f _m s) := by
  simp [execFmax, h]

@[simp] theorem answerOk_execFma {s : State} (h : s.MemOk) (d a b f m) : AnswerOk (execFma d a b f m s) := by simp [execFma, h]
@[simp] theorem answerOk_execFms {s : State} (h : s.MemOk) (d a b f m) : AnswerOk (execFms d a b f m s) := by simp [execFms, h]
@[simp] theorem answerOk_execFnma {s : State} (h : s.MemOk) (d a b f m) : AnswerOk (execFnma d a b f m s) := by simp [execFnma, h]
@[simp] theorem answerOk_execFeq {s : State} (h : s.MemOk) (d a b f) : AnswerOk (execFeq d a b f s) := by simp [execFeq, h]
@[simp] theorem answerOk_execFlt {s : State} (h : s.MemOk) (d a b f) : AnswerOk (execFlt d a b f s) := by simp [execFlt, h]
@[simp] theorem answerOk_execFle {s : State} (h : s.MemOk) (d a b f) : AnswerOk (execFle d a b f s) := by simp [execFle, h]
@[simp] theorem answerOk_execFclass {s : State} (h : s.MemOk) (d a f) : AnswerOk (execFclass d a f s) := by simp [execFclass, h]
@[simp] theorem answerOk_execFsgnj {s : State} (h : s.MemOk) (d a b f) : AnswerOk (execFsgnj d a b f s) := by simp [execFsgnj, h]

@[simp] theorem answerOk_execFsgnjn {s : State} (h : s.MemOk) (d a b f) : AnswerOk (execFsgnjn d a b f s) := by
  simp [execFsgnjn, h]

@[simp] theorem answerOk_execFsgnjx {s : State} (h : s.MemOk) (d a b f) : AnswerOk (execFsgnjx d a b f s) := by
  simp [execFsgnjx, h]

@[simp] theorem answerOk_execCvt {s : State} (h : s.MemOk) (d a m t f) : AnswerOk (execCvt d a m t f s) := by simp [execCvt, h]

@[simp] theorem State.answerOk_badTarget {s : State} (h : s.MemOk) (t) : AnswerOk (s.badTarget t) := by
  unfold State.badTarget
  split <;> simp [h]

@[simp] theorem State.answerOk_jump {s : State} (h : s.MemOk) (t f) : AnswerOk (s.jump t f) := by
  unfold State.jump
  split <;> simp [h]

@[simp] theorem answerOk_branch {s : State} (h : s.MemOk) (p q off taken) : AnswerOk (branch p q off s taken) := by
  unfold branch
  refine State.answerOk_withX h _ fun _ => ?_
  repeat' split
  all_goals simp [h]

@[simp] theorem answerOk_execBeq {s : State} (h : s.MemOk) (p q o) : AnswerOk (execBeq p q o s) := by simp [execBeq, h]
@[simp] theorem answerOk_execBne {s : State} (h : s.MemOk) (p q o) : AnswerOk (execBne p q o s) := by simp [execBne, h]
@[simp] theorem answerOk_execBlt {s : State} (h : s.MemOk) (p q o) : AnswerOk (execBlt p q o s) := by simp [execBlt, h]
@[simp] theorem answerOk_execBge {s : State} (h : s.MemOk) (p q o) : AnswerOk (execBge p q o s) := by simp [execBge, h]
@[simp] theorem answerOk_execBltu {s : State} (h : s.MemOk) (p q o) : AnswerOk (execBltu p q o s) := by simp [execBltu, h]
@[simp] theorem answerOk_execBgeu {s : State} (h : s.MemOk) (p q o) : AnswerOk (execBgeu p q o s) := by simp [execBgeu, h]
@[simp] theorem answerOk_execJal {s : State} (h : s.MemOk) (d i) : AnswerOk (execJal d i s) := by simp [execJal, h]

@[simp] theorem answerOk_execJalr {s : State} (h : s.MemOk) (d a i) : AnswerOk (execJalr d a i s) := by
  unfold execJalr
  refine State.answerOk_withX h _ fun _ => ?_
  dsimp only
  repeat' split
  all_goals simp [h]

/-! ## Succession -/

@[simp] theorem Core.wf_vacate {k : Core} (hk : k.mem.wf = true) (slot kp) : (k.vacate slot kp).mem.wf = true := by
  simp (maxDischargeDepth := 9) +contextual [Core.vacate, hk]

@[simp] theorem Core.wf_trim {k : Core} (hk : k.mem.wf = true) (slot img) : (k.trim slot img).mem.wf = true := by
  refine Core.wf_foldl hk _ fun q p hq => ?_
  dsimp only
  split
  · exact hq
  split
  · simp [hq]
  · split <;> simp (maxDischargeDepth := 9) [hq]

theorem Core.wf_of_grow {k : Core} (hk : k.mem.wf = true) {slot r d q} (h : k.grow slot r d = some q) : q.mem.wf = true := by
  unfold Core.grow at h
  repeat' split at h
  all_goals cases h
  all_goals simp (maxDischargeDepth := 9) [hk]

theorem Core.wf_of_growAll {slot : Nat} {l : List (RegDecl × Nat)} {k : Core} (hk : k.mem.wf = true) {q} (h : k.growAll slot l = .ok q) :
    q.mem.wf = true := by
  induction l generalizing k with
  | nil => cases h; exact hk
  | cons p l ih =>
    unfold Core.growAll at h
    split at h
    · cases h
    · exact ih (Core.wf_of_grow hk ‹_›) h

theorem Core.wf_of_makeRoom {k : Core} (hk : k.mem.wf = true) {slot kp img r} (h : k.makeRoom slot kp img = .ok r) : r.2.mem.wf = true := by
  unfold Core.makeRoom at h
  dsimp only at h
  split at h
  · cases h
  · rename_i hg
    split at h
    · cases h
    · rename_i l q ha
      split at h
      · cases h
      · cases h
        have hm : q.mem = _ := Core.mem_of_allocAll ha
        simpa [hm] using Core.wf_of_growAll (by simp [hk]) hg

@[simp] theorem State.wf_succeedCore {s : State} {k : Core} (hk : k.mem.wf = true) (slot t kp img l gate) :
    (s.succeedCore k slot t kp img l gate).mem.wf = true := by
  simp (maxDischargeDepth := 9) +contextual [State.succeedCore, hk]

@[simp] theorem State.memOk_cutShort {s0 : State} (h : s0.MemOk) (slot kp) : (s0.cutShort slot kp).MemOk := by
  simp (maxDischargeDepth := 9) [State.cutShort, h]

@[simp] theorem State.memOk_bequeath {s : State} (h : s.MemOk) (core slot old new) : (s.bequeath core slot old new).MemOk := by
  simp (maxDischargeDepth := 9) [State.bequeath, h]

@[simp] theorem State.memOk_reparent {s : State} (h : s.MemOk) (old new) : (s.reparent old new).MemOk :=
  ⟨h.1, fun q hq => by
    obtain ⟨p, hp, rfl⟩ := List.mem_map.1 hq
    exact h.2 p hp⟩

@[simp] theorem State.memOk_renamed {s : State} (h : s.MemOk) (slot kp img) : (s.renamed slot kp img).MemOk := by
  simp (maxDischargeDepth := 9) [State.renamed, h]

@[simp] theorem State.memOk_commitRets {s : State} (h : s.MemOk) {k : Core} (hk : k.mem.wf = true) (kp img l t) :
    (s.commitRets kp img l k t).MemOk := by
  simp (maxDischargeDepth := 9) [State.commitRets, h, hk]

@[simp] theorem State.answerOk_succShape {s : State} (h : s.MemOk) (sub detail) : AnswerOk (s.succShape sub detail) := by
  simp [State.succShape, h]

@[simp] theorem State.answerOk_retsRoom {s : State} (h : s.MemOk) (t kp img) : AnswerOk (s.retsRoom t kp img) := by
  unfold State.retsRoom
  extract_lets cut k new
  have hc : cut.MemOk := by simp (maxDischargeDepth := 9) [h, cut]
  have hk : k.mem.wf = true := by unfold k; simp [hc]
  clear_value cut k
  split
  · exact State.answerOk_succShape h _ _
  rename_i l k1 hr
  have hn := State.memOk_commitRets hc (Core.wf_of_makeRoom hk hr) kp img l t
  repeat' split
  all_goals simp [h, hn]

@[simp] theorem answerOk_execRets {s : State} (h : s.MemOk) (a) : AnswerOk (execRets a s) := by
  unfold execRets
  refine State.answerOk_withX h _ fun t => ?_
  dsimp only
  split
  · simp [h]
  split
  · simp [h]
  split
  · simp [h]
  split
  · exact s.answerOk_of_errorTrap h ‹_›
  repeat' split
  all_goals simp [h]

/-! ## Vector instructions -/

@[simp] theorem answerOk_vecSat {s : State} (h : s.MemOk) (d a b msel tp mp w f) : AnswerOk (vecSat d a b msel tp mp w f s) := by
  simp [vecSat, h]

@[simp] theorem answerOk_execVadd {s : State} (h : s.MemOk) (d a b q t m w) : AnswerOk (execVadd d a b q t m w s) := by
  simp [execVadd, h]

@[simp] theorem answerOk_execVsub {s : State} (h : s.MemOk) (d a b q t m w) : AnswerOk (execVsub d a b q t m w s) := by
  simp [execVsub, h]

@[simp] theorem answerOk_execVmul {s : State} (h : s.MemOk) (d a b q t m w) : AnswerOk (execVmul d a b q t m w s) := by
  simp [execVmul, h]

@[simp] theorem answerOk_execVmulh {s : State} (h : s.MemOk) (d a b q t m w) : AnswerOk (execVmulh d a b q t m w s) := by
  simp [execVmulh, h]

@[simp] theorem answerOk_execVmin {s : State} (h : s.MemOk) (d a b q t m w) : AnswerOk (execVmin d a b q t m w s) := by
  simp [execVmin, h]

@[simp] theorem answerOk_execVmax {s : State} (h : s.MemOk) (d a b q t m w) : AnswerOk (execVmax d a b q t m w s) := by
  simp [execVmax, h]

@[simp] theorem answerOk_execVminu {s : State} (h : s.MemOk) (d a b q t m w) : AnswerOk (execVminu d a b q t m w s) := by
  simp [execVminu, h]

@[simp] theorem answerOk_execVmaxu {s : State} (h : s.MemOk) (d a b q t m w) : AnswerOk (execVmaxu d a b q t m w s) := by
  simp [execVmaxu, h]

@[simp] theorem answerOk_execVand {s : State} (h : s.MemOk) (d a b q t m w) : AnswerOk (execVand d a b q t m w s) := by
  simp [execVand, h]

@[simp] theorem answerOk_execVor {s : State} (h : s.MemOk) (d a b q t m w) : AnswerOk (execVor d a b q t m w s) := by
  simp [execVor, h]

@[simp] theorem answerOk_execVxor {s : State} (h : s.MemOk) (d a b q t m w) : AnswerOk (execVxor d a b q t m w s) := by
  simp [execVxor, h]

@[simp] theorem answerOk_execVsll {s : State} (h : s.MemOk) (d a b q t m w) : AnswerOk (execVsll d a b q t m w s) := by
  simp [execVsll, h]

@[simp] theorem answerOk_execVsrl {s : State} (h : s.MemOk) (d a b q t m w) : AnswerOk (execVsrl d a b q t m w s) := by
  simp [execVsrl, h]

@[simp] theorem answerOk_execVsra {s : State} (h : s.MemOk) (d a b q t m w) : AnswerOk (execVsra d a b q t m w s) := by
  simp [execVsra, h]

@[simp] theorem answerOk_execVadds {s : State} (h : s.MemOk) (d a b q t m w) : AnswerOk (execVadds d a b q t m w s) := by
  simp [execVadds, h]

@[simp] theorem answerOk_execVsubs {s : State} (h : s.MemOk) (d a b q t m w) : AnswerOk (execVsubs d a b q t m w s) := by
  simp [execVsubs, h]

@[simp] theorem answerOk_vecFp {s : State} (h : s.MemOk) (d rs msel tp mp w f) : AnswerOk (vecFp d rs msel tp mp w s f) := by
  simp [vecFp, h]

@[simp] theorem answerOk_vecFpCompare {s : State} (h : s.MemOk) (d a b msel tp mp w f) :
    AnswerOk (vecFpCompare d a b msel tp mp w s f) := by
  simp [vecFpCompare, h]

@[simp] theorem answerOk_execVfadd {s : State} (h : s.MemOk) (d a b q t m w) : AnswerOk (execVfadd d a b q t m w s) := by
  simp [execVfadd, h]

@[simp] theorem answerOk_execVfsub {s : State} (h : s.MemOk) (d a b q t m w) : AnswerOk (execVfsub d a b q t m w s) := by
  simp [execVfsub, h]

@[simp] theorem answerOk_execVfmul {s : State} (h : s.MemOk) (d a b q t m w) : AnswerOk (execVfmul d a b q t m w s) := by
  simp [execVfmul, h]

@[simp] theorem answerOk_execVfdiv {s : State} (h : s.MemOk) (d a b q t m w) : AnswerOk (execVfdiv d a b q t m w s) := by
  simp [execVfdiv, h]

@[simp] theorem answerOk_execVfsqrt {s : State} (h : s.MemOk) (d a q t m w) : AnswerOk (execVfsqrt d a q t m w s) := by
  simp [execVfsqrt, h]

@[simp] theorem answerOk_execVfmin {s : State} (h : s.MemOk) (d a b q t m w) : AnswerOk (execVfmin d a b q t m w s) := by
  simp [execVfmin, h]

@[simp] theorem answerOk_execVfmax {s : State} (h : s.MemOk) (d a b q t m w) : AnswerOk (execVfmax d a b q t m w s) := by
  simp [execVfmax, h]

@[simp] theorem answerOk_execVfma {s : State} (h : s.MemOk) (d a b q t m w) : AnswerOk (execVfma d a b q t m w s) := by
  simp [execVfma, h]

@[simp] theorem answerOk_execVfeq {s : State} (h : s.MemOk) (d a b q t m w) : AnswerOk (execVfeq d a b q t m w s) := by
  simp [execVfeq, h]

@[simp] theorem answerOk_execVflt {s : State} (h : s.MemOk) (d a b q t m w) : AnswerOk (execVflt d a b q t m w s) := by
  simp [execVflt, h]

@[simp] theorem answerOk_execVfle {s : State} (h : s.MemOk) (d a b q t m w) : AnswerOk (execVfle d a b q t m w s) := by
  simp [execVfle, h]

@[simp] theorem answerOk_execVfsum {s : State} (h : s.MemOk) (d a q t w) : AnswerOk (execVfsum d a q t w s) := by
  simp [execVfsum, h]

@[simp] theorem answerOk_vecCompare {s : State} (h : s.MemOk) (d a b msel tp mp w f) : AnswerOk (vecCompare d a b msel tp mp w f s) := by
  simp [vecCompare, h]

@[simp] theorem answerOk_vecReduce {s : State} (h : s.MemOk) (d a msel tp w init f) : AnswerOk (vecReduce d a msel tp w init f s) := by
  simp [vecReduce, h]

@[simp] theorem answerOk_maskLogic {s : State} (h : s.MemOk) (d rs msel tp mp f) : AnswerOk (maskLogic d rs msel tp mp s f) := by
  simp [maskLogic, h]

@[simp] theorem answerOk_execVceq {s : State} (h : s.MemOk) (d a b q t m w) : AnswerOk (execVceq d a b q t m w s) := by
  simp [execVceq, h]

@[simp] theorem answerOk_execVclt {s : State} (h : s.MemOk) (d a b q t m w) : AnswerOk (execVclt d a b q t m w s) := by
  simp [execVclt, h]

@[simp] theorem answerOk_execVcltu {s : State} (h : s.MemOk) (d a b q t m w) : AnswerOk (execVcltu d a b q t m w s) := by
  simp [execVcltu, h]

@[simp] theorem answerOk_execVsum {s : State} (h : s.MemOk) (d a q t w) : AnswerOk (execVsum d a q t w s) := by simp [execVsum, h]

@[simp] theorem answerOk_execVrmin {s : State} (h : s.MemOk) (d a q t w) : AnswerOk (execVrmin d a q t w s) := by
  simp [execVrmin, h]

@[simp] theorem answerOk_execVrmax {s : State} (h : s.MemOk) (d a q t w) : AnswerOk (execVrmax d a q t w s) := by
  simp [execVrmax, h]

@[simp] theorem answerOk_execVrminu {s : State} (h : s.MemOk) (d a q t w) : AnswerOk (execVrminu d a q t w s) := by
  simp [execVrminu, h]

@[simp] theorem answerOk_execVrmaxu {s : State} (h : s.MemOk) (d a q t w) : AnswerOk (execVrmaxu d a q t w s) := by
  simp [execVrmaxu, h]

@[simp] theorem answerOk_execVmand {s : State} (h : s.MemOk) (d a b q t m) : AnswerOk (execVmand d a b q t m s) := by
  simp [execVmand, h]

@[simp] theorem answerOk_execVmor {s : State} (h : s.MemOk) (d a b q t m) : AnswerOk (execVmor d a b q t m s) := by
  simp [execVmor, h]

@[simp] theorem answerOk_execVmxor {s : State} (h : s.MemOk) (d a b q t m) : AnswerOk (execVmxor d a b q t m s) := by
  simp [execVmxor, h]

@[simp] theorem answerOk_execVmnot {s : State} (h : s.MemOk) (d a q t m) : AnswerOk (execVmnot d a q t m s) := by
  simp [execVmnot, h]

@[simp] theorem answerOk_execVmpop {s : State} (h : s.MemOk) (d a q t) : AnswerOk (execVmpop d a q t s) := by simp [execVmpop, h]

@[simp] theorem answerOk_vecMove {s : State} (h : s.MemOk) (d rs msel tp mp w f) : AnswerOk (vecMove d rs msel tp mp w s f) := by
  simp [vecMove, h]

@[simp] theorem answerOk_execVmov {s : State} (h : s.MemOk) (d a q t m w) : AnswerOk (execVmov d a q t m w s) := by
  simp [execVmov, h]

@[simp] theorem answerOk_execVsplat {s : State} (h : s.MemOk) (d a k q t m w) : AnswerOk (execVsplat d a k q t m w s) := by
  simp [execVsplat, h]

@[simp] theorem answerOk_execVext {s : State} (h : s.MemOk) (d a k t w) : AnswerOk (execVext d a k t w s) := by simp [execVext, h]
@[simp] theorem answerOk_execVins {s : State} (h : s.MemOk) (d a k w) : AnswerOk (execVins d a k w s) := by simp [execVins, h]

@[simp] theorem answerOk_execVperm {s : State} (h : s.MemOk) (d a b q t m w) : AnswerOk (execVperm d a b q t m w s) := by
  simp [execVperm, h]

@[simp] theorem answerOk_execVslup {s : State} (h : s.MemOk) (d a k q t m w) : AnswerOk (execVslup d a k q t m w s) := by
  simp [execVslup, h]

@[simp] theorem answerOk_execVsldn {s : State} (h : s.MemOk) (d a k q t m w) : AnswerOk (execVsldn d a k q t m w s) := by
  simp [execVsldn, h]

@[simp] theorem answerOk_execVzip {s : State} (h : s.MemOk) (d a b q t m w) : AnswerOk (execVzip d a b q t m w s) := by
  simp [execVzip, h]

@[simp] theorem answerOk_execVuzp {s : State} (h : s.MemOk) (d a b q t m w) : AnswerOk (execVuzp d a b q t m w s) := by
  simp [execVuzp, h]

@[simp] theorem answerOk_execVsel {s : State} (h : s.MemOk) (d a b q t w) : AnswerOk (execVsel d a b q t w s) := by
  simp [execVsel, h]

@[simp] theorem answerOk_quantise {s : State} (h : s.MemOk) (d a w cw rs f) : AnswerOk (quantise d a w cw rs f s) := by
  unfold quantise
  refine State.answerOk_withV h _ _ _ fun _ => ?_
  dsimp only
  repeat' split
  all_goals simp (maxDischargeDepth := 9) [h]

@[simp] theorem answerOk_dequantise {s : State} (h : s.MemOk) (d a w cw rs valid decode) :
    AnswerOk (dequantise d a w cw rs valid decode s) := by
  unfold dequantise
  refine State.answerOk_withV h _ _ _ fun _ => ?_
  dsimp only
  repeat' split
  all_goals simp (maxDischargeDepth := 9) [h]

@[simp] theorem answerOk_execVqntE4 {s : State} (h : s.MemOk) (d a w) : AnswerOk (execVqntE4 d a w s) := by simp [execVqntE4, h]
@[simp] theorem answerOk_execVqntE5 {s : State} (h : s.MemOk) (d a w) : AnswerOk (execVqntE5 d a w s) := by simp [execVqntE5, h]

@[simp] theorem answerOk_execVqntC4 {s : State} (h : s.MemOk) (d a b w) : AnswerOk (execVqntC4 d a b w s) := by
  simp [execVqntC4, h]

@[simp] theorem answerOk_execVdqE4 {s : State} (h : s.MemOk) (d a w) : AnswerOk (execVdqE4 d a w s) := by simp [execVdqE4, h]
@[simp] theorem answerOk_execVdqE5 {s : State} (h : s.MemOk) (d a w) : AnswerOk (execVdqE5 d a w s) := by simp [execVdqE5, h]
@[simp] theorem answerOk_execVdqC4 {s : State} (h : s.MemOk) (d a b w) : AnswerOk (execVdqC4 d a b w s) := by simp [execVdqC4, h]

/-! ## Turns -/

@[simp] theorem State.memOk_listen {s : State} (h : s.MemOk) (n) : (s.listen n).MemOk := by
  simp (maxDischargeDepth := 9) [State.listen, h]

@[simp] theorem State.memOk_pass {s : State} (h : s.MemOk) (n) : (s.pass n).MemOk := by
  simp (maxDischargeDepth := 9) [State.pass, h]

@[simp] theorem State.memOk_tookPlace {s : State} (h : s.MemOk) (i) : (s.tookPlace i).MemOk := by
  unfold State.tookPlace
  split <;> simp [h]

@[simp] theorem State.memOk_elapse {s : State} (h : s.MemOk) : (s.elapse).MemOk := by
  unfold State.elapse
  repeat' split
  all_goals simp (maxDischargeDepth := 9) [h]

@[simp] theorem State.memOk_takeTurn {s : State} (h : s.MemOk) : (s.takeTurn).MemOk := h

/-! ## Steps -/

@[simp] theorem State.memOk_select {s : State} (h : s.MemOk) (c i) : (s.select c i).MemOk := by
  simp (maxDischargeDepth := 9) [State.select, h]

end Sys2Proof.Machine
end

section
/-! PROOF. Every step keeps every memory in canonical form (O8): each instruction and each event by its own lemma above. -/

namespace Sys2Proof.Machine

theorem answerOk_exec {s : State} (h : s.MemOk) (i : Instr) : AnswerOk (exec i s) := by
  cases i <;> simp [h]

theorem answerOk_counted {a : Answer} (ha : AnswerOk a) (u : State) : AnswerOk (counted u a) := by
  cases a with
  | next t => exact State.memOk_issued ha
  | fault f => trivial
  | refused r => trivial

/-- Where a granule that a Cairn take has marked would change, what takes place is the copy of the granule. -/
theorem State.answerOk_heedCow {a : Answer} (ha : AnswerOk a) {u : State} (hu : u.MemOk) : AnswerOk (u.heedCow a) := by
  cases a with
  | next t => exact State.memOk_ite (fun _ => ha) fun _ => State.memOk_foldl hu _ fun v p hv => State.memOk_onCore hv (v.wf_core hv p.1)
  | fault f => trivial
  | refused r => trivial

section
variable {s : State} (h : s.MemOk)
include h

theorem State.answerOk_runWord (w : W32) : AnswerOk (s.runWord w) := by
  refine answerOk_counted ?_ s
  split
  · exact answerOk_exec h _
  · exact State.answerOk_reject h _

theorem State.answerOk_run : AnswerOk s.run := by
  unfold State.run
  split
  · exact answerOk_exec h _
  split
  · exact answerOk_exec h _
  split
  · exact State.answerOk_runWord h _
  · obtain ⟨hg, hc⟩ := State.memOk_readError h _
    exact State.answerOk_runWord (State.memOk_with ⟨hg, hc⟩ hg) _

theorem answerOk_step : AnswerOk (step s) := by
  have hs : s.elapse.takeTurn.MemOk := State.memOk_takeTurn (State.memOk_elapse h)
  unfold step
  dsimp only
  split
  · exact hs
  · exact State.answerOk_heedCow (answerOk_exec (State.memOk_tookPlace hs _) _) hs
  · exact State.memOk_softError hs _
  · split
    · exact State.answerOk_heedCow (State.answerOk_run (State.memOk_select (State.memOk_with hs hs.1) _ _)) hs
    · trivial

end

/-- Settles O8: one lemma for each function of the model says that it keeps the form, and a step is made of them. -/
theorem stepKeepsMemory : Obligations.StepKeepsMemory := by
  intro s t h ht
  have hs := answerOk_step h
  rw [ht] at hs
  exact hs

end Sys2Proof.Machine
end

section
/-! SUPPORT. Lanes, masks and active lanes as the statements name them (R58, R262, R263). -/

namespace Sys2Proof.Machine

open Sys2Proof.Claims (X V Ln wid maskOn active hereV LaneWise wroteV wentOn)

/-! ## Masks -/

theorem msel_cases (q : BitVec 3) : q = 0 ∨ q = 1 ∨ q = 2 ∨ q = 3 ∨ q = 4 ∨ q = 5 ∨ q = 6 ∨ q = 7 := by
  revert q; decide

theorem maskBit_eq_maskOn (s : State) (q : BitVec 3) (i : Nat) : s.th.maskBit q i = maskOn s q i := by
  rcases msel_cases q with rfl | rfl | rfl | rfl | rfl | rfl | rfl | rfl <;> simp [Thread.maskBit, maskReg, maskOn]

theorem hereVs_of_hereV {s : State} {rs : List Reg} {q : BitVec 3} (h : hereV s rs q) :
    s.th.hereVs (rs ++ (maskReg q).toList) = true := by
  obtain ⟨hrs, h0, h1, h2, h3⟩ := h
  rw [Thread.hereVs, List.all_append, Bool.and_eq_true]
  refine ⟨List.all_eq_true.2 hrs, ?_⟩
  rcases msel_cases q with rfl | rfl | rfl | rfl | rfl | rfl | rfl | rfl <;> simp_all [maskReg]

/-! ## Active lanes -/

theorem mem_activeLanes {s : State} {q : BitVec 3} {w i : Nat} : i ∈ s.th.activeLanes q w ↔ active s q (256 / w) i := by
  rw [Thread.activeLanes, List.mem_filter, List.mem_range, Thread.active, Thread.bound, maskBit_eq_maskOn, Bool.and_eq_true,
    decide_eq_true_iff]
  exact ⟨fun h => h.2, fun h => ⟨lt_of_lt_of_le h.1 (min_le_right _ _), h⟩⟩

theorem activeLanes_sorted (t : Thread) (q : BitVec 3) (w : Nat) : (t.activeLanes q w).Pairwise (· < ·) :=
  List.pairwise_lt_range.filter _

/-! ## Results lane by lane -/

/-- A register made lane by lane (R263), where the operation's values are known on the active lanes. -/
theorem laneWise_lanes {s : State} {d : Reg} {q : BitVec 3} {tp mp : BitVec 1} {w : Nat} {op : Nat → Nat} {op' : Nat → BitVec w}
    (hop : ∀ i, active s q (256 / w) i → BitVec.ofNat w (op i) = op' i) :
    LaneWise s d q tp mp w (s.th.lanes q tp mp w (V s d) op) op' := by
  intro i hi
  rw [Ln, extract_lanes _ _ _ _ _ _ _ _ (Nat.mul_div_le 256 w) hi, maskBit_eq_maskOn, Thread.bound, Ln, extract_lane]
  by_cases hb : Min.min s.th.vlen.toNat (256 / w) ≤ i
  · simp only [ge_iff_le, if_pos hb]
    split <;> rfl
  · simp only [ge_iff_le, if_neg hb]
    split
    case isTrue hm => exact hop i ⟨by omega, hm⟩
    case isFalse => split <;> rfl

end Sys2Proof.Machine
end

section
/-! SUPPORT. Local vector loads and stores (R271 to R273), one lemma for each way they end. -/

namespace Sys2Proof.Machine

open Sys2Proof.Claims (X V Ln wid maskOn active hereV LaneWise wroteV wentOn)

/-! ## The region of a permitted access -/

theorem Core.findRegion_of_checkLocal {k : Core} {slot a n : Nat} {store : Bool} {e : RegEntry} (h : k.checkLocal slot a n store = .ok e) :
    ∃ i, k.findRegion slot a = some (i, e) := by
  by_cases hout : 0x5C000 ≤ a ∧ a ≤ 0x5FFFF
  · rw [Core.checkLocal_saveArea hout] at h
    cases h
  cases hr : k.findRegion slot a with
  | none =>
    cases ht : k.findTomb slot a with
    | none => rw [Core.checkLocal_nowhere hout hr ht] at h; cases h
    | some p => rw [Core.checkLocal_tomb hout hr ht] at h; cases h
  | some p =>
    rw [Core.checkLocal_found hout hr] at h
    by_cases hend : a + n > (p.2.base + p.2.size) * 1024
    · rw [if_pos hend] at h; cases h
    rw [if_neg hend] at h
    by_cases hkind : (!(if store then kindStores p.2.kind else kindLoads p.2.kind)) = true
    · rw [if_pos hkind] at h; cases h
    rw [if_neg hkind] at h
    by_cases hright : (!(if store then p.2.wr else p.2.rd)) = true
    · rw [if_pos hright] at h; cases h
    rw [if_neg hright] at h
    cases h
    exact ⟨p.1, rfl⟩

theorem Core.laneRegion_of_checkLocal {k : Core} {slot a n : Nat} {store : Bool} {e : RegEntry} (h : k.checkLocal slot a n store = .ok e) :
    k.laneRegion slot a = e := by
  obtain ⟨i, hi⟩ := Core.findRegion_of_checkLocal h
  rw [Core.laneRegion, hi]

theorem Core.base_le_of_checkLocal {k : Core} {slot a n : Nat} {store : Bool} {e : RegEntry} (h : k.checkLocal slot a n store = .ok e) :
    e.base * 1024 ≤ a := by
  obtain ⟨i, hi⟩ := Core.findRegion_of_checkLocal h
  have hc := List.find?_some hi
  rw [Bool.and_eq_true] at hc
  exact (RegEntry.covers_iff.1 hc.2).1

/-- Two bytes of a region are kept apart, whatever its pitch: without a pitch the placement moves nothing. -/
theorem RegEntry.place_injective' {e : RegEntry} {a b : Nat} (ha : e.base * 1024 ≤ a) (hb : e.base * 1024 ≤ b) (h : e.place a = e.place b) :
    a = b := by
  by_cases hp : e.skew = true → 0 < e.pitch
  · exact RegEntry.place_injective hp ha hb h
  · obtain ⟨hs, hp⟩ := Classical.not_imp.1 hp
    simp only [RegEntry.place, hs, if_true, Nat.eq_zero_of_not_pos hp, Nat.mul_zero, Nat.div_zero, Nat.mod_zero, Nat.add_zero] at h
    omega

/-! ## The checks (R272) -/

/-- The alignment that a vector access asks of its base, or of each active lane. -/
def AlignedLanes (base : Option Nat) (n : Nat) (lanes : List Nat) : Prop :=
  match base with
  | some x => lanes ≠ [] → x % 8 = 0
  | none => ∀ x ∈ lanes, x % n = 0

section Check
variable {k : Core} {slot n : Nat} {base : Option Nat} {lanes : List Nat} {store : Bool}

theorem Core.vecCheck_aligned (h : AlignedLanes base n lanes) (hne : lanes ≠ []) :
    k.vecCheck slot n base lanes store = lanes.findSome? fun x =>
      match k.checkLocal slot x n store with
      | .error e => some (rRegionDeny, e.1, e.2, x)
      | .ok _ => none := by
  unfold Core.vecCheck
  cases base with
  | some x => simp [h hne] <;> rfl
  | none =>
    have : lanes.find? (fun x => x % n ≠ 0) = none := List.find?_eq_none.2 fun x hx => by simpa using h x hx
    simp only [this, Option.map_none] <;> rfl

theorem Core.vecCheck_base {x : Nat} (h : x % 8 ≠ 0) : k.vecCheck slot n (some x) lanes store = some (rMisalign, 0, 32, x) := by
  unfold Core.vecCheck
  simp only [if_pos h]

theorem Core.vecCheck_lane {x : Nat} (h : lanes.find? (fun x => x % n ≠ 0) = some x) :
    k.vecCheck slot n none lanes store = some (rMisalign, 0, n, x) := by
  unfold Core.vecCheck
  simp only [h, Option.map_some]

end Check

section First
variable {l : List Nat} (hl : l.Pairwise (· < ·)) {i : Nat} (hi : i ∈ l)
include hl hi

/-- In an ascending list the first place with an answer is the lowest one. -/
theorem findSome?_lowest {β : Type} {f : Nat → Option β} {b : β} (hf : f i = some b) (hlow : ∀ j ∈ l, j < i → f j = none) :
    l.findSome? f = some b := by
  induction l with
  | nil => cases hi
  | cons a l ih =>
    obtain ⟨ha, hl⟩ := List.pairwise_cons.1 hl
    rcases List.mem_cons.1 hi with rfl | hi
    · rw [List.findSome?_cons, hf]
    · rw [List.findSome?_cons, hlow a List.mem_cons_self (ha i hi)]
      exact ih hl hi fun j hj => hlow j (List.mem_cons_of_mem _ hj)

theorem find?_lowest {p : Nat → Bool} (hp : p i = true) (hlow : ∀ j ∈ l, j < i → p j = false) : l.find? p = some i := by
  rw [List.find?_eq_findSome?_guard]
  exact findSome?_lowest hl hi (by simp [hp]) fun j hj hji => by simp [hlow j hj hji]

end First

/-- What the checks of a vector access find, none where no lane is active. -/
def vecFault (s : State) (q : BitVec 3) (w : Nat) (base : Thread → Option Nat) (addr : Thread → Nat → Nat) (store : Bool) :
    Option (Nat × Nat × Nat × Nat) :=
  if (s.th.activeLanes q w).isEmpty then none
  else s.me.vecCheck s.th.slot (w / 8) (base s.th) ((s.th.activeLanes q w).map (addr s.th)) store

section Fault
variable {s : State} {q : BitVec 3} {w : Nat} {base : Thread → Option Nat} {addr : Thread → Nat → Nat} {store : Bool}

theorem vecFault_of_active (h : ∃ i, active s q (256 / w) i) : vecFault s q w base addr store =
    s.me.vecCheck s.th.slot (w / 8) (base s.th) ((s.th.activeLanes q w).map (addr s.th)) store := by
  obtain ⟨i, hi⟩ := h
  rw [vecFault, if_neg]
  simpa using List.ne_nil_of_mem (mem_activeLanes.2 hi)

theorem map_activeLanes_ne_nil (h : ∃ i, active s q (256 / w) i) : (s.th.activeLanes q w).map (addr s.th) ≠ [] := by
  obtain ⟨i, hi⟩ := h
  simpa using List.ne_nil_of_mem (mem_activeLanes.2 hi)

theorem vecFault_base {x : Nat} (h : ∃ i, active s q (256 / w) i) (hb : base s.th = some x) (hx : x % 8 ≠ 0) :
    vecFault s q w base addr store = some (rMisalign, 0, 32, x) := by
  rw [vecFault_of_active h, hb, Core.vecCheck_base hx]

theorem vecFault_lane {i : Nat} (hb : base s.th = none) (hi : active s q (256 / w) i) (hx : addr s.th i % (w / 8) ≠ 0)
    (hlow : ∀ j, active s q (256 / w) j → j < i → addr s.th j % (w / 8) = 0) :
    vecFault s q w base addr store = some (rMisalign, 0, w / 8, addr s.th i) := by
  have hfind : ((s.th.activeLanes q w).map (addr s.th)).find? (fun x => x % (w / 8) ≠ 0) = some (addr s.th i) := by
    rw [List.find?_map, find?_lowest (activeLanes_sorted ..) (mem_activeLanes.2 hi) (by simpa using hx)
      fun j hj hji => by simpa using hlow j (mem_activeLanes.1 hj) hji]
    rfl
  rw [vecFault_of_active ⟨i, hi⟩, hb, Core.vecCheck_lane hfind]

variable (hal : AlignedLanes (base s.th) (w / 8) ((s.th.activeLanes q w).map (addr s.th)))
include hal

theorem vecFault_none {R : Nat → RegEntry}
    (hok : ∀ i, active s q (256 / w) i → s.me.checkLocal s.th.slot (addr s.th i) (w / 8) store = .ok (R i)) :
    vecFault s q w base addr store = none := by
  by_cases h : ∃ i, active s q (256 / w) i
  · rw [vecFault_of_active h, Core.vecCheck_aligned hal (map_activeLanes_ne_nil h), List.findSome?_map, List.findSome?_eq_none_iff]
    intro i hi
    simp only [Function.comp_apply, hok i (mem_activeLanes.1 hi)]
  · rw [vecFault, if_pos]
    exact List.isEmpty_iff.2 (List.eq_nil_iff_forall_not_mem.2 fun i hi => h ⟨i, mem_activeLanes.1 hi⟩)

theorem vecFault_denied {i : Nat} {r : Nat × Nat} (hi : active s q (256 / w) i)
    (hr : s.me.checkLocal s.th.slot (addr s.th i) (w / 8) store = .error r)
    (hlow : ∀ j, active s q (256 / w) j → j < i → ∃ e, s.me.checkLocal s.th.slot (addr s.th j) (w / 8) store = .ok e) :
    vecFault s q w base addr store = some (rRegionDeny, r.1, r.2, addr s.th i) := by
  rw [vecFault_of_active ⟨i, hi⟩, Core.vecCheck_aligned hal (map_activeLanes_ne_nil ⟨i, hi⟩), List.findSome?_map]
  refine findSome?_lowest (activeLanes_sorted ..) (mem_activeLanes.2 hi) ?_ fun j hj hji => ?_
  · simp only [Function.comp_apply, hr]
  · obtain ⟨e, he⟩ := hlow j (mem_activeLanes.1 hj) hji
    simp only [Function.comp_apply, he]

end Fault

/-! ## The bad words of a load (R83) -/

theorem lowestWord_eq {l : List Nat} {x : Nat} (hx : x ∈ l) (hle : ∀ y ∈ l, x ≤ y) : lowestWord l = some x := by
  have : lowestWord l = l.min? := by cases l <;> rfl
  rw [this, List.min?_eq_some_iff]
  exact ⟨hx, hle⟩

/-- The bad word of an access that lies in one bank word. -/
theorem Core.badWord_oneWord {k : Core} {e : RegEntry} {a n x : Nat} (hn : 0 < n) (hw : ∀ j < n, e.place (a + j) / 8 = x) :
    k.badWord e a n = if x ∈ k.bad then some x else none := by
  rw [Core.badWord, RegEntry.bankWords_eq_singleton hn hw]
  by_cases h : x ∈ k.bad <;> simp [h]

/-! ## The ways a vector access ends -/

section Ends
variable {d : Reg} {vs xs : List Reg} {q : BitVec 3} {w : Nat} {base : Thread → Option Nat} {addr : Thread → Nat → Nat} {s : State}
  (hx : s.th.hereXs xs = true) (hv : hereV s (d :: vs) q) (hacq : s.me.acquiring s.th.fid = false)
include hx hv hacq

theorem loadVec_traps {tp mp : BitVec 1} {r sub det va : Nat} (h : vecFault s q w base addr false = some (r, sub, det, va)) :
    loadVec d vs xs q tp mp w base addr s = s.trap r sub det (BitVec.ofNat 64 va) := by
  rw [loadVec, withV_here (hereVs_of_hereV hv) hx, access_eq hacq]
  rw [vecFault] at h
  simp only [h]

theorem storeVec_traps {r sub det va : Nat} (h : vecFault s q w base addr true = some (r, sub, det, va)) :
    storeVec d vs xs q w base addr s = s.trap r sub det (BitVec.ofNat 64 va) := by
  rw [storeVec, withV_here (hereVs_of_hereV hv) hx, access_eq hacq]
  rw [vecFault] at h
  simp only [h]

/-- The result of a permitted load, where the lanes' bytes and bad words are known. -/
theorem loadVec_sound {tp mp : BitVec 1} (h : vecFault s q w base addr false = none) {op : Nat → BitVec w}
    (hbad : ∀ i, active s q (256 / w) i → s.me.badWord (s.me.laneRegion s.th.slot (addr s.th i)) (addr s.th i) (w / 8) = none)
    (hop : ∀ i, active s q (256 / w) i →
      BitVec.ofNat w (ofBytes (s.me.readIn (s.me.laneRegion s.th.slot (addr s.th i)) (addr s.th i) (w / 8))) = op i) :
    ∃ v, loadVec d vs xs q tp mp w base addr s = .next (wroteV s d v) ∧ LaneWise s d q tp mp w v op := by
  have hlow : (s.th.activeLanes q w).filterMap (fun i =>
      s.me.badWord (s.me.laneRegion s.th.slot (addr s.th i)) (addr s.th i) (w / 8)) = [] :=
    List.filterMap_eq_nil_iff.2 fun i hi => hbad i (mem_activeLanes.1 hi)
  refine ⟨_, ?_, laneWise_lanes (op := fun i =>
    if (s.me.badWord (s.me.laneRegion s.th.slot (addr s.th i)) (addr s.th i) (w / 8)).isSome then 0
    else ofBytes (s.me.readIn (s.me.laneRegion s.th.slot (addr s.th i)) (addr s.th i) (w / 8))) fun i hi => ?_⟩
  · rw [loadVec, withV_here (hereVs_of_hereV hv) hx, access_eq hacq]
    rw [vecFault] at h
    simp only [h, hlow, lowestWord]
    rfl
  · simpa [hbad i hi] using hop i hi

theorem loadVec_bad {tp mp : BitVec 1} (h : vecFault s q w base addr false = none) {op : Nat → BitVec w} {x : Nat}
    (hlow : lowestWord ((s.th.activeLanes q w).filterMap fun i =>
      s.me.badWord (s.me.laneRegion s.th.slot (addr s.th i)) (addr s.th i) (w / 8)) = some x)
    (hop : ∀ i, active s q (256 / w) i →
      BitVec.ofNat w (if (s.me.badWord (s.me.laneRegion s.th.slot (addr s.th i)) (addr s.th i) (w / 8)).isSome then 0
        else ofBytes (s.me.readIn (s.me.laneRegion s.th.slot (addr s.th i)) (addr s.th i) (w / 8))) = op i) :
    ∃ v, loadVec d vs xs q tp mp w base addr s = .next (wroteV (s.onMe fun k => k.recordErr s.th.slot 0 (BitVec.ofNat 64 (x * 8))) d v) ∧
      LaneWise s d q tp mp w v op := by
  refine ⟨_, ?_, laneWise_lanes hop⟩
  rw [loadVec, withV_here (hereVs_of_hereV hv) hx, access_eq hacq]
  rw [vecFault] at h
  simp only [h, hlow]
  rfl

/-- A permitted store into unmarked granules stores its active lanes in ascending order. -/
theorem storeVec_stores (h : vecFault s q w base addr true = none)
    (hcow : ∀ i, active s q (256 / w) i → s.me.cowHit (s.me.laneRegion s.th.slot (addr s.th i)) (addr s.th i) (w / 8) = false) :
    storeVec d vs xs q w base addr s = .next (wentOn ((s.th.activeLanes q w).foldl (fun u i =>
      u.storeIn (u.me.laneRegion s.th.slot (addr s.th i)) (addr s.th i) (toBytes (w / 8) (lane w (V s d) i))) s)) := by
  have hany : ((s.th.activeLanes q w).any fun i =>
      s.me.cowHit (s.me.laneRegion s.th.slot (addr s.th i)) (addr s.th i) (w / 8)) = false :=
    List.any_eq_false.2 fun i hi => by simp [hcow i (mem_activeLanes.1 hi)]
  rw [storeVec, withV_here (hereVs_of_hereV hv) hx, access_eq hacq]
  rw [vecFault] at h
  simp only [h, hany, Bool.false_eq_true, if_false]
  rfl

theorem storeVec_marked (h : vecFault s q w base addr true = none)
    (hcow : ∃ i, active s q (256 / w) i ∧ s.me.cowHit (s.me.laneRegion s.th.slot (addr s.th i)) (addr s.th i) (w / 8) = true) :
    storeVec d vs xs q w base addr s = s.stall := by
  obtain ⟨i, hi, hc⟩ := hcow
  have hany : ((s.th.activeLanes q w).any fun i =>
      s.me.cowHit (s.me.laneRegion s.th.slot (addr s.th i)) (addr s.th i) (w / 8)) = true :=
    List.any_eq_true.2 ⟨i, mem_activeLanes.2 hi, hc⟩
  rw [storeVec, withV_here (hereVs_of_hereV hv) hx, access_eq hacq]
  rw [vecFault] at h
  simp only [h, hany, if_true]

end Ends

end Sys2Proof.Machine
end

section
/-! SUPPORT. The memory after a vector store: the highest lane that names a byte gives it (R273). -/

namespace Sys2Proof.Machine

open Sys2Proof.Claims (X V Ln wid maskOn active hereV LaneWise wroteV wentOn)

/-! ## Updates of one core, one after another -/

theorem SMap.put_put {α : Type} (m : SMap α) (k : Nat) (v w : α) : (m.put k v).put k w = m.put k w := by
  induction m with
  | nil => simp [SMap.put]
  | cons p m ih =>
    obtain ⟨j, u⟩ := p
    rcases Nat.lt_trichotomy k j with h | rfl | h
    · simp [SMap.put, h]
    · simp [SMap.put]
    · simp [SMap.put, Nat.not_lt.2 h.le, h.ne, ih]

theorem State.onCore_onCore (s : State) (c : Nat) (f g : Core → Core) : (s.onCore c f).onCore c g = s.onCore c fun k => g (f k) := by
  simp only [State.onCore, State.setCore, State.core, SMap.get_put_same, SMap.put_put]

theorem State.onMe_onMe (s : State) (f g : Core → Core) : (s.onMe f).onMe g = s.onMe fun k => g (f k) :=
  s.onCore_onCore s.cur f g

/-! ## The memory -/

/-- The memory after the lanes of a list, in its order, have written their bytes at their places. -/
def laneWrites (place : Nat → Nat → Nat) (A : Nat → Nat) (bs : Nat → List Byte) (l : List Nat) (m : Memory) : Memory :=
  l.foldl (fun m i => m.writeMap (place i) (A i) (bs i)) m

section Writes
variable {place : Nat → Nat → Nat} {A : Nat → Nat} {bs : Nat → List Byte} {l : List Nat}

theorem laneWrites_cons (i : Nat) (m : Memory) :
    laneWrites place A bs (i :: l) m = laneWrites place A bs l (m.writeMap (place i) (A i) (bs i)) := rfl

theorem read_laneWrites_off {m : Memory} {x : Nat} (h : ∀ i ∈ l, ∀ j < (bs i).length, x ≠ place i (A i + j)) :
    (laneWrites place A bs l m).read x = m.read x := by
  induction l generalizing m with
  | nil => rfl
  | cons a l ih =>
    rw [laneWrites_cons, ih fun i hi => h i (List.mem_cons_of_mem _ hi)]
    exact Memory.read_writeMap_off _ _ _ _ _ fun j hj e => h a List.mem_cons_self j hj e.symm

theorem read_laneWrites_on {m : Memory} (hl : l.Pairwise (· < ·))
    (hinj : ∀ i ∈ l, ∀ j < (bs i).length, ∀ j' < (bs i).length, place i (A i + j) = place i (A i + j') → j = j')
    {i j : Nat} (hi : i ∈ l) (hj : j < (bs i).length)
    (hlast : ∀ i' ∈ l, i < i' → ∀ j' < (bs i').length, place i' (A i' + j') ≠ place i (A i + j)) :
    (laneWrites place A bs l m).read (place i (A i + j)) = (bs i)[j] := by
  induction l generalizing m with
  | nil => cases hi
  | cons a l ih =>
    obtain ⟨ha, hl⟩ := List.pairwise_cons.1 hl
    rw [laneWrites_cons]
    rcases List.mem_cons.1 hi with rfl | hi
    · rw [read_laneWrites_off fun i' hi' j' hj' => (hlast i' (List.mem_cons_of_mem _ hi') (ha i' hi') j' hj').symm]
      exact Memory.read_writeMap_on _ _ _ _ (hinj i List.mem_cons_self) j hj
    · exact ih hl (fun i hi => hinj i (List.mem_cons_of_mem _ hi)) hi fun i' hi' => hlast i' (List.mem_cons_of_mem _ hi')

end Writes

theorem Core.laneRegion_mem (k : Core) (m : Memory) : ({ k with mem := m } : Core).laneRegion = k.laneRegion := rfl

/-- Stores into sound words, one lane after another, change the memory alone. -/
theorem storeLanes_of_bad_nil {slot n : Nat} {A : Nat → Nat} {x : Nat → Nat} (l : List Nat) {s : State} (hbad : s.me.bad = []) (g : Core → Core) :
    (l.foldl (fun u i => u.storeIn (u.me.laneRegion slot (A i)) (A i) (toBytes n (x i))) s).onMe g =
      (s.onMe fun k => { k with
        mem := laneWrites (fun i => (s.me.laneRegion slot (A i)).place) A (fun i => toBytes n (x i)) l s.me.mem }).onMe g := by
  induction l generalizing s with
  | nil =>
    rw [State.onMe_onMe]
    rfl
  | cons i l ih =>
    rw [List.foldl_cons, State.storeIn_of_bad_nil hbad, ih (by simpa [Claims.stored] using hbad)]
    simp only [Claims.stored, State.onMe_onMe, State.me_onMe, Core.laneRegion_mem, laneWrites_cons]

theorem wentOn_storeLanes_of_bad_nil {slot n : Nat} {A : Nat → Nat} {x : Nat → Nat} (l : List Nat) {s : State} (hbad : s.me.bad = []) :
    wentOn (l.foldl (fun u i => u.storeIn (u.me.laneRegion slot (A i)) (A i) (toBytes n (x i))) s) =
      wentOn (s.onMe fun k => { k with
        mem := laneWrites (fun i => (s.me.laneRegion slot (A i)).place) A (fun i => toBytes n (x i)) l s.me.mem }) :=
  storeLanes_of_bad_nil l hbad fun k => k.onThread k.tset fun t => t.nextPc

/-- A byte of the bytes of a lane is the lane's byte of the register. -/
theorem byte_of_lane {w i j : Nat} (v : V256) (hj : 8 * j + 8 ≤ w) :
    BitVec.ofNat 8 (lane w v i / 256 ^ j) = v.extractLsb' (w * i + 8 * j) 8 := by
  apply BitVec.eq_of_toNat_eq
  have hp : (256 : Nat) ^ j = 2 ^ (8 * j) := by rw [Nat.pow_mul]
  rw [BitVec.toNat_ofNat, BitVec.extractLsb'_toNat, lane, hp, ← Nat.shiftRight_eq_div_pow, Nat.shiftRight_add]
  apply Nat.eq_of_testBit_eq
  intro b
  simp only [Nat.testBit_mod_two_pow, Nat.testBit_shiftRight]
  by_cases hb : b < 8
  · simp [hb, show 8 * j + b < w by omega]
  · simp [hb]

end Sys2Proof.Machine
end

section
/-! CERTIFICATES. Local vector loads and stores, and their traps (R86, R271 to R273). -/

namespace Sys2Proof.Machine

open Sys2Proof.Claims (X V Ln wid maskOn active hereV LaneWise wroteV wentOn)

/-- What R271 to R273 say of one load and one store of lanes of `w` bits at the addresses `addr`, once their alignment is checked. -/
def VecLocalRow (s : State) (d : Reg) (q : BitVec 3) (t m : BitVec 1) (w : Nat) (ld st : Instr) (addr : Nat → Nat) : Prop :=
  let n := w / 8
  let on : Nat → Prop := active s q (256 / w)
  (∀ R : Nat → RegEntry, (∀ i, on i → s.me.checkLocal s.th.slot (addr i) n false = .ok (R i)) →
    (∀ i, on i → ∀ j < n, (R i).place (addr i + j) / 8 ∉ s.me.bad) →
    ∃ v, exec ld s = .next (wroteV s d v) ∧ LaneWise s d q t m w v (fun i => BitVec.ofNat w
      (((List.range n).map fun j => (s.me.mem.read ((R i).place (addr i + j))).toNat * 256 ^ j).sum))) ∧
  (∀ R : Nat → RegEntry, (∀ i, on i → s.me.checkLocal s.th.slot (addr i) n true = .ok (R i)) → s.me.bad = [] → s.me.cow = [] →
    ∃ M, exec st s = .next (wentOn (s.onMe fun k => { k with mem := M })) ∧
      (∀ x, (∀ i, on i → ∀ j < n, x ≠ (R i).place (addr i + j)) → M.read x = s.me.mem.read x) ∧
      (∀ i, on i → ∀ j < n, (∀ i', on i' → i < i' → ∀ j' < n, (R i').place (addr i' + j') ≠ (R i).place (addr i + j)) →
        M.read ((R i).place (addr i + j)) = (V s d).extractLsb' (w * i + 8 * j) 8)) ∧
  (∀ R : Nat → RegEntry, (∀ i, on i → s.me.checkLocal s.th.slot (addr i) n false = .ok (R i)) →
    (∀ i, on i → ∀ j < n, (R i).place (addr i + j) / 8 = (R i).place (addr i) / 8) →
    ∀ W, (∃ i, on i ∧ (R i).place (addr i) / 8 = W) → W ∈ s.me.bad →
      (∀ i, on i → (R i).place (addr i) / 8 ∈ s.me.bad → W ≤ (R i).place (addr i) / 8) →
      ∃ v, exec ld s = .next (wroteV (s.onMe fun k => k.recordErr s.th.slot 0 (BitVec.ofNat 64 (W * 8))) d v) ∧
        LaneWise s d q t m w v (fun i => if (R i).place (addr i) / 8 ∈ s.me.bad then 0 else BitVec.ofNat w
          (((List.range n).map fun j => (s.me.mem.read ((R i).place (addr i + j))).toNat * 256 ^ j).sum))) ∧
  (∀ R : Nat → RegEntry, (∀ i, on i → s.me.checkLocal s.th.slot (addr i) n true = .ok (R i)) →
    (∃ i, on i ∧ ∃ j < n, (R i).place (addr i + j) / 1024 ∈ s.me.cow) → exec st s = s.stall) ∧
  (∀ (R : Nat → RegEntry) (l : Nat), (∀ i, on i → s.me.checkLocal s.th.slot (addr i) n true = .ok (R i)) → s.me.cow = [] → on l →
    (∀ i, on i → i = l) → n < 8 → (∀ j < n, (R l).place (addr l + j) / 8 = (R l).place (addr l) / 8) →
    (R l).place (addr l) / 8 ∈ s.me.bad → exec st s =
      .next (wentOn (s.onMe fun k => k.recordErr s.th.slot 0 (BitVec.ofNat 64 ((R l).place (addr l) / 8 * 8)))))

theorem activeLanes_eq_singleton {s : State} {q : BitVec 3} {w l : Nat} (hl : active s q (256 / w) l)
    (hone : ∀ i, active s q (256 / w) i → i = l) : s.th.activeLanes q w = [l] := by
  have hmem := mem_activeLanes.2 hl
  have hall : ∀ i ∈ s.th.activeLanes q w, i = l := fun i hi => hone i (mem_activeLanes.1 hi)
  have hlt := activeLanes_sorted s.th q w
  cases h : s.th.activeLanes q w with
  | nil => rw [h] at hmem; cases hmem
  | cons x xs =>
    rw [h] at hall hlt
    have hx := hall x List.mem_cons_self
    have hxs : xs = [] := List.eq_nil_iff_forall_not_mem.2 fun y hy =>
      absurd ((List.pairwise_cons.1 hlt).1 y hy) (by rw [hx, hall y (List.mem_cons_of_mem _ hy)]; exact lt_irrefl l)
    rw [hx, hxs]

section Row
variable {d : Reg} {vs xs : List Reg} {q : BitVec 3} {w : Nat} {base : Thread → Option Nat} {addr : Thread → Nat → Nat} {s : State}
  {t m : BitVec 1} {ld st : Instr}
  (hn : 0 < w / 8) (hw : 8 * (w / 8) = w) (hx : s.th.hereXs xs = true) (hv : hereV s (d :: vs) q) (hacq : s.me.acquiring s.th.fid = false)
  (hal : AlignedLanes (base s.th) (w / 8) ((s.th.activeLanes q w).map (addr s.th)))
  (hld : exec ld s = loadVec d vs xs q t m w base addr s) (hst : exec st s = storeVec d vs xs q w base addr s)
include hn hw hx hv hacq hal hld hst

theorem vecLocalRow : VecLocalRow s d q t m w ld st (addr s.th) := by
  refine ⟨fun R hR hbad => ?sound, fun R hR hbad hcow => ?stores, fun R hR hone W hW hWbad hlow => ?bad, fun R hR hcow => ?marked,
    fun R l hR hcow hl hone h8 hword hbad => ?part⟩
  case sound =>
    rw [hld]
    refine loadVec_sound hx hv hacq (vecFault_none hal hR) (fun i hi => ?_) fun i hi => ?_
    · rw [Core.laneRegion_of_checkLocal (hR i hi)]
      exact Core.badWord_none (hbad i hi)
    · rw [Core.laneRegion_of_checkLocal (hR i hi), Core.ofBytes_readIn]
  case bad =>
    have hword : ∀ i, active s q (256 / w) i → s.me.badWord (s.me.laneRegion s.th.slot (addr s.th i)) (addr s.th i) (w / 8) =
        if (R i).place (addr s.th i) / 8 ∈ s.me.bad then some ((R i).place (addr s.th i) / 8) else none := fun i hi => by
      rw [Core.laneRegion_of_checkLocal (hR i hi)]
      exact Core.badWord_oneWord hn (hone i hi)
    rw [hld]
    refine loadVec_bad hx hv hacq (vecFault_none hal hR) (lowestWord_eq (List.mem_filterMap.2 ?_) fun y hy => ?_) fun i hi => ?_
    · obtain ⟨i, hi, rfl⟩ := hW
      exact ⟨i, mem_activeLanes.2 hi, by rw [hword i hi, if_pos hWbad]⟩
    · obtain ⟨i, hi, hy⟩ := List.mem_filterMap.1 hy
      rw [hword i (mem_activeLanes.1 hi)] at hy
      obtain ⟨hb, hy⟩ := Option.ite_none_right_eq_some.1 hy
      cases hy
      exact hlow i (mem_activeLanes.1 hi) hb
    · rw [hword i hi]
      split
      · rfl
      · rw [Core.laneRegion_of_checkLocal (hR i hi), Core.ofBytes_readIn]
        rfl
  case marked =>
    rw [hst]
    obtain ⟨i, hi, hc⟩ := hcow
    refine storeVec_marked hx hv hacq (vecFault_none hal hR) ⟨i, hi, ?_⟩
    rw [Core.laneRegion_of_checkLocal (hR i hi)]
    exact Core.cowHit_of_mem hc
  case part =>
    have hlen := length_toBytes (w / 8) (lane w (V s d) l)
    rw [hst, storeVec_stores hx hv hacq (vecFault_none hal hR) fun i _ => Core.cowHit_of_cow_nil hcow, activeLanes_eq_singleton hl hone,
      List.foldl_cons, List.foldl_nil, Core.laneRegion_of_checkLocal (hR l hl), State.storeIn_part (by rwa [hlen]) hbad (by omega) (by omega)]
  case stores =>
    have hplace : ∀ i, active s q (256 / w) i → s.me.laneRegion s.th.slot (addr s.th i) = R i := fun i hi =>
      Core.laneRegion_of_checkLocal (hR i hi)
    have hlen : ∀ i, (toBytes (w / 8) (lane w (V s d) i)).length = w / 8 := fun i => length_toBytes _ _
    rw [hst, storeVec_stores hx hv hacq (vecFault_none hal hR) fun i _ => Core.cowHit_of_cow_nil hcow]
    refine ⟨_, congrArg Host.Outcome.next (wentOn_storeLanes_of_bad_nil _ hbad), fun x hx => ?_, fun i hi j hj hlast => ?_⟩
    · refine read_laneWrites_off fun i hi j hj => ?_
      rw [hplace i (mem_activeLanes.1 hi)]
      exact hx i (mem_activeLanes.1 hi) j (hlen i ▸ hj)
    · have hon := read_laneWrites_on (place := fun i => (s.me.laneRegion s.th.slot (addr s.th i)).place) (A := addr s.th)
        (bs := fun i => toBytes (w / 8) (lane w (V s d) i)) (m := s.me.mem) (activeLanes_sorted s.th q w)
        (fun i hi j _ j' _ h => by
          have hbase := Core.base_le_of_checkLocal (hR i (mem_activeLanes.1 hi))
          rw [hplace i (mem_activeLanes.1 hi)] at h
          exact Nat.add_left_cancel (RegEntry.place_injective' (by omega) (by omega) h))
        (mem_activeLanes.2 hi) (j := j) (by rwa [hlen]) fun i' hi' hlt j' hj' => by
          rw [hplace i hi, hplace i' (mem_activeLanes.1 hi')]
          exact hlast i' (mem_activeLanes.1 hi') hlt j' (hlen i' ▸ hj')
      rw [hplace i hi, getElem_toBytes, byte_of_lane _ (by omega)] at hon
      exact hon

end Row

/-! ## The three forms of addresses (R271) -/

section Forms
variable {a b : Reg} {w : Nat} {s : State} {q : BitVec 3} {addr : Nat → Nat}

theorem unitAddr_eq : unitAddr a w s.th = fun i => (((X s a).toNat + i * (w / 8 : Nat) : Int) % 2 ^ 20).toNat := by
  funext i
  simp [unitAddr, localAddr]

theorem strideAddr_eq : strideAddr a b s.th = fun i => (((X s a).toNat + i * (X s b).toInt : Int) % 2 ^ 20).toNat := rfl

theorem indexAddr_eq : indexAddr a b w s.th = fun i => (((X s a).toNat + (Ln w (V s b) i).toNat * (w / 8 : Nat) : Int) % 2 ^ 20).toNat := by
  funext i
  simp [indexAddr, localAddr, Ln, lane]

theorem vecBase_mod : vecBase a s.th % 8 = (X s a).toNat % 8 := by
  have : vecBase a s.th = (((X s a).toNat : Int) % 2 ^ 20).toNat := by simp [vecBase, localAddr]
  omega

theorem alignedLanes_base (h : (∃ i, active s q (256 / w) i) → (X s a).toNat % 8 = 0) :
    AlignedLanes (some (vecBase a s.th)) (w / 8) ((s.th.activeLanes q w).map addr) := by
  intro hne
  obtain ⟨i, hi⟩ := List.exists_mem_of_ne_nil _ (mt List.map_eq_nil_iff.2 hne)
  rw [vecBase_mod]
  exact h ⟨i, mem_activeLanes.1 hi⟩

theorem alignedLanes_each (h : ∀ i, active s q (256 / w) i → addr i % (w / 8) = 0) :
    AlignedLanes none (w / 8) ((s.th.activeLanes q w).map addr) := by
  intro x hx
  obtain ⟨i, hi, rfl⟩ := List.mem_map.1 hx
  exact h i (mem_activeLanes.1 hi)

end Forms

theorem wid_div (c : BitVec 2) : 0 < wid c / 8 ∧ 8 * (wid c / 8) = wid c := by
  rw [wid, Nat.mul_div_cancel_left _ (by decide)]
  exact ⟨by positivity, rfl⟩

theorem vectorLocal : Claims.VectorLocal := by
  intro d a b q t m c s hacq w n on low
  obtain ⟨hn, hw⟩ := wid_div c
  refine forall_mem_of_cons ?unit <| forall_mem_of_cons ?strided <| forall_mem_of_cons ?indexed (by simp)
  case unit =>
    intro hx hv addr hal
    have hrow := vecLocalRow (addr := unitAddr a w) (t := t) (m := m) hn hw hx hv hacq (alignedLanes_base hal) (exec_vld s) (exec_vst s)
    rw [unitAddr_eq] at hrow
    exact hrow
  case strided =>
    intro hx hv addr hal
    exact vecLocalRow (addr := strideAddr a b) (base := fun _ => none) (t := t) (m := m) hn hw hx hv hacq (alignedLanes_each hal) (exec_vlds s) (exec_vsts s)
  case indexed =>
    intro hx hv addr hal
    have hrow := vecLocalRow (addr := indexAddr a b w) (base := fun _ => none) (t := t) (m := m) hn hw hx hv hacq
      (alignedLanes_each (by rw [indexAddr_eq]; exact hal)) (exec_vldg s) (exec_vstg s)
    rw [indexAddr_eq] at hrow
    exact hrow

/-- R272: the checks of a vector access decide its trap, whether it loads or stores. -/
theorem vectorLocalTraps : Claims.VectorLocalTraps := by
  intro d a b q t m c s hacq w n on low unit strided indexed
  have hunit : unitAddr a w s.th = unit := unitAddr_eq
  have hindexed : indexAddr a b w s.th = indexed := indexAddr_eq
  refine ⟨fun hx hv hact hal => ?base, ?lanes, ?denied⟩
  case base =>
    have hbase : vecBase a s.th = low (X s a).toNat := by simp [vecBase, localAddr, low]
    have hfault : ∀ store, vecFault s q w (fun u => some (vecBase a u)) (unitAddr a w) store = some (rMisalign, 0, 32, vecBase a s.th) :=
      fun store => vecFault_base hact rfl (by rwa [vecBase_mod])
    rw [← hbase]
    exact forall_mem_of_cons ((exec_vld s).trans (loadVec_traps hx hv hacq (hfault false))) <|
      forall_mem_of_cons ((exec_vst s).trans (storeVec_traps hx hv hacq (hfault true))) (by simp)
  case lanes =>
    have hfault : ∀ (addr : Thread → Nat → Nat) (store : Bool) i, on i → addr s.th i % n ≠ 0 → (∀ j, on j → j < i → addr s.th j % n = 0) →
        vecFault s q w (fun _ => none) addr store = some (rMisalign, 0, n, addr s.th i) := fun addr store i hi hmis hlow =>
      vecFault_lane rfl hi hmis hlow
    rw [← hindexed]
    refine forall_mem_of_cons (fun hx hv i hi hmis hlow => ?_) <| forall_mem_of_cons (fun hx hv i hi hmis hlow => ?_) <|
      forall_mem_of_cons (fun hx hv i hi hmis hlow => ?_) <| forall_mem_of_cons (fun hx hv i hi hmis hlow => ?_) (by simp)
    · exact (exec_vlds s).trans (loadVec_traps hx hv hacq (hfault (strideAddr a b) false i hi hmis hlow))
    · exact (exec_vsts s).trans (storeVec_traps hx hv hacq (hfault (strideAddr a b) true i hi hmis hlow))
    · exact (exec_vldg s).trans (loadVec_traps hx hv hacq (hfault (indexAddr a b w) false i hi hmis hlow))
    · exact (exec_vstg s).trans (storeVec_traps hx hv hacq (hfault (indexAddr a b w) true i hi hmis hlow))
  case denied =>
    rw [← hindexed, ← hunit]
    refine forall_mem_of_cons (fun hx hv hal i r hi hr hlow => ?_) <| forall_mem_of_cons (fun hx hv hal i r hi hr hlow => ?_) <|
      forall_mem_of_cons (fun hx hv hal i r hi hr hlow => ?_) <| forall_mem_of_cons (fun hx hv hal i r hi hr hlow => ?_) <|
      forall_mem_of_cons (fun hx hv hal i r hi hr hlow => ?_) <| forall_mem_of_cons (fun hx hv hal i r hi hr hlow => ?_) (by simp)
    · exact (exec_vld s).trans (loadVec_traps hx hv hacq (vecFault_denied (alignedLanes_base fun _ => hal) hi hr hlow))
    · exact (exec_vst s).trans (storeVec_traps hx hv hacq (vecFault_denied (alignedLanes_base fun _ => hal) hi hr hlow))
    · exact (exec_vlds s).trans (loadVec_traps (addr := strideAddr a b) hx hv hacq (vecFault_denied (alignedLanes_each hal) hi hr hlow))
    · exact (exec_vsts s).trans (storeVec_traps (addr := strideAddr a b) hx hv hacq (vecFault_denied (alignedLanes_each hal) hi hr hlow))
    · exact (exec_vldg s).trans (loadVec_traps (addr := indexAddr a b w) hx hv hacq (vecFault_denied (alignedLanes_each hal) hi hr hlow))
    · exact (exec_vstg s).trans (storeVec_traps (addr := indexAddr a b w) hx hv hacq (vecFault_denied (alignedLanes_each hal) hi hr hlow))

/-- Settles O28: one row for each form of addresses, and the checks that decide a trap. -/
theorem vectorLocalAccesses : Obligations.VectorLocalAccesses := ⟨vectorLocal, vectorLocalTraps⟩

end Sys2Proof.Machine
end

section
/-! CERTIFICATES. RALLOC, RFREE and GIVE (R303 to R305): the statement about them fails on a full region table that lists an index twice. -/

namespace Sys2Proof.Machine

/-- A core with 248 valid entries in its region table, the entry 0 listed again as a tombstone that RALLOC and GIVE may take. -/
def crowdedCore : Core where
  regions := (0, { valid := true }) :: (0, { valid := true, tomb := true }) :: (List.range 247).map fun i => (i + 1, { valid := true })
  slots := [(0, { state := .firing })]

/-- The pod in which the actor of that core, whose name is 0, issues. -/
def crowdedState : State :=
  { State.reset with
    cores := [(0, crowdedCore)]
    dir := [(0, { name := 0, inc := 0, state := 1, pkg := 0, die := 0, kind := 0, cidx := 0, slot := 0, supv := 0, rrec := 0 })] }

/-- The owner of a region-table entry after an answer. -/
def ownerAfter (i : Nat) : Answer → Option Nat
  | .next t => some (t.me.region i).owner
  | .fault _ | .refused _ => none

/-- The region that the actor gives to itself becomes its own tombstone: the entry that GIVE finds free for one is the region's own. -/
theorem ownerAfter_give_crowdedState : ownerAfter 0 (exec (.give 0 0 0 0) crowdedState) = some 0 := by
  rw [exec_give]
  decide +kernel

theorem isHere_crowdedState : crowdedState.isHere (Claims.X crowdedState 0) = true := by decide

/-- Refutes O37: where the region table is full and lists the index of the region given a second time, as a tombstone, GIVE to an actor of the
same core takes that index for the giver's tombstone, so that the giver and not the core (64) owns the entry afterwards. -/
theorem not_regionInstructions : ¬ Obligations.RegionInstructions := by
  intro h
  obtain ⟨-, -, -, -, -, -, -, -, -, -, -, -, -, hgive⟩ := h 0 0 0 0 crowdedState (by decide)
  obtain ⟨t, g, ht, -, -, -, -, -, -, -, -, -, -, howner, -⟩ := hgive (by decide) (by decide) (by decide) (by decide) (by decide) (by decide)
    (by decide) (by decide) (.inl isHere_crowdedState)
  have h0 := ownerAfter_give_crowdedState
  rw [ht] at h0
  exact absurd ((Option.some.inj h0).symm.trans howner) (by decide)

end Sys2Proof.Machine
end

section
/-! CERTIFICATES. The events of pages (R102 to R148): the statement about them fails on a drop packet whose number the pod gives out again. -/

namespace Sys2Proof.Machine

/-- A pod in which a replica owner has a drop of its page 0 under way and a service for that page: the packet's number is the next one to be
given out. -/
def renumberedDrop : State :=
  { State.reset with
    net := [(State.reset.serial, { src := 0, born := 0, pay := .drop 0 1 [0] 0 })]
    owners := [(0, { homes := [(0, { fstate := .replica })], svcs := [{ page := 0, tkt := 0, code := 0, subs := [] }] })] }

/-- Whether a packet is under way after an answer. -/
def packetAfter (n : Nat) : Answer → Option Bool
  | .next t => some (t.packet n).isSome
  | .fault _ | .refused _ => none

/-- The notice that ends the service stands at the number of the drop. -/
theorem packetAfter_replicaDrop_renumberedDrop :
    packetAfter State.reset.serial (exec (.replicaDrop State.reset.serial) renumberedDrop) = some true := by
  decide +kernel

/-- Refutes O54: a drop whose number is the next one that the pod gives out is taken off, and the notice that ends the service for its page is
posted under that number, so that a packet of the number is still under way. -/
theorem not_pageEvents : ¬ Obligations.PageEvents := by
  intro h
  obtain ⟨-, -, -, -, hdrop, -⟩ := h 0 0 State.reset.serial renumberedDrop
  obtain ⟨t, ht, hnone, -⟩ := hdrop _ 1 [0] 0 rfl rfl (by decide) (by decide) (.inl rfl)
  have hsome := packetAfter_replicaDrop_renumberedDrop
  rw [ht] at hsome
  simp [packetAfter, hnone] at hsome

end Sys2Proof.Machine
end

section
/-! SUPPORT. What the updates of an owner, a bank, a commons word, an access and the network leave as it was, one lemma for each part that is
read, and what they make of their own part. -/

namespace Sys2Proof.Machine

/-! ## State.onOwner -/

@[simp] theorem State.core_onOwner (s : State) (q : Nat) (f : Owner → Owner) (c : Nat) : (s.onOwner q f).core c = s.core c := rfl

/-! ## State.onBank -/

@[simp] theorem State.core_onBank (s : State) (q : Nat) (f : Bank → Bank) (c : Nat) : (s.onBank q f).core c = s.core c := rfl
@[simp] theorem State.word_onBank (s : State) (q : Nat) (f : Bank → Bank) (w : Nat) : (s.onBank q f).word w = s.word w := rfl

/-! ## State.setWord -/

@[simp] theorem State.core_setWord (s : State) (q : Nat) (f : CWord) (c : Nat) : (s.setWord q f).core c = s.core c := rfl
@[simp] theorem State.bank_setWord (s : State) (q : Nat) (f : CWord) (b : Nat) : (s.setWord q f).bank b = s.bank b := rfl

/-! ## State.onAcc -/

@[simp] theorem State.bank_onAcc (s : State) (q i : Nat) (f : Access → Access) (b : Nat) : (s.onAcc q i f).bank b = s.bank b := rfl

/-! ## State.answer -/

@[simp] theorem State.owner_answer (s : State) (q i : Nat) (v : AccAnswer) (o : Nat) : (s.answer q i v).owner o = s.owner o := rfl
@[simp] theorem State.bank_answer (s : State) (q i : Nat) (v : AccAnswer) (b : Nat) : (s.answer q i v).bank b = s.bank b := rfl
@[simp] theorem State.word_answer (s : State) (q i : Nat) (v : AccAnswer) (w : Nat) : (s.answer q i v).word w = s.word w := rfl

/-! ## State.countOwner -/

@[simp] theorem State.bank_countOwner (s : State) (q code : Nat) (dom : Option (BitVec 16)) (k : Nat) (b : Nat) : (s.countOwner q code dom k).bank b = s.bank b := rfl
@[simp] theorem State.packet_countOwner (s : State) (q code : Nat) (dom : Option (BitVec 16)) (k : Nat) (n : Nat) : (s.countOwner q code dom k).packet n = s.packet n := rfl

/-! ## State.post -/

@[simp] theorem State.owner_post (s : State) (src : Nat) (pay : Payload) (o : Nat) : (s.post src pay).owner o = s.owner o := rfl
@[simp] theorem State.bank_post (s : State) (src : Nat) (pay : Payload) (b : Nat) : (s.post src pay).bank b = s.bank b := rfl

/-! ## Reading what was changed -/

@[simp] theorem State.owner_onOwner_same (s : State) (o : Nat) (f : Owner → Owner) : (s.onOwner o f).owner o = f (s.owner o) :=
  SMap.get_put_same ..

@[simp] theorem State.bank_onBank_same (s : State) (b : Nat) (f : Bank → Bank) : (s.onBank b f).bank b = f (s.bank b) :=
  SMap.get_put_same ..

theorem State.word_setWord (s : State) (w u : Nat) (v : CWord) : (s.setWord w v).word u = if u = w then v else s.word u :=
  SMap.get_set ..

@[simp] theorem State.word_setWord_same (s : State) (w : Nat) (v : CWord) : (s.setWord w v).word w = v := by simp [State.word_setWord]

end Sys2Proof.Machine
end

section
/-! SUPPORT. An access at its owner (R137 to R140, R375): its turn, and the answer by the state of its page. -/

namespace Sys2Proof.Machine

/-! ## Accesses of a core -/

theorem Core.id_of_find_acc {k : Core} {id : Nat} {a : Access} (h : k.accs.find? (·.id == id) = some a) : a.id = id := by
  simpa using List.find?_some h

theorem Core.find_map_accs {k : Core} {id : Nat} {a : Access} (h : k.accs.find? (·.id == id) = some a) {f : Access → Access}
    (hf : ∀ b, (f b).id = b.id) : (k.accs.map fun b => if b.id = id then f b else b).find? (·.id == id) = some (f a) := by
  have hid : ((fun b : Access => b.id == id) ∘ fun b => if b.id = id then f b else b) = fun b : Access => b.id == id := by
    funext b
    by_cases hb : b.id = id <;> simp [hb, hf]
  rw [List.find?_map, hid, h, Option.map_some, if_pos (Core.id_of_find_acc h)]

theorem State.core_onAcc (s : State) (core id : Nat) (f : Access → Access) : (s.onAcc core id f).core core =
    { s.core core with accs := (s.core core).accs.map fun a => if a.id = id then f a else a } := by
  simp [State.onAcc]

theorem State.find_onAcc {s : State} {core id : Nat} {a : Access} (h : (s.core core).accs.find? (·.id == id) = some a) {f : Access → Access}
    (hf : ∀ b, (f b).id = b.id) : ((s.onAcc core id f).core core).accs.find? (·.id == id) = some (f a) := by
  rw [State.core_onAcc]
  exact Core.find_map_accs h hf

theorem State.find_answer {s : State} {core id : Nat} {a : Access} (h : (s.core core).accs.find? (·.id == id) = some a) (v : AccAnswer) :
    ((s.answer core id v).core core).accs.find? (·.id == id) = some { a with phase := .answered, answer := some v } :=
  State.find_onAcc h fun _ => rfl

/-- The answer to an access, as its core then finds it. -/
theorem State.answer_given {s : State} {core id : Nat} {a : Access} (h : (s.core core).accs.find? (·.id == id) = some a) (v : AccAnswer) :
    (((s.answer core id v).core core).accs.find? (·.id == id)).bind (·.answer) = some v := by
  rw [State.find_answer h]
  rfl

/-! ## The page of an access -/

theorem State.pageAt_held {s : State} {o page : Nat} {e : HomeEntry} (h : (s.owner o).homes.find page = some e) (hf : e.fstate ≠ .moved) :
    s.pageAt o page = .held e.fstate := by
  simp [State.pageAt, h, hf]

theorem State.pageAt_moved {s : State} {o page : Nat} {e : HomeEntry} (h : (s.owner o).homes.find page = some e) (hf : e.fstate = .moved) :
    s.pageAt o page = .elsewhere e.newOwner := by
  simp [State.pageAt, h, hf]

theorem State.pageAt_unused {s : State} {o page : Nat} (h : (s.owner o).homes.find page = none) (hr : (s.hintOf page).bind Hint.home = none) :
    s.pageAt o page = .unused := by
  simp [State.pageAt, h, hr]

theorem State.pageAt_home {s : State} {o page : Nat} (h : (s.owner o).homes.find page = none) (hr : (s.hintOf page).bind Hint.home = some o)
    (hg : (s.owner o).gone = false) : s.pageAt o page = .held .absent := by
  simp [State.pageAt, h, hr, hg]

theorem State.pageAt_otherHome {s : State} {o q page : Nat} (h : (s.owner o).homes.find page = none)
    (hr : (s.hintOf page).bind Hint.home = some q) (hq : q ≠ o) : s.pageAt o page = .elsewhere q := by
  simp [State.pageAt, h, hr, hq]

/-! ## The answer by the state of a page (R138) -/

section
variable {s : State} {o core : Nat} {a : Access}

theorem State.ownerAnswers_mapped (h : s.pageAt o (a.ga / 65536) = .held .mapped) : s.ownerAnswers o core a = s.perform o core a := by
  simp [State.ownerAnswers, h]

theorem State.ownerAnswers_reads (h : s.pageAt o (a.ga / 65536) = .held .replica ∨ s.pageAt o (a.ga / 65536) = .held .cow)
    (hw : s.treatedAsWrite a = false) : s.ownerAnswers o core a = s.perform o core a := by
  rcases h with h | h <;> simp [State.ownerAnswers, h, hw]

theorem State.ownerAnswers_replica (h : s.pageAt o (a.ga / 65536) = .held .replica) (hw : s.treatedAsWrite a = true) :
    s.ownerAnswers o core a = s.answerTicket o core a 4 := by
  simp [State.ownerAnswers, h, hw, tWprot]

theorem State.ownerAnswers_cow (h : s.pageAt o (a.ga / 65536) = .held .cow) (hw : s.treatedAsWrite a = true) :
    s.ownerAnswers o core a = s.answerTicket o core a 5 := by
  simp [State.ownerAnswers, h, hw, tCow]

theorem State.ownerAnswers_migrating (h : s.pageAt o (a.ga / 65536) = .held .migrating) :
    s.ownerAnswers o core a = s.answerTicket o core a 3 := by
  simp [State.ownerAnswers, h, tMigrating]

theorem State.ownerAnswers_absent (h : s.pageAt o (a.ga / 65536) = .held .absent ∨ s.pageAt o (a.ga / 65536) = .held .parked) :
    s.ownerAnswers o core a = s.answerTicket o core a 1 := by
  rcases h with h | h <;> simp [State.ownerAnswers, h, tAbsent]

theorem State.ownerAnswers_lost (h : s.pageAt o (a.ga / 65536) = .held .lost) : s.ownerAnswers o core a = s.answer core a.id .lost := by
  simp [State.ownerAnswers, h]

theorem State.ownerAnswers_unused (h : s.pageAt o (a.ga / 65536) = .unused) :
    s.ownerAnswers o core a = s.answer core a.id (.fault 0x12 1 0) := by
  simp [State.ownerAnswers, h, rPlbDeny]

theorem State.ownerAnswers_elsewhere {q : Nat} (h : s.pageAt o (a.ga / 65536) = .elsewhere q)
    (hc : s.collapsing o (a.ga / 65536) = false ∨ s.treatedAsWrite a = false) :
    s.ownerAnswers o core a = s.answer core a.id (if ownerIsBank o then .ticket 2 0 q else .fault 0x12 1 0) := by
  have hn : (s.collapsing o (a.ga / 65536) && s.treatedAsWrite a) = false := by rcases hc with hc | hc <;> simp [hc]
  simp only [State.ownerAnswers, h, hn, Bool.false_eq_true, if_false]
  split <;> rfl

theorem State.ownerAnswers_collapsing {q : Nat} (h : s.pageAt o (a.ga / 65536) = .elsewhere q)
    (hc : s.collapsing o (a.ga / 65536) = true) (hw : s.treatedAsWrite a = true) :
    s.ownerAnswers o core a = s.answerTicket o core a 4 := by
  simp [State.ownerAnswers, h, hc, hw, tWprot]

end

/-! ## Tickets (R139, R140) -/

section
variable {s : State} {o core : Nat} {a : Access}

/-- A page without a service gets one, with the next number, and the access its ticket. -/
theorem State.answerTicket_opens (code : Nat) (ha : (s.core core).accs.find? (·.id == a.id) = some a)
    (hn : (s.owner o).svcs.find? (·.page == a.ga / 65536) = none) (hl : (s.owner o).svcs.length < 64) :
    ((s.answerTicket o core a code).owner o).svcs =
        (s.owner o).svcs ++ [{ page := a.ga / 65536, tkt := (s.owner o).nextTkt, code := code, subs := [engineOf core] }] ∧
      (((s.answerTicket o core a code).core core).accs.find? (·.id == a.id)).bind (·.answer) = some (.ticket code (s.owner o).nextTkt 0) := by
  have hl' : ¬(s.owner o).svcs.length ≥ 64 := by omega
  simp only [State.answerTicket, State.openTicket, hn, hl', if_false]
  refine ⟨?_, State.answer_given (a := a) ?_ _⟩
  · split <;> simp
  · split <;> simpa [State.core_post] using ha

/-- A page that is served gets the ticket of its service. -/
theorem State.answerTicket_subscribes (code : Nat) {v : Service} (ha : (s.core core).accs.find? (·.id == a.id) = some a)
    (hv : (s.owner o).svcs.find? (·.page == a.ga / 65536) = some v) :
    (((s.answerTicket o core a code).core core).accs.find? (·.id == a.id)).bind (·.answer) = some (.ticket code v.tkt 0) := by
  simp only [State.answerTicket, State.openTicket, hv]
  exact State.answer_given (a := a) (by simpa using ha) _

end

/-! ## The turn of an access (R375) -/

theorem Core.headAt_any_false_of_ne {k : Core} {b id : Nat} (h : (k.headAt b).map (·.id) ≠ some id) : (k.headAt b).any (·.id == id) = false := by
  cases hk : k.headAt b with
  | none => rfl
  | some x => simpa [hk] using h

section
variable {s : State} {core id : Nat} {a : Access} (ha : (s.core core).accs.find? (·.id == id) = some a)
include ha

theorem State.sendReleased_of_phase (hp : a.phase = .sent ∨ a.phase = .stored) : s.sendReleased core id = s := by
  have hw : a.phase ≠ .waiting := by rcases hp with hp | hp <;> simp [hp]
  simp [State.sendReleased, ha, hw]

variable (hp : a.phase = .sent ∨ a.phase = .stored) (hc : (s.pkg (core / 65536)).lost = false)
include hp hc

theorem execAccessAtOwner_lostPackage (hl : (s.pkg (a.owner / 512)).lost = true) :
    execAccessAtOwner core id s = .next (s.answer core id .lost) := by
  have hn : ¬(a.phase ≠ .sent ∧ a.phase ≠ .stored) := by tauto
  simp only [execAccessAtOwner, evAccessAtOwner, State.sendReleased_of_phase ha hp, ha, hn, corePkg, ownerPkg, hc, hl]
  rfl

variable (hl : (s.pkg (a.owner / 512)).lost = false) (hh : (s.pkg (a.owner / 512)).halted = false)
include hl hh

theorem execAccessAtOwner_there : execAccessAtOwner core id s = .next ((
    if (s.core core).behindTicket a then some (s.onAcc core id fun b => { b with phase := .held, entry := true, tag := none })
    else if ((s.core core).headAt (bankOf a.owner a.ga)).any (·.id == id) then some (s.arriveAtOwner core a)
    else if (s.core core).busyBefore a || (decide (a.phase = .sent) && decide (s.storedAt (bankOf a.owner a.ga) ≥ 256)) then
      some ((s.answerBusy core id).countOwner a.owner 0x63 (some a.domain))
    else if a.phase = .sent then some (s.onAcc core id fun b => { b with phase := .stored })
    else none).getD s) := by
  have hn : ¬(a.phase ≠ .sent ∧ a.phase ≠ .stored) := by tauto
  simp only [execAccessAtOwner, evAccessAtOwner, State.sendReleased_of_phase ha hp, ha, hn, corePkg, ownerPkg, hc, hl, hh, if_false,
    Bool.false_eq_true]

theorem execAccessAtOwner_behind (hb : (s.core core).behindTicket a = true) :
    execAccessAtOwner core id s = .next (s.onAcc core id fun b => { b with phase := .held, entry := true, tag := none }) := by
  rw [execAccessAtOwner_there ha hp hc hl hh, if_pos hb]
  rfl

variable (hb : (s.core core).behindTicket a = false)
include hb

theorem execAccessAtOwner_turn (ht : a.tag = none) (hturn : ((s.core core).headAt (bankOf a.owner a.ga)).map (·.id) = some id) :
    execAccessAtOwner core id s = .next (s.ownerAnswers a.owner core a) := by
  have hh' : ((s.core core).headAt (bankOf a.owner a.ga)).any (·.id == id) = true := by
    obtain ⟨b, hb, rfl⟩ := Option.map_eq_some_iff.1 hturn
    simp [hb]
  rw [execAccessAtOwner_there ha hp hc hl hh, if_neg (by simp [hb]), if_pos hh']
  simp [State.arriveAtOwner, ht]

variable (hturn : ((s.core core).headAt (bankOf a.owner a.ga)).map (·.id) ≠ some id)
include hturn

theorem execAccessAtOwner_busy
    (hw : (s.core core).busyBefore a = true ∨ a.phase = .sent ∧ 256 ≤ s.storedAt (bankOf a.owner a.ga)) :
    execAccessAtOwner core id s = .next ((s.answerBusy core id).countOwner a.owner 0x63 (some a.domain)) := by
  rw [execAccessAtOwner_there ha hp hc hl hh, if_neg (by simp [hb]), if_neg (by simp [Core.headAt_any_false_of_ne hturn]),
    if_pos (by simpa using hw)]
  rfl

theorem execAccessAtOwner_stored (hw : (s.core core).busyBefore a = false) (hs : a.phase = .sent)
    (hr : s.storedAt (bankOf a.owner a.ga) < 256) :
    execAccessAtOwner core id s = .next (s.onAcc core id fun b => { b with phase := .stored }) := by
  rw [execAccessAtOwner_there ha hp hc hl hh, if_neg (by simp [hb]), if_neg (by simp [Core.headAt_any_false_of_ne hturn]),
    if_neg (by simp [hw]; omega), if_pos hs]
  rfl

end

end Sys2Proof.Machine
end

section
/-! SUPPORT. What comes back for an access (R63, R143, R282): its end at the core, the times of R99 and R125, and tickets. -/

namespace Sys2Proof.Machine

/-! ## The accesses of a core that a value or a fault leaves alone -/

@[simp] theorem Core.accs_onThread (k : Core) (i : Fin 4) (f : Thread → Thread) : (k.onThread i f).accs = k.accs := rfl
@[simp] theorem Core.accs_onActor (k : Core) (i : Nat) (f : Actor → Actor) : (k.onActor i f).accs = k.accs := rfl
@[simp] theorem Core.accs_writeWord (k : Core) (a : Nat) (v : W64) : (k.writeWord a v).accs = k.accs := rfl
@[simp] theorem Core.accs_writeWords (k : Core) (a : Nat) (bs : List Byte) : (k.writeWords a bs).accs = k.accs := rfl

@[simp] theorem Core.accs_recordErr (k : Core) (slot src : Nat) (addr : W64) : (k.recordErr slot src addr).accs = k.accs := by
  simp only [Core.recordErr]
  split <;> rfl

@[simp] theorem Core.accs_noteBad (k : Core) (slot a n : Nat) : (k.noteBad slot a n).accs = k.accs := by
  unfold Core.noteBad
  split
  · exact Core.accs_recordErr ..
  · rfl

@[simp] theorem Core.accs_setSaved (k : Core) (slot a i : Nat) : (k.setSaved slot a i).accs = k.accs := by
  simp [Core.setSaved]

@[simp] theorem Core.accs_arriveX (k : Core) (slot fid : Nat) (r : Reg) (v : W64) : (k.arriveX slot fid r v).accs = k.accs := by
  unfold Core.arriveX
  split
  · rfl
  · dsimp only
    split
    · rfl
    · split
      · simp
      · split
        · split <;> rfl
        · rfl

@[simp] theorem Core.accs_arriveV (k : Core) (slot fid : Nat) (r : Reg) (v : V256) : (k.arriveV slot fid r v).accs = k.accs := by
  unfold Core.arriveV
  split
  · rfl
  · dsimp only
    split
    · simp
    · split
      · split <;> rfl
      · rfl

@[simp] theorem Core.accs_arriveRegs (k : Core) (a : Access) (x : W64) (v1 v2 : V256) : (k.arriveRegs a x v1 v2).accs = k.accs := by
  simp only [Core.arriveRegs]
  split
  · rfl
  · split
    · split <;> split <;> simp
    · split <;> simp

@[simp] theorem Core.accs_onCounters (k : Core) (slot : Nat) (f : Actor → Actor) : (k.onCounters slot f).accs = k.accs := by
  simp only [Core.onCounters]
  split
  · rw [Core.accs_writeWord, Core.accs_onActor]
  · rw [Core.accs_onActor]

@[simp] theorem Core.accs_die (k : Core) (slot reason sub : Nat) (detail : W64) : (k.die slot reason sub detail).accs = k.accs := by
  simp only [Core.die]
  split
  · split <;> rfl
  · rfl

@[simp] theorem Core.accs_deferFault (k : Core) (slot : Nat) (d : Deferred) : (k.deferFault slot d).accs = k.accs := by
  simp only [Core.deferFault]
  split
  · rfl
  · rfl
  · rfl
  · split <;> rfl
  all_goals rfl

/-- An access that ends is the only one that leaves. -/
@[simp] theorem Core.accs_endAccess (k : Core) (a : Access) : (k.endAccess a).accs = k.accs.filter (·.id != a.id) := by
  simp only [Core.endAccess]
  split <;> simp

@[simp] theorem Core.accs_faultAccess (k : Core) (a : Access) (reason sub : Nat) (detail : W64) :
    (k.faultAccess a reason sub detail).accs = k.accs.filter (·.id != a.id) := by
  simp only [Core.faultAccess]
  split <;> simp [Core.arriveZero]

@[simp] theorem Core.accs_lostAccess (k : Core) (a : Access) : (k.lostAccess a).accs = k.accs.filter (·.id != a.id) := by
  simp only [Core.lostAccess]
  split <;> simp

/-! ## A value for a running firing -/

theorem Core.thread_writeWord (k : Core) (a : Nat) (v : W64) (i : Fin 4) : (k.writeWord a v).thread i = k.thread i := rfl

theorem Core.thread_onCounters (k : Core) (slot : Nat) (f : Actor → Actor) (i : Fin 4) : (k.onCounters slot f).thread i = k.thread i := by
  simp only [Core.onCounters]
  split
  · rw [Core.thread_writeWord, Core.thread_onActor]
  · rw [Core.thread_onActor]

theorem Core.actor_onCounters_same (k : Core) (slot : Nat) (f : Actor → Actor) : (k.onCounters slot f).actor slot = f (k.actor slot) := by
  simp only [Core.onCounters]
  split
  · rw [Core.actor_writeWord, Core.actor_onActor_same]
  · rw [Core.actor_onActor_same]

theorem Core.thread_endAccess (k : Core) (a : Access) (i : Fin 4) : (k.endAccess a).thread i = k.thread i := by
  simp only [Core.endAccess]
  split
  · rfl
  · rw [Core.thread_onCounters]
    rfl

/-- The counter that counts an access of its own falls when it ends. -/
theorem Core.actor_endAccess {k : Core} {a : Access} (ho : a.orphan = false) (hg : a.group = 0) : (k.endAccess a).actor a.slot =
    if a.uncounted then k.actor a.slot
    else if a.op.countsLoad then { k.actor a.slot with cl := (k.actor a.slot).cl - 1 } else { k.actor a.slot with cs := (k.actor a.slot).cs - 1 } := by
  simp only [Core.endAccess, ho, hg]
  cases a.uncounted
  · exact Core.actor_onCounters_same _ _ _
  · rfl

theorem Core.arrive_scalar {k : Core} {a : Access} {x : W64} {i : Fin 4} (ho : a.orphan = false) (hv : a.destV = false) (hd : a.drop1 = false)
    (hi : k.threadOf a.fid = some i) : k.arrive a [x] = k.onThread i (·.writeX (BitVec.ofNat 5 a.dest) x) := by
  simp [Core.arrive, Core.arriveRegs, Core.arriveX, ho, hv, hd, hi]

theorem Core.actOn_scalar {k : Core} {a : Access} {x : W64} {ver : BitVec 16} {i : Fin 4} (ho : a.orphan = false) (hv : a.destV = false)
    (hd : a.drop1 = false) (hi : k.threadOf a.fid = some i) (hg : a.group = 0) :
    (k.actOn a (.value [x] ver)).thread i = (k.thread i).writeX (BitVec.ofNat 5 a.dest) x ∧
      (k.actOn a (.value [x] ver)).accs = k.accs.filter (·.id != a.id) ∧
      (k.actOn a (.value [x] ver)).actor a.slot = if a.uncounted then k.actor a.slot else if a.op.countsLoad
        then { k.actor a.slot with cl := (k.actor a.slot).cl - 1 } else { k.actor a.slot with cs := (k.actor a.slot).cs - 1 } := by
  simp only [Core.actOn, Core.arrive_scalar ho hv hd hi]
  refine ⟨?_, by simp, ?_⟩
  · rw [Core.thread_endAccess, Core.thread_onThread_same]
  · rw [Core.actor_endAccess ho hg, Core.actor_onThread]

/-! ## The events of an access at its core -/

section
variable {s : State} {core id : Nat} {a : Access} (ha : (s.core core).accs.find? (·.id == id) = some a)
include ha

theorem execAccessAnswer_acts {v : AccAnswer} (hv : a.answer = some v) (hp : a.performed = true) (hr : a.replay = false) :
    execAccessAnswer core id s = .next (s.onCore core fun k => k.actOn a v) := by
  simp [execAccessAnswer, evAccessAnswer, ha, hp, hr, hv]

theorem execReplayAnswer_acts {v : AccAnswer} (hv : a.answer = some v) (hp : a.performed = true) (hr : a.replay = true) :
    execReplayAnswer core id s = .next ((s.onCore core fun k => k.actOn a v).sendHeld core a.slot (a.ga / 65536)) := by
  simp [execReplayAnswer, evReplayAnswer, ha, hp, hr, hv]

theorem execAccessBusyResend_resends (hp : a.phase = .busy) (ht : a.lastAt + 256 ≤ s.cycle (core / 65536)) :
    execAccessBusyResend core id s = .next (s.onAcc core id fun b => { b with phase := .sent }) := by
  simp [execAccessBusyResend, evAccessBusyResend, ha, hp, State.now, corePkg, ht]

theorem execAccessRetry_resends (hp : a.phase = .sent ∨ a.phase = .stored) (htag : a.tag.isSome = true) (hr : a.resent = false)
    (ht : a.firstAt + 18800 ≤ s.cycle (core / 65536)) :
    execAccessRetry core id s = .next (s.onAcc core id fun b => { b with resent := true }) := by
  simp [execAccessRetry, evAccessRetry, ha, hp, State.now, corePkg, htag, hr, ht]

theorem execAccessIndeterminate_faults {n : Nat} (hp : a.phase = .sent ∨ a.phase = .stored ∨ a.phase = .busy ∨ a.phase = .answered)
    (htag : a.tag = some n) (hw : a.waited = false) (ht : a.firstAt + 47000 ≤ s.cycle (core / 65536)) :
    execAccessIndeterminate core id s = .next (s.onCore core fun k => k.faultAccess a 0x34 0 (BitVec.ofNat 64 n)) := by
  simp [execAccessIndeterminate, evAccessIndeterminate, ha, hp, State.now, corePkg, htag, hw, ht, rIndeterminate]

theorem execAccessIndeterminate_waits (hw : a.waited = true) : execAccessIndeterminate core id s = .next s := by
  cases ht : a.tag <;> simp [execAccessIndeterminate, evAccessIndeterminate, ha, ht, hw]

theorem execTicketTimeout_kills (hp : a.phase = .ticketed) (ho : a.orphan = false) (ht : a.since + 2 ^ 20 ≤ s.cycle (core / 65536)) :
    execTicketTimeout core id s = .next (s.onCore core fun k => k.die a.slot 0x31 0 0) := by
  have hn : a.phase = .ticketed ∧ ¬a.orphan ∧ a.since + 2 ^ 20 ≤ s.now core := ⟨hp, by simp [ho], ht⟩
  simp only [execTicketTimeout, evTicketTimeout, ha, if_pos hn]
  rfl

end

/-! ## Tickets in the table (R143) -/

/-- What a ticket makes of its access: an entry of the ticket table, parked where the firing does not run. -/
def State.entryOf (s : State) (core : Nat) (a : Access) (tkt code : Nat) (b : Access) : Access :=
  { b with
    entry := true, tkt := tkt, tktOwner := a.owner, code := code, since := s.cycle (core / 65536), tag := none
    parked := decide ((s.actor core a.slot).state ≠ .firing)
    tset := if (s.actor core a.slot).state = .firing then (s.actor core a.slot).tsetf else b.tset }

/-- The entry, as the event writes it. -/
theorem State.entryOf_eq (s : State) (core : Nat) (a : Access) (tkt code : Nat) : s.entryOf core a tkt code = fun b => { b with
    entry := true, tkt := tkt, tktOwner := a.owner, code := code, since := s.now core, tag := none
    parked := !decide ((s.actor core a.slot).state = .firing)
    tset := if decide ((s.actor core a.slot).state = .firing) then (s.actor core a.slot).tsetf else b.tset } := by
  funext b
  simp [State.entryOf, State.now, corePkg]

section
variable {s : State} {core id : Nat} {a : Access} (ha : (s.core core).accs.find? (·.id == id) = some a)
  {code tkt q : Nat} (hp : a.phase = .answered) (hv : a.answer = some (.ticket code tkt q)) (ho : a.orphan = false)
include ha hp hv ho

theorem execFaultTicket_moved (hc : code = 2) : execFaultTicket core id s =
    .next ((((s.countCore core 0x06 (some a.domain)).onAcc core id (s.entryOf core a tkt code)).replayTo core (s.entryOf core a tkt code a)
      (some q) true).sendHeld core a.slot (a.ga / 65536)) := by
  simp only [execFaultTicket, evFaultTicket, State.entryOf_eq, ha, hv, hp, ho, hc, ne_eq, not_true, if_false, Bool.false_eq_true, tMoved, if_true]
  rfl

theorem execFaultTicket_enters (hc : code ≠ 2) : execFaultTicket core id s =
    .next (((s.countCore core 0x06 (some a.domain)).onAcc core id (s.entryOf core a tkt code)).onAcc core id fun b =>
      { b with phase := .ticketed, replay := false }) := by
  simp only [execFaultTicket, evFaultTicket, State.entryOf_eq, ha, hv, hp, ho, hc, ne_eq, not_true, if_false, Bool.false_eq_true, tMoved]
  rfl

end

@[simp] theorem State.accs_countCore (s : State) (c code : Nat) (dom : Option (BitVec 16)) (n : Nat) :
    ((s.countCore c code dom n).core c).accs = (s.core c).accs := by
  simp [State.countCore, Core.count]

/-- Two changes of an access are one. -/
theorem State.accs_onAcc_onAcc (s : State) (core id : Nat) {f g : Access → Access} (hf : ∀ b, (f b).id = b.id) :
    (((s.onAcc core id f).onAcc core id g).core core).accs =
      (s.core core).accs.map fun b => if b.id = id then g (f b) else b := by
  rw [State.core_onAcc, State.core_onAcc]
  simp only [List.map_map]
  refine List.map_congr_left fun b _ => ?_
  by_cases hb : b.id = id <;> simp [hb, hf]

end Sys2Proof.Machine
end

section
/-! SUPPORT. Replay notices (R141) and refills (R135): a notice leaves no access that waits on its ticket. -/

namespace Sys2Proof.Machine

/-! ## Refills -/

@[simp] theorem State.cores_firstTouch (s : State) (c cls range : Nat) : (s.firstTouch c cls range).cores = s.cores := by
  unfold State.firstTouch
  repeat' split
  all_goals rfl

@[simp] theorem State.net_firstTouch (s : State) (c cls range : Nat) : (s.firstTouch c cls range).net = s.net := by
  unfold State.firstTouch
  repeat' split
  all_goals rfl

@[simp] theorem State.core_firstTouch (s : State) (c cls range d : Nat) : (s.firstTouch c cls range).core d = s.core d := by
  simp [State.core]

section
variable {s : State} {core ga : Nat} {r : Refill}
  (hr : (s.core core).refills.find? (fun r => !r.failed && r.cls == gaClass ga && r.range == gaRange ga) = some r)
  (hs : s.slotServed (s.rangeSlot r.range) = true)
include hr hs

theorem execPlbRefill_fills {e : PlbEntry}
    (he : (s.firstTouch core r.cls r.range).refilled core r.domain r.cls r.range = some e) :
    execPlbRefill core ga s = .next ((s.firstTouch core r.cls r.range).onCore core fun k =>
      { k with plb := plbUse k.plb e, refills := k.refills.filter (decide <| · ≠ r) }) := by
  simp [execPlbRefill, evPlbRefill, hr, hs, he]

theorem execPlbRefill_fails (he : (s.firstTouch core r.cls r.range).refilled core r.domain r.cls r.range = none) :
    execPlbRefill core ga s = .next ((s.firstTouch core r.cls r.range).onCore core fun k =>
      { k with refills := k.refills.map fun q => if q = r then { q with failed := true } else q }) := by
  simp [execPlbRefill, evPlbRefill, hr, hs, he]

end

/-! ## Accesses that wait on a ticket -/

/-- An access that waits on a ticket of an owner. -/
def Access.awaits (o tkt : Nat) (a : Access) : Prop := a.phase = .ticketed ∧ a.tktOwner = o ∧ a.tkt = tkt

theorem Access.awaits_of_filter {o tkt : Nat} {a : Access} :
    (decide (a.phase = .ticketed) && a.tktOwner == o && a.tkt == tkt) = true ↔ a.awaits o tkt := by
  simp [Access.awaits, and_assoc]

/-- A change of a core that makes none of its accesses wait on a ticket. -/
def Core.Replays (o tkt : Nat) (k q : Core) : Prop := ∀ x ∈ q.accs, x.awaits o tkt → x ∈ k.accs

/-- A change of the state that makes no access wait on a ticket, and leaves the network alone. -/
def State.Replays (o tkt : Nat) (s t : State) : Prop := t.net = s.net ∧ ∀ c, (s.core c).Replays o tkt (t.core c)

section
variable {o tkt : Nat}

theorem Core.Replays.refl (k : Core) : k.Replays o tkt k := fun _ hx _ => hx

theorem Core.Replays.of_accs {k q : Core} (h : q.accs = k.accs) : k.Replays o tkt q := fun _ hx _ => h ▸ hx

theorem Core.Replays.of_filter {k q : Core} {p : Access → Bool} (h : q.accs = k.accs.filter p) : k.Replays o tkt q :=
  fun _ hx _ => List.mem_of_mem_filter (h ▸ hx)

theorem State.Replays.refl (s : State) : s.Replays o tkt s := ⟨rfl, fun c => .refl (s.core c)⟩

theorem State.Replays.trans {s t u : State} (h1 : s.Replays o tkt t) (h2 : t.Replays o tkt u) : s.Replays o tkt u :=
  ⟨h2.1.trans h1.1, fun c x hx ha => h1.2 c x (h2.2 c x hx ha) ha⟩

theorem State.Replays.of_cores {s t : State} (hn : t.net = s.net) (hc : t.cores = s.cores) : s.Replays o tkt t :=
  ⟨hn, fun c => .of_accs (by rw [State.core, hc, State.core])⟩

theorem State.replays_onCore (s : State) (c : Nat) {f : Core → Core} (hf : (s.core c).Replays o tkt (f (s.core c))) :
    s.Replays o tkt (s.onCore c f) := by
  refine ⟨rfl, fun d => ?_⟩
  rcases eq_or_ne d c with rfl | h
  · rwa [State.core_onCore_same]
  · rw [State.core_onCore_ne _ _ h]
    exact .refl _

theorem State.replays_foldl {α : Type} {f : State → α → State} (hf : ∀ (s : State) a, s.Replays o tkt (f s a)) (l : List α) (s : State) :
    s.Replays o tkt (l.foldl f s) :=
  List.foldlRecOn (motive := s.Replays o tkt) l f (.refl s) fun t ht a _ => ht.trans (hf t a)

/-! ## Sending an access again (R143) -/

/-- An access whose number is given to nothing that waits. -/
def State.Sent (o tkt core id : Nat) (s : State) : Prop := ∀ x ∈ (s.core core).accs, x.awaits o tkt → x.id ≠ id

theorem State.Sent.replays {s t : State} {core id : Nat} (h : s.Sent o tkt core id) (hr : s.Replays o tkt t) : t.Sent o tkt core id :=
  fun x hx ha => h x (hr.2 core x hx ha) ha

/-- What replays the accesses of a number, and none of another: they wait on no ticket afterwards. -/
theorem Core.replays_of_map {k q : Core} {id : Nat} {f : Access → Access} (hq : q.accs = k.accs.map fun b => if b.id = id then f b else b)
    (hf : ∀ b, (f b).phase ≠ .ticketed) : k.Replays o tkt q ∧ ∀ x ∈ q.accs, x.awaits o tkt → x.id ≠ id := by
  have key : ∀ x ∈ q.accs, x.awaits o tkt → x ∈ k.accs ∧ x.id ≠ id := by
    intro x hx ha
    rw [hq] at hx
    obtain ⟨b, hb, rfl⟩ := List.mem_map.1 hx
    by_cases hi : b.id = id
    · rw [if_pos hi] at ha
      exact absurd ha.1 (hf b)
    · rw [if_neg hi]
      exact ⟨hb, hi⟩
  exact ⟨fun x hx ha => (key x hx ha).1, fun x hx ha => (key x hx ha).2⟩

theorem Core.replays_of_ends {k q : Core} {id : Nat} (hq : q.accs = k.accs.filter (·.id != id)) :
    k.Replays o tkt q ∧ ∀ x ∈ q.accs, x.awaits o tkt → x.id ≠ id :=
  ⟨.of_filter hq, fun x hx _ => by
    rw [hq] at hx
    simpa using (List.mem_filter.1 hx).2⟩

theorem Core.replays_sendAcc (k : Core) (c now id owner : Nat) (replay : Bool) :
    k.Replays o tkt (k.sendAcc c now id owner replay) ∧ ∀ x ∈ (k.sendAcc c now id owner replay).accs, x.awaits o tkt → x.id ≠ id := by
  unfold Core.sendAcc
  split
  · rename_i hn
    refine ⟨.refl k, fun x hx _ hi => ?_⟩
    simpa [hi] using List.find?_eq_none.1 hn x hx
  · exact Core.replays_of_map rfl fun b => by simp

/-- An access of a core after a change of that core alone. -/
theorem State.replayed_onCore (s : State) (core id : Nat) {f : Core → Core}
    (hf : (s.core core).Replays o tkt (f (s.core core)) ∧ ∀ x ∈ (f (s.core core)).accs, x.awaits o tkt → x.id ≠ id) :
    s.Replays o tkt (s.onCore core f) ∧ (s.onCore core f).Sent o tkt core id :=
  ⟨s.replays_onCore core hf.1, fun x hx => hf.2 x (by simpa using hx)⟩

theorem State.replays_refillNow (s : State) (c : Nat) (dom : BitVec 16) (ga : Nat) : s.Replays o tkt (s.refillNow c dom ga) := by
  have ht : s.Replays o tkt (s.firstTouch c (gaClass ga) (gaRange ga)) := .of_cores (by simp) (by simp)
  simp only [State.refillNow]
  split
  · exact ht.trans (State.replays_onCore _ c (.of_accs rfl))
  · exact ht.trans (State.replays_onCore _ c (.of_accs rfl))

/-- An access that is sent again waits on no ticket, nor does any other that did not. -/
theorem State.replayed_replayTo (s : State) (core : Nat) (a : Access) (owner : Option Nat) (replay : Bool) :
    s.Replays o tkt (s.replayTo core a owner replay) ∧ (s.replayTo core a owner replay).Sent o tkt core a.id := by
  have hr := s.replays_refillNow (o := o) (tkt := tkt) core a.domain a.ga
  unfold State.replayTo
  extract_lets t q
  have h : ∀ u, t.Replays o tkt u ∧ u.Sent o tkt core a.id → s.Replays o tkt u ∧ u.Sent o tkt core a.id :=
    fun u hu => ⟨hr.trans hu.1, hu.2⟩
  split
  · exact h _ (t.replayed_onCore core a.id (Core.replays_of_ends (Core.accs_faultAccess ..)))
  · split
    · exact h _ (t.replayed_onCore core a.id (Core.replays_of_ends (Core.accs_faultAccess ..)))
    · split
      · exact h _ (t.replayed_onCore core a.id (Core.replays_sendAcc ..))
      · exact h _ (t.replayed_onCore core a.id (Core.replays_of_map rfl fun b => by simp))

theorem State.replays_sendHeld (s : State) (core slot page : Nat) : s.Replays o tkt (s.sendHeld core slot page) := by
  simp only [State.sendHeld]
  split
  · exact .refl s
  · exact State.replays_foldl (fun s a => (s.replayed_replayTo core a none false).1) _ s

/-! ## Notices (R141) -/

/-- Each access that waits on a ticket is sent again or ends. -/
theorem State.replayed_noticed (s : State) (core : Nat) (a : Access) (holder status : Nat) {t : State}
    (ht : t = if status = 0 then (s.replayTo core a (some holder) true).sendHeld core a.slot (a.ga / 65536)
      else if status = 1 then s.onCore core (·.lostAccess a)
      else (s.onCore core (·.faultAccess a rPlbDeny 0x01 0)).sendHeld core a.slot (a.ga / 65536)) :
    s.Replays o tkt t ∧ t.Sent o tkt core a.id := by
  subst ht
  have hs : ∀ u : State, s.Replays o tkt u ∧ u.Sent o tkt core a.id →
      s.Replays o tkt (u.sendHeld core a.slot (a.ga / 65536)) ∧ (u.sendHeld core a.slot (a.ga / 65536)).Sent o tkt core a.id :=
    fun u hu => ⟨hu.1.trans (u.replays_sendHeld ..), hu.2.replays (u.replays_sendHeld ..)⟩
  split
  · exact hs _ (s.replayed_replayTo ..)
  · split
    · exact s.replayed_onCore core a.id (Core.replays_of_ends (Core.accs_lostAccess ..))
    · exact hs _ (s.replayed_onCore core a.id (Core.replays_of_ends (Core.accs_faultAccess ..)))

/-- Once each access of a list has been sent, all of them have. -/
theorem State.sent_foldl {f : State → Access → State} {core : Nat} (hf : ∀ (s : State) a, s.Replays o tkt (f s a) ∧ (f s a).Sent o tkt core a.id)
    (l : List Access) (s : State) : ∀ a ∈ l, (l.foldl f s).Sent o tkt core a.id := by
  induction l generalizing s with
  | nil => simp
  | cons b l ih =>
    intro a ha
    rw [List.foldl_cons]
    rcases List.mem_cons.1 ha with rfl | ha
    · exact (hf s a).2.replays (State.replays_foldl (fun s a => (hf s a).1) l _)
    · exact ih _ a ha

/-- No access of a core waits on a ticket. -/
def State.Served (o tkt core : Nat) (s : State) : Prop := ∀ x ∈ (s.core core).accs, ¬x.awaits o tkt

theorem State.Served.replays {s t : State} {core : Nat} (h : s.Served o tkt core) (hr : s.Replays o tkt t) : t.Served o tkt core :=
  fun x hx ha => h x (hr.2 core x hx ha) ha

theorem State.replays_noticeAtCore (s : State) (core holder status : Nat) : s.Replays o tkt (s.noticeAtCore core o tkt holder status) :=
  State.replays_foldl (fun s a => (s.replayed_noticed core a holder status rfl).1) _ s

theorem State.served_noticeAtCore (s : State) (core holder status : Nat) : (s.noticeAtCore core o tkt holder status).Served o tkt core := by
  intro x hx ha
  have hold := (s.replays_noticeAtCore core holder status).2 core x hx ha
  have hmem : x ∈ (s.core core).accs.filter fun a => decide (a.phase = .ticketed) && a.tktOwner == o && a.tkt == tkt :=
    List.mem_filter.2 ⟨hold, Access.awaits_of_filter.2 ha⟩
  exact State.sent_foldl (fun s a => s.replayed_noticed core a holder status rfl) _ s x hmem x hx ha rfl

/-- What a notice does to the cores of a cluster. -/
def State.noticeAtCores (o tkt holder status : Nat) (s : State) (c : Nat) : State :=
  if (s.cores.find c).isSome then s.noticeAtCore c o tkt holder status else s

theorem State.replays_noticeAtCores (s : State) (c holder status : Nat) : s.Replays o tkt (s.noticeAtCores o tkt holder status c) := by
  unfold State.noticeAtCores
  split
  · exact s.replays_noticeAtCore ..
  · exact .refl s

theorem SMap.get_of_find_none {α : Type} (d : α) {m : SMap α} {k : Nat} (h : m.find k = none) : m.get d k = d := by
  induction m with
  | nil => rfl
  | cons p m ih =>
    obtain ⟨j, v⟩ := p
    simp only [SMap.find] at h
    simp only [SMap.get]
    split at h
    · simp at h
    · rename_i hj
      rw [if_neg hj]
      exact ih h

theorem State.served_noticeAtCores (s : State) (c holder status : Nat) : (s.noticeAtCores o tkt holder status c).Served o tkt c := by
  unfold State.noticeAtCores
  split
  · exact s.served_noticeAtCore c holder status
  · rename_i h
    have hn : s.cores.find c = none := by simpa using h
    have hc : s.core c = {} := SMap.get_of_find_none _ hn
    intro x hx
    rw [hc] at hx
    exact absurd hx (by simp)

theorem State.served_foldl_noticeAtCores (l : List Nat) (s : State) (holder status : Nat) :
    ∀ c ∈ l, (l.foldl (State.noticeAtCores o tkt holder status) s).Served o tkt c := by
  induction l generalizing s with
  | nil => simp
  | cons d l ih =>
    intro c hc
    rw [List.foldl_cons]
    rcases List.mem_cons.1 hc with rfl | hc
    · exact (s.served_noticeAtCores c holder status).replays (State.replays_foldl (fun s c => s.replays_noticeAtCores c holder status) l _)
    · exact ih _ c hc

theorem State.replays_noticeAtEngine (s : State) (e q t page status : Nat) : s.Replays o tkt (s.noticeAtEngine e q t page status) := by
  have h1 : ∀ f, s.Replays o tkt (s.onEngine e f) := fun _ => .of_cores rfl rfl
  simp only [State.noticeAtEngine]
  split
  · exact h1 _
  · refine (h1 _).trans (State.replays_foldl (fun s j => ?_) _ _)
    refine s.replays_onCore j.core ?_
    split
    · exact .of_accs (Core.accs_die ..)
    · exact .refl _

/-- The cluster that a notice has reached has no access left that waits on its ticket, and the notice goes on to the others. -/
theorem execReplayNotice_serves {s : State} {n pg holder status e : Nat} {rest : List Nat} {p : Packet} (hp : s.packet n = some p)
    (hpay : p.pay = .notice o tkt pg holder status (e :: rest)) : ∃ t, execReplayNotice n s = .next t ∧ (rest = [] → t.packet n = none) ∧
      ∀ c ∈ clusterCores e, t.Served o tkt c := by
  let s1 : State := if rest.isEmpty then s.take n else { s with net := s.net.put n { p with pay := .notice o tkt pg holder status rest } }
  let s2 := (clusterCores e).foldl (State.noticeAtCores o tkt holder status) s1
  have h2 : s1.Replays o tkt s2 := State.replays_foldl (fun s c => s.replays_noticeAtCores c holder status) _ s1
  have h3 : s2.Replays o tkt (s2.noticeAtEngine e o tkt pg status) := s2.replays_noticeAtEngine e o tkt pg status
  refine ⟨s2.noticeAtEngine e o tkt pg status, ?_, fun hr => ?_, fun c hc => ?_⟩
  · simp only [execReplayNotice, evReplayNotice, hp, hpay]
    rfl
  · have hs : s1 = s.take n := by simp [s1, hr]
    rw [State.packet, (h2.trans h3).1, hs]
    exact SMap.find_del_same ..
  · exact (State.served_foldl_noticeAtCores _ s1 holder status c hc).replays h3

end

end Sys2Proof.Machine
end

section
/-! CERTIFICATES. The life of an access after issue (R123 to R125, R135, R137 to R145, R282, R375). -/

namespace Sys2Proof.Machine

/-- Settles O52, event by event: at the owner by the turn of the access and the state of its page, at the core by what comes back, and for a
replay notice by what each access that it sends again keeps of the others. -/
theorem accessEvents_hold : Obligations.AccessEvents := by
  intro core id a s ha
  have hid : a.id = id := Core.id_of_find_acc ha
  have ha' : (s.core core).accs.find? (·.id == a.id) = some a := by rw [hid]; exact ha
  intro k o page now home came there turn arrived n entry stateIs answers tickets
  have hturn : arrived → execAccessAtOwner core id s = .next (s.ownerAnswers o core a) := by
    rintro ⟨⟨⟨hp, hc⟩, hl, hh⟩, hb, ht, hturn⟩
    exact execAccessAtOwner_turn ha hp hc hl hh hb ht hturn
  have hheld : ∀ {f}, stateIs f → f ≠ .moved → s.pageAt o page = .held f := by
    rintro f ⟨e, he, rfl⟩ hf
    exact State.pageAt_held he hf
  have htickets : ∀ code, arrived → s.ownerAnswers o core a = s.answerTicket o core a code → tickets code := by
    intro code hArr hans hnone hlen
    refine ⟨_, (hturn hArr).trans (congrArg _ hans), ?_⟩
    obtain ⟨h1, h2⟩ := State.answerTicket_opens (o := o) code ha' hnone hlen
    exact ⟨h1, by rw [← hid]; exact h2⟩
  have helsewhere : ∀ {h}, ((∃ e, home = some e ∧ e.fstate = .moved ∧ e.newOwner = h) ∨
      home = none ∧ (s.hintOf page).bind Hint.home = some h ∧ h ≠ o) → s.pageAt o page = .elsewhere h := by
    rintro h (⟨e, he, hm, rfl⟩ | ⟨hn, hr, hne⟩)
    · exact State.pageAt_moved he hm
    · exact State.pageAt_otherHome hn hr hne
  have hperf : ∀ v, a.phase = .answered → a.answer = some v →
      (∃ l n, v = .value l n) ∨ (∃ m x, v = .dataError m x) ∨ (∃ r m x, v = .fault r m x) ∨ v = .lost → a.performed = true := by
    rintro v hp hv (⟨l, n, rfl⟩ | ⟨m, x, rfl⟩ | ⟨r, m, x, rfl⟩ | rfl) <;> simp [Access.performed, hp, hv]
  refine ⟨fun hA hf => ?_, fun hA hf hw => ?_, fun hA hf hw => ?_, fun hA hf hw => ?_, fun hA hf => ?_, fun hA hf => ?_, fun hA hn hr hg => ?_,
    fun hA hf => ?_, fun h hA hf => ⟨fun hc => ?_, fun v hw hv hc => ?_⟩, fun hA hn hr => ?_, fun hc hl => ?_, fun ht hb => ?_,
    fun ht hb hturn => ⟨fun hw => ?_, fun hw hp hr => ?_⟩, fun x ver i hp hv hr ho hd h1 hi hg => ?_, fun v hp hv hk => ⟨fun hr => ?_, fun hr => ?_⟩,
    fun hp ht => execAccessBusyResend_resends ha hp ht, fun hp htag hr ht => execAccessRetry_resends ha hp htag hr ht,
    fun n hp htag hw ht => execAccessIndeterminate_faults ha hp htag hw ht, fun hw => execAccessIndeterminate_waits ha hw,
    fun code tkt q hp hv ho hc => ?_, fun tkt q hp hv ho => ?_, fun hp ho ht => execTicketTimeout_kills ha hp ho ht,
    fun n p ow tkt pg holder status e rest hp hpay => ?_, fun ga r hr hs => ⟨fun e he => ?_, fun he => ?_⟩⟩
  · exact (hturn hA).trans (congrArg _ (State.ownerAnswers_mapped (hheld hf (by decide))))
  · exact (hturn hA).trans (congrArg _ (State.ownerAnswers_reads (hf.imp (hheld · (by decide)) (hheld · (by decide))) hw))
  · exact htickets 4 hA (State.ownerAnswers_replica (hheld hf (by decide)) hw)
  · exact htickets 5 hA (State.ownerAnswers_cow (hheld hf (by decide)) hw)
  · exact htickets 3 hA (State.ownerAnswers_migrating (hheld hf (by decide)))
  · exact htickets 1 hA (State.ownerAnswers_absent (hf.imp (hheld · (by decide)) (hheld · (by decide))))
  · exact htickets 1 hA (State.ownerAnswers_absent (.inl (State.pageAt_home hn hr hg)))
  · exact (hturn hA).trans (congrArg _ (by rw [State.ownerAnswers_lost (hheld hf (by decide)), hid]))
  · exact (hturn hA).trans (congrArg _ (by rw [State.ownerAnswers_elsewhere (helsewhere hf) hc, hid]))
  · have hcoll : s.collapsing o page = true :=
      List.any_eq_true.2 ⟨v, List.mem_of_find?_eq_some hv, by simpa [hc, tWprot] using List.find?_some hv⟩
    refine ⟨_, (hturn hA).trans (congrArg _ (State.ownerAnswers_collapsing (helsewhere hf) hcoll hw)), ?_⟩
    rw [← hid]
    exact State.answerTicket_subscribes 4 ha' hv
  · exact (hturn hA).trans (congrArg _ (by rw [State.ownerAnswers_unused (State.pageAt_unused hn hr), hid]))
  · exact execAccessAtOwner_lostPackage ha hc.1 hc.2 hl
  · obtain ⟨⟨hp, hc⟩, hl, hh⟩ := ht
    exact execAccessAtOwner_behind ha hp hc hl hh hb
  · obtain ⟨⟨hp, hc⟩, hl, hh⟩ := ht
    exact execAccessAtOwner_busy ha hp hc hl hh hb hturn hw
  · obtain ⟨⟨hp', hc⟩, hl, hh⟩ := ht
    exact execAccessAtOwner_stored ha hp' hc hl hh hb hturn hw hp hr
  · obtain ⟨h1, h2, h3⟩ := Core.actOn_scalar (x := x) (ver := ver) ho hd h1 hi hg
    refine ⟨_, execAccessAnswer_acts ha hv (by simp [Access.performed, hp, hv]) hr, ?_, ?_, ?_⟩
    · rw [State.core_onCore_same, h1]
    · rw [State.core_onCore_same, h2, hid]
    · rw [State.actor_onCore_same]
      exact h3
  · exact execAccessAnswer_acts ha hv (hperf v hp hv hk) hr
  · exact execReplayAnswer_acts ha hv (hperf v hp hv hk) hr
  · refine ⟨_, execFaultTicket_enters ha hp hv ho hc, ?_⟩
    rw [State.accs_onAcc_onAcc _ _ _ (f := s.entryOf core a tkt code) fun _ => rfl, State.accs_countCore]
    rfl
  · exact execFaultTicket_moved ha hp hv ho rfl
  · obtain ⟨t, ht, hn, hc⟩ := execReplayNotice_serves hp hpay
    exact ⟨t, ht, hn, hc⟩
  · exact ⟨_, execPlbRefill_fills hr hs he, by simp [plbUse], by simp⟩
  · have hmem := List.mem_of_find?_eq_some hr
    refine ⟨_, execPlbRefill_fails hr hs he, by simp [k], ?_⟩
    rw [State.core_onCore_same, State.core_firstTouch]
    exact List.mem_map.2 ⟨r, hmem, by simp⟩

end Sys2Proof.Machine
end

section
/-! SUPPORT. Versions and the walk of a bank (R95 to R98): what the making of a version leaves in the word, in the shadow store and among the
continuations. -/

namespace Sys2Proof.Machine

/-! ## The answer that a core finds -/

/-- Whether a core has an access of a number. -/
def State.HasAcc (s : State) (core id : Nat) : Prop := ((s.core core).accs.find? (·.id == id)).isSome = true

/-- The answer that stands at an access of a core. -/
def State.answerOf (s : State) (core id : Nat) : Option AccAnswer :=
  ((s.core core).accs.find? (·.id == id)).bind fun x => if x.phase = .answered then x.answer else none

theorem State.hasAcc_iff {s : State} {core id : Nat} : s.HasAcc core id ↔ ∃ x ∈ (s.core core).accs, x.id = id := by
  simp [State.HasAcc]

theorem State.hasAcc_of_core {s t : State} {core id : Nat} (hc : t.core core = s.core core) (h : s.HasAcc core id) : t.HasAcc core id := by
  rw [State.HasAcc, hc]
  exact h

/-- The last answer is the one that the core finds. -/
theorem State.answerOf_answer {s : State} {core id : Nat} (h : s.HasAcc core id) (v : AccAnswer) :
    (s.answer core id v).answerOf core id = some v := by
  obtain ⟨x, hx⟩ := Option.isSome_iff_exists.1 h
  rw [State.answerOf, State.find_answer hx]
  rfl

theorem State.hasAcc_onAcc {s : State} {core id : Nat} (h : s.HasAcc core id) (c i : Nat) {f : Access → Access} (hf : ∀ b, (f b).id = b.id) :
    (s.onAcc c i f).HasAcc core id := by
  rw [State.hasAcc_iff] at *
  obtain ⟨x, hx, hid⟩ := h
  rcases eq_or_ne core c with rfl | hne
  · rw [State.core_onAcc]
    refine ⟨_, List.mem_map.2 ⟨x, hx, rfl⟩, ?_⟩
    split
    · rw [hf, hid]
    · exact hid
  · rw [State.onAcc, State.core_onCore_ne _ _ hne]
    exact ⟨x, hx, hid⟩

theorem State.hasAcc_answer {s : State} {core id : Nat} (h : s.HasAcc core id) (c i : Nat) (v : AccAnswer) :
    (s.answer c i v).HasAcc core id :=
  State.hasAcc_onAcc h c i fun _ => rfl

/-! ## The walk (R98) -/

/-- A change that keeps the commons words, the banks and the numbers of the accesses. -/
def State.Answers (s t : State) : Prop :=
  t.words = s.words ∧ t.banks = s.banks ∧ ∀ core id, s.HasAcc core id → t.HasAcc core id

theorem State.Answers.refl (s : State) : s.Answers s := ⟨rfl, rfl, fun _ _ h => h⟩

theorem State.Answers.trans {s t u : State} (h1 : s.Answers t) (h2 : t.Answers u) : s.Answers u :=
  ⟨h2.1.trans h1.1, h2.2.1.trans h1.2.1, fun c i h => h2.2.2 c i (h1.2.2 c i h)⟩

theorem State.Answers.word {s t : State} (h : s.Answers t) (w : Nat) : t.word w = s.word w := by rw [State.word, h.1, State.word]

theorem State.Answers.bank {s t : State} (h : s.Answers t) (b : Nat) : t.bank b = s.bank b := by rw [State.bank, h.2.1, State.bank]

theorem State.answers_answer (s : State) (c i : Nat) (v : AccAnswer) : s.Answers (s.answer c i v) :=
  ⟨rfl, rfl, fun _ _ h => State.hasAcc_answer h c i v⟩

theorem State.answers_bankMessage (s : State) (o : Nat) (target : W64) (chan : Nat) (kind : BitVec 3) (from_ : W64) (inc : BitVec 8)
    (dom : BitVec 16) (words : List W64) : s.Answers (s.bankMessage o target chan kind from_ inc dom words) :=
  ⟨rfl, rfl, fun _ _ h => h⟩

theorem State.answers_serve (s : State) (o : Nat) (c : Cont) : s.Answers (s.serve o c) := by
  unfold State.serve
  dsimp only
  split
  · exact s.answers_answer ..
  · exact s.answers_bankMessage ..

theorem State.answers_walk (s : State) (o w : Nat) : (s.onBank (bankOf o (w * 8)) fun k =>
    { k with conts := k.conts.filter fun c => !(c.word == w && c.servedBy (s.word w).ver) }).Answers (s.walk o w) :=
  List.foldlRecOn (motive := (s.onBank (bankOf o (w * 8)) fun k =>
    { k with conts := k.conts.filter fun c => !(c.word == w && c.servedBy (s.word w).ver) }).Answers) _ _ (.refl _)
    fun t ht c _ => ht.trans (t.answers_serve o c)

/-! ## Making a version (R95, R96) -/

/-- The shadow store of a bank after the push of a word. -/
def Bank.pushed (b : Bank) (w : Nat) (c : CWord) : List Shadow :=
  if !c.hasval || !verGe c.ver c.floor then b.shadow
  else (if b.shadow.length ≥ 4096 then b.shadow.drop 1 else b.shadow) ++ [⟨w, c.ver, c.data⟩]

theorem Bank.pushed_of_made {b : Bank} {w : Nat} {c : CWord} (hh : c.hasval = true) (hv : verGe c.ver c.floor = true)
    (hl : b.shadow.length < 4096) : b.pushed w c = b.shadow ++ [⟨w, c.ver, c.data⟩] := by
  simp [Bank.pushed, hh, hv, Nat.not_le.2 hl]

theorem Bank.pushed_of_before {b : Bank} {w : Nat} {c : CWord} (h : ¬(c.hasval = true ∧ verGe c.ver c.floor = true)) :
    b.pushed w c = b.shadow :=
  if_pos (by rwa [← Bool.not_and, Bool.not_eq_true', ← Bool.not_eq_true, Bool.and_eq_true])

theorem State.bank_pushShadow (s : State) (o w : Nat) : (s.pushShadow o w).bank (bankOf o (w * 8)) =
    { s.bank (bankOf o (w * 8)) with shadow := (s.bank (bankOf o (w * 8))).pushed w (s.word w) } := by
  simp only [State.pushShadow, Bank.pushed]
  split
  · rfl
  · rw [State.bank_onBank_same, apply_ite (State.bank · (bankOf o (w * 8))), State.bank_countOwner, ite_self]

theorem State.words_pushShadow (s : State) (o w : Nat) : (s.pushShadow o w).words = s.words := by
  simp only [State.pushShadow]
  split
  · rfl
  · split <;> rfl

theorem State.core_pushShadow (s : State) (o w c : Nat) : (s.pushShadow o w).core c = s.core c := by
  simp only [State.pushShadow]
  split
  · rfl
  · split <;> rfl

/-- What the making of a version does to one word and its bank. -/
structure State.Made (s t : State) (o w : Nat) (d : W64) (whole : Bool) : Prop where
  word : t.word w =
    { s.word w with data := d, ver := (s.word w).ver + 1, hasval := true, poison := (s.word w).poison && !whole }
  others : ∀ u, u ≠ w → t.word u = s.word u
  shadow : (t.bank (bankOf o (w * 8))).shadow = (s.bank (bankOf o (w * 8))).pushed w (s.word w)
  conts : (t.bank (bankOf o (w * 8))).conts =
    (s.bank (bankOf o (w * 8))).conts.filter fun q => !(q.word == w && q.servedBy ((s.word w).ver + 1))
  accs : ∀ core id, s.HasAcc core id → t.HasAcc core id

theorem State.Made.answers {s t u : State} {o w : Nat} {d : W64} {whole : Bool} (h : s.Made t o w d whole) (hu : t.Answers u) :
    s.Made u o w d whole where
  word := (hu.word w).trans h.word
  others q hq := (hu.word q).trans (h.others q hq)
  shadow := (congrArg Bank.shadow (hu.bank _)).trans h.shadow
  conts := (congrArg Bank.conts (hu.bank _)).trans h.conts
  accs c i hc := hu.2.2 c i (h.accs c i hc)

/-- A word before the walk of its new version, with the walk's continuations gone. -/
theorem State.made_makeVersion (s : State) (o w : Nat) (d : W64) (whole : Bool) : s.Made (s.makeVersion o w d whole) o w d whole := by
  refine State.Made.answers ?_ (State.answers_walk _ o w)
  have hb := s.bank_pushShadow o w
  exact
    { word := by simp
      others := fun u hu => by
        simp only [State.word_onBank, State.word_setWord, if_neg hu]
        rw [State.word, s.words_pushShadow, State.word]
      shadow := by simp [hb]
      conts := by simp [hb]
      accs := fun c i h => State.hasAcc_of_core (by simp [s.core_pushShadow]) h }

theorem State.trigs_makeVersion (s : State) (o w : Nat) (d : W64) (whole : Bool) :
    ((s.makeVersion o w d whole).bank (bankOf o (w * 8))).trigs = (s.bank (bankOf o (w * 8))).trigs :=
  (congrArg Bank.trigs ((State.answers_walk _ o w).bank _)).trans (by simp [s.bank_pushShadow])

end Sys2Proof.Machine
end

section
/-! SUPPORT. What a bank does with each kind of access (R95 to R101, R283 to R286), one lemma for each. -/

namespace Sys2Proof.Machine

theorem bankOf_word (o ga : Nat) : bankOf o (ga / 8 * 8) = bankOf o ga := by
  have h : ga / 8 * 8 / 64 = ga / 64 := by omega
  simp only [bankOf, h]

theorem verGe_iff (p q : BitVec 16) : verGe p q = true ↔ (p - q).toNat < 2 ^ 15 := by simp [verGe]

theorem verGe_self (p : BitVec 16) : verGe p p = true := by simp [verGe]

theorem verAfter_iff (p q : BitVec 16) : verAfter p q = true ↔ verGe p q = true ∧ p ≠ q := by simp [verAfter]

/-! ## Bits of a word (R92, R284, R285) -/

/-- Bit `j` of a word into which `n` bits were written from bit `lo` upward. -/
theorem getLsbD_insertBits (old v : W64) {lo n j : Nat} (hj : j < 64) :
    (insertBits old lo n v).getLsbD j = if lo ≤ j ∧ j < lo + n then v.getLsbD (j - lo) else old.getLsbD j := by
  have hm : (BitVec.ofNat 64 (2 ^ n - 1)).getLsbD (j - lo) = decide (j - lo < n) := by
    rw [BitVec.getLsbD_ofNat, Nat.testBit_two_pow_sub_one]
    simp
    omega
  by_cases hlo : lo ≤ j
  · have hin : (j - lo < n) = (j < lo + n) := by simp; omega
    simp only [insertBits, BitVec.getLsbD_or, BitVec.getLsbD_and, BitVec.getLsbD_not, BitVec.getLsbD_shiftLeft, hm, hj, Nat.not_lt.2 hlo, hin, hlo,
      true_and]
    by_cases hn : j < lo + n <;> simp [hn]
  · simp [insertBits, hj, hlo, Nat.lt_of_not_le hlo]

/-- What an access to an empty or a full word reads. -/
def CWord.now (c : CWord) (ga : Nat) : AccAnswer :=
  if c.poison then .dataError 1 (BitVec.ofNat 64 ga) else .value [if c.hasval then c.data else 0] c.ver

/-- The fields of the word that CVER reads. -/
theorem CWord.meta_fields (c : CWord) (lodged : Bool) : (c.meta lodged).setWidth 16 = c.ver ∧ (c.meta lodged).extractLsb' 32 16 = c.floor ∧
    (c.meta lodged).getLsbD 63 = c.hasval ∧ ((c.meta lodged).extractLsb' 48 2).toNat = c.state lodged := by
  have hs : c.state lodged < 4 := by
    unfold CWord.state
    repeat' split
    all_goals decide
  have hv := c.ver.isLt
  have hf := c.floor.isLt
  have hb : (if c.hasval then 2 ^ 63 else 0 : Nat) = c.hasval.toNat * 2 ^ 63 := by cases c.hasval <;> rfl
  have hh : c.hasval.toNat < 2 := Bool.toNat_lt c.hasval
  have hm : (c.meta lodged).toNat = c.hasval.toNat * 2 ^ 63 + c.state lodged * 2 ^ 48 + c.floor.toNat * 2 ^ 32 + c.ver.toNat := by
    rw [CWord.meta, hb, BitVec.toNat_ofNat]
    omega
  refine ⟨BitVec.eq_of_toNat_eq ?_, BitVec.eq_of_toNat_eq ?_, ?_, ?_⟩
  · rw [BitVec.toNat_setWidth, hm]
    omega
  · rw [BitVec.extractLsb'_toNat, hm, Nat.shiftRight_eq_div_pow]
    omega
  · rw [BitVec.getLsbD, hm, Nat.testBit_eq_decide_div_mod_eq]
    cases hc : c.hasval
    · simp only [hc, Bool.toNat_false] at *
      simp
      omega
    · simp only [hc, Bool.toNat_true] at *
      simp
      omega
  · rw [BitVec.extractLsb'_toNat, hm, Nat.shiftRight_eq_div_pow]
    omega

/-! ## Loads (R97, R283) -/

section
variable {s : State} {o core : Nat} {a : Access}

/-- A load that need not wait. -/
theorem State.applyAtBank_reads (ha : s.HasAcc core a.id) (hop : a.op = .load ∨ a.op = .loadGe ∨ a.op = .loadEq ∨ a.op = .loadAcq)
    (hl : s.mustLodge a = false) : (s.applyAtBank o core a).answerOf core a.id = some (s.readVersion o a) ∧
      (s.applyAtBank o core a).words = s.words := by
  have key : ∀ r : AccAnswer, let s1 := (match r with | .fault .. => s.countOwner o 0x62 (some a.domain) | _ => s)
      (s1.answer core a.id r).answerOf core a.id = some r ∧ (s1.answer core a.id r).words = s.words := by
    intro r
    cases r
    case fault => exact ⟨State.answerOf_answer (s := s.countOwner o 0x62 (some a.domain)) ha _, rfl⟩
    all_goals exact ⟨State.answerOf_answer ha _, rfl⟩
  rcases hop with h | h | h | h <;> simp only [State.applyAtBank, h, hl] <;> exact key _

theorem State.readVersion_now (hop : a.op ≠ .loadEq ∨ (a.ops.headD 0).setWidth 16 = (s.word (a.ga / 8)).ver) :
    s.readVersion o a = (s.word (a.ga / 8)).now a.ga := by
  unfold State.readVersion
  dsimp only
  split
  · rename_i h
    rw [if_pos]
    · rfl
    · simpa [h, BitVec.ofNat_toNat] using hop
  · rfl

theorem State.readVersion_shadow (hop : a.op = .loadEq) {v : BitVec 16} (hv : (a.ops.headD 0).setWidth 16 = v)
    (hne : v ≠ (s.word (a.ga / 8)).ver) {e : Shadow} (hf : verGe v (s.word (a.ga / 8)).floor = true)
    (he : (s.bank (bankOf o a.ga)).shadow.find? (fun e => e.word == a.ga / 8 && e.ver == v) = some e) :
    s.readVersion o a = .value [e.val] v := by
  simp only [State.readVersion, hop, BitVec.ofNat_toNat, hv, if_neg hne, if_pos hf, he]

theorem State.readVersion_gone (hop : a.op = .loadEq) {v : BitVec 16} (hv : (a.ops.headD 0).setWidth 16 = v)
    (hne : v ≠ (s.word (a.ga / 8)).ver) (hf : verGe v (s.word (a.ga / 8)).floor = false) :
    s.readVersion o a = .fault 0x16 0 (v.zeroExtend 64) := by
  simp only [State.readVersion, hop, BitVec.ofNat_toNat, hv, if_neg hne, hf, Bool.false_eq_true, if_false, rVersionGone]

/-- A load whose version is to come takes a place among the continuations of its bank, and is reported lodged. -/
theorem State.applyAtBank_lodges (ha : (s.core core).accs.find? (·.id == a.id) = some a)
    (hop : a.op = .loadGe ∨ a.op = .loadEq ∨ a.op = .loadAcq) (hl : s.mustLodge a = true)
    (hr : (s.bank (bankOf o a.ga)).conts.length + (s.reservedAt (bankOf o a.ga)).1 < 2048) :
    ((s.applyAtBank o core a).bank (bankOf o a.ga)).conts = (s.bank (bankOf o a.ga)).conts ++
        [⟨a.ga / 8, (a.ops.headD 0).setWidth 16, .wait core a.id (decide (a.op = .loadEq)) (decide (a.op = .loadAcq))⟩] ∧
      ∃ q, ((s.applyAtBank o core a).core core).accs.find? (·.id == a.id) = some q ∧ q.phase = .lodged := by
  have heq : s.applyAtBank o core a = (s.onBank (bankOf o a.ga) fun n => { n with conts := n.conts ++
      [⟨a.ga / 8, BitVec.ofNat 16 (a.ops.headD 0).toNat, .wait core a.id (decide (a.op = .loadEq)) (decide (a.op = .loadAcq))⟩] }).onAcc core a.id
        fun a => { a with phase := .lodged, waited := true } := by
    have hn : ¬(s.bank (bankOf o a.ga)).conts.length + (s.reservedAt (bankOf o a.ga)).1 ≥ 2048 := by omega
    rcases hop with h | h | h <;> simp only [State.applyAtBank, h, hl, State.lodge, if_true, if_neg hn]
  rw [heq]
  refine ⟨by simp [BitVec.ofNat_toNat], _, State.find_onAcc (a := a) (by simpa using ha) fun _ => rfl, rfl⟩

theorem State.applyAtBank_full (ha : (s.core core).accs.find? (·.id == a.id) = some a)
    (hop : a.op = .loadGe ∨ a.op = .loadEq ∨ a.op = .loadAcq) (hl : s.mustLodge a = true)
    (hr : 2048 ≤ (s.bank (bankOf o a.ga)).conts.length + (s.reservedAt (bankOf o a.ga)).1) :
    ∃ q, ((s.applyAtBank o core a).core core).accs.find? (·.id == a.id) = some q ∧ q.phase = .busy := by
  have heq : s.applyAtBank o core a = (s.answerBusy core a.id).countOwner o 0x63 (some a.domain) := by
    rcases hop with h | h | h <;> simp only [State.applyAtBank, h, hl, State.lodge, if_true, if_pos hr]
  rw [heq]
  exact ⟨_, State.find_onAcc ha fun _ => rfl, rfl⟩

theorem State.mustLodge_false_of_made (hop : a.op = .loadGe ∨ a.op = .loadAcq)
    (hv : verGe (s.word (a.ga / 8)).ver ((a.ops.headD 0).setWidth 16) = true) (hh : (s.word (a.ga / 8)).hasval = true) : s.mustLodge a = false := by
  rcases hop with h | h <;> simp only [State.mustLodge, h, BitVec.ofNat_toNat, hv, hh, Bool.and_self, Bool.not_true]

theorem State.mustLodge_of_unmade (hop : a.op = .loadGe ∨ a.op = .loadAcq)
    (hv : ¬(verGe (s.word (a.ga / 8)).ver ((a.ops.headD 0).setWidth 16) = true ∧ (s.word (a.ga / 8)).hasval = true)) : s.mustLodge a = true := by
  rw [← Bool.and_eq_true, Bool.not_eq_true] at hv
  rcases hop with h | h <;> simp only [State.mustLodge, h, BitVec.ofNat_toNat, hv, Bool.not_false]

theorem State.mustLodge_loadEq (hop : a.op = .loadEq) : s.mustLodge a = verAfter ((a.ops.headD 0).setWidth 16) (s.word (a.ga / 8)).ver := by
  simp only [State.mustLodge, hop, BitVec.ofNat_toNat]

/-! ## Stores (R284) -/

theorem State.applyAtBank_stores {d : W64} {whole : Bool} (hop : a.op ∈ [AccOp.storeB, .storeH, .storeW, .storeNl, .storeNh, .storeD, .storeRel])
    (hv : storeValue a.op (s.word (a.ga / 8)).data a.ga (a.ops.headD 0) = (d, whole)) :
    s.applyAtBank o core a = (s.makeVersion o (a.ga / 8) d whole).answer core a.id (.value [] 0) := by
  simp only [List.mem_cons, List.not_mem_nil, or_false] at hop
  rcases hop with h | h | h | h | h | h | h <;> rw [h] at hv <;> simp only [State.applyAtBank, h, hv]

/-! ## Atomics (R100, R101) -/

theorem State.applyAtBank_poisoned {op : AtomOp} (hop : a.op = .atom op) (hp : (s.word (a.ga / 8)).poison = true) :
    s.applyAtBank o core a = s.answer core a.id (.dataError 1 (BitVec.ofNat 64 a.ga)) := by
  simp [State.applyAtBank, hop, hp]

theorem State.applyAtBank_atom {op : AtomOp} (hop : a.op = .atom op) (hp : (s.word (a.ga / 8)).poison = false) {d : W64}
    (hd : atomValue op (s.word (a.ga / 8)).data a.ga (a.ops.headD 0) ((a.ops[1]?).getD 0) = some d) :
    s.applyAtBank o core a = (s.atomicWrite o (a.ga / 8) d).answer core a.id
      (.value [atomOld op (s.word (a.ga / 8)).data a.ga] (s.word (a.ga / 8)).ver) := by
  simp only [State.applyAtBank, hop, hp, hd, Bool.false_eq_true, if_false]

theorem State.applyAtBank_atom_none {op : AtomOp} (hop : a.op = .atom op) (hp : (s.word (a.ga / 8)).poison = false)
    (hd : atomValue op (s.word (a.ga / 8)).data a.ga (a.ops.headD 0) ((a.ops[1]?).getD 0) = none) :
    s.applyAtBank o core a = s.answer core a.id (.value [atomOld op (s.word (a.ga / 8)).data a.ga] (s.word (a.ga / 8)).ver) := by
  simp only [State.applyAtBank, hop, hp, hd, Bool.false_eq_true, if_false]

end

/-- A trigger that fires changes no word, shadow entry or continuation. -/
theorem State.Made.triggerCheck {s t : State} {o w : Nat} {d : W64} {whole : Bool} (h : s.Made t o w d whole) (old : W64) :
    s.Made (t.triggerCheck o w old) o w d whole := by
  simp only [State.triggerCheck]
  split
  · split
    · exact h
    · exact
        { word := h.word
          others := h.others
          shadow := by simpa [State.bankMessage] using h.shadow
          conts := by simpa [State.bankMessage] using h.conts
          accs := h.accs }
  · exact h

theorem State.made_atomicWrite (s : State) (o w : Nat) (d : W64) : s.Made (s.atomicWrite o w d) o w d true :=
  (s.made_makeVersion o w d true).triggerCheck _

end Sys2Proof.Machine
end

section
/-! SUPPORT. Reclaiming, arming and deferring at a bank (R97, R99, R101, R286), and the values of atomics (R100, R285). -/

namespace Sys2Proof.Machine

/-! ## Values of stores -/

/-- The bits that each store writes, and whether it writes all of them. -/
theorem storeValue_bits (old x : W64) (ga : Nat) {p : AccOp × Nat × Nat} (hp : p ∈ [(AccOp.storeB, ga % 8 * 8, 8), (.storeH, ga % 8 * 8, 16),
      (.storeW, ga % 8 * 8, 32), (.storeNl, ga % 8 * 8, 4), (.storeNh, ga % 8 * 8 + 4, 4), (.storeD, 0, 64), (.storeRel, 0, 64)]) :
    ∃ d, storeValue p.1 old ga x = (d, decide (p.1 = .storeD ∨ p.1 = .storeRel)) ∧
      ∀ j, j < 64 → d.getLsbD j = if p.2.1 ≤ j ∧ j < p.2.1 + p.2.2 then x.getLsbD (j - p.2.1) else old.getLsbD j := by
  have whole : ∀ j, j < 64 → x.getLsbD j = if 0 ≤ j ∧ j < 0 + 64 then x.getLsbD (j - 0) else old.getLsbD j := by
    intro j hj
    rw [if_pos ⟨Nat.zero_le j, by omega⟩, Nat.sub_zero]
  simp only [List.mem_cons, List.not_mem_nil, or_false] at hp
  rcases hp with rfl | rfl | rfl | rfl | rfl | rfl | rfl
  case inr.inr.inr.inr.inr.inl => exact ⟨x, rfl, whole⟩
  case inr.inr.inr.inr.inr.inr => exact ⟨x, rfl, whole⟩
  all_goals exact ⟨_, rfl, fun j hj => getLsbD_insertBits old x hj⟩

/-! ## Values of atomics -/

theorem atomOld_eq (op : AtomOp) (old : W64) (ga : Nat) : atomOld op old ga =
    if op = .fadd then BitVec.ofNat 64 (old.toNat / 2 ^ (ga / 4 % 2 * 32) % 2 ^ 32) else old := by
  cases op <;> simp [atomOld, BitVec.toNat_ushiftRight, Nat.shiftRight_eq_div_pow]

theorem atomValue_min (old x y : W64) (ga : Nat) : ∃ d, atomValue .min old ga x y = some d ∧ (d = x ∨ d = old) ∧ ¬x.toInt < d.toInt ∧
    ¬old.toInt < d.toInt := by
  refine ⟨_, rfl, ?_⟩
  by_cases h : x.slt old = true
  · rw [if_pos h]
    rw [BitVec.slt_iff_toInt_lt] at h
    exact ⟨.inl rfl, by omega, by omega⟩
  · rw [if_neg h]
    rw [BitVec.slt_iff_toInt_lt] at h
    exact ⟨.inr rfl, by omega, by omega⟩

theorem atomValue_max (old x y : W64) (ga : Nat) : ∃ d, atomValue .max old ga x y = some d ∧ (d = x ∨ d = old) ∧ ¬d.toInt < x.toInt ∧
    ¬d.toInt < old.toInt := by
  refine ⟨_, rfl, ?_⟩
  by_cases h : old.slt x = true
  · rw [if_pos h]
    rw [BitVec.slt_iff_toInt_lt] at h
    exact ⟨.inl rfl, by omega, by omega⟩
  · rw [if_neg h]
    rw [BitVec.slt_iff_toInt_lt] at h
    exact ⟨.inr rfl, by omega, by omega⟩

section
variable {s : State} {o core : Nat} {a : Access} (ha : s.HasAcc core a.id)

/-! ## Reclaiming (R97) -/

/-- FLOOR after a reclaim up to a version. -/
def CWord.floorAfter (c : CWord) (u : BitVec 16) : BitVec 16 :=
  if verAfter u c.ver then c.ver else if verGe u c.floor then u else c.floor

theorem CWord.floorAfter_later {c : CWord} {u : BitVec 16} (h : u ≠ c.ver) (hv : verGe u c.ver = true) : c.floorAfter u = c.ver :=
  if_pos ((verAfter_iff _ _).2 ⟨hv, h⟩)

theorem CWord.floorAfter_made {c : CWord} {u : BitVec 16} (h : u = c.ver ∨ ¬verGe u c.ver = true) :
    c.floorAfter u = if (u - c.floor).toNat < 2 ^ 15 then u else c.floor := by
  have hn : ¬verAfter u c.ver = true := by
    rw [verAfter_iff]
    rcases h with h | h
    · exact fun hv => hv.2 h
    · exact fun hv => h hv.1
  rw [CWord.floorAfter, if_neg hn]
  simp only [verGe_iff]

include ha in
theorem State.applyAtBank_recl (hop : a.op = .recl) :
    (s.applyAtBank o core a).word (a.ga / 8) =
        { s.word (a.ga / 8) with floor := (s.word (a.ga / 8)).floorAfter ((a.ops.headD 0).setWidth 16) } ∧
      (s.applyAtBank o core a).answerOf core a.id = some (.value [] 0) := by
  have heq : s.applyAtBank o core a = (s.reclaim o (a.ga / 8) ((a.ops.headD 0).setWidth 16)).answer core a.id (.value [] 0) := by
    simp only [State.applyAtBank, hop, BitVec.ofNat_toNat]
  rw [heq]
  refine ⟨?_, State.answerOf_answer (State.hasAcc_of_core rfl ha) _⟩
  simp [State.reclaim, CWord.floorAfter]

/-! ## CVER (R283) -/

include ha in
theorem State.applyAtBank_ver (hop : a.op = .ver) : (s.applyAtBank o core a).answerOf core a.id =
    some (.value [(s.word (a.ga / 8)).meta !((s.bank (bankOf o a.ga)).contsOf (a.ga / 8)).isEmpty] (s.word (a.ga / 8)).ver) := by
  simp only [State.applyAtBank, hop]
  exact State.answerOf_answer ha _

theorem Bank.contsOf_isEmpty (b : Bank) (w : Nat) : (!(b.contsOf w).isEmpty) = b.conts.any (·.word == w) := by
  rw [Bool.eq_iff_iff]
  simp [Bank.contsOf]

/-! ## Arming (R101) -/

theorem State.applyAtBank_arms (hop : a.op = .arm)
    (hr : (s.bank (bankOf o a.ga)).trigs.length + (s.reservedAt (bankOf o a.ga)).2 < 32)
    (hn : ∀ g ∈ (s.bank (bankOf o a.ga)).trigs, g.word ≠ a.ga / 8) : s.applyAtBank o core a =
      (s.onBank (bankOf o a.ga) fun k => { k with trigs := k.trigs ++
        [⟨a.ga / 8, a.ops.headD 0, a.chan, (a.ops[1]?).getD 0, (a.ops[2]?).getD 0, a.name, a.inc, a.domain⟩] }).answer core a.id (.value [] 0) := by
  have hno : (s.bank (bankOf o a.ga)).trigs.any (·.word == a.ga / 8) = false := by simpa using hn
  have hge : ¬(s.bank (bankOf o a.ga)).trigs.length + (s.reservedAt (bankOf o a.ga)).2 ≥ 32 := by omega
  simp only [State.applyAtBank, hop, hno, hge, decide_false, Bool.or_self, Bool.false_eq_true, if_false]

theorem State.applyAtBank_refusesArm (hop : a.op = .arm) {d : Nat}
    (hd : d = 5 ∧ (∃ g ∈ (s.bank (bankOf o a.ga)).trigs, g.word = a.ga / 8) ∨
      d = 4 ∧ 32 ≤ (s.bank (bankOf o a.ga)).trigs.length + (s.reservedAt (bankOf o a.ga)).2 ∧
        ∀ g ∈ (s.bank (bankOf o a.ga)).trigs, g.word ≠ a.ga / 8) : s.applyAtBank o core a =
      (s.delivery (ownerPkg o) (ownerDie o) a.name a.inc rOverflow (a.ops.headD 0) (s.liveInc (a.ops.headD 0))
        (deliveryDetail d a.chan ((a.ops[1]?).getD 0))).answer core a.id (.value [] 0) := by
  rcases hd with ⟨rfl, hg⟩ | ⟨rfl, hr, hn⟩
  · have hyes : (s.bank (bankOf o a.ga)).trigs.any (·.word == a.ga / 8) = true := by simpa using hg
    simp only [State.applyAtBank, hop, hyes, Bool.true_or, if_true]
  · have hno : (s.bank (bankOf o a.ga)).trigs.any (·.word == a.ga / 8) = false := by simpa using hn
    simp only [State.applyAtBank, hop, hno, decide_eq_true (show _ ≥ 32 from hr), Bool.false_or, if_true, Bool.false_eq_true, if_false]

/-! ## A deferral served at once (R286) -/

theorem State.applyAtBank_defers (hop : a.op = .defer) (hv : verGe (s.word (a.ga / 8)).ver (((a.ops[1]?).getD 0).setWidth 16) = true)
    (hh : (s.word (a.ga / 8)).hasval = true) : s.applyAtBank o core a =
      (s.serveDeferral o (a.ga / 8) (a.ops.headD 0) a.chan ((a.ops[1]?).getD 0 >>> 16) a.name a.inc a.domain (s.word (a.ga / 8)).data
        (s.word (a.ga / 8)).ver false (s.word (a.ga / 8)).poison).answer core a.id (.value [] 0) := by
  simp only [State.applyAtBank, hop, BitVec.ofNat_toNat, hv, hh, Bool.and_self, if_true]

end

/-! ## The trigger of an atomic (R101) -/

/-- An armed word that an atomic makes zero is disarmed and its message leaves. -/
theorem State.triggerCheck_fires {t : State} {o w : Nat} {old : W64} {g : Trigger} (hold : old ≠ 0) (hz : (t.word w).data = 0)
    (hg : (t.bank (bankOf o (w * 8))).trigs.find? (·.word == w) = some g) :
    ((t.triggerCheck o w old).bank (bankOf o (w * 8))).trigs = (t.bank (bankOf o (w * 8))).trigs.filter (·.word != w) ∧
      ∃ n p m via, (t.triggerCheck o w old).packet n = some p ∧ p.pay = .message m via none ∧ m.dst = g.target ∧ m.chan = g.chan ∧ m.kind = 4 ∧
        m.sender = g.armer ∧ m.body = body8 [g.p0, g.p1, BitVec.ofNat 64 (w * 8), (t.word w).ver.zeroExtend 64] := by
  have hc : old ≠ 0 ∧ (t.word w).data = 0 := ⟨hold, hz⟩
  simp only [State.triggerCheck, if_pos hc, hg, State.bankMessage]
  refine ⟨by simp, t.serial, _, _, _, (State.packet_countOwner ..).trans (State.packet_post ..), rfl, rfl, rfl, rfl, rfl, rfl⟩

end Sys2Proof.Machine
end

section
/-! CERTIFICATES. What a commons bank does with one access (R92 to R101, R283 to R289). -/

namespace Sys2Proof.Machine

/-- Settles O51, by the kind of the access: what it answers, and, where it makes a version, what that leaves in the word and its bank. -/
theorem bankOperations : Obligations.BankOperations := by
  intro o core a s hfind w c b t ans bt x y v ge room now lo made bitsOf older signedLt
  have ha : s.HasAcc core a.id := by rw [State.HasAcc, hfind]; rfl
  have hans : ans = t.answerOf core a.id := rfl
  have hkey : bankOf o (w * 8) = bankOf o a.ga := bankOf_word o a.ga
  have hge : ∀ p q, ge p q ↔ verGe p q = true := fun p q => (verGe_iff p q).symm
  have hmade : ∀ {u : State} {d whole}, s.Made u o w d whole → u.Answers t → made d whole := by
    intro u d whole hm ht
    have hu : s.Made t o w d whole := hm.answers ht
    have hshadow := hu.shadow
    have hconts := hu.conts
    rw [hkey] at hshadow hconts
    exact ⟨hu.word, hu.others, fun hh hv hl => hshadow.trans (Bank.pushed_of_made hh ((hge _ _).1 hv) hl),
      fun hn => hshadow.trans (Bank.pushed_of_before (by rwa [← hge])), hconts⟩
  have hatom : ∀ {op d}, a.op = .atom op → c.poison = false → atomValue op c.data a.ga x y = some d → made d true := by
    intro op d hop hp hd
    refine hmade (s.made_atomicWrite o w d) ?_
    rw [show t = _ from State.applyAtBank_atom hop hp hd]
    exact State.answers_answer ..
  have hreads : ∀ {r : AccAnswer}, a.op = .load ∨ a.op = .loadGe ∨ a.op = .loadEq ∨ a.op = .loadAcq → s.mustLodge a = false →
      s.readVersion o a = r → ans = some r ∧ t.words = s.words := by
    rintro r hop hl rfl
    exact State.applyAtBank_reads ha hop hl
  refine ⟨fun hop => ?_, fun hop hv hh => ?_, fun hop hv => ⟨fun hr => ?_, fun hr => ?_⟩, fun hop hv => ?_, fun hop hne hv hr => ?_,
    fun hop hv e hf he => ?_, fun hop hv hf => ?_, fun hop => ?_, fun p hp hop hal => ?_, fun op hop hp => ?_, fun op hop hp => ?_,
    fun hp p hmem hop => ?_, fun hp => ⟨fun hop => ?_, fun hop => ?_, fun hop => ?_⟩, fun hop => ⟨fun hne hv => ?_, fun hv => ?_, ?_⟩,
    fun hop hr hn => ?_, fun d hop hd => ?_, fun g hop hp hnz hz hg => ?_, fun hop hv hh hp => ?_⟩
  · exact hreads (.inl hop) (by simp [State.mustLodge, hop]) (State.readVersion_now (.inl (by simp [hop])))
  · exact hreads (hop.elim (.inr ∘ .inl) (.inr ∘ .inr ∘ .inr)) (State.mustLodge_false_of_made hop ((hge _ _).1 hv) hh)
      (State.readVersion_now (.inl (by rcases hop with h | h <;> simp [h])))
  · rw [hge] at hv
    obtain ⟨h1, h2⟩ := State.applyAtBank_lodges (o := o) hfind (hop.imp_right .inr) (State.mustLodge_of_unmade hop hv) hr
    refine ⟨h1.trans ?_, h2⟩
    rcases hop with h | h <;> simp [h, x, b, v, w]
  · rw [hge] at hv
    exact State.applyAtBank_full (o := o) hfind (hop.imp_right .inr) (State.mustLodge_of_unmade hop hv) hr
  · have hl : s.mustLodge a = false := by
      rw [State.mustLodge_loadEq hop, Bool.eq_false_iff, ne_eq, verAfter_iff]
      exact fun h => h.2 hv
    exact hreads (.inr (.inr (.inl hop))) hl (State.readVersion_now (.inr hv))
  · have hl : s.mustLodge a = true := by
      rw [State.mustLodge_loadEq hop, verAfter_iff]
      exact ⟨(hge _ _).1 hv, hne⟩
    obtain ⟨h1, h2⟩ := State.applyAtBank_lodges (o := o) hfind (.inr (.inl hop)) hl hr
    refine ⟨h1.trans ?_, h2⟩
    simp [hop, x, b, v, w]
  · rw [hge] at hv hf
    have hl : s.mustLodge a = false := by
      rw [State.mustLodge_loadEq hop, Bool.eq_false_iff, ne_eq, verAfter_iff]
      exact fun h => hv h.1
    exact (hreads (.inr (.inr (.inl hop))) hl (State.readVersion_shadow hop rfl (fun h => hv (h ▸ verGe_self _)) hf he)).1
  · rw [hge] at hv hf
    have hl : s.mustLodge a = false := by
      rw [State.mustLodge_loadEq hop, Bool.eq_false_iff, ne_eq, verAfter_iff]
      exact fun h => hv h.1
    exact (hreads (.inr (.inr (.inl hop))) hl
      (State.readVersion_gone hop rfl (fun h => hv (h ▸ verGe_self _)) (Bool.eq_false_iff.2 hf))).1
  · obtain ⟨h1, h2, h3, h4⟩ := c.meta_fields (!(b.contsOf w).isEmpty)
    refine ⟨_, State.applyAtBank_ver ha hop, h1, h2, h3, h4.trans ?_⟩
    rw [CWord.state, Bank.contsOf_isEmpty]
  · obtain ⟨d, hd, hbits⟩ := storeValue_bits c.data x a.ga hp
    rw [← hop] at hd ⊢
    have heq := State.applyAtBank_stores (s := s) (o := o) (core := core) (by
      rw [hop]
      exact List.mem_map_of_mem (f := Prod.fst) hp) hd
    refine ⟨?_, d, hmade (s.made_makeVersion o w d _) ?_, hbits⟩
    · rw [hans, show t = _ from heq]
      exact State.answerOf_answer ((s.made_makeVersion o w d _).accs _ _ ha) _
    · rw [show t = _ from heq]
      exact State.answers_answer ..
  · have heq : t = _ := State.applyAtBank_poisoned hop hp
    rw [hans, heq]
    exact ⟨State.answerOf_answer ha _, rfl⟩
  · have hold : older = atomOld op c.data a.ga := by
      rw [atomOld_eq]
      simp only [older, hop, AccOp.atom.injEq]
    rw [hans, hold]
    cases hd : atomValue op c.data a.ga x y with
    | none =>
      rw [show t = _ from State.applyAtBank_atom_none hop hp hd]
      exact State.answerOf_answer ha _
    | some d =>
      rw [show t = _ from State.applyAtBank_atom hop hp hd]
      exact State.answerOf_answer ((s.made_atomicWrite o w d).accs _ _ ha) _
  · refine hatom hop hp ?_
    simp only [List.mem_cons, List.not_mem_nil, or_false] at hmem
    rcases hmem with rfl | rfl | rfl | rfl | rfl | rfl | rfl <;> rfl
  · obtain ⟨d, hd, h⟩ := atomValue_min c.data x y a.ga
    exact ⟨d, hatom hop hp hd, h⟩
  · obtain ⟨d, hd, h⟩ := atomValue_max c.data x y a.ga
    exact ⟨d, hatom hop hp hd, h⟩
  · split
    · rename_i h
      exact hatom hop hp (if_pos h)
    · rename_i h
      rw [show t = _ from State.applyAtBank_atom_none hop hp (if_neg h)]
      rfl
  · rw [(State.applyAtBank_recl (o := o) ha hop).1, CWord.floorAfter_later hne ((hge _ _).1 hv)]
  · rw [(State.applyAtBank_recl (o := o) ha hop).1, CWord.floorAfter_made (by rwa [hge] at hv)]
  · exact (State.applyAtBank_recl (o := o) ha hop).2
  · have heq : t = _ := State.applyAtBank_arms hop hr hn
    rw [hans, heq]
    refine ⟨State.answerOf_answer (State.hasAcc_of_core rfl ha) _, ?_⟩
    rw [show bt = t.bank (bankOf o a.ga) from rfl, heq]
    exact congrArg Bank.trigs ((State.bank_answer ..).trans (State.bank_onBank_same s _ _))
  · have heq : t = _ := State.applyAtBank_refusesArm hop hd
    rw [hans, heq]
    exact ⟨State.answerOf_answer (State.hasAcc_of_core rfl ha) _, rfl, _, _, State.packet_post .., rfl, rfl, rfl, rfl, rfl, rfl⟩
  · have hd : atomValue .add c.data a.ga x y = some 0 := congrArg some hz
    have heq : t = _ := State.applyAtBank_atom hop hp hd
    obtain ⟨h1, n, q, m, via, h2⟩ := State.triggerCheck_fires (t := s.makeVersion o w 0 true) (o := o) (w := w) hnz
      (by rw [(s.made_makeVersion o w 0 true).word]) (by rw [s.trigs_makeVersion, hkey]; exact hg)
    rw [s.trigs_makeVersion, hkey] at h1
    rw [(s.made_makeVersion o w 0 true).word] at h2
    rw [show bt = t.bank (bankOf o a.ga) from rfl, heq]
    exact ⟨h1, n, q, m, via, h2⟩
  · have heq : t = _ := State.applyAtBank_defers hop ((hge _ _).1 hv) hh
    rw [hans, heq]
    refine ⟨State.answerOf_answer (State.hasAcc_of_core rfl ha) _, rfl, _, _, _, State.packet_post .., rfl, rfl, rfl, rfl, ?_⟩
    have hp' : (s.word (a.ga / 8)).poison = false := hp
    simp only [hp', Bool.or_self, Bool.false_eq_true, if_false, Nat.zero_add, wordGa, BitVec.ofNat_toNat]
    rfl

end Sys2Proof.Machine
end

section
/-! SUPPORT. Parcels (R153, R305): what a reservation, the copy and the arrival leave at the receiver's core and in the network. -/

namespace Sys2Proof.Machine

/-! ## The packet of a parcel -/

section
variable {s : State} {n : Nat} {q : Packet} {p : Parcel} (hq : s.packet n = some q) (hp : q.pay = .parcel p)
include hq hp

theorem State.parcelAt_of_packet : s.parcelAt n = some p := by simp [State.parcelAt, hq, hp]

theorem State.onParcel_of_packet (f : Parcel → Parcel) : s.onParcel n f = { s with net := s.net.put n { q with pay := .parcel (f p) } } := by
  simp [State.onParcel, hq, hp]

theorem State.packet_onParcel (f : Parcel → Parcel) : (s.onParcel n f).packet n = some { q with pay := .parcel (f p) } := by
  rw [State.onParcel_of_packet hq hp]
  exact SMap.find_put_same ..

theorem State.cores_onParcel (f : Parcel → Parcel) : (s.onParcel n f).cores = s.cores := by
  rw [State.onParcel_of_packet hq hp]

end

/-! ## Refusals -/

theorem deliveryDetail_toNat (code chan : Nat) (m : W64) :
    deliveryDetail code chan m = BitVec.ofNat 64 (code + chan * 256 + m.toNat % 2 ^ 32 * 2 ^ 32) := rfl

theorem State.delivered_delivery (s : State) (pkg die : Nat) (dst : W64) (inc : BitVec 8) (reason : Nat) (subject : W64) (sinc : BitVec 8)
    {v : W64} {detail : Nat} (hv : v = BitVec.ofNat 64 detail) :
    Sys2Proof.Claims.delivered (s.delivery pkg die dst inc reason subject sinc v) s.serial dst reason subject detail :=
  ⟨_, _, State.packet_post .., rfl, rfl, rfl, rfl, rfl, hv⟩

/-- A refused parcel is taken off and its giver is told. -/
theorem State.refuseParcel_tells {s : State} {n : Nat} (hn : n < s.serial) (p : Parcel) (pkg die reason code : Nat) (inc : BitVec 8) :
    (s.refuseParcel n p pkg die reason code inc).packet n = none ∧
      Sys2Proof.Claims.delivered (s.refuseParcel n p pkg die reason code inc) s.serial p.giver reason p.dst (code + p.chan * 256) := by
  refine ⟨?_, State.delivered_delivery _ _ _ _ _ _ _ _ ?_⟩
  · exact (State.packet_post_ne ((s.endParcel n p).onCore p.giverCore (·.releaseGiven p)) _ _ (Nat.ne_of_lt hn)).trans (State.packet_take s n)
  · simp [deliveryDetail_toNat]

/-! ## The answer of the receiver's core (R153 steps 2 and 3) -/

section
variable {k : Core} {p : Parcel} {slot : Nat}

theorem Core.reserveFor_full (h : k.chanFull slot p.chan = true) : k.reserveFor p slot false = .error 1 := by
  simp [Core.reserveFor, h]

theorem Core.reserveFor_noEntry (h : k.chanFull slot p.chan = false) (he : k.freeEntry = none) : k.reserveFor p slot false = .error 2 := by
  simp [Core.reserveFor, h, he]

theorem Core.reserveFor_noRun {j : Nat} (h : k.chanFull slot p.chan = false) (he : k.freeEntry = some j) (hr : k.findRun p.size = none) :
    k.reserveFor p slot false = .error 3 := by
  simp [Core.reserveFor, h, he, hr]

/-- The core with what a parcel needs. -/
def Core.heldFor (k : Core) (p : Parcel) (slot j b : Nat) : Core :=
  ({ k with regions := k.regions.put j { p.reservedEntry b with born := k.next } } : Core).reservePlace slot p.chan

theorem Core.reserveFor_reserves {j b : Nat} (h : k.chanFull slot p.chan = false) (he : k.freeEntry = some j) (hr : k.findRun p.size = some b) :
    k.reserveFor p slot false = .ok (j, k.heldFor p slot j b) := by
  simp [Core.reserveFor, h, he, hr, Core.heldFor]

end

section
variable {s : State} {n c i : Nat} {q : Packet} {p : Parcel} (hq : s.packet n = some q) (hp : q.pay = .parcel p) (hph : p.phase = .asking)
  (hw : s.hostWaits n p.giver p.dst p.chan true = false) (hr : s.reachMailbox p.domain p.dst = .actor c i) (hsame : p.sameCore = false)
include hq hp hph hw hr hsame

theorem execParcelReservation_refuses {code : Nat} (hres : (s.core c).reserveFor p i false = .error code) :
    execParcelReservation n s = .next (s.refuseParcelAt n p c rOverflow code (s.actor c i).incarn) := by
  simp [execParcelReservation, evParcelReservation, State.parcelAt_of_packet hq hp, hph, hw, hr, hsame, hres]

theorem execParcelReservation_reserves {j : Nat} {k : Core} (hres : (s.core c).reserveFor p i false = .ok (j, k)) :
    execParcelReservation n s = .next ((s.setCore c k).onParcel n fun p =>
      { p with phase := .reserved, sameCore := false, rcore := c, rslot := i, rinc := (s.actor c i).incarn, rentry := j, rbox := (s.core c).boxBorn i }) := by
  simp [execParcelReservation, evParcelReservation, State.parcelAt_of_packet hq hp, hph, hw, hr, hsame, hres]

end

/-! ## The copy (R153 step 4) -/

theorem State.cores_parcelDone {s : State} {n : Nat} {q : Packet} {p : Parcel} (hq : s.packet n = some q) (hp : q.pay = .parcel p) (r : Parcel) :
    (s.parcelDone n r).cores = s.cores := by
  simp only [State.parcelDone]
  split <;> exact State.cores_onParcel hq hp _

theorem State.packet_parcelDone {s : State} {n : Nat} {q : Packet} {p : Parcel} (hq : s.packet n = some q) (hp : q.pay = .parcel p) (r : Parcel) :
    (s.parcelDone n r).packet n = some { q with pay := .parcel { p with copied := true } } := by
  simp only [State.parcelDone]
  split <;> exact State.packet_onParcel hq hp _

/-- A core that has received a parcel's bytes at a granule. -/
def Core.filled (k : Core) (b size : Nat) (bytes : List Byte) (bad : List Nat) : Core :=
  { k.scrub b size with mem := (k.scrub b size).mem.writeN (b * 1024) bytes, bad := (k.scrub b size).bad ++ bad }

theorem Core.read_filled_on (k : Core) (b size : Nat) (bytes : List Byte) (bad : List Nat) {x : Nat} (h : x < bytes.length) :
    (k.filled b size bytes bad).mem.read (b * 1024 + x) = bytes.getD x 0 := by
  rw [List.getD_eq_getElem _ _ h]
  exact Memory.read_writeN_on _ _ _ _ h

theorem Core.read_filled_off (k : Core) (b size : Nat) (bytes : List Byte) (bad : List Nat) {x : Nat}
    (h : ¬(b * 1024 ≤ x ∧ x < b * 1024 + Max.max (size * 1024) bytes.length)) : (k.filled b size bytes bad).mem.read x = k.mem.read x := by
  have hoff : x < b * 1024 ∨ b * 1024 + bytes.length ≤ x := by omega
  have hscrub : ¬(b * 1024 ≤ x ∧ x < (b + size) * 1024) := by
    rw [Nat.add_mul]
    exact fun hx => h ⟨hx.1, Nat.lt_of_lt_of_le hx.2 (Nat.add_le_add_left (Nat.le_max_left ..) _)⟩
  have hread : (k.scrub b size).mem.read x = k.mem.read x := by rw [Core.read_scrub, if_neg hscrub]
  exact (Memory.read_writeN_off _ _ _ _ hoff).trans hread

theorem execParcelHandOver_copies {s : State} {n : Nat} {q : Packet} {p : Parcel} (hq : s.packet n = some q) (hp : q.pay = .parcel p)
    (hph : p.phase = .reserved) (hc : p.copied = false) (hsame : p.sameCore = false) (hg : isGateway p.dst = false) :
    execParcelHandOver n s = .next ((s.onCore p.rcore fun k => k.filled ((s.core p.rcore).region p.rentry).base p.size (s.parcelBytes p)
      ((s.parcelBad p).map (· + ((s.core p.rcore).region p.rentry).base * 128))).parcelDone n p) := by
  simp [execParcelHandOver, evParcelHandOver, State.parcelAt_of_packet hq hp, hph, hc, hsame, hg, Core.filled]

/-! ## The arrival -/

@[simp] theorem Core.regions_noteBad (k : Core) (slot a n : Nat) : (k.noteBad slot a n).regions = k.regions := by
  unfold Core.noteBad Core.recordErr
  split
  · dsimp only
    split <;> rfl
  · rfl

@[simp] theorem Core.regions_writeWords (k : Core) (a : Nat) (bs : List Byte) : (k.writeWords a bs).regions = k.regions := rfl

@[simp] theorem Core.regions_wake (k : Core) (slot now : Nat) : (k.wake slot now).regions = k.regions := by
  simp only [Core.wake]
  split <;> rfl

@[simp] theorem Core.regions_placeEntry (k : Core) (slot c now : Nat) (hdr sender : W64) (m : Vector W64 8) :
    (k.placeEntry slot c now hdr sender m).regions = k.regions := by
  exact (Core.regions_wake ..).trans ((Core.regions_writeWords ..).trans ((Core.regions_writeWords ..).trans (Core.regions_noteBad ..)))

/-- The receiver's entry once the parcel has come. -/
theorem Core.region_takeParcel (k : Core) (p : Parcel) (now : Nat) : (k.takeParcel p now).regions.get {} p.rentry =
    { k.regions.get {} p.rentry with tomb := false, pend := false, owner := p.rslot, decl := 15, age := 0, born := k.next } := by
  rw [Core.takeParcel, Core.regions_placeEntry]
  exact SMap.get_put_same ..

theorem execParcelArrival_arrives {s : State} {n : Nat} {q : Packet} {p : Parcel} (hq : s.packet n = some q) (hp : q.pay = .parcel p)
    (hph : p.phase = .reserved) (hc : p.copied = true) (hsame : p.sameCore = false) (hg : isGateway p.dst = false)
    (hname : (s.actor p.rcore p.rslot).name = p.dst) (hinc : (s.actor p.rcore p.rslot).incarn = p.rinc)
    (hacc : (s.actor p.rcore p.rslot).state.accepts = true) : execParcelArrival n s =
      .next (((s.onCore p.rcore fun k => k.takeParcel p (s.now p.rcore)).endParcel n p).onCore p.giverCore (·.releaseGiven p)) := by
  have hrec : s.receives p = true := by simp [State.receives, hg, hname, hinc, hacc]
  simp [execParcelArrival, evParcelArrival, State.parcelAt_of_packet hq hp, hph, hc, hsame, hg, hrec]

end Sys2Proof.Machine
end

section
/-! SUPPORT. The delivery of MDRAINs (R334): the fall of MT, refusals, and the rows and the closing message at the target. -/

namespace Sys2Proof.Machine

/-! ## The end of a drain -/

theorem Core.mem_onCounters {k : Core} {slot : Nat} {f : Actor → Actor} (h : (f (k.actor slot)).state ≠ .preempted) :
    (k.onCounters slot f).mem = k.mem := by
  simp only [Core.onCounters]
  rw [Core.actor_onActor_same, if_neg h]
  rfl

section
variable (s : State) (n : Nat) (d : Drain)

theorem State.packet_endDrain : (s.endDrain n d).packet n = none := by
  simp only [State.endDrain]
  split
  · exact State.packet_take s n
  · exact State.packet_take s n

theorem State.serial_endDrain : (s.endDrain n d).serial = s.serial := by
  simp only [State.endDrain]
  split <;> rfl

/-- MT falls where the actor that asked for the drain still lives. -/
theorem State.mt_endDrain (h : s.jobLives d.core d.slot d.name = true) :
    ((s.endDrain n d).actor d.core d.slot).mt = (s.actor d.core d.slot).mt - 1 := by
  have h' : (s.take n).jobLives d.core d.slot d.name = true := h
  simp only [State.endDrain, h', if_true]
  rw [State.actor_onCore_same, Core.actor_onCounters_same]
  rfl

/-- The end of a drain writes no memory, but for the counters of a pre-empted actor in its save area. -/
theorem State.mem_endDrain {c : Nat} (h : d.core ≠ c ∨ (s.actor d.core d.slot).state ≠ .preempted) :
    ((s.endDrain n d).core c).mem = (s.core c).mem := by
  simp only [State.endDrain]
  split
  · rcases eq_or_ne c d.core with rfl | hc
    · rw [State.core_onCore_same]
      exact Core.mem_onCounters (h.resolve_left fun hn => hn rfl)
    · rw [State.core_onCore_ne _ _ hc]
      rfl
  · rfl

end

/-- A refused drain is taken off and the actor that asked for it is told. -/
theorem State.refuseDrain_tells {s : State} {n : Nat} (hn : n < s.serial) (d : Drain) (pkg die reason code : Nat) (inc : BitVec 8) :
    (s.refuseDrain n d pkg die reason code inc).packet n = none ∧
      (s.jobLives d.core d.slot d.name = true →
        ((s.refuseDrain n d pkg die reason code inc).actor d.core d.slot).mt = (s.actor d.core d.slot).mt - 1) ∧
      Sys2Proof.Claims.delivered (s.refuseDrain n d pkg die reason code inc) s.serial d.name reason d.dst
        (code + d.chan * 256 + d.off % 2 ^ 32 * 2 ^ 32) := by
  have hne : n ≠ (s.endDrain n d).serial := by
    rw [s.serial_endDrain n d]
    exact Nat.ne_of_lt hn
  refine ⟨(State.packet_post_ne (s.endDrain n d) _ _ hne).trans (s.packet_endDrain n d), s.mt_endDrain n d, ?_⟩
  rw [← s.serial_endDrain n d]
  refine State.delivered_delivery _ _ _ _ _ _ _ _ ?_
  rw [deliveryDetail_toNat, BitVec.toNat_ofNat, Nat.mod_mod_of_dvd _ (by decide)]

/-! ## The target (R334) -/

theorem Drain.regionOk_iff (d : Drain) (e : RegEntry) (slot : Nat) : d.regionOk e slot = true ↔
    e.liveOf slot = true ∧ e.kind = 0 ∧ e.wr = true ∧ d.off % d.esize = 0 ∧ d.pitch % d.esize = 0 ∧
      d.off + ((d.m - 1) * d.pitch + d.n * d.esize) ≤ e.size * 1024 := by
  simp only [Drain.regionOk, kData, Bool.and_eq_true, decide_eq_true_eq, beq_iff_eq, and_assoc]
  exact Iff.rfl

/-- A core with the rows of a drain. -/
def Core.withRows (k : Core) (d : Drain) (e : RegEntry) (rows : List (List Byte × Nat)) : Core :=
  { k with mem := rows.foldl (fun (m : Memory) row => m.writeMap e.place (e.base * 1024 + d.off + row.2 * d.pitch) row.1) k.mem }

/-- With no bad word every row is written whole. -/
theorem Drain.write_of_bad_nil (d : Drain) {k : Core} (e : RegEntry) (h : k.bad = []) : d.write k e = (k.withRows d e d.rows.zipIdx, []) := by
  unfold Drain.write
  generalize d.rows.zipIdx = l
  induction l generalizing k with
  | nil => rfl
  | cons row l ih =>
    rw [List.foldl_cons]
    simp only [Core.writeIn_of_bad_nil h, Option.toList_none, List.append_nil]
    exact ih h

section
variable {s : State} {d : Drain} {c i : Nat}

theorem Drain.deliver_full (h : (s.core c).chanFull i d.chan = true) : d.deliver s c i = .error 1 := by simp [Drain.deliver, h]

theorem Drain.deliver_denied (h : (s.core c).chanFull i d.chan = false) (hr : ¬d.regionOk ((s.core c).region d.tridx) i = true) :
    d.deliver s c i = .error 9 := by
  simp [Drain.deliver, h, hr]

/-- The target's core with the rows and the closing message. -/
def State.drained (s : State) (d : Drain) (c i : Nat) : Core :=
  ((s.core c).withRows d ((s.core c).region d.tridx) d.rows.zipIdx).placeEntry i d.chan (s.now c) (header mDrain d.chan d.inc (s.now c)) d.name
    d.words

theorem Drain.deliver_writes (h : (s.core c).chanFull i d.chan = false) (hr : d.regionOk ((s.core c).region d.tridx) i = true)
    (hb : (s.core c).bad = []) : d.deliver s c i = .ok (s.setCore c (s.drained d c i), []) := by
  unfold Drain.deliver State.drained
  extract_lets k e r now
  have hw : r = (k.withRows d e d.rows.zipIdx, []) := d.write_of_bad_nil e hb
  have hfull : ¬k.chanFull i d.chan = true := by simp [k, h]
  have hok : ¬(!d.regionOk e i) = true := by simp [k, e, hr]
  rw [if_neg hfull, if_neg hok, hw]

/-- What the rows and the message leave of each actor. -/
theorem State.decl_drained (s : State) (d : Drain) (c i x j : Nat) :
    ((s.setCore c (s.drained d c i)).actor x j).decl = (s.actor x j).decl := by
  have hrows : (s.core c).Dressed ((s.core c).withRows d ((s.core c).region d.tridx) d.rows.zipIdx) := .of_slots rfl rfl
  have hd : (s.core c).Dressed (s.drained d c i) := by
    unfold State.drained
    exact hrows.trans (Core.dressed_placeEntry ..)
  rcases eq_or_ne x c with rfl | h
  · rw [State.actor, State.core_setCore_same]
    exact hd.2 j
  · rw [State.actor, State.core_setCore_ne _ _ h]
    rfl

theorem State.jobLives_of_decl {s t : State} {c i : Nat} (name : W64) (h : (t.actor c i).decl = (s.actor c i).decl) :
    t.jobLives c i name = s.jobLives c i name := by
  have hn : (t.actor c i).decl.name = (s.actor c i).decl.name := by rw [h]
  have hs : (t.actor c i).decl.state = (s.actor c i).decl.state := by rw [h]
  exact congrArg₂ (fun (w : W64) (a : ActState) => w == name && a.mortal) hn hs

end

/-! ## The event -/

section
variable {s : State} {n c i : Nat} {q : Packet} {d : Drain} (hq : s.packet n = some q) (hd : q.pay = .drain d) (hb : d.busy = false)
  (hg : (s.engine (engineOf d.core)).gone = false) (hrun : (s.pkg (d.core / 65536)).runs = true)
include hq hd hb hg hrun

theorem execMdrainDelivery_nobody (hr : s.reachMailbox d.domain d.dst = .nobody) :
    execMdrainDelivery n s = .next (s.refuseDrain n d (corePkg d.core) (coreDie d.core) rNoproc 0 0) := by
  simp [execMdrainDelivery, evMdrainDelivery, State.drainAt, hq, hd, hb, hg, corePkg, hrun, hr]

variable (hr : s.reachMailbox d.domain d.dst = .actor c i)
include hr

theorem execMdrainDelivery_refuses {code : Nat} (he : d.deliver s c i = .error code) :
    execMdrainDelivery n s = .next (s.refuseDrain n d (corePkg c) (coreDie c) rOverflow code (s.actor c i).incarn) := by
  simp [execMdrainDelivery, evMdrainDelivery, State.drainAt, hq, hd, hb, hg, corePkg, hrun, hr, he]

/-- A drain that is written leaves, at each core, what its end leaves. -/
theorem execMdrainDelivery_writes {u : State} (he : d.deliver s c i = .ok (u, [])) : ∃ t, execMdrainDelivery n s = .next t ∧
    (∀ x, t.core x = (u.endDrain n d).core x) ∧ t.packet n = none := by
  let s2 := (u.endDrain n d).countEngine (engineOf d.core) 0x40 (some d.domain) (d.m * d.n * d.esize / 64)
  have hid : ∀ x, (s2.onCore d.core fun k => k).core x = s2.core x := by
    intro x
    rcases eq_or_ne x d.core with rfl | h
    · rw [State.core_onCore_same]
    · rw [State.core_onCore_ne _ _ h]
  have hpk : s2.packet n = none := u.packet_endDrain n d
  refine ⟨if s2.jobLives d.core d.slot d.name then s2.onCore d.core fun k => k else s2, ?_, fun x => ?_, ?_⟩
  · simp only [execMdrainDelivery, evMdrainDelivery, State.drainAt, hq, hd, hb, hg, corePkg, hrun, hr, he]
    rfl
  · split
    · exact hid x
    · rfl
  · split <;> exact hpk

end

end Sys2Proof.Machine
end

section
/-! CERTIFICATES. The events of parcels and MDRAINs (R87, R88, R153, R305, R334). -/

namespace Sys2Proof.Machine

section
variable {n c i : Nat} {q : Packet} {s : State} (hq : s.packet n = some q) (hn : n < s.serial)
include hq

/-- What a core reserves for a parcel. -/
theorem parcelReserved {p : Parcel} {j b : Nat} (hp : q.pay = .parcel p) (hph : p.phase = .asking)
    (hw : s.hostWaits n p.giver p.dst p.chan true = false) (hr : s.reachMailbox p.domain p.dst = .actor c i) (hsame : p.sameCore = false)
    (hres : (s.core c).reserveFor p i false = .ok (j, (s.core c).heldFor p i j b)) :
    ∃ t, execParcelReservation n s = .next t ∧
      (t.core c).regions.get {} j = { p.reservedEntry b with born := (s.core c).next } ∧
      (t.actor c i).resv = (s.actor c i).resv.setIfInBounds p.chan ((s.actor c i).resv[p.chan]?.getD 0 + 1) ∧
      t.packet n = some { q with pay := .parcel { p with
        phase := .reserved, rcore := c, rslot := i, rinc := (s.actor c i).incarn, rentry := j, rbox := (s.core c).boxBorn i } } := by
  refine ⟨_, execParcelReservation_reserves hq hp hph hw hr hsame hres, ?_⟩
  have hq' : (s.setCore c ((s.core c).heldFor p i j b)).packet n = some q := hq
  have hcore : ∀ f : Parcel → Parcel, ((s.setCore c ((s.core c).heldFor p i j b)).onParcel n f).core c = (s.core c).heldFor p i j b := by
    intro f
    rw [State.core, State.cores_onParcel hq' hp]
    exact State.core_setCore_same ..
  refine ⟨?_, ?_, ?_⟩
  · rw [hcore]
    exact SMap.get_put_same ..
  · rw [State.actor, hcore, Core.heldFor, Core.reservePlace, Core.actor_onActor_same]
    rfl
  · rw [State.packet_onParcel hq' hp, ← hsame]

/-- The bytes of a region given away reach the receiver's granules. -/
theorem parcelCopied {p : Parcel} (hp : q.pay = .parcel p) (hph : p.phase = .reserved) (hc : p.copied = false) (hsame : p.sameCore = false)
    (hg : isGateway p.dst = false) (hcore : p.rcore = c) :
    let b := ((s.core c).region p.rentry).base
    ∃ t, execParcelHandOver n s = .next t ∧
      (∀ x, x < (s.parcelBytes p).length → (t.core c).mem.read (b * 1024 + x) = (s.parcelBytes p).getD x 0) ∧
      (∀ x, ¬(b * 1024 ≤ x ∧ x < b * 1024 + Max.max (p.size * 1024) (s.parcelBytes p).length) →
        (t.core c).mem.read x = (s.core c).mem.read x) ∧
      t.packet n = some { q with pay := .parcel { p with copied := true } } := by
  subst hcore
  intro b
  refine ⟨_, execParcelHandOver_copies hq hp hph hc hsame hg, ?_⟩
  let u := s.onCore p.rcore fun k => k.filled b p.size (s.parcelBytes p) ((s.parcelBad p).map (· + b * 128))
  have hq' : u.packet n = some q := hq
  have hcore : (u.parcelDone n p).core p.rcore =
      (s.core p.rcore).filled b p.size (s.parcelBytes p) ((s.parcelBad p).map (· + b * 128)) := by
    rw [State.core, State.cores_parcelDone hq' hp]
    exact State.core_onCore_same ..
  refine ⟨fun x hx => ?_, fun x hx => ?_, State.packet_parcelDone hq' hp p⟩
  · exact (congrArg (fun k : Core => k.mem.read (b * 1024 + x)) hcore).trans (Core.read_filled_on _ _ _ _ _ hx)
  · exact (congrArg (fun k : Core => k.mem.read x) hcore).trans (Core.read_filled_off _ _ _ _ _ hx)

/-- What the arrival of a parcel leaves at the two cores. -/
theorem parcelArrived {p : Parcel} (hp : q.pay = .parcel p) (hph : p.phase = .reserved) (hc : p.copied = true) (hsame : p.sameCore = false)
    (hg : isGateway p.dst = false) (hcore : p.rcore = c) (hslot : p.rslot = i) (hne : p.giverCore ≠ c)
    (hname : (s.actor c i).name = p.dst) (hinc : (s.actor c i).incarn = p.rinc) (hacc : (s.actor c i).state.accepts = true) :
    ∃ t, execParcelArrival n s = .next t ∧ t.packet n = none ∧ t.core c = (s.core c).takeParcel p (s.now c) ∧
      t.core p.giverCore = (s.core p.giverCore).releaseGiven p := by
  subst hcore hslot
  let u := s.onCore p.rcore fun k => k.takeParcel p (s.now p.rcore)
  have hcore : ∀ x, (u.endParcel n p).core x = u.core x := fun _ => rfl
  refine ⟨_, execParcelArrival_arrives hq hp hph hc hsame hg hname hinc hacc, State.packet_take _ n, ?_, ?_⟩
  · rw [State.core_onCore_ne _ _ (Ne.symm hne)]
    exact (hcore _).trans (State.core_onCore_same ..)
  · rw [State.core_onCore_same]
    exact congrArg (·.releaseGiven p) ((hcore _).trans (State.core_onCore_ne s _ hne))

end

/-- Settles O47, by what each event does to the packet, the granules and the mailbox place that it concerns. -/
theorem parcelEvents : Obligations.ParcelEvents := by
  intro n c i q s hq hn k a
  refine ⟨fun p hp hph hw hr hsame => ?_, fun p hp hph hc hsame hg hcore => parcelCopied hq hp hph hc hsame hg hcore,
    fun p hp hph hc hsame hg hcore hslot _ hne hname hinc hacc => ?_, fun d hd hb hg hrun => ?_⟩
  · have hrefuse : ∀ {code : Nat}, k.reserveFor p i false = .error code → ∃ t, execParcelReservation n s = .next t ∧ t.packet n = none ∧
        Sys2Proof.Claims.delivered t s.serial p.giver 0x32 p.dst (code + p.chan * 256) := fun hres =>
      ⟨_, execParcelReservation_refuses hq hp hph hw hr hsame hres, State.refuseParcel_tells hn p _ _ _ _ _⟩
    exact ⟨fun h => hrefuse (Core.reserveFor_full h), fun j h he hrun => hrefuse (Core.reserveFor_noRun h he hrun),
      fun h he => hrefuse (Core.reserveFor_noEntry h he),
      fun j b h he hrun => parcelReserved hq hp hph hw hr hsame (Core.reserveFor_reserves h he hrun)⟩
  · obtain ⟨t, ht, hnone, hrecv, hgive⟩ := parcelArrived hq hp hph hc hsame hg hcore hslot hne hname hinc hacc
    have hentry := (s.core c).region_takeParcel p (s.now c)
    refine ⟨t, ht, hnone, ?_, by rw [hrecv], hgive⟩
    rw [hrecv, hentry]
    exact ⟨hslot, rfl, rfl, rfl, rfl⟩
  · intro ends
    have hrefuse : ∀ {code : Nat}, s.reachMailbox d.domain d.dst = .actor c i → d.deliver s c i = .error code → ∃ t, ends t ∧
        Sys2Proof.Claims.delivered t s.serial d.name 0x32 d.dst (code + d.chan * 256 + d.off % 2 ^ 32 * 2 ^ 32) := by
      intro code hr he
      obtain ⟨hnone, hmt, htold⟩ := State.refuseDrain_tells hn d (corePkg c) (coreDie c) rOverflow code (s.actor c i).incarn
      exact ⟨_, ⟨execMdrainDelivery_refuses hq hd hb hg hrun hr he, hnone, hmt⟩, htold⟩
    refine ⟨fun hr => ?_, fun hr => ⟨fun h => hrefuse hr (Drain.deliver_full h), fun h hok => ?_, fun h hok hbad => ?_⟩⟩
    · obtain ⟨hnone, hmt, htold⟩ := State.refuseDrain_tells hn d (corePkg d.core) (coreDie d.core) rNoproc 0 0
      rw [Nat.zero_add] at htold
      exact ⟨_, ⟨execMdrainDelivery_nobody hq hd hb hg hrun hr, hnone, hmt⟩, htold⟩
    · exact hrefuse hr (Drain.deliver_denied h fun hr => hok ((d.regionOk_iff _ _).1 hr))
    · have hwrites := Drain.deliver_writes h ((d.regionOk_iff _ _).2 hok) hbad
      obtain ⟨t, ht, hcores, hnone⟩ := execMdrainDelivery_writes hq hd hb hg hrun hr hwrites
      have hdecl := s.decl_drained d c i d.core d.slot
      refine ⟨t, ⟨ht, hnone, fun hl => ?_⟩, fun hp => ?_⟩
      · have hmt : ((s.setCore c (s.drained d c i)).actor d.core d.slot).decl.mt = (s.actor d.core d.slot).decl.mt := by rw [hdecl]
        rw [State.actor, hcores]
        refine (State.mt_endDrain _ n d ((State.jobLives_of_decl d.name hdecl).trans hl)).trans ?_
        exact congrArg (· - 1) hmt
      · have hst : ((s.setCore c (s.drained d c i)).actor d.core d.slot).decl.state = (s.actor d.core d.slot).decl.state := by rw [hdecl]
        rw [hcores, State.mem_endDrain _ n d (hp.imp_right fun h he => h (hst.symm.trans he)), State.core_setCore_same]
        rfl

end Sys2Proof.Machine
end

section
/-! SUPPORT. CRECL.R (R287): its parts at the banks, and what issuing an access without a destination leaves. -/

namespace Sys2Proof.Machine

open Sys2Proof.Claims (X wentOn)

/-! ## The parts of a CRECL.R -/

section
variable {q : Ask} {o n : Nat} (hop : q.op = .reclRange) (hn : ((q.ops[1]?).getD 0).toNat % 2 ^ 14 = n)
include hop hn

theorem Ask.parts_of_no_word (h : n = 0) : q.parts o = [] := by
  simp only [Ask.parts, hop, hn, h, Nat.zero_min, List.range_zero]
  rfl

/-- A range that stays in one block of 64 bytes has its words in one bank, so it has one part. -/
theorem Ask.parts_of_one_block (hb : ownerIsBank o = true) (hpos : 0 < n) (hblock : q.ga % 64 + 8 * n ≤ 64) :
    q.parts o = [{ q with ops := q.ops.take 2 ++ [BitVec.ofNat 64 q.ga] }] := by
  have hwords : min n ((65536 - q.ga % 65536) / 8) = n := by omega
  have hbank : ∀ j < n, bankOf o (q.ga + 8 * j) % 4 = q.ga / 64 % 4 := fun j hj => by
    have hline : (q.ga + 8 * j) / 64 = q.ga / 64 := by omega
    rw [bankOf, if_pos hb, hline]
    omega
  have hfirst : ∀ i, ((List.range n).find? fun j => bankOf o (q.ga + 8 * j) % 4 == i) = if q.ga / 64 % 4 = i then some 0 else none := by
    intro i
    split
    case isTrue h =>
      obtain ⟨n, rfl⟩ := Nat.exists_eq_succ_of_ne_zero hpos.ne'
      rw [List.range_succ_eq_map, List.find?_cons_of_pos (by rw [hbank 0 hpos, h, beq_self_eq_true])]
    case isFalse h =>
      rw [List.find?_eq_none]
      intro j hj
      rw [hbank j (List.mem_range.1 hj), beq_iff_eq]
      exact h
  simp only [Ask.parts, hop, hn, hwords, hfirst]
  have hlt : q.ga / 64 % 4 < 4 := Nat.mod_lt _ (by decide)
  generalize q.ga / 64 % 4 = b at hlt
  interval_cases b <;> rfl

end

/-! ## Issue without a destination -/

/-- An aligned commons access to a word whose owner the core knows goes to that owner (R281). -/
theorem State.issue_owned {s : State} {q : Ask} {o : Nat} (ha : s.me.acquiring s.th.fid = false) (halign : q.ga % q.size = 0)
    (hvalid : q.ga < 2 ^ 56) (hclass : gaClass q.ga = 1) (hc : q.cls = 1)
    (ho : s.me.ownerAt s.self.domain q.ga q.op.reads q.op.writes = .owner o) : s.issue q = s.issueTo q o := by
  have hok : ¬(!(gaValid q.ga && gaClass q.ga == q.cls)) = true := by
    rw [gaValid, decide_eq_true hvalid, hclass, hc]
    decide
  rw [State.issue, access_eq ha, if_neg (not_not_intro halign), if_neg hok, ho]
  exact if_neg fun h => absurd (hc.symm.trans h.1) (by decide)

theorem Ask.clearDest_zero {q : Ask} (hv : q.destV = false) (hd : q.dest = 0) : q.clearDest = id := by
  funext t
  rw [Ask.clearDest, hv, hd]
  rfl

/-- Changing nothing of the issuing thread set goes unnoticed by a later change of the core. -/
theorem State.onTh_id_onMe (s : State) (f : Core → Core) : (s.onTh id).onMe f = s.onMe f := by
  have hid : ∀ k : Core, k.onThread k.tset id = k := fun k => by simp [Core.onThread]
  rw [State.onTh, State.onMe_onMe]
  simp only [hid]

theorem Core.plbTouch_threads (k : Core) (dom : BitVec 16) (ga : Nat) :
    (k.plbTouch dom ga).threads = k.threads ∧ (k.plbTouch dom ga).tset = k.tset := by
  unfold Core.plbTouch
  split <;> exact ⟨rfl, rfl⟩

theorem Core.plbTouch_next (k : Core) (dom : BitVec 16) (ga : Nat) : (k.plbTouch dom ga).next = k.next := by
  unfold Core.plbTouch
  split <;> rfl

/-- A core after an access has left one of its instructions: an access with the identity, operation, address, operands and owner given stands in
its tables, and its registers and memory are as they were. -/
structure Core.Launched (k j : Core) (a : Access) : Prop where
  threads : j.threads = k.threads
  tset : j.tset = k.tset
  mem : j.mem = k.mem
  stands : ∃ x ∈ j.accs, x.id = a.id ∧ x.op = a.op ∧ x.ga = a.ga ∧ x.ops = a.ops ∧ x.owner = a.owner

/-- Sending an access to its owner changes none of what its instruction gave it. -/
theorem Core.launched_sendAcc {k j : Core} {a : Access} (h : k.Launched j a) (c now : Nat) (replay : Bool) :
    k.Launched (j.sendAcc c now a.id a.owner replay) a := by
  obtain ⟨hthreads, htset, hmem, x, hx, hid, hop, hga, hops, howner⟩ := h
  unfold Core.sendAcc
  split
  · exact ⟨hthreads, htset, hmem, x, hx, hid, hop, hga, hops, howner⟩
  · refine ⟨hthreads, htset, hmem, _, List.mem_map_of_mem hx, ?_⟩
    rw [if_pos hid]
    exact ⟨hid, hop, hga, hops, rfl⟩

theorem State.launch_launched (s : State) (q : Ask) (o g : Nat) :
    ∃ j, s.launch q o g = s.onMe (fun _ => j) ∧ s.me.Launched j (s.newAccess q o g) := by
  have hput : ∀ a : Access, a.id = s.me.next → a.op = q.op → a.ga = q.ga → a.ops = q.ops → a.owner = o →
      s.me.Launched { s.me with accs := s.me.accs ++ [a], next := s.me.next + 1 } (s.newAccess q o g) := fun a hid hop hga hops ho =>
    ⟨rfl, rfl, rfl, a, List.mem_append_right _ (List.mem_singleton_self a), hid, hop, hga, hops, ho⟩
  unfold State.launch
  dsimp only
  split
  · exact ⟨_, rfl, hput _ rfl rfl rfl rfl rfl⟩
  · split
    · exact ⟨_, rfl, hput _ rfl rfl rfl rfl rfl⟩
    · exact ⟨_, rfl, Core.launched_sendAcc (hput _ rfl rfl rfl rfl rfl) ..⟩

section
variable {s : State} {q : Ask} {o : Nat} (hv : q.destV = false) (hd : q.dest = 0) (hcount : s.self.counterFull q.op = false)
include hv hd hcount

/-- An access without parts is complete at once. -/
theorem State.issueTo_no_part (hp : q.parts o = []) : s.issueTo q o = .next (wentOn (s.onMe (·.plbTouch s.self.domain q.ga))) := by
  simp only [State.issueTo, hp, hcount, Ask.clearDest_zero hv hd]
  exact congrArg Host.Outcome.next (State.onTh_id_onMe _ _)

/-- An access of one part for which there is room goes on its way, and the instruction is complete. -/
theorem State.issueTo_one_part {p : Ask} (hp : q.parts o = [p]) (hroom : s.canLaunch [p] o = true) :
    ∃ t, s.issueTo q o = .next t ∧ t.th = s.th.nextPc ∧ t.me.mem = s.me.mem ∧ t.gmem = s.gmem ∧
      ∃ x ∈ t.me.accs, x.id = s.me.next ∧ x.op = p.op ∧ x.ga = p.ga ∧ x.ops = p.ops ∧ x.owner = o := by
  obtain ⟨hthreads, htset⟩ := s.me.plbTouch_threads s.self.domain q.ga
  have htouch := s.th_onMe_of_threads (f := (·.plbTouch s.self.domain q.ga)) hthreads htset
  generalize hu : (s.onMe (·.plbTouch s.self.domain q.ga)).onSelf (·.countUp q.op) = u
  have hth : u.th = s.th := by rw [← hu, State.th_onSelf, htouch]
  have hme : u.me = (s.me.plbTouch s.self.domain q.ga).onActor s.th.slot (·.countUp q.op) := by
    rw [← hu, State.me_onSelf, htouch, State.me_onMe]
  obtain ⟨j, hlaunch, hj⟩ := u.launch_launched p o 0
  have hexec : s.issueTo q o = .next (wentOn (u.onMe fun _ => j)) := by
    simp only [State.issueTo, hp, hcount, hroom, Ask.clearDest_zero hv hd, List.isEmpty_cons, Bool.false_eq_true, if_false]
    rw [← hlaunch, ← hu]
    exact congrArg (fun v : State => Host.Outcome.next (wentOn (v.launch p o 0))) (State.onTh_id_onMe _ _)
  obtain ⟨x, hx, hid, hrest⟩ := hj.stands
  refine ⟨_, hexec, ?_, ?_, ?_, x, ?_, ?_, hrest⟩
  · rw [th_wentOn, State.th_onMe_of_threads _ hj.threads hj.tset, hth]
  · simp [wentOn, hj.mem, hme]
  · rw [← hu]
    rfl
  · simpa [wentOn] using hx
  · rw [hid]
    exact (congrArg Core.next hme).trans (s.me.plbTouch_next ..)

end

end Sys2Proof.Machine
end

section
/-! SUPPORT. What FENCE, EFENCE and WAITC wait for (R116, R118, R294, R295). -/

namespace Sys2Proof.Machine

open Sys2Proof.Claims (wentOn)

/-! ## Scopes (R116) -/

theorem Access.inScope_iff (x : Access) (core : Nat) : ∀ n, x.inScope core n = true ↔ match n with
    | 0 => False
    | 1 => coreIsMem core = true ∧ x.owner = memOwner core
    | 2 => x.owner / 512 = core / 65536
    | _ => True
  | 0 => by simp [Access.inScope]
  | 1 => by simp [Access.inScope]
  | 2 => by simp [Access.inScope, ownerPkg, corePkg]
  | _ + 3 => iff_of_true rfl trivial

theorem State.copyInScope_pod (s : State) (j : Job) : s.copyInScope j 3 = true := by simp [State.copyInScope]

/-- A region or ring that a copy names is the actor's own. -/
theorem State.copyInScope_of_named (s : State) {j : Job} (n : Nat)
    (h : j.kind ∈ [1, 2, 5, 6, 7, 8, 9] ∨ (j.kind = 10 ∧ j.kspec = 0)) : s.copyInScope j n = true := by
  have hnamed : (j.namesRegion || j.kind == 6) = true := by
    rw [Job.namesRegion]
    obtain h | ⟨hk, hs⟩ := h
    · simp only [List.mem_cons, List.not_mem_nil, or_false] at h
      obtain hk | hk | hk | hk | hk | hk | hk := h <;> rw [hk] <;> rfl
    · rw [hk, hs]
      rfl
  simp [State.copyInScope, Bool.or_assoc, hnamed]

/-- A fill of global memory lies where its addresses do. -/
theorem State.copyInScope_fill (s : State) {j : Job} {n : Nat} (hn : n < 3) (hk : j.kind = 10) (hs : j.kspec = 1) :
    s.copyInScope j n = true ↔ ∃ p ∈ j.pieces {}, s.gaInScope j.core n (s.actor j.core j.slot).domain p.ga = true := by
  have hpod : ¬n ≥ 3 := by omega
  simp [State.copyInScope, Job.namesRegion, hk, hs, hpod]

theorem State.copiesOutside_pod (s : State) (core slot : Nat) : s.copiesOutside core slot 3 = 0 := by
  simp [State.copiesOutside, State.copyInScope_pod]

theorem Core.placelessCmds_eq (k : Core) (slot : Nat) : k.placelessCmds slot =
    (k.mq.filter fun c => decide (c.slot = slot) && (decide (cmdOpc c.cmd = 1) || decide (cmdOpc c.cmd = 5))).length :=
  List.countP_eq_length_filter

/-! ## FENCE (R116) -/

/-- No access of the issuing thread set's slot within a scope is unperformed. -/
theorem State.accsPerformed_iff (s : State) (n : Nat) :
    (s.me.accs.any fun x => x.slot == s.th.slot && !x.orphan && !x.performed && x.inScope s.cur n) = false ↔
      ∀ x ∈ s.me.accs, (x.slot = s.th.slot ∧ x.orphan = false) → x.inScope s.cur n = true → x.performed = true := by
  rw [List.any_eq_false]
  refine forall₂_congr fun x _ => ?_
  cases x.performed <;> simp

theorem State.fenceDone_iff (s : State) (c : BitVec 3) (n : Nat) : s.fenceDone c n = true ↔
    (c.getLsbD 0 = true → ∀ x ∈ s.me.accs, (x.slot = s.th.slot ∧ x.orphan = false) → x.inScope s.cur n = true → x.performed = true) ∧
      (c.getLsbD 1 = true → s.self.cp ≤ s.copiesOutside s.cur s.th.slot n) ∧
      (c.getLsbD 2 = true → s.self.mt ≤ if 3 ≤ n then 0 else s.me.placelessCmds s.th.slot) := by
  rw [State.fenceDone, Bool.and_eq_true, Bool.and_eq_true, and_assoc, ← s.accsPerformed_iff n]
  cases c.getLsbD 0 <;> cases c.getLsbD 1 <;> cases c.getLsbD 2 <;> simp

theorem execFence_goes_on {q : BitVec 2} {c : BitVec 3} {s : State} (h : s.fenceDone c q.toNat = true) : execFence q c s = .next (wentOn s) :=
  if_pos h

theorem execFence_waits {q : BitVec 2} {c : BitVec 3} {s : State} (h : ¬s.fenceDone c q.toNat = true) : execFence q c s = s.stall := if_neg h

/-! ## EFENCE (R294) -/

/-- What EFENCE waits for: every class performed at pod scope, and no access of the slot without its answer. -/
def State.efenceDone (s : State) : Prop :=
  s.fenceDone 7 3 = true ∧ ∀ x ∈ s.me.accs, ¬(x.slot = s.th.slot ∧ x.orphan = false)

theorem State.efenceDone_iff (s : State) : s.efenceDone ↔
    (s.fenceDone 7 3 && !s.me.accs.any (fun x => x.slot == s.th.slot && !x.orphan)) = true := by
  simp [State.efenceDone]

theorem execEfence_waits {s : State} (h : ¬s.efenceDone) : execEfence s = s.stall := if_neg fun hd => h (s.efenceDone_iff.2 hd)

theorem execEfence_goes_on {s : State} (h : s.efenceDone) (he : s.th.eperr.getLsbD 63 = false) : execEfence s = .next (wentOn s) := by
  rw [execEfence, if_pos (s.efenceDone_iff.1 h), State.errorTrap, he]
  rfl

theorem errSrc_eq (v : W64) : errSrc v = v.toNat / 2 ^ 59 % 8 := bits_eq_div ..

/-- The address of an error record is its low 54 bits (R70). -/
theorem errAddr_eq (v : W64) : BitVec.ofNat 64 (bits v.toNat 53 0) = v &&& 0x3FFFFFFFFFFFFF := by
  apply BitVec.eq_of_toNat_eq
  have hmask : (0x3FFFFFFFFFFFFF : W64).toNat = 2 ^ 54 - 1 := rfl
  rw [BitVec.toNat_and, hmask, Nat.and_two_pow_sub_one_eq_mod, bits_eq_div, BitVec.toNat_ofNat]
  omega

theorem execEfence_traps {s : State} (h : s.efenceDone) (he : s.th.eperr.getLsbD 63 = true) :
    execEfence s = s.trap 0x20 (s.th.eperr.toNat / 2 ^ 59 % 8) 0 (s.th.eperr &&& 0x3FFFFFFFFFFFFF)
      (decide (s.th.eperr.toNat / 2 ^ 59 % 8 ≠ 0)) := by
  rw [execEfence, if_pos (s.efenceDone_iff.1 h), State.errorTrap, he, errAddr_eq, errSrc_eq]
  rfl

/-! ## WAITC (R295) -/

theorem Core.awaitsReplay_eq_false (k : Core) (slot : Nat) : k.awaitsReplay slot = false ↔
    ∀ x ∈ k.accs, (x.slot = slot ∧ x.orphan = false) → x.op.writes = true → x.entry = false := by
  rw [Core.awaitsReplay, List.any_eq_false]
  refine forall₂_congr fun x _ => ?_
  cases x.entry <;> simp

/-- The counters are at or below the immediates, and with a CS immediate of 0 nothing awaits its replay (R118). -/
def State.countsLow (s : State) (l k p m : BitVec 6) : Prop :=
  s.self.cl ≤ l.toNat ∧ s.self.cs ≤ k.toNat ∧ s.self.cp ≤ p.toNat ∧ s.self.mt ≤ m.toNat ∧
    (k = 0 → s.me.awaitsReplay s.th.slot = false)

theorem execWaitc_low {s : State} {l k p m : BitVec 6} (h : s.countsLow l k p m) : execWaitc l k p m s = .next (wentOn s) := by
  obtain ⟨hl, hk, hp, hm, hr⟩ := h
  refine if_pos ⟨hl, hk, hp, hm, ?_⟩
  by_cases h0 : k = 0
  · rw [hr h0, Bool.and_false]
    rfl
  · rw [beq_false_of_ne h0]
    rfl

theorem execWaitc_high {s : State} {l k p m : BitVec 6} (h : ¬s.countsLow l k p m) : execWaitc l k p m s = s.stall := by
  refine if_neg fun hlow => h ?_
  obtain ⟨hl, hk, hp, hm, hr⟩ := hlow
  exact ⟨hl, hk, hp, hm, fun h0 => by simpa [h0] using hr⟩

end Sys2Proof.Machine
end

section
/-! CERTIFICATES. CRECL.R, FENCE, EFENCE and WAITC (R116, R118, R287, R294, R295). -/

namespace Sys2Proof.Machine

open Sys2Proof.Claims (X)

/-- R287: the words of the range lie in one bank, so the access has one part, or none. -/
theorem rangeReclaims : Claims.RangeReclaims := by
  intro d a b s o hx hacq halign hvalid hclass howner hbank hcl hcs n
  generalize hq : ({ op := .reclRange, ga := (X s a).toNat, size := 8, ops := [X s b, X s d] } : Ask) = q
  have hcount : s.self.counterFull q.op = false := by
    rw [← hq]
    exact decide_eq_false (not_le.2 hcs)
  have hexec : exec (.creclR d a b) s = s.issueTo q o := by
    rw [exec_creclR, execCreclR, commons, withX_here hx, ← hq]
    exact State.issue_owned hacq halign hvalid hclass rfl howner
  subst hq
  refine ⟨fun h => hexec.trans (State.issueTo_no_part rfl rfl hcount (Ask.parts_of_no_word rfl rfl h)), fun hpos hblock hroom => ?_⟩
  have hparts := Ask.parts_of_one_block (q := { op := .reclRange, ga := (X s a).toNat, size := 8, ops := [X s b, X s d] }) (n := n)
    rfl rfl hbank hpos hblock
  simp only [List.take, List.cons_append, List.nil_append, BitVec.ofNat_toNat, BitVec.setWidth_eq] at hparts
  obtain ⟨t, ht, hth, hmem, hgmem, x, hx, hid, hrest⟩ := State.issueTo_one_part rfl rfl hcount hparts hroom
  exact ⟨t, hexec.trans ht, by rw [hth, Thread.nextPc_pc], hmem, hgmem, fun r => by rw [X, hth]; exact (Thread.nextPc_registers _ r).1,
    x, hx, hid, hrest⟩

/-- R116, R294, R295: what each of the three waits for, as its immediates name it. -/
theorem fences : Claims.Fences := by
  intro q c l k p m s mine within done stalls low
  have hdone : ∀ c n, done c n ↔ s.fenceDone c n = true := fun c n => by
    simp only [State.fenceDone_iff, Access.inScope_iff, Core.placelessCmds_eq]
    rfl
  have hend : (done 7 3 ∧ ∀ x ∈ s.me.accs, ¬mine x) ↔ s.efenceDone := and_congr_left' (hdone 7 3)
  have hlow : low ↔ s.countsLow l k p m := by
    simp only [State.countsLow, Core.awaitsReplay_eq_false]
    rfl
  simp only [exec_fence, exec_efence, exec_waitc, hlow]
  refine ⟨s.copiesOutside_pod, fun _ => s.copyInScope_of_named, fun _ _ => s.copyInScope_fill, fun h => execFence_goes_on ((hdone ..).1 h),
    fun h => execFence_waits fun hd => h ((hdone ..).2 hd), fun h hn => execEfence_goes_on (hend.1 ⟨h, hn⟩),
    fun h hn => execEfence_traps (hend.1 ⟨h, hn⟩),
    fun h => execEfence_waits fun hd => h (hend.2 hd), execWaitc_low, execWaitc_high⟩

/-- Settles O31: a range within one block is an access of one part, and each fence completes or stalls by what it waits for. -/
theorem reclaimsAndFences : Obligations.ReclaimsAndFences := ⟨rangeReclaims, fences⟩

end Sys2Proof.Machine
end

section
/-! SUPPORT. What a message finds (R156, R302), and what an answer to a send entry does (R175, R179, R180). -/

namespace Sys2Proof.Machine

open Sys2Proof.Claims (finds delivered)

/-! ## Parts of a core that a change keeps -/

/-- A change of one core that keeps a part of it keeps that part of every core. -/
theorem State.onCore_keeps {α : Type} (P : Core → α) {f : Core → Core} (h : ∀ k, P (f k) = P k) (s : State) (c d : Nat) :
    P ((s.onCore c f).core d) = P (s.core d) := by
  by_cases hd : d = c
  · rw [hd, State.core_onCore_same, h]
  · rw [State.core_onCore_ne s f hd]

/-! ## What a message finds -/

section
variable {s : State} {m : Msg} {c i : Nat} (h : finds s m c i)
include h

theorem State.landAt_finds (miss : Landing) : s.landAt m c i miss = .place c i := by
  obtain ⟨-, -, -, -, -, hname, hacc, hinc, hcut, -⟩ := h
  have hsame : ¬(m.named = true ∧ (s.actor c i).incarn ≠ m.inc) := fun hn => hn.2 (hinc hn.1)
  simp only [State.landAt]
  rw [if_pos ⟨hname, hacc⟩, if_neg hsame, hcut]
  rfl

theorem State.runs_of_finds : (s.pkg (corePkg c)).runs = true := by
  obtain ⟨-, -, -, -, -, -, -, -, -, hrun⟩ := h
  exact hrun

theorem State.landing_finds (fresh : Bool) : s.landing m c i fresh = .place c i := by
  have hland := State.landAt_finds h
  obtain ⟨hreach, -⟩ := h
  rw [State.landing, hreach, hland]
  rfl

theorem State.ashore_finds (src : Nat) : s.ashore src m = .place c i := by
  have hland := State.landAt_finds h
  obtain ⟨hreach, hserv, hgate, hslot, ⟨d, hd, hlive, hc, hi⟩, -⟩ := h
  simp only [State.ashore, hreach, hserv, hgate, hslot, hd, hlive, hc, hi, hland]
  rfl

end

/-! ## The send allowance of a core -/

/-- Looking for an entry after a change of it that keeps its identity. -/
theorem find?_changed {l : List SendEntry} {id : Nat} {g : SendEntry → SendEntry} (hg : ∀ x, (g x).id = x.id) :
    (l.map fun x => if x.id = id then g x else x).find? (·.id == id) = (l.find? (·.id == id)).map g := by
  induction l with
  | nil => rfl
  | cons x l ih =>
    by_cases hx : x.id = id
    · simp [hx, hg]
    · simp [hx, ih]

theorem State.sends_onSend (s : State) (c id : Nat) (g : SendEntry → SendEntry) :
    ((s.onSend c id g).core c).sends = (s.core c).sends.map fun x => if x.id = id then g x else x := by
  rw [State.onSend, State.core_onCore_same]

/-- The first entry of an identity is the first with that identity and its tag. -/
theorem find?_tagged {l : List SendEntry} {id : Nat} {e : SendEntry} (h : l.find? (·.id == id) = some e) :
    l.find? (fun f => f.id == id && f.tag == e.tag) = some e := by
  obtain ⟨hid, l1, l2, rfl, hl⟩ := List.find?_eq_some_iff_append.1 h
  refine List.find?_eq_some_iff_append.2 ⟨by simp [beq_iff_eq.1 hid], l1, l2, rfl, fun f hf => ?_⟩
  have hne : f.id ≠ id := by simpa using hl f hf
  simp [hne]

theorem State.sends_endSend (s : State) (c id : Nat) : ((s.endSend c id).core c).sends = (s.core c).sends.filter fun e => e.id != id :=
  congrArg Core.sends (s.core_onCore_same c fun k => { k with sends := k.sends.filter fun e => e.id != id })

/-- A refused entry is returned and its sender is told (R170, R179). -/
theorem State.entryRefused_tells (s : State) (c : Nat) (e : SendEntry) (unit reason : Nat) (inc : BitVec 8) :
    ((s.entryRefused c e unit reason 0 inc).core c).sends = (s.core c).sends.filter (fun f => f.id != e.id) ∧
      delivered (s.entryRefused c e unit reason 0 inc) s.serial e.msg.sender reason e.msg.dst
        (e.msg.chan * 256 + (e.msg.body[0]).toNat % 2 ^ 32 * 2 ^ 32) :=
  ⟨s.sends_endSend c e.id, State.delivered_delivery _ _ _ _ _ _ _ _ (by rw [deliveryDetail_toNat, Nat.zero_add])⟩

/-- What has been taken off stays off when the message of an entry goes. -/
theorem State.packet_take_endSend (s : State) (n c id : Nat) : ((s.take n).endSend c id).packet n = none :=
  SMap.find_filter_none (SMap.find_del_same ..) _

theorem State.packet_take_entryRefused {s : State} {n : Nat} (hn : n < s.serial) (c : Nat) (e : SendEntry) (unit reason code : Nat) (inc : BitVec 8) :
    ((s.take n).entryRefused c e unit reason code inc).packet n = none :=
  (State.packet_post_ne ((s.take n).endSend c e.id) _ _ (Nat.ne_of_lt hn)).trans (s.packet_take_endSend n c e.id)

/-! ## SEND_ANSWER (R179, R180) -/

section
variable {s : State} {n c id : Nat} {p : Packet} {tag : Option Nat} {a : MsgAnswer} (hn : s.packet n = some p)
  (hp : p.pay = .sendAnswer c id tag a)
include hn hp

theorem execSendAnswer_replaced (h : ∀ f ∈ (s.core c).sends, f.id = id → f.tag ≠ tag) : execSendAnswer n s = .next (s.take n) := by
  have hnone : (s.core c).sends.find? (fun e => e.id == id && e.tag == tag) = none := List.find?_eq_none.2 fun f hf => by simpa using h f hf
  simp only [execSendAnswer, evSendAnswer, hn, hp, hnone]
  rfl

end

section
variable {s : State} {n c id : Nat} {p : Packet} {e : SendEntry} {a : MsgAnswer} (hn : s.packet n = some p)
  (he : (s.core c).sends.find? (·.id == id) = some e)
include hn he

theorem execSendAnswer_placed (hp : p.pay = .sendAnswer c id e.tag .placed) : execSendAnswer n s = .next ((s.take n).endSend c id) := by
  simp only [execSendAnswer, evSendAnswer, hn, hp, find?_tagged he]
  rfl

theorem execSendAnswer_noproc {inc : BitVec 8} (hp : p.pay = .sendAnswer c id e.tag (.noproc inc)) :
    execSendAnswer n s = .next ((s.take n).entryRefused c e e.core rNoproc 0 inc) := by
  simp only [execSendAnswer, evSendAnswer, hn, hp, find?_tagged he]
  rfl

theorem execSendAnswer_overflow {code : Nat} {inc : BitVec 8} (hp : p.pay = .sendAnswer c id e.tag (.overflow code inc)) :
    execSendAnswer n s = .next ((s.take n).entryRefused c e e.core rOverflow code inc) := by
  simp only [execSendAnswer, evSendAnswer, hn, hp, find?_tagged he]
  rfl

/-- A stale answer: the core forgets the entry of the directory that it had for the name, and the message is to leave again. -/
theorem execSendAnswer_stale (hp : p.pay = .sendAnswer c id e.tag .stale) : ∃ t, execSendAnswer n s = .next t ∧ t.packet n = none ∧
    (t.core c).cached e.msg.dst = none ∧ (t.core c).sends = (s.core c).sends.map fun f => if f.id = id then
      { f with phase := .waiting, busySince := none, dest := none, tag := none, rerouted := true } else f := by
  have hexec : execSendAnswer n s = .next
      (((s.take n).onCore c fun k => { k with dirCache := k.dirCache.filter (·.name != e.msg.dst) }).onSend c id fun f =>
        { f with phase := .waiting, busySince := none, dest := none, tag := none, rerouted := true }) := by
    simp only [execSendAnswer, evSendAnswer, hn, hp, find?_tagged he]
    rfl
  refine ⟨_, hexec, s.packet_take n, ?_, ?_⟩
  · rw [State.onSend, State.core_onCore_same, State.core_onCore_same, Core.cached, List.find?_filter]
    simp
  · rw [State.sends_onSend, State.core_onCore_same]
    rfl

end

/-! ## Time (R156, R180) -/

section
variable {s : State} {n c id : Nat} {p : Packet} {m : Msg} {since : Option Nat} {e : SendEntry} (hn : s.packet n = some p)
  (hp : p.pay = .message m (.entry c id) since) (he : (s.core c).sends.find? (·.id == id) = some e)
include hp he

theorem State.busyTimes_entry (hb : e.phase = .busy) : s.busyTimes p = some (e.lastAt, e.busySince.getD e.lastAt, s.now c) := by
  simp [State.busyTimes, hp, he, hb]

include hn

theorem State.sendOf_of_packet : s.sendOf n = some (c, e) := by simp [State.sendOf, hn, hp, he]

theorem execMessageResend_late (hu : e.unanswered = true) (ht : e.tag.isSome = true) (hr : e.resent = false)
    (hlate : e.firstAt + 18800 ≤ s.now c) : execMessageResend n s =
      .next (s.onSend c e.id fun f => { f with phase := if f.phase = .sent then .resent else f.phase, resent := true }) := by
  simp [execMessageResend, evMessageResend, State.sendOf_of_packet hn hp he, hu, ht, hr, hlate]

theorem execMessageIndeterminate_late (hu : e.unanswered = true) (ht : e.tag.isSome = true) (hlate : e.firstAt + 47000 ≤ s.now c) :
    execMessageIndeterminate n s = .next (s.entryRefused c e c rIndeterminate 0 (s.msgInc e.msg)) := by
  simp [execMessageIndeterminate, evMessageIndeterminate, State.sendOf_of_packet hn hp he, hu, ht, hlate]

theorem execMessageBusyResend_entry (hb : e.phase = .busy) (hlate : e.lastAt + 256 ≤ s.now c) :
    execMessageBusyResend n s = .next (s.onSend c id fun f => { f with phase := .waiting, lastAt := s.now c }) := by
  simp only [execMessageBusyResend, evMessageBusyResend, hn, State.busyTimes_entry hp he hb, hp, Nat.not_lt.2 hlate, if_false]
  rfl

theorem execDeliveryTimeout_entry (hb : e.phase = .busy) (hlate : e.busySince.getD e.lastAt + 2 ^ 20 ≤ s.now c) :
    execDeliveryTimeout n s = .next (s.entryRefused c e c rTimeout 0 (s.msgInc e.msg)) := by
  simp only [execDeliveryTimeout, evDeliveryTimeout, hn, State.busyTimes_entry hp he hb, hp, Nat.not_lt.2 hlate, if_false, he]
  rfl

end

section
variable {s : State} {n reason first : Nat} {p : Packet} {dst killer : W64} {kinc : BitVec 8} {dom : BitVec 16} {every : Bool}
  (hn : s.packet n = some p) (hp : p.pay = .kill dst killer kinc dom every reason first true)
include hp

theorem State.busyTimes_kill : s.busyTimes p = some (p.born, first, s.cycle p.src) := by simp [State.busyTimes, hp]

include hn

theorem execMessageBusyResend_kill (hlate : p.born + 256 ≤ s.cycle p.src) : execMessageBusyResend n s = .next { s with
    net := s.net.put n { p with born := s.cycle p.src, pay := .kill dst killer kinc dom every reason first false } } := by
  simp only [execMessageBusyResend, evMessageBusyResend, hn, State.busyTimes_kill hp, hp, Nat.not_lt.2 hlate, if_false]
  rfl

theorem execDeliveryTimeout_kill (hlate : first + 2 ^ 20 ≤ s.cycle p.src) : execDeliveryTimeout n s =
    .next ((s.take n).delivery p.src (s.dieOf killer) killer kinc rTimeout dst (s.liveInc dst) 0) := by
  simp only [execDeliveryTimeout, evDeliveryTimeout, hn, State.busyTimes_kill hp, hp, Nat.not_lt.2 hlate, if_false]
  rfl

end

/-! ## Messages without a send entry (R175) -/

section
variable {s : State} {n c i : Nat} {p : Packet} {m : Msg} {via : Via} (hn : s.packet n = some p) (hp : p.pay = .message m via none)
  (hreq : m.isRequest = false) (hvia : ∀ x y, via ≠ .entry x y)
include hn hp hreq hvia

theorem evMessageArrival_free : evMessageArrival n s = s.freeArrives n p m via none := by
  simp only [evMessageArrival, hn, hp, hreq]
  cases via with
  | entry x y => exact absurd rfl (hvia x y)
  | free _ _ _ => rfl
  | notice _ _ => rfl

variable (hw : s.hostWaits n m.sender m.dst m.chan false = false) (hf : finds s m c i)
include hw hf

theorem execMessageArrival_free_placed (h : (s.core c).chanFull i m.chan = false) : execMessageArrival n s =
    .next (((s.onCore c fun q => q.placeMsg i (s.now c) m).take n).viaPlaced via) := by
  simp only [execMessageArrival, evMessageArrival_free hn hp hreq hvia, State.freeArrives, hw, State.ashore_finds hf,
    State.runs_of_finds hf, State.place1, h]
  rfl

theorem execMessageArrival_free_full (h : (s.core c).chanFull i m.chan = true) : execMessageArrival n s =
    .next ((s.take n).viaRefused (corePkg c) (coreDie c) m via rOverflow 0 (s.actor c i).incarn) := by
  simp only [execMessageArrival, evMessageArrival_free hn hp hreq hvia, State.freeArrives, hw, State.ashore_finds hf,
    State.runs_of_finds hf, State.place1, h]
  rfl

end

end Sys2Proof.Machine
end

section
/-! SUPPORT. The message of a send entry at its receiving core (R374): in its turn it is placed or refused, and the answer goes back. -/

namespace Sys2Proof.Machine

open Sys2Proof.Claims (finds)

/-! ## Cores that differ in what they send with -/

/-- A core with another send allowance, other message sequences and numbers and another directory cache. -/
def Core.sending (k : Core) (l : List SendEntry) (q : SMap Nat) (n : Nat) (d : List DirEntry) : Core :=
  { k with sends := l, msgSeq := q, msgNo := n, dirCache := d }

section
variable (k : Core) (l : List SendEntry) (q : SMap Nat) (n : Nat) (d : List DirEntry)

@[simp] theorem Core.mem_sending : (k.sending l q n d).mem = k.mem := rfl
@[simp] theorem Core.bad_sending : (k.sending l q n d).bad = k.bad := rfl
@[simp] theorem Core.regions_sending : (k.sending l q n d).regions = k.regions := rfl
@[simp] theorem Core.slots_sending : (k.sending l q n d).slots = k.slots := rfl
@[simp] theorem Core.next_sending : (k.sending l q n d).next = k.next := rfl
@[simp] theorem Core.sends_sending : (k.sending l q n d).sends = l := rfl

@[simp] theorem Core.actor_sending (i : Nat) : (k.sending l q n d).actor i = k.actor i := rfl

@[simp] theorem Core.mailbox_sending (i : Nat) : (k.sending l q n d).mailbox i = k.mailbox i := by simp [Core.mailbox, Core.regionBase]

@[simp] theorem Core.chan_sending (i c : Nat) : (k.sending l q n d).chan i c = k.chan i c := by simp [Core.chan, Core.metaWord]

@[simp] theorem Core.chanFull_sending (i c : Nat) : (k.sending l q n d).chanFull i c = k.chanFull i c := by
  simp only [Core.chanFull, Core.chan_sending, Core.actor_sending]
  rfl

@[simp] theorem Core.anyRunnable_sending (i : Nat) : (k.sending l q n d).anyRunnable i = k.anyRunnable i := by
  have hrun : (k.sending l q n d).runnable i = k.runnable i := by
    funext h
    simp [Core.runnable, Core.waiting]
  rw [Core.anyRunnable, hrun, Core.actor_sending, Core.anyRunnable]

theorem Core.noteChan_sending (i c : Nat) : (k.sending l q n d).noteChan i c = (k.noteChan i c).sending l q n d := by
  simp only [Core.noteChan, Core.noteBad, Core.badRun, Core.mailbox_sending, Core.bad_sending, Core.recordErr, Core.actor_sending]
  split
  · cases (k.actor i).state <;> rfl
  · rfl

theorem Core.wake_sending (i now : Nat) : (k.sending l q n d).wake i now = (k.wake i now).sending l q n d := by
  simp only [Core.wake, Core.anyRunnable_sending, Core.actor_sending]
  split <;> rfl

theorem Core.placeEntry_sending (i c now : Nat) (hdr sender : W64) (m : Vector W64 8) :
    (k.sending l q n d).placeEntry i c now hdr sender m = (k.placeEntry i c now hdr sender m).sending l q n d := by
  have hwrite : ∀ (k : Core) a bs, (k.sending l q n d).writeWords a bs = (k.writeWords a bs).sending l q n d := fun _ _ _ => rfl
  simp only [Core.placeEntry, Core.setChan, Core.entryAt, Core.chan_sending, Core.mailbox_sending, Core.noteChan_sending, hwrite, Core.wake_sending]

theorem Core.placeMsg_sending (i now : Nat) (m : Msg) : (k.sending l q n d).placeMsg i now m = (k.placeMsg i now m).sending l q n d :=
  k.placeEntry_sending ..

end

/-- Two cores that differ at most in what they send with. -/
def Core.SendsOnly (k j : Core) : Prop := ∃ l q n d, j = k.sending l q n d

theorem Core.SendsOnly.refl (k : Core) : k.SendsOnly k := ⟨_, _, _, _, rfl⟩

theorem Core.sends_noteBad (k : Core) (slot a n : Nat) : (k.noteBad slot a n).sends = k.sends := by
  unfold Core.noteBad Core.recordErr
  split
  · dsimp only
    split <;> rfl
  · rfl

theorem Core.sends_writeWords (k : Core) (a : Nat) (bs : List Byte) : (k.writeWords a bs).sends = k.sends := rfl

theorem Core.sends_wake (k : Core) (slot now : Nat) : (k.wake slot now).sends = k.sends := by
  simp only [Core.wake]
  split <;> rfl

theorem Core.sends_placeMsg (k : Core) (i now : Nat) (m : Msg) : (k.placeMsg i now m).sends = k.sends :=
  (Core.sends_wake ..).trans ((Core.sends_writeWords ..).trans ((Core.sends_writeWords ..).trans (k.sends_noteBad ..)))

/-! ## The receiving core acts on a message -/

/-- What a message of an entry leaves that its receiving core has placed or refused: the core with the message at the tail of its channel, or as
it was where the channel has no place, the entry acted on, and the answer under way. -/
def State.Lands (s : State) (c id c2 i : Nat) (m : Msg) (t : State) : Prop :=
  let full := (s.core c2).chanFull i m.chan
  let q := if full then s.core c2 else (s.core c2).placeMsg i (s.now c2) m
  (t.core c2).mem = q.mem ∧ (t.core c2).slots = q.slots ∧
    ∃ f g, (t.core c).sends.find? (·.id == id) = some f ∧ f.phase = .sent ∧ f.core = c2 ∧ f.msg = m ∧ t.packet s.serial = some g ∧
      g.pay = .sendAnswer c id f.tag (if full then .overflow 0 (s.actor c2 i).incarn else .placed)

/-- What the sending core has changed of itself before does not change how its message lands. -/
theorem State.Lands.of_sendsOnly {s u t : State} {c id c2 i : Nat} {m : Msg} (h : u.Lands c id c2 i m t) (hserial : u.serial = s.serial)
    (hnow : u.now c2 = s.now c2) (hcore : (s.core c2).SendsOnly (u.core c2)) : s.Lands c id c2 i m t := by
  obtain ⟨l, q, n, d, hcore⟩ := hcore
  simp only [State.Lands, State.actor, hserial, hnow, hcore, Core.chanFull_sending, Core.placeMsg_sending, Core.actor_sending] at h
  obtain ⟨hmem, hslots, hrest⟩ := h
  refine ⟨hmem.trans ?_, hslots.trans ?_, hrest⟩ <;> split <;> rfl

/-- The answer to an entry changes the entry and the tag records alone. -/
theorem State.answerSend_keeps {α : Type} (P : Core → α) (hsends : ∀ k l, P { k with sends := l } = P k)
    (htags : ∀ k l, P { k with msgTags := l } = P k) (s : State) (c : Nat) (e : SendEntry) (a : MsgAnswer) (d : Nat) :
    P ((s.answerSend c e a).core d) = P (s.core d) := by
  have hentry := State.onCore_keeps P (f := fun k => { k with sends := k.sends.map fun x => if x.id = e.id then { x with phase := .sent } else x })
    (fun k => hsends k _) s c d
  simp only [State.answerSend, State.core_post]
  cases e.tag with
  | none => exact hentry
  | some t => exact (State.onCore_keeps P (fun k => htags k _) _ _ _).trans hentry

/-- A send entry whose message has been acted on. -/
def SendEntry.acted (e : SendEntry) : SendEntry := { e with phase := .sent }

theorem State.sends_answerSend (s : State) (c : Nat) (e : SendEntry) (a : MsgAnswer) :
    ((s.answerSend c e a).core c).sends = (s.core c).sends.map fun x => if x.id = e.id then x.acted else x := by
  have hentry := s.sends_onSend c e.id SendEntry.acted
  simp only [State.answerSend, State.core_post]
  cases e.tag with
  | none => exact hentry
  | some t =>
    exact (State.onCore_keeps Core.sends (f := fun k => k.recordMsg (s.now e.core) c t a) (fun _ => rfl) _ _ _).trans hentry

theorem State.packet_answerSend (s : State) (c : Nat) (e : SendEntry) (a : MsgAnswer) :
    ∃ g, (s.answerSend c e a).packet s.serial = some g ∧ g.pay = .sendAnswer c e.id e.tag a := by
  simp only [State.answerSend]
  cases e.tag with
  | none => exact ⟨_, State.packet_post .., rfl⟩
  | some t => exact ⟨_, State.packet_post .., rfl⟩

/-- The answer goes back to an entry that stands in the send allowance. -/
theorem State.answerSend_answers {s : State} {c id : Nat} {e : SendEntry} (he : (s.core c).sends.find? (·.id == id) = some e) (a : MsgAnswer) :
    ∃ f g, ((s.answerSend c e a).core c).sends.find? (·.id == id) = some f ∧ f.phase = .sent ∧ f.core = e.core ∧ f.msg = e.msg ∧
      (s.answerSend c e a).packet s.serial = some g ∧ g.pay = .sendAnswer c id f.tag a := by
  have hid : e.id = id := by simpa using List.find?_some he
  obtain ⟨g, hg, hpay⟩ := s.packet_answerSend c e a
  refine ⟨e.acted, g, ?_, rfl, rfl, rfl, hg, hid ▸ hpay⟩
  rw [State.sends_answerSend, hid, find?_changed (g := SendEntry.acted) fun _ => rfl, he]
  rfl

/-- In its turn, a message that finds its actor lands. -/
theorem State.actOn_lands {s : State} {c id c2 i : Nat} {e : SendEntry} (he : (s.core c).sends.find? (·.id == id) = some e) (hcore : e.core = c2)
    (hf : finds s e.msg c2 i) (htags : e.tag.isSome = true → (s.core c2).tagsFull (s.now c2) = false) :
    ∃ t, s.actOn c e i = some t ∧ s.Lands c id c2 i e.msg t := by
  subst hcore
  have hturn : ¬(e.tag.isSome && (s.core e.core).tagsFull (s.now e.core)) = true := fun h => by
    rw [Bool.and_eq_true] at h
    exact Bool.false_ne_true ((htags h.1).symm.trans h.2)
  rw [State.actOn, if_neg hturn, State.landing_finds hf]
  by_cases hfull : (s.core e.core).chanFull i e.msg.chan = true
  case pos =>
    refine ⟨s.answerSend c e (.overflow 0 (s.actor e.core i).incarn), by simp only [State.place1, hfull]; rfl, ?_⟩
    simp only [State.Lands, hfull, if_true]
    exact ⟨State.answerSend_keeps Core.mem (fun _ _ => rfl) (fun _ _ => rfl) ..,
      State.answerSend_keeps Core.slots (fun _ _ => rfl) (fun _ _ => rfl) ..,
      State.answerSend_answers he _⟩
  case neg =>
    generalize hu : (s.onCore e.core fun k => k.placeMsg i (s.now e.core) e.msg).countCore c 0x0A (some e.msg.domain) = u
    have hplaced : ∀ {α : Type} (P : Core → α), (∀ k l, P { k with pmcs := l } = P k) →
        P (u.core e.core) = P ((s.core e.core).placeMsg i (s.now e.core) e.msg) := fun P hP => by
      rw [← hu]
      exact (State.onCore_keeps P (f := (·.count 0x0A (some e.msg.domain))) (fun k => hP k _) ..).trans (congrArg P (State.core_onCore_same ..))
    have hsends : (u.core c).sends = (s.core c).sends := by
      rw [← hu]
      exact (State.onCore_keeps Core.sends (f := (·.count 0x0A (some e.msg.domain))) (fun _ => rfl) ..).trans
        (State.onCore_keeps Core.sends (fun k => k.sends_placeMsg ..) ..)
    have hserial : u.serial = s.serial := by rw [← hu]; rfl
    refine ⟨u.answerSend c e .placed, by simp only [State.place1, hfull, ← hu]; rfl, ?_⟩
    simp only [State.Lands, hfull, Bool.false_eq_true, if_false]
    rw [← hsends] at he
    exact ⟨(State.answerSend_keeps Core.mem (fun _ _ => rfl) (fun _ _ => rfl) ..).trans (hplaced Core.mem fun _ _ => rfl),
      (State.answerSend_keeps Core.slots (fun _ _ => rfl) (fun _ _ => rfl) ..).trans (hplaced Core.slots fun _ _ => rfl),
      hserial ▸ State.answerSend_answers he _⟩

end Sys2Proof.Machine
end

section
/-! SUPPORT. An entry of the send allowance leaves (R115, R301, R374): the entries that go with it, its place at the receiving core, and its
arrival there. -/

namespace Sys2Proof.Machine

open Sys2Proof.Claims (finds)

/-! ## Leaving for a slot -/

/-- An entry that has left for a slot of a core of its own package. -/
def SendEntry.flown (e : SendEntry) (core slot now : Nat) (fresh : Bool) (seq : Nat) : SendEntry :=
  { e with phase := .flying, core := core, dest := some slot, fresh := fresh, seq := seq, tag := none, firstAt := now, lastAt := now, resent := false
           left := true }

/-- What the leaving of an entry for a slot of a core makes of its own core. -/
def Core.Leaves (e : SendEntry) (core slot now : Nat) (k j : Core) : Prop :=
  ∃ fresh seq q d, j = k.sending (k.sends.map fun x => if x.id = e.id then x.flown core slot now fresh seq else x) q k.msgNo d

/-- The directory cache of a core leads a name nowhere but to one slot. -/
def Core.Aims (k : Core) (name : W64) (core slot : Nat) : Prop := ∀ x, k.cached name = some x → x.core = core ∧ x.slot = slot

section
variable {e : SendEntry} {core slot now : Nat} {k j : Core}

theorem Core.Leaves.trans {l : Core} (h1 : k.Leaves e core slot now j) (h2 : j.Leaves e core slot now l) : k.Leaves e core slot now l := by
  obtain ⟨fresh1, seq1, q1, d1, rfl⟩ := h1
  obtain ⟨fresh2, seq2, q2, d2, rfl⟩ := h2
  refine ⟨fresh2, seq2, q2, d2, ?_⟩
  have htwice : ∀ x : SendEntry, (if (if x.id = e.id then x.flown core slot now fresh1 seq1 else x).id = e.id then
      (if x.id = e.id then x.flown core slot now fresh1 seq1 else x).flown core slot now fresh2 seq2
      else if x.id = e.id then x.flown core slot now fresh1 seq1 else x) = if x.id = e.id then x.flown core slot now fresh2 seq2 else x := fun x => by
    by_cases hx : x.id = e.id
    · have hid : (x.flown core slot now fresh1 seq1).id = e.id := hx
      rw [if_pos hx, if_pos hid, if_pos hx]
      rfl
    · rw [if_neg hx, if_neg hx]
  rw [Core.sends_sending, List.map_map]
  simp only [Function.comp_def, htwice]
  rfl

theorem Core.Leaves.cacheDir (h : k.Leaves e core slot now j) (d : DirEntry) : k.Leaves e core slot now (j.cacheDir d) := by
  obtain ⟨fresh, seq, q, d', rfl⟩ := h
  exact ⟨fresh, seq, q, _, rfl⟩

theorem Core.Leaves.sendsOnly (h : k.Leaves e core slot now j) : k.SendsOnly j := by
  obtain ⟨fresh, seq, q, d, rfl⟩ := h
  exact ⟨_, _, _, _, rfl⟩

theorem Core.Leaves.slots_eq (h : k.Leaves e core slot now j) : j.slots = k.slots := by
  obtain ⟨fresh, seq, q, d, rfl⟩ := h
  exact Core.slots_sending ..

theorem Core.Aims.sending {name : W64} (h : k.Aims name core slot) (l : List SendEntry) (q : SMap Nat) (n : Nat) :
    (k.sending l q n k.dirCache).Aims name core slot := h

end

/-- What is cached after an entry of the directory has been used is that entry, or was cached before under another name than it. -/
theorem Core.cached_cacheDir {k : Core} {d x : DirEntry} {name : W64} (h : (k.cacheDir d).cached name = some x) :
    x = d ∨ x ∈ k.dirCache ∧ x.name = name ∧ name ≠ d.name := by
  have hname : x.name = name := by simpa using List.find?_some h
  obtain rfl | hx := List.mem_cons.1 (List.mem_of_mem_take (List.mem_of_find?_eq_some h))
  · exact .inl rfl
  · obtain ⟨hmem, hne⟩ := List.mem_filter.1 hx
    exact .inr ⟨hmem, hname, hname ▸ bne_iff_ne.1 hne⟩

theorem State.leaveFor_eq {s : State} {c core : Nat} (hpkg : corePkg core = corePkg c) (e : SendEntry) (slot : Nat) (fresh : Bool) :
    s.leaveFor c e core slot fresh = if ((s.core c).staysBehind e core || s.behindStale c e) = true then s else
      s.onCore c fun k => k.sending (k.sends.map fun x => if x.id = e.id then x.flown core slot (s.now c) fresh ((s.core c).seqTo e core) else x)
        (if (s.core c).seqTo e core = k.msgSeq.get 0 core then k.msgSeq.put core ((s.core c).seqTo e core + 1) else k.msgSeq) k.msgNo k.dirCache := by
  have hcross : (corePkg core != corePkg c) = false := by rw [hpkg, bne_self_eq_false]
  simp only [State.leaveFor, hcross, State.onSend, State.onCore_onCore]
  rfl

/-- Leaving leads an entry to the slot where its message finds its actor, by the directory cache or the directory. -/
theorem State.leave_aims {s : State} {c c2 i : Nat} {e : SendEntry} (hf : finds s e.msg c2 i) (ha : (s.core c).Aims e.msg.dst c2 i) :
    ∃ d fresh, s.leave c e = (s.onCore c (·.cacheDir d)).leaveFor c e c2 i fresh ∧ ((s.core c).cacheDir d).Aims e.msg.dst c2 i := by
  obtain ⟨hreach, hserv, hgate, hslot, ⟨d, hd, hlive, hc, hi⟩, -⟩ := hf
  have hplain : ¬(!s.reaches e.msg.domain e.msg.everyDomain e.msg.dst || isService e.msg.dst) = true := by
    rw [hreach, hserv]
    decide
  simp only [State.leave]
  rw [if_neg hplain]
  cases hcached : (s.core c).cached e.msg.dst with
  | some x =>
    obtain ⟨hxc, hxi⟩ := ha x hcached
    have hname : x.name = e.msg.dst := by simpa using List.find?_some hcached
    refine ⟨x, false, by rw [← hxc, ← hxi], fun y hy => ?_⟩
    obtain rfl | ⟨-, -, hne⟩ := Core.cached_cacheDir hy
    · exact ⟨hxc, hxi⟩
    · exact absurd hname.symm hne
  | none =>
    have hopen : d.state = 1 ∧ (!isGateway e.msg.dst) = true ∧ s.slotServed (s.nameSlot e.msg.dst) = true :=
      ⟨hlive, by rw [hgate]; rfl, hslot⟩
    refine ⟨d, true, by simp only [hd]; rw [if_pos hopen, hc, hi], fun y hy => ?_⟩
    obtain rfl | ⟨hmem, hname, -⟩ := Core.cached_cacheDir hy
    · exact ⟨hc, hi⟩
    · exact absurd (beq_iff_eq.2 hname) (List.find?_eq_none.1 hcached y hmem)

theorem State.setCore_setCore (s : State) (c : Nat) (j k : Core) : (s.setCore c j).setCore c k = s.setCore c k :=
  s.onCore_onCore c (fun _ => j) fun _ => k

/-- A message finds its actor whatever changes in how a core sends. -/
theorem State.finds_setCore {s : State} {m : Msg} {c c2 i : Nat} {j : Core} (h : finds s m c2 i) (hj : j.slots = (s.core c).slots) :
    finds (s.setCore c j) m c2 i := by
  have hactor : (s.setCore c j).actor c2 i = s.actor c2 i := by
    by_cases hc : c2 = c
    · rw [hc, State.actor, State.core_setCore_same, Core.actor, hj, State.actor, Core.actor]
    · rw [State.actor, State.core_setCore_ne s j hc, State.actor]
  unfold finds at h ⊢
  rw [hactor]
  exact h

section
variable {s : State} {c c2 i : Nat} {e : SendEntry} (hf : finds s e.msg c2 i) (hpkg : corePkg c2 = corePkg c)
include hf hpkg

/-- An entry that nothing keeps back leaves. -/
theorem State.leave_leaves (ha : (s.core c).Aims e.msg.dst c2 i) (hstays : (s.core c).staysBehind e c2 = false) (hstale : s.behindStale c e = false) :
    ∃ j, s.leave c e = s.setCore c j ∧ j.Aims e.msg.dst c2 i ∧ (s.core c).Leaves e c2 i (s.now c) j := by
  obtain ⟨d, fresh, hleave, haims⟩ := State.leave_aims hf ha
  have hcore : (s.onCore c (·.cacheDir d)).core c = (s.core c).cacheDir d := State.core_onCore_same ..
  have hfree : ¬(((s.core c).cacheDir d).staysBehind e c2 || (s.onCore c (·.cacheDir d)).behindStale c e) = true := by
    have hstale' : (s.onCore c (·.cacheDir d)).behindStale c e = s.behindStale c e := by
      simp only [State.behindStale, hcore]
      rfl
    have hstays' : ((s.core c).cacheDir d).staysBehind e c2 = (s.core c).staysBehind e c2 := rfl
    rw [hstale', hstays', hstays, hstale]
    decide
  rw [hleave, State.leaveFor_eq hpkg, hcore, if_neg hfree, State.onCore_onCore]
  exact ⟨_, rfl, haims.sending _ _ _, _, _, _, _, rfl⟩

/-- An entry that has left stays so if it is made to leave again. -/
theorem State.leave_left {k : Core} {now : Nat} (hnow : now = s.now c) (ha : (s.core c).Aims e.msg.dst c2 i) (hk : k.Leaves e c2 i now (s.core c)) :
    ∃ j, s.leave c e = s.setCore c j ∧ j.Aims e.msg.dst c2 i ∧ k.Leaves e c2 i now j := by
  obtain ⟨d, fresh, hleave, haims⟩ := State.leave_aims hf ha
  have hcore : (s.onCore c (·.cacheDir d)).core c = (s.core c).cacheDir d := State.core_onCore_same ..
  rw [hleave, State.leaveFor_eq hpkg, hcore, State.onCore_onCore]
  split
  · exact ⟨_, rfl, haims, hk.cacheDir d⟩
  · subst hnow
    exact ⟨_, rfl, haims.sending _ _ _, (hk.cacheDir d).trans ⟨_, _, _, _, rfl⟩⟩

end

/-! ## Leaving with the older entries of the thread set -/

/-- One entry's turn to leave: it leaves if it waits and may. -/
def State.leaveTurn (c : Nat) (s : State) (f : SendEntry) : State :=
  if f.phase = .waiting ∧ (s.core c).mayLeave f then s.leave c f else s

theorem State.leaveUpTo_eq (s : State) (c : Nat) (e : SendEntry) : s.leaveUpTo c e =
    ((s.core c).sends.filter fun f => f.id == e.id || f.slot == e.slot && decide (f.order < e.order)).foldl (State.leaveTurn c) s := rfl

theorem State.leaveTurn_of_not_waiting {s : State} {c : Nat} {f : SendEntry} (h : f.phase ≠ .waiting) : s.leaveTurn c f = s :=
  if_neg fun hw => h hw.1

theorem State.foldl_leaveTurn_of_not_waiting {s : State} {c : Nat} {l : List SendEntry} (h : ∀ f ∈ l, f.phase ≠ .waiting) :
    l.foldl (State.leaveTurn c) s = s :=
  List.foldlRecOn (motive := (· = s)) l _ rfl fun t ht f hf => by rw [ht, State.leaveTurn_of_not_waiting (h f hf)]

section
variable {s : State} {c : Nat} {e : SendEntry} (hsame : ∀ f ∈ (s.core c).sends, f.id = e.id → f = e)
  (hfirst : ∀ f ∈ (s.core c).sends, f.slot = e.slot → f.order < e.order → f.phase ≠ .waiting)
include hsame hfirst

/-- Those that leave with an entry are the entry itself and entries that no longer wait. -/
theorem State.eq_or_not_waiting_of_mem {f : SendEntry}
    (hf : f ∈ (s.core c).sends.filter fun f => f.id == e.id || f.slot == e.slot && decide (f.order < e.order)) :
    f = e ∨ f.phase ≠ .waiting := by
  obtain ⟨hmem, hf⟩ := List.mem_filter.1 hf
  simp only [Bool.or_eq_true, Bool.and_eq_true, beq_iff_eq, decide_eq_true_eq] at hf
  exact hf.imp (hsame f hmem) fun h => hfirst f hmem h.1 h.2

theorem State.leaveUpTo_of_not_waiting (hw : e.phase ≠ .waiting) : s.leaveUpTo c e = s :=
  State.foldl_leaveTurn_of_not_waiting fun _ hf => (State.eq_or_not_waiting_of_mem hsame hfirst hf).elim (fun h => h ▸ hw) id

theorem State.leaveUpTo_leaves {c2 i : Nat} (he : e ∈ (s.core c).sends) (hw : e.phase = .waiting) (hmay : (s.core c).mayLeave e = true)
    (hf : finds s e.msg c2 i) (hpkg : corePkg c2 = corePkg c) (hcached : (s.core c).cached e.msg.dst = none)
    (hstays : (s.core c).staysBehind e c2 = false) (hstale : s.behindStale c e = false) :
    ∃ j, s.leaveUpTo c e = s.setCore c j ∧ (s.core c).Leaves e c2 i (s.now c) j := by
  have hlist := fun f => State.eq_or_not_waiting_of_mem (f := f) hsame hfirst
  rw [State.leaveUpTo_eq]
  generalize hl : ((s.core c).sends.filter fun f => f.id == e.id || f.slot == e.slot && decide (f.order < e.order)) = l at hlist
  have hmem : e ∈ l := by
    rw [← hl]
    exact List.mem_filter.2 ⟨he, by simp⟩
  obtain ⟨l1, l2, rfl, hnot⟩ := List.eq_append_cons_of_mem hmem
  have hbefore : l1.foldl (State.leaveTurn c) s = s := State.foldl_leaveTurn_of_not_waiting fun f hf1 =>
    (hlist f (List.mem_append_left _ hf1)).resolve_left fun h => hnot (h ▸ hf1)
  obtain ⟨j1, hj1, haims, hleaves⟩ := State.leave_leaves hf hpkg (fun x hx => absurd (hcached.symm.trans hx) (by simp)) hstays hstale
  have hturn : s.leaveTurn c e = s.setCore c j1 := (if_pos ⟨hw, hmay⟩).trans hj1
  have hafter : ∃ j, l2.foldl (State.leaveTurn c) (s.setCore c j1) = s.setCore c j ∧ j.Aims e.msg.dst c2 i ∧
      (s.core c).Leaves e c2 i (s.now c) j := by
    refine List.foldlRecOn (motive := fun t => ∃ j, t = s.setCore c j ∧ j.Aims e.msg.dst c2 i ∧ (s.core c).Leaves e c2 i (s.now c) j) l2 _
      ⟨j1, rfl, haims, hleaves⟩ fun t ht f hf2 => ?_
    obtain ⟨j, rfl, ha, hj⟩ := ht
    obtain rfl | hwait := hlist f (List.mem_append_right _ (List.mem_cons_of_mem _ hf2))
    · rw [State.leaveTurn]
      split
      · have hfinds := State.finds_setCore (c := c) (j := j) hf hj.slots_eq
        have hown : (s.setCore c j).core c = j := State.core_setCore_same ..
        obtain ⟨j2, hj2, ha2, hleft⟩ := State.leave_left (k := s.core c) (now := s.now c) hfinds hpkg rfl (hown.symm ▸ ha) (hown.symm ▸ hj)
        exact ⟨j2, by rw [hj2, State.setCore_setCore], ha2, hleft⟩
      · exact ⟨j, rfl, ha, hj⟩
    · exact ⟨j, State.leaveTurn_of_not_waiting hwait, ha, hj⟩
  obtain ⟨j, hj, -, hleft⟩ := hafter
  refine ⟨j, ?_, hleft⟩
  rw [List.foldl_append, List.foldl_cons, hbefore, hturn, hj]

end

/-! ## Arrival (R374) -/

section
variable {s : State} {c slot : Nat} {e : SendEntry} (hrun : (s.pkg (corePkg e.core)).runs = true)
include hrun

theorem State.receive_behindBusy (h : (s.core c).behindBusy e = true) : s.receive c e slot = some (s.busySend c e) := by
  simp only [State.receive, hrun, h]
  rfl

theorem State.receive_early (hb : (s.core c).behindBusy e = false) (he : (s.core c).early e = true) (hp : e.phase = .flying) : s.receive c e slot =
    some (if s.storeUse (e.core / 16) < 64 then s.onSend c e.id fun f => { f with phase := .stored } else s.busySend c e) := by
  have hnot : ¬e.phase = .stored := by rw [hp]; decide
  simp only [State.receive, hrun, hb, he]
  rw [if_neg hnot, apply_ite some]
  rfl

theorem State.receive_inTurn (he : (s.core c).early e = false) : s.receive c e slot = s.actOn c e slot := by
  have hb : (s.core c).behindBusy e = false := by
    rw [Core.behindBusy, List.any_eq_false]
    intro f hf h
    exact List.any_eq_false.1 he f hf (Bool.and_eq_true_iff.1 h).1
  simp only [State.receive, hrun, hb, he]
  rfl

end

/-- Nothing comes before an entry that has left for a core where every other one there has been acted on. -/
theorem Core.early_flown {k j : Core} {e : SendEntry} {id core slot now seq : Nat} {fresh : Bool} (hid : e.id = id)
    (hsends : j.sends = k.sends.map fun x => if x.id = id then x.flown core slot now fresh seq else x)
    (hothers : ∀ f ∈ k.sends, f.id ≠ id → f.dest.isSome = true → f.core = core → f.phase = .sent ∨ f.phase = .resent) :
    j.early (e.flown core slot now fresh seq) = false := by
  rw [Core.early, List.any_eq_false, hsends]
  intro f hmem hahead
  obtain ⟨x, hx, rfl⟩ := List.mem_map.1 hmem
  by_cases hxid : x.id = id
  · rw [if_pos hxid] at hahead
    have hself : (x.flown core slot now fresh seq).id = (e.flown core slot now fresh seq).id := hxid.trans hid.symm
    simp [SendEntry.ahead, hself] at hahead
  · rw [if_neg hxid] at hahead
    simp only [SendEntry.ahead, Bool.and_eq_true, beq_iff_eq, decide_eq_true_eq] at hahead
    obtain ⟨⟨⟨⟨-, hdest⟩, hto⟩, -⟩, hns, hnr⟩ := hahead
    exact (hothers x hx hxid hdest hto).elim hns hnr

/-- An entry that has left for a slot arrives there. -/
theorem State.entryArrives_of_left {s u : State} {c slot : Nat} {e f : SendEntry} (hu : s.leaveUpTo c e = u) (hf : u.sendEntry c e.id = some f)
    (hp : f.phase = .flying ∨ f.phase = .stored) (hd : f.dest = some slot) : s.entryArrives c e = u.receive c f slot := by
  simp only [State.entryArrives, hu, hf, hd]
  exact if_pos hp

section
variable {s : State} {n c id c2 i : Nat} {p : Packet} {m : Msg} {since : Option Nat} {e : SendEntry} (hn : s.packet n = some p)
  (hp : p.pay = .message m (.entry c id) since) (he : (s.core c).sends.find? (·.id == id) = some e) (hreq : m.isRequest = false)
include hn hp he hreq

theorem evMessageArrival_entry (h : e.phase = .waiting ∨ e.phase = .flying ∨ e.phase = .stored) : evMessageArrival n s = s.entryArrives c e := by
  simp only [evMessageArrival, hn, hp, hreq, he]
  obtain h | h | h := h <;> rw [h] <;> rfl

variable (hsame : ∀ f ∈ (s.core c).sends, f.id = id → f = e)
  (hfirst : ∀ f ∈ (s.core c).sends, f.slot = e.slot → f.order < e.order → f.phase ≠ .waiting)
include hsame hfirst

/-- The message of an entry that has left reaches its receiving core. -/
theorem evMessageArrival_left (h : e.phase = .flying ∨ e.phase = .stored) (hd : e.dest = some i) : evMessageArrival n s = s.receive c e i := by
  have hid : e.id = id := by simpa using List.find?_some he
  have hw : e.phase ≠ .waiting := fun hw => by simp [hw] at h
  rw [evMessageArrival_entry hn hp he hreq (.inr h)]
  exact State.entryArrives_of_left (State.leaveUpTo_of_not_waiting (hid ▸ hsame) hfirst hw) (hid ▸ he) h hd

theorem execMessageArrival_left_behindBusy (h : e.phase = .flying ∨ e.phase = .stored) (hd : e.dest = some i)
    (hrun : (s.pkg (corePkg e.core)).runs = true) (hb : (s.core c).behindBusy e = true) : execMessageArrival n s = .next (s.busySend c e) := by
  rw [execMessageArrival, evMessageArrival_left hn hp he hreq hsame hfirst h hd, State.receive_behindBusy hrun hb]
  rfl

theorem execMessageArrival_left_early (h : e.phase = .flying) (hd : e.dest = some i) (hrun : (s.pkg (corePkg e.core)).runs = true)
    (hb : (s.core c).behindBusy e = false) (hearly : (s.core c).early e = true) : execMessageArrival n s =
      .next (if s.storeUse (e.core / 16) < 64 then s.onSend c e.id fun f => { f with phase := .stored } else s.busySend c e) := by
  rw [execMessageArrival, evMessageArrival_left hn hp he hreq hsame hfirst (.inl h) hd, State.receive_early hrun hb hearly h]
  rfl

theorem execMessageArrival_left_lands (h : e.phase = .flying ∨ e.phase = .stored) (hd : e.dest = some i) (hcore : e.core = c2)
    (hearly : (s.core c).early e = false) (hf : finds s e.msg c2 i)
    (htags : e.tag.isSome = true → (s.core c2).tagsFull (s.now c2) = false) :
    ∃ t, execMessageArrival n s = .next t ∧ s.Lands c id c2 i e.msg t := by
  obtain ⟨t, ht, hlands⟩ := State.actOn_lands he hcore hf htags
  have hrun : (s.pkg (corePkg e.core)).runs = true := hcore ▸ State.runs_of_finds hf
  refine ⟨t, ?_, hlands⟩
  rw [execMessageArrival, evMessageArrival_left hn hp he hreq hsame hfirst h hd, State.receive_inTurn hrun hearly, ht]
  rfl

/-- A message that may leave for a core of its own package, and has nothing of its core before it there, leaves and lands at once. -/
theorem execMessageArrival_waiting_lands (hw : e.phase = .waiting) (hmay : (s.core c).mayLeave e = true)
    (hcached : (s.core c).cached e.msg.dst = none) (hf : finds s e.msg c2 i) (hstays : (s.core c).staysBehind e c2 = false)
    (hstale : s.behindStale c e = false)
    (hothers : ∀ f ∈ (s.core c).sends, f.id ≠ id → f.dest.isSome = true → f.core = c2 → f.phase = .sent ∨ f.phase = .resent)
    (hpkg : corePkg c2 = corePkg c) : ∃ t, execMessageArrival n s = .next t ∧ s.Lands c id c2 i e.msg t := by
  have hid : e.id = id := by simpa using List.find?_some he
  obtain ⟨j, hleave, hj⟩ := State.leaveUpTo_leaves (hid ▸ hsame) hfirst (List.mem_of_find?_eq_some he) hw hmay hf hpkg hcached hstays hstale
  have honly := hj.sendsOnly
  have hfinds : finds (s.setCore c j) e.msg c2 i := State.finds_setCore hf hj.slots_eq
  obtain ⟨fresh, seq, q, d, hj⟩ := hj
  have hcore : (s.setCore c j).core c = j := State.core_setCore_same ..
  have hsends : j.sends = (s.core c).sends.map fun x => if x.id = id then x.flown c2 i (s.now c) fresh seq else x := by rw [hj, hid]; rfl
  have hentry : j.sends.find? (·.id == id) = some (e.flown c2 i (s.now c) fresh seq) := by
    rw [hsends, find?_changed (g := fun x => x.flown c2 i (s.now c) fresh seq) fun _ => rfl, he]
    rfl
  have hearly := Core.early_flown hid hsends hothers
  rw [← hcore] at hentry hearly
  obtain ⟨t, ht, hlands⟩ := State.actOn_lands (c2 := c2) hentry rfl hfinds fun h => absurd h Bool.false_ne_true
  refine ⟨t, ?_, hlands.of_sendsOnly rfl rfl ?_⟩
  · have harrives := State.entryArrives_of_left (slot := i) hleave (hid ▸ hentry) (.inl rfl) rfl
    rw [execMessageArrival, evMessageArrival_entry hn hp he hreq (.inl hw), harrives, State.receive_inTurn (State.runs_of_finds hfinds) hearly, ht]
    rfl
  · by_cases hc : c2 = c
    · rw [hc, hcore]
      exact honly
    · rw [State.core_setCore_ne s j hc]
      exact .refl _

end

end Sys2Proof.Machine
end

section
/-! CERTIFICATES. The events of messages (R115, R156, R175, R179, R180, R374). -/

namespace Sys2Proof.Machine

/-- Settles O46, event by event: a message without an entry, one of an entry that waits or has left, an answer, and time. -/
theorem messageEvents : Obligations.MessageEvents := by
  intro n c id c2 i p m via since e s hn k now mine others first landed
  simp only [exec_messageArrival, exec_sendAnswer, exec_messageResend, exec_messageIndeterminate, exec_messageBusyResend, exec_deliveryTimeout]
  have hid : mine → e.id = id := fun h => by simpa using List.find?_some h.2
  have hrefused : ∀ (u : State) (unit reason : Nat) (inc : BitVec 8), u.core c = s.core c → u.serial = s.serial → e.id = id →
      ((u.entryRefused c e unit reason 0 inc).core c).sends = others ∧
        Sys2Proof.Claims.delivered (u.entryRefused c e unit reason 0 inc) s.serial e.msg.sender reason e.msg.dst
          (e.msg.chan * 256 + (e.msg.body[0]).toNat % 2 ^ 32 * 2 ^ 32) := fun u unit reason inc hu hserial h => by
    have htells := u.entryRefused_tells c e unit reason inc
    rw [hu, h, hserial] at htells
    exact htells
  refine ⟨fun hp hreq hvia hw hf => ?free, fun hm hreq hfirst hw hmay hcached hf hstays hstale hothers hpkg => ?waiting,
    fun hm hreq hfirst hph hd hcore hrun => ?left, fun tag a hp h => ?replaced, fun a hp he => ?answered, fun hm hu ht hr hlate => ?resend,
    fun hm hu ht hlate => ?lost, fun hm hb hlate => ?busy, fun hm hb hlate => ?timeout, fun dst killer kinc dom every reason first hp => ?kill⟩
  case free =>
    exact ⟨execMessageArrival_free_placed hn hp hreq hvia hw hf, execMessageArrival_free_full hn hp hreq hvia hw hf⟩
  case waiting =>
    exact execMessageArrival_waiting_lands hn hm.1 hm.2 hreq hfirst.1 hfirst.2 hw hmay hcached hf hstays hstale hothers hpkg
  case left =>
    subst hcore
    refine ⟨fun hearly hf htags => ?_, fun hb => ?_, fun hearly hb hfly => ?_⟩
    · exact execMessageArrival_left_lands hn hm.1 hm.2 hreq hfirst.1 hfirst.2 hph hd rfl hearly hf htags
    · exact execMessageArrival_left_behindBusy hn hm.1 hm.2 hreq hfirst.1 hfirst.2 hph hd hrun hb
    · exact execMessageArrival_left_early hn hm.1 hm.2 hreq hfirst.1 hfirst.2 hfly hd hrun hb hearly
  case replaced =>
    exact execSendAnswer_replaced hn hp h
  case answered =>
    have hown : e.id = id := by simpa using List.find?_some he
    refine ⟨fun ha => ?_, fun inc ha hlt => ?_, fun inc ha hlt => ?_, fun ha => ?_⟩ <;> subst ha
    · exact ⟨_, execSendAnswer_placed hn he hp, State.sends_endSend .., s.packet_take_endSend n c id, rfl⟩
    · obtain ⟨hsends, htold⟩ := hrefused (s.take n) e.core rNoproc inc rfl rfl hown
      exact ⟨_, execSendAnswer_noproc hn he hp, hsends, State.packet_take_entryRefused hlt .., htold⟩
    · obtain ⟨hsends, htold⟩ := hrefused (s.take n) e.core rOverflow inc rfl rfl hown
      exact ⟨_, execSendAnswer_overflow hn he hp, hsends, State.packet_take_entryRefused hlt .., htold⟩
    · exact execSendAnswer_stale hn he hp
  case resend =>
    exact execMessageResend_late hn hm.1 hm.2 hu ht hr hlate
  case lost =>
    exact ⟨_, execMessageIndeterminate_late hn hm.1 hm.2 hu ht hlate, hrefused s c rIndeterminate _ rfl rfl (hid hm)⟩
  case busy =>
    exact execMessageBusyResend_entry hn hm.1 hm.2 hb hlate
  case timeout =>
    exact ⟨_, execDeliveryTimeout_entry hn hm.1 hm.2 hb hlate, hrefused s c rTimeout _ rfl rfl (hid hm)⟩
  case kill =>
    exact ⟨execMessageBusyResend_kill hn hp, fun hlate =>
      ⟨_, execDeliveryTimeout_kill hn hp hlate, State.delivered_delivery _ _ _ _ _ _ _ _ rfl⟩⟩

end Sys2Proof.Machine
end

section
/-! SUPPORT. A signal placed on c3 (R176): what becomes of its actor, and that the link table has no part in it. -/

namespace Sys2Proof.Machine

/-! ## Cores that differ in their link table -/

/-- A core with another link table. -/
def Core.tied (k : Core) (l : SMap LinkEntry) : Core := { k with links := l }

section
variable (k : Core) (l : SMap LinkEntry)

theorem Core.recordErr_tied (i m : Nat) (v : W64) : (k.tied l).recordErr i m v = (k.recordErr i m v).tied l := by
  have hactor : (k.tied l).actor i = k.actor i := rfl
  simp only [Core.recordErr, hactor]
  cases (k.actor i).state <;> rfl

theorem Core.noteChan_tied (i c : Nat) : (k.tied l).noteChan i c = (k.noteChan i c).tied l := by
  have hbad : (k.tied l).badRun ((k.tied l).mailbox i + 16 * c) 8 = k.badRun (k.mailbox i + 16 * c) 8 := rfl
  simp only [Core.noteChan, Core.noteBad, hbad]
  split
  · exact k.recordErr_tied l ..
  · rfl

theorem Core.wake_tied (i now : Nat) : (k.tied l).wake i now = (k.wake i now).tied l := by
  have hrun : (k.tied l).anyRunnable i = k.anyRunnable i := rfl
  have hactor : (k.tied l).actor i = k.actor i := rfl
  simp only [Core.wake, hrun, hactor]
  split <;> rfl

theorem Core.placeEntry_tied (i c now : Nat) (hdr sender : W64) (m : Vector W64 8) :
    (k.tied l).placeEntry i c now hdr sender m = (k.placeEntry i c now hdr sender m).tied l := by
  have hwrite : ∀ (k : Core) a bs, (k.tied l).writeWords a bs = (k.writeWords a bs).tied l := fun _ _ _ => rfl
  have hset : ∀ (k : Core) d, (k.tied l).setChan i c d = (k.setChan i c d).tied l := fun _ _ => rfl
  have hchan : (k.tied l).chan i c = k.chan i c := rfl
  have hentry : ∀ n, (k.tied l).entryAt i n = k.entryAt i n := fun _ => rfl
  simp only [Core.placeEntry, hchan, hentry, Core.noteChan_tied, hwrite, hset, Core.wake_tied]

theorem Core.die_tied (i reason sub : Nat) (detail : W64) : (k.tied l).die i reason sub detail = (k.die i reason sub detail).tied l := by
  have hactor : (k.tied l).actor i = k.actor i := rfl
  simp only [Core.die, hactor]
  split
  · split <;> rfl
  · rfl

end

theorem Core.links_die (k : Core) (i reason sub : Nat) (detail : W64) : (k.die i reason sub detail).links = k.links := by
  simp only [Core.die]
  split
  · split <;> rfl
  · rfl

theorem Core.state_placeEntry (k : Core) (i c now : Nat) (hdr sender : W64) (m : Vector W64 8) (j : Nat) :
    ((k.placeEntry i c now hdr sender m).actor j).state = (k.actor j).state := by
  have h := congrArg Actor.state ((k.dressed_placeEntry i c now hdr sender m).2 j)
  exact h

/-! ## A signal that is neither TIMER nor DEVICE -/

section
variable {g : Signal} (ht : g.kind ≠ 5) (hd : g.kind ≠ 6)
include ht hd

theorem Core.placeSignal_plain (k : Core) (i now : Nat) : k.placeSignal i now g =
    if (k.chan i 3).cap ≤ (k.chan i 3).cnt + (k.actor i).resv[3] then k.die i rOverflow 0 3
    else k.placeEntry i 3 now (header mSignal 3 0 now) 0 g.words := by
  have hboth : ¬(g.kind = sTimer ∨ g.kind = sDevice) := not_or.2 ⟨ht, hd⟩
  have htimer : ¬(g.kind = sTimer ∧ (k.findSignal i sTimer none).isSome = true) := fun h => ht h.1
  simp only [Core.placeSignal, if_neg hboth, if_neg htimer, if_neg (show ¬g.kind = sDevice from hd)]

theorem Core.placeSignal_tied (k : Core) (l : SMap LinkEntry) (i now : Nat) : (k.tied l).placeSignal i now g = (k.placeSignal i now g).tied l := by
  have hchan : (k.tied l).chan i 3 = k.chan i 3 := rfl
  have hactor : (k.tied l).actor i = k.actor i := rfl
  rw [Core.placeSignal_plain ht hd, Core.placeSignal_plain ht hd, hchan, hactor]
  split
  · exact k.die_tied l ..
  · exact k.placeEntry_tied l ..

/-- An actor on whose c3 a signal has been placed lives on, or has died of the overflow. -/
theorem Core.state_placeSignal (k : Core) (i now : Nat) : ((k.placeSignal i now g).actor i).state = (k.actor i).state ∨
    ((k.placeSignal i now g).actor i).state = .dying := by
  rw [Core.placeSignal_plain ht hd]
  split
  · by_cases hm : (k.actor i).state.mortal = true
    · exact .inr (Core.actor_die hm ..).1
    · exact .inl (by rw [Core.die]; simp only [if_neg hm])
  · exact .inl (k.state_placeEntry ..)

/-- Where c3 has a place for the signal, its actor lives on. -/
theorem Core.state_placeSignal_fits {k : Core} {i : Nat} (now : Nat) (h : (k.chan i 3).cnt + (k.actor i).resv[3] < (k.chan i 3).cap) :
    ((k.placeSignal i now g).actor i).state = (k.actor i).state := by
  rw [Core.placeSignal_plain ht hd, if_neg (Nat.not_le.2 h)]
  exact k.state_placeEntry ..

/-- An actor that is told and then ended dies, of that end where c3 had a place. -/
theorem Core.die_placeSignal {k : Core} {i : Nat} (now reason : Nat) (hm : (k.actor i).state.mortal = true) :
    (((k.placeSignal i now g).die i reason 0 0).actor i).state = .dying ∧
      ((k.chan i 3).cnt + (k.actor i).resv[3] < (k.chan i 3).cap →
        (((k.placeSignal i now g).die i reason 0 0).actor i).dying = some { reason := reason, sub := 0, detail := 0 }) := by
  constructor
  · rcases Core.state_placeSignal ht hd k i now with h | h
    · exact (Core.actor_die (by rw [h]; exact hm) ..).1
    · rw [Core.die_of_dying h, h]
  · intro hfits
    exact (Core.actor_die (by rw [Core.state_placeSignal_fits ht hd now hfits]; exact hm) ..).2

end

end Sys2Proof.Machine
end

section
/-! SUPPORT. Whom a signal finds, and the arrivals of DELIVERY, TIMER, DEVICE, DOWN and EXIT (R158, R165, R176). -/

namespace Sys2Proof.Machine

/-! ## Whom a signal finds (R165) -/

/-- A signal finds its receiver in a slot of a core that runs, under the incarnation it was generated for, and no cut of its domain under way. -/
def State.Heard (s : State) (g : Signal) (c i : Nat) : Prop :=
  s.who g.dst = .actor c i ∧ (s.actor c i).incarn = g.inc ∧ (s.pkg (corePkg c)).runs = true ∧ s.cut (s.actor c i).domain = false

/-- A signal finds nobody: its receiver's name stands for none, or for another incarnation. -/
def State.Unheard (s : State) (g : Signal) : Prop := s.hears g = .nobody

section
variable {s : State} {g : Signal} {c i : Nat}

theorem State.hears_of_heard (h : s.Heard g c i) : s.hears g = .actor c i := by
  obtain ⟨hwho, hinc, -, -⟩ := h
  rw [State.hears, hwho]
  exact if_pos hinc

theorem State.unheard_of_nobody (h : s.who g.dst = .nobody) : s.Unheard g := by
  rw [State.Unheard, State.hears, h]

theorem State.unheard_of_incarn (h : s.who g.dst = .actor c i) (hne : (s.actor c i).incarn ≠ g.inc) : s.Unheard g := by
  rw [State.Unheard, State.hears, h]
  exact if_neg hne

/-- An actor that a name stands for can be ended. -/
theorem State.mortal_of_who {name : W64} (h : s.who name = .actor c i) : (s.actor c i).state.mortal = true := by
  have hlives : ∀ st : ActState, st.accepts = true → st.mortal = true := fun st hst => by
    cases st with
    | free | dying => exact hst
    | _ => rfl
  unfold State.who at h
  split at h
  · cases h
  · dsimp only at h
    split at h
    · cases h
    · split at h
      · cases h
      · split at h
        · rename_i hok
          cases h
          exact hlives _ hok.2.1
        · cases h
    · cases h

end

/-! ## The step of a signal -/

section
variable {s : State} {n c i : Nat} {p : Packet} {g : Signal} (hn : s.packet n = some p) (hp : p.pay = .signal g)
include hn hp

theorem State.signalAt_of_packet : s.signalAt n = some g := by simp only [State.signalAt, hn, hp]

section
variable {kinds : Nat → Bool} (hk : kinds g.kind = true) (atCore : State → Nat → Nat → Signal → State) (atPort : Package → Signal → Package)
  (lost : State → Signal → State)
include hk

theorem State.signalStep_heard (h : s.Heard g c i) : s.signalStep n kinds atCore atPort lost = some (atCore (s.take n) c i g) := by
  have hhears := State.hears_of_heard h
  obtain ⟨-, -, hruns, hcut⟩ := h
  simp [State.signalStep, State.signalAt_of_packet hn hp, hk, hhears, hruns, hcut]

theorem State.signalStep_unheard (h : s.Unheard g) : s.signalStep n kinds atCore atPort lost = some (lost (s.take n) g) := by
  have hhears : s.hears g = .nobody := h
  simp [State.signalStep, State.signalAt_of_packet hn hp, hk, hhears]

end

theorem execSignalArrival_heard (hk : g.kind ∈ [4, 5, 6]) (h : s.Heard g c i) : execSignalArrival n s = .next ((s.take n).placeAt c i g) := by
  rw [execSignalArrival, evSignalArrival, State.signalStep_heard hn hp (by simpa [sDelivery, sTimer, sDevice, or_assoc] using hk) _ _ _ h, Option.getD_some]

theorem execSignalArrival_unheard (hk : g.kind ∈ [4, 5, 6]) (h : s.Unheard g) : execSignalArrival n s = .next (s.take n) := by
  rw [execSignalArrival, evSignalArrival, State.signalStep_unheard hn hp (by simpa [sDelivery, sTimer, sDevice, or_assoc] using hk) _ _ _ h,
    Option.getD_some]

theorem execDownArrival_heard (hk : g.kind = 2) (h : s.Heard g c i) : execDownArrival n s = .next ((s.take n).downAt c i g) := by
  rw [execDownArrival, evDownArrival, State.signalStep_heard hn hp (kinds := (· == sDown)) (beq_iff_eq.2 hk) _ _ _ h, Option.getD_some]

theorem execDownArrival_unheard (hk : g.kind = 2) (h : s.Unheard g) : execDownArrival n s = .next (s.take n) := by
  rw [execDownArrival, evDownArrival, State.signalStep_unheard hn hp (kinds := (· == sDown)) (beq_iff_eq.2 hk) _ _ _ h, Option.getD_some]

theorem execExitArrival_heard (hk : g.kind = 1) (h : s.Heard g c i) : execExitArrival n s = .next ((s.take n).exitAt c i g) := by
  rw [execExitArrival, evExitArrival, State.signalStep_heard hn hp (kinds := (· == sExit)) (beq_iff_eq.2 hk) _ _ _ h, Option.getD_some]

theorem execExitArrival_unheard (hk : g.kind = 1) (h : s.Unheard g) : execExitArrival n s = .next (s.take n) := by
  rw [execExitArrival, evExitArrival, State.signalStep_unheard hn hp (kinds := (· == sExit)) (beq_iff_eq.2 hk) _ _ _ h, Option.getD_some]

theorem execChildExitArrival_heard (hk : g.kind = 3) (h : s.Heard g c i) : execChildExitArrival n s = .next ((s.take n).childExitAt c i g) := by
  rw [execChildExitArrival, evChildExitArrival, State.signalStep_heard hn hp (kinds := (· == sChildExit)) (beq_iff_eq.2 hk) _ _ _ h, Option.getD_some]

/-- A signal of any kind but CHILD_EXIT that finds nobody is dropped. -/
theorem exec_arrival_unheard (hk : g.kind ∈ [1, 2, 4, 5, 6]) (h : s.Unheard g) :
    exec (if g.kind = 1 then .exitArrival n else if g.kind = 2 then .downArrival n else .signalArrival n) s = .next (s.take n) := by
  by_cases h1 : g.kind = 1
  · rw [if_pos h1, exec_exitArrival, execExitArrival_unheard hn hp h1 h]
  by_cases h2 : g.kind = 2
  · rw [if_neg h1, if_pos h2, exec_downArrival, execDownArrival_unheard hn hp h2 h]
  · rw [if_neg h1, if_neg h2, exec_signalArrival, execSignalArrival_unheard hn hp (by simpa [h1, h2] using hk) h]

end

/-! ## EXIT at its receiver (R158, R308) -/

/-- The link entry that an EXIT ends: one for its sender, of the incarnation that has died. -/
def Signal.unties (g : Signal) (i : Nat) (e : LinkEntry) : Bool := e.ties 1 i g.subject && (g.linkAnswer || e.pinc == g.sinc)

/-- An EXIT counts at its receiver: it answers a LINK, or a link entry stands for the incarnation that has died. -/
def Core.Tied (k : Core) (i : Nat) (g : Signal) : Prop :=
  g.linkAnswer = true ∨ ∃ l ∈ k.links, l.2.kind = 1 ∧ l.2.slot = i ∧ l.2.peer = g.subject ∧ l.2.pinc = g.sinc

theorem Core.tied_iff (k : Core) (i : Nat) (g : Signal) :
    (!k.links.any (fun p => g.unties i p.2) && !g.linkAnswer) = true ↔ ¬k.Tied i g := by
  cases h : g.linkAnswer <;> simp [Core.Tied, Signal.unties, LinkEntry.ties, h, and_assoc]

/-- The state in which an EXIT has ended its link entry. -/
def State.untied (s : State) (c i : Nat) (g : Signal) : State := s.onCore c (·.dropLinks (g.unties i))

section
variable {s : State} {c i : Nat} {g : Signal}

theorem State.exitAt_of_not_tied (h : ¬(s.core c).Tied i g) : s.exitAt c i g = s := if_pos ((Core.tied_iff ..).2 h)

theorem State.exitAt_of_tied (h : (s.core c).Tied i g) : s.exitAt c i g =
    if ((s.core c).actor i).trapexit = true then (s.untied c i g).placeAt c i g
    else if abnormal g.reason = true then (s.untied c i g).onCore c (·.die i rLinked 0 (BitVec.ofNat 64 g.reason)) else s.untied c i g :=
  if_neg fun hn => (Core.tied_iff ..).1 hn h

theorem State.core_untied (s : State) (c i : Nat) (g : Signal) :
    (s.untied c i g).core c = (s.core c).tied ((s.core c).links.filter fun l => !g.unties i l.2) := State.core_onCore_same ..

/-- The core of an actor that traps exits, once an EXIT that counts is placed. -/
theorem State.core_untied_placeAt (s : State) (c i : Nat) (hk : g.kind = 1) : ((s.untied c i g).placeAt c i g).core c =
    ((s.core c).placeSignal i (s.now c) g).tied ((s.core c).links.filter fun l => !g.unties i l.2) := by
  have ht : g.kind ≠ 5 := by omega
  have hd : g.kind ≠ 6 := by omega
  rw [State.placeAt, State.core_onCore_same, State.core_untied, Core.placeSignal_tied ht hd]
  rfl

theorem abnormal_iff (reason : Nat) : abnormal reason = true ↔ 2 ≤ reason := by
  simp only [abnormal, rNormal, rSucceeded, Bool.and_eq_true, bne_iff_ne]
  omega

end

end Sys2Proof.Machine
end

section
/-! SUPPORT. CHILD_EXIT at its supervisor (R160): the scope it ends, the rule that restarts the child or not, and the siblings that a restart takes. -/

namespace Sys2Proof.Machine

/-! ## A child that is given up -/

/-- What every name that goes keeps, giving a child up keeps. -/
theorem State.giveUp_keeps {P : State → Prop} (hP : ∀ s name, P s → P (State.nameGone s name)) {s : State} (h : P s) (g : Signal) : P (s.giveUp g) := by
  have htree : ∀ n (s : State) name, P s → P (State.giveUpTree n s name) := by
    intro n
    induction n with
    | zero => exact fun _ _ h => h
    | succ n ih =>
      intro s name h
      rw [State.giveUpTree]
      split
      · split
        · exact List.foldlRecOn (motive := P) _ _ (hP s name h) fun t ht x _ => ih t x ht
        · exact h
      · exact h
  refine List.foldlRecOn (motive := P) g.revive _ ?_ fun t ht x _ => htree _ t x ht
  split
  · exact htree _ s _ h
  · exact h

theorem State.cycle_nameGone (s : State) (name : W64) (p : Nat) : (s.nameGone name).cycle p = s.cycle p := by
  have hfree : (s.freeName name).cycle p = s.cycle p :=
    SMap.get_mapVals (P := fun q : Package => q.cycle = s.cycle p)
      (f := fun _ q => { q with thresholds := q.thresholds.filter fun h => h.2.target != name }) (fun _ _ h => h) (m := s.pkgs) rfl
  unfold State.nameGone State.flockDown
  split
  · exact hfree
  · split <;> exact hfree

/-- Giving a child up changes no core and no clock. -/
theorem State.giveUp_frame (s : State) (g : Signal) : (s.giveUp g).cores = s.cores ∧ ∀ p, (s.giveUp g).cycle p = s.cycle p :=
  State.giveUp_keeps (P := fun t => t.cores = s.cores ∧ ∀ p, t.cycle p = s.cycle p)
    (fun t name h => ⟨(t.freed_nameGone name).1.trans h.1, fun p => (t.cycle_nameGone name p).trans (h.2 p)⟩) ⟨rfl, fun _ => rfl⟩ g

theorem State.core_giveUp (s : State) (g : Signal) (c : Nat) : (s.giveUp g).core c = s.core c := by
  rw [State.core, (s.giveUp_frame g).1, State.core]

/-- A given-up child is told of, in the cycle that its supervisor's core counts. -/
theorem State.placeAt_giveUp (s : State) (c i : Nat) (g h : Signal) :
    (s.giveUp g).placeAt c i h = (s.giveUp g).onCore c fun q => q.placeSignal i (s.now c) h := by
  have hnow : (s.giveUp g).now c = s.now c := (s.giveUp_frame g).2 _
  rw [State.placeAt, hnow]

/-! ## The end that a scope waits for -/

theorem State.runScope_frame (s : State) (x : Scope) :
    (s.runScope x).cores = s.cores ∧ (s.runScope x).scopes = s.scopes ∧ ∀ p, (s.runScope x).cycle p = s.cycle p := by
  unfold State.runScope
  split
  · exact List.foldlRecOn (motive := fun t : State => t.cores = s.cores ∧ t.scopes = s.scopes ∧ ∀ p, t.cycle p = s.cycle p) _ _
      ⟨rfl, rfl, fun _ => rfl⟩ fun _ h _ _ => h
  · exact ⟨rfl, rfl, fun _ => rfl⟩

/-- A scope that waits for a death of its supervisor's child. -/
def Scope.awaits (supv name : W64) (x : Scope) : Bool := x.supv == supv && x.waiting.contains name

/-- A scope that waits for a name no longer. -/
def Scope.without (name : W64) (x : Scope) : Scope := { x with waiting := x.waiting.filter (· != name) }

theorem State.scopeDeath_frame (s : State) (supv name : W64) : (s.scopeDeath supv name).cores = s.cores ∧
    (s.scopeDeath supv name).scopes = (s.scopes.map fun x => if x.awaits supv name then x.without name else x) ∧
    ∀ p, (s.scopeDeath supv name).cycle p = s.cycle p :=
  List.foldlRecOn (motive := fun t : State => t.cores = s.cores ∧
      t.scopes = (s.scopes.map fun x => if x.awaits supv name then x.without name else x) ∧ ∀ p, t.cycle p = s.cycle p) _ _
    ⟨rfl, rfl, fun _ => rfl⟩ fun t h x _ =>
      have hrun := t.runScope_frame (x.without name)
      ⟨hrun.1.trans h.1, hrun.2.1.trans h.2.1, fun p => (hrun.2.2 p).trans (h.2.2 p)⟩

/-- Once a death has come, no scope of the supervisor waits for it. -/
theorem State.inScope_scopeDeath (s : State) (supv name : W64) : (s.scopeDeath supv name).inScope supv name = false := by
  obtain ⟨-, hscopes, -⟩ := s.scopeDeath_frame supv name
  rw [State.inScope, hscopes, List.any_eq_false]
  intro y hy
  obtain ⟨x, -, rfl⟩ := List.mem_map.1 hy
  by_cases hx : x.awaits supv name = true
  · simp [hx, Scope.without]
  · rw [if_neg hx]
    exact hx

theorem State.childExitAt_inScope {s : State} {c i : Nat} {g : Signal} (h : s.inScope g.dst g.subject = true) :
    s.childExitAt c i g = (s.scopeDeath g.dst g.subject).placeAt c i { g with sub := 4 } := by
  simp only [State.childExitAt, h]
  rfl

/-- The core of a supervisor that hears of a child that its scope ended. -/
theorem State.core_placeAt_scopeDeath (s : State) (supv name : W64) (c i : Nat) (g : Signal) :
    ((s.scopeDeath supv name).placeAt c i g).core c = (s.core c).placeSignal i (s.now c) g := by
  obtain ⟨hcores, -, hcycle⟩ := s.scopeDeath_frame supv name
  have hcore : (s.scopeDeath supv name).core c = s.core c := by rw [State.core, hcores, State.core]
  have hnow : (s.scopeDeath supv name).now c = s.now c := hcycle _
  rw [State.placeAt, State.core_onCore_same, hcore, hnow]

/-! ## The rule of a child (R159, R160) -/

theorem SupEntry.restarts_iff (r : SupEntry) (reason : Nat) :
    r.restarts reason = true ↔ reason ≠ 1 ∧ (r.mode = 0 ∨ r.mode = 1 ∧ reason ≠ 0) := by
  simp [SupEntry.restarts, rSucceeded, rNormal]

/-- The restarts of a rule that count against its limit. -/
def SupEntry.recent (r : SupEntry) (now : Nat) : Nat := (r.stamps.filter fun st => decide ((now + 2 ^ 32 - st) % 2 ^ 32 < r.window)).length

section
variable {s : State} {c i x : Nat} {g : Signal} {r : SupEntry} (h : s.inScope g.dst g.subject = false)
include h

theorem State.childExitAt_noRule (hr : (s.core c).ruleOf i g.subject = none) :
    s.childExitAt c i g = (s.giveUp g).placeAt c i { g with sub := 1 } := by
  simp only [State.childExitAt, h, hr]
  rfl

variable (hr : (s.core c).ruleOf i g.subject = some (x, r))
include hr

theorem State.childExitAt_ended (he : r.restarts g.reason = false) : s.childExitAt c i g = (s.giveUp g).placeAt c i { g with sub := 1 } := by
  simp only [State.childExitAt, h, hr, he]
  rfl

variable (he : r.restarts g.reason = true)
include he

theorem State.childExitAt_limit (hm : r.maxr ≤ r.recent (s.now c)) :
    s.childExitAt c i g = ((s.giveUp g).placeAt c i { g with sub := 3 }).onCore c (·.die i rRestartLimit 0 0) := by
  simp only [State.childExitAt, h, hr, he]
  exact if_pos hm

theorem State.childExitAt_restarts (hm : r.recent (s.now c) < r.maxr) : s.childExitAt c i g = s.restartScope c i g x r := by
  simp only [State.childExitAt, h, hr, he]
  exact if_neg (Nat.not_le.2 hm)

end

/-! ## A restart with its scope -/

/-- The rules of a core once a restart has taken its stamp. -/
def Core.stamped (k : Core) (x : Nat) (r : SupEntry) (now : Nat) : SMap SupEntry :=
  k.sups.put x { r with stamps := (now % 2 ^ 32 :: r.stamps).take 16 }

/-- The state in which a restart has taken its stamp. -/
def State.stamp (s : State) (c x : Nat) (r : SupEntry) : State := s.onCore c fun k => { k with sups := k.stamped x r (s.now c) }

/-- The siblings that a restart takes end. -/
def State.killAll (s : State) (es : List DirEntry) : State := es.foldl (fun s d => s.onCore d.core (·.die d.slot rKilled 0 0)) s

/-- The scope of a restart, that of the dead child and of the siblings that it takes. -/
def Signal.scope (g : Signal) (es : List DirEntry) : Scope :=
  { supv := g.dst, supvInc := g.inc, trigger := { g with sub := 0 }, members := ascending (g.restart :: es.map DirEntry.restart)
    waiting := es.map (·.name) }

/-- The state in which a restart's scope stands and its siblings are ended. -/
def State.scoped (s : State) (g : Signal) (es : List DirEntry) : State :=
  let t := s.killAll es
  ({ t with scopes := t.scopes ++ [g.scope es] } : State).reenter g

theorem State.restartScope_eq (s : State) (c i : Nat) (g : Signal) (x : Nat) (r : SupEntry) :
    s.restartScope c i g x r = ((s.stamp c x r).scoped g ((s.stamp c x r).taken c i g r.rule r.strat)).runScope
      (g.scope ((s.stamp c x r).taken c i g r.rule r.strat)) := rfl

/-- A name that is entered again changes the directory only. -/
theorem State.reenter_frame (s : State) (g : Signal) :
    (s.reenter g).cores = s.cores ∧ (s.reenter g).scopes = s.scopes ∧ (s.reenter g).serial = s.serial := by
  unfold State.reenter
  split <;> exact ⟨rfl, rfl, rfl⟩

theorem State.scoped_frame (s : State) (g : Signal) (es : List DirEntry) :
    (s.scoped g es).cores = (s.killAll es).cores ∧ g.scope es ∈ (s.scoped g es).scopes ∧ (s.scoped g es).serial = (s.killAll es).serial := by
  obtain ⟨hcores, hscopes, hserial⟩ := State.reenter_frame { s.killAll es with scopes := (s.killAll es).scopes ++ [g.scope es] } g
  exact ⟨hcores, hscopes ▸ List.mem_append_right _ (List.mem_singleton.2 rfl), hserial⟩

/-- What a restart leaves: the cores with the siblings ended, and the scope, run where it waits for nobody. -/
theorem State.runScope_scoped_frame (s : State) (g : Signal) (es : List DirEntry) :
    ((s.scoped g es).runScope (g.scope es)).cores = (s.killAll es).cores ∧ g.scope es ∈ ((s.scoped g es).runScope (g.scope es)).scopes := by
  obtain ⟨hcores, hmem, -⟩ := s.scoped_frame g es
  obtain ⟨hcores', hscopes', -⟩ := (s.scoped g es).runScope_frame (g.scope es)
  exact ⟨hcores'.trans hcores, hscopes' ▸ hmem⟩

/-- A member of a scope keeps what it was asked for under; only the children to revive come from the directory. -/
theorem State.reviving_spec (s : State) (q : Restart) :
    (s.reviving q).name = q.name ∧ (s.reviving q).inc = q.inc ∧ (s.reviving q).supv = q.supv ∧ (s.reviving q).core = q.core := by
  unfold State.reviving
  split <;> exact ⟨rfl, rfl, rfl, rfl⟩

/-- A restart that takes no sibling is sent to Bellwether at once. -/
theorem State.runScope_alone (s : State) (g : Signal) :
    s.runScope (g.scope []) = s.post (s.bellwetherOf g.restart) (.restart (s.reviving g.restart)) := by
  have hmembers : (g.scope []).members = [g.restart] := List.mergeSort_singleton _
  rw [State.runScope, hmembers]
  rfl

/-- The members of a scope are the dead child and the siblings. -/
theorem Signal.mem_scope (g : Signal) (es : List DirEntry) (name : W64) :
    (∃ q ∈ (g.scope es).members, q.name = name) ↔ name = g.subject ∨ ∃ e ∈ es, e.name = name := by
  have hmem : ∀ q, q ∈ (g.scope es).members ↔ q = g.restart ∨ ∃ e ∈ es, e.restart = q := fun q => by
    simp only [Signal.scope, ascending, List.mem_mergeSort, List.mem_cons, List.mem_map]
  constructor
  · rintro ⟨q, hq, rfl⟩
    rcases (hmem q).1 hq with rfl | ⟨e, he, rfl⟩
    · exact .inl rfl
    · exact .inr ⟨e, he, rfl⟩
  · rintro (rfl | ⟨e, he, rfl⟩)
    · exact ⟨_, (hmem _).2 (.inl rfl), rfl⟩
    · exact ⟨_, (hmem _).2 (.inr ⟨e, he, rfl⟩), rfl⟩

/-! ## The siblings that are ended -/

/-- An actor that has been ended by a kill. -/
def Actor.Killed (a : Actor) : Prop := a.state = .dying ∧ a.dying = some { reason := rKilled, sub := 0, detail := 0 }

/-- A kill leaves an actor killed that was, and one of the slot that could be ended. -/
theorem State.killed_kill {s : State} {c i : Nat} (e : DirEntry)
    (h : (s.actor c i).Killed ∨ (s.actor c i).state.mortal = true ∧ e.core = c ∧ e.slot = i) :
    ((s.onCore e.core (·.die e.slot rKilled 0 0)).actor c i).Killed := by
  rcases h with h | ⟨hm, rfl, rfl⟩
  · rcases eq_or_ne c e.core with rfl | hc
    · rw [State.actor_onCore_same]
      rcases eq_or_ne i e.slot with rfl | hi
      · rw [Core.die_of_dying h.1]
        exact h
      · rw [Core.actor_die_ne _ hi]
        exact h
    · rw [State.actor_onCore_ne _ _ _ hc]
      exact h
  · rw [State.actor_onCore_same]
    exact Core.actor_die hm ..

/-- A kill of another slot leaves an actor as it was. -/
theorem State.actor_kill_ne (s : State) {c i : Nat} {e : DirEntry} (h : ¬(e.core = c ∧ e.slot = i)) :
    (s.onCore e.core (·.die e.slot rKilled 0 0)).actor c i = s.actor c i := by
  rcases eq_or_ne c e.core with rfl | hc
  · rw [State.actor_onCore_same, Core.actor_die_ne _ fun hi => h ⟨rfl, hi.symm⟩]
    rfl
  · exact State.actor_onCore_ne _ _ _ hc

theorem State.killed_killAll {c i : Nat} {es : List DirEntry} {s : State}
    (h : (s.actor c i).Killed ∨ (s.actor c i).state.mortal = true ∧ ∃ e ∈ es, e.core = c ∧ e.slot = i) : ((s.killAll es).actor c i).Killed := by
  induction es generalizing s with
  | nil =>
    rcases h with h | ⟨-, e, he, -⟩
    · exact h
    · cases he
  | cons d es ih =>
    refine ih ?_
    rcases h with h | ⟨hm, hex⟩
    · exact .inl (State.killed_kill d (.inl h))
    · by_cases hd : d.core = c ∧ d.slot = i
      · exact .inl (State.killed_kill d (.inr ⟨hm, hd⟩))
      · obtain ⟨e, he, hei⟩ := hex
        rcases List.mem_cons.1 he with rfl | he
        · exact absurd hei hd
        · exact .inr ⟨by rw [State.actor_kill_ne s hd]; exact hm, e, he, hei⟩

/-- A stamp changes no actor. -/
theorem State.actor_stamp (s : State) (c x : Nat) (r : SupEntry) (d j : Nat) : (s.stamp c x r).actor d j = s.actor d j := by
  rcases eq_or_ne d c with rfl | hd
  · rw [State.stamp, State.actor_onCore_same]
    rfl
  · exact State.actor_onCore_ne _ _ _ hd

/-- GROUP and TAIL: the siblings that a restart takes, by the rules of the supervisor's core. -/
theorem State.taken_stamp {s : State} {c i x : Nat} {g : Signal} {r : SupEntry} (h : r.strat ≠ 0) :
    (s.stamp c x r).taken c i g r.rule r.strat = (s.childrenOf g.dst).filter fun e => e.name != g.subject &&
      ((({ s.core c with sups := (s.core c).stamped x r (s.now c) } : Core).ruleOf i e.name).map fun q => q.2.rule) == some r.rule &&
      s.supGroup e.name == s.supGroup g.subject && (r.strat == 1 || decide (indexOf g.subject < indexOf e.name)) := by
  rw [State.taken, if_neg h, State.stamp]
  simp only [State.core_onCore_same]
  rfl

/-- SOLE: the stamp is taken, and the restart goes to Bellwether. -/
theorem State.restartScope_sole {s : State} {c i x : Nat} {g : Signal} {r : SupEntry} (h : r.strat = 0) :
    ∃ t m q, s.restartScope c i g x r = t ∧ (t.core c).sups = (s.core c).stamped x r (s.now c) ∧ (t.core c).mem = (s.core c).mem ∧
      t.packet s.serial = some m ∧ m.pay = .restart q ∧ q.name = g.subject ∧ q.inc = g.sinc ∧ q.supv = g.dst ∧ q.core = g.core := by
  have htaken : (s.stamp c x r).taken c i g r.rule r.strat = [] := if_pos h
  obtain ⟨hcores, -, hserial⟩ := (s.stamp c x r).scoped_frame g []
  have hcore : ((s.stamp c x r).scoped g []).core c = { s.core c with sups := (s.core c).stamped x r (s.now c) } := by
    rw [State.core, hcores, ← State.core]
    exact s.core_onCore_same c fun k => { k with sups := k.stamped x r (s.now c) }
  have hpost := ((s.stamp c x r).scoped g []).packet_post (((s.stamp c x r).scoped g []).bellwetherOf g.restart)
    (.restart (((s.stamp c x r).scoped g []).reviving g.restart))
  rw [hserial] at hpost
  rw [State.restartScope_eq, htaken, State.runScope_alone]
  refine ⟨_, _, _, rfl, ?_, ?_, hpost, rfl, State.reviving_spec _ g.restart⟩ <;> rw [State.core_post, hcore]

/-- GROUP and TAIL: the live siblings are ended, and the scope waits for them. -/
theorem State.restartScope_takes (s : State) (c i : Nat) (g : Signal) (x : Nat) (r : SupEntry) :
    (∀ e ∈ (s.stamp c x r).taken c i g r.rule r.strat, (s.actor e.core e.slot).state.mortal = true →
      ((s.restartScope c i g x r).actor e.core e.slot).Killed) ∧
    g.scope ((s.stamp c x r).taken c i g r.rule r.strat) ∈ (s.restartScope c i g x r).scopes := by
  obtain ⟨hcores, hscope⟩ := (s.stamp c x r).runScope_scoped_frame g ((s.stamp c x r).taken c i g r.rule r.strat)
  rw [State.restartScope_eq]
  refine ⟨fun e he hm => ?_, hscope⟩
  rw [State.actor, State.core, hcores, ← State.core, ← State.actor]
  refine State.killed_killAll (.inr ⟨?_, e, he, rfl, rfl⟩)
  rw [State.actor_stamp]
  exact hm

end Sys2Proof.Machine
end

section
/-! CERTIFICATES. The arrivals of EXIT and CHILD_EXIT, case by case (R158, R160). -/

namespace Sys2Proof.Machine

section
variable {s : State} {n c i : Nat} {p : Packet} {g : Signal} (hn : s.packet n = some p) (hp : p.pay = .signal g) (h : s.Heard g c i)
include hn hp h

/-! ## EXIT -/

section
variable (hk : g.kind = 1)
include hk

theorem execExitArrival_not_tied (ht : ¬(s.core c).Tied i g) : execExitArrival n s = .next (s.take n) := by
  rw [execExitArrival_heard hn hp hk h, State.exitAt_of_not_tied (s := s.take n) ht]

variable (ht : (s.core c).Tied i g)
include ht

theorem execExitArrival_places (htrap : (s.actor c i).trapexit = true) : ∃ t, execExitArrival n s = .next t ∧
    (t.core c).links = ((s.core c).links.filter fun l => !g.unties i l.2) ∧ (t.core c).mem = ((s.core c).placeSignal i (s.now c) g).mem := by
  have hcore := (s.take n).core_untied_placeAt c i hk
  refine ⟨_, (execExitArrival_heard hn hp hk h).trans (congrArg _ ((State.exitAt_of_tied (s := s.take n) ht).trans (if_pos htrap))), ?_, ?_⟩ <;> rw [hcore]
  · rfl
  · rfl

variable (htrap : (s.actor c i).trapexit = false)
include htrap

theorem execExitArrival_links (hr : 2 ≤ g.reason) : ∃ t, execExitArrival n s = .next t ∧
    (t.core c).links = ((s.core c).links.filter fun l => !g.unties i l.2) ∧ (t.actor c i).state = .dying ∧
    (t.actor c i).dying = some { reason := 3, sub := 0, detail := BitVec.ofNat 64 g.reason } := by
  have hnot : ¬((s.take n).core c |>.actor i).trapexit = true := Bool.eq_false_iff.1 htrap
  refine ⟨_, (execExitArrival_heard hn hp hk h).trans (congrArg _ ((State.exitAt_of_tied (s := s.take n) ht).trans
    ((if_neg hnot).trans (if_pos ((abnormal_iff _).2 hr))))), ?_, ?_⟩
  · rw [State.core_onCore_same, Core.links_die, State.core_untied]
    rfl
  · rw [State.actor_onCore_same, State.core_untied]
    have hmortal := State.mortal_of_who h.1
    exact Core.actor_die (by exact hmortal) ..

theorem execExitArrival_ends (hr : g.reason < 2) : ∃ t, execExitArrival n s = .next t ∧
    (t.core c).links = ((s.core c).links.filter fun l => !g.unties i l.2) ∧ (t.core c).slots = (s.core c).slots ∧ (t.core c).mem = (s.core c).mem := by
  have hnot : ¬((s.take n).core c |>.actor i).trapexit = true := Bool.eq_false_iff.1 htrap
  refine ⟨_, (execExitArrival_heard hn hp hk h).trans (congrArg _ ((State.exitAt_of_tied (s := s.take n) ht).trans
    ((if_neg hnot).trans (if_neg fun ha => Nat.not_le.2 hr ((abnormal_iff _).1 ha))))), ?_⟩
  rw [State.core_untied]
  exact ⟨rfl, rfl, rfl⟩

end

/-! ## CHILD_EXIT -/

section
variable (hk : g.kind = 3)
include hk

theorem execChildExitArrival_inScope (hin : s.inScope g.dst g.subject = true) : ∃ t, execChildExitArrival n s = .next t ∧
    t.inScope g.dst g.subject = false ∧ t.core c = (s.core c).placeSignal i (s.now c) { g with sub := 4 } := by
  refine ⟨_, (execChildExitArrival_heard hn hp hk h).trans (congrArg _ (State.childExitAt_inScope (s := s.take n) hin)), ?_, ?_⟩
  · exact State.inScope_scopeDeath ..
  · exact State.core_placeAt_scopeDeath ..

variable (hin : s.inScope g.dst g.subject = false)
include hin

theorem execChildExitArrival_noRule (hr : (s.core c).ruleOf i g.subject = none) : execChildExitArrival n s =
    .next (((s.take n).giveUp g).onCore c fun q => q.placeSignal i (s.now c) { g with sub := 1 }) := by
  rw [execChildExitArrival_heard hn hp hk h, State.childExitAt_noRule (s := s.take n) hin hr, State.placeAt_giveUp]
  rfl

variable {x : Nat} {r : SupEntry} (hr : (s.core c).ruleOf i g.subject = some (x, r))
include hr

theorem execChildExitArrival_ended (he : r.restarts g.reason = false) : execChildExitArrival n s =
    .next (((s.take n).giveUp g).onCore c fun q => q.placeSignal i (s.now c) { g with sub := 1 }) := by
  rw [execChildExitArrival_heard hn hp hk h, State.childExitAt_ended (s := s.take n) hin hr he, State.placeAt_giveUp]
  rfl

variable (he : r.restarts g.reason = true)
include he

theorem execChildExitArrival_restarts (hm : r.recent (s.now c) < r.maxr) :
    execChildExitArrival n s = .next ((s.take n).restartScope c i g x r) := by
  rw [execChildExitArrival_heard hn hp hk h, State.childExitAt_restarts (s := s.take n) hin hr he hm]

/-- Beyond the limit the supervisor is told and ended. -/
theorem execChildExitArrival_limit (hm : r.maxr ≤ r.recent (s.now c)) (hmortal : (s.actor c i).state.mortal = true) :
    ∃ t, execChildExitArrival n s = .next t ∧ (t.actor c i).state = .dying ∧
      (((s.core c).chan i 3).cnt + (s.actor c i).resv[3] < ((s.core c).chan i 3).cap →
        (t.actor c i).dying = some { reason := 0x43, sub := 0, detail := 0 } ∧
          (t.core c).mem = ((s.core c).placeSignal i (s.now c) { g with sub := 3 }).mem) := by
  have ht : ({ g with sub := 3 } : Signal).kind ≠ 5 := fun hn => absurd (hk.symm.trans hn) (by decide)
  have hd : ({ g with sub := 3 } : Signal).kind ≠ 6 := fun hn => absurd (hk.symm.trans hn) (by decide)
  obtain ⟨hdies, hfits⟩ := Core.die_placeSignal ht hd (s.now c) rRestartLimit hmortal
  have hcore : (((s.take n).giveUp g).placeAt c i { g with sub := 3 }).core c = (s.core c).placeSignal i (s.now c) { g with sub := 3 } := by
    rw [State.placeAt_giveUp, State.core_onCore_same, State.core_giveUp]
    rfl
  refine ⟨_, (execChildExitArrival_heard hn hp hk h).trans (congrArg _ (State.childExitAt_limit (s := s.take n) hin hr he hm)), ?_, fun hroom => ⟨?_, ?_⟩⟩
  · rw [State.actor_onCore_same, hcore]
    exact hdies
  · rw [State.actor_onCore_same, hcore]
    exact hfits hroom
  · rw [State.core_onCore_same, Core.mem_die, hcore]

end

end

end Sys2Proof.Machine
end

section
/-! CERTIFICATES. The arrivals of Kills (R53, R309) and of link requests at the peer (R157, R307, R308). -/

namespace Sys2Proof.Machine

open Sys2Proof.Claims (delivered signalled)

/-! ## Kills -/

section
variable {s : State} {n : Nat} {p : Packet} {dst killer : W64} {kinc : BitVec 8} {dom : BitVec 16} {every : Bool} {reason first : Nat}
  (hn : s.packet n = some p) (hp : p.pay = .kill dst killer kinc dom every reason first false)
include hn hp

theorem execKillArrival_kills {c i : Nat} (hr : s.reach dom every dst = .actor c i) (hcut : s.cut (s.actor c i).domain = false) :
    execKillArrival n s = .next ((s.take n).onCore c (·.die i reason 0 0)) := by
  simp [execKillArrival, evKillArrival, hn, hp, hr, hcut]

theorem execKillArrival_nobody (hlt : n < s.serial) (hr : s.reach dom every dst = .nobody) :
    ∃ t, execKillArrival n s = .next t ∧ t.packet n = none ∧ delivered t s.serial killer 0x33 dst 0 := by
  have hexec : execKillArrival n s = .next ((s.take n).delivery p.src (s.dieOf killer) killer kinc rNoproc dst 0 0) := by
    simp [execKillArrival, evKillArrival, hn, hp, hr]
  exact ⟨_, hexec, (State.packet_post_ne (s.take n) _ _ (Nat.ne_of_lt hlt)).trans (s.packet_take n),
    (s.take n).delivered_delivery _ _ _ _ _ _ _ rfl⟩

/-- A Kill waits for a pending name, and for an actor whose domain is being cut. -/
theorem execKillArrival_waits (hr : s.reach dom every dst = .pending ∨ ∃ c i, s.reach dom every dst = .actor c i ∧
      s.cut (s.actor c i).domain = true) : ∃ t q, execKillArrival n s = .next t ∧ t.packet n = some q ∧
        q.pay = .kill dst killer kinc dom every reason first true ∧ t.cores = s.cores := by
  have hexec : execKillArrival n s = .next { s with
      net := s.net.put n { p with born := s.cycle p.src, pay := .kill dst killer kinc dom every reason first true } } := by
    rcases hr with hr | ⟨c, i, hr, hcut⟩
    · simp [execKillArrival, evKillArrival, hn, hp, hr]
    · simp [execKillArrival, evKillArrival, hn, hp, hr, hcut]
  exact ⟨_, _, hexec, SMap.find_put_same .., rfl, rfl⟩

end

/-! ## Link requests -/

theorem Core.addLink_free {k : Core} {j : Nat} (h : k.freeLink = some j) (e : LinkEntry) : k.addLink e = { k with links := k.links.put j e } := by
  rw [Core.addLink, h]

theorem State.asks_iff (s : State) (r : LinkReq) : s.asks r = true ↔
    (s.actor r.askerCore r.askerSlot).name = r.asker ∧ (s.actor r.askerCore r.askerSlot).incarn = r.askerInc ∧
      (s.actor r.askerCore r.askerSlot).state.accepts = true := by
  simp [State.asks, and_assoc]

section
variable {s : State} {c i : Nat} {r : LinkReq}

theorem State.linkAt_nobody (h : s.reach r.domain false r.peer = .nobody ∨
    ∃ c i, s.reach r.domain false r.peer = .actor c i ∧ (s.actor c i).incarn ≠ r.pinc) : s.linkAt r = s.linkNobody r := by
  rcases h with h | ⟨c, i, h, hne⟩
  · simp only [State.linkAt, h]
  · simp only [State.linkAt, h]
    exact if_pos hne

/-- The far entry of a request that finds its peer, with no link there yet, takes the free place. -/
theorem State.linkAt_writes {j : Nat} (h : s.reach r.domain false r.peer = .actor c i) (hinc : (s.actor c i).incarn = r.pinc)
    (hf : (s.core c).freeLink = some j) (hnew : r.op.farKind = 1 →
      ∀ l ∈ (s.core c).links, ¬(l.2.kind = 1 ∧ l.2.slot = i ∧ l.2.peer = r.asker ∧ l.2.pinc = r.askerInc)) :
    s.linkAt r = s.onCore c fun q =>
      { q with links := q.links.put j { kind := r.op.farKind, slot := i, ref := r.ref, peer := r.asker, pinc := r.askerInc } } := by
  have hnone : ¬(r.op.farKind = 1 ∧ (s.core c).links.any (fun p => p.2.ties 1 i r.asker && p.2.pinc == r.askerInc) = true) := by
    rintro ⟨hkind, hany⟩
    obtain ⟨l, hl, hties⟩ := List.any_eq_true.1 hany
    exact hnew hkind l hl (by simpa [LinkEntry.ties, and_assoc] using hties)
  simp only [State.linkAt, h]
  rw [if_neg (not_not.2 hinc), if_neg hnone, hf, if_neg (by simp)]
  simp only [State.onCore, Core.addLink_free hf]

end

section
variable {s : State} {n : Nat} {p : Packet} {r : LinkReq} (hn : s.packet n = some p) (hp : p.pay = .linkReq r)
include hn hp

theorem execPeerLinkRequest_ties (hop : r.op = .link ∨ r.op = .monitor) :
    execPeerLinkRequest n s = .next (if s.asks r = true then (s.take n).linkAt r else s.take n) := by
  rcases hop with hop | hop <;> simp only [execPeerLinkRequest, evPeerLinkRequest, hn, hp, hop, Option.getD_some]

theorem execPeerLinkRequest_nobody (hlt : n < s.serial) (hop : r.op = .link ∨ r.op = .monitor) (ha : s.asks r = true)
    (h : s.reach r.domain false r.peer = .nobody ∨ ∃ c i, s.reach r.domain false r.peer = .actor c i ∧ (s.actor c i).incarn ≠ r.pinc) :
    ∃ t, execPeerLinkRequest n s = .next t ∧ t.packet n = none ∧
      signalled t s.serial r.asker (if r.op = .link then 1 else 2) 0x33 0 r.peer := by
  refine ⟨_, (execPeerLinkRequest_ties hn hp hop).trans (congrArg _ ((if_pos ha).trans (State.linkAt_nobody (s := s.take n) h))), ?_, ?_⟩
  · exact (State.packet_post_ne (s.take n) _ _ (Nat.ne_of_lt hlt)).trans (s.packet_take n)
  · refine ⟨_, _, (s.take n).packet_post _ _, rfl, rfl, ?_, rfl, rfl, rfl⟩
    rcases hop with hop | hop <;> simp [LinkReq.answer, hop, sExit, sDown]

theorem execPeerLinkRequest_writes {c i j : Nat} (hop : r.op = .link ∨ r.op = .monitor) (ha : s.asks r = true)
    (h : s.reach r.domain false r.peer = .actor c i) (hinc : (s.actor c i).incarn = r.pinc) (hf : (s.core c).freeLink = some j)
    (hnew : r.op = .link → ∀ l ∈ (s.core c).links, ¬(l.2.kind = 1 ∧ l.2.slot = i ∧ l.2.peer = r.asker ∧ l.2.pinc = r.askerInc)) :
    execPeerLinkRequest n s = .next ((s.take n).onCore c fun q => { q with
      links := q.links.put j { kind := if r.op = .link then 1 else 3, slot := i, ref := r.ref, peer := r.asker, pinc := r.askerInc } }) := by
  have hkind : r.op.farKind = if r.op = .link then 1 else 3 := by rcases hop with hop | hop <;> rw [hop] <;> rfl
  have hlink : r.op.farKind = 1 → r.op = .link := fun h1 => hop.resolve_right fun hm => absurd h1 (by rw [hm]; decide)
  rw [execPeerLinkRequest_ties hn hp hop, if_pos ha, State.linkAt_writes (s := s.take n) h hinc hf fun h1 => hnew (hlink h1), hkind]

theorem execPeerLinkRequest_unlinks {c i : Nat} (hop : r.op = .unlink) (hw : s.who r.peer = .actor c i) :
    execPeerLinkRequest n s = .next ((s.take n).onCore c fun q =>
      { q with links := q.links.filter fun l => !(l.2.kind == 1 && l.2.slot == i && l.2.peer == r.asker) }) := by
  have hwho : (s.take n).who r.peer = .actor c i := hw
  have hall : ∀ l : LinkEntry, (l.ties 1 i r.asker && ((1 : Nat) == 1 || l.ref == r.ref)) = l.ties 1 i r.asker := fun l => Bool.and_true _
  simp only [execPeerLinkRequest, evPeerLinkRequest, hn, hp, hop, State.unlinkAt, hwho, LinkOp.farKind, hall]
  rfl

end

end Sys2Proof.Machine
end

section
/-! CERTIFICATES. The arrivals of signals, Kills and link requests (R157, R158, R160, R165, R170, R307 to R309, R421). -/

namespace Sys2Proof.Machine

/-- Settles O49, by what each kind of packet finds where it arrives. -/
theorem arrivals : Obligations.Arrivals := by
  intro n c i p s hn hlt k a
  refine ⟨?signals, ?kills, ?links⟩
  case signals =>
    intro g hp heard linked unlinked rule event
    simp only [exec_signalArrival, exec_exitArrival, exec_downArrival, exec_childExitArrival]
    refine ⟨fun hk hw => exec_arrival_unheard hn hp hk (State.unheard_of_nobody hw),
      fun hk hw hinc => exec_arrival_unheard hn hp hk (State.unheard_of_incarn hw hinc),
      fun hk h => execSignalArrival_heard hn hp (by simpa using hk) h, fun hk h => execDownArrival_heard hn hp hk h,
      fun hk h ht => execExitArrival_not_tied hn hp h hk ht, fun hk h ht htrap => execExitArrival_places hn hp h hk ht htrap,
      fun hk h ht htrap hr => execExitArrival_links hn hp h hk ht htrap hr, fun hk h ht htrap hr => execExitArrival_ends hn hp h hk ht htrap hr,
      fun hk h hin hr => execChildExitArrival_noRule hn hp h hk hin hr, fun hk h hin => execChildExitArrival_inScope hn hp h hk hin,
      fun x r hk h hin hr => ⟨fun ha hm hs => ?_, fun ha hm hs => ?_, fun ha hm hmortal => ?_, fun ha => ?_⟩⟩
    · obtain ⟨t, m, q, rfl, hrest⟩ := State.restartScope_sole (s := s.take n) (c := c) (i := i) (x := x) (g := g) hs
      exact ⟨_, m, q, execChildExitArrival_restarts hn hp h hk hin hr ((r.restarts_iff _).2 ha) hm, hrest⟩
    · obtain ⟨hkilled, hscope⟩ := (s.take n).restartScope_takes c i g x r
      rw [State.taken_stamp hs] at hkilled hscope
      exact ⟨_, execChildExitArrival_restarts hn hp h hk hin hr ((r.restarts_iff _).2 ha) hm, hkilled,
        fun _ => ⟨_, hscope, rfl, rfl, rfl, g.mem_scope _⟩⟩
    · exact execChildExitArrival_limit hn hp h hk hin hr ((r.restarts_iff _).2 ha) hm hmortal
    · exact execChildExitArrival_ended hn hp h hk hin hr (Bool.eq_false_iff.2 fun he => ha ((r.restarts_iff _).1 he))
  case kills =>
    intro dst killer kinc dom every reason first hp
    rw [exec_killArrival]
    exact ⟨fun hr hcut => execKillArrival_kills hn hp hr hcut, fun hr => execKillArrival_nobody hn hp hlt hr,
      fun hr => execKillArrival_waits hn hp (hr.imp_right fun h => ⟨c, i, h⟩)⟩
  case links =>
    intro r hp asker lives kind
    have hasks : s.asks r = true ↔ lives := s.asks_iff r
    rw [exec_peerLinkRequest]
    refine ⟨fun j hop hl hr hinc hf hnew => ?_, fun hop hl hr => ?_, fun hop hl => ?_, fun hop hw => execPeerLinkRequest_unlinks hn hp hop hw⟩
    · exact execPeerLinkRequest_writes hn hp hop (hasks.2 hl) hr hinc hf hnew
    · exact execPeerLinkRequest_nobody hn hp hlt hop (hasks.2 hl) (hr.imp_right fun h => ⟨c, i, h⟩)
    · rw [execPeerLinkRequest_ties hn hp hop, if_neg fun ha => hl (hasks.1 ha)]

end Sys2Proof.Machine
end

section
/-! SUPPORT. Requests to the device services (R207): when one is taken, and how it is answered. -/

namespace Sys2Proof.Machine

/-! ## The request of a send entry leaves (R115) -/

/-- A send entry that has left without a receiving core. -/
def SendEntry.away (e : SendEntry) (c now : Nat) : SendEntry :=
  { e with phase := .flying, core := c, dest := none, tag := none, firstAt := now, left := true }

/-- The state in which a request has left without a receiving core. -/
def State.sentAway (s : State) (c : Nat) (e : SendEntry) : State := s.onSend c e.id fun _ => e.away c (s.now c)

/-- A request to a service leaves without a receiving core. -/
theorem State.leave_service (s : State) (c : Nat) {e : SendEntry} (h : isService e.msg.dst = true) :
    s.leave c e = s.onSend c e.id (·.away c (s.now c)) := by
  have hplain : (!s.reaches e.msg.domain e.msg.everyDomain e.msg.dst || isService e.msg.dst) = true := by rw [h, Bool.or_true]
  exact if_pos hplain

/-- A change of the one entry of an identity. -/
theorem State.onSend_only {s : State} {c id : Nat} {x : SendEntry} (hone : ∀ f ∈ (s.core c).sends, f.id = id → f = x)
    (g : SendEntry → SendEntry) : s.onSend c id g = s.onSend c id fun _ => g x := by
  have hmap : (s.core c).sends.map (fun f => if f.id = id then g f else f) = (s.core c).sends.map fun f => if f.id = id then g x else f :=
    List.map_congr_left fun f hf => by
      by_cases hid : f.id = id
      · rw [if_pos hid, if_pos hid, hone f hf hid]
      · rw [if_neg hid, if_neg hid]
  simp only [State.onSend, State.onCore, hmap]

/-- After a change of an entry, every entry of its identity is the changed one. -/
theorem State.only_onSend_const {s : State} {c id : Nat} {x : SendEntry} :
    ∀ f ∈ ((s.onSend c id fun _ => x).core c).sends, f.id = id → f = x := by
  intro f hf hid
  rw [State.sends_onSend] at hf
  obtain ⟨y, -, rfl⟩ := List.mem_map.1 hf
  by_cases hy : y.id = id
  · rw [if_pos hy]
  · rw [if_neg hy] at hid
    exact absurd hid hy

section
variable {s : State} {c : Nat} {e : SendEntry} (hserv : isService e.msg.dst = true)
include hserv

/-- Where a request has left, it leaves no further. -/
theorem State.leaveTurn_sentAway : State.leaveTurn c (s.sentAway c e) e = s.sentAway c e := by
  have htwice : ∀ x : SendEntry, (if (if x.id = e.id then e.away c (s.now c) else x).id = e.id then e.away c (s.now c)
      else if x.id = e.id then e.away c (s.now c) else x) = if x.id = e.id then e.away c (s.now c) else x := fun x => by
    by_cases hx : x.id = e.id
    · rw [if_pos hx, ite_self]
    · rw [if_neg hx, if_neg hx]
  unfold State.leaveTurn
  split
  · rw [State.leave_service _ c hserv, State.sentAway, State.onSend_only State.only_onSend_const]
    simp only [State.onSend, State.onCore_onCore, List.map_map, Function.comp_def]
    exact congrArg (s.onCore c) (funext fun k => congrArg (fun l => { k with sends := l }) (List.map_congr_left fun x _ => htwice x))
  · rfl

/-- Among entries that have left, a request that may leave does. -/
theorem State.leaveUpTo_service (he : e ∈ (s.core c).sends) (hsame : ∀ f ∈ (s.core c).sends, f.id = e.id → f = e)
    (hfirst : ∀ f ∈ (s.core c).sends, f.slot = e.slot → f.order < e.order → f.phase ≠ .waiting) (hw : e.phase = .waiting)
    (hmay : (s.core c).mayLeave e = true) : s.leaveUpTo c e = s.sentAway c e := by
  have hlist := fun f => State.eq_or_not_waiting_of_mem (f := f) hsame hfirst
  rw [State.leaveUpTo_eq]
  generalize hl : ((s.core c).sends.filter fun f => f.id == e.id || f.slot == e.slot && decide (f.order < e.order)) = l at hlist
  have hmem : e ∈ l := hl ▸ List.mem_filter.2 ⟨he, by simp⟩
  obtain ⟨l1, l2, rfl, hnot⟩ := List.eq_append_cons_of_mem hmem
  have hbefore : l1.foldl (State.leaveTurn c) s = s := State.foldl_leaveTurn_of_not_waiting fun f hf1 =>
    (hlist f (List.mem_append_left _ hf1)).resolve_left fun h => hnot (h ▸ hf1)
  have hturn : s.leaveTurn c e = s.sentAway c e := by
    rw [State.leaveTurn, if_pos ⟨hw, hmay⟩, State.leave_service s c hserv, State.onSend_only hsame]
    rfl
  rw [List.foldl_append, List.foldl_cons, hbefore, hturn]
  refine List.foldlRecOn (motive := (· = s.sentAway c e)) l2 _ rfl fun t ht f hf2 => ?_
  rw [ht]
  obtain rfl | hwait := hlist f (List.mem_append_right _ (List.mem_cons_of_mem _ hf2))
  · exact State.leaveTurn_sentAway hserv
  · exact State.leaveTurn_of_not_waiting hwait

end

/-! ## Taking a request (R207) -/

section
variable {s : State} {n : Nat} {p : Packet} {m : Msg} {via : Via} {since : Option Nat} (hn : s.packet n = some p)
  (hp : p.pay = .message m via since) (hreq : m.isRequest = true) (hrun : (s.pkg p.src).runs = true)
include hn hp hreq hrun

/-- A request without a send entry is taken off the network. -/
theorem State.request_free (hvia : ∀ c id, via ≠ .entry c id) : s.request n m.dst m.code = some (m, p.src, s.take n) := by
  simp only [State.request, hn, hp, hreq, hrun]
  cases via with
  | entry c id => exact absurd rfl (hvia c id)
  | free _ _ _ => simp
  | notice _ _ => simp

/-- A request whose message may leave is taken with a placed answer to its entry. -/
theorem State.request_entry {c id : Nat} {e : SendEntry} (hvia : via = .entry c id) (he : (s.core c).sends.find? (·.id == id) = some e)
    (hserv : isService e.msg.dst = true) (hw : e.phase = .waiting) (hone : ∀ f ∈ (s.core c).sends, f.id = id → f = e)
    (hold : ∀ f ∈ (s.core c).sends, f.slot = e.slot → f.order < e.order → f.phase ≠ .waiting) (hmay : (s.core c).mayLeave e = true) :
    s.request n m.dst m.code = some (m, p.src, (s.onSend c id fun _ => e.away c (s.now c)).answerSend c (e.away c (s.now c)) .placed) := by
  obtain rfl : e.id = id := by simpa using List.find?_some he
  have hleft := State.leaveUpTo_service hserv (List.mem_of_find?_eq_some he) hone hold hw hmay
  have hentry : (s.sentAway c e).sendEntry c e.id = some (e.away c (s.now c)) := by
    rw [State.sentAway, ← State.onSend_only hone (·.away c (s.now c)), State.sendEntry, State.sends_onSend,
      find?_changed (g := (·.away c (s.now c))) fun _ => rfl, he]
    rfl
  have hfind : s.sendEntry c e.id = some e := he
  simp only [State.request, hn, hp, hvia, hreq, hrun, hfind, hleft, hentry]
  simp [SendEntry.away]
  rfl

end

/-! ## Answering -/

theorem State.served_request {s s1 : State} {n code pkg : Nat} {service : W64} {m : Msg} (h : s.request n service code = some (m, pkg, s1))
    (f : State → Nat → Msg → State × List W64) : s.served n service code f = some ((f s1 pkg m).1.reply pkg m (f s1 pkg m).2) := by
  simp only [State.served, h, Option.map_some]

end Sys2Proof.Machine
end

section
/-! CERTIFICATES. The requests of the counter service (R207, R208). -/

namespace Sys2Proof.Machine

/-! ## Words of requests -/

/-- A select word, field by field. -/
theorem Pmc.ofWord_eq (w : W64) : Pmc.ofWord w =
    { en := w.getLsbD 25, dfilt := w.getLsbD 24, domain := w.extractLsb' 8 16, event := w.toNat % 256, count := 0 } := by
  have hdomain : BitVec.ofNat 16 (bits w.toNat 23 8) = w.extractLsb' 8 16 := BitVec.eq_of_toNat_eq (by simp [bits])
  rw [Pmc.ofWord, hdomain, bits_low_byte]

theorem Vector.set_mod {α : Type} {n i : Nat} (v : Vector α n) (x : α) (h : i < n) (hm : i % n < n) : v.set (i % n) x hm = v.setIfInBounds i x := by
  refine Vector.ext fun j hj => ?_
  simp only [Nat.mod_eq_of_lt h, Vector.getElem_set, Vector.getElem_setIfInBounds]

/-! ## Reading and programming -/

section
variable {s s1 : State} {n pkg : Nat} {m : Msg} (h : s.request n 3 1 = some (m, pkg, s1))
include h

theorem execCounterRead_refused (hr : s1.named pkg m m.body[1] = none) : execCounterRead n s = .next (s1.reply pkg m [1]) := by
  simp only [execCounterRead, evCounterRead]
  rw [State.served_request (service := counterService) h, hr]
  rfl

theorem execCounterRead_reads {r : CounterRef} (hr : s1.named pkg m m.body[1] = some r) : execCounterRead n s =
    .next (s1.reply pkg m [0, BitVec.ofInt 64 (s1.counterValue r), BitVec.ofNat 64 (s1.cycle pkg)]) := by
  simp only [execCounterRead, evCounterRead]
  rw [State.served_request (service := counterService) h, hr]
  rfl

end

section
variable {s s1 : State} {n pkg : Nat} {m : Msg} (h : s.request n 3 2 = some (m, pkg, s1))
include h

theorem execCounterProgram_refused (hst : s1.programStatus m (counterRef m.body[1]) m.body[2] ≠ 0) : execCounterProgram n s =
    .next (s1.reply pkg m [BitVec.ofNat 64 (s1.programStatus m (counterRef m.body[1]) m.body[2])]) := by
  simp only [execCounterProgram, evCounterProgram]
  rw [State.served_request (service := counterService) h]
  split
  · rename_i h0 _
    exact absurd h0 hst
  · rfl

theorem execCounterProgram_programs {r : CounterRef} (hr : counterRef m.body[1] = some r)
    (hst : s1.programStatus m (counterRef m.body[1]) m.body[2] = 0) :
    execCounterProgram n s = .next ((s1.setPmc r (Pmc.ofWord m.body[2])).reply pkg m [0]) := by
  simp only [execCounterProgram, evCounterProgram]
  rw [State.served_request (service := counterService) h, hst, hr]
  rfl

end

/-! ## Thresholds -/

section
variable {s s1 : State} {n pkg : Nat} {m : Msg} (h : s.request n 3 3 = some (m, pkg, s1))
include h

theorem execThresholdSet_refused (hr : s1.named pkg m m.body[1] = none) : execThresholdSet n s = .next (s1.reply pkg m [1]) := by
  simp only [execThresholdSet, evThresholdSet]
  rw [State.served_request (service := counterService) h, hr]
  rfl

variable {r : CounterRef} (hr : s1.named pkg m m.body[1] = some r)
include hr

theorem execThresholdSet_bad (hb : thresholdBad m = true) : execThresholdSet n s = .next (s1.reply pkg m [3]) := by
  simp only [execThresholdSet, evThresholdSet]
  rw [State.served_request (service := counterService) h, hr, hb]
  rfl

variable (hb : thresholdBad m = false)
include hb

theorem execThresholdSet_full (hall : ∀ j, j < 1024 → ((s1.pkg pkg).thresholds.find j).isSome = true) :
    execThresholdSet n s = .next (s1.reply pkg m [2]) := by
  have hfind : (List.range 1024).find? (fun i => ((s1.pkg pkg).thresholds.find i).isNone) = none :=
    List.find?_eq_none.2 fun j hj => by
      simpa using Option.isSome_iff_ne_none.1 (hall j (List.mem_range.1 hj))
  simp only [execThresholdSet, evThresholdSet]
  rw [State.served_request (service := counterService) h, hr, hb, hfind]
  rfl

theorem execThresholdSet_sets {i : Nat} (hi : i < 1024) (hfree : (s1.pkg pkg).thresholds.find i = none)
    (hlow : ∀ j, j < i → ((s1.pkg pkg).thresholds.find j).isSome = true) : execThresholdSet n s = .next ((s1.onPkg pkg fun p =>
      { p with thresholds := p.thresholds.put i (Threshold.ofMsg m (s1.counterValue r)) }).reply pkg m [0, BitVec.ofNat 64 i]) := by
  have hfind : (List.range 1024).find? (fun i => ((s1.pkg pkg).thresholds.find i).isNone) = some i :=
    List.find?_range_eq_some.2 ⟨by simp [hfree], List.mem_range.2 hi, fun j hj => by simp [hlow j hj]⟩
  simp only [execThresholdSet, evThresholdSet]
  rw [State.served_request (service := counterService) h, hr, hb, hfind]
  rfl

end

section
variable {s s1 : State} {n pkg : Nat} {m : Msg} (h : s.request n 3 4 = some (m, pkg, s1))
include h

theorem execThresholdCancel_none (ht : (s1.pkg pkg).thresholds.find (m.body[1]).toNat = none) :
    execThresholdCancel n s = .next (s1.reply pkg m [3]) := by
  simp only [execThresholdCancel, evThresholdCancel]
  rw [State.served_request (service := counterService) h, ht]
  rfl

variable {t : Threshold} (ht : (s1.pkg pkg).thresholds.find (m.body[1]).toNat = some t)
include ht

theorem execThresholdCancel_cancels (hd : m.domain = 0 ∨ t.domain = m.domain) : execThresholdCancel n s =
    .next ((s1.onPkg pkg fun p => { p with thresholds := p.thresholds.del (m.body[1]).toNat }).reply pkg m [0]) := by
  simp only [execThresholdCancel, evThresholdCancel]
  rw [State.served_request (service := counterService) h, ht]
  simp only [if_pos hd]
  rfl

theorem execThresholdCancel_refused (h0 : m.domain ≠ 0) (hd : t.domain ≠ m.domain) : execThresholdCancel n s = .next (s1.reply pkg m [1]) := by
  simp only [execThresholdCancel, evThresholdCancel]
  rw [State.served_request (service := counterService) h, ht]
  simp only [if_neg (not_or.2 ⟨h0, hd⟩)]
  rfl

end

theorem counterRequests (n pkg : Nat) (m : Msg) (s s1 : State) : Claims.CounterRequests n pkg m s s1 := by
  unfold Claims.CounterRequests
  intro answers lowest id
  simp only [exec_counterRead, exec_counterProgram, exec_thresholdSet, exec_thresholdCancel]
  refine ⟨fun h => ⟨execCounterRead_refused h, fun r hr => execCounterRead_reads h hr⟩, fun h => ?program, fun h => ?set, fun h => ?cancel⟩
  case program =>
    refine ⟨execCounterProgram_refused h, fun c i hr hi hst => ?_, fun e i hr hi hst => ?_, fun o i hr hi hst => ?_⟩
    · rw [execCounterProgram_programs h hr hst, Pmc.ofWord_eq, State.setPmc]
      simp only [Vector.set_mod _ _ hi]
      rfl
    · rw [execCounterProgram_programs h hr hst, Pmc.ofWord_eq, State.setPmc]
      simp only [Vector.set_mod _ _ hi]
      rfl
    · rw [execCounterProgram_programs h hr hst, Pmc.ofWord_eq, State.setPmc]
      simp only [Vector.set_mod _ _ hi]
      rfl
  case set =>
    refine ⟨execThresholdSet_refused h, fun r hr hb => execThresholdSet_bad h hr hb, fun r hr hb hall => execThresholdSet_full h hr hb hall,
      fun r i hr hb hlow => ⟨_, execThresholdSet_sets h hr hb hlow.1 hlow.2.1 hlow.2.2, rfl, rfl, rfl, rfl, rfl, argChannel _, rfl⟩⟩
  case cancel =>
    exact ⟨execThresholdCancel_none h, fun t ht hd => execThresholdCancel_cancels h ht hd,
      fun t ht h0 hd => execThresholdCancel_refused h ht h0 hd⟩

end Sys2Proof.Machine
end

section
/-! SUPPORT. The registries, the topology service and the parcels of the attestation service (R387, R390, R392, R399). -/

namespace Sys2Proof.Machine

/-! ## Registries -/

section
variable {l : List Registration} {limit : Nat} {m : Msg} (hnew : ∀ r ∈ l, r.name ≠ m.sender)
include hnew

theorem register_fresh (h : (l.filter fun r => r.domain == m.domain).length < limit) :
    register l limit m = some (l ++ [{ name := m.sender, domain := m.domain }]) := by
  have hany : ¬(l.any fun x => x.name == m.sender) = true := by simpa using hnew
  rw [register, if_neg hany, if_neg (Nat.not_le.2 h)]

theorem register_full (h : limit ≤ (l.filter fun r => r.domain == m.domain).length) : register l limit m = none := by
  have hany : ¬(l.any fun x => x.name == m.sender) = true := by simpa using hnew
  rw [register, if_neg hany, if_pos h]

end

/-! ## A unit's state (R387) -/

theorem State.unitState_eq (s : State) (d : W64) :
    let c := computeKey (d.toNat / 2 ^ 52) (d.toNat / 2 ^ 50 % 4) (d.toNat / 2 ^ 36 % 2 ^ 12)
    s.unitState d = if 1024 ≤ d.toNat / 2 ^ 36 % 2 ^ 12 ∨ s.coreExists c = false ∨ (s.pkg (corePkg c)).lost = true then 3
      else if (s.core c).gone then 2 else if (s.core c).mxLost then 1 else 0 := by
  have hpkg : bits d.toNat 63 52 = d.toNat / 2 ^ 52 := by
    rw [bits_eq_div, Nat.mod_eq_of_lt]
    have := d.isLt
    omega
  have hdie : bits d.toNat 51 50 = d.toNat / 2 ^ 50 % 4 := bits_eq_div ..
  have hunit : bits d.toNat 47 36 = d.toNat / 2 ^ 36 % 2 ^ 12 := bits_eq_div ..
  simp only [State.unitState, hpkg, hdie, hunit, Bool.not_eq_true', ge_iff_le]

/-! ## Sets of bits -/

/-- The bits of a sum of rising powers of two. -/
theorem testBit_sum_two_pow {l : List Nat} (h : l.SortedLT) (i : Nat) : (l.map (2 ^ ·)).sum.testBit i = true ↔ i ∈ l := by
  rw [← Nat.mem_bitIndices, Nat.bitIndices_sum_map_two_pow h]

theorem getLsbD_sum_two_pow {l : List Nat} (h : l.SortedLT) {i : Nat} (hi : i < 64) :
    (BitVec.ofNat 64 (l.map (2 ^ ·)).sum).getLsbD i = true ↔ i ∈ l := by
  rw [BitVec.getLsbD_ofNat, ← testBit_sum_two_pow h]
  simp [hi]

/-! ## The words of a grant (R387, R390) -/

/-- The clusters of a die in a grant, by their numbers on the die. -/
def Package.grantOn (p : Package) (dom : BitVec 16) (d : Nat) : List Nat := ((p.liveGrant dom).filter fun c => c / 64 == d).map (· % 64)

theorem Package.sorted_grantOn (p : Package) (dom : BitVec 16) (d : Nat) : (p.grantOn dom d).SortedLT := by
  have hrange : (List.range 256).Pairwise (· < ·) := List.pairwise_lt_range
  refine List.Pairwise.sortedLT (List.pairwise_map.2 (((hrange.filter _).filter _).imp_of_mem fun ha hb hlt => ?_))
  have hda := (List.mem_filter.1 ha).2
  have hdb := (List.mem_filter.1 hb).2
  simp only [beq_iff_eq] at hda hdb
  omega

theorem Package.mem_grantOn (p : Package) (dom : BitVec 16) {c d : Nat} (hc : c < 64) (hd : d < 4) : c ∈ p.grantOn dom d ↔
    (dom = 0 ∨ d * 64 + c ∈ (p.grants.get {} dom.toNat).clusters) ∧ d * 64 + c ∉ p.lostClusters := by
  have hkey : c ∈ p.grantOn dom d ↔ d * 64 + c ∈ p.liveGrant dom := by
    simp only [Package.grantOn, List.mem_map, List.mem_filter, beq_iff_eq]
    constructor
    · rintro ⟨x, ⟨hx, hdie⟩, hnum⟩
      rwa [show d * 64 + c = x by omega]
    · exact fun h => ⟨_, ⟨h, by omega⟩, by omega⟩
  have hlt : d * 64 + c < 256 := by omega
  rw [hkey, Package.liveGrant, List.mem_filter, List.mem_range]
  simp [hlt]

/-- The dies of a grant. -/
def Package.grantDies (p : Package) (dom : BitVec 16) : List Nat :=
  if dom = 0 then List.range 4 else (List.range 4).filter (p.grants.get {} dom.toNat).dies.contains

theorem Package.sorted_grantDies (p : Package) (dom : BitVec 16) : (p.grantDies dom).SortedLT := by
  have hrange : (List.range 4).Pairwise (· < ·) := List.pairwise_lt_range
  unfold Package.grantDies
  split
  · exact hrange.sortedLT
  · exact (hrange.filter _).sortedLT

theorem Package.mem_grantDies (p : Package) (dom : BitVec 16) (d : Nat) :
    d ∈ p.grantDies dom ↔ d < 4 ∧ (dom = 0 ∨ d ∈ (p.grants.get {} dom.toNat).dies) := by
  unfold Package.grantDies
  split
  · rename_i h
    simp [h]
  · rename_i h
    rw [List.mem_filter, List.mem_range, List.contains_iff_mem, or_iff_right h]

theorem Package.grantWords_eq (p : Package) (dom : BitVec 16) : p.grantWords dom =
    BitVec.ofNat 64 ((p.grantDies dom).map (2 ^ ·)).sum :: (List.range 4).map fun d => BitVec.ofNat 64 ((p.grantOn dom d).map (2 ^ ·)).sum := by
  simp only [Package.grantWords, Package.grantOn, List.map_map]
  rfl

/-! ## Parcels of a service (R399) -/

theorem State.parcelRoom_iff (s : State) (name : W64) (size chan : Nat) : s.parcelRoom name size chan = true ↔
    (∃ g x, s.who name = .gateway g x) ∨ ∃ c i, s.who name = .actor c i ∧ (s.core c).chanFull i chan = false ∧
      (s.core c).freeEntry.isSome = true ∧ ((s.core c).findRun size).isSome = true := by
  unfold State.parcelRoom
  cases s.who name <;> simp [and_assoc]

/-- The bytes of a quote are those of its 17 granules. -/
theorem Package.length_quote (p : Package) (pkg : Nat) (m : Msg) : (p.quote pkg m).length = 17408 := by
  have hflat : ∀ {α : Type} (l : List α) (f : α → List Byte) (n : Nat), (∀ x, (f x).length = n) → (l.flatMap f).length = l.length * n :=
    fun l f n hf => by simp only [List.length_flatMap, hf, List.map_const', List.sum_replicate, smul_eq_mul]
  have hdigest : ∀ l, (digestBytes (measured l)).length = 48 := fun _ => length_toBytes ..
  simp only [Package.quote, List.length_append, length_toBytes, List.length_replicate, hflat _ _ 8 fun v : W64 => length_toBytes 8 v.toNat,
    hflat _ _ 48 hdigest, List.length_take, List.length_drop, Vector.length_toList]
  rfl

end Sys2Proof.Machine
end

section
/-! CERTIFICATES. The requests of the device services (R207, R387, R390, R392, R399, R404). -/

namespace Sys2Proof.Machine

/-! ## Registering -/

/-- The registering of a sender in one of a package's registries. -/
def registering (regs : Package → List Registration) (put : List Registration → Package → Package) (limit : Nat) (s : State) (pkg : Nat) (m : Msg) :
    State × List W64 :=
  match register (regs (s.pkg pkg)) limit m with
  | some l => (s.onPkg pkg (put l), [0])
  | none => (s, [2])

theorem evTopologyRegister_eq (n : Nat) (s : State) : evTopologyRegister n s =
    s.served n topologyService 1 (registering (·.topoRegs) (fun l p => { p with topoRegs := l }) 16) := rfl

theorem evAttestRegister_eq (n : Nat) (s : State) : evAttestRegister n s =
    s.served n attestationService 1 (registering (·.attRegs) (fun l p => { p with attRegs := l }) 4) := rfl

theorem evPowerServiceRegister_eq (n : Nat) (s : State) : evPowerServiceRegister n s =
    s.served n powerService 1 (registering (·.powRegs) (fun l p => { p with powRegs := l }) 16) := rfl

section
variable {s s1 : State} {n pkg limit : Nat} {m : Msg} {service : W64} (h : s.request n service 1 = some (m, pkg, s1))
  {regs : Package → List Registration} (put : List Registration → Package → Package) (hnew : ∀ r ∈ regs (s1.pkg pkg), r.name ≠ m.sender)
include h hnew

/-- A sender that is not on the list, below the limit of its domain, is written down once. -/
theorem State.served_registering_fresh (hroom : ((regs (s1.pkg pkg)).filter fun r => r.domain == m.domain).length < limit) :
    (s.served n service 1 (registering regs put limit)).getD s =
      (s1.onPkg pkg (put (regs (s1.pkg pkg) ++ [{ name := m.sender, domain := m.domain }]))).reply pkg m [0] := by
  simp only [State.served_request h, registering, register_fresh hnew hroom, Option.getD_some]

/-- A sender whose domain holds the limit is told. -/
theorem State.served_registering_full (hfull : limit ≤ ((regs (s1.pkg pkg)).filter fun r => r.domain == m.domain).length) :
    (s.served n service 1 (registering regs put limit)).getD s = s1.reply pkg m [2] := by
  simp only [State.served_request h, registering, register_full hnew hfull, Option.getD_some]

end

/-! ## The topology service -/

section
variable {s s1 : State} {n pkg : Nat} {m : Msg}

theorem execTopologyReadUnit_answers (h : s.request n 4 3 = some (m, pkg, s1)) :
    execTopologyReadUnit n s = .next (s1.reply pkg m [0, BitVec.ofNat 64 (s1.unitState m.body[1])]) := by
  simp only [execTopologyReadUnit, evTopologyReadUnit, State.served_request (service := topologyService) h, Option.getD_some]

theorem execTopologyReadGrant_answers (h : s.request n 4 4 = some (m, pkg, s1)) :
    execTopologyReadGrant n s = .next (s1.reply pkg m (0 :: (s1.pkg pkg).grantWords m.domain)) := by
  simp only [execTopologyReadGrant, evTopologyReadGrant, State.served_request (service := topologyService) h, Option.getD_some]

end

/-- The words of a grant, bit by bit. -/
theorem Package.grantWords_bits (p : Package) (dom : BitVec 16) : ∃ w0 w1 w2 w3 w4, p.grantWords dom = [w0, w1, w2, w3, w4] ∧
    (∀ d, d < 64 → (w0.getLsbD d = true ↔ d < 4 ∧ (dom = 0 ∨ d ∈ (p.grants.get {} dom.toNat).dies))) ∧
    ∀ c d, c < 64 → d < 4 → (([w1, w2, w3, w4].getD d 0).getLsbD c = true ↔
      (dom = 0 ∨ d * 64 + c ∈ (p.grants.get {} dom.toNat).clusters) ∧ d * 64 + c ∉ p.lostClusters) := by
  refine ⟨_, _, _, _, _, p.grantWords_eq dom, fun d hd => ?_, fun c d hc hd => ?_⟩
  · rw [getLsbD_sum_two_pow (p.sorted_grantDies dom) hd, p.mem_grantDies]
  · rw [← p.mem_grantOn dom hc hd, ← getLsbD_sum_two_pow (p.sorted_grantOn dom d) hc]
    interval_cases d <;> rfl

/-! ## Parcels -/

/-- The channel that a request names for a parcel. -/
def Msg.parcelChan (m : Msg) : Nat := (m.body[7]).toNat % 4

section
variable {s s1 : State} {n pkg code bytes : Nat} {m : Msg} (h : s.request n 5 code = some (m, pkg, s1)) {body : State → Nat → Msg → List Byte}
  (hbytes : (body s1 pkg m).length = bytes)
include h hbytes

/-- Where the asker has no room it is told. -/
theorem State.servedParcel_noRoom (hroom : ¬s1.parcelRoom m.sender (parcelGranules bytes) m.parcelChan = true) :
    (s.servedParcel n code body).getD s = s1.reply pkg m [1] := by
  simp only [State.servedParcel, State.served_request (service := attestationService) h, argChannel, Option.getD_some, hbytes]
  rw [Msg.parcelChan] at hroom
  simp only [if_neg hroom]

/-- Where the asker has room the parcel leaves, before the answer. -/
theorem State.servedParcel_room (hroom : s1.parcelRoom m.sender (parcelGranules bytes) m.parcelChan = true) :
    ∃ x g, ((s.servedParcel n code body).getD s).packet s1.serial = some x ∧ x.pay = .parcel g ∧ g.body = body s1 pkg m ∧ g.dst = m.sender ∧
      g.chan = m.parcelChan ∧ g.giver = attestationService ∧ g.kind = 0 ∧ g.giverEntry = none := by
  have hserved : (s.servedParcel n code body).getD s =
      (s1.sendBody pkg attestationService m.domain m.sender m.parcelChan 0 (body s1 pkg m)).reply pkg m [0] := by
    simp only [State.servedParcel, State.served_request (service := attestationService) h, argChannel, Option.getD_some, hbytes]
    rw [Msg.parcelChan] at hroom
    simp only [if_pos hroom]
    rfl
  rw [hserved]
  exact ⟨_, _, (State.packet_post_ne (s1.sendBody ..) _ _ (Nat.succ_ne_self s1.serial).symm).trans (State.packet_post ..),
    rfl, rfl, rfl, rfl, rfl, rfl, rfl⟩

end

/-- Settles O56, request by request. -/
theorem services : Obligations.Services := by
  intro n pkg m s s1 replies p fresh full me room sent
  have hroom : ∀ bytes, s1.parcelRoom m.sender (parcelGranules bytes) m.parcelChan = true ↔ room bytes := fun bytes =>
    s1.parcelRoom_iff m.sender (parcelGranules bytes) m.parcelChan
  simp only [exec_topologyRegister, exec_attestRegister, exec_powerServiceRegister, exec_topologyDeregister, exec_attestDeregister,
    exec_powerServiceDeregister, exec_topologyReadUnit, exec_topologyReadGrant, exec_quote, exec_logRead]
  refine ⟨counterRequests n pkg m s s1, fun svc code q via since hn hp hdst hserv hreq hcode hrun => ?taken, fun h => ?topology, fun h => ?attest,
    fun h => ?power, fun h => ?topologyOff, fun h => ?attestOff, fun h => ?powerOff, fun h => ?unit, fun h => ?grant, fun h => ?quote, fun h => ?log⟩
  case taken =>
    subst hdst hcode
    refine ⟨fun hvia => State.request_free hn hp hreq hrun hvia, fun c id e hvia he hm hw hone hold hmay => ?_⟩
    exact State.request_entry hn hp hreq hrun hvia he (hm ▸ hserv) hw hone hold hmay
  case topology =>
    rw [execTopologyRegister, evTopologyRegister_eq]
    exact ⟨fun hf => congrArg _ (State.served_registering_fresh h _ hf.1 hf.2), fun hf => congrArg _ (State.served_registering_full h _ hf.1 hf.2)⟩
  case attest =>
    rw [execAttestRegister, evAttestRegister_eq]
    exact ⟨fun hf => congrArg _ (State.served_registering_fresh h _ hf.1 hf.2), fun hf => congrArg _ (State.served_registering_full h _ hf.1 hf.2)⟩
  case power =>
    rw [execPowerServiceRegister, evPowerServiceRegister_eq]
    exact ⟨fun hf => congrArg _ (State.served_registering_fresh h _ hf.1 hf.2), fun hf => congrArg _ (State.served_registering_full h _ hf.1 hf.2)⟩
  case topologyOff =>
    simp only [execTopologyDeregister, evTopologyDeregister, State.served_request (service := topologyService) h]
    rfl
  case attestOff =>
    simp only [execAttestDeregister, evAttestDeregister, State.served_request (service := attestationService) h]
    rfl
  case powerOff =>
    simp only [execPowerServiceDeregister, evPowerServiceDeregister, State.served_request (service := powerService) h]
    rfl
  case unit =>
    have hunit := s1.unitState_eq m.body[1]
    refine ⟨fun ha => ?_, fun ha => ?_⟩
    · rw [execTopologyReadUnit_answers h, hunit, if_pos ha]
      rfl
    · rw [execTopologyReadUnit_answers h, hunit, if_neg ha]
      split
      · rfl
      · split <;> rfl
  case grant =>
    obtain ⟨w0, w1, w2, w3, w4, hwords, hbits⟩ := (s1.pkg pkg).grantWords_bits m.domain
    exact ⟨w0, w1, w2, w3, w4, by rw [execTopologyReadGrant_answers h, hwords]; rfl, hbits⟩
  case quote =>
    have hbytes := (s1.pkg pkg).length_quote pkg m
    refine ⟨hbytes, fun hr => ⟨_, rfl, ?_⟩, fun hr => congrArg Host.Outcome.next ?_⟩
    · exact State.servedParcel_room (body := fun s pkg m => (s.pkg pkg).quote pkg m) h hbytes ((hroom 17408).2 hr)
    · exact State.servedParcel_noRoom (body := fun s pkg m => (s.pkg pkg).quote pkg m) h hbytes (mt (hroom 17408).1 hr)
  case log =>
    refine ⟨fun hr => ⟨_, rfl, ?_⟩, fun hr => congrArg Host.Outcome.next ?_⟩
    · exact State.servedParcel_room h rfl ((hroom _).2 hr)
    · exact State.servedParcel_noRoom h rfl (mt (hroom _).1 hr)

end Sys2Proof.Machine
end
